-- ==== Sys2Proof/Word.lean ====
section
/-! DEFINITION. The words the manual speaks of: bytes and the five integer operand sizes (03 R79), with the plainest
conversions between words and bytes (little-endian, 00 "Numbers and units"). -/

namespace Sys2Proof

/-- One byte. -/
abbrev Byte := BitVec 8
/-- A .H value. -/
abbrev Half := BitVec 16
/-- A .W value. -/
abbrev Word32 := BitVec 32
/-- A .Q value, a 64-bit register. -/
abbrev Word := BitVec 64
/-- A .O value. -/
abbrev Oct := BitVec 128
/-- A cache line of 64 bytes. -/
abbrev LineData := BitVec 512

/-- A condition as a one-bit number. -/
def bit01 (b : Bool) : Nat := if b then 1 else 0

end Sys2Proof
end

