-- ==== Sys2Proof/Syntax.lean ====
section
/-! DEFINITION. The commands of the block: one constructor of `Instr` for each row of the table of operations and
events, with the operands of that row. A processor instruction names the logical-processor slot that executes it
(6c + k for slot k of cluster Cc, 96 and 97 for CP0 and CP1) and its decoded operand specifiers (03 R83). An event of
the physical world (a frame, a packet, a check's verdict, a pin) carries what arrives from outside. -/

namespace Sys2Proof

/-- The four sizes of opcodes 0x00-0x3F (03 R82). -/
inductive ISize where | b | h | w | q
  deriving DecidableEq, Repr

/-- All five integer operand sizes (03 R79). -/
inductive Size where | b | h | w | q | o
  deriving DecidableEq, Repr

/-- The sizes of MOVZ and MOVS (04 R113). -/
inductive SSize where | b | h | w
  deriving DecidableEq, Repr

/-- The sizes of BSWAP (04 R113). -/
inductive HSize where | h | w | q
  deriving DecidableEq, Repr

/-- The two sizes of CVTPB and CVTBP (04 R120). -/
inductive QSize where | q | o
  deriving DecidableEq, Repr

/-- The three floating-point formats (05 R136): binary32, binary64, binary128. -/
inductive FFmt where | w | q | o
  deriving DecidableEq, Repr

/-- The six format conversions of FCVT (04 R117), destination format first. -/
inductive CvtPair where | qw | ow | wq | oq | wo | qo
  deriving DecidableEq, Repr

/-- The displacement that a mode 0x6 index byte announces (03 R84); `bad` is dsize 0b11. -/
inductive Disp where | none | d8 (d : BitVec 8) | d32 (d : BitVec 32) | bad
  deriving DecidableEq, Repr

/-- An operand specifier (03 R83). `z` is bits [3:0] of a specifier byte where the mode needs them zero. -/
inductive Spec where
  | slot (n : BitVec 5)                                   -- modes 0x0 and 0x1: w0-w31
  | base (n : BitVec 4)                                   -- mode 0x2
  | ind (n : BitVec 4)                                    -- mode 0x3
  | ind8 (n : BitVec 4) (d : BitVec 8)                    -- mode 0x4
  | ind32 (n : BitVec 4) (d : BitVec 32)                  -- mode 0x5
  | index (n x : BitVec 4) (scale : BitVec 2) (d : Disp)  -- mode 0x6
  | postInc (n : BitVec 4)                                -- mode 0x7
  | preDec (n : BitVec 4)                                 -- mode 0x8
  | deref (n : BitVec 4) (d : BitVec 32)                  -- mode 0x9
  | pcRel (z : BitVec 4) (d : BitVec 32)                  -- mode 0xA
  | abs (z : BitVec 4) (a : BitVec 64)                    -- mode 0xB
  | imm (z : BitVec 4) (v : BitVec 128)                   -- mode 0xC, the low S bytes count
  | lit (n : BitVec 4)                                    -- mode 0xD
  | wpRel (z : BitVec 4) (d : BitVec 8)                   -- mode 0xE
  | reserved (n : BitVec 4)                               -- mode 0xF
  deriving DecidableEq, Repr

/-- The five compare-and-branch conditions (04 R115). -/
inductive CbCond where | eq | ne | lt | ge | lo
  deriving DecidableEq, Repr

/-- A string instruction with its operands (04 R124), or the byte that an RPT prefix wrongly precedes (R123). -/
inductive StrOp where
  | smov | smovr
  | scmp (d : Spec) | sscn (d a : Spec) | sscnn (d a : Spec)
  | sfil (a : Spec) | sxlt (t : Spec)
  | scrc (m : Spec) | ssum (m : Spec) | sspn (d t : Spec)
  | sand | sor | sxor
  | spopc (m : Spec) | sxch
  | notString (byte : BitVec 8)
  deriving DecidableEq, Repr

/-- What the comparator slice of a pair detected (02 R37, R38, R50). `sinceDisagree` is the number of cycles since the
synchroniser lanes last differed, where they ever did. -/
inductive Detect where
  | mismatch (lane : Nat) (sinceDisagree : Option Nat)
  | comparatorFault (lane : Nat)
  | delayFault
  | l1Parity (addr : Nat)
  deriving DecidableEq, Repr

/-- The verdicts that a re-pairing meets (02 R54, R55): the core checks of both copies, the check of the spare core or
slice, and a further fault of the same pair during steps 2 to 9. -/
structure RepairVerdict where
  leadOk  : Bool
  trailOk : Bool
  spareOk : Bool
  further : Bool
  deriving DecidableEq, Repr

/-- What a Tamler access reads or writes (02 R63). -/
inductive TamlerItem where
  | baseReg (n : BitVec 4) | sysReg (n : BitVec 8) | pc | wslot (n : BitVec 5) | memory (addr : Nat)
  deriving DecidableEq, Repr

/-- A cache that corrects errors: the L2 of a cluster or a system-cache slice (07 R176). -/
inductive CacheUnit where | l2 (c : Nat) | slice (s : Nat)
  deriving DecidableEq, Repr

/-- A range-maintenance engine (07 R187): of a cluster, or of the hub. -/
inductive RangeEngine where | cluster (c : Nat) | hub (h : Nat)
  deriving DecidableEq, Repr

/-- The RM_CTRL fields other than start and op that start a range operation (07 R203). -/
structure RmArgs where
  way : BitVec 4
  dbEn : Bool
  dbBit : BitVec 5
  dbTarget : BitVec 12
  deriving DecidableEq, Repr

/-- What a cache read finds in a word or tag (07 R194, R195). -/
inductive EccFind where | clean | correctableData | correctableTag | uncorrectableData | uncorrectableTag (trustDirty : Bool)
  deriving DecidableEq, Repr

/-- What a journal scrub finds in a row of one bank (08 R225). -/
inductive NvjFind where | clean | correctable | uncorrectable
  deriving DecidableEq, Repr

/-- The verify results of one journal record's writes, oldest first: bank A passed, bank B passed. A write beyond the
list passes in both banks (08 R225). -/
abbrev Verifies := List (Bool × Bool)

/-- One application data unit of a sampled-value frame, as decoded (09 R259, R264). -/
structure Asdu where
  svIdCrc   : BitVec 32
  svIdLen   : Nat
  smpCnt    : Nat
  confRev   : BitVec 32
  smpSynch  : Nat
  simulate  : Bool
  data      : List (BitVec 32 × BitVec 32)
  malformed : Bool
  deriving DecidableEq, Repr

/-- One allData entry of a GOOSE message in the slot form of 09 R266; `accepted` is false for a structured entry or
another tag. -/
structure GooseEntry where
  accepted : Bool
  slot     : BitVec 64
  deriving DecidableEq, Repr

/-- A decoded GOOSE message (09 R266-R268). -/
structure GooseMsg where
  gocbCrc : BitVec 32
  gocbLen : Nat
  confRev : BitVec 32
  stNum   : Nat
  sqNum   : Nat
  talMs   : Nat
  t       : BitVec 64
  simulation : Bool
  ndsCom  : Bool
  entries : List GooseEntry
  deriving DecidableEq, Repr

/-- What a received frame carries. -/
inductive Payload where
  | sv (asdus : List Asdu) | goose (m : GooseMsg) | ptp (msg : BitVec 8) | other
  deriving DecidableEq, Repr

/-- The MACsec SecTAG of a received frame (09 R245, R247). -/
structure SecTag where
  sci   : BitVec 64
  an    : BitVec 2
  pn    : Nat
  icvOk : Bool
  deriving DecidableEq, Repr

/-- The PRP trailer or HSR tag of a frame (09 R251-R253). -/
structure RedTag where
  seq  : BitVec 16
  lanB : Bool
  deriving DecidableEq, Repr

/-- The IPv4, UDP and session part of a routable frame (09 R273, R274). -/
structure RouteHdr where
  ipDst    : BitVec 32
  udpDst   : BitVec 16
  ipOk     : Bool
  udpOk    : Bool
  optionsOrFragment : Bool
  spdu     : Nat
  keyId    : BitVec 32
  sigOk    : Bool
  deriving DecidableEq, Repr

/-- A frame on an Ethernet port, parsed. `bytes` is the frame from the destination MAC address on, without FCS, tag
and trailer (09 R257); `len` counts all its bytes with the FCS. -/
structure Frame where
  dst     : BitVec 48
  src     : BitVec 48
  len     : Nat
  fcsOk   : Bool
  macControl : Bool
  tci     : Option (BitVec 16)
  svlan   : Bool
  ether   : BitVec 16
  appid   : BitVec 16
  sec     : Option SecTag
  red     : Option RedTag
  route   : Option RouteHdr
  payload : Payload
  bytes   : List (BitVec 8)
  deriving DecidableEq, Repr

/-- The place of a device in its domain, as FORM packets carry it (10 R303-R305). -/
structure FormNode where
  domain : Nat
  member : Option Nat
  uid    : Nat
  prio   : Nat
  links  : List (Nat × Nat)          -- link number, neighbour's unique identity
  deriving DecidableEq, Repr

/-- A Tradewind packet (10 R288). `typ` outside 1 to 5 is invalid. `form` is what a FORM packet says, whose encoding this manual
does not give. -/
structure Packet where
  typ     : BitVec 8
  vc      : BitVec 3
  durable : Bool
  first   : Bool
  last    : Bool
  reply   : Bool
  exch    : Bool
  destDev : Nat
  destQ   : Nat
  srcDev  : Nat
  srcQ    : Nat
  age     : BitVec 32
  seq     : BitVec 64
  offset  : Nat
  tlen    : Nat
  hops    : Nat
  reason  : BitVec 8
  inc     : BitVec 16
  exSeq   : BitVec 64
  payload : List (BitVec 8)
  form    : Option FormNode
  deriving DecidableEq, Repr

/-- What a link receiver saw go wrong (10 R290). -/
inductive RxError where | crc | sequence | slip
  deriving DecidableEq, Repr

/-- A TS80 time: TAI nanoseconds and 2^-16 ns (11 R312). -/
structure Stamp where
  ns   : Nat
  frac : Nat
  deriving DecidableEq, Repr

/-- The Prism pool or the cipher pool (12 R333). -/
inductive Pool where | prism | cipher
  deriving DecidableEq, Repr

/-- The receiver of a doorbell set (13 R372). -/
inductive Receiver where | slot (c k : Nat) | cp (i : Nat) | host (f : Nat)
  deriving DecidableEq, Repr

/-- The header of a Yafolo command as taken from its channel (14 R380, R383-R386): who sent it, to which control
processor, its tag, the epoch stamped in its mailbox header, its header length, and whether every byte beyond the
arguments is zero. -/
structure CmdHdr where
  master  : Nat
  cp      : Nat
  tag     : BitVec 16
  epoch   : BitVec 4
  length  : Nat
  padZero : Bool
  deriving DecidableEq, Repr

/-- What a module's bus reading gives for one cage (09 R275): whether a module is present, LOS, TX_FAULT, and the CRC-32C of
its vendor and part name and of its serial number. -/
structure CageRead where
  port    : Nat
  present : Bool
  los     : Bool
  txFault : Bool
  part    : BitVec 32
  serial  : BitVec 32
  deriving DecidableEq, Repr

/-- A BAR of a host function (15 R398, R399). -/
structure BarAddr where
  fn     : Nat
  offset : Nat
  deriving DecidableEq, Repr

/-- What a cold boot meets outside the model (18 R460-R463, 19 R474): straps, image checks, self-test and comparator
verdicts, DRAM training. -/
structure BootInput where
  split      : BitVec 16
  clkSel     : BitVec 2
  dramKeep   : Bool
  testMode   : BitVec 3
  imageA     : Bool
  imageB     : Bool
  bistHubOk  : Bool
  bistFail   : List (Nat × BitVec 31)     -- cluster, BIST_FAIL bits
  engineFail : List Nat                   -- failing engines: 0-17 TE, 18-53 Prism, 54-89 cipher
  cmpFail    : List (Nat × Nat × Nat)     -- cluster, slice, first failing lane
  dramFail   : List Nat                   -- channels that fail training
  serialsMatch : Bool
  installed  : Nat                        -- bytes of DRAM installed
  fuseReadOk : Bool
  nvjCopyOk  : Bool
  deriving DecidableEq, Repr

/-- The commands of the block, one constructor for each row of the table. -/
inductive Instr where
  -- registers and crossings
  | registerWrite (master off size : Nat) (value : BitVec 64)
  | lockSet (master off : Nat)
  | fifoDelivery (src dst : Nat)
  -- Mirror pairs and debug
  | retry (c k : Nat) (ev : Detect)
  | repairSequence (c k : Nat) (v : RepairVerdict)
  | proactiveRepair (c k : Nat) (v : RepairVerdict)
  | cpRepair (i : Nat) (spareOk : Bool)
  | tamlerHalt (lp : Nat)
  | tamlerAccess (lp : Nat) (item : TamlerItem) (write : Option (BitVec 64))
  | tamlerSingleStep (lp : Nat)
  | tamlerPerCoreAccess (lp : Nat)
  | tamlerExit (lp : Nat)
  -- Nymo: integer arithmetic and logic
  | adc (lp : Nat) (sz : ISize) (d a b : Spec)
  | add (lp : Nat) (sz : Size) (d a b : Spec)
  | sub (lp : Nat) (sz : Size) (d a b : Spec)
  | sbc (lp : Nat) (sz : ISize) (d a b : Spec)
  | cmp (lp : Nat) (sz : Size) (a b : Spec)
  | tst (lp : Nat) (sz : ISize) (a b : Spec)
  | and (lp : Nat) (sz : Size) (d a b : Spec)
  | or (lp : Nat) (sz : Size) (d a b : Spec)
  | xor (lp : Nat) (sz : Size) (d a b : Spec)
  | shl (lp : Nat) (sz : ISize) (d a b : Spec)
  | shr (lp : Nat) (sz : ISize) (d a b : Spec)
  | sar (lp : Nat) (sz : ISize) (d a b : Spec)
  | rot (lp : Nat) (sz : ISize) (d a b : Spec)
  | mul (lp : Nat) (sz : ISize) (d a b : Spec)
  | div (lp : Nat) (sz : ISize) (d a b : Spec)
  | divu (lp : Nat) (sz : ISize) (d a b : Spec)
  | rem (lp : Nat) (d a b : Spec)
  | remu (lp : Nat) (d a b : Spec)
  -- Nymo: moves, bit fields, wide integers
  | mov (lp : Nat) (sz : Size) (d a : Spec)
  | mova (lp : Nat) (d t : Spec)
  | movz (lp : Nat) (sz : SSize) (d a : Spec)
  | movs (lp : Nat) (sz : SSize) (d a : Spec)
  | extu (lp : Nat) (d a f : Spec)
  | exts (lp : Nat) (d a f : Spec)
  | ins (lp : Nat) (m a f : Spec)
  | popc (lp : Nat) (d a : Spec)
  | clz (lp : Nat) (d a : Spec)
  | ctz (lp : Nat) (d a : Spec)
  | bswap (lp : Nat) (sz : HSize) (d a : Spec)
  | mulx (lp : Nat) (d a b : Spec)
  | mulxu (lp : Nat) (d a b : Spec)
  | sel (lp : Nat) (d a b : Spec)
  -- Nymo: control
  | bcc (lp : Nat) (cond : BitVec 4) (t : Spec)
  | call (lp : Nat) (d t : Spec)
  | ret (lp : Nat) (a : Spec)
  | loop (lp : Nat) (m t : Spec)
  | bbs (lp : Nat) (a b t : Spec)
  | bbc (lp : Nat) (a b t : Spec)
  | jtab (lp : Nat) (a b t : Spec)
  | scond (lp : Nat) (d k : Spec)
  | svc (lp : Nat) (a : Spec)
  | bkpt (lp : Nat)
  | eret (lp : Nat)
  | nop (lp : Nat)
  | wfi (lp : Nat)
  | wfiWake (lp : Nat)
  | cbcc (lp : Nat) (cond : CbCond) (a b t : Spec)
  -- Nymo: floating point
  | fadd (lp : Nat) (f : FFmt) (d a b : Spec)
  | fsub (lp : Nat) (f : FFmt) (d a b : Spec)
  | fmul (lp : Nat) (f : FFmt) (d a b : Spec)
  | fdiv (lp : Nat) (f : FFmt) (d a b : Spec)
  | fsqrt (lp : Nat) (f : FFmt) (d a : Spec)
  | fma (lp : Nat) (f : FFmt) (m a b : Spec)
  | fcmp (lp : Nat) (f : FFmt) (a b : Spec)
  | fcmps (lp : Nat) (f : FFmt) (a b : Spec)
  | fmin (lp : Nat) (f : FFmt) (d a b : Spec)
  | fmax (lp : Nat) (f : FFmt) (d a b : Spec)
  | fclass (lp : Nat) (f : FFmt) (d a : Spec)
  | cvtfi (lp : Nat) (f : FFmt) (d a : Spec)
  | cvtfu (lp : Nat) (f : FFmt) (d a : Spec)
  | cvtif (lp : Nat) (f : FFmt) (d a : Spec)
  | cvtuf (lp : Nat) (f : FFmt) (d a : Spec)
  | cvtfp (lp : Nat) (f : FFmt) (d a : Spec)
  | cvtpf (lp : Nat) (f : FFmt) (d a : Spec)
  | frint (lp : Nat) (f : FFmt) (d a : Spec)
  | fcvt (lp : Nat) (p : CvtPair) (d a : Spec)
  -- Nymo: packed decimal
  | pdadd (lp : Nat) (d a b : Spec)
  | pdsub (lp : Nat) (d a b : Spec)
  | pdcmp (lp : Nat) (a b : Spec)
  | pdchk (lp : Nat) (a k : Spec)
  | pdmov (lp : Nat) (d a k : Spec)
  | pdmul (lp : Nat) (d a b : Spec)
  | pddiv (lp : Nat) (d a b : Spec)
  | pdrem (lp : Nat) (d a b : Spec)
  | pdshl (lp : Nat) (d a k : Spec)
  | pdshr (lp : Nat) (d a k : Spec)
  | pdneg (lp : Nat) (d a : Spec)
  | pdabs (lp : Nat) (d a : Spec)
  | cvtpb (lp : Nat) (sz : QSize) (d a : Spec)
  | cvtbp (lp : Nat) (sz : QSize) (d a : Spec)
  -- Nymo: strings
  | rpt (lp : Nat) (op : StrOp)
  | smov (lp : Nat)
  | smovr (lp : Nat)
  | scmp (lp : Nat) (d : Spec)
  | sscn (lp : Nat) (d a : Spec)
  | sscnn (lp : Nat) (d a : Spec)
  | sfil (lp : Nat) (a : Spec)
  | sxlt (lp : Nat) (t : Spec)
  | scrc (lp : Nat) (m : Spec)
  | ssum (lp : Nat) (m : Spec)
  | sspn (lp : Nat) (d t : Spec)
  | sand (lp : Nat)
  | sor (lp : Nat)
  | sxor (lp : Nat)
  | spopc (lp : Nat) (m : Spec)
  | sxch (lp : Nat)
  -- Nymo: atomics, fences, system
  | swp (lp : Nat) (sz : ISize) (d m a : Spec)
  | cas (lp : Nat) (sz : ISize) (m1 m2 a : Spec)
  | ldadd (lp : Nat) (sz : ISize) (d m a : Spec)
  | ldor (lp : Nat) (d m a : Spec)
  | ldand (lp : Nat) (d m a : Spec)
  | ldres (lp : Nat) (sz : Size) (d m : Spec)
  | stcond (lp : Nat) (sz : Size) (m a : Spec)
  | fence (lp : Nat)
  | fenceL (lp : Nat)
  | fenceS (lp : Nat)
  | mfsr (lp : Nat) (d k : Spec)
  | mtsr (lp : Nat) (k a : Spec)
  | psWrite (lp : Nat) (a : Spec)
  | wpWrite (lp : Nat) (a : Spec)
  | regionTableWrite (lp : Nat) (hi : Bool) (a : Spec)
  | rdtime (lp : Nat) (d : Spec)
  | clineClean (lp : Nat) (k t : Spec)
  | clineInval (lp : Nat) (k t : Spec)
  | clineCleaninval (lp : Nat) (k t : Spec)
  | clineZero (lp : Nat) (k t : Spec)
  | clineUnlock (lp : Nat) (k t : Spec)
  | pflk (lp : Nat) (k t : Spec)
  | pref (lp : Nat) (t : Spec)
  | isync (lp : Nat)
  | lpstop (lp : Nat)
  | reservedOpcode (lp : Nat) (bytes : List (BitVec 8))
  -- traps, store drain, caches
  | vectorEntry (lp : Nat)
  | intcSwiRaise (master c k : Nat)
  | storeDrain (lp : Nat)
  | l1InvalidationApply (lp : Nat)
  | cacheFill (c : Nat)
  | evictionDone (u : CacheUnit)
  | lockenWrite (master : Nat) (u : CacheUnit) (value : BitVec 32)
  | rmClean (master : Nat) (e : RangeEngine) (args : RmArgs)
  | rmInval (master : Nat) (e : RangeEngine) (args : RmArgs)
  | rmCleaninval (master : Nat) (e : RangeEngine) (args : RmArgs)
  | rmLockfill (master : Nat) (e : RangeEngine) (args : RmArgs)
  | rmUnlock (master : Nat) (e : RangeEngine) (args : RmArgs)
  | rmZero (master : Nat) (e : RangeEngine) (args : RmArgs)
  | rmDone (e : RangeEngine)
  | durWrite (master i : Nat) (value : BitVec 64)
  | scrub (u : CacheUnit) (set way : Nat) (found : EccFind)
  | eccCounterDecay (u : CacheUnit)
  | wayRetirement (u : CacheUnit)
  -- Tradewind transactions and the journal
  | queueDoorbell (master q : Nat) (value : BitVec 32)
  | send (q : Nat) (nv : Verifies)
  | receive (q : Nat)
  | exchange (q : Nat) (nv : Verifies)
  | copy (q : Nat) (nv : Verifies)
  | group (q : Nat) (nv : List Verifies)
  | timedSend (q : Nat) (nv : Verifies)
  | timedSendRelease (q slot : Nat)
  | holdRelease (q : Nat)
  | deadlineExpiry (q : Nat)
  | retransmit (q slot : Nat)
  | ackTimeout (q slot : Nat)
  | ackmarkWrite (q flow : Nat)
  | completionDeferredWrite (q : Nat)
  | nvjScrub (row : Nat) (a b : NvjFind)
  | engineRetry (i : Nat) (succeeds : Bool)
  | engineHandover (logical : Nat)
  | tqEnableWrite (master q : Nat)
  | tqDisableWrite (master q : Nat)
  -- ports
  | frameReceive (p : Nat) (f : Frame)
  | hsrForward (p : Nat) (f : Frame)
  | frameStart (p : Nat)
  | gooseRepetition (pub : Nat)
  | svStale (g n : Nat)
  | gooseStale (g n : Nat)
  | ddtEntryForget (pair : Nat)
  | portEnableWrite (master p : Nat) (value : BitVec 64)
  | portDisableWrite (master p : Nat)
  | msecCfgWrite (master p : Nat) (value : BitVec 64)
  | blockLockLoss (p : Nat)
  | expanderPoll (bus : Nat) (cages : List CageRead) (stuck : Bool)
  | moduleLifeUpdate (p : Nat) (tempBin biasUa : Nat)
  | spareLaneMove (p : Nat) (ok : Bool)
  -- links and routing
  | linkEnable (master l : Nat) (value : BitVec 64)
  | initReceived (l width rate : Nat) (confirmed : Bool)
  | alignSend (l lane : Nat)
  | lackReceived (l : Nat) (seq : BitVec 8) (negative : Bool)
  | creditReceived (l vc n : Nat)
  | replayTimeout (l : Nat)
  | packetSend (l : Nat)
  | packetForward (l : Nat) (p : Packet)
  | dataPacket (l : Nat) (p : Packet) (nv : Verifies)
  | ackPacket (l : Nat) (p : Packet)
  | refusePacket (l : Nat) (p : Packet)
  | formPacket (l : Nat) (n : FormNode)
  | timePacket (l : Nat) (ident : BitVec 8) (t2 t3 : Stamp)
  | reassemblyTimeout (e : Nat)
  | laneLoss (l lane : Nat)
  | formation
  | tsyncSend (l : Nat)
  | tsyncRequestReceived (l : Nat) (ident : BitVec 8)
  | tsyncReplyReceived (l : Nat) (ident : BitVec 8)
  -- time
  | referenceSwitch
  | referenceReturn
  | timeCopyCorrection (island : Nat)
  | ppsInEdge
  | ppsOutPulse
  | disciplineSample (offset64 : Int)
  | sourceLossTimeout
  | timeStep (master : Nat) (amount : BitVec 48)
  | timeSlew (master : Nat) (amount : BitVec 48)
  | slewComplete
  | timeCtrlSrcWrite (master : Nat) (src : BitVec 3)
  | timerFire (c k : Nat)
  -- Prism and cipher
  | prismDoorbell (master j : Nat) (value : BitVec 32)
  | cipherDoorbell (master j : Nat) (value : BitVec 32)
  | jobDispatch (pool : Pool) (e : Nat)
  | compress (e : Nat)
  | decompress (e : Nat)
  | prismJobEnd (e : Nat)
  | encrypt (e : Nat)
  | decrypt (e : Nat)
  | hash (e : Nat)
  | hmacGen (e : Nat)
  | hmacVerify (e : Nat)
  | cipherJobEnd (e : Nat)
  | engineMismatch (pool : Pool) (e : Nat)
  | jobRingEnable (master : Nat) (pool : Pool) (j : Nat)
  | jobRingDisable (master : Nat) (pool : Pool) (j : Nat)
  | keyCmdLoad (master : Nat) (slot : BitVec 10) (typ : BitVec 3) (len : BitVec 7) (owner : BitVec 12) (portUse : Bool)
  | keyCmdClear (master : Nat) (slot : BitVec 10)
  | keyCmdLock (master : Nat) (slot : BitVec 10)
  -- mailboxes and doorbells
  | mbxTxWrite (master ch i : Nat) (value : BitVec 64)
  | post (master ch : Nat)
  | blockingPost (master ch : Nat) (timeout : BitVec 20)
  | postTimeout (ch : Nat)
  | mbxRingWrite (master ch : Nat) (value : BitVec 32)
  | pop (master ch : Nat) (value : BitVec 32)
  | bindWrite (master ch : Nat) (value : BitVec 64)
  | doorbellClear (master : Nat) (r : Receiver) (value : BitVec 32)
  | doorbellMaskWrite (master : Nat) (r : Receiver) (value : BitVec 32)
  | doorbellPacedDelivery (r : Receiver) (bit : Nat)
  -- Yafolo commands
  | hello (h : CmdHdr) (version : BitVec 16)
  | badOpcode (h : CmdHdr) (opcode flags : BitVec 16)
  | getInfo (h : CmdHdr)
  | setIdentity (h : CmdHdr) (domain prio : BitVec 8) (member : BitVec 16) (valid : BitVec 8)
  | eventMask (h : CmdHdr) (mask : BitVec 64)
  | lockConfig (h : CmdHdr)
  | partCreate (h : CmdHdr) (part : BitVec 8) (owner : BitVec 16) (base size lps0 : BitVec 64) (lps1 : BitVec 32)
  | partDestroy (h : CmdHdr) (part : BitVec 8)
  | progLoad (h : CmdHdr) (mid : BitVec 16) (image : BitVec 64) (length crc : BitVec 32)
  | lpStart (h : CmdHdr) (mid : BitVec 16)
  | lpStop (h : CmdHdr) (mid : BitVec 16)
  | lpStatus (h : CmdHdr) (mid : BitVec 16)
  | lockRange (h : CmdHdr) (scope cluster way : BitVec 8) (addr : BitVec 64) (lines : BitVec 32)
  | unlockRange (h : CmdHdr) (scope cluster : BitVec 8) (addr : BitVec 64) (lines : BitVec 32)
  | setDurable (h : CmdHdr) (index : BitVec 8) (size : BitVec 16) (base : BitVec 64)
  | queueRings (h : CmdHdr) (queue : BitVec 16) (k flows : BitVec 8) (ring cq state buflo bufhi : BitVec 64)
  | queueParams (h : CmdHdr) (queue owner : BitVec 16) (engine durable notifyBit notifyEn : BitVec 8)
      (notifyTarget : BitVec 16) (timeout : BitVec 32) (target : BitVec 64)
  | queueEnable (h : CmdHdr) (queue : BitVec 16)
  | queueDisable (h : CmdHdr) (queue : BitVec 16)
  | queueRebind (h : CmdHdr) (queue : BitVec 16) (target : BitVec 64)
  | queueStatus (h : CmdHdr) (queue : BitVec 16)
  | teDisable (h : CmdHdr) (logical dest : BitVec 8)
  | domainSet (h : CmdHdr) (domain valid isLocal : BitVec 8) (gateway : BitVec 16) (links : BitVec 64)
  | resumeReport (h : CmdHdr) (index : BitVec 32)
  | portUp (h : CmdHdr) (port mode fec flags : BitVec 8) (forget txLat rxLat : BitVec 16)
      (rxlog rxbig rxbit : BitVec 8) (rxtarget : BitVec 16) (rxring : BitVec 64)
  | portDown (h : CmdHdr) (port : BitVec 8)
  | portStatus (h : CmdHdr) (port : BitVec 8)
  | tableWrite (h : CmdHdr) (kind group : BitVec 8) (index : BitVec 16) (entry : BitVec 64)
  | pubTable (h : CmdHdr) (base : BitVec 64)
  | saLoad (h : CmdHdr) (port dir sc an : BitVec 8) (ssci : BitVec 32) (sci key pn : BitVec 64) (cfg window : BitVec 32)
  | moduleInfo (h : CmdHdr) (port : BitVec 8) (buf : BitVec 64)
  | moduleCfg (h : CmdHdr) (wearPct steer : BitVec 8) (lifeKh : BitVec 16) (part fecThresh : BitVec 32)
  | linkUp (h : CmdHdr) (port width rate : BitVec 8) (asym : BitVec 16) (comesUp : Bool)
  | timeSource (h : CmdHdr) (src tref allowStep stepUs : BitVec 8)
  | timeSet (h : CmdHdr) (taiNs : BitVec 64)
  | timeStatus (h : CmdHdr)
  | ptpConfig (h : CmdHdr) (profile role domain transport prio1 prio2 : BitVec 8) (ports0 ports1 : BitVec 64)
  | ppsConfig (h : CmdHdr) (flags : BitVec 8) (width : BitVec 32)
  | utcSet (h : CmdHdr) (offset : BitVec 16) (leap : BitVec 8)
  | ringConfig (h : CmdHdr) (pool ring k width : BitVec 8) (owner : BitVec 16) (notifyBit notifyEn : BitVec 8)
      (notifyTarget : BitVec 16) (ringA cq buflo bufhi : BitVec 64)
  | ringEnable (h : CmdHdr) (pool ring : BitVec 8)
  | ringDisable (h : CmdHdr) (pool ring : BitVec 8)
  | keyLoad (h : CmdHdr) (slot : BitVec 16) (typ length portUse : BitVec 8) (owner : BitVec 16) (key : BitVec 64)
  | keyClear (h : CmdHdr) (slot : BitVec 16)
  | keyLock (h : CmdHdr) (slot : BitVec 16)
  | engineDisable (h : CmdHdr) (pool engine : BitVec 8)
  | chanBind (h : CmdHdr) (ch sender receiver : BitVec 16) (dbBit lock : BitVec 8)
  | chanClose (h : CmdHdr) (ch : BitVec 16)
  | chanStatus (h : CmdHdr) (ch : BitVec 16)
  | errReactSet (h : CmdHdr) (source : BitVec 16) (react : BitVec 8)
  | errStatus (h : CmdHdr) (source : BitVec 16)
  | errClear (h : CmdHdr) (source : BitVec 16) (release : BitVec 8)
  | spareStatus (h : CmdHdr)
  | repairNow (h : CmdHdr) (mid : BitVec 16) (v : RepairVerdict)
  | wearCfg (h : CmdHdr) (clusters : BitVec 16) (proactive l2Thresh scThresh : BitVec 8) (nvjWarn : BitVec 16)
  | clusterOffline (h : CmdHdr) (cluster : BitVec 8)
  | clusterOnline (h : CmdHdr) (cluster : BitVec 8) (cmpFail : BitVec 4) (lane : Nat) (bistFail : BitVec 31)
  | bistRun (h : CmdHdr) (scope unit kind : BitVec 8) (fail : BitVec 31)
  | cmpTest (h : CmdHdr) (cluster : BitVec 8) (fail : BitVec 4) (lanes : List Nat)
  | tripTest (h : CmdHdr) (port wire : BitVec 8) (pub count : BitVec 16) (period : BitVec 32) (frames : BitVec 64)
      (timeout : BitVec 32)
  | tripTestFrameInject (f : Frame)
  | vfEnable (h : CmdHdr) (count : BitVec 8)
  | vfAssign (h : CmdHdr) (vf kind : BitVec 8) (first count : BitVec 16) (base size : BitVec 64)
  | vfRelease (h : CmdHdr) (vf : BitVec 8)
  | dirtyLogStart (h : CmdHdr) (vf : BitVec 8) (bitmap pages : BitVec 64)
  | dirtyLogSwap (h : CmdHdr) (vf : BitVec 8) (bitmap : BitVec 64)
  | dirtyLogStop (h : CmdHdr) (vf : BitVec 8)
  | reset (h : CmdHdr) (kind cluster : BitVec 8)
  | powerDown (h : CmdHdr)
  | fwStage (h : CmdHdr) (slot : BitVec 8) (image : BitVec 64) (length : BitVec 32) (sigOk readbackOk : Bool)
      (version : BitVec 32)
  | fwActivate (h : CmdHdr) (slot : BitVec 8)
  | fwStatus (h : CmdHdr)
  | completionPostRetry (master cp : Nat)
  -- host port
  | cxlLinkTraining (cxl : Bool) (speed : BitVec 2) (width : BitVec 3)
  | hostLinkDown
  | hostLinkUp
  | conventionalReset
  | functionLevelReset (fn : Nat)
  | hdmCommit (hostBase size skip : Nat) (ways : Nat)
  | barAccess (bar : BarAddr) (size : Nat) (write : Option (BitVec 64))
  | cxlMemRead (addr len : Nat)
  | cxlMemWrite (addr : Nat) (bytes : List (BitVec 8))
  | hostSnoop (addr : Nat) (invalidate : Bool)
  | atsInvalidation (fn page : Nat)
  | msixUnmask (fn vector : Nat)
  -- faults, supply, thermal
  | sourceRaise (n : Nat)
  | errSrcClear (master n : Nat)
  | errFirstClear (master g : Nat)
  | errReactWrite (master g : Nat) (hi : Bool) (value : BitVec 64)
  | errPinForce (master : Nat)
  | errPinRelease (master : Nat)
  | errNRelease
  | sagWarn (rail : Nat)
  | sagWarnClear
  | sagReset (rail : Nat)
  | railOutOfWindow (rail : Nat)
  | thermSample (readings : List Int)
  | refclkFault (clock : Nat)
  | d2dLinkFault (d : Nat)
  | fabricBufferError
  -- sparing and life
  | patrolScrub (channel addr : Nat) (device : Option Nat) (bits : Nat) (uncorrectable : Bool)
  | fuseProgram (ok : Bool)
  | ageMeasure (c deg : Nat)
  | lifeUpdate (hour : Bool)
  -- reset and boot
  | coldReset (cause : Nat)
  | coldBoot (b : BootInput)
  | dramInitDone
  | warmReset (cause : Nat)
  | clusterReset (c : Nat)
  | lpRestart (lp : Nat)
  | portBlockReset (p : Nat)
  -- self-test and Lens
  | bistGo (master : Nat) (scope unit : BitVec 8) (kind : Bool)
  | bistDone (fail : BitVec 31)
  | lensSnapArm (master : Nat)
  | lensFreezeArm (master : Nat) (freeze : Bool)
  | lensSnapshot
  | lensFreeze
  | lensWrap (page i gain : Nat)
  -- power, links, remaining events
  | vddAonPowerUp
  | powerLoss (dramKept : Bool)
  | blockLockAcquired (p : Nat)
  | lackSend (l : Nat)
  | linkRxError (l : Nat) (e : RxError)
  | linkDisableWrite (master l : Nat)
  | dramAlert (channel : Nat) (thermal : Bool)
  | errorInputPacedDelivery (lp input : Nat)
  | prpSupervisionFrame (pair : Nat)
  | ptpMessageSend (p : Nat) (msg : BitVec 8)
  deriving DecidableEq, Repr

end Sys2Proof
end

