-- ==== Sys2Proof/Machine/Data.lean ====
section
/-! DEFINITION. The two containers of the state, as plain data: tables from a number to a value, and memory as a canonical
list of cells (strictly rising addresses, no entry equal to what an unlisted byte reads as, which is zero). Little-endian
values are built from bytes here and nowhere else (00 "Numbers and units"). Bit-field helpers of the register layouts
stand here too. -/

namespace Sys2Proof.Machine

/-- A table: entries kept in rising order of their number. -/
abbrev Tbl (α : Type) := List (Nat × α)

/-- The entry of a table at a number, if there is one. -/
def tblGet? {α : Type} : Tbl α → Nat → Option α
  | [], _ => none
  | (k, v) :: t, n => if k = n then some v else tblGet? t n

/-- The entry of a table at a number, or a default. -/
def tblGetD {α : Type} (t : Tbl α) (n : Nat) (d : α) : α := (tblGet? t n).getD d

/-- A table with one entry written. -/
def tblSet {α : Type} : Tbl α → Nat → α → Tbl α
  | [], n, x => [(n, x)]
  | (k, v) :: t, n, x =>
    if k = n then (n, x) :: t
    else if n < k then (n, x) :: (k, v) :: t
    else (k, v) :: tblSet t n x

/-- A table without the entries at a number. -/
def tblErase {α : Type} (t : Tbl α) (n : Nat) : Tbl α := t.filter fun e => e.1 != n

/-- A table with every entry changed by a function of its number and value. -/
def tblMap {α : Type} (f : Nat → α → α) (t : Tbl α) : Tbl α := t.map fun e => (e.1, f e.1 e.2)

/-- Memory. -/
abbrev Mem := List Host.Cell

/-- The byte of a memory at an address; an unlisted address reads as zero. DESIGN CHOICE, log 3: the DRAM initialiser
writes zeros (18 R467). -/
def memGet : Mem → Nat → Byte
  | [], _ => 0
  | (k, v) :: t, a => if k = a then v else memGet t a

/-- A memory without the byte at an address. -/
def memErase (m : Mem) (a : Nat) : Mem := m.filter fun c => c.1 != a

/-- A cell put in its place by rising address. -/
def memPut : Mem → Nat → Byte → Mem
  | [], a, b => [(a, b)]
  | (k, v) :: t, a, b => if a < k then (a, b) :: (k, v) :: t else (k, v) :: memPut t a b

/-- A memory with one byte written: a zero byte is removed, so the form stays canonical. -/
def memSet (m : Mem) (a : Nat) (b : Byte) : Mem :=
  if b = 0 then memErase m a else memPut (memErase m a) a b

/-- The canonical form: addresses strictly rising and no listed byte zero. -/
def Memory.wf : Mem → Bool
  | [] => true
  | [c] => c.2 != 0
  | c :: d :: t => c.2 != 0 && decide (c.1 < d.1) && Memory.wf (d :: t)

/-- `n` bytes from an address, in rising order. -/
def memBytes (m : Mem) (a : Nat) : Nat → List Byte
  | 0 => []
  | n + 1 => memGet m a :: memBytes m (a + 1) n

/-- Bytes written from an address on. -/
def memWriteBytes (m : Mem) (a : Nat) : List Byte → Mem
  | [] => m
  | b :: t => memWriteBytes (memSet m a b) (a + 1) t

/-- The number that bytes spell, little-endian. -/
def leNat : List Byte → Nat
  | [] => 0
  | b :: t => b.toNat + 256 * leNat t

/-- The `n` low bytes of a number, little-endian. -/
def natBytes : Nat → Nat → List Byte
  | 0, _ => []
  | n + 1, v => BitVec.ofNat 8 v :: natBytes n (v / 256)

/-- The number that bytes spell, big-endian. -/
def beNat (bs : List Byte) : Nat := leNat bs.reverse

/-- The `n` low bytes of a number, big-endian. -/
def natBytesBE (n v : Nat) : List Byte := (natBytes n v).reverse

/-- Bits [lo + w - 1 : lo] of a number. -/
def bits (v lo w : Nat) : Nat := v / 2 ^ lo % 2 ^ w

/-- Whether bit `i` of a number is set. -/
def bitOf (v i : Nat) : Bool := v / 2 ^ i % 2 == 1

/-- A number with bits [lo + w - 1 : lo] replaced. -/
def setBits (v lo w x : Nat) : Nat := v - bits v lo w * 2 ^ lo + x % 2 ^ w * 2 ^ lo

/-- A number with bit `i` written. -/
def setBit (v i : Nat) (b : Bool) : Nat := setBits v i 1 (bit01 b)

/-- The value of the low `w` bits of a number taken as two's complement. -/
def signed (v w : Nat) : Int :=
  if v % 2 ^ w < 2 ^ (w - 1) then (v % 2 ^ w : Nat) else (v % 2 ^ w : Nat) - (2 ^ w : Nat)

/-- The low `w` bits of an integer, as a number. -/
def wrapInt (i : Int) (w : Nat) : Nat := (i % (2 ^ w : Nat)).toNat

/-- The number of bits set among the low `w`. -/
def popCount (v : Nat) : Nat → Nat
  | 0 => 0
  | w + 1 => v % 2 + popCount (v / 2) w

/-- A sum that stops at a limit. -/
def satAdd (a b lim : Nat) : Nat := min (a + b) lim

/-- The 32-bit difference of two free-running counts. -/
def cnt32 (a b : Nat) : Nat := (2 ^ 32 - b % 2 ^ 32 + a) % 2 ^ 32

/-- One bit of the reflected CRC-32C (04 R124). -/
def crcBit (c : Nat) : Nat := if c % 2 = 1 then Nat.xor (c / 2) 0x82F63B78 else c / 2

/-- The CRC-32C step of a byte. -/
def crcStep (c b : Nat) : Nat :=
  crcBit (crcBit (crcBit (crcBit (crcBit (crcBit (crcBit (crcBit (Nat.xor c b))))))))

/-- The CRC-32C of bytes: from all ones, inverted at the end (00 "Numbers and units"). -/
def crc32c (bs : List Byte) : Nat :=
  Nat.xor 0xFFFFFFFF (bs.foldl (fun c b => crcStep c b.toNat) 0xFFFFFFFF)

end Sys2Proof.Machine
end

