-- ==== Sys2Proof/Machine/TypesJobs.lean ====
section
/-! DEFINITION. The pieces of the state of the Prism and cipher pools, as plain data (12 R333-R361). -/

namespace Sys2Proof.Machine

/-- A DEFLATE stream in progress, as 12 R343 records it: the input and output bytes since it began, the running check, the bits
held of the last byte, whether the header is done, whether a block is open and its type, whether the final block has been seen,
stored bytes left, the match being copied, the code lengths of the block, the window (newest byte first) and its limit by the
zlib header. -/
structure Stream where
  consumed : Nat
  produced : Nat
  check    : Nat
  held     : Nat
  heldN    : Nat
  header   : Bool
  inBlock  : Bool
  final    : Bool
  btype    : Nat
  stored   : Nat
  mlen     : Nat
  mdist    : Nat
  lits     : List Nat
  dists    : List Nat
  window   : List Byte
  limit    : Nat
  deriving DecidableEq, Repr

/-- A cipher job's progress (12 R352, R353): bytes of AAD, of src and of dst done, the GHASH accumulator with the bytes of a block
not full, the counter block or tweak, the chaining value of a hash, and the last input block of XTS. -/
structure CState where
  aad  : Nat
  inn  : Nat
  outn : Nat
  gh   : Nat
  part : List Nat
  icb  : Nat
  hash : List Nat
  prev : List Nat
  deriving DecidableEq, Repr

/-- How a job ended: status, detail, whether it can be resumed, whether its record is written in full, and whether the stream
ended (12 R342, R346, R353). -/
structure JobEnd where
  status    : Nat
  detail    : Nat
  resumable : Bool
  full      : Bool
  streamEnd : Bool
  deriving DecidableEq, Repr

/-- A job on an engine or waiting for the next one (12 R335-R357): its ring and slot count, the 64 bytes of its descriptor, the
key that its slot held when it started, its progress, the progress at the last checkpoint (or at its start), the counts with which
this descriptor began (Prism: consumed and produced; cipher: AAD and src), a stop asked for, whether it moved, and how it ended. -/
structure Job where
  ring  : Nat
  count : Nat
  desc  : List Byte
  key   : List Byte
  str   : Stream
  ci    : CState
  ckStr : Stream
  ckCi  : CState
  base  : Nat × Nat
  stop  : Bool
  moved : Bool
  fin   : Option JobEnd
  deriving DecidableEq, Repr

/-- A physical engine: its job and the retries of the present segment (12 R357). -/
structure JEngine where
  job   : Option Job
  tries : Nat
  deriving DecidableEq, Repr

/-- A job ring beside its registers: the tails written with the time of their doorbells (12 R335), and the completions that wait
for room (R358). -/
structure JRing where
  posts   : List (Nat × Nat)
  waiting : List (List Byte × Bool)
  deriving DecidableEq, Repr

/-- A sealed cipher record of this cold boot (12 R352): ring, slot, op and mode, its 256 bytes, and the progress that it holds. -/
structure Seal where
  ring  : Nat
  slot  : Nat
  opm   : Nat
  bytes : List Byte
  ci    : CState
  deriving DecidableEq, Repr

/-- The pools: engines and rings (Prism 0 to 35, cipher 36 to 71), jobs that a condemned engine left, key material by slot, the
sealed records, the cold resets counted for the sealing key, and the ring from which each pool last took a job. -/
structure Pools where
  engines : Tbl JEngine
  rings   : Tbl JRing
  left    : List (Nat × Job)
  keys    : Tbl (List Byte)
  seals   : List Seal
  colds   : Nat
  served  : Tbl Nat
  deriving DecidableEq, Repr

/-- Pools after a cold reset. -/
def Pools.empty : Pools := ⟨[], [], [], [], [], 0, []⟩

end Sys2Proof.Machine
end

