-- ==== Sys2Proof/Machine/Inflate.lean ====
section
/-! DEFINITION. Reading DEFLATE, zlib and gzip streams (12 R340, R345): RFC 1950, 1951 and 1952 as the manual names them, one
element at a time, so that a stream can stop and go on. -/

namespace Sys2Proof.Machine

/-- A bit reader: bytes left, bits in hand, and bytes taken. -/
structure Rd where
  rest : List Byte
  acc  : Nat
  n    : Nat
  used : Nat
  deriving DecidableEq, Repr

/-- The bit place of a reader since its start, held bits counted before it. -/
def Rd.pos (r : Rd) : Int := (r.used * 8 : Nat) - (r.n : Int)

/-- One bit. -/
def Rd.bit (r : Rd) : Option (Nat × Rd) :=
  if 0 < r.n then some (r.acc % 2, { r with acc := r.acc / 2, n := r.n - 1 })
  else match r.rest with
    | [] => none
    | b :: t => some (b.toNat % 2, ⟨t, b.toNat / 2, 7, r.used + 1⟩)

/-- `k` bits, least significant first. -/
def Rd.bits (r : Rd) : Nat → Option (Nat × Rd)
  | 0 => some (0, r)
  | k + 1 =>
    match r.bit with
    | none => none
    | some (b, r1) =>
      match r1.bits k with
      | none => none
      | some (v, r2) => some (b + 2 * v, r2)

/-- The bits of the byte in hand dropped. -/
def Rd.align (r : Rd) : Rd := { r with acc := 0, n := 0 }

/-- `k` bytes from a byte boundary. -/
def Rd.bytes (r : Rd) : Nat → Option (List Byte × Rd)
  | 0 => some ([], r)
  | k + 1 =>
    match r.rest with
    | [] => none
    | b :: t =>
      match ({ r with rest := t, used := r.used + 1 }).bytes k with
      | none => none
      | some (l, r2) => some (b :: l, r2)

/-- The symbols of a set of code lengths by length, for decoding. -/
structure Huff where
  counts : List Nat
  syms   : List Nat
  deriving DecidableEq, Repr

/-- The canonical code of code lengths (RFC 1951). -/
def huff (lens : List Nat) : Huff :=
  let z := lens.zipIdx
  let by_ := (List.range 15).map fun l => (z.filter fun e => e.1 == l + 1).map (·.2)
  ⟨by_.map (·.length), by_.flatten⟩

/-- What is left of the code space: negative where a set is over-subscribed, positive where it is incomplete. -/
def Huff.left (h : Huff) : Int :=
  (h.counts.foldl (fun (a : Int × Bool) (c : Nat) => if a.2 then a else
    let x : Int := a.1 * 2 - (c : Nat)
    (x, decide (x < 0))) (1, false)).1

/-- The result of reading an element: read, more input needed, or wrong. -/
inductive Got (α : Type) where | ok (a : α) (r : Rd) | more | bad
  deriving Repr

/-- A symbol of a code. -/
def Huff.sym (h : Huff) : List Nat → Nat → Nat → Nat → Rd → Got Nat
  | [], _, _, _, _ => .bad
  | c :: cs, code, first, index, r =>
    match r.bit with
    | none => .more
    | some (b, r1) =>
      let k := code + b
      if k < first + c then
        match h.syms[index + (k - first)]? with
        | some s => .ok s r1
        | none => .bad
      else h.sym cs (k * 2) ((first + c) * 2) (index + c) r1

/-- A symbol of a code from its first bit. -/
def Huff.read (h : Huff) (r : Rd) : Got Nat := h.sym h.counts 0 0 0 r

/-- Base and extra bits of the length symbols 257 to 285. -/
def lenCode (s : Nat) : Nat × Nat :=
  if s < 265 then (s - 254, 0)
  else if s = 285 then (258, 0)
  else
    let e := (s - 261) / 4
    (3 + 2 ^ e * (4 + (s - 261) % 4), e)

/-- Base and extra bits of the distance symbols. -/
def distCode (s : Nat) : Nat × Nat :=
  if s < 4 then (s + 1, 0)
  else
    let e := s / 2 - 1
    (1 + 2 ^ e * (2 + s % 2), e)

/-- The code lengths of block type 01. -/
def fixedLits : List Nat :=
  List.replicate 144 8 ++ List.replicate 112 9 ++ List.replicate 24 7 ++ List.replicate 8 8
@[inherit_doc fixedLits] def fixedDists : List Nat := List.replicate 30 5

/-- The order of the code lengths of the code-length code. -/
def clOrder : List Nat := [16, 17, 18, 0, 8, 7, 9, 6, 10, 5, 11, 4, 12, 3, 13, 2, 14, 1, 15]

/-- Adler-32 gone on by a byte. -/
def adlerStep (v : Nat) (b : Byte) : Nat :=
  let a := (v % 65536 + b.toNat) % 65521
  ((v / 65536 + a) % 65521) * 65536 + a

/-- One bit of the reflected CRC-32. -/
def crc32Bit (c : Nat) : Nat := if c % 2 = 1 then Nat.xor (c / 2) 0xEDB88320 else c / 2

/-- CRC-32 gone on by a byte. -/
def crc32Step (v : Nat) (b : Byte) : Nat :=
  let c := Nat.xor (Nat.xor v 0xFFFFFFFF) b.toNat
  Nat.xor (crc32Bit (crc32Bit (crc32Bit (crc32Bit (crc32Bit (crc32Bit (crc32Bit (crc32Bit c)))))))) 0xFFFFFFFF

/-- The running check by format (12 R346): Adler-32 for zlib, CRC-32 otherwise. -/
def checkStep (fmt v : Nat) (b : Byte) : Nat := if fmt = 1 then adlerStep v b else crc32Step v b
@[inherit_doc checkStep] def checkInit (fmt : Nat) : Nat := if fmt = 1 then 1 else 0

/-- A stream at its start; a preset dictionary stands before the first output byte. -/
def Stream.start (fmt : Nat) (dict : List Byte) : Stream :=
  { consumed := 0, produced := 0, check := checkInit fmt, held := 0, heldN := 0, header := fmt == 0, inBlock := false,
    final := false, btype := 0, stored := 0, mlen := 0, mdist := 0, lits := [], dists := [], window := dict.reverse,
    limit := 32768 }

/-- What one element does: go on with perhaps a byte put out, need input, need room, an error (code, detail, bit place), or the
end of the stream. -/
inductive Elem where
  | go (st : Stream) (r : Rd) (out : Option Byte) | more | full | err (code detail : Nat) (pos : Int) | done (st : Stream) (r : Rd)
  deriving Repr

/-- The zlib header (RFC 1950). -/
def zlibHeader (st : Stream) (r : Rd) (dict : List Byte) : Elem :=
  match r.bytes 2 with
  | none => .more
  | some (h, r1) =>
    let cmf := fieldAt h 0
    let flg := fieldAt h 1
    if cmf % 16 ≠ 8 ∨ 7 < cmf / 16 then .err 0x17 0 r.pos
    else if (cmf * 256 + flg) % 31 ≠ 0 then .err 0x17 0 (r.pos + 8)
    else
      let st1 := { st with header := true, limit := 2 ^ (cmf / 16 + 8) }
      if bitOf flg 5 then
        if dict.isEmpty then .err 0x17 0 (r.pos + 8)
        else match r1.bytes 4 with
          | none => .more
          | some (d, r2) => if beNat d = dict.foldl adlerStep 1 then .go st1 r2 none else .err 0x15 5 r1.pos
      else .go st1 r1 none
where
  /-- A byte of a header. -/
  fieldAt (l : List Byte) (i : Nat) : Nat := (l.getD i 0).toNat

/-- A zero-terminated field skipped. -/
def Rd.skipZ (r : Rd) : Option (List Byte × Rd) :=
  let f := r.rest.takeWhile (· != 0)
  r.bytes (f.length + 1)

/-- Header fields read one after another, their bytes gathered for FHCRC. -/
def Rd.fields (r : Rd) : List (Rd → Option (List Byte × Rd)) → Option (List Byte × Rd)
  | [] => some ([], r)
  | f :: t =>
    match f r with
    | none => none
    | some (a, r1) =>
      match r1.fields t with
      | none => none
      | some (b, r2) => some (a ++ b, r2)

/-- The extra field of a gzip header. -/
def Rd.extra (r : Rd) : Option (List Byte × Rd) :=
  match r.bytes 2 with
  | none => none
  | some (h, r1) => (r1.bytes (leNat h)).map fun e => (h ++ e.1, e.2)

/-- The gzip header (RFC 1952). -/
def gzipHeader (st : Stream) (r : Rd) : Elem :=
  match r.bytes 10 with
  | none => .more
  | some (h, r1) =>
    let b := fun i => (h.getD i 0).toNat
    if b 0 ≠ 0x1F then .err 0x17 0 r.pos
    else if b 1 ≠ 0x8B then .err 0x17 0 (r.pos + 8)
    else if b 2 ≠ 8 then .err 0x17 0 (r.pos + 16)
    else if 32 ≤ b 3 then .err 0x17 0 (r.pos + 24)
    else
      let opt := fun (i : Nat) (f : Rd → Option (List Byte × Rd)) => if bitOf (b 3) i then [f] else []
      match r1.fields (opt 2 Rd.extra ++ opt 3 Rd.skipZ ++ opt 4 Rd.skipZ) with
      | none => .more
      | some (x, r2) =>
        if bitOf (b 3) 1 then
          match r2.bytes 2 with
          | none => .more
          | some (c, r3) =>
            if leNat c = ((h ++ x).foldl crc32Step 0) % 65536 then .go { st with header := true } r3 none
            else .err 0x15 4 r2.pos
        else .go { st with header := true } r2 none

/-- The code lengths of a dynamic block, decoded by the code-length code; `n` of them in all. -/
def readLens (h : Huff) (n : Nat) : Nat → List Nat → Rd → Except (Option (Nat × Int)) (List Nat × Rd)
  | 0, _, _ => .error none
  | fuel + 1, acc, r =>
    if n ≤ acc.length then .ok (acc, r)
    else
      match h.read r with
      | .more => .error none
      | .bad => .error (some (0x10, r.pos))
      | .ok s r1 =>
        if s < 16 then readLens h n fuel (acc ++ [s]) r1
        else if s = 16 ∧ acc.isEmpty then .error (some (0x10, r.pos))
        else
          let (nb, base, v) := if s = 16 then (2, 3, acc.getLastD 0) else if s = 17 then (3, 3, 0) else (7, 11, 0)
          match r1.bits nb with
          | none => .error none
          | some (k, r2) =>
            if n < acc.length + base + k then .error (some (0x12, r.pos))
            else readLens h n fuel (acc ++ List.replicate (base + k) v) r2

/-- A set of lengths that RFC 1951 does not permit (12 R345): over-subscribed, or incomplete other than as at most one distance
code of one bit. -/
def lensBad (isDist : Bool) (h : Huff) : Bool :=
  decide (h.left < 0) || (decide (0 < h.left) && !(isDist && (h.syms.isEmpty || (h.syms.length == 1 && h.counts.headD 0 == 1))))

/-- The tables of a dynamic block. -/
def dynamicHeader (st : Stream) (r : Rd) : Elem :=
  match r.bits 14 with
  | none => .more
  | some (v, r1) =>
    let hlit := bits v 0 5 + 257
    let hdist := bits v 5 5 + 1
    let hclen := bits v 10 4 + 4
    if 286 < hlit then .err 0x10 0 r.pos
    else if 30 < hdist then .err 0x10 0 (r.pos + 5)
    else
      match r1.bits (3 * hclen) with
      | none => .more
      | some (c, r2) =>
        let cl := (List.range 19).map fun s =>
          match clOrder.findIdx? (· == s) with
          | some i => if i < hclen then bits c (3 * i) 3 else 0
          | none => 0
        let hc := huff cl
        if lensBad false hc then .err 0x10 0 r1.pos
        else
          match readLens hc (hlit + hdist) (hlit + hdist + 1) [] r2 with
          | .error none => .more
          | .error (some (code, p)) => .err code 0 p
          | .ok (ls, r3) =>
            let lits := ls.take hlit
            let dists := ls.drop hlit
            if lensBad false (huff lits) || lensBad true (huff dists) then .err 0x10 0 r2.pos
            else .go { st with inBlock := true, btype := 2, lits, dists } r3 none

/-- The header of a block. -/
def blockHeader (st : Stream) (r : Rd) : Elem :=
  match r.bits 3 with
  | none => .more
  | some (v, r1) =>
    let st1 := { st with final := v % 2 == 1 }
    match v / 2 with
    | 0 =>
      let ra := r1.align
      match ra.bytes 4 with
      | none => .more
      | some (h, r2) =>
        let n := leNat (h.take 2)
        if n + leNat (h.drop 2) = 65535 then .go { st1 with inBlock := true, btype := 0, stored := n } r2 none
        else .err 0x14 0 ra.pos
    | 1 => .go { st1 with inBlock := true, btype := 1, lits := fixedLits, dists := fixedDists } r1 none
    | 2 => dynamicHeader st1 r1
    | _ => .err 0x13 0 (r.pos + 1)

/-- A byte put out. -/
def Stream.put (fmt : Nat) (st : Stream) (b : Byte) : Stream :=
  { st with produced := st.produced + 1, check := checkStep fmt st.check b, window := b :: st.window }

/-- A symbol of a coded block; `room` says whether the output has room for a byte. -/
def codedSymbol (fmt : Nat) (st : Stream) (r : Rd) (room : Bool) : Elem :=
  match (huff st.lits).read r with
  | .more => .more
  | .bad => .err 0x10 0 r.pos
  | .ok s r1 =>
    if s < 256 then
      if room then .go (st.put fmt (BitVec.ofNat 8 s)) r1 (some (BitVec.ofNat 8 s)) else .full
    else if s = 256 then .go { st with inBlock := false } r1 none
    else if 285 < s then .err 0x10 0 r.pos
    else
      match r1.bits (lenCode s).2 with
      | none => .more
      | some (x, r2) =>
        match (huff st.dists).read r2 with
        | .more => .more
        | .bad => .err 0x10 0 r2.pos
        | .ok d r3 =>
          if 29 < d then .err 0x10 0 r2.pos
          else
            match r3.bits (distCode d).2 with
            | none => .more
            | some (y, r4) =>
              let dist := (distCode d).1 + y
              if st.window.length < dist ∨ st.limit < dist then .err 0x11 0 r2.pos
              else .go { st with mlen := (lenCode s).1 + x, mdist := dist } r4 none

/-- The trailer (12 R340). -/
def trailer (fmt : Nat) (st : Stream) (r : Rd) : Elem :=
  let ra := r.align
  match fmt with
  | 1 =>
    match ra.bytes 4 with
    | none => .more
    | some (t, r1) => if beNat t = st.check then .done st r1 else .err 0x15 1 ra.pos
  | 2 =>
    match ra.bytes 8 with
    | none => .more
    | some (t, r1) =>
      if leNat (t.take 4) ≠ st.check then .err 0x15 2 ra.pos
      else if leNat (t.drop 4) ≠ st.produced % 2 ^ 32 then .err 0x15 3 (ra.pos + 32)
      else .done st r1
  | _ => .done st ra

/-- The next element of a stream. -/
def nextElem (fmt : Nat) (dict : List Byte) (st : Stream) (r : Rd) (room : Bool) : Elem :=
  if !st.header then (if fmt = 1 then zlibHeader st r dict else gzipHeader st r)
  else if 0 < st.mlen then
    if room then
      let b := st.window.getD (st.mdist - 1) 0
      .go ({ (st.put fmt b) with mlen := st.mlen - 1 }) r (some b)
    else .full
  else if st.inBlock then
    if st.btype = 0 then
      if st.stored = 0 then .go { st with inBlock := false } r none
      else if !room then .full
      else match r.bytes 1 with
        | some ([b], r1) => .go ({ (st.put fmt b) with stored := st.stored - 1 }) r1 (some b)
        | _ => .more
    else codedSymbol fmt st r room
  else if st.final then trailer fmt st r
  else blockHeader st r

/-- How a run of elements stopped: a segment's end, more input or room needed, an error, the end. -/
inductive Halt where | segment | more | full | err (code detail : Nat) (pos : Int) | done
  deriving DecidableEq, Repr

/-- Elements read until `seg` bytes are taken or something stops them; the output newest first, with room for `room` bytes. -/
def inflate (fmt : Nat) (dict : List Byte) (seg : Nat) : Nat → Stream → Rd → List Byte → Nat → Stream × Rd × List Byte × Halt
  | 0, st, r, out, _ => (st, r, out, .segment)
  | fuel + 1, st, r, out, room =>
    if seg ≤ r.used then (st, r, out, .segment)
    else
      match nextElem fmt dict st r (decide (0 < room)) with
      | .go st1 r1 none => inflate fmt dict seg fuel st1 r1 out room
      | .go st1 r1 (some b) => inflate fmt dict seg fuel st1 r1 (b :: out) (room - 1)
      | .more => (st, r, out, .more)
      | .full => (st, r, out, .full)
      | .err c d p => (st, r, out, .err c d p)
      | .done st1 r1 => (st1, r1, out, .done)

end Sys2Proof.Machine
end

