-- ==== Sys2Proof/Config.lean ====
section
/-! DEFINITION. What an implementation fixes, and the free values: results that the manual leaves open after an effect that
it does give. A free value is an opaque constant applied to a count that the step advances (`State.freeCount`) or to the
operands it depends on; nothing in Lean evaluates it, so a claim holds for every value of it. The log entry of each is
named at its use. -/

namespace Sys2Proof.Config

/-- A fresh free value: the `n`-th one, taken in as many low bits as its use needs. -/
opaque freeValue : Nat → BitVec 64

/-- A fresh free bit. -/
opaque freeBit : Nat → Bool

/-- The signature that the self-test ROM holds for a sub-unit of a run: scope, kind, sub-unit (19 R473). Log 20. -/
opaque bistSignature : Nat → Nat → Nat → BitVec 64

/-- The match that the Prism compressor looks for, its choice being open (12 R341): length and distance, from the options, the
bytes before (newest first) and the bytes of the block ahead. One that does not fit or does not match is no match. Log 21. -/
opaque matchAt : Nat → List (BitVec 8) → List (BitVec 8) → Nat × Nat

/-- The bits of a dynamic block after its three header bits: codes built for the block, which the manual leaves open (12 R341).
Log 21. -/
opaque dynamicBlock : Nat → List (BitVec 8) → List (BitVec 8) → List Bool

/-- Sealing of a cipher state record: the record's bytes from the key of the cold boot, ring, slot and state (12 R352).
Log 22. -/
opaque sealed : Nat → Nat → Nat → List (BitVec 8) → List (BitVec 8)

/-- One step of the proportional-integral loop, whose gains the manual does not give (11 R322): how far it moves the rate
(units of 2^-40), and how much of the offset it corrects in phase (ns), from the source, the present rate and the offset. Log 23. -/
opaque loopRate : Nat → Int → Int → Nat
@[inherit_doc loopRate] opaque loopPhase : Nat → Int → Int → Nat

/-- What a fuse entry reads when power was lost while it was being programmed: some of the intended bits (17 R445).
Log 24. -/
opaque fuseCutShort : Nat → BitVec 32 → BitVec 32

/-- The MAC address of a port: the frames that are addressed to this device alone and those that it sent (09 R253). Log 44. -/
opaque portMac : Nat → BitVec 48

/-- The device's 64-bit unique identity, in its fuses (10 R303). Log 36. -/
opaque uniqueId : BitVec 64

/-- The place of a DRAM address of a channel, whose mapping the manual does not give (17 R439): subchannel in bit 0, rank in [2:1],
bank in [4:3], bank group in [7:5], row from bit 8 on. Log 65. -/
opaque dramPlace : Nat → Nat → Nat

/-- The ranks and subchannels installed (17 R454, SPARE_STAT.dram), which the modules give. Log 65. -/
opaque dramUnits : Nat

/-- The fused set point of a compute die's supply in mV (18 R455). Log 68. -/
opaque avsSetPoint : Nat → Nat

/-- The fuses SPLIT_FUSE, which force clusters into split mode (18 R461). Log 68. -/
opaque splitFuse : BitVec 16

/-- The version of the firmware image that a slot holds as shipped (14 R390, HELLO, FW_STATUS). Log 75. -/
opaque shippedVersion : Nat → BitVec 32

end Sys2Proof.Config
end

