-- ==== Sys2Proof/Machine/RegTable.lean ====
section
/-! DEFINITION. The register map: every register of the register descriptions (a header line with name, offset, width,
reset value and the reset that clears it, 00 "Register descriptions") placed by 01 R24 and the rule of its chapter, with
the access code of each field (R5). A register is named by its offset from REGBASE. The `h` registers are those of a hub
engine (07 R203), the `cj`, `ce` and `sc` registers those of the cipher rings, cipher engines and slices (12 R360, 07
R203); the classifier rules, stream entries and subscription entries of a group are words of 8 bytes (09 R283). -/

namespace Sys2Proof.Machine

/-- The access codes of R5. -/
inductive Acc where | ro | rw | w1c | w1s | wo | rc | rwl
  deriving DecidableEq, Repr

/-- The reset that a header line names (R10), from the narrowest: a logical-processor restart or a block reset, a block
reset, a warm reset, a cold reset, the power-up of VDD_AON, or none. -/
inductive ResetCls where | restart | block | warm | cold | aon | never
  deriving DecidableEq, Repr

/-- The registers. -/
inductive RegName where
  | devId | cmpStat | cmpTimeNs | cmpTimeFr | cmpRetrycnt | cmpSkewcnt | cmpMap | cmpTest | cmpSpare | cmpCtrl
  | intcLvl | intcPend | intcSwi | tmrCmp | tmrCtrl | errLpen | mcStat | l2Locken | scLocken | l2Waymap | scWaymap
  | l2Errcnt | scErrcnt | l2Errcfg | scErrcfg | l2Err | scErr | l2Stat | scStat | rmAddr | hrmAddr | rmCount
  | hrmCount | rmCtrl | hrmCtrl | rmStat | hrmStat | scLock | dur | twCtrl | twStat | twErr | twEngmap | teStat
  | tqRing | tqCq | tqState | tqBuflo | tqBufhi | tqCfg | tqTail | tqHead | tqRetire | tqCqtail | tqCqhead
  | tqTarget | tqStat | nvjStat | nvjWear | nvjCfg | portCfg | portStat | portErr | portTslat | portRxring
  | portRxntf | portRxtail | portRxhead | msecCfg | prpCfg | portCnt | clsDefault | pubBase | clsRule | svStream
  | gseSub | rtSelf | rtCtrl | lnkErr | rtMember | rtDomain | lnkCfg | lnkStat | lnkTt | lnkCnt | timeCtrl
  | timeStat | timeFreq | timeAdj | timeUtc | ppsCfg | ppsinNs | ppsinFr | pjRing | cjRing | pjCq | cjCq | pjBuflo
  | cjBuflo | pjBufhi | cjBufhi | pjCfg | cjCfg | pjTail | cjTail | pjHead | cjHead | pjCqtail | cjCqtail
  | pjCqhead | cjCqhead | pjStat | cjStat | peStat | peErr | ceStat | ceErr | keyData | keyCmd | keyStat | mbxTx
  | mbxPost | mbxPostStat | mbxRing | mbxRx | mbxRstat | mbxPop | mbxBind | mbxErr | hpStat | hpErr | hpLost
  | hpDlog | fprCtrl | fprStat | errPin | errSummary | pwrHist | rstStat | bootStat | dramInit | railMon | therm
  | errStatus | errFirst | errFirstNs | errFirstFr | errReactLo | errReactHi | errSrc | spareStat | life | age
  | spmapFuse | dramErr | dramSpare | bistCtrl | bistStat | bistSig | bistFail | lensSlotCnt | lensSlotSnap
  | lensClCnt | lensClSnap | lensThCnt | lensThSnap | lensTcfg | lensSlotCtrl | lensScCnt | lensScSnap | lensDrCnt
  | lensDrSnap | lensHubCnt | lensHubSnap | lensHtCnt | lensHtSnap | lensHtcfg | lensCtrl | lensFreezeAt
  | lensSnapAt | lensSnapNs | lensSnapFr | dbPendLp | dbMaskLp | dbPendCp | dbMaskCp | dbPendHf | dbMaskHf
  deriving DecidableEq, Repr

/-- A register description: its name, the offset of instance 0 from REGBASE, the instances and strides, its width in
bits, its reset value, the reset that clears it, and its fields (high bit, low bit, access). -/
structure RegDesc where
  name   : RegName
  base   : Nat
  dims   : List (Nat × Nat)
  width  : Nat
  reset  : Nat
  cls    : ResetCls
  fields : List (Nat × Nat × Acc)
  deriving DecidableEq, Repr

/-- Register descriptions, part 0. -/
def regTable0 : List RegDesc := [
  ⟨.devId, 0x36000000, [], 32, 0x104896b5, .never,
    [(31, 28, .ro), (27, 24, .ro), (23, 8, .ro), (7, 0, .ro)]⟩,
  ⟨.cmpStat, 0x40000, [(16, 0x1000000), (3, 0x100)], 64, 0x0, .block,
    [(41, 32, .ro), (31, 31, .ro), (30, 30, .ro), (23, 20, .ro), (19, 16, .ro), (15, 14, .ro), (13, 12, .ro), (0, 0, .w1c)]⟩,
  ⟨.cmpTimeNs, 0x40010, [(16, 0x1000000), (3, 0x100)], 64, 0x0, .block,
    [(63, 0, .ro)]⟩,
  ⟨.cmpTimeFr, 0x40018, [(16, 0x1000000), (3, 0x100)], 32, 0x0, .block,
    [(15, 0, .ro)]⟩,
  ⟨.cmpRetrycnt, 0x40020, [(16, 0x1000000), (3, 0x100)], 32, 0x0, .warm,
    [(31, 0, .rc)]⟩,
  ⟨.cmpSkewcnt, 0x40028, [(16, 0x1000000), (3, 0x100)], 32, 0x0, .warm,
    [(31, 0, .rc)]⟩,
  ⟨.cmpMap, 0x40030, [(16, 0x1000000), (3, 0x100)], 32, 0x0, .warm,
    [(13, 12, .ro), (9, 8, .ro), (6, 4, .ro), (2, 0, .ro)]⟩,
  ⟨.cmpTest, 0x40300, [(16, 0x1000000)], 64, 0x0, .cold,
    [(57, 48, .ro), (41, 32, .ro), (25, 16, .ro), (15, 10, .ro), (7, 4, .ro), (0, 0, .ro)]⟩,
  ⟨.cmpSpare, 0x40308, [(16, 0x1000000)], 32, 0x0, .warm,
    [(11, 8, .ro), (5, 4, .ro), (3, 2, .ro), (1, 0, .ro)]⟩,
  ⟨.cmpCtrl, 0x40310, [(16, 0x1000000)], 32, 0x1000, .cold,
    [(31, 31, .w1s), (15, 8, .rwl)]⟩,
  ⟨.intcLvl, 0x50000, [(16, 0x1000000), (6, 0x400), (5, 0x8)], 64, 0x0, .block,
    [(3, 0, .rw), (11, 8, .rw), (19, 16, .rw), (27, 24, .rw), (35, 32, .rw), (43, 40, .rw), (51, 48, .rw), (59, 56, .rw)]⟩,
  ⟨.intcPend, 0x50028, [(16, 0x1000000), (6, 0x400)], 64, 0x0, .block,
    [(63, 24, .ro)]⟩,
  ⟨.intcSwi, 0x50030, [(16, 0x1000000), (6, 0x400)], 32, 0x0, .block,
    [(0, 0, .w1s)]⟩,
  ⟨.tmrCmp, 0x50040, [(16, 0x1000000), (6, 0x400)], 64, 0x0, .block,
    [(63, 0, .rw)]⟩,
  ⟨.tmrCtrl, 0x50048, [(16, 0x1000000), (6, 0x400)], 64, 0x0, .block,
    [(63, 63, .rw), (62, 62, .rw), (61, 61, .w1c), (31, 0, .rw)]⟩,
  ⟨.errLpen, 0x50050, [(16, 0x1000000), (6, 0x400)], 32, 0x0, .restart,
    [(2, 2, .rw), (1, 1, .rw), (0, 0, .rw)]⟩,
  ⟨.mcStat, 0x50058, [(16, 0x1000000), (6, 0x400)], 32, 0x0, .block,
    [(11, 8, .ro), (1, 1, .ro), (0, 0, .w1c)]⟩,
  ⟨.l2Locken, 0x60000, [(16, 0x1000000)], 32, 0x0, .warm,
    [(15, 0, .rw)]⟩,
  ⟨.scLocken, 0x10060000, [(32, 0x100000)], 32, 0x0, .warm,
    [(15, 0, .rw)]⟩,
  ⟨.l2Waymap, 0x60008, [(16, 0x1000000)], 64, 0x0, .warm,
    [(44, 40, .ro), (36, 32, .ro), (17, 0, .ro)]⟩,
  ⟨.scWaymap, 0x10060008, [(32, 0x100000)], 64, 0x0, .warm,
    [(44, 40, .ro), (36, 32, .ro), (17, 0, .ro)]⟩,
  ⟨.l2Errcnt, 0x60010, [(16, 0x1000000), (3, 0x8)], 64, 0x0, .cold,
    [(63, 0, .ro)]⟩,
  ⟨.scErrcnt, 0x10060010, [(32, 0x100000), (3, 0x8)], 64, 0x0, .cold,
    [(63, 0, .ro)]⟩,
  ⟨.l2Errcfg, 0x60028, [(16, 0x1000000)], 32, 0x8, .cold,
    [(7, 0, .rwl)]⟩]

/-- Register descriptions, part 1. -/
def regTable1 : List RegDesc := [
  ⟨.scErrcfg, 0x10060028, [(32, 0x100000)], 32, 0x8, .cold,
    [(7, 0, .rwl)]⟩,
  ⟨.l2Err, 0x60030, [(16, 0x1000000)], 64, 0x0, .warm,
    [(44, 32, .ro), (20, 16, .ro), (11, 8, .ro), (1, 1, .ro), (0, 0, .w1c)]⟩,
  ⟨.scErr, 0x10060030, [(32, 0x100000)], 64, 0x0, .warm,
    [(44, 32, .ro), (20, 16, .ro), (11, 8, .ro), (1, 1, .ro), (0, 0, .w1c)]⟩,
  ⟨.l2Stat, 0x60038, [(16, 0x1000000)], 32, 0x0, .warm,
    [(2, 2, .ro), (1, 1, .w1c), (0, 0, .w1c)]⟩,
  ⟨.scStat, 0x10060038, [(32, 0x100000)], 32, 0x0, .warm,
    [(2, 2, .ro), (1, 1, .w1c), (0, 0, .w1c)]⟩,
  ⟨.rmAddr, 0x60100, [(16, 0x1000000)], 64, 0x0, .warm,
    [(51, 6, .rw)]⟩,
  ⟨.hrmAddr, 0x10060100, [(4, 0x100000)], 64, 0x0, .warm,
    [(51, 6, .rw)]⟩,
  ⟨.rmCount, 0x60108, [(16, 0x1000000)], 32, 0x0, .warm,
    [(31, 0, .rw)]⟩,
  ⟨.hrmCount, 0x10060108, [(4, 0x100000)], 32, 0x0, .warm,
    [(31, 0, .rw)]⟩,
  ⟨.rmCtrl, 0x60110, [(16, 0x1000000)], 64, 0x0, .warm,
    [(63, 63, .w1s), (36, 32, .rw), (28, 28, .rw), (27, 16, .rw), (11, 8, .rw), (2, 0, .rw)]⟩,
  ⟨.hrmCtrl, 0x10060110, [(4, 0x100000)], 64, 0x0, .warm,
    [(63, 63, .w1s), (36, 32, .rw), (28, 28, .rw), (27, 16, .rw), (11, 8, .rw), (2, 0, .rw)]⟩,
  ⟨.rmStat, 0x60118, [(16, 0x1000000)], 64, 0x0, .warm,
    [(63, 32, .ro), (31, 16, .ro), (4, 4, .ro), (3, 0, .ro)]⟩,
  ⟨.hrmStat, 0x10060118, [(4, 0x100000)], 64, 0x0, .warm,
    [(63, 32, .ro), (31, 16, .ro), (4, 4, .ro), (3, 0, .ro)]⟩,
  ⟨.scLock, 0x10000000, [(32, 0x100000)], 32, 0x0, .cold,
    [(0, 0, .w1s)]⟩,
  ⟨.dur, 0x10070000, [(8, 0x8)], 64, 0x0, .cold,
    [(51, 16, .rwl), (14, 4, .rwl), (0, 0, .rwl)]⟩,
  ⟨.twCtrl, 0x18000000, [], 32, 0x40000, .cold,
    [(31, 31, .w1s), (19, 0, .rwl)]⟩,
  ⟨.twStat, 0x18000008, [], 64, 0x0, .warm,
    [(51, 32, .ro), (4, 4, .ro), (1, 0, .ro)]⟩,
  ⟨.twErr, 0x18000010, [], 64, 0x0, .warm,
    [(43, 32, .ro), (11, 8, .ro), (1, 1, .ro), (0, 0, .w1c)]⟩,
  ⟨.twEngmap, 0x18000020, [(2, 0x8)], 64, 0x706050403020100, .warm,
    [(4, 0, .ro), (12, 8, .ro), (20, 16, .ro), (28, 24, .ro), (36, 32, .ro), (44, 40, .ro), (52, 48, .ro), (60, 56, .ro)]⟩,
  ⟨.teStat, 0x18001000, [(18, 0x100)], 64, 0x0, .warm,
    [(63, 32, .ro), (11, 8, .ro), (1, 0, .ro)]⟩,
  ⟨.tqRing, 0x18100000, [(4096, 0x100)], 64, 0x0, .cold,
    [(51, 12, .rw), (4, 0, .rw)]⟩,
  ⟨.tqCq, 0x18100008, [(4096, 0x100)], 64, 0x0, .cold,
    [(51, 12, .rw), (4, 0, .rw)]⟩,
  ⟨.tqState, 0x18100010, [(4096, 0x100)], 64, 0x0, .cold,
    [(51, 12, .rw), (4, 0, .rw)]⟩,
  ⟨.tqBuflo, 0x18100018, [(4096, 0x100)], 64, 0x0, .cold,
    [(51, 0, .rw)]⟩]

/-- Register descriptions, part 2. -/
def regTable2 : List RegDesc := [
  ⟨.tqBufhi, 0x18100020, [(4096, 0x100)], 64, 0x0, .cold,
    [(51, 0, .rw)]⟩,
  ⟨.tqCfg, 0x18100028, [(4096, 0x100)], 64, 0x0, .cold,
    [(63, 63, .rw), (62, 62, .rw), (61, 50, .rw), (49, 46, .rw), (41, 41, .rw), (40, 29, .rw), (28, 24, .rw), (23, 0, .rw)]⟩,
  ⟨.tqTail, 0x18100030, [(4096, 0x100)], 32, 0x0, .cold,
    [(31, 0, .rw)]⟩,
  ⟨.tqHead, 0x18100038, [(4096, 0x100)], 32, 0x0, .cold,
    [(31, 0, .ro)]⟩,
  ⟨.tqRetire, 0x18100040, [(4096, 0x100)], 32, 0x0, .cold,
    [(31, 0, .ro)]⟩,
  ⟨.tqCqtail, 0x18100048, [(4096, 0x100)], 32, 0x0, .cold,
    [(31, 0, .ro)]⟩,
  ⟨.tqCqhead, 0x18100050, [(4096, 0x100)], 32, 0x0, .cold,
    [(31, 0, .rw)]⟩,
  ⟨.tqTarget, 0x18100058, [(4096, 0x100)], 64, 0x0, .cold,
    [(63, 0, .rw)]⟩,
  ⟨.tqStat, 0x18100060, [(4096, 0x100)], 32, 0x0, .cold,
    [(3, 3, .w1c), (2, 2, .ro), (1, 1, .ro), (0, 0, .w1c)]⟩,
  ⟨.nvjStat, 0x30000000, [], 64, 0x0, .warm,
    [(41, 32, .ro), (25, 16, .ro), (2, 2, .ro), (1, 1, .ro), (0, 0, .ro)]⟩,
  ⟨.nvjWear, 0x30000008, [], 64, 0x0, .never,
    [(47, 0, .ro)]⟩,
  ⟨.nvjCfg, 0x30000010, [], 32, 0x1f4, .cold,
    [(31, 31, .w1s), (15, 0, .rwl)]⟩,
  ⟨.portCfg, 0x20000000, [(128, 0x10000)], 64, 0x0, .warm,
    [(63, 63, .rw), (10, 8, .rw), (5, 4, .rw), (3, 3, .rw)]⟩,
  ⟨.portStat, 0x20000008, [(128, 0x10000)], 32, 0x0, .warm,
    [(7, 7, .ro), (6, 6, .ro), (5, 5, .ro), (4, 4, .ro), (3, 3, .ro), (2, 2, .ro), (1, 1, .ro), (0, 0, .ro)]⟩,
  ⟨.portErr, 0x20000010, [(128, 0x10000)], 64, 0x0, .warm,
    [(39, 32, .ro), (11, 8, .ro), (1, 1, .ro), (0, 0, .w1c)]⟩,
  ⟨.portTslat, 0x20000018, [(128, 0x10000)], 32, 0x0, .warm,
    [(31, 16, .rw), (15, 0, .rw)]⟩,
  ⟨.portRxring, 0x20000020, [(128, 0x10000)], 64, 0x0, .warm,
    [(51, 12, .rw), (5, 5, .rw), (4, 0, .rw)]⟩,
  ⟨.portRxntf, 0x20000028, [(128, 0x10000)], 32, 0x0, .warm,
    [(31, 31, .rw), (28, 24, .rw), (11, 0, .rw)]⟩,
  ⟨.portRxtail, 0x20000030, [(128, 0x10000)], 32, 0x0, .warm,
    [(31, 0, .ro)]⟩,
  ⟨.portRxhead, 0x20000038, [(128, 0x10000)], 32, 0x0, .warm,
    [(31, 0, .rw)]⟩,
  ⟨.msecCfg, 0x20000048, [(128, 0x10000)], 64, 0x0, .warm,
    [(63, 63, .rw), (62, 62, .rw), (61, 61, .rw), (60, 59, .rw), (58, 58, .rw), (31, 0, .rw)]⟩,
  ⟨.prpCfg, 0x20000040, [(64, 0x20000)], 32, 0x190, .warm,
    [(17, 16, .rw), (15, 0, .rw)]⟩,
  ⟨.portCnt, 0x20000100, [(128, 0x10000), (29, 0x8)], 64, 0x0, .warm,
    [(63, 0, .ro)]⟩,
  ⟨.clsDefault, 0x20000080, [(8, 0x100000)], 32, 0x0, .warm,
    [(0, 0, .rw)]⟩]

/-- Register descriptions, part 3. -/
def regTable3 : List RegDesc := [
  ⟨.pubBase, 0x20000090, [], 64, 0x0, .warm,
    [(51, 20, .rw), (0, 0, .rw)]⟩,
  ⟨.clsRule, 0x20008000, [(8, 0x100000), (1024, 0x8)], 64, 0x0, .warm,
    [(63, 0, .rw)]⟩,
  ⟨.svStream, 0x2000a000, [(8, 0x100000), (2048, 0x8)], 64, 0x0, .warm,
    [(63, 0, .rw)]⟩,
  ⟨.gseSub, 0x20018000, [(8, 0x100000), (4096, 0x8)], 64, 0x0, .warm,
    [(63, 0, .rw)]⟩,
  ⟨.rtSelf, 0x21000000, [], 32, 0x0, .warm,
    [(31, 31, .rw), (17, 0, .rw)]⟩,
  ⟨.rtCtrl, 0x21000008, [], 32, 0x40, .cold,
    [(31, 31, .w1s), (7, 0, .rwl)]⟩,
  ⟨.lnkErr, 0x21000010, [], 64, 0x0, .warm,
    [(38, 32, .ro), (11, 8, .ro), (1, 1, .ro), (0, 0, .w1c)]⟩,
  ⟨.rtMember, 0x21010000, [(1024, 0x8)], 64, 0x0, .warm,
    [(63, 63, .rw), (33, 32, .rw), (30, 24, .rw), (22, 16, .rw), (14, 8, .rw), (6, 0, .rw)]⟩,
  ⟨.rtDomain, 0x21012000, [(256, 0x8)], 64, 0x0, .warm,
    [(63, 63, .rw), (62, 62, .rw), (61, 52, .rw), (33, 0, .rw)]⟩,
  ⟨.lnkCfg, 0x21100000, [(128, 0x100)], 64, 0x0, .warm,
    [(63, 63, .rw), (49, 48, .rw), (40, 40, .rw), (31, 16, .rw)]⟩,
  ⟨.lnkStat, 0x21100008, [(128, 0x100)], 64, 0x0, .warm,
    [(49, 32, .ro), (31, 12, .ro), (11, 10, .ro), (7, 4, .ro), (3, 3, .ro), (2, 2, .ro), (1, 0, .ro)]⟩,
  ⟨.lnkTt, 0x21100010, [(128, 0x100)], 64, 0x0, .warm,
    [(63, 32, .ro), (31, 0, .ro)]⟩,
  ⟨.lnkCnt, 0x21100040, [(128, 0x100), (8, 0x8)], 64, 0x0, .warm,
    [(63, 0, .ro)]⟩,
  ⟨.timeCtrl, 0x22000000, [], 32, 0x10020, .cold,
    [(31, 31, .w1s), (23, 16, .rwl), (5, 5, .rwl), (4, 4, .rwl), (3, 3, .rwl), (2, 0, .rw)]⟩,
  ⟨.timeStat, 0x22000008, [], 32, 0x4, .cold,
    [(7, 4, .ro), (3, 3, .ro), (2, 2, .ro), (1, 0, .ro)]⟩,
  ⟨.timeFreq, 0x22000010, [], 32, 0x0, .cold,
    [(31, 0, .rw)]⟩,
  ⟨.timeAdj, 0x22000018, [], 64, 0x0, .cold,
    [(63, 63, .w1s), (62, 62, .rw), (47, 0, .rw)]⟩,
  ⟨.timeUtc, 0x22000020, [], 32, 0x25, .cold,
    [(17, 17, .rw), (16, 16, .rw), (15, 0, .rw)]⟩,
  ⟨.ppsCfg, 0x22000028, [], 32, 0x186a0, .cold,
    [(31, 31, .rw), (30, 30, .rw), (29, 29, .rw), (19, 0, .rw)]⟩,
  ⟨.ppsinNs, 0x22000030, [], 64, 0x0, .cold,
    [(63, 0, .ro)]⟩,
  ⟨.ppsinFr, 0x22000038, [], 32, 0x0, .cold,
    [(31, 24, .rc), (16, 16, .w1c), (15, 0, .ro)]⟩,
  ⟨.pjRing, 0x24000000, [(36, 0x10000)], 64, 0x0, .cold,
    [(51, 12, .rw), (4, 0, .rw)]⟩,
  ⟨.cjRing, 0x25010000, [(36, 0x100)], 64, 0x0, .cold,
    [(51, 12, .rw), (4, 0, .rw)]⟩,
  ⟨.pjCq, 0x24000008, [(36, 0x10000)], 64, 0x0, .cold,
    [(51, 12, .rw), (4, 0, .rw)]⟩]

/-- Register descriptions, part 4. -/
def regTable4 : List RegDesc := [
  ⟨.cjCq, 0x25010008, [(36, 0x100)], 64, 0x0, .cold,
    [(51, 12, .rw), (4, 0, .rw)]⟩,
  ⟨.pjBuflo, 0x24000010, [(36, 0x10000)], 64, 0x0, .cold,
    [(51, 0, .rw)]⟩,
  ⟨.cjBuflo, 0x25010010, [(36, 0x100)], 64, 0x0, .cold,
    [(51, 0, .rw)]⟩,
  ⟨.pjBufhi, 0x24000018, [(36, 0x10000)], 64, 0x0, .cold,
    [(51, 0, .rw)]⟩,
  ⟨.cjBufhi, 0x25010018, [(36, 0x100)], 64, 0x0, .cold,
    [(51, 0, .rw)]⟩,
  ⟨.pjCfg, 0x24000020, [(36, 0x10000)], 64, 0x0, .cold,
    [(63, 63, .rw), (61, 50, .rw), (49, 46, .rw), (41, 41, .rw), (40, 29, .rw), (28, 24, .rw)]⟩,
  ⟨.cjCfg, 0x25010020, [(36, 0x100)], 64, 0x0, .cold,
    [(63, 63, .rw), (61, 50, .rw), (49, 46, .rw), (41, 41, .rw), (40, 29, .rw), (28, 24, .rw)]⟩,
  ⟨.pjTail, 0x24000028, [(36, 0x10000)], 32, 0x0, .cold,
    [(31, 0, .rw)]⟩,
  ⟨.cjTail, 0x25010028, [(36, 0x100)], 32, 0x0, .cold,
    [(31, 0, .rw)]⟩,
  ⟨.pjHead, 0x24000030, [(36, 0x10000)], 32, 0x0, .cold,
    [(31, 0, .ro)]⟩,
  ⟨.cjHead, 0x25010030, [(36, 0x100)], 32, 0x0, .cold,
    [(31, 0, .ro)]⟩,
  ⟨.pjCqtail, 0x24000038, [(36, 0x10000)], 32, 0x0, .cold,
    [(31, 0, .ro)]⟩,
  ⟨.cjCqtail, 0x25010038, [(36, 0x100)], 32, 0x0, .cold,
    [(31, 0, .ro)]⟩,
  ⟨.pjCqhead, 0x24000040, [(36, 0x10000)], 32, 0x0, .cold,
    [(31, 0, .rw)]⟩,
  ⟨.cjCqhead, 0x25010040, [(36, 0x100)], 32, 0x0, .cold,
    [(31, 0, .rw)]⟩,
  ⟨.pjStat, 0x24000048, [(36, 0x10000)], 32, 0x0, .cold,
    [(3, 3, .w1c), (2, 2, .ro), (1, 1, .ro), (0, 0, .w1c)]⟩,
  ⟨.cjStat, 0x25010048, [(36, 0x100)], 32, 0x0, .cold,
    [(3, 3, .w1c), (2, 2, .ro), (1, 1, .ro), (0, 0, .w1c)]⟩,
  ⟨.peStat, 0x24000100, [(36, 0x10000)], 64, 0x0, .warm,
    [(63, 32, .ro), (22, 22, .ro), (21, 16, .ro), (1, 0, .ro)]⟩,
  ⟨.peErr, 0x24000108, [(36, 0x10000)], 64, 0x0, .warm,
    [(47, 32, .ro), (11, 8, .ro), (1, 1, .ro), (0, 0, .w1c)]⟩,
  ⟨.ceStat, 0x25020000, [(36, 0x100)], 64, 0x0, .warm,
    [(63, 32, .ro), (22, 22, .ro), (21, 16, .ro), (1, 0, .ro)]⟩,
  ⟨.ceErr, 0x25020008, [(36, 0x100)], 64, 0x0, .warm,
    [(47, 32, .ro), (11, 8, .ro), (1, 1, .ro), (0, 0, .w1c)]⟩,
  ⟨.keyData, 0x25000000, [(8, 0x8)], 64, 0x0, .warm,
    [(63, 0, .wo)]⟩,
  ⟨.keyCmd, 0x25000040, [], 64, 0x0, .warm,
    [(63, 63, .w1s), (62, 60, .rw), (50, 48, .ro), (46, 40, .rw), (38, 36, .rw), (33, 33, .rw), (27, 16, .rw), (9, 0, .rw)]⟩,
  ⟨.keyStat, 0x25008000, [(1024, 0x8)], 32, 0x0, .cold,
    [(31, 31, .ro), (30, 30, .ro), (29, 29, .ro), (26, 24, .ro), (22, 16, .ro), (11, 0, .ro)]⟩]

/-- Register descriptions, part 5. -/
def regTable5 : List RegDesc := [
  ⟨.mbxTx, 0x28000000, [(4096, 0x100), (8, 0x8)], 64, 0x0, .warm,
    [(63, 0, .wo)]⟩,
  ⟨.mbxPost, 0x28000040, [(4096, 0x100)], 32, 0x0, .warm,
    [(31, 31, .wo), (19, 0, .wo)]⟩,
  ⟨.mbxPostStat, 0x28000048, [(4096, 0x100)], 32, 0x0, .warm,
    [(31, 16, .ro), (4, 4, .ro), (3, 0, .ro)]⟩,
  ⟨.mbxRing, 0x28000050, [(4096, 0x100)], 32, 0x0, .warm,
    [(0, 0, .wo)]⟩,
  ⟨.mbxRx, 0x28000080, [(4096, 0x100), (8, 0x8)], 64, 0x0, .warm,
    [(63, 0, .ro)]⟩,
  ⟨.mbxRstat, 0x280000c0, [(4096, 0x100)], 32, 0x0, .warm,
    [(31, 16, .ro), (12, 12, .ro), (11, 8, .ro), (3, 0, .ro)]⟩,
  ⟨.mbxPop, 0x280000c8, [(4096, 0x100)], 32, 0x0, .warm,
    [(15, 0, .wo)]⟩,
  ⟨.mbxBind, 0x280000e0, [(4096, 0x100)], 64, 0x0, .cold,
    [(63, 63, .w1s), (62, 62, .rwl), (36, 32, .rwl), (27, 16, .rwl), (11, 0, .rwl)]⟩,
  ⟨.mbxErr, 0x280000f0, [(4096, 0x100)], 64, 0x0, .warm,
    [(27, 16, .ro), (11, 8, .ro), (1, 1, .ro), (0, 0, .w1c)]⟩,
  ⟨.hpStat, 0x2c000000, [], 32, 0x0, .block,
    [(21, 16, .ro), (10, 10, .ro), (9, 8, .ro), (6, 4, .ro), (1, 1, .ro), (0, 0, .ro)]⟩,
  ⟨.hpErr, 0x2c000008, [], 64, 0x0, .warm,
    [(37, 32, .ro), (11, 8, .ro), (1, 1, .ro), (0, 0, .w1c)]⟩,
  ⟨.hpLost, 0x2c000010, [], 32, 0x0, .warm,
    [(31, 0, .rc)]⟩,
  ⟨.hpDlog, 0x2c010008, [(63, 0x8)], 64, 0x0, .block,
    [(63, 24, .ro), (2, 2, .ro), (1, 0, .ro)]⟩,
  ⟨.fprCtrl, 0x2e000000, [], 32, 0x0, .cold,
    [(31, 31, .w1s)]⟩,
  ⟨.fprStat, 0x2e000008, [], 32, 0x0, .warm,
    [(5, 5, .ro), (4, 4, .ro), (3, 3, .ro), (2, 2, .ro), (1, 1, .ro), (0, 0, .ro)]⟩,
  ⟨.errPin, 0x2e000010, [], 32, 0x0, .warm,
    [(31, 31, .w1c), (30, 30, .w1s), (25, 16, .ro), (7, 0, .rc)]⟩,
  ⟨.errSummary, 0x2e000018, [], 32, 0x0, .cold,
    [(23, 0, .ro)]⟩,
  ⟨.pwrHist, 0x2e000300, [], 64, 0x0, .aon,
    [(47, 32, .ro), (2, 2, .w1c), (1, 1, .w1c), (0, 0, .w1c)]⟩,
  ⟨.rstStat, 0x2e000400, [], 64, 0x1, .aon,
    [(63, 48, .ro), (47, 32, .rc), (18, 18, .w1c), (17, 8, .ro), (3, 0, .ro)]⟩,
  ⟨.bootStat, 0x2e000408, [], 32, 0x0, .cold,
    [(31, 16, .ro), (15, 14, .ro), (11, 11, .ro), (10, 10, .ro), (9, 9, .ro), (8, 8, .ro), (7, 4, .ro)]⟩,
  ⟨.dramInit, 0x2e000410, [], 64, 0x0, .cold,
    [(63, 63, .ro), (51, 6, .ro)]⟩,
  ⟨.railMon, 0x2e000100, [(10, 0x8)], 64, 0x0, .warm,
    [(47, 32, .ro), (31, 16, .rc), (15, 0, .ro)]⟩,
  ⟨.therm, 0x2e000200, [(24, 0x8)], 32, 0x0, .warm,
    [(31, 16, .rc), (15, 0, .ro)]⟩,
  ⟨.errStatus, 0x2e001000, [(24, 0x40)], 32, 0x0, .cold,
    [(31, 0, .w1c)]⟩]

/-- Register descriptions, part 6. -/
def regTable6 : List RegDesc := [
  ⟨.errFirst, 0x2e001008, [(24, 0x40)], 32, 0x0, .cold,
    [(25, 16, .ro), (1, 1, .ro), (0, 0, .w1c)]⟩,
  ⟨.errFirstNs, 0x2e001010, [(24, 0x40)], 64, 0x0, .cold,
    [(63, 0, .ro)]⟩,
  ⟨.errFirstFr, 0x2e001018, [(24, 0x40)], 32, 0x0, .cold,
    [(15, 0, .ro)]⟩,
  ⟨.errReactLo, 0x2e001020, [(24, 0x40)], 64, 0x0, .cold,
    [(2, 0, .rwl), (6, 4, .rwl), (10, 8, .rwl), (14, 12, .rwl), (18, 16, .rwl), (22, 20, .rwl), (26, 24, .rwl), (30, 28, .rwl), (34, 32, .rwl), (38, 36, .rwl), (42, 40, .rwl), (46, 44, .rwl), (50, 48, .rwl), (54, 52, .rwl), (58, 56, .rwl), (62, 60, .rwl)]⟩,
  ⟨.errReactHi, 0x2e001028, [(24, 0x40)], 64, 0x0, .cold,
    [(2, 0, .rwl), (6, 4, .rwl), (10, 8, .rwl), (14, 12, .rwl), (18, 16, .rwl), (22, 20, .rwl), (26, 24, .rwl), (30, 28, .rwl), (34, 32, .rwl), (38, 36, .rwl), (42, 40, .rwl), (46, 44, .rwl), (50, 48, .rwl), (54, 52, .rwl), (58, 56, .rwl), (62, 60, .rwl)]⟩,
  ⟨.errSrc, 0x2e010000, [(768, 0x8)], 32, 0x0, .cold,
    [(31, 31, .w1c), (30, 30, .ro), (29, 27, .ro), (7, 0, .ro)]⟩,
  ⟨.spareStat, 0x36000100, [], 64, 0x0, .cold,
    [(63, 63, .ro), (61, 52, .ro), (50, 43, .rw), (42, 32, .rw), (31, 28, .rw), (27, 24, .rw), (23, 17, .rw), (16, 11, .rw), (10, 6, .rw), (5, 0, .rw)]⟩,
  ⟨.life, 0x36000108, [], 64, 0x0, .never,
    [(63, 32, .rw), (31, 0, .rw)]⟩,
  ⟨.age, 0x36000200, [(16, 0x8)], 32, 0x0, .cold,
    [(15, 0, .ro)]⟩,
  ⟨.spmapFuse, 0x36001000, [(512, 0x4)], 32, 0x0, .never,
    [(31, 0, .ro)]⟩,
  ⟨.dramErr, 0x14000100, [(16, 0x100000)], 64, 0x0, .warm,
    [(63, 46, .ro), (45, 41, .ro), (40, 39, .ro), (38, 38, .ro), (37, 34, .ro), (11, 8, .ro), (1, 1, .ro), (0, 0, .w1c)]⟩,
  ⟨.dramSpare, 0x14000108, [(16, 0x100000)], 32, 0x0, .warm,
    [(23, 16, .ro), (15, 8, .ro), (7, 0, .ro)]⟩,
  ⟨.bistCtrl, 0x35000000, [], 32, 0x0, .warm,
    [(31, 31, .w1s), (23, 16, .rw), (15, 8, .rw), (0, 0, .rw)]⟩,
  ⟨.bistStat, 0x35000008, [], 32, 0x0, .warm,
    [(31, 31, .ro), (30, 30, .ro), (29, 29, .ro), (23, 16, .ro), (15, 8, .ro), (0, 0, .ro)]⟩,
  ⟨.bistSig, 0x35000010, [], 64, 0x0, .warm,
    [(63, 0, .ro)]⟩,
  ⟨.bistFail, 0x35000018, [], 64, 0x0, .warm,
    [(30, 13, .ro), (12, 12, .ro), (11, 8, .ro), (7, 0, .ro)]⟩,
  ⟨.lensSlotCnt, 0x34000000, [(16, 0x80000), (6, 0x1000), (16, 0x8)], 64, 0x0, .warm,
    [(63, 63, .w1c), (47, 0, .ro)]⟩,
  ⟨.lensSlotSnap, 0x34000800, [(16, 0x80000), (6, 0x1000), (16, 0x8)], 64, 0x0, .warm,
    [(63, 63, .ro), (47, 0, .ro)]⟩,
  ⟨.lensClCnt, 0x34006000, [(16, 0x80000), (12, 0x8)], 64, 0x0, .warm,
    [(63, 63, .w1c), (47, 0, .ro)]⟩,
  ⟨.lensClSnap, 0x34006800, [(16, 0x80000), (12, 0x8)], 64, 0x0, .warm,
    [(63, 63, .ro), (47, 0, .ro)]⟩,
  ⟨.lensThCnt, 0x34007000, [(16, 0x80000), (64, 0x8)], 64, 0x0, .warm,
    [(63, 63, .w1c), (47, 0, .ro)]⟩,
  ⟨.lensThSnap, 0x34007800, [(16, 0x80000), (64, 0x8)], 64, 0x0, .warm,
    [(63, 63, .ro), (47, 0, .ro)]⟩,
  ⟨.lensTcfg, 0x34008000, [(16, 0x80000), (64, 0x8)], 32, 0x0, .warm,
    [(31, 31, .rw), (23, 16, .rw), (15, 8, .rw), (7, 0, .rw)]⟩,
  ⟨.lensSlotCtrl, 0x34009000, [(16, 0x80000), (6, 0x8)], 32, 0x0, .restart,
    [(1, 1, .rw), (0, 0, .rw)]⟩]

/-- Register descriptions, part 7. -/
def regTable7 : List RegDesc := [
  ⟨.lensScCnt, 0x34800000, [(32, 0x1000), (7, 0x8)], 64, 0x0, .warm,
    [(63, 63, .w1c), (47, 0, .ro)]⟩,
  ⟨.lensScSnap, 0x34800800, [(32, 0x1000), (7, 0x8)], 64, 0x0, .warm,
    [(63, 63, .ro), (47, 0, .ro)]⟩,
  ⟨.lensDrCnt, 0x34820000, [(16, 0x1000), (5, 0x8)], 64, 0x0, .warm,
    [(63, 63, .w1c), (47, 0, .ro)]⟩,
  ⟨.lensDrSnap, 0x34820800, [(16, 0x1000), (5, 0x8)], 64, 0x0, .warm,
    [(63, 63, .ro), (47, 0, .ro)]⟩,
  ⟨.lensHubCnt, 0x34830000, [(3, 0x1000), (8, 0x8)], 64, 0x0, .warm,
    [(63, 63, .w1c), (47, 0, .ro)]⟩,
  ⟨.lensHubSnap, 0x34830800, [(3, 0x1000), (8, 0x8)], 64, 0x0, .warm,
    [(63, 63, .ro), (47, 0, .ro)]⟩,
  ⟨.lensHtCnt, 0x34900000, [(128, 0x8)], 64, 0x0, .warm,
    [(63, 63, .w1c), (47, 0, .ro)]⟩,
  ⟨.lensHtSnap, 0x34900800, [(128, 0x8)], 64, 0x0, .warm,
    [(63, 63, .ro), (47, 0, .ro)]⟩,
  ⟨.lensHtcfg, 0x34901000, [(128, 0x8)], 32, 0x0, .warm,
    [(31, 31, .rw), (23, 16, .rw), (15, 8, .rw), (7, 0, .rw)]⟩,
  ⟨.lensCtrl, 0x34a00000, [], 32, 0x0, .warm,
    [(31, 31, .w1s), (30, 30, .rw), (29, 29, .ro), (28, 28, .w1c)]⟩,
  ⟨.lensFreezeAt, 0x34a00008, [], 64, 0x0, .warm,
    [(63, 0, .rw)]⟩,
  ⟨.lensSnapAt, 0x34a00010, [], 64, 0x0, .warm,
    [(63, 0, .rw)]⟩,
  ⟨.lensSnapNs, 0x34a00018, [], 64, 0x0, .warm,
    [(63, 0, .ro)]⟩,
  ⟨.lensSnapFr, 0x34a00020, [], 32, 0x0, .warm,
    [(15, 0, .ro)]⟩,
  ⟨.dbPendLp, 0x50080, [(16, 0x1000000), (6, 0x400)], 32, 0x0, .restart,
    [(31, 0, .w1c)]⟩,
  ⟨.dbMaskLp, 0x50088, [(16, 0x1000000), (6, 0x400)], 32, 0xffffffff, .restart,
    [(31, 0, .rw)]⟩,
  ⟨.dbPendCp, 0x2e800000, [(2, 0x100)], 32, 0x0, .warm,
    [(31, 0, .w1c)]⟩,
  ⟨.dbMaskCp, 0x2e800008, [(2, 0x100)], 32, 0xffffffff, .warm,
    [(31, 0, .rw)]⟩,
  ⟨.dbPendHf, 0x2c400000, [(64, 0x100)], 32, 0x0, .cold,
    [(31, 0, .w1c)]⟩,
  ⟨.dbMaskHf, 0x2c400008, [(64, 0x100)], 32, 0xffffffff, .cold,
    [(31, 0, .rw)]⟩]

/-- All register descriptions. -/
def regTable : List RegDesc :=
  regTable0 ++ regTable1 ++ regTable2 ++ regTable3 ++ regTable4 ++ regTable5 ++ regTable6 ++ regTable7

end Sys2Proof.Machine
end

