-- ==== Sys2Proof/Machine/Offsets.lean ====
section
/-! DEFINITION. The offset of each register from REGBASE, by the numbers of its instance: cluster, slot, port and so on (01 R24
and the rule of the register's chapter). -/

namespace Sys2Proof.Machine.Off

/-- DEV_ID. -/
def devId : Nat := 0x36000000
/-- CMP_STAT. -/
def cmpStat (i j : Nat) : Nat := 0x40000 + i * 0x1000000 + j * 0x100
/-- CMP_TIME_NS. -/
def cmpTimeNs (i j : Nat) : Nat := 0x40010 + i * 0x1000000 + j * 0x100
/-- CMP_TIME_FR. -/
def cmpTimeFr (i j : Nat) : Nat := 0x40018 + i * 0x1000000 + j * 0x100
/-- CMP_RETRYCNT. -/
def cmpRetrycnt (i j : Nat) : Nat := 0x40020 + i * 0x1000000 + j * 0x100
/-- CMP_SKEWCNT. -/
def cmpSkewcnt (i j : Nat) : Nat := 0x40028 + i * 0x1000000 + j * 0x100
/-- CMP_MAP. -/
def cmpMap (i j : Nat) : Nat := 0x40030 + i * 0x1000000 + j * 0x100
/-- CMP_TEST. -/
def cmpTest (i : Nat) : Nat := 0x40300 + i * 0x1000000
/-- CMP_SPARE. -/
def cmpSpare (i : Nat) : Nat := 0x40308 + i * 0x1000000
/-- CMP_CTRL. -/
def cmpCtrl (i : Nat) : Nat := 0x40310 + i * 0x1000000
/-- INTC_LVL_j. -/
def intcLvl (i j m : Nat) : Nat := 0x50000 + i * 0x1000000 + j * 0x400 + m * 0x8
/-- INTC_PEND. -/
def intcPend (i j : Nat) : Nat := 0x50028 + i * 0x1000000 + j * 0x400
/-- INTC_SWI. -/
def intcSwi (i j : Nat) : Nat := 0x50030 + i * 0x1000000 + j * 0x400
/-- TMR_CMP. -/
def tmrCmp (i j : Nat) : Nat := 0x50040 + i * 0x1000000 + j * 0x400
/-- TMR_CTRL. -/
def tmrCtrl (i j : Nat) : Nat := 0x50048 + i * 0x1000000 + j * 0x400
/-- ERR_LPEN. -/
def errLpen (i j : Nat) : Nat := 0x50050 + i * 0x1000000 + j * 0x400
/-- MC_STAT. -/
def mcStat (i j : Nat) : Nat := 0x50058 + i * 0x1000000 + j * 0x400
/-- L2_LOCKEN. -/
def l2Locken (i : Nat) : Nat := 0x60000 + i * 0x1000000
/-- SC_LOCKEN. -/
def scLocken (i : Nat) : Nat := 0x10060000 + i * 0x100000
/-- L2_WAYMAP. -/
def l2Waymap (i : Nat) : Nat := 0x60008 + i * 0x1000000
/-- SC_WAYMAP. -/
def scWaymap (i : Nat) : Nat := 0x10060008 + i * 0x100000
/-- L2_ERRCNT_i. -/
def l2Errcnt (i j : Nat) : Nat := 0x60010 + i * 0x1000000 + j * 0x8
/-- SC_ERRCNT_i. -/
def scErrcnt (i j : Nat) : Nat := 0x10060010 + i * 0x100000 + j * 0x8
/-- L2_ERRCFG. -/
def l2Errcfg (i : Nat) : Nat := 0x60028 + i * 0x1000000
/-- SC_ERRCFG. -/
def scErrcfg (i : Nat) : Nat := 0x10060028 + i * 0x100000
/-- L2_ERR. -/
def l2Err (i : Nat) : Nat := 0x60030 + i * 0x1000000
/-- SC_ERR. -/
def scErr (i : Nat) : Nat := 0x10060030 + i * 0x100000
/-- L2_STAT. -/
def l2Stat (i : Nat) : Nat := 0x60038 + i * 0x1000000
/-- SC_STAT. -/
def scStat (i : Nat) : Nat := 0x10060038 + i * 0x100000
/-- RM_ADDR. -/
def rmAddr (i : Nat) : Nat := 0x60100 + i * 0x1000000
/-- HRM_ADDR. -/
def hrmAddr (i : Nat) : Nat := 0x10060100 + i * 0x100000
/-- RM_COUNT. -/
def rmCount (i : Nat) : Nat := 0x60108 + i * 0x1000000
/-- HRM_COUNT. -/
def hrmCount (i : Nat) : Nat := 0x10060108 + i * 0x100000
/-- RM_CTRL. -/
def rmCtrl (i : Nat) : Nat := 0x60110 + i * 0x1000000
/-- HRM_CTRL. -/
def hrmCtrl (i : Nat) : Nat := 0x10060110 + i * 0x100000
/-- RM_STAT. -/
def rmStat (i : Nat) : Nat := 0x60118 + i * 0x1000000
/-- HRM_STAT. -/
def hrmStat (i : Nat) : Nat := 0x10060118 + i * 0x100000
/-- SC_LOCK. -/
def scLock (i : Nat) : Nat := 0x10000000 + i * 0x100000
/-- DUR_i. -/
def dur (i : Nat) : Nat := 0x10070000 + i * 0x8
/-- TW_CTRL. -/
def twCtrl : Nat := 0x18000000
/-- TW_STAT. -/
def twStat : Nat := 0x18000008
/-- TW_ERR. -/
def twErr : Nat := 0x18000010
/-- TW_ENGMAP_j. -/
def twEngmap (i : Nat) : Nat := 0x18000020 + i * 0x8
/-- TE_STAT. -/
def teStat (i : Nat) : Nat := 0x18001000 + i * 0x100
/-- TQ_RING. -/
def tqRing (i : Nat) : Nat := 0x18100000 + i * 0x100
/-- TQ_CQ. -/
def tqCq (i : Nat) : Nat := 0x18100008 + i * 0x100
/-- TQ_STATE. -/
def tqState (i : Nat) : Nat := 0x18100010 + i * 0x100
/-- TQ_BUFLO. -/
def tqBuflo (i : Nat) : Nat := 0x18100018 + i * 0x100
/-- TQ_BUFHI. -/
def tqBufhi (i : Nat) : Nat := 0x18100020 + i * 0x100
/-- TQ_CFG. -/
def tqCfg (i : Nat) : Nat := 0x18100028 + i * 0x100
/-- TQ_TAIL. -/
def tqTail (i : Nat) : Nat := 0x18100030 + i * 0x100
/-- TQ_HEAD. -/
def tqHead (i : Nat) : Nat := 0x18100038 + i * 0x100
/-- TQ_RETIRE. -/
def tqRetire (i : Nat) : Nat := 0x18100040 + i * 0x100
/-- TQ_CQTAIL. -/
def tqCqtail (i : Nat) : Nat := 0x18100048 + i * 0x100
/-- TQ_CQHEAD. -/
def tqCqhead (i : Nat) : Nat := 0x18100050 + i * 0x100
/-- TQ_TARGET. -/
def tqTarget (i : Nat) : Nat := 0x18100058 + i * 0x100
/-- TQ_STAT. -/
def tqStat (i : Nat) : Nat := 0x18100060 + i * 0x100
/-- NVJ_STAT. -/
def nvjStat : Nat := 0x30000000
/-- NVJ_WEAR. -/
def nvjWear : Nat := 0x30000008
/-- NVJ_CFG. -/
def nvjCfg : Nat := 0x30000010
/-- PORT_CFG. -/
def portCfg (i : Nat) : Nat := 0x20000000 + i * 0x10000
/-- PORT_STAT. -/
def portStat (i : Nat) : Nat := 0x20000008 + i * 0x10000
/-- PORT_ERR. -/
def portErr (i : Nat) : Nat := 0x20000010 + i * 0x10000
/-- PORT_TSLAT. -/
def portTslat (i : Nat) : Nat := 0x20000018 + i * 0x10000
/-- PORT_RXRING. -/
def portRxring (i : Nat) : Nat := 0x20000020 + i * 0x10000
/-- PORT_RXNTF. -/
def portRxntf (i : Nat) : Nat := 0x20000028 + i * 0x10000
/-- PORT_RXTAIL. -/
def portRxtail (i : Nat) : Nat := 0x20000030 + i * 0x10000
/-- PORT_RXHEAD. -/
def portRxhead (i : Nat) : Nat := 0x20000038 + i * 0x10000
/-- MSEC_CFG. -/
def msecCfg (i : Nat) : Nat := 0x20000048 + i * 0x10000
/-- PRP_CFG. -/
def prpCfg (i : Nat) : Nat := 0x20000040 + i * 0x20000
/-- PORT_CNT_i. -/
def portCnt (i j : Nat) : Nat := 0x20000100 + i * 0x10000 + j * 0x8
/-- CLS_DEFAULT. -/
def clsDefault (i : Nat) : Nat := 0x20000080 + i * 0x100000
/-- PUB_BASE. -/
def pubBase : Nat := 0x20000090
/-- CLS_RULE. -/
def clsRule (i j : Nat) : Nat := 0x20008000 + i * 0x100000 + j * 0x8
/-- SV_STREAM. -/
def svStream (i j : Nat) : Nat := 0x2000a000 + i * 0x100000 + j * 0x8
/-- GSE_SUB. -/
def gseSub (i j : Nat) : Nat := 0x20018000 + i * 0x100000 + j * 0x8
/-- RT_SELF. -/
def rtSelf : Nat := 0x21000000
/-- RT_CTRL. -/
def rtCtrl : Nat := 0x21000008
/-- LNK_ERR. -/
def lnkErr : Nat := 0x21000010
/-- RT_MEMBER_i. -/
def rtMember (i : Nat) : Nat := 0x21010000 + i * 0x8
/-- RT_DOMAIN_j. -/
def rtDomain (i : Nat) : Nat := 0x21012000 + i * 0x8
/-- LNK_CFG. -/
def lnkCfg (i : Nat) : Nat := 0x21100000 + i * 0x100
/-- LNK_STAT. -/
def lnkStat (i : Nat) : Nat := 0x21100008 + i * 0x100
/-- LNK_TT. -/
def lnkTt (i : Nat) : Nat := 0x21100010 + i * 0x100
/-- LNK_CNT_i. -/
def lnkCnt (i j : Nat) : Nat := 0x21100040 + i * 0x100 + j * 0x8
/-- TIME_CTRL. -/
def timeCtrl : Nat := 0x22000000
/-- TIME_STAT. -/
def timeStat : Nat := 0x22000008
/-- TIME_FREQ. -/
def timeFreq : Nat := 0x22000010
/-- TIME_ADJ. -/
def timeAdj : Nat := 0x22000018
/-- TIME_UTC. -/
def timeUtc : Nat := 0x22000020
/-- PPS_CFG. -/
def ppsCfg : Nat := 0x22000028
/-- PPSIN_NS. -/
def ppsinNs : Nat := 0x22000030
/-- PPSIN_FR. -/
def ppsinFr : Nat := 0x22000038
/-- PJ_RING. -/
def pjRing (i : Nat) : Nat := 0x24000000 + i * 0x10000
/-- CJ_RING. -/
def cjRing (i : Nat) : Nat := 0x25010000 + i * 0x100
/-- PJ_CQ. -/
def pjCq (i : Nat) : Nat := 0x24000008 + i * 0x10000
/-- CJ_CQ. -/
def cjCq (i : Nat) : Nat := 0x25010008 + i * 0x100
/-- PJ_BUFLO. -/
def pjBuflo (i : Nat) : Nat := 0x24000010 + i * 0x10000
/-- CJ_BUFLO. -/
def cjBuflo (i : Nat) : Nat := 0x25010010 + i * 0x100
/-- PJ_BUFHI. -/
def pjBufhi (i : Nat) : Nat := 0x24000018 + i * 0x10000
/-- CJ_BUFHI. -/
def cjBufhi (i : Nat) : Nat := 0x25010018 + i * 0x100
/-- PJ_CFG. -/
def pjCfg (i : Nat) : Nat := 0x24000020 + i * 0x10000
/-- CJ_CFG. -/
def cjCfg (i : Nat) : Nat := 0x25010020 + i * 0x100
/-- PJ_TAIL. -/
def pjTail (i : Nat) : Nat := 0x24000028 + i * 0x10000
/-- CJ_TAIL. -/
def cjTail (i : Nat) : Nat := 0x25010028 + i * 0x100
/-- PJ_HEAD. -/
def pjHead (i : Nat) : Nat := 0x24000030 + i * 0x10000
/-- CJ_HEAD. -/
def cjHead (i : Nat) : Nat := 0x25010030 + i * 0x100
/-- PJ_CQTAIL. -/
def pjCqtail (i : Nat) : Nat := 0x24000038 + i * 0x10000
/-- CJ_CQTAIL. -/
def cjCqtail (i : Nat) : Nat := 0x25010038 + i * 0x100
/-- PJ_CQHEAD. -/
def pjCqhead (i : Nat) : Nat := 0x24000040 + i * 0x10000
/-- CJ_CQHEAD. -/
def cjCqhead (i : Nat) : Nat := 0x25010040 + i * 0x100
/-- PJ_STAT. -/
def pjStat (i : Nat) : Nat := 0x24000048 + i * 0x10000
/-- CJ_STAT. -/
def cjStat (i : Nat) : Nat := 0x25010048 + i * 0x100
/-- PE_STAT. -/
def peStat (i : Nat) : Nat := 0x24000100 + i * 0x10000
/-- PE_ERR. -/
def peErr (i : Nat) : Nat := 0x24000108 + i * 0x10000
/-- CE_STAT. -/
def ceStat (i : Nat) : Nat := 0x25020000 + i * 0x100
/-- CE_ERR. -/
def ceErr (i : Nat) : Nat := 0x25020008 + i * 0x100
/-- KEY_DATA_i. -/
def keyData (i : Nat) : Nat := 0x25000000 + i * 0x8
/-- KEY_CMD. -/
def keyCmd : Nat := 0x25000040
/-- KEY_STAT_s. -/
def keyStat (i : Nat) : Nat := 0x25008000 + i * 0x8
/-- MBX_TX_i. -/
def mbxTx (i j : Nat) : Nat := 0x28000000 + i * 0x100 + j * 0x8
/-- MBX_POST. -/
def mbxPost (i : Nat) : Nat := 0x28000040 + i * 0x100
/-- MBX_POST_STAT. -/
def mbxPostStat (i : Nat) : Nat := 0x28000048 + i * 0x100
/-- MBX_RING. -/
def mbxRing (i : Nat) : Nat := 0x28000050 + i * 0x100
/-- MBX_RX_i. -/
def mbxRx (i j : Nat) : Nat := 0x28000080 + i * 0x100 + j * 0x8
/-- MBX_RSTAT. -/
def mbxRstat (i : Nat) : Nat := 0x280000c0 + i * 0x100
/-- MBX_POP. -/
def mbxPop (i : Nat) : Nat := 0x280000c8 + i * 0x100
/-- MBX_BIND. -/
def mbxBind (i : Nat) : Nat := 0x280000e0 + i * 0x100
/-- MBX_ERR. -/
def mbxErr (i : Nat) : Nat := 0x280000f0 + i * 0x100
/-- HP_STAT. -/
def hpStat : Nat := 0x2c000000
/-- HP_ERR. -/
def hpErr : Nat := 0x2c000008
/-- HP_LOST. -/
def hpLost : Nat := 0x2c000010
/-- HP_DLOG_f. -/
def hpDlog (i : Nat) : Nat := 0x2c010008 + i * 0x8
/-- FPR_CTRL. -/
def fprCtrl : Nat := 0x2e000000
/-- FPR_STAT. -/
def fprStat : Nat := 0x2e000008
/-- ERR_PIN. -/
def errPin : Nat := 0x2e000010
/-- ERR_SUMMARY. -/
def errSummary : Nat := 0x2e000018
/-- PWR_HIST. -/
def pwrHist : Nat := 0x2e000300
/-- RST_STAT. -/
def rstStat : Nat := 0x2e000400
/-- BOOT_STAT. -/
def bootStat : Nat := 0x2e000408
/-- DRAM_INIT. -/
def dramInit : Nat := 0x2e000410
/-- RAIL_MON_i. -/
def railMon (i : Nat) : Nat := 0x2e000100 + i * 0x8
/-- THERM_i. -/
def therm (i : Nat) : Nat := 0x2e000200 + i * 0x8
/-- ERR_STATUS_g. -/
def errStatus (i : Nat) : Nat := 0x2e001000 + i * 0x40
/-- ERR_FIRST_g. -/
def errFirst (i : Nat) : Nat := 0x2e001008 + i * 0x40
/-- ERR_FIRST_NS_g. -/
def errFirstNs (i : Nat) : Nat := 0x2e001010 + i * 0x40
/-- ERR_FIRST_FR_g. -/
def errFirstFr (i : Nat) : Nat := 0x2e001018 + i * 0x40
/-- ERR_REACT_LO_g. -/
def errReactLo (i : Nat) : Nat := 0x2e001020 + i * 0x40
/-- ERR_REACT_HI_g. -/
def errReactHi (i : Nat) : Nat := 0x2e001028 + i * 0x40
/-- ERR_SRC_n. -/
def errSrc (i : Nat) : Nat := 0x2e010000 + i * 0x8
/-- SPARE_STAT. -/
def spareStat : Nat := 0x36000100
/-- LIFE. -/
def life : Nat := 0x36000108
/-- AGE_c. -/
def age (i : Nat) : Nat := 0x36000200 + i * 0x8
/-- SPMAP_FUSE_i. -/
def spmapFuse (i : Nat) : Nat := 0x36001000 + i * 0x4
/-- DRAM_ERR. -/
def dramErr (i : Nat) : Nat := 0x14000100 + i * 0x100000
/-- DRAM_SPARE. -/
def dramSpare (i : Nat) : Nat := 0x14000108 + i * 0x100000
/-- BIST_CTRL. -/
def bistCtrl : Nat := 0x35000000
/-- BIST_STAT. -/
def bistStat : Nat := 0x35000008
/-- BIST_SIG. -/
def bistSig : Nat := 0x35000010
/-- BIST_FAIL. -/
def bistFail : Nat := 0x35000018
/-- LENS_SLOT_CNT. -/
def lensSlotCnt (i j m : Nat) : Nat := 0x34000000 + i * 0x80000 + j * 0x1000 + m * 0x8
/-- LENS_SLOT_SNAP. -/
def lensSlotSnap (i j m : Nat) : Nat := 0x34000800 + i * 0x80000 + j * 0x1000 + m * 0x8
/-- LENS_CL_CNT. -/
def lensClCnt (i j : Nat) : Nat := 0x34006000 + i * 0x80000 + j * 0x8
/-- LENS_CL_SNAP. -/
def lensClSnap (i j : Nat) : Nat := 0x34006800 + i * 0x80000 + j * 0x8
/-- LENS_TH_CNT. -/
def lensThCnt (i j : Nat) : Nat := 0x34007000 + i * 0x80000 + j * 0x8
/-- LENS_TH_SNAP. -/
def lensThSnap (i j : Nat) : Nat := 0x34007800 + i * 0x80000 + j * 0x8
/-- LENS_TCFG. -/
def lensTcfg (i j : Nat) : Nat := 0x34008000 + i * 0x80000 + j * 0x8
/-- LENS_SLOT_CTRL. -/
def lensSlotCtrl (i j : Nat) : Nat := 0x34009000 + i * 0x80000 + j * 0x8
/-- LENS_SC_CNT. -/
def lensScCnt (i j : Nat) : Nat := 0x34800000 + i * 0x1000 + j * 0x8
/-- LENS_SC_SNAP. -/
def lensScSnap (i j : Nat) : Nat := 0x34800800 + i * 0x1000 + j * 0x8
/-- LENS_DR_CNT. -/
def lensDrCnt (i j : Nat) : Nat := 0x34820000 + i * 0x1000 + j * 0x8
/-- LENS_DR_SNAP. -/
def lensDrSnap (i j : Nat) : Nat := 0x34820800 + i * 0x1000 + j * 0x8
/-- LENS_HUB_CNT. -/
def lensHubCnt (i j : Nat) : Nat := 0x34830000 + i * 0x1000 + j * 0x8
/-- LENS_HUB_SNAP. -/
def lensHubSnap (i j : Nat) : Nat := 0x34830800 + i * 0x1000 + j * 0x8
/-- LENS_HT_CNT. -/
def lensHtCnt (i : Nat) : Nat := 0x34900000 + i * 0x8
/-- LENS_HT_SNAP. -/
def lensHtSnap (i : Nat) : Nat := 0x34900800 + i * 0x8
/-- LENS_HTCFG. -/
def lensHtcfg (i : Nat) : Nat := 0x34901000 + i * 0x8
/-- LENS_CTRL. -/
def lensCtrl : Nat := 0x34a00000
/-- LENS_FREEZE_AT. -/
def lensFreezeAt : Nat := 0x34a00008
/-- LENS_SNAP_AT. -/
def lensSnapAt : Nat := 0x34a00010
/-- LENS_SNAP_NS. -/
def lensSnapNs : Nat := 0x34a00018
/-- LENS_SNAP_FR. -/
def lensSnapFr : Nat := 0x34a00020
/-- DB_PEND_LP. -/
def dbPendLp (i j : Nat) : Nat := 0x50080 + i * 0x1000000 + j * 0x400
/-- DB_MASK_LP. -/
def dbMaskLp (i j : Nat) : Nat := 0x50088 + i * 0x1000000 + j * 0x400
/-- DB_PEND_CP. -/
def dbPendCp (i : Nat) : Nat := 0x2e800000 + i * 0x100
/-- DB_MASK_CP. -/
def dbMaskCp (i : Nat) : Nat := 0x2e800008 + i * 0x100
/-- DB_PEND_HF. -/
def dbPendHf (i : Nat) : Nat := 0x2c400000 + i * 0x100
/-- DB_MASK_HF. -/
def dbMaskHf (i : Nat) : Nat := 0x2c400008 + i * 0x100

end Sys2Proof.Machine.Off
end

