-- ==== Sys2Proof/Machine/RegMap.lean ====
section
/-! DEFINITION. Reading the register map: which register an offset from REGBASE names (01 R24, 00 R8, R9), and the value a
register takes at its reset, with the values that a header line gives as "from the sparing map" or "the defaults of R421"
computed for a device with no spare in use (17 R443, 16 R421). -/

namespace Sys2Proof.Machine

/-- The instance numbers of an offset within a register's instances, or none where the offset is no instance of it. -/
def dimIdx : List (Nat × Nat) → Nat → Option (List Nat)
  | [], r => if r = 0 then some [] else none
  | (n, st) :: ds, r => if r / st < n then (dimIdx ds (r % st)).map (r / st :: ·) else none

/-- The register of a table at an offset, with its instance numbers. -/
def findReg : List RegDesc → Nat → Option (RegDesc × List Nat)
  | [], _ => none
  | d :: t, off =>
    if d.base ≤ off then
      match dimIdx d.dims (off - d.base) with
      | some ix => some (d, ix)
      | none => findReg t off
    else findReg t off

/-- The register at an offset from REGBASE. -/
def regAt (off : Nat) : Option (RegDesc × List Nat) := findReg regTable off

/-- The default reaction of an event source (16 R421, with 02 R67, 07 R202, 08 R238, 09 R282, 10 R309, 11 R331, 12 R359,
15 R415). -/
def defaultReact (n : Nat) : Nat :=
  if n < 256 then
    match n % 16 with
    | 11 => 0 | 14 => 0 | 15 => 0
    | _ => 1
  else if n < 512 then (if n % 2 = 0 then 1 else 0)
  else if n < 530 then 1
  else if n = 530 then 0
  else if n = 531 then 1
  else if n = 532 then 1
  else if n < 544 then 0
  else if n < 616 then 1
  else if n < 680 then (if (n - 616) % 4 = 0 then 0 else 1)
  else if n < 712 then 1
  else if n < 720 then 1
  else if n = 720 then 0
  else if n = 721 then 1
  else if n = 722 ∨ n = 723 then 0
  else if n = 724 then 1
  else if n < 732 then 0
  else if n = 732 then 0
  else if n = 733 then 1
  else if n = 734 then 2
  else if n = 735 then 1
  else if n = 736 then 2
  else if n = 737 then 4
  else if n = 738 then 1
  else if n = 739 then 6
  else if n < 750 then 1
  else if n = 750 then 0
  else if n = 751 then 1
  else if n < 764 then 0
  else if n = 764 ∨ n = 765 then 1
  else 0

/-- Whether an event source is reserved (16 R421). -/
def sourceReserved (n : Nat) : Bool :=
  (533 ≤ n && n ≤ 543) || (725 ≤ n && n ≤ 731) || (752 ≤ n && n ≤ 763) || n == 767 || 768 ≤ n

/-- Sixteen reaction fields from source `n` on, as ERR_REACT packs them. -/
def reactWord (n : Nat) : Nat → Nat
  | 0 => 0
  | k + 1 => reactWord n k + defaultReact (n + k) * 16 ^ k

/-- The nominal voltage of a rail in mV (16 R428, 20 R495); 0.75 V for the cores until their set points are sent (18 R455). -/
def railNominal (i : Nat) : Nat :=
  match i with
  | 5 => 850
  | 6 => 1200
  | 7 => 800
  | 8 => 1100
  | 9 => 1800
  | _ => 750

/-- The reset value of an instance of a register. -/
def regReset (d : RegDesc) (ix : List Nat) : Nat :=
  match d.name, ix with
  | .cmpStat, [_, k] => k * 4096
  | .peStat, [e] => if e < 32 then 1 else 0
  | .ceStat, [e] => if e < 32 then 1 else 0
  | .teStat, [i] => if i < 16 then 1 + i * 256 else 0
  | .cmpMap, [_, k] => k * 256 + (2 * k + 1) * 16 + 2 * k
  | .spareStat, _ => 34 + 16 * 2 ^ 6 + 32 * 2 ^ 11 + 64 * 2 ^ 17 + 10 * 2 ^ 24 + 8 * 2 ^ 28 + 1312 * 2 ^ 32
  | .twEngmap, [j] => if j = 0 then 0x0706050403020100 else 0x0F0E0D0C0B0A0908
  | .errReactLo, [g] => reactWord (32 * g) 16
  | .errReactHi, [g] => reactWord (32 * g + 16) 16
  | .railMon, [i] => railNominal i * 2 ^ 32
  | .l2Waymap, _ => 0x00001F1F00000000
  | .scWaymap, _ => 0x00001F1F00000000
  | _, _ => d.reset

/-- The reset value of the register at an offset; an offset that names no register reads as zero (00 R8). -/
def regResetAt (off : Nat) : Nat :=
  match regAt off with
  | some (d, ix) => regReset d ix
  | none => 0

end Sys2Proof.Machine
end

