-- ==== Sys2Proof/Machine/Types.lean ====
section
/-! DEFINITION. The pieces of the state of processors, pairs and caches, as plain data (02, 03, 06, 07). -/

namespace Sys2Proof.Machine

/-- The memory types (06 R153). -/
inductive MemType where | wb | nc | device
  deriving DecidableEq, Repr

/-- What a store-buffer entry does when it retires: a store of its bytes, a line operation (07 R184 code, device scope), a
locking prefetch (way, system cache), or nothing (a refused line operation, 07 R185). -/
inductive SbKind where
  | store (t : MemType) | cline (op : Nat) (device : Bool) | pflk (way : Nat) (sc : Bool) | noEffect
  deriving DecidableEq, Repr

/-- A store-buffer entry (02 R42, 04 R134): at most 8 bytes of one aligned 8 bytes, or a line operation; the privilege level
at which it was issued (19 R481), and whether it is performed already and waits to retire in order (06 R158). -/
structure SbEntry where
  kind  : SbKind
  addr  : Nat
  bytes : List Byte
  priv  : Nat
  performed : Bool
  deriving DecidableEq, Repr

/-- One way of an L1 set: the line held, and the former content of the line where an invalidation of it is still in the
queue of 06 R160. Without that, the line's content is memory's. -/
structure L1Slot where
  line  : Option Nat
  stale : Option (List Byte)
  deriving DecidableEq, Repr

/-- An L1 cache: slots numbered set × ways + way, and the tree bits of each set (07 R176, R180). -/
structure L1 where
  slots : Tbl L1Slot
  tree  : Tbl Nat
  deriving DecidableEq, Repr

/-- An empty L1. -/
def L1.empty : L1 := ⟨[], []⟩

/-- One slot of an L2 or of a slice: the address of the line it holds or keeps (07 R183), whether the line is valid, dirty
and locked. -/
structure CacheSlot where
  line   : Option Nat
  valid  : Bool
  dirty  : Bool
  locked : Bool
  deriving DecidableEq, Repr

/-- An empty slot. -/
def CacheSlot.empty : CacheSlot := ⟨none, false, false, false⟩

/-- A fill that was requested and has not come (07 R189): the line, the logical processor that asked, and whether it goes to
the L2 alone (`PREF`), or also to an L1 data or instruction cache. -/
structure PendFill where
  line : Nat
  lp   : Nat
  into : Nat
  deriving DecidableEq, Repr

/-- An L2 or a slice: slots numbered set × 16 + logical way, tree bits of each set, the lines in its eviction buffer
(oldest first), the fills outstanding, the logical way being retired with the physical ways concerned, ways waiting for
retirement, and whether SPARE_EXHAUSTED was raised (07 R176-R199). -/
structure Cache where
  slots    : Tbl CacheSlot
  tree     : Tbl Nat
  ebuf     : List Nat
  fills    : List PendFill
  retiring : Option (Nat × Nat × Nat)      -- logical way, physical way that retires, spare physical way
  waiting  : List Nat                      -- physical ways whose retirement comes next
  exhausted : Bool
  deriving DecidableEq, Repr

/-- An empty cache. -/
def Cache.empty : Cache := ⟨[], [], [], [], none, [], false⟩

/-- A range operation in progress (07 R187-R191): its operation, first line, lines, the way of a LOCKFILL, the lines refused
and whether a poisoned line was met, and the doorbell to send at the end. -/
structure RangeOp where
  op      : Nat
  line    : Nat
  lines   : Nat
  way     : Nat
  skipped : Nat
  poison  : Bool
  doorbell : Option (Nat × Nat)
  deriving DecidableEq, Repr

/-- Whether a logical processor runs (03, 04 R116, R129, 02 R45-R65, 14 LP_STATUS). -/
inductive Run where
  | empty      -- no program loaded
  | loaded     -- a program is loaded
  | running
  | waiting    -- in WFI
  | halted     -- by LPSTOP or R101, until a restart
  | lost       -- LP_LOST
  | debug      -- halted by Tamler
  | stepping   -- halted by Tamler, one instruction let through
  | repairing  -- held by a re-pairing
  deriving DecidableEq, Repr

/-- A logical processor: the architected state of 03 R70 and RTIDX (R77), the store buffer (02 R42), the reservation and the
instructions committed since (06 R170), the invalidation queue (06 R160), the L1 caches, the string table store (02 R32),
and the pending asynchronous events (03 R94). -/
structure LP where
  run   : Run
  was   : Run                              -- before a re-pairing or a Tamler halt
  haltVec : Nat                            -- the vector of the halt, 0 for LPSTOP (14 LP_STATUS, R394)
  pc    : BitVec 64
  ps    : BitVec 32
  wp    : BitVec 64
  wfile : Mem
  b     : Tbl (BitVec 64)
  cnt   : BitVec 64
  srcp  : BitVec 64
  dstp  : BitVec 64
  fpcs  : BitVec 32
  tvb   : BitVec 64
  tdel  : BitVec 64
  tspK  : BitVec 64
  tspM  : BitVec 64
  rtidx : BitVec 64
  rt    : Tbl (BitVec 64 × BitVec 64)
  sb    : List SbEntry
  rsv   : Option Nat
  rsvAge : Nat
  invq  : List Nat
  l1d   : L1
  l1i   : L1
  strTable : List Byte
  postWait : Option Nat                    -- channel of a blocking post that holds the store buffer (13 R368)
  mc    : Option (Nat × Nat)               -- machine check: cause, fault address
  nmi   : Bool
  sbe   : List Nat                         -- addresses of stores that met a bus error
  timer : Bool
  swi   : Bool
  lens  : Bool
  err   : Bool
  deriving DecidableEq, Repr

/-- A logical processor after a restart (03 R71, R78, R93): everything zero but PS. DESIGN CHOICE, log 2. -/
def LP.reset : LP :=
  { run := .empty, was := .empty, haltVec := 0, pc := 0, ps := 0x200#32, wp := 0, wfile := [], b := [], cnt := 0, srcp := 0, dstp := 0, fpcs := 0,
    tvb := 0, tdel := 0, tspK := 0, tspM := 0, rtidx := 0, rt := [], sb := [], rsv := none, rsvAge := 0, invq := [],
    l1d := L1.empty, l1i := L1.empty, strTable := [], postWait := none, mc := none, nmi := false, sbe := [], timer := false, swi := false,
    lens := false, err := false }

/-- What the device keeps for a pair beside its CMP registers: the causes of the attempts since the last committed boundary (02 R55),
the times of the successful retries of the last 24 h (R58), whether a synchroniser input is held (R51), and whether comparison is off (R63). -/
structure Pair where
  attempts : List Nat
  leaky    : List Nat
  skewHold : Bool
  cmpOff   : Bool
  deriving DecidableEq, Repr

/-- A pair that has met nothing. -/
def Pair.empty : Pair := ⟨[], [], false, false⟩

end Sys2Proof.Machine
end

