-- ==== Sys2Proof/Machine/TypesTw.lean ====
section
/-! DEFINITION. The pieces of the state of Tradewind, the journal, the ports and the links, as plain data (08, 09, 10). -/

namespace Sys2Proof.Machine

/-- How far an open transaction has come (08 R207, R211-R215): parked in the timer list, queued in its port or ports,
returned by a port that went down (09 R280), sent and not acknowledged, or an EXCHANGE acknowledged and waiting for its
reply. -/
inductive Stage where | parked | queued | returned | sent | acked
  deriving DecidableEq, Repr

/-- A descriptor, as read and resolved at dispatch, with what its transaction has met (08 R208-R215). -/
structure Txn where
  count    : Nat
  kind     : Nat
  flags    : Nat
  member   : Nat
  length   : Nat
  addr     : Nat
  addr2    : Nat
  length2  : Nat
  tag      : Nat
  timeNs   : Nat
  timeFr   : Nat
  target   : Nat
  byDefault : Bool
  timeout  : Nat
  durable  : Bool
  seq      : Nat
  flow     : Nat
  stage    : Stage
  refusals : List Nat
  resumed  : Bool
  late     : Bool
  data     : List Byte
  dcrc     : Nat
  bcrc     : Nat
  interval : Nat
  deriving DecidableEq, Repr

/-- A flow block (08 R205, R214-R216): the target, the next count, the window of the receiving direction with the sender's
incarnation (0 before a first arrival), the incarnation of the far queue that the sending direction has seen (0 for none),
the last ACKMARK written of each direction, and the errors counted. -/
structure Flow where
  target  : Nat
  next    : Nat
  rxInc   : Nat
  low     : Nat
  win     : List Nat
  peerInc : Nat
  markTx  : Nat
  markRx  : Nat
  errs    : Nat
  deriving DecidableEq, Repr

/-- Why dispatch of a queue is held (08 R207). -/
inductive Hold where | flow | port | journal | timer | group
  deriving DecidableEq, Repr

/-- A queue beside its registers (08 R204-R207, R211, R214, R234): its incarnation, whether it has been enabled since the
last cold reset, whether it awaits resume, its flow blocks, its open transactions, its posted RECEIVEs (oldest first), the
completions that wait for room (slot count, record, whether to notify), the slots completed above TQ_RETIRE, why dispatch is
held, and the members of a group prepared and not released. -/
structure TQueue where
  inc     : Nat
  since   : Bool
  flows   : Tbl Flow
  opens   : List Txn
  recvs   : List Txn
  waiting : List (Nat × List Byte × Bool)
  done    : List Nat
  held    : Option Hold
  group   : List Txn
  deriving DecidableEq, Repr

/-- A queue never configured. -/
def TQueue.empty : TQueue := ⟨0, false, [], [], [], [], [], none, []⟩

/-- The body of a journal record (08 R222). A group's MEMBER holds its index and the member count less 1. -/
inductive JBody where
  | commit (count seq dcrc bcrc flow kind : Nat)
  | member (count seq dcrc bcrc flow index last : Nat)
  | groupCommit (count members : Nat)
  | deliver (flow seq recv : Nat)
  | ackmark (flow low : Nat)
  | qconfig (part w0 w1 w2 : Nat)
  | ndmark (retire tail : Nat)
  | epoch (kind tai : Nat)
  deriving DecidableEq, Repr

/-- A live record: its slot counted since manufacture, whether it was carried, its queue, its body, and whether the copy in
each bank can be read. -/
structure JRec where
  slot    : Nat
  carried : Bool
  q       : Nat
  body    : JBody
  okA     : Bool
  okB     : Bool
  deriving DecidableEq, Repr

/-- The journal (08 R221-R225, R232): its live records (oldest first), the slots written since manufacture, the newest EPOCH
(kind, slot), the slot after the newest record other than an EPOCH, the slot of the newest COLD EPOCH, whether the live limit
is reached, the durable queues disabled whose QCONFIG still lives, the spare rows in use and the degradation of each bank, and
whether 735 was raised. Dead records are not kept: nothing reads them (R223). -/
structure Nvj where
  live    : List JRec
  head    : Nat
  epoch   : Option (Nat × Nat)
  last    : Nat
  cold    : Option Nat
  atLimit : Bool
  off     : List Nat
  spareA  : Nat
  spareB  : Nat
  degA    : Bool
  degB    : Bool
  warned  : Bool
  deriving DecidableEq, Repr

/-- A journal as manufactured. -/
def Nvj.empty : Nvj := ⟨[], 0, none, 0, none, false, [], 0, 0, false, false, false⟩

/-- An entry of the RESUME_REPORT list (14 R390). -/
structure Report where
  q     : Nat
  code  : Nat
  first : Nat
  last  : Nat
  deriving DecidableEq, Repr

/-- A logical engine's hand-over in progress (08 R236) and the retries of a physical engine since its last success. -/
structure TEng where
  tries : Nat
  dest  : Option Nat
  deriving DecidableEq, Repr

/-- A reassembly context (10 R289): where the transaction comes from, what its packets say, when it opened, and the segments
held by their byte offset. -/
structure Reasm where
  eng     : Nat
  srcDev  : Nat
  srcQ    : Nat
  destQ   : Nat
  seq     : Nat
  tlen    : Nat
  durable : Bool
  reply   : Bool
  exch    : Bool
  exSeq   : Nat
  at_     : Nat
  segs    : Tbl (List Byte)
  deriving DecidableEq, Repr

/-- A whole inbound transaction (08 R216). `src` is the flow's target value as the receiver names it. -/
structure Inbound where
  srcDev  : Nat
  srcQ    : Nat
  src     : Nat
  destQ   : Nat
  seq     : Nat
  durable : Bool
  reply   : Bool
  exch    : Bool
  exSeq   : Nat
  data    : List Byte
  deriving DecidableEq, Repr

/-- What a frame that a port sends carries. The wire encodings of IEC 61850-8-1, IEC 61850-90-5, IEC 62439-3 and IEEE 1588
are theirs, not this manual's, so frames are kept parsed. -/
inductive TxBody where
  | goose (pub stNum sqNum tal tUtc tq : Nat) (slots : List Byte) (spdu : Nat)
  | supervision
  | ptp (msg : BitVec 8) (origin : Stamp)
  | forwarded (f : Frame)
  deriving DecidableEq, Repr

/-- The classes of the egress order (09 R258). -/
inductive EgClass where | timed | event | rep | other
  deriving DecidableEq, Repr

/-- A frame queued in a port: its class, when it is due (elapsed cycles of the time clock), the transaction it serves (queue
and slot), its length, the sequence number of its PRP trailer or HSR tag, and its content. -/
structure EgFrame where
  cls  : EgClass
  due  : Nat
  txn  : Option (Nat × Nat)
  len  : Nat
  red  : Option Nat
  body : TxBody
  deriving DecidableEq, Repr

/-- A MACsec association of a port (09 R245-R247, 14 SA_LOAD): its SCI, key material, next PN to send or highest PN received,
replay window, and whether its PN event was raised. -/
structure Sa where
  sci   : BitVec 64
  ssci  : Nat
  key   : List Byte
  pn    : Nat
  window : Nat
  warned : Bool
  deriving DecidableEq, Repr

/-- A port beside its registers: the frames queued (oldest first), its MACsec store numbered direction × 64 + channel × 4 + AN,
the transmit association in use, the EtherTypes that bypass MACsec, whether it has block lock, and (on an even port) the next
sequence number of its pair's trailer or tag. -/
structure Port where
  queue  : List EgFrame
  sas    : Tbl Sa
  txAn   : Option Nat
  bypass : List Nat
  lock   : Bool
  pseq   : Nat
  deriving DecidableEq, Repr

/-- A port after reset. -/
def Port.empty : Port := ⟨[], [], none, [], false, 0⟩

/-- A duplicate-discard entry (09 R252): source MAC, sequence number, and when it was made. -/
structure Ddt where
  src : BitVec 48
  seq : BitVec 16
  at_ : Nat
  deriving DecidableEq, Repr

/-- What a port keeps of a stream beside its table entry (09 R263, R265, R274): smpCnt of Xn, when an ASDU last landed, the
port it landed on, and the last SPDU number accepted. -/
structure StreamSt where
  smp    : Nat
  landed : Nat
  port   : Nat
  spdu   : Nat
  deriving DecidableEq, Repr

/-- What a port keeps of a subscription beside its table entry (09 R268, R274): when a frame was last accepted, the port, the
TAL that it gave, and the last SPDU number. -/
structure SubSt where
  seen : Nat
  port : Nat
  tal  : Nat
  spdu : Nat
  deriving DecidableEq, Repr

/-- A publication's state at one port (09 R271, R272): the last sqNum given, when the next repetition is due, whether it runs
at t_max after a re-enable, and whether it is stopped. -/
structure PubPort where
  k       : Nat
  due     : Nat
  atMax   : Bool
  stopped : Bool
  deriving DecidableEq, Repr

/-- A publication's current state (09 R270-R272): its number, event time, and slots, and each port that carries it. -/
structure Pub where
  stNum : Nat
  tUtc  : Nat
  tq    : Nat
  slots : List Byte
  spdu  : Nat
  ports : Tbl PubPort
  deriving DecidableEq, Repr

/-- A cage (09 R275): the module present, by the hashes of its vendor and part name and of its serial number, LOS, TX_FAULT. -/
structure Cage where
  ident   : Option (BitVec 32 × BitVec 32)
  los     : Bool
  txFault : Bool
  deriving DecidableEq, Repr

/-- A module's life record (09 R276): identity, first-seen time, powered and laser-on hours, the temperature histogram, bias
current at first sight and over the last 1,000 h, when it was last seen, and whether its wear was reported. -/
structure LifeRec where
  part      : BitVec 32
  serial    : BitVec 32
  first     : Nat
  powered   : Nat
  laser     : Nat
  hist      : Tbl Nat
  biasFirst : Nat
  biasNow   : Nat
  seen      : Nat
  worn      : Bool
  deriving DecidableEq, Repr

/-- A packet waiting at a link output, with the hub time of its age stamp in hc (10 R298). -/
structure QPkt where
  pkt   : Packet
  stamp : Int
  deriving DecidableEq, Repr

/-- A TSYNC measurement (10 R306): its identity, t1, t4 once the reply came, t2 and t3 once the TIME packet came. -/
structure Tsync where
  ident : Nat
  t1    : Stamp
  t4    : Option Stamp
  t23   : Option (Stamp × Stamp)
  deriving DecidableEq, Repr

/-- An entry of a replay buffer (10 R290): link sequence, packet, and when it was sent (elapsed cycles). -/
structure Replay where
  seq  : Nat
  pkt  : QPkt
  sent : Nat
  deriving DecidableEq, Repr

/-- A link beside its registers (10 R290-R306): whether INIT has been confirmed in each direction, the first lane in use, its
sequences, its replay buffer (oldest first), the resends without progress, the credits held of each channel, the packets waiting
(oldest first), whether a LACK is owed, whether the receiver discards after an error, the far end's unique identity, the last
measurement identity, the measurements in flight, and the last 16 measurements (offset and delay, in 2^-16 ns). -/
structure Link where
  sentConf : Bool
  gotConf  : Bool
  base     : Nat
  txSeq    : Nat
  rxSeq    : Nat
  replay   : List Replay
  resends  : Nat
  credits  : Tbl Nat
  queue    : List QPkt
  lackDue  : Bool
  discard  : Bool
  nbr      : Option Nat
  ident    : Nat
  tsync    : List Tsync
  meas     : List (Int × Int)
  deriving DecidableEq, Repr

/-- A link that is down. -/
def Link.empty : Link := ⟨false, false, 0, 0, 0, [], 0, [], [], false, false, none, 0, [], []⟩

/-- An entry of the sparing map (17 R444): kind, group, unit, and whether the fuse copy holds it. -/
structure SpareEnt where
  kind  : Nat
  group : Nat
  unit  : Nat
  fused : Bool
  deriving DecidableEq, Repr

/-- The NVJ service area (17 R443): last incarnation of every queue, the NVJ copy of the sparing map, the slot and value being
programmed into the fuses, the module life records, the SET_IDENTITY and DOMAIN_SET record (domain, root priority, member,
valid) kept until the next cold reset, the repair queue of DRAM rows, marked devices, and the RESUME_REPORT list. -/
structure Service where
  incs     : Tbl Nat
  map      : List SpareEnt
  fuseProg : Option (Nat × BitVec 32)
  lives    : List LifeRec
  ident    : Option (Nat × Nat × Nat × Nat)
  domains  : Tbl Nat
  rows     : List (Nat × Nat)
  marks    : Tbl Nat
  report   : List Report
  deriving DecidableEq, Repr

/-- The service area as shipped. -/
def Service.empty : Service := ⟨[], [], none, [], none, [], [], [], []⟩

end Sys2Proof.Machine
end

