-- ==== Sys2Proof/Machine/TypesHub.lean ====
section
/-! DEFINITION. The pieces of the state of mailboxes, firmware, the host port and the fault block, as plain data (13, 14, 15,
16, 18). -/

namespace Sys2Proof.Machine

/-- A message: its eight words, and whether its store met an uncorrectable error (13 R364, R371). -/
structure Msg where
  words    : List (BitVec 64)
  poisoned : Bool
  deriving DecidableEq, Repr

/-- A mailbox channel beside its registers: its store (oldest first), the last sequence number given, the staging words
written since the last post, and a blocking post that waits for room (13 R362, R366-R368). -/
structure Chan where
  store    : List Msg
  seq      : Nat
  staging  : Tbl (BitVec 64)
  blocking : Option (List (BitVec 64))
  deriving DecidableEq, Repr

/-- An idle channel. -/
def Chan.empty : Chan := ⟨[], 0, [], none⟩

/-- An entry of an MSI-X table: address, data and mask (15 R401). -/
structure MsixVec where
  addr   : BitVec 64
  data   : BitVec 32
  masked : Bool
  deriving DecidableEq, Repr

/-- A host function: its MSI-X table and pending bits, and whether the host enabled it, MSI-X, and masked it (15 R401, R402,
R409). -/
structure HostFn where
  table   : Tbl MsixVec
  pend    : List Nat
  enabled : Bool
  masked  : Bool
  deriving DecidableEq, Repr

/-- A function after a function-level reset: every vector masked (15 R409). -/
def HostFn.reset : HostFn := ⟨[], [], true, false⟩

/-- An event of 14 R394. -/
structure EventRec where
  code   : Nat
  object : Nat
  ts     : List Byte
  value  : Nat
  value2 : Nat
  deriving DecidableEq, Repr

/-- What Yafolo keeps for a requester: whether it has completed HELLO since its epoch changed, its event mask, the events
and completions that wait for room, and the events dropped (14 R384, R386, R394). -/
structure Requester where
  hello   : Bool
  mask    : Nat
  events  : List EventRec
  dropped : Nat
  comps   : List (Nat × List Byte)         -- control processor, payload
  deriving DecidableEq, Repr

/-- A requester that has sent nothing: every event code enabled. DEDUCED, log 25, from the first session of 14, where events
arrive before any EVENT_MASK. -/
def Requester.empty : Requester := ⟨false, 2 ^ 64 - 1, [], 0, []⟩

/-- A reset that something has asked for, to be carried out by its own command. -/
inductive ResetReq where | warm (cause : Nat) | cold (cause : Nat) | cluster (c : Nat) | port (p : Nat) | hostPort | link (l : Nat)
  deriving DecidableEq, Repr

/-- A partition (14 R390, PART_CREATE): managing function, DRAM window, and the slots of its logical processors. -/
structure Part where
  owner : Nat
  base  : Nat
  size  : Nat
  lps   : List Nat
  deriving DecidableEq, Repr

/-- Objects that VF_ASSIGN gave a virtual function: kind, first and count, or a DRAM window (15 R408). -/
structure Assign where
  vf    : Nat
  kind  : Nat
  first : Nat
  count : Nat
  base  : Nat
  size  : Nat
  deriving DecidableEq, Repr

/-- A dirty log (15 R410): the bitmap's host address, its page count, and the pages set. -/
structure DirtyLog where
  bitmap : Nat
  pages  : Nat
  set    : List Nat
  deriving DecidableEq, Repr

/-- The board side of the device (16 R427, 18): ERR_N driven low, since when, and whether its release is armed. -/
structure ErrPinSt where
  low     : Bool
  since   : Nat
  armed   : Bool
  deriving DecidableEq, Repr

/-- What leaves the device at its pins and links: an MSI-X message, a frame on a port (with the
MACsec association that protects it and the sequence number of its trailer or tag), a packet or link word on a
link, a pulse on PPS_OUT. -/
inductive Out where
  | msix (fn vector : Nat)
  | frame (port : Nat) (body : TxBody) (sa : Option Nat) (red : Option Nat)
  | packet (link : Nat) (p : Packet) (seq : Nat)
  | linkWord (link : Nat) (kind : Nat) (value : Nat)
  | pps (ns : Nat)
  deriving DecidableEq, Repr

end Sys2Proof.Machine
end

