-- ==== Sys2Proof/Machine/TypesYaf.lean ====
section
/-! DEFINITION. What Yafolo keeps for the commands that set it (14 R390, 09 R275-R279, 11 R322), as plain data. -/

namespace Sys2Proof.Machine

/-- What MODULE_CFG set (14, 09 R277, R279): the wear fraction in per cent, the rated laser life in thousands of hours by part
(0 for all parts), the groups with a lane-steering switch, and the FEC threshold. -/
structure ModCfg where
  wearPct   : Nat
  lifeKh    : Tbl Nat
  steer     : Nat
  fecThresh : Nat
  deriving DecidableEq, Repr

/-- What PTP_CONFIG set (14, 11 R320): profile, role, domain, transport, priorities and ports. -/
structure PtpCfg where
  profile   : Nat
  role      : Nat
  domain    : Nat
  transport : Nat
  prio1     : Nat
  prio2     : Nat
  ports     : Nat
  deriving DecidableEq, Repr

/-- The discipline of the timebase (11 R322-R328): the last sample in units of 2^-6 ns and when it came (elapsed cycles), the
samples within the threshold counted towards LOCKED, the rates held in LOCKED with the cycle from which each held (newest
first), the last accepted PPS_IN edge (elapsed cycles), and the edges rejected since. -/
structure Disc where
  offset   : Int
  sampleAt : Nat
  within   : Nat
  rates    : List (Nat × Int)
  ppsAt    : Option Nat
  ppsRej   : Nat
  deriving DecidableEq, Repr

/-- The start state of a program (14 R391): PC, WP, B15, TVB, TSP_M and the region entries. -/
structure Image where
  pc      : Nat
  wp      : Nat
  b15     : Nat
  tvb     : Nat
  tspM    : Nat
  regions : List (Nat × Nat)
  deriving DecidableEq, Repr

/-- A TRIP_TEST in progress (14 R390): who asked and how its completion is addressed, the port, whether frames of the publication
reach the wire, the publication, where the frames lie, the frames still to inject, the end stamps of those injected (newest first),
and when its timeout comes (elapsed cycles). -/
structure Trip where
  master : Nat
  cp     : Nat
  tag    : Nat
  port   : Nat
  wire   : Bool
  pub    : Nat
  frames : Nat
  left   : Nat
  stamps : List (Nat × Nat)
  until_ : Nat
  deriving DecidableEq, Repr

/-- What QUEUE_RINGS set (14 R390): log2 of the slots, flow blocks less 1, ring, completion ring, state area and buffer window. -/
structure QRings where
  k     : Nat
  flows : Nat
  ring  : Nat
  cq    : Nat
  area  : Nat
  lo    : Nat
  hi    : Nat
  deriving DecidableEq, Repr

/-- What QUEUE_PARAMS set, as the value of TQ_CFG without its enable bit, and the target. -/
structure QParams where
  cfg    : Nat
  target : Nat
  deriving DecidableEq, Repr

/-- An ENGINE_DISABLE whose engine has not stopped yet (14 R390): who asked, and the engine by pool and number. -/
structure EngStop where
  master : Nat
  cp     : Nat
  tag    : Nat
  pool   : Nat
  engine : Nat
  deriving DecidableEq, Repr

/-- What Yafolo keeps: the queues' settings that QUEUE_ENABLE writes, module, PTP and discipline settings, the images of the programs loaded by slot, a trip test in progress,
the engines that are stopping, and
the publications whose frames a trip test keeps off the wire until their next SEND, with the number of that event. -/
structure Yaf where
  rings  : Tbl QRings
  params : Tbl QParams
  mod    : ModCfg
  ptp    : PtpCfg
  disc   : Disc
  images : Tbl Image
  trip   : Option Trip
  stops  : List EngStop
  muted  : Tbl Nat
  deriving DecidableEq, Repr

/-- Yafolo's record after a cold reset: MODULE_WEAR at 80 % (09 R277), nothing configured. -/
def Yaf.reset : Yaf := ⟨[], [], ⟨80, [], 0, 0⟩, ⟨0, 0, 0, 0, 0, 0, 0⟩, ⟨0, 0, 0, [], none, 0⟩, [], none, [], []⟩

/-- A corrected error of DRAM (17 R439, R440): channel, the place by rank and subchannel, device, address, row place, and when
(elapsed cycles). -/
structure DramHit where
  ch     : Nat
  half   : Nat
  device : Nat
  addr   : Nat
  row    : Nat
  at_    : Nat
  deriving DecidableEq, Repr

/-- The rest of the chip: the retention record, by the journal slot after which it was written (18 R466); whether POWER_DOWN has
completed; the strap DRAM_KEEP; the corrected errors of the last 24 h, the rows repaired by channel, and the bank groups whose repair
row is used (17 R439-R442); the fraction of LIFE.eqv_h in units of 2^-64 h (R450); the clusters offline (19 R475); the self-test in
progress (scope, unit, kind); how the last boot came about, for HELLO; the running image slot, the next one, the valid ones and their
versions (14, 18 R462); whether a change of the Lens freeze state is armed (19 R484); the committed HDM decoder (host base, size, DPA
skip) and its error bit (15 R403). -/
structure Chip where
  ret      : Option Nat
  down     : Bool
  dramKeep : Bool
  hits     : List DramHit
  repaired : Tbl Nat
  ppr      : List (Nat × Nat)
  lifeFrac : Nat
  offline  : Nat
  bist     : Option (Nat × Nat × Nat)
  bootKind : Nat
  running  : Nat
  next     : Nat
  valid    : Nat
  vers     : Tbl Nat
  freezeOn : Bool
  hdm      : Option (Nat × Nat × Nat)
  hdmErr   : Bool
  deriving DecidableEq, Repr

/-- The chip as shipped: both image slots hold a valid image (DESIGN CHOICE, log 64). -/
def Chip.empty : Chip := ⟨none, false, false, [], [], [], 0, 0, none, 1, 0, 0, 3, [], false, none, false⟩

end Sys2Proof.Machine
end

