-- ==== Sys2Proof/Machine/State.lean ====
section
/-! DEFINITION. The state of the block, whole, as plain data; its value right after reset; and the reasons for which a command
may stop. -/

namespace Sys2Proof.Machine

/-- Why a command meets a fault. Nothing in this manual stops the device without an effect that it gives, so there is no
such reason. -/
inductive Fault where
  deriving DecidableEq, Repr

/-- Why a command is refused. -/
inductive Refusal where
  /-- Raised by the dispatch only, for a command whose meaning is not written. Safe: the device would go on. -/
  | notModelled (mnemonic : String)
  /-- Raised by any meaning whose command names an instance that the device does not have (a slot above 5, a port above
  127 and so on): no such event can happen. Safe: nothing is claimed about it. -/
  | noSuchUnit
  deriving DecidableEq, Repr

/-- What the last request was answered (00 R9, 01 R22, 15 R400, R403): nothing yet, done, a value read, bytes read with or without
poison, a bus error, or Completer Abort. -/
inductive Resp where
  | none | done | value (v : BitVec 64) | bytes (bs : List Byte) (poisoned : Bool) | busError | completerAbort
  deriving DecidableEq, Repr

/-- The timebase in units of 2^-48 ns, the remainder of the slew in progress in the same units, the elapsed cycles of
the time clock since the power-up of VDD_AON, and the local copies of the islands: how far each stands from the timebase, in the
same units, and its step epoch (11 R314, R317, R323, R326). -/
structure TimeSt where
  tb     : Nat
  slew   : Int
  cycles : Nat
  copies : Tbl (Int × Nat)
  deriving DecidableEq, Repr

/-- The state. -/
structure State where
  pending   : List Instr
  freeCount : Nat
  resp      : Resp
  regs      : Tbl (BitVec 64)
  mem       : Mem
  installed : Nat
  underL2   : Tbl (List Byte)
  underSc   : Tbl (List Byte)
  poison    : List Nat
  lps       : Tbl LP
  pairs     : Tbl Pair
  l2        : Tbl Cache
  sc        : Tbl Cache
  rm        : Tbl RangeOp
  lens      : Tbl Nat
  time      : TimeSt
  split     : Nat
  ready     : Bool
  chans     : Tbl Chan
  epochs    : Tbl Nat
  dbIn      : Tbl Nat
  dbAt      : Tbl Nat
  fns       : Tbl HostFn
  reqs      : Tbl Requester
  cp1Serves : Bool
  parts     : Tbl Part
  assigns   : List Assign
  dlogs     : Tbl DirtyLog
  resetReqs : List ResetReq
  heldReacts : List Nat
  errPin    : ErrPinSt
  errAt     : Tbl Nat
  errHeld   : Tbl (Nat × Nat)
  shutdown  : Bool
  thermSeen : Nat
  tqs       : Tbl TQueue
  nvj       : Nvj
  svc       : Service
  twStopped : Bool
  tengs     : Tbl TEng
  reasm     : List Reasm
  ports     : Tbl Port
  ddts      : Tbl (List Ddt)
  streams   : Tbl StreamSt
  subs      : Tbl SubSt
  pubs      : Tbl Pub
  cages     : Tbl Cage
  links     : Tbl Link
  form      : Tbl FormNode
  pools     : Pools
  yaf       : Yaf
  chip      : Chip
  out       : List Out
  deriving DecidableEq, Repr

/-- The device right after the power-up of VDD_AON, which is a cold reset (18 R457): every register at its reset value,
nothing cached, no logical processor started, the timebase at zero, READY low. -/
def State.reset : State :=
  { pending := [], freeCount := 0, resp := .none, regs := [], mem := [], installed := 0, underL2 := [], underSc := [],
    poison := [], lps := [], pairs := [], l2 := [], sc := [], rm := [], lens := [], time := ⟨0, 0, 0, []⟩, split := 0,
    ready := false, chans := [], epochs := [], dbIn := [], dbAt := [], fns := [], reqs := [], cp1Serves := false, parts := [], assigns := [], dlogs := [],
    resetReqs := [], heldReacts := [], errPin := ⟨false, 0, false⟩, errAt := [], errHeld := [], shutdown := false, thermSeen := 0, tqs := [], nvj := Nvj.empty, svc := Service.empty,
    twStopped := false, tengs := [], reasm := [], ports := [], ddts := [], streams := [], subs := [], pubs := [], cages := [],
    links := [], form := [], pools := Pools.empty, yaf := Yaf.reset, chip := Chip.empty, out := [] }

end Sys2Proof.Machine
end

