-- ==== Sys2Proof/Machine/Base.lean ====
section
/-! DEFINITION. Access to the parts of the state: registers and their fields, logical processors, pairs, caches, counters,
time stamps and free values. Every other definition reads and writes the state through these. -/

namespace Sys2Proof.Machine

/-- The value of the register at an offset from REGBASE: what was last stored, or its reset value. -/
def State.reg (s : State) (off : Nat) : Nat :=
  match tblGet? s.regs off with
  | some v => v.toNat
  | none => regResetAt off

/-- The state with the register at an offset holding a value. -/
def State.setReg (s : State) (off v : Nat) : State := { s with regs := tblSet s.regs off (BitVec.ofNat 64 v) }

/-- Bits [lo + w - 1 : lo] of a register. -/
def State.fld (s : State) (off lo w : Nat) : Nat := bits (s.reg off) lo w

/-- One bit of a register. -/
def State.flag (s : State) (off i : Nat) : Bool := bitOf (s.reg off) i

/-- The state with bits [lo + w - 1 : lo] of a register replaced. -/
def State.setFld (s : State) (off lo w v : Nat) : State := s.setReg off (setBits (s.reg off) lo w v)

/-- The state with one bit of a register written. -/
def State.setFlag (s : State) (off i : Nat) (b : Bool) : State := s.setReg off (setBit (s.reg off) i b)

/-- A register increased, up to a limit. -/
def State.bumpReg (s : State) (off lim : Nat) : State := s.setReg off (satAdd (s.reg off) 1 lim)

/-- The registers for which a test holds put back to their reset values. -/
def State.clearRegs (s : State) (p : RegDesc → List Nat → Bool) : State :=
  { s with regs := s.regs.filter fun e =>
      match regAt e.1 with
      | some (d, ix) => !p d ix
      | none => true }

/-- A logical processor, by its slot number 6c + k; 96 and 97 are CP0 and CP1. -/
def State.lp (s : State) (n : Nat) : LP := tblGetD s.lps n LP.reset

/-- The state with a logical processor replaced. -/
def State.setLp (s : State) (n : Nat) (p : LP) : State := { s with lps := tblSet s.lps n p }

/-- The state with a logical processor changed. -/
def State.onLp (s : State) (n : Nat) (f : LP → LP) : State := s.setLp n (f (s.lp n))

/-- A pair's own state, by 3c + k; 48 and 49 are CP0 and CP1. -/
def State.pair (s : State) (n : Nat) : Pair := tblGetD s.pairs n Pair.empty

/-- The state with a pair's own state changed. -/
def State.onPair (s : State) (n : Nat) (f : Pair → Pair) : State := { s with pairs := tblSet s.pairs n (f (s.pair n)) }

/-- The L2 of a cluster. -/
def State.l2c (s : State) (c : Nat) : Cache := tblGetD s.l2 c Cache.empty

/-- The state with the L2 of a cluster changed. -/
def State.onL2 (s : State) (c : Nat) (f : Cache → Cache) : State := { s with l2 := tblSet s.l2 c (f (s.l2c c)) }

/-- A system-cache slice. -/
def State.scs (s : State) (i : Nat) : Cache := tblGetD s.sc i Cache.empty

/-- The state with a slice changed. -/
def State.onSc (s : State) (i : Nat) (f : Cache → Cache) : State := { s with sc := tblSet s.sc i (f (s.scs i)) }

/-- The next free value, and the state that has taken it. -/
def State.fresh (s : State) : Nat × State :=
  ((Config.freeValue s.freeCount).toNat, { s with freeCount := s.freeCount + 1 })

/-- `n` bytes of free values, and the state that has taken them. -/
def State.freshBytes (s : State) (n : Nat) : List Byte × State :=
  ((List.range n).map fun i => BitVec.ofNat 8 (Config.freeValue (s.freeCount + i)).toNat,
    { s with freeCount := s.freeCount + n })

/-- The next free bit, and the state that has taken it. -/
def State.freshBit (s : State) : Bool × State :=
  (Config.freeBit s.freeCount, { s with freeCount := s.freeCount + 1 })

/-- The timebase in TAI nanoseconds (11 R312, R314). -/
def State.now (s : State) : Nat := s.time.tb / 2 ^ 48

/-- The timebase's fraction in units of 2^-16 ns. -/
def State.nowFrac (s : State) : Nat := s.time.tb / 2 ^ 32 % 2 ^ 16

/-- The timebase as a stamp. -/
def State.stamp (s : State) : Stamp := ⟨s.now, s.nowFrac⟩

/-- The local copy of an island: its distance from the timebase and its step epoch (11 R317, R323); an island that has had no
correction since a reset holds the timebase. -/
def State.copyOf (s : State) (island : Nat) : Int × Nat := tblGetD s.time.copies island (0, s.fld Off.timeStat 4 4)

/-- An island's copy of the timebase, in units of 2^-48 ns. -/
def State.tbIn (s : State) (island : Nat) : Nat := ((s.time.tb : Int) + (s.copyOf island).1).toNat

/-- A value in units of 2^-48 ns as a stamp. -/
def stampTb (v : Nat) : Stamp := ⟨v / 2 ^ 48, v / 2 ^ 32 % 2 ^ 16⟩

/-- The time that an island reads. -/
def State.stampIn (s : State) (island : Nat) : Stamp := stampTb (s.tbIn island)

/-- The quality byte of a TS80 written by an island (11 R312): timebase state and step epoch. -/
def State.quality (s : State) (island : Nat) : Nat := s.fld Off.timeStat 0 2 + (s.copyOf island).2 * 16

/-- The 16 bytes of a TS80 of a time in an island (11 R312, R313). -/
def State.tsBytes (s : State) (island : Nat) (t : Stamp) : List Byte :=
  natBytes 8 t.ns ++ natBytes 2 t.frac ++ natBytes 1 island ++ natBytes 1 (s.quality island) ++ natBytes 4 0

/-- The 16 bytes of a TS80 taken now in an island. -/
def State.ts80 (s : State) (island : Nat) : List Byte := s.tsBytes island (s.stampIn island)

/-- The island in which a logical processor stands (11 R313). -/
def lpIsland (n : Nat) : Nat := if n < 96 then n / 6 else 0x1A

/-- The effective split mask names a cluster (01 R15, 18 R461). -/
def State.isSplit (s : State) (c : Nat) : Bool := bitOf s.split c

/-- The number of slots that exist in a cluster (01 R15, 03 R102). -/
def State.slots (s : State) (c : Nat) : Nat := if s.isSplit c then 6 else 3

/-- Whether a slot number names a logical processor that exists: a control processor, or a slot that R15 numbers. -/
def State.lpExists (s : State) (n : Nat) : Bool := n == 96 || n == 97 || (n < 96 && n % 6 < s.slots (n / 6))

/-- The master ID of a slot number (01 R15, R25). -/
def lpMaster (n : Nat) : Nat := if n < 96 then 0x100 + n else 0x200 + (n - 96)

/-- The slot number of a master ID that may be a logical or control processor. -/
def masterLp (m : Nat) : Option Nat :=
  if 0x100 ≤ m ∧ m < 0x160 then some (m - 0x100) else if m = 0x200 ∨ m = 0x201 then some (96 + (m - 0x200)) else none

/-- Whether a master ID is a control processor's. -/
def isCp (m : Nat) : Bool := m == 0x200 || m == 0x201

/-- Whether a master ID is a host function's. -/
def isHostFn (m : Nat) : Bool := decide (m < 0x40)

/-- A Lens counter advanced (19 R482): 48 bits, with a sticky wrap bit at bit 63; a frozen block gains nothing (R484). -/
def State.count (s : State) (off n : Nat) : State :=
  if n = 0 || s.flag Off.lensCtrl 29 then s else
    let v := tblGetD s.lens off 0
    let c := bits v 0 48 + n
    { s with lens := tblSet s.lens off (c % 2 ^ 48 + (if 2 ^ 48 ≤ c ∨ bitOf v 63 then 2 ^ 63 else 0)) }

/-- A counter of a slot page advanced, with the LENS interrupt of 19 R486 at a wrap. Control processors have no page. -/
def State.countLp (s : State) (n i k : Nat) : State :=
  if 96 ≤ n then s else
    let off := Off.lensSlotCnt (n / 6) (n % 6) i
    let s' := s.count off k
    if 2 ^ 48 ≤ bits (tblGetD s.lens off 0) 0 48 + k ∧ s.flag (Off.lensSlotCtrl (n / 6) (n % 6)) 0 ∧
        s.flag Off.lensCtrl 29 = false then
      s'.onLp n fun p => { p with lens := true }
    else s'

/-- A counter of a cluster page advanced. -/
def State.countCl (s : State) (c i k : Nat) : State := s.count (Off.lensClCnt c i) k

/-- A counter of a slice page advanced. -/
def State.countSc (s : State) (c i k : Nat) : State := s.count (Off.lensScCnt c i) k

/-- A counter of a hub page advanced: 0 Tradewind and NVJ, 1 pools, 2 mailbox, fabric and host. -/
def State.countHub (s : State) (p i k : Nat) : State := s.count (Off.lensHubCnt p i) k

/-- The answer of the last request set. -/
def State.answer (s : State) (r : Resp) : State := { s with resp := r }

/-- The outcome of a command on a logical processor: refused where no such slot number exists. -/
def forLp (n : Nat) (s : State) (f : State → State) : Host.Outcome State Fault Refusal :=
  if n < 98 then .next (f s) else .refused .noSuchUnit

/-- The outcome of a command on a numbered unit of which there are `count`. -/
def forUnit (n count : Nat) (s : State) (f : State → State) : Host.Outcome State Fault Refusal :=
  if n < count then .next (f s) else .refused .noSuchUnit

end Sys2Proof.Machine
end

