-- ==== Sys2Proof/Machine/Notify.lean ====
section
/-! DEFINITION. Notifications: doorbell sets and their paced delivery, MSI-X messages, mailbox stores as the agents inside the
device fill them, Yafolo's event messages, and the raise of an event source with its reaction (13 R362-R374, 14 R380-R394,
15 R401-R402, 16 R417-R427). -/

namespace Sys2Proof.Machine

/-- Something put on the device's pins or links. -/
def State.emit (s : State) (o : Out) : State := { s with out := s.out ++ [o] }

/-- The offsets of DB_PEND and DB_MASK of a receiver's master ID (13 R372). -/
def dbOffsets (m : Nat) : Option (Nat × Nat) :=
  if m < 0x40 then some (Off.dbPendHf m, Off.dbMaskHf m)
  else match masterLp m with
    | some n =>
      if n < 96 then some (Off.dbPendLp (n / 6) (n % 6), Off.dbMaskLp (n / 6) (n % 6))
      else some (Off.dbPendCp (n - 96), Off.dbMaskCp (n - 96))
    | none => none

/-- Whether doorbells are delivered to a master ID: not to one that R16 gives to nothing, nor to a lost logical processor
(13 R363, 02 R56). -/
def State.dbReceiver (s : State) (m : Nat) : Bool :=
  if m < 0x40 then true
  else match masterLp m with
    | some n => s.lpExists n && (s.lp n).run != .lost
    | none => false

/-- The level of doorbell input `b` that a doorbell set drives: pending and not masked (13 R373). -/
def State.dbLevel (s : State) (m b : Nat) : Bool :=
  match dbOffsets m with
  | some (p, k) => s.flag p b && !s.flag k b
  | none => false

/-- The pacing window of 16 cc, in time-clock cycles rounded up (13 R373, 16 R424). -/
def paceWindow : Nat := 10

/-- The doorbell input `b` of a logical processor takes the level of its set, unless its last change lies within the window
of 16 cc: then the change waits for its paced delivery (13 R373). Only the inputs of a Mirror pair are paced. -/
def State.dbDeliver (s : State) (n b : Nat) (force : Bool) : State :=
  let lvl := s.dbLevel (lpMaster n) b
  let cur := bitOf (tblGetD s.dbIn n 0) b
  if lvl = cur then s
  else
    let key := n * 64 + b
    let last := tblGetD s.dbAt key 0
    let pacedPair := decide (96 ≤ n) || !s.isSplit (n / 6)
    if pacedPair && !force && decide (last ≠ 0) && decide (s.time.cycles + 1 < last + paceWindow) then s
    else { s with dbIn := tblSet s.dbIn n (setBit (tblGetD s.dbIn n 0) b lvl),
                  dbAt := tblSet s.dbAt key (s.time.cycles + 1) }

/-- A host function. -/
def State.fn (s : State) (f : Nat) : HostFn := tblGetD s.fns f HostFn.reset

/-- The number of MSI-X vectors of a function (15 R401). -/
def msixCount (f : Nat) : Nat := if f = 0 then 2048 else 64

/-- Whether a vector's message can be sent now: link up, function enabled, MSI-X on, function and vector not masked (15 R402, R414). -/
def State.msixOpen (s : State) (f v : Nat) : Bool :=
  s.flag Off.hpStat 0 && decide (f ≤ s.fld Off.hpStat 16 6) && (s.fn f).enabled && !(s.fn f).masked &&
    (match tblGet? (s.fn f).table v with | some e => !e.masked | none => false)

/-- An MSI-X message, or its pending bit where it cannot be sent (15 R402). -/
def State.msix (s : State) (f v : Nat) : State :=
  if s.msixOpen f v then (s.emit (.msix f v)).countHub 2 7 1
  else if (s.fn f).pend.contains v then s
  else { s with fns := tblSet s.fns f { s.fn f with pend := (s.fn f).pend ++ [v] } }

/-- After a change of a doorbell set, bit `b`: the processor's input follows, or a host function gets its message when the
level rose (13 R373, 15 R401). -/
def State.dbFollow (s : State) (m b : Nat) (was : Bool) : State :=
  if m < 0x40 then (if s.dbLevel m b && !was then s.msix m b else s)
  else match masterLp m with
    | some n => s.dbDeliver n b false
    | none => s

/-- A doorbell made pending (13 R372): nothing for a receiver that R363 excludes. -/
def State.ring (s : State) (m b : Nat) : State :=
  if !s.dbReceiver m || decide (32 ≤ b) then s
  else match dbOffsets m with
    | some (p, _) => (s.setFlag p b true).dbFollow m b (s.dbLevel m b)
    | none => s

/-- The fields of a channel's binding (13 R376). -/
def State.bindSender (s : State) (ch : Nat) : Nat := s.fld (Off.mbxBind ch) 0 12
/-- The bound receiver. -/
def State.bindReceiver (s : State) (ch : Nat) : Nat := s.fld (Off.mbxBind ch) 16 12
/-- The receiver's doorbell. -/
def State.bindBit (s : State) (ch : Nat) : Nat := s.fld (Off.mbxBind ch) 32 5
/-- Posts accepted. -/
def State.bindValid (s : State) (ch : Nat) : Bool := s.flag (Off.mbxBind ch) 62
/-- Binding locked. -/
def State.bindLocked (s : State) (ch : Nat) : Bool := s.flag (Off.mbxBind ch) 63

/-- A channel. -/
def State.chan (s : State) (ch : Nat) : Chan := tblGetD s.chans ch Chan.empty

/-- The state with a channel changed. -/
def State.onChan (s : State) (ch : Nat) (f : Chan → Chan) : State := { s with chans := tblSet s.chans ch (f (s.chan ch)) }

/-- The reset epoch of a master ID (13 R365). -/
def State.epoch (s : State) (m : Nat) : Nat := tblGetD s.epochs m 0

/-- The next sequence number after one: 0x0001 to 0xFFFF, never 0 (13 R366). -/
def nextSeq (q : Nat) : Nat := if q ≥ 0xFFFF then 1 else q + 1

/-- The header that the mailbox block stamps (13 R364): the sender's flags and length, and the block's own fields. -/
def stampHeader (word0 seq ch epoch sender : Nat) : Nat :=
  bits word0 44 20 * 2 ^ 44 + seq * 2 ^ 28 + ch * 2 ^ 16 + epoch * 2 ^ 12 + sender

/-- A message placed at the tail of a channel's store, its header stamped, and the receiver's doorbell rung (13 R366, R367,
R372). -/
def State.chanPut (s : State) (ch : Nat) (words : List (BitVec 64)) : State :=
  let c := s.chan ch
  let q := nextSeq c.seq
  let snd := s.bindSender ch
  let w0 := stampHeader ((words.headD 0).toNat) q ch (s.epoch snd) snd
  let m : Msg := ⟨BitVec.ofNat 64 w0 :: words.drop 1, false⟩
  let s1 := s.onChan ch fun c => { c with store := c.store ++ [m], seq := q }
  ((s1.setReg (Off.mbxPostStat ch) (q * 65536 + 16)).countHub 2 0 1).ring (s.bindReceiver ch) (s.bindBit ch)

/-- The eight words of a message of Yafolo: header word with flags and length, then the payload bytes (14 R380). -/
def yafWords (flags : Nat) (payload : List Byte) : List (BitVec 64) :=
  let p := payload ++ List.replicate (56 - payload.length) 0
  BitVec.ofNat 64 (flags * 2 ^ 50 + payload.length * 2 ^ 44) ::
    (List.range 7).map fun i => BitVec.ofNat 64 (leNat ((p.drop (8 * i)).take 8))

/-- The completion channel of a requester from a control processor (14 R378). -/
def complChannel (m cp : Nat) : Nat :=
  if m < 0x40 then (if cp = 0 then 2 * m + 1 else 129 + 2 * m)
  else (if cp = 0 then 257 + 2 * (m - 0x100) else 449 + 2 * (m - 0x100))

/-- The command channel of a requester to a control processor (14 R378). -/
def cmdChannel (m cp : Nat) : Nat :=
  if m < 0x40 then (if cp = 0 then 2 * m else 128 + 2 * m)
  else (if cp = 0 then 256 + 2 * (m - 0x100) else 448 + 2 * (m - 0x100))

/-- What Yafolo keeps for a requester. -/
def State.req (s : State) (m : Nat) : Requester := tblGetD s.reqs m Requester.empty

/-- The state with a requester's record changed. -/
def State.onReq (s : State) (m : Nat) (f : Requester → Requester) : State := { s with reqs := tblSet s.reqs m (f (s.req m)) }

/-- The serving control processor, 0 or 1 (14 R379). -/
def State.servingCp (s : State) : Nat := if s.cp1Serves then 1 else 0

/-- The payload of an event message (14 R380). -/
def eventPayload (e : EventRec) : List Byte :=
  natBytes 2 e.code ++ natBytes 2 e.object ++ natBytes 4 0 ++ e.ts ++ natBytes 8 e.value ++ natBytes 8 e.value2

/-- Whether a channel's store has room. -/
def State.chanRoom (s : State) (ch : Nat) : Bool := decide ((s.chan ch).store.length < 8)

/-- Yafolo's held completions and events of a requester posted while there is room, completions first, at most `fuel` of them
(14 R384, R394). EVENTS_LOST is posted with the number dropped once room appears. -/
def State.postHeld (s : State) (m : Nat) : Nat → State
  | 0 => s
  | fuel + 1 =>
    let r := s.req m
    match r.comps with
    | (cp, p) :: rest =>
      let ch := complChannel m cp
      if s.chanRoom ch then
        ((s.chanPut ch (yafWords 2 p)).onReq m fun r => { r with comps := rest }).postHeld m fuel
      else s
    | [] =>
      let ch := complChannel m s.servingCp
      if !s.chanRoom ch then s
      else match r.events with
        | e :: rest => ((s.chanPut ch (yafWords 3 (eventPayload e))).onReq m fun r => { r with events := rest }).postHeld m fuel
        | [] =>
          if r.dropped = 0 then s
          else
            (s.chanPut ch (yafWords 3 (eventPayload ⟨0xE, 0, s.ts80 0x1A, r.dropped, 0⟩))).onReq m
              fun r => { r with dropped := 0 }

/-- An event held for a requester and posted when there is room (14 R394): at most 256 are held, the oldest is dropped. -/
def State.eventTo (s : State) (m : Nat) (e : EventRec) : State :=
  if bitOf (s.req m).mask e.code then
    let s1 := s.onReq m fun r =>
      if 256 ≤ r.events.length then { r with events := r.events.drop 1 ++ [e], dropped := r.dropped + 1 }
      else { r with events := r.events ++ [e] }
    s1.postHeld m 1
  else s

/-- The managing functions of the partitions that hold a logical processor. -/
def State.lpOwners (s : State) (n : Nat) : List Nat :=
  (s.parts.filter fun e => e.2.lps.contains n).map fun e => e.2.owner

/-- Whether Yafolo runs: a control processor that is not lost serves (14 R379). -/
def State.yafAlive (s : State) : Bool := (s.lp (96 + s.servingCp)).run != .lost

/-- An event posted to PF0 and to the functions that own its object (14 R394). -/
def State.event (s : State) (code object value value2 : Nat) (owners : List Nat) : State :=
  let e : EventRec := ⟨code, object, s.ts80 0x1A, value, value2⟩
  if s.yafAlive then (owners.eraseDups.filter fun m => m != 0).foldl (fun s m => s.eventTo m e) (s.eventTo 0 e) else s

/-- A control processor stopped with LP_LOST (02 R59, 14 R379): where CP0 is lost, CP1 takes the interface over and posts CP_FAILOVER
to every requester that has completed HELLO. -/
def State.cpLost (s : State) (i : Nat) : State :=
  let s1 := s.onLp (96 + i) fun p => { p with run := .lost, rsv := none }
  let s2 := if i = 0 ∧ !s.cp1Serves ∧ (s.lp 97).run ≠ .lost then
      (s1.reqs.filter fun e => e.2.hello).foldl (fun (t : State) e => t.eventTo e.1 ⟨4, 0x200, t.ts80 0x1A, 0, 0⟩)
        { s1 with cp1Serves := true }
    else s1
  s2

/-- The functions that own the object of an event source: for a cluster's sources, the functions of its partitions. -/
def State.sourceOwners (s : State) (n : Nat) : List Nat :=
  if n < 256 then (List.range 6).flatMap fun k => s.lpOwners (6 * (n / 16) + k) else []

/-- The reaction of a source in ERR_REACT (16 R437). -/
def State.react (s : State) (n : Nat) : Nat :=
  let g := n / 32
  let m := n % 32
  if m < 16 then s.fld (Off.errReactLo g) (4 * m) 3 else s.fld (Off.errReactHi g) (4 * (m - 16)) 3

/-- What an input of the fault block makes pending (16 R424): 0 ERROR_INT, 1 NMI, 2 MACHINE_CHECK with cause and address; a
machine check that is pending already keeps its first cause. -/
def LP.takeInput (p : LP) (input cause addr : Nat) : LP :=
  match input with
  | 0 => { p with err := true }
  | 1 => { p with nmi := true }
  | _ => { p with mc := match p.mc with | some m => some m | none => some (cause, addr) }

/-- A change of an input to a slot, at most one in 16 cc: a sooner one is held for its paced delivery (16 R424). -/
def State.errInput (s : State) (n input cause addr : Nat) : State :=
  let key := 4 * n + input
  let last := tblGetD s.errAt key 0
  if n < 96 ∧ last ≠ 0 ∧ s.time.cycles + 1 < last + paceWindow then
    { s with errHeld := if (tblGet? s.errHeld key).isSome then s.errHeld else tblSet s.errHeld key (cause, addr) }
  else { s.onLp n fun p => p.takeInput input cause addr with errAt := tblSet s.errAt key (s.time.cycles + 1) }

/-- The paced delivery of a held change. -/
def State.errDeliver (s : State) (n input : Nat) : State :=
  let key := 4 * n + input
  match tblGet? s.errHeld key with
  | none => s
  | some (cause, addr) =>
    { s.onLp n fun p => p.takeInput input cause addr with
      errHeld := tblErase s.errHeld key, errAt := tblSet s.errAt key (s.time.cycles + 1) }

/-- ERROR_INT made pending at a logical processor. -/
def State.errInt (s : State) (n : Nat) : State := s.errInput n 0 0 0

/-- NMI made pending at a logical processor. -/
def State.nmiAt (s : State) (n : Nat) : State := s.errInput n 1 0 0

/-- INT to the control processors and to the slots that enable it (16 R423). -/
def State.reactInt (s : State) (n : Nat) : State :=
  let s1 := (s.errInt 96).errInt 97
  if n < 256 then
    (List.range (s.slots (n / 16))).foldl (fun t k =>
      if t.flag (Off.errLpen (n / 16) k) 0 then t.errInt (6 * (n / 16) + k) else t) s1
  else s1

/-- NMI to the control processors and to the slots that enable it (16 R423). -/
def State.reactNmi (s : State) (n : Nat) : State :=
  let s1 := (s.nmiAt 96).nmiAt 97
  if n < 256 then
    (List.range (s.slots (n / 16))).foldl (fun t k =>
      if t.flag (Off.errLpen (n / 16) k) 1 then t.nmiAt (6 * (n / 16) + k) else t) s1
  else
    (List.range 96).foldl (fun t i =>
      if t.lpExists i && t.flag (Off.errLpen (i / 6) (i % 6)) 2 then t.nmiAt i else t) s1

/-- ERR_N asserted (16 R427): hold set, the source recorded, the assertion counted, any armed release cancelled. -/
def State.assertErrN (s : State) (src : Nat) : State :=
  let c := s.fld Off.errPin 0 8
  let s1 := s.setReg Off.errPin (2 ^ 31 + src % 1024 * 65536 + satAdd c 1 255)
  { s1 with errPin := ⟨true, s.time.cycles, false⟩ }

/-- The reset that BLOCK_RESET of a source asks for (16 R421). -/
def blockResetOf (s : State) (n : Nat) : Option ResetReq :=
  if n < 256 then some (.cluster (n / 16))
  else if n < 512 then some (.port ((n - 256) / 2))
  else if 712 ≤ n ∧ n < 720 then some (.link (s.fld Off.lnkErr 32 7))
  else if 764 ≤ n ∧ n ≤ 766 then some .hostPort
  else none

/-- A reset asked for once. -/
def State.askReset (s : State) (r : ResetReq) : State :=
  if s.resetReqs.contains r then s else { s with resetReqs := s.resetReqs ++ [r] }

/-- The reaction of a source acts (16 R423); `late` for one held since before READY, whose BLOCK_RESET acts as INT only
(R419). -/
def State.actReaction (s : State) (n r : Nat) (late : Bool) : State :=
  match r with
  | 1 => s.reactInt n
  | 2 => s.reactNmi n
  | 3 =>
    let s1 := s.reactInt n
    if late then s1 else match blockResetOf s n with
      | some q => s1.askReset q
      | none => s1
  | 4 => if late then s else s.askReset (.warm n)
  | 5 => ((s.errInt 96).errInt 97).assertErrN n
  | 6 => (s.reactInt n).assertErrN n
  | _ => s

/-- The raise of an event source (16 R418, R419): the count, the pending bit with the reaction and its FAULT event, and the
first-source record of its group. Before READY the reaction waits for READY; in a cold boot, whose
phase is not yet READY, a warm reset asked for is ignored. A reserved source is never raised (R422). -/
def State.raise (s : State) (n : Nat) : State :=
  if sourceReserved n then s else
    let off := Off.errSrc n
    let v := s.reg off
    let g := n / 32
    let cnt := satAdd (bits v 0 8) 1 255
    let first := s.reg (Off.errFirst g)
    let s1 :=
      if bitOf v 31 then s.setReg off (2 ^ 31 + 2 ^ 30 + bits v 27 3 * 2 ^ 27 + cnt)
      else s.setReg off (2 ^ 31 + s.react n * 2 ^ 27 + cnt)
    let s2 :=
      if bitOf first 0 then s1.setReg (Off.errFirst g) (setBit first 1 true)
      else ((s1.setReg (Off.errFirst g) (n * 65536 + 1)).setReg (Off.errFirstNs g) (s.stampIn 0x1C).ns).setReg
        (Off.errFirstFr g) (s.stampIn 0x1C).frac
    if bitOf v 31 then s2
    else if s.ready then
      let s3 := s2.actReaction n (s.react n) false
      if s.react n = 0 then s3 else s3.event 5 n (s.react n) (s3.reg off) (s.sourceOwners n)
    else
      let s3 := { s2 with heldReacts := s2.heldReacts ++ [n] }
      if s.react n = 4 ∧ s.fld Off.bootStat 4 4 ≠ 6 then s3.setFlag Off.rstStat 18 true else s3

/-- The reactions held since before READY act (16 R419), each with its FAULT event; after a warm reset, BLOCK_RESET does nothing
more. -/
def State.actHeld (s : State) (warm : Bool) : State :=
  s.heldReacts.foldl (fun t n =>
    let r := t.fld (Off.errSrc n) 27 3
    let t1 := if warm && r == 3 then t else t.actReaction n r true
    if r = 0 then t1 else t1.event 5 n r (t1.reg (Off.errSrc n)) (t1.sourceOwners n)) { s with heldReacts := [] }

/-- The first event of a cause register of the common layout: valid at bit 0, overflow at bit 1, the cause in [11:8], and
further fields in `extra`; a later event sets overflow. -/
def State.logCause (s : State) (off cause extra : Nat) : State :=
  if s.flag off 0 then s.setFlag off 1 true else s.setReg off (extra + cause * 256 + 1)

end Sys2Proof.Machine
end

