-- ==== Sys2Proof/Machine/Caches.lean ====
section
/-! DEFINITION. The caches and the memory behind them (06 R153-R164, 07 R176-R201). Memory holds the newest value of every
byte: what a read through the directory returns. Beside it stand, for a line that an L2 (or its eviction buffer) holds
dirty, the content that the level below has (`underL2`), and for a line that a slice (or its eviction buffer) holds dirty,
the content that DRAM has (`underSc`); a discard of a dirty copy puts that content back. The caches themselves hold which
lines are present, dirty and locked, and an L1 data slot holds a line's former content while its invalidation waits. -/

namespace Sys2Proof.Machine

/-- The line of an address: the address of its first byte. -/
def lineOf (a : Nat) : Nat := a / 64 * 64

/-- The kind of a physical address (01 R21). -/
inductive AddrKind where | dram | host | regs | unmapped
  deriving DecidableEq, Repr

/-- Base of the register window. -/
def regBase : Nat := 0xFFFF000000000

/-- The offset from REGBASE of an address of the register window. -/
def regOff (a : Nat) : Nat := (2 ^ 52 - regBase + a) % 2 ^ 52

/-- What a physical address names (01 R21). -/
def State.addrKind (s : State) (a : Nat) : AddrKind :=
  if a < s.installed then .dram
  else if 0x8000000000000 ≤ a ∧ a ≤ 0xBFFFFFFFFFFFF then .host
  else if regBase ≤ a ∧ a ≤ 0xFFFFFFFFFFFFF then .regs
  else .unmapped

/-- Every byte of a range is of one kind. -/
def State.rangeKind (s : State) (a n : Nat) : Option AddrKind :=
  let k := s.addrKind a
  if n ≤ 1 ∨ s.addrKind (a + n - 1) = k then some k else none

/-- The slice of a DRAM line (07 R177). -/
def sliceOf (line : Nat) : Nat := line / 64 % 32

/-- The set of a line in an L2 (07 R176). -/
def l2Set (line : Nat) : Nat := line / 64 % 4096

/-- The set of a line in its slice (07 R176). -/
def scSet (line : Nat) : Nat := line / 2048 % 8192

/-- The slot of a cache. -/
def Cache.slot (c : Cache) (k : Nat) : CacheSlot := tblGetD c.slots k CacheSlot.empty

/-- The cache with a slot written. -/
def Cache.setSlot (c : Cache) (k : Nat) (x : CacheSlot) : Cache := { c with slots := tblSet c.slots k x }

/-- The way of a set that holds a line validly. -/
def Cache.wayOf (c : Cache) (set line : Nat) : Option Nat :=
  (List.range 16).find? fun w => (c.slot (set * 16 + w)).valid && (c.slot (set * 16 + w)).line == some line

/-- The locked, empty slot of a set that keeps a line's address (07 R183). -/
def Cache.keptWay (c : Cache) (set line : Nat) : Option Nat :=
  (List.range 16).find? fun w =>
    !(c.slot (set * 16 + w)).valid && (c.slot (set * 16 + w)).locked && (c.slot (set * 16 + w)).line == some line

/-- The tree after a touch of way `w`, from node `i` down `d` levels (07 R180). -/
def touchNode (w : Nat) : Nat → Nat → Nat → Nat
  | 0, _, t => t
  | d + 1, i, t =>
    let up := w / 2 ^ d % 2
    touchNode w d (2 * i + up) (setBit t i (up == 0))

/-- Whether node `i`, with `d` levels below it in a tree of `d + e` levels, covers an eligible way. -/
def covers (elig : Nat → Bool) (ways d i : Nat) : Bool :=
  (List.range (2 ^ d)).any fun j => elig (i * 2 ^ d - ways + j)

/-- The victim of a set, walking from node `i` down `d` levels (07 R180). -/
def victimNode (elig : Nat → Bool) (ways t : Nat) : Nat → Nat → Nat
  | 0, i => i - ways
  | d + 1, i =>
    let b := t / 2 ^ i % 2
    let c := 2 * i + b
    victimNode elig ways t d (if covers elig ways d c then c else 2 * i + 1 - b)

/-- A touch of way `w` of a set of 16 ways. -/
def Cache.touch (c : Cache) (set w : Nat) : Cache :=
  { c with tree := tblSet c.tree set (touchNode w 4 1 (tblGetD c.tree set 0)) }

/-- The way that an ordinary fill takes (07 R181): the lowest eligible empty slot, else the tree's victim among eligible
slots; with none eligible, reserved slots count as eligible. -/
def Cache.fillWay (c : Cache) (set : Nat) (reserved : Nat → Bool) : Nat :=
  let base : Nat → Bool := fun w =>
    !(c.slot (set * 16 + w)).locked && (match c.retiring with | some (j, _, _) => j != w | none => true)
  let isRes : Nat → Bool := fun w =>
    (c.slot (set * 16 + w)).valid && (match (c.slot (set * 16 + w)).line with | some l => reserved l | none => false)
  let elig : Nat → Bool := fun w => base w && !isRes w
  let tree := tblGetD c.tree set 0
  match (List.range 16).find? fun w => elig w && !(c.slot (set * 16 + w)).valid with
  | some w => w
  | none =>
    if (List.range 16).any elig then victimNode elig 16 tree 4 1 else victimNode base 16 tree 4 1

/-- The slots of a cluster. -/
def clusterSlots (c : Nat) : List Nat := (List.range 6).map fun k => 6 * c + k

/-- Whether a logical processor of a cluster holds a reservation of a line (06 R170). -/
def State.reservedIn (s : State) (c line : Nat) : Bool := (clusterSlots c).any fun n => (s.lp n).rsv == some line

/-- The reservations of a line cleared at every logical processor for which a test holds (06 R170). -/
def State.clearRsv (s : State) (line : Nat) (p : Nat → Bool) : State :=
  { s with lps := tblMap (fun n x => if p n && x.rsv == some line then { x with rsv := none } else x) s.lps }

/-- The bytes of a line in memory. -/
def State.lineBytes (s : State) (line : Nat) : List Byte := memBytes s.mem line 64

/-- An L1 data cache told to drop a line: the slot keeps the present content, and the invalidation joins the queue (06
R160); at the queue's 17th entry the oldest is applied first, since the L2 holds further ones back. -/
def L1.await (l : L1) (line : Nat) (content : List Byte) : L1 :=
  { l with slots := tblMap (fun _ x =>
      if x.line == some line && x.stale.isNone then { x with stale := some content } else x) l.slots }

/-- An L1 without a line. -/
def L1.drop (l : L1) (line : Nat) : L1 :=
  { l with slots := tblMap (fun _ x => if x.line == some line then ⟨none, none⟩ else x) l.slots }

/-- One invalidation applied to a logical processor's L1 data cache (06 R160). -/
def LP.applyInv (p : LP) : LP :=
  match p.invq with
  | [] => p
  | l :: t => { p with invq := t, l1d := p.l1d.drop l }

/-- Every invalidation of the queue applied. -/
def LP.applyAllInv (p : LP) : LP := { p with invq := [], l1d := p.invq.foldl (fun c l => c.drop l) p.l1d }

/-- A line's invalidation sent to a logical processor: queued for the L1 data cache, and done at once in the L1 instruction
cache when the line leaves the L2 (07 R178). -/
def LP.invalidate (p : LP) (line : Nat) (content : List Byte) : LP :=
  let p1 := if 16 ≤ p.invq.length then p.applyInv else p
  { p1 with invq := p1.invq ++ [line], l1d := p1.l1d.await line content, l1i := p1.l1i.drop line }

/-- INVQ_APPLIED of the slots whose full queue applies its oldest entry for a further one (06 R160, 19 R488). -/
def State.countFull (s : State) (ns : List Nat) : State :=
  ns.foldl (fun (t : State) n => t.countLp n 14 (bit01 (decide (16 ≤ (s.lp n).invq.length)))) s

/-- A line invalidated in the L1 caches of a cluster, before its content changes or when it leaves the L2. -/
def State.l1Invalidate (s : State) (c line : Nat) : State :=
  let content := s.lineBytes line
  let t := s.countFull (clusterSlots c)
  { t with lps := tblMap (fun n x => if n < 96 && n / 6 == c then x.invalidate line content else x) t.lps }

/-- The content that the level below the L2s has recorded, before an L2 dirties a line. -/
def State.noteL2 (s : State) (line : Nat) : State :=
  if (tblGet? s.underL2 line).isSome then s else { s with underL2 := tblSet s.underL2 line (s.lineBytes line) }

/-- The content that DRAM has recorded, before a slice dirties a line. -/
def State.noteSc (s : State) (line : Nat) : State :=
  if (tblGet? s.underSc line).isSome then s
  else { s with underSc := tblSet s.underSc line ((tblGet? s.underL2 line).getD (s.lineBytes line)) }

/-- A line taken into its slice, which evicts a victim: a dirty victim goes to the slice's eviction buffer, whose oldest
entry is written back first when the buffer is full (07 R181, R193). A line in the buffer returns from it. -/
def State.scFill (s : State) (line : Nat) : State :=
  if s.addrKind line ≠ .dram then s else
  let i := sliceOf line
  let set := scSet line
  let c := s.scs i
  match c.wayOf set line with
  | some w => ((s.onSc i fun c => c.touch set w).countSc i 0 1).countSc i 2 (bit01 (c.slot (set * 16 + w)).locked)
  | none =>
    let fromBuf := c.ebuf.contains line
    let w := (c.keptWay set line).getD (c.fillWay set fun _ => false)
    let old := c.slot (set * 16 + w)
    let evict := old.valid && old.dirty
    let full := evict && decide (32 ≤ c.ebuf.length)
    let wb := if full then c.ebuf.head? else none
    let s1 := match wb with | some l => { s with underSc := tblErase s.underSc l } | none => s
    let buf := (if full then c.ebuf.drop 1 else c.ebuf).filter (· != line)
    let c1 : Cache := { c with ebuf := if evict then buf ++ old.line.toList else buf }
    let c2 := (c1.setSlot (set * 16 + w) ⟨some line, true, fromBuf, old.locked⟩).touch set w
    let s2 := ((s1.onSc i fun _ => c2).countSc i 1 1).countSc i 6 (bit01 fromBuf)
    if evict then s2.countSc i 3 1 else s2

/-- A line marked dirty in its slice, present or taken in (07 R187, R193). -/
def State.scDirty (s : State) (line : Nat) : State :=
  let s1 := (s.noteSc line).scFill line
  let i := sliceOf line
  let set := scSet line
  match (s1.scs i).wayOf set line with
  | some w => s1.onSc i fun c => c.setSlot (set * 16 + w) { c.slot (set * 16 + w) with dirty := true }
  | none => s1

/-- The dirty content of a line that an L2 or its buffer held written back to the slice, or to host memory (07 R187, R193). -/
def State.l2WriteBack (s : State) (line : Nat) : State :=
  if (tblGet? s.underL2 line).isNone then s
  else
    let s1 := if s.addrKind line = .dram then s.scDirty line else s
    { s1 with underL2 := tblErase s1.underL2 line }

/-- The dirty content of a line that a slice or its buffer held written back to DRAM. -/
def State.scWriteBack (s : State) (line : Nat) : State := { s with underSc := tblErase s.underSc line }

/-- Every L2's claim to dirty content of a line dropped: slots clean, buffers without it. -/
def State.l2Clean (s : State) (line : Nat) : State :=
  { s with l2 := tblMap (fun _ c =>
      { c with ebuf := c.ebuf.filter (· != line),
               slots := tblMap (fun _ x => if x.valid && x.line == some line then { x with dirty := false } else x) c.slots }) s.l2 }

/-- A line invalidated in one L2: a locked slot keeps the address (07 R183); the L1 caches of the cluster drop it (R178). -/
def State.l2Drop (s : State) (c line : Nat) : State :=
  let set := l2Set line
  match (s.l2c c).wayOf set line with
  | none => s.onL2 c fun x => { x with ebuf := x.ebuf.filter (· != line) }
  | some w =>
    let old := (s.l2c c).slot (set * 16 + w)
    ((s.l1Invalidate c line).onL2 c fun x =>
      { x with ebuf := x.ebuf.filter (· != line) }.setSlot (set * 16 + w)
        ⟨if old.locked then some line else none, false, false, old.locked⟩).countCl c 6 1

/-- The clusters of the device. -/
def clusters : List Nat := List.range 16

/-- The clusters whose L2 holds a line. -/
def State.holders (s : State) (line : Nat) : List Nat :=
  clusters.filter fun c => ((s.l2c c).wayOf (l2Set line) line).isSome

/-- Snoops of a line that its directory sends to L2s (19 R489, R490; DEDUCED, log 190). -/
def State.snoops (s : State) (line : Nat) (cs : List Nat) : State :=
  cs.foldl (fun (t : State) c =>
    (t.countCl c 5 1).countSc (sliceOf line) 4 (bit01 (s.addrKind line == .dram))) s

/-- A line dropped from every L2 but one, its dirty content written back first (06 R157). -/
def State.ownBy (s : State) (c line : Nat) : State :=
  let others := (s.holders line).filter (· != c)
  let mine := ((s.l2c c).wayOf (l2Set line) line).isSome && others.isEmpty
  let inBuf := (s.l2c c).ebuf.contains line
  let s1 := if mine || inBuf then s else (s.l2WriteBack line).l2Clean line
  others.foldl (fun t o => t.l2Drop o line) (s1.snoops line others)

/-- The host lines that the L2s hold in one set of the snoop filter (15 R407). Its index is that of an L2 set (PRESUMED, log 71). -/
def State.filterLines (s : State) (set : Nat) : List Nat :=
  (clusters.flatMap fun c => (List.range 16).filterMap fun w =>
    let x := (s.l2c c).slot (set * 16 + w)
    if x.valid && (x.line.map s.addrKind) == some .host then x.line else none).eraseDups

/-- Room made in the host port's snoop filter for a host line, 16 lines a set: a victim, which the manual does not choose (a free
value, log 71), is invalidated in its L2s, written back first where dirty (15 R407). -/
def State.filterRoom (s : State) (line : Nat) : State :=
  if s.addrKind line ≠ .host then s
  else
    let ls := s.filterLines (l2Set line)
    if ls.contains line || decide (ls.length < 16) then s
    else
      let (k, s1) := s.fresh
      match ls[k % ls.length]? with
      | none => s1
      | some v => (clusters.foldl (fun (t : State) c => t.l2Drop c v) ((s1.l2WriteBack v).l2Clean v)).clearRsv v fun _ => true

/-- A line that an L2 does not hold allocated there (07 R176, R177): the victim's copies go, and what it held dirty waits in an
eviction buffer. -/
def State.l2Alloc (s : State) (c line : Nat) : State :=
  let set := l2Set line
  let fromBuf := (s.l2c c).ebuf.contains line
  let dirtyIn := if (tblGet? s.underL2 line).isSome then s.holders line else []
  let s0 := if fromBuf then s else (((s.l2WriteBack line).l2Clean line).snoops line dirtyIn).scFill line
  let x := s0.l2c c
  let w := (x.keptWay set line).getD (x.fillWay set fun l => s0.reservedIn c l)
  let old := x.slot (set * 16 + w)
  let s1 := match old.valid, old.line with
    | true, some l => (s0.l1Invalidate c l).clearRsv l fun n => n / 6 == c
    | _, _ => s0
  let evict := old.valid && old.dirty
  let full := evict && decide (16 ≤ (s1.l2c c).ebuf.length)
  let s2 := match full, (s1.l2c c).ebuf.head? with
    | true, some l => (s1.l2WriteBack l).onL2 c fun x => { x with ebuf := x.ebuf.drop 1 }
    | _, _ => s1
  let s3 := s2.onL2 c fun x =>
    ({ x with ebuf := (x.ebuf.filter (· != line)) ++ (if evict then old.line.toList else []) }.setSlot (set * 16 + w)
      ⟨some line, true, fromBuf, old.locked⟩).touch set w
  let s4 := (((s3.countCl c 0 1).countCl c 2 1).countCl c 8 (bit01 fromBuf)).countHub 2 6
    (bit01 (!fromBuf && s.addrKind line == .host))
  if evict then s4.countCl c 4 1 else s4

/-- A line taken into the L2 of a cluster (07 R181): from its eviction buffer still dirty (R193), else from below, other
L2s' dirty content going to the slice first. The victim leaves the L1 caches, loses a reservation, and goes to the eviction
buffer when dirty. -/
def State.l2Fill (s : State) (c line : Nat) : State :=
  let s := s.filterRoom line
  match (s.l2c c).wayOf (l2Set line) line with
  | some w => (((s.onL2 c fun x => x.touch (l2Set line) w).countCl c 0 1).countCl c 1 1).countCl c 3
    (bit01 ((s.l2c c).slot (l2Set line * 16 + w)).locked)
  | none => s.l2Alloc c line

/-- The L1 slot way of a set that holds a line. -/
def L1.wayOf (l : L1) (ways set line : Nat) : Option Nat :=
  (List.range ways).find? fun w =>
    match tblGet? l.slots (set * ways + w) with
    | some x => x.line == some line
    | none => false

/-- A line taken into an L1 (07 R176, R180): its set's empty way or tree victim. -/
def L1.fill (l : L1) (ways lvls sets line : Nat) : L1 :=
  let set := line / 64 % sets
  let tree := tblGetD l.tree set 0
  let w := match l.wayOf ways set line with
    | some w => w
    | none =>
      match (List.range ways).find? fun w =>
          match tblGet? l.slots (set * ways + w) with | some x => x.line.isNone | none => true with
      | some w => w
      | none => victimNode (fun _ => true) ways tree lvls 1
  let slot : L1Slot := match l.wayOf ways set line with
    | some w => tblGetD l.slots (set * ways + w) ⟨some line, none⟩
    | none => ⟨some line, none⟩
  { slots := tblSet l.slots (set * ways + w) slot, tree := tblSet l.tree set (touchNode w lvls 1 tree) }

/-- Whether an L1 data cache holds a line. -/
def L1.hasD (l : L1) (line : Nat) : Bool := (l.wayOf 8 (line / 64 % 128) line).isSome

/-- Whether an L1 instruction cache holds a line. -/
def L1.hasI (l : L1) (line : Nat) : Bool := (l.wayOf 4 (line / 64 % 256) line).isSome

/-- The former content that an L1 data cache still gives for a line (06 R160). -/
def L1.staleOf (l : L1) (line : Nat) : Option (List Byte) :=
  match l.wayOf 8 (line / 64 % 128) line with
  | some w => (tblGet? l.slots (line / 64 % 128 * 8 + w)).bind (·.stale)
  | none => none

/-- Bytes merged into the former content that an L1 data cache holds of a line: its own core's store writes through. -/
def L1.mergeStale (l : L1) (line off : Nat) (bs : List Byte) : L1 :=
  { l with slots := tblMap (fun _ x =>
      if x.line == some line then
        { x with stale := x.stale.map fun c => c.take off ++ bs ++ c.drop (off + bs.length) } else x) l.slots }

/-- One outstanding fill of a cluster done: into the L2, and into the L1 that asked (07 R181). -/
def State.doFill (s : State) (c : Nat) (f : PendFill) : State :=
  let s1 := s.l2Fill c f.line
  match f.into with
  | 0 => s1.onLp f.lp fun p => { p with l1d := p.l1d.fill 8 3 128 f.line }
  | 1 => s1.onLp f.lp fun p => { p with l1i := p.l1i.fill 4 2 256 f.line }
  | _ => s1

/-- The oldest outstanding fill of a cluster done. -/
def State.fillNext (s : State) (c : Nat) : State :=
  match (s.l2c c).fills with
  | [] => s
  | f :: t => (s.onL2 c fun x => { x with fills := t }).doFill c f

/-- Every outstanding fill of a cluster done (07 R189). -/
def State.fillAll (s : State) (c : Nat) : State :=
  ((s.l2c c).fills).foldl (fun t f => t.doFill c f) (s.onL2 c fun x => { x with fills := [] })

/-- A fill asked for, once. The control processors' pairs lie on the hub and have no L2. -/
def State.askFill (s : State) (n line into : Nat) : State :=
  if 96 ≤ n then s
  else if (s.l2c (n / 6)).fills.any fun f => f.line == line && f.lp == n && f.into == into then s
  else s.onL2 (n / 6) fun x => { x with fills := x.fills ++ [⟨line, n, into⟩] }

/-- The lines that a range of bytes touches. -/
def linesOf (a n : Nat) : List Nat :=
  (List.range ((a + (n - 1)) / 64 - a / 64 + 1)).map fun i => lineOf a + 64 * i

/-- A write through the directory by an agent other than an L2 (06 R154, 07 R193, 15 R403): dirty bytes of any L2 merge into
the slice, every L2 copy is invalidated, reservations of the line clear, and the bytes land in the slice where the slice
holds the line, else in DRAM. A write of all 64 bytes clears poison (07 R195). -/
def State.lineWrite (s : State) (a : Nat) (bs : List Byte) : State :=
  let line := lineOf a
  let s1 := (s.holders line).foldl (fun t c => t.l2Drop c line) (((s.l2WriteBack line).l2Clean line).snoops line (s.holders line))
  let s2 := s1.clearRsv line fun _ => true
  let i := sliceOf line
  let held := ((s2.scs i).wayOf (scSet line) line).isSome || (s2.scs i).ebuf.contains line
  let s3 := if s2.addrKind line = .dram && held then
      (if (s2.scs i).ebuf.contains line then s2.noteSc line else s2.scDirty line) else s2
  let s4 := { s3 with mem := memWriteBytes s3.mem a bs }
  if 64 ≤ bs.length then { s4 with poison := s4.poison.filter (· != line) } else s4

/-- Bytes written through the directory, line by line, in rising order. -/
def State.agentWrite (s : State) (a : Nat) (bs : List Byte) : State :=
  (linesOf a bs.length).foldl (fun t l =>
    let lo := if l < a then a else l
    t.lineWrite lo ((bs.drop (lo - a)).take (l + 64 - lo))) (if bs.isEmpty then s else s)

/-- Whether a line of a range is poisoned. -/
def State.poisoned (s : State) (a n : Nat) : Bool := (linesOf a n).any fun l => s.poison.contains l

/-- Bytes that an agent reads through the directory. -/
def State.agentRead (s : State) (a n : Nat) : List Byte := memBytes s.mem a n

end Sys2Proof.Machine
end

