-- ==== Sys2Proof/Machine/Maint.lean ====
section
/-! DEFINITION. Line and range maintenance (07 R182-R192): the operations on one line at cluster scope and at device scope,
placing a locked line, the range engines, and way locking. -/

namespace Sys2Proof.Machine

/-- A line removed from an L2, its slot emptied; a locked slot stays locked (07 R183). -/
def State.l2Empty (s : State) (c line : Nat) : State :=
  let set := l2Set line
  match (s.l2c c).wayOf set line with
  | none => s
  | some w =>
    (s.l1Invalidate c line).onL2 c fun x =>
      x.setSlot (set * 16 + w) ⟨none, false, false, (x.slot (set * 16 + w)).locked⟩

/-- A line removed from its slice, its slot emptied; a locked slot stays locked. -/
def State.scEmpty (s : State) (line : Nat) : State :=
  let i := sliceOf line
  let set := scSet line
  let s1 := s.onSc i fun x => { x with ebuf := x.ebuf.filter (· != line) }
  match (s1.scs i).wayOf set line with
  | none => s1
  | some w => s1.onSc i fun x => x.setSlot (set * 16 + w) ⟨none, false, false, (x.slot (set * 16 + w)).locked⟩

/-- Whether an L2 slot of a cluster holds a line dirty. -/
def State.l2IsDirty (s : State) (c line : Nat) : Bool :=
  match (s.l2c c).wayOf (l2Set line) line with
  | some w => ((s.l2c c).slot (l2Set line * 16 + w)).dirty
  | none => false

/-- A line's content replaced by what the level below the L2s holds, and its dirty copy forgotten (07 R187, INVAL). -/
def State.l2Discard (s : State) (line : Nat) : State :=
  match tblGet? s.underL2 line with
  | some bs => { s with mem := memWriteBytes s.mem line bs, underL2 := tblErase s.underL2 line,
                        poison := s.poison.filter (· != line) }
  | none => s

/-- A line's content replaced by what DRAM holds, and every dirty copy forgotten. -/
def State.allDiscard (s : State) (line : Nat) : State :=
  match tblGet? s.underSc line, tblGet? s.underL2 line with
  | some bs, _ => { s with mem := memWriteBytes s.mem line bs, underSc := tblErase s.underSc line,
                           underL2 := tblErase s.underL2 line, poison := s.poison.filter (· != line) }
  | none, some bs => { s with mem := memWriteBytes s.mem line bs, underL2 := tblErase s.underL2 line,
                              poison := s.poison.filter (· != line) }
  | none, none => s

/-- 64 zero bytes. -/
def zeroLine : List Byte := List.replicate 64 0

/-- A line marked dirty in the L2 of a cluster that holds it. -/
def State.l2Dirty (s : State) (c line : Nat) : State :=
  match (s.l2c c).wayOf (l2Set line) line with
  | some w => s.onL2 c fun x =>
      x.setSlot (l2Set line * 16 + w) { x.slot (l2Set line * 16 + w) with dirty := true }
  | none => s

/-- The L1 data copies of a line dropped in every core of a cluster but one, through their queues (06 R157, R160). DEDUCED,
log 12: cores of the writing cluster lose theirs as those of other clusters do. -/
def State.l1Siblings (s : State) (n line : Nat) : State :=
  let content := s.lineBytes line
  let t := s.countFull ((clusterSlots (n / 6)).filter fun m => m != n && (s.lp m).l1d.hasD line)
  { t with lps := tblMap (fun m x =>
      if m < 96 && m / 6 == n / 6 && m != n && x.l1d.hasD line then
        let x1 := if 16 ≤ x.invq.length then x.applyInv else x
        { x1 with invq := x1.invq ++ [line], l1d := x1.l1d.await line content }
      else x) t.lps }

/-- A line taken owned into the L2 of a cluster, before bytes are written in it (06 R157). -/
def State.l2Own (s : State) (c line : Nat) : State := (((s.ownBy c line).l2Fill c line).noteL2 line).l2Dirty c line

/-- CLEAN of a line at cluster scope: its dirty copy, in a slot or in the eviction buffer, written back (07 R187, R190). -/
def State.lineClean (s : State) (c line : Nat) : State :=
  if s.l2IsDirty c line || (s.l2c c).ebuf.contains line then (s.l2WriteBack line).l2Clean line else s

/-- INVAL of a line at cluster scope: the copies of the cluster discarded without write-back; eviction buffers are not
touched (07 R187). The reservations of the cluster clear (06 R170). -/
def State.lineInval (s : State) (c line : Nat) : State :=
  let dirty := s.l2IsDirty c line
  let s1 := (s.l2Empty c line).clearRsv line fun n => n / 6 == c
  let s2 := if dirty then s1.l2Discard line else s1
  { s2 with lps := tblMap (fun n x => if n < 96 && n / 6 == c then
      { x with l1d := x.l1d.drop line, l1i := x.l1i.drop line, invq := x.invq.filter (· != line) } else x) s2.lps }

/-- CLEANINVAL of a line at cluster scope. -/
def State.lineCleanInval (s : State) (c line : Nat) : State :=
  ((s.lineClean c line).l2Empty c line).clearRsv line fun n => n / 6 == c

/-- ZERO of a line at cluster scope: taken owned and set to zero, dirty (07 R187); poison clears (R195). -/
def State.lineZero (s : State) (c line : Nat) : State :=
  let s1 := ((s.l2Own c line).l1Invalidate c line).clearRsv line fun _ => true
  { s1 with mem := memWriteBytes s1.mem line zeroLine, poison := s1.poison.filter (· != line) }

/-- UNLOCK of a line at cluster scope. -/
def State.lineUnlock (s : State) (c line : Nat) : State :=
  match (s.l2c c).wayOf (l2Set line) line with
  | some w => s.onL2 c fun x =>
      x.setSlot (l2Set line * 16 + w) { x.slot (l2Set line * 16 + w) with locked := false }
  | none => s

/-- CLEAN of a line at device scope: every dirty copy written back to DRAM. -/
def State.devClean (s : State) (line : Nat) : State :=
  let s1 := (s.l2WriteBack line).l2Clean line
  let i := sliceOf line
  let s2 := s1.onSc i fun x => { x with
    ebuf := x.ebuf.filter (· != line),
    slots := tblMap (fun _ y => if y.valid && y.line == some line then { y with dirty := false } else y) x.slots }
  s2.scWriteBack line

/-- Every cached copy of a line removed, at every level. -/
def State.dropAll (s : State) (line : Nat) : State :=
  let s1 := (s.holders line).foldl (fun t c => t.l2Empty c line) s
  let s2 := { s1 with l2 := tblMap (fun _ x => { x with ebuf := x.ebuf.filter (· != line) }) s1.l2 }
  (s2.scEmpty line).clearRsv line fun _ => true

/-- INVAL of a line at device scope: every copy discarded without write-back, buffered ones included (07 R187, R190). -/
def State.devInval (s : State) (line : Nat) : State := (s.dropAll line).allDiscard line

/-- CLEANINVAL of a line at device scope. -/
def State.devCleanInval (s : State) (line : Nat) : State := (s.devClean line).dropAll line

/-- ZERO of a line at device scope: zeroed in its slice where present, else in DRAM; every L2 copy invalidated. -/
def State.devZero (s : State) (line : Nat) : State :=
  let s1 := (s.holders line).foldl (fun t c => t.l2Empty c line) (s.l2Discard line)
  let s2 := { s1 with l2 := tblMap (fun _ x => { x with ebuf := x.ebuf.filter (· != line) }) s1.l2 }
  let present := ((s2.scs (sliceOf line)).wayOf (scSet line) line).isSome
  let s3 := if present then s2.scDirty line else (s2.scEmpty line).scWriteBack line
  { s3 with mem := memWriteBytes s3.mem line zeroLine, poison := s3.poison.filter (· != line) }.clearRsv line fun _ => true

/-- UNLOCK of a line at device scope: its lock bit cleared in its slice. -/
def State.devUnlock (s : State) (line : Nat) : State :=
  let i := sliceOf line
  match (s.scs i).wayOf (scSet line) line with
  | some w => s.onSc i fun x => x.setSlot (scSet line * 16 + w) { x.slot (scSet line * 16 + w) with locked := false }
  | none => s

/-- Whether logical way `w` is enabled for locking in an L2 or a slice (07 R182). -/
def State.l2LockEn (s : State) (c w : Nat) : Bool := s.flag (Off.l2Locken c) w
/-- As `l2LockEn`, for a slice. -/
def State.scLockEn (s : State) (i w : Nat) : Bool := s.flag (Off.scLocken i) w

/-- A line placed and locked in a way of an L2 (07 R186); none where it is refused. -/
def State.placeL2 (s : State) (c w line : Nat) : Option State :=
  let set := l2Set line
  if !s.l2LockEn c w || s.addrKind line = .host then none
  else
    match (s.l2c c).wayOf set line with
    | some v =>
      let x := (s.l2c c).slot (set * 16 + v)
      if x.locked then some s
      else if v = w then some (s.onL2 c fun k => k.setSlot (set * 16 + w) { x with locked := true })
      else
        let t := (s.l2c c).slot (set * 16 + w)
        if t.locked then none
        else
          let s1 := match t.valid, t.line with
            | true, some l => (s.l1Invalidate c l).clearRsv l fun n => n / 6 == c
            | _, _ => s
          some (s1.onL2 c fun k =>
            ({ k with ebuf := if t.valid && t.dirty then k.ebuf ++ t.line.toList else k.ebuf }.setSlot (set * 16 + w)
              { x with locked := true }).setSlot (set * 16 + v) CacheSlot.empty)
    | none =>
      let t := (s.l2c c).slot (set * 16 + w)
      if t.locked && (t.valid || t.line != some line) && t.line.isSome then none
      else
        let fromBuf := (s.l2c c).ebuf.contains line
        let s0 := if fromBuf then s else ((s.l2WriteBack line).l2Clean line).scFill line
        let s1 := match t.valid, t.line with
          | true, some l => (s0.l1Invalidate c l).clearRsv l fun n => n / 6 == c
          | _, _ => s0
        some (s1.onL2 c fun k =>
          ({ k with ebuf := (k.ebuf.filter (· != line)) ++ (if t.valid && t.dirty then t.line.toList else []) }.setSlot
            (set * 16 + w) ⟨some line, true, fromBuf, true⟩).touch set w)

/-- A line placed and locked in a way of its slice (07 R186); none where it is refused. -/
def State.placeSc (s : State) (w line : Nat) : Option State :=
  let i := sliceOf line
  let set := scSet line
  if s.addrKind line ≠ .dram || !s.scLockEn i w then none
  else
    match (s.scs i).wayOf set line with
    | some v =>
      let x := (s.scs i).slot (set * 16 + v)
      if x.locked then some s
      else if v = w then some (s.onSc i fun k => k.setSlot (set * 16 + w) { x with locked := true })
      else
        let t := (s.scs i).slot (set * 16 + w)
        if t.locked then none
        else
          some (s.onSc i fun k =>
            ({ k with ebuf := if t.valid && t.dirty then k.ebuf ++ t.line.toList else k.ebuf }.setSlot (set * 16 + w)
              { x with locked := true }).setSlot (set * 16 + v) CacheSlot.empty)
    | none =>
      let t := (s.scs i).slot (set * 16 + w)
      if t.locked && t.line.isSome then none
      else
        let fromBuf := (s.scs i).ebuf.contains line
        some (s.onSc i fun k =>
          ({ k with ebuf := (k.ebuf.filter (· != line)) ++ (if t.valid && t.dirty then t.line.toList else []) }.setSlot
            (set * 16 + w) ⟨some line, true, fromBuf, true⟩).touch set w)

/-- One line operation (07 R184 codes 0 CLEAN, 1 INVAL, 2 CLEANINVAL, 3 ZERO, 4 UNLOCK) at cluster or device scope. -/
def State.lineOp (s : State) (c op : Nat) (device : Bool) (line : Nat) : State :=
  match op, device with
  | 0, false => s.lineClean c line
  | 1, false => s.lineInval c line
  | 2, false => s.lineCleanInval c line
  | 3, false => s.lineZero c line
  | 4, false => s.lineUnlock c line
  | 0, true => s.devClean line
  | 1, true => s.devInval line
  | 2, true => s.devCleanInval line
  | 3, true => s.devZero line
  | 4, true => s.devUnlock line
  | _, _ => s

/-- The number of a range engine: clusters 0 to 15, hub engines 16 to 19. -/
def rmIndex : RangeEngine → Nat
  | .cluster c => c
  | .hub h => 16 + h

/-- Whether a range engine exists. -/
def rmExists : RangeEngine → Bool
  | .cluster c => decide (c < 16)
  | .hub h => decide (h < 4)

/-- The registers of a range engine: RM_ADDR, RM_COUNT, RM_CTRL, RM_STAT. -/
def rmAddr : RangeEngine → Nat
  | .cluster c => Off.rmAddr c
  | .hub h => Off.hrmAddr h
/-- RM_COUNT. -/
def rmCount : RangeEngine → Nat
  | .cluster c => Off.rmCount c
  | .hub h => Off.hrmCount h
/-- RM_CTRL. -/
def rmCtrl : RangeEngine → Nat
  | .cluster c => Off.rmCtrl c
  | .hub h => Off.hrmCtrl h
/-- RM_STAT. -/
def rmStat : RangeEngine → Nat
  | .cluster c => Off.rmStat c
  | .hub h => Off.hrmStat h
/-- The L2_STAT or SC_STAT of the engine's block. -/
def rmBlockStat : RangeEngine → Nat
  | .cluster c => Off.l2Stat c
  | .hub h => Off.scStat h
/-- The event source of an engine's codes (07 R202). -/
def rmSource : RangeEngine → Nat
  | .cluster c => 16 * c + 15
  | .hub h => 680 + h

/-- One line of a range operation processed: op as in 07 R187. -/
def State.rangeLine (s : State) (e : RangeEngine) (o : RangeOp) (line : Nat) : State × RangeOp :=
  let o1 := { o with poison := o.poison || s.poison.contains line }
  let s := match e with | .cluster c => s.countCl c 9 1 | .hub _ => s
  match e, o.op with
  | .cluster c, 4 =>
    match s.placeL2 c o.way line with
    | some s' => (s', o1)
    | none => (s, { o1 with skipped := o1.skipped + 1 })
  | .hub _, 4 =>
    match s.placeSc o.way line with
    | some s' => (s', o1)
    | none => (s, { o1 with skipped := o1.skipped + 1 })
  | .cluster c, 1 => (s.lineClean c line, o1)
  | .cluster c, 2 => (s.lineInval c line, o1)
  | .cluster c, 3 => (s.lineCleanInval c line, o1)
  | .cluster c, 5 => (s.lineUnlock c line, o1)
  | .cluster c, 6 => (s.lineZero c line, { o1 with poison := o.poison })
  | .hub _, 1 => (s.devClean line, o1)
  | .hub _, 2 => (s.devInval line, o1)
  | .hub _, 3 => (s.devCleanInval line, o1)
  | .hub _, 5 => (s.devUnlock line, o1)
  | .hub _, 6 => (s.devZero line, { o1 with poison := o.poison })
  | _, _ => (s, o1)

/-- The next `k` lines of a range operation processed (07 R191). -/
def State.rangeLines (s : State) (e : RangeEngine) (o : RangeOp) : Nat → State × RangeOp
  | 0 => (s, o)
  | k + 1 =>
    if o.lines = 0 then (s, o)
    else
      let (s1, o1) := s.rangeLine e o o.line
      s1.rangeLines e { o1 with line := o1.line + 64, lines := o1.lines - 1 } k

/-- RM_STAT's value: lines done, lines skipped, busy, code (07 R203). -/
def rmStatWord (done skipped : Nat) (busy : Bool) (code : Nat) : Nat :=
  done % 2 ^ 32 * 2 ^ 32 + min skipped 0xFFFF * 65536 + bit01 busy * 16 + code

/-- Whether a range of lines is wholly DRAM. -/
def State.rangeDram (s : State) (line n : Nat) : Bool := decide (line + 64 * n ≤ s.installed)

/-- A range operation started (07 R188): refused while the engine is busy, BAD_REQUEST as R188 lists, else busy. Fills asked
for before the start are completed first, and a free part of the walk is done already: no rule fixes how far a walk is at a
given moment (R189, R191; log 13). -/
def State.rmStart (s : State) (e : RangeEngine) (op : Nat) (a : RmArgs) : State :=
  let s := s.setReg (rmCtrl e) (a.dbBit.toNat * 2 ^ 32 + bit01 a.dbEn * 2 ^ 28 + a.dbTarget.toNat * 2 ^ 16 +
    a.way.toNat * 256 + op)
  if s.flag (rmStat e) 4 then s.setFlag (rmBlockStat e) 1 true
  else
    let line := s.reg (rmAddr e)
    let n := s.reg (rmCount e)
    let w := a.way.toNat
    let bad :=
      op == 0 || op == 7 || n == 0 || decide (2 ^ 52 < line + 64 * n) ||
      (match e with
        | .cluster c => op == 4 && (!s.l2LockEn c w || s.addrKind line == .host || s.addrKind (line + 64 * n - 1) == .host)
        | .hub _ => !s.rangeDram line n || (op == 4 && !(List.range 32).all fun i => s.scLockEn i w))
    if bad then (s.setReg (rmStat e) (rmStatWord 0 0 false 5)).raise (rmSource e)
    else
      let s1 := match e with
        | .cluster c => s.fillAll c
        | .hub _ => clusters.foldl (fun t c => t.fillAll c) s
      let (k, s2) := s1.fresh
      let o : RangeOp := ⟨op, line, n, w, 0, false, if a.dbEn then some (a.dbTarget.toNat, a.dbBit.toNat) else none⟩
      let (s3, o3) := s2.rangeLines e o (k % (n + 1))
      { s3 with rm := tblSet s3.rm (rmIndex e) o3 }.setReg (rmStat e) (rmStatWord (n - o3.lines) o3.skipped true 1)

/-- A range operation ended (07 R189-R191): the rest of the walk, its code, and the doorbell. -/
def State.rmFinish (s : State) (e : RangeEngine) : State :=
  match tblGet? s.rm (rmIndex e) with
  | none => s
  | some o =>
    let n := s.fld (rmStat e) 32 32 + o.lines
    let (s1, o1) := s.rangeLines e o o.lines
    let code := if o1.poison then 6 else if o1.skipped ≠ 0 then 3 else 2
    let s2 := { s1 with rm := tblErase s1.rm (rmIndex e) }.setReg (rmStat e) (rmStatWord n o1.skipped false code)
    let s3 := if code = 2 then s2 else s2.raise (rmSource e)
    match o1.doorbell with
    | some (t, b) => s3.ring t b
    | none => s3

/-- A range operation stopped by a reset (07 R190): ABORTED_RESET, the lines done as reached, no doorbell. -/
def State.rmAbort (s : State) (e : RangeEngine) : State :=
  match tblGet? s.rm (rmIndex e) with
  | none => s
  | some o =>
    ({ s with rm := tblErase s.rm (rmIndex e) }.setReg (rmStat e)
      (rmStatWord (s.fld (rmStat e) 32 32) o.skipped false 4)).raise (rmSource e)

/-- The enables of the lockable ways written (07 R182): dropped whole above 12; a way no longer enabled loses its locks. -/
def State.lockenWrite (s : State) (u : CacheUnit) (v : Nat) : State :=
  let en := v % 65536
  if 12 < popCount en 16 then s
  else
    let f : Cache → Cache := fun c =>
      { c with slots := tblMap (fun k x => if bitOf en (k % 16) then x else
          (if x.valid then { x with locked := false } else CacheSlot.empty)) c.slots }
    match u with
    | .l2 c => (s.setReg (Off.l2Locken c) en).onL2 c f
    | .slice i => (s.setReg (Off.scLocken i) en).onSc i f

end Sys2Proof.Machine
end

