-- ==== Sys2Proof/Machine/Sparing.lean ====
section
/-! DEFINITION. The sparing map (17 R443-R447): an entry added when a unit is condemned, and what SPARE_STAT shows. -/

namespace Sys2Proof.Machine

/-- Whether the sparing map condemns a unit. -/
def State.condemned (s : State) (kind group unit : Nat) : Bool :=
  s.svc.map.any fun e => e.kind == kind && e.group == group && e.unit == unit

/-- The field of SPARE_STAT that counts the spares of a kind (17 R444, R454): place and width; kinds 1 and 8 share the cores,
5 to 7 the engines; 10 stands for journal rows and 11 for DRAM, which the fuses do not hold (R438). -/
def spareField (kind : Nat) : Nat × Nat :=
  match kind with
  | 1 => (0, 6)
  | 2 => (6, 5)
  | 3 => (11, 6)
  | 4 => (17, 7)
  | 8 => (0, 6)
  | 9 => (28, 4)
  | 10 => (32, 11)
  | 11 => (43, 8)
  | _ => (24, 4)

/-- One spare fewer in a field of SPARE_STAT. -/
def State.spareTaken (s : State) (lo w : Nat) : State := s.setFld Off.spareStat lo w (s.fld Off.spareStat lo w - 1)

/-- The kind number of 17 R438, by the kind code of the sparing map (R444). -/
def spareIndex (kind : Nat) : Nat :=
  match kind with
  | 1 => 0
  | 2 => 1
  | 3 => 2
  | 4 => 3
  | 8 => 0
  | 9 => 5
  | 10 => 6
  | 11 => 7
  | _ => 4

/-- A spare taken in: one fewer in SPARE_STAT, and the SPARE_USED event with the source of the fault (14 R394). -/
def State.spareUsed (s : State) (kind source : Nat) : State :=
  let (lo, w) := spareField kind
  let s1 := s.spareTaken lo w
  s1.event 6 source (spareIndex kind) (s1.fld Off.spareStat lo w) (s.sourceOwners source)

/-- SPARE_EXHAUSTED (14 R394). -/
def State.spareGone (s : State) (kind source : Nat) : State := s.event 7 source (spareIndex kind) 0 (s.sourceOwners source)

/-- A condemnation recorded in the NVJ copy of the sparing map (17 R445), once; the fuse copy follows. `spare` says whether a
spare takes its place, and `source` is the event source of the fault. -/
def State.condemn (s : State) (kind group unit source : Nat) (spare : Bool) : State :=
  if s.condemned kind group unit then s
  else
    let ent : SpareEnt := ⟨kind, group, unit, false⟩
    let s1 : State := { s with svc := { s.svc with map := s.svc.map ++ [ent] } }
    if spare then s1.spareUsed kind source else s1.spareGone kind source

end Sys2Proof.Machine
end

