-- ==== Sys2Proof/Machine/CacheErr.lean ====
section
/-! DEFINITION. Cache errors, way retirement, durable regions (07 R193-R203) and machine checks (16 R425). -/

namespace Sys2Proof.Machine

/-- A machine check made pending (16 R425): MC_STAT of the slot records the first cause. -/
def State.machineCheck (s : State) (n cause addr : Nat) : State :=
  let s1 := if n < 96 then s.logCause (Off.mcStat (n / 6) (n % 6)) cause 0 else s
  s1.errInput n 2 cause addr

/-- A cache that exists. -/
def unitExists : CacheUnit → Bool
  | .l2 c => decide (c < 16)
  | .slice i => decide (i < 32)

/-- The cache of a unit. -/
def State.cache (s : State) : CacheUnit → Cache
  | .l2 c => s.l2c c
  | .slice i => s.scs i

/-- The state with the cache of a unit changed. -/
def State.onCache (s : State) (u : CacheUnit) (f : Cache → Cache) : State :=
  match u with
  | .l2 c => s.onL2 c f
  | .slice i => s.onSc i f

/-- L2_ERRCNT_i or SC_ERRCNT_i. -/
def errcntOff : CacheUnit → Nat → Nat
  | .l2 c, i => Off.l2Errcnt c i
  | .slice k, i => Off.scErrcnt k i
/-- The threshold register. -/
def errcfgOff : CacheUnit → Nat
  | .l2 c => Off.l2Errcfg c
  | .slice i => Off.scErrcfg i
/-- The error register. -/
def cerrOff : CacheUnit → Nat
  | .l2 c => Off.l2Err c
  | .slice i => Off.scErr i
/-- The status register. -/
def cstatOff : CacheUnit → Nat
  | .l2 c => Off.l2Stat c
  | .slice i => Off.scStat i
/-- The way map. -/
def waymapOff : CacheUnit → Nat
  | .l2 c => Off.l2Waymap c
  | .slice i => Off.scWaymap i

/-- The source of a cache event (07 R202): 11 correctable, 12 uncorrectable, 13 way retired or spares exhausted. -/
def cacheSource : CacheUnit → Nat → Nat
  | .l2 c, k => 16 * c + k
  | .slice i, _ => 680 + i

/-- The kind and group of the sparing map for a way (17 R444). -/
def wayKind : CacheUnit → Nat × Nat
  | .l2 c => (3, c)
  | .slice i => (4, i)

/-- A cache event recorded and raised; a corrected error, causes 1 and 2, is counted by Lens (19 R489, R490). -/
def State.cacheEvent (s : State) (u : CacheUnit) (src cause set phys : Nat) : State :=
  let k := bit01 (cause == 1 || cause == 2)
  let s1 := match u with
    | .l2 c => s.countCl c 7 k
    | .slice i => s.countSc i 5 k
  (s1.logCause (cerrOff u) cause (set * 2 ^ 32 + phys * 65536)).raise (cacheSource u src)

/-- The logical way that a physical way serves (07 R179, L2_WAYMAP). -/
def State.logicalWay (s : State) (u : CacheUnit) (phys : Nat) : Option Nat :=
  let m := waymapOff u
  if phys < 16 then (if s.flag m phys then none else some phys)
  else if phys = 16 then (if s.fld m 32 5 < 16 then some (s.fld m 32 5) else none)
  else if phys = 17 then (if s.fld m 40 5 < 16 then some (s.fld m 40 5) else none)
  else none

/-- The spare physical way that a retirement takes: 16 before 17 (07 R198). -/
def State.spareWay (s : State) (u : CacheUnit) (phys : Nat) : Option Nat :=
  let m := waymapOff u
  let free : Nat → Bool := fun q => q != phys && !s.flag m q && (s.logicalWay u q).isNone
  if free 16 then some 16 else if free 17 then some 17 else none

/-- A physical way whose counter reached the threshold (07 R198, R199): its retirement starts, waits for another's end, or
SPARE_EXHAUSTED is recorded once. -/
def State.retireWay (s : State) (u : CacheUnit) (phys : Nat) : State :=
  let x := s.cache u
  match s.logicalWay u phys with
  | none => s
  | some j =>
    match x.retiring with
    | some (_, p, _) =>
      if p = phys ∨ x.waiting.contains phys then s
      else s.onCache u fun y => { y with waiting := y.waiting ++ [phys] }
    | none =>
      match s.spareWay u phys with
      | some q => (s.onCache u fun y => { y with retiring := some (j, phys, q) }).setFlag (cstatOff u) 2 true
      | none =>
        if x.exhausted then s
        else ((s.onCache u fun y => { y with exhausted := true }).cacheEvent u 13 7 0 phys).spareGone (wayKind u).1
          (cacheSource u 13)

/-- The counter of a physical way. -/
def State.wayCnt (s : State) (u : CacheUnit) (phys : Nat) : Nat := s.fld (errcntOff u (phys / 8)) (8 * (phys % 8)) 8

/-- The counter of a physical way set, with what reaching the threshold starts (07 R197). -/
def State.setWayCnt (s : State) (u : CacheUnit) (phys v : Nat) : State :=
  let s1 := s.setFld (errcntOff u (phys / 8)) (8 * (phys % 8)) 8 v
  if s.wayCnt u phys < v && decide (s.fld (errcfgOff u) 0 8 ≤ v) then s1.retireWay u phys else s1

/-- Whether the line in a slot has been read by a scrub: the slot number of a set and physical way, if it serves a way. -/
def State.slotOf (s : State) (u : CacheUnit) (set phys : Nat) : Option Nat :=
  (s.logicalWay u phys).map fun j => set * 16 + j

/-- A line that met an uncorrectable error while dirty: poisoned (07 R195); a reservation on it clears. -/
def State.poisonLine (s : State) (line : Nat) : State :=
  { s with poison := if s.poison.contains line then s.poison else s.poison ++ [line] }.clearRsv line fun _ => true

/-- The clusters whose L2 holds a line of a slice. -/
def State.sliceOwners (s : State) (i set : Nat) : List Nat :=
  clusters.filter fun c => (s.l2c c).slots.any fun e =>
    e.2.valid && (match e.2.line with | some l => sliceOf l == i && scSet l == set | none => false)

/-- An uncorrectable tag error (07 R195): the slot invalidated, its dirty content lost; a machine check where the dirty bit
cannot be trusted; the way's counter set to the threshold. -/
def State.tagError (s : State) (u : CacheUnit) (set phys j : Nat) (trust : Bool) : State :=
  let k := set * 16 + j
  let x := (s.cache u).slot k
  let s1 := match u, x.valid, x.line with
    | .l2 c, true, some l =>
      let t := ((s.l1Invalidate c l).clearRsv l fun n => n / 6 == c)
      let t1 := t.onL2 c fun y => y.setSlot k ⟨none, false, false, x.locked⟩
      if x.dirty then t1.l2Discard l else t1
    | .slice i, true, some l =>
      let t := s.onSc i fun y => y.setSlot k ⟨none, false, false, x.locked⟩
      if x.dirty && (s.holders l).isEmpty then t.allDiscard l else t
    | _, _, _ => s
  let told := if trust then [] else match u with
    | .l2 c => [c]
    | .slice i => s.sliceOwners i set
  let cause := match u with | .l2 _ => 1 | .slice _ => 2
  let s2 := told.foldl (fun t c => (List.range (t.slots c)).foldl (fun t k => t.machineCheck (6 * c + k) cause 0) t) s1
  let s3 := s2.setWayCnt u phys (max (s2.wayCnt u phys) (s2.fld (errcfgOff u) 0 8))
  s3.cacheEvent u 12 5 set phys

/-- What a read or a scrub of a slot finds, acted on (07 R194-R197). -/
def State.eccRead (s : State) (u : CacheUnit) (set phys : Nat) (f : EccFind) : State :=
  match s.logicalWay u phys with
  | none => s
  | some j =>
    let x := (s.cache u).slot (set * 16 + j)
    let cnt := satAdd (s.wayCnt u phys) 1 255
    match f with
    | .clean => s
    | .correctableData => (s.setWayCnt u phys cnt).cacheEvent u 11 1 set phys
    | .correctableTag => (s.setWayCnt u phys cnt).cacheEvent u 11 2 set phys
    | .uncorrectableData =>
      (match x.valid, x.line with
        | true, some l =>
          if x.dirty then (s.poisonLine l).cacheEvent u 12 4 set phys
          else (s.clearRsv l fun _ => true).cacheEvent u 12 3 set phys
        | _, _ => s)
    | .uncorrectableTag trust => s.tagError u set phys j trust

/-- The bits of the way map after a retirement of a physical way onto a spare one. -/
def waymapAfter (v j phys spare : Nat) : Nat :=
  let v1 := setBit v phys true
  let v2 := if phys = 16 then setBits v1 32 5 0x1F else if phys = 17 then setBits v1 40 5 0x1F else v1
  if spare = 16 then setBits v2 32 5 j else setBits v2 40 5 j

/-- The lines valid in a logical way of a cache. -/
def Cache.linesIn (c : Cache) (j : Nat) : List Nat :=
  c.slots.filterMap fun e => if e.1 % 16 = j ∧ e.2.valid then e.2.line else none

/-- Retirement of a logical way done (07 R198 steps 3 and 4): its dirty lines written back, its lines and locks on the spare
way, reservations on them cleared (06 R170), the map updated, the event raised; then the next waiting way. -/
def State.retireDone (s : State) (u : CacheUnit) : State :=
  match (s.cache u).retiring with
  | none => s
  | some (j, phys, spare) =>
    let moved := (s.cache u).linesIn j
    let s1 := moved.foldl (fun t l =>
      match u with
      | .l2 c => (t.lineClean c l).clearRsv l fun n => n / 6 == c
      | .slice i =>
        (t.scWriteBack l).onSc i fun y => { y with
          slots := tblMap (fun _ z => if z.valid && z.line == some l then { z with dirty := false } else z) y.slots }) s
    let m := waymapOff u
    let s2 := s1.setReg m (waymapAfter (s1.reg m) j phys spare)
    let next := (s2.cache u).waiting
    let s3 := ((s2.onCache u fun y => { y with retiring := none, waiting := next.drop 1 }).setFlag (cstatOff u) 2 false).cacheEvent
      u 13 8 0 phys
    let s4 := s3.condemn (wayKind u).1 (wayKind u).2 phys (cacheSource u 13) true
    match next with
    | [] => s4
    | q :: _ => s4.retireWay u q

/-- Every counter of a cache less 1 (07 R197). -/
def State.decayCounters (s : State) (u : CacheUnit) : State :=
  (List.range 18).foldl (fun t w =>
    let v := t.wayCnt u w
    t.setFld (errcntOff u (w / 8)) (8 * (w % 8)) 8 (v - 1)) s

/-- The oldest entry of an eviction buffer written back (07 R193). -/
def State.evictNext (s : State) (u : CacheUnit) : State :=
  match (s.cache u).ebuf with
  | [] => s
  | l :: t =>
    match u with
    | .l2 c => (s.l2WriteBack l).onL2 c fun x => { x with ebuf := t }
    | .slice i => (s.scWriteBack l).onSc i fun x => { x with ebuf := t }

/-- The size in 64 KiB units of a durable region that counts (07 R200). -/
def State.durUnits (s : State) (i : Nat) : Nat := if s.flag (Off.dur i) 0 then s.fld (Off.dur i) 4 11 else 0

/-- DUR_i written (07 R200, R203): valid stays 0 for size 0 and where the total would pass 64 MiB. -/
def State.durWrite (s : State) (i v : Nat) : State :=
  let size := bits v 4 11
  let others := ((List.range 8).filter (· != i)).foldl (fun k m => k + s.durUnits m) 0
  let ok := bitOf v 0 && size != 0 && decide (others + size ≤ 1024)
  s.setReg (Off.dur i) (bits v 16 36 * 65536 + size * 16 + bit01 ok)

/-- Whether a line lies in a durable region. -/
def State.lineDurable (s : State) (line : Nat) : Bool :=
  (List.range 8).any fun i =>
    let r := Off.dur i
    s.flag r 0 && decide (s.fld r 16 36 * 65536 ≤ line) && decide (line + 64 ≤ (s.fld r 16 36 + s.fld r 4 11) * 65536)

/-- Every dirty line that a test names written back to DRAM from every L2, slice and eviction buffer (07 R200). -/
def State.writeBackAll (s : State) (p : Nat → Bool) : State :=
  let lines := (s.underL2.map (·.1) ++ s.underSc.map (·.1)).eraseDups
  (lines.filter p).foldl (fun t l => t.devClean l) s

/-- Returning data fills the oldest outstanding request of a cluster (07 R181). -/
def execCacheFill (c : Nat) (s : State) : Host.Outcome State Fault Refusal := forUnit c 16 s fun s => s.fillNext c

/-- An outcome for a cache that exists. -/
def forCache (u : CacheUnit) (s : State) (f : State → State) : Host.Outcome State Fault Refusal :=
  if unitExists u then .next (f s) else .refused .noSuchUnit

/-- The oldest write-back of an eviction buffer performed (07 R193). -/
def execEvictionDone (u : CacheUnit) (s : State) : Host.Outcome State Fault Refusal := forCache u s fun s => s.evictNext u

/-- A scrub read of one slot (07 R196). -/
def execScrub (u : CacheUnit) (set way : Nat) (f : EccFind) (s : State) : Host.Outcome State Fault Refusal :=
  forCache u s fun s => s.eccRead u set way f

/-- The decay of a cache's counters, one period over (07 R197). -/
def execEccCounterDecay (u : CacheUnit) (s : State) : Host.Outcome State Fault Refusal :=
  forCache u s fun s => s.decayCounters u

/-- The end of a way retirement (07 R198). -/
def execWayRetirement (u : CacheUnit) (s : State) : Host.Outcome State Fault Refusal :=
  forCache u s fun s => s.retireDone u

/-- A range engine's end (07 R191). -/
def execRmDone (e : RangeEngine) (s : State) : Host.Outcome State Fault Refusal :=
  if rmExists e then .next (s.rmFinish e) else .refused .noSuchUnit

end Sys2Proof.Machine
end

