-- ==== Sys2Proof/Machine/Journal.lean ====
section
/-! DEFINITION. The non-volatile journal (08 R221-R226, R232, R240): records, the circular log with its carrying of live
records, write and verify with row sparing and bank degradation, what keeps a record live, and the scrub. -/

namespace Sys2Proof.Machine

/-- Slots of a bank (08 R221). -/
def nvjSlots : Nat := 524288

/-- Whether incarnation `a` is newer than `b` (08 R214). -/
def newer (a b : Nat) : Bool :=
  let d := (a + 65536 - b % 65536) % 65536
  decide (1 ≤ d) && decide (d ≤ 32767)

/-- The incarnation after one: 0x0001 to 0xFFFF and again 0x0001 (08 R214). -/
def nextInc (a : Nat) : Nat := if 0xFFFF ≤ a then 1 else a + 1

/-- The incarnation in a sequence number. -/
def seqInc (q : Nat) : Nat := q / 2 ^ 48 % 65536

/-- The count in a sequence number. -/
def seqCnt (q : Nat) : Nat := q % 2 ^ 48

/-- Whether a mark, the number below which all is done, passes a number. -/
def marks (low seq : Nat) : Bool :=
  if seqInc low = seqInc seq then decide (seqCnt seq < seqCnt low) else newer (seqInc low) (seqInc seq)

/-- The type byte of a record (08 R222). -/
def JBody.typ : JBody → Nat
  | .commit .. => 1
  | .member .. => 2
  | .groupCommit .. => 3
  | .deliver .. => 4
  | .ackmark .. => 5
  | .qconfig .. => 6
  | .ndmark .. => 7
  | .epoch .. => 8

/-- The part number that a record's queue field carries. -/
def JBody.part : JBody → Nat
  | .qconfig p _ _ _ => p
  | _ => 0

/-- The 24 body bytes of a record (08 R222). -/
def JBody.bytes : JBody → List Byte
  | .commit c q d b f k => natBytes 4 c ++ natBytes 8 q ++ natBytes 4 d ++ natBytes 4 b ++ natBytes 4 (f % 16 + k % 16 * 16)
  | .member c q d b f i l =>
    natBytes 4 c ++ natBytes 8 q ++ natBytes 4 d ++ natBytes 4 b ++ natBytes 4 (f % 16 + i % 16 * 16 + l % 16 * 256)
  | .groupCommit c n => natBytes 4 c ++ natBytes 1 n ++ natBytes 19 0
  | .deliver f q r => natBytes 4 f ++ natBytes 8 q ++ natBytes 4 r ++ natBytes 8 0
  | .ackmark f l => natBytes 4 f ++ natBytes 8 l ++ natBytes 12 0
  | .qconfig _ a b c => natBytes 8 a ++ natBytes 8 b ++ natBytes 8 c
  | .ndmark r t => natBytes 4 r ++ natBytes 4 t ++ natBytes 16 0
  | .epoch k t => natBytes 4 k ++ natBytes 8 t ++ natBytes 12 0

/-- The 32 bytes that a record's slot holds in both banks (08 R222). -/
def JRec.bytes (r : JRec) : List Byte :=
  let b := natBytes 1 r.body.typ ++ natBytes 1 (bit01 r.carried + r.slot / nvjSlots % 128 * 2) ++
    natBytes 2 (r.q % 4096 + r.body.part * 4096) ++ r.body.bytes
  b ++ natBytes 4 (crc32c b)

/-- A record that keeps its queue's QCONFIG live (08 R223). -/
def JBody.ofFlow : JBody → Bool
  | .commit .. => true
  | .member .. => true
  | .deliver .. => true
  | _ => false

/-- A record that an ACKMARK of a flow ends (08 R223). Flow numbers 16 and up are the receiving direction of flow block
number less 16: the two directions of a block have incarnations of their own. DESIGN CHOICE, log 35. -/
def JBody.endedBy (flow low : Nat) : JBody → Bool
  | .commit _ q _ _ f _ => f == flow && marks low q
  | .member _ q _ _ f _ _ => f == flow && marks low q
  | .deliver f q _ => f == flow && marks low q
  | .ackmark f _ => f == flow
  | _ => false

/-- Whether a MEMBER of the group whose member 0 is in slot count `c` of queue `q` lives. -/
def Nvj.memberLive (n : Nvj) (q c : Nat) : Bool :=
  n.live.any fun r => r.q == q && (match r.body with | .member k _ _ _ _ i _ => cnt32 k i == c | _ => false)

/-- Records that nothing keeps any more removed (08 R223): a QCONFIG of a disabled queue with no record of a flow, a
GROUP_COMMIT with no MEMBER. -/
def Nvj.settle (n : Nvj) : Nvj :=
  { n with live := n.live.filter fun r =>
      match r.body with
      | .qconfig .. => !n.off.contains r.q || n.live.any fun x => x.q == r.q && x.body.ofFlow
      | .groupCommit c _ => n.memberLive r.q c
      | _ => true }

/-- The state with the journal changed, and TW_STAT.live and the live limit following: source 532 once each time the limit is
reached (08 R224). -/
def State.onNvj (s : State) (f : Nvj → Nvj) : State :=
  let n := f s.nvj
  let lim := decide (s.fld Off.twCtrl 0 20 ≤ n.live.length)
  let s1 := { s with nvj := { n with atLimit := lim } }.setFld Off.twStat 32 20 n.live.length
  if lim && !s.nvj.atLimit then s1.raise 532 else s1

/-- Records that a test names end. -/
def State.nvjEnd (s : State) (p : JRec → Bool) : State :=
  s.onNvj fun n => { n with live := n.live.filter fun r => !p r }.settle

/-- The COMMIT or MEMBER of a transaction ends (08 R223). -/
def State.nvjEndTxn (s : State) (q count : Nat) : State :=
  s.nvjEnd fun r => r.q == q && (match r.body with
    | .commit c .. => c == count
    | .member c .. => c == count
    | _ => false)

/-- The head moved on, with the wear warning of NVJ_CFG (08 R240). -/
def State.nvjHead (s : State) (h : Nat) : State :=
  let w := h / nvjSlots
  let s1 := { s with nvj := { s.nvj with head := h } }.setReg Off.nvjWear w
  let warn := s.fld Off.nvjCfg 0 16
  if warn ≠ 0 ∧ warn * 10 ^ 9 ≤ w ∧ !s.nvj.warned then
    { s1 with nvj := { s1.nvj with warned := true } }.raise 735
  else s1

/-- At the start of a row, the live records of the next row rewritten at the head as carried (08 R224), so that the head
always enters a row of dead records. -/
def State.nvjCarry (s : State) : Nat → State
  | 0 => s
  | fuel + 1 =>
    let n := s.nvj
    if n.head % 32 ≠ 0 then s
    else
      let old := n.live.filter fun (r : JRec) => decide (r.slot + nvjSlots < n.head + 64)
      if old.isEmpty then s
      else
        let moved := ((List.range old.length).zip old).map fun (e : Nat × JRec) =>
          { e.2 with slot := n.head + e.1, carried := true, okA := !n.degA, okB := !n.degB }
        ({ s with nvj := { n with live := (n.live.filter fun (r : JRec) => !decide (r.slot + nvjSlots < n.head + 64)) ++ moved } }.nvjHead
          (n.head + old.length)).countHub 0 6 old.length |>.nvjCarry fuel

/-- One slot taken at the head. -/
def State.nvjTake (s : State) : State := (s.nvjHead (s.nvj.head + 1)).nvjCarry 16384

/-- A row of a bank retired to a spare row, or the bank degraded (08 R225). -/
def State.nvjSpare (s : State) (bankB : Bool) : State :=
  let n := s.nvj
  if bankB then
    if n.spareB < 656 then
      (({ s with nvj := { n with spareB := n.spareB + 1 } }).spareUsed 10 732).raise 732
    else ({ s with nvj := { n with degB := true } }.spareGone 10 734).raise 734
  else
    if n.spareA < 656 then
      (({ s with nvj := { n with spareA := n.spareA + 1 } }).spareUsed 10 732).raise 732
    else ({ s with nvj := { n with degA := true } }.spareGone 10 734).raise 734

/-- The writes of one record, at most four (08 R225): its slot where one of them is verified in every live bank. `again` says
that the write before failed in both live banks. -/
def State.nvjTry (s : State) (again : Bool) (nv : Verifies) : Nat → State × Option Nat × Verifies
  | 0 => (s, none, nv)
  | k + 1 =>
    let n := s.nvj
    if n.degA && n.degB then (s, none, nv)
    else
      let v := nv.headD (true, true)
      let fa := !n.degA && !v.1
      let fb := !n.degB && !v.2
      let s1 := s.nvjTake
      if !fa && !fb then (s1, some n.head, nv.tail)
      else if fa && fb then (if again then (s1, none, nv.tail) else s1.nvjTry true nv.tail k)
      else (s1.nvjSpare fb).nvjTry false nv.tail k

/-- The records that a new record ends (08 R223): an ACKMARK passes those of its flow, a QCONFIG part replaces the same part,
an NDMARK the queue's former one. -/
def JBody.replaces (b : JBody) (q : Nat) (r : JRec) : Bool :=
  match b with
  | .ackmark f l => r.q == q && r.body.endedBy f l
  | .qconfig p .. => r.q == q && (match r.body with | .qconfig p' .. => p' == p | _ => false)
  | .ndmark .. => r.q == q && (match r.body with | .ndmark .. => true | _ => false)
  | _ => false

/-- A record written (08 R222, R225): whether it counts as written, and the verify results left. -/
def State.nvjWrite (s : State) (q : Nat) (b : JBody) (nv : Verifies) : State × Bool × Verifies :=
  match s.nvjTry false nv 4 with
  | (s1, none, nv1) => (s1, false, nv1)
  | (s1, some slot, nv1) =>
    ((s1.countHub 0 5 1).onNvj fun n =>
      let rec_ : JRec := ⟨slot, false, q, b, !n.degA, !n.degB⟩
      let n1 := { n with
        live := (n.live.filter fun r => !b.replaces q r) ++ [rec_],
        off := match b with | .qconfig .. => n.off.filter (· != q) | _ => n.off }
      (match b with
        | .epoch k _ => { n1 with epoch := some (k, slot), cold := if k = 3 then some slot else n1.cold }
        | _ => { n1 with last := slot + 1 }).settle, true, nv1)

/-- Records written one after another until one fails. -/
def State.nvjWriteAll (s : State) (q : Nat) (nv : Verifies) : List JBody → State × Bool × Verifies
  | [] => (s, true, nv)
  | b :: t =>
    match s.nvjWrite q b nv with
    | (s1, true, nv1) => s1.nvjWriteAll q nv1 t
    | r => r

/-- An EPOCH record of a kind written (08 R232): 1 WARM, 2 SAG, 3 COLD, 4 POWERDOWN. -/
def State.nvjEpoch (s : State) (kind : Nat) : State := (s.nvjWrite 0 (.epoch kind s.now) []).1

/-- NVJ_STAT (08 R240), its ready bit as stored. -/
def State.nvjStatVal (s : State) : Nat :=
  s.nvj.spareB * 2 ^ 32 + s.nvj.spareA * 65536 + bit01 s.nvj.degB * 4 + bit01 s.nvj.degA * 2 + s.fld Off.nvjStat 0 1

/-- A scrub's finding in one bank acted on (08 R225): corrected, or replaced by the other bank's copy. -/
def State.nvjScrubBank (s : State) (f other : NvjFind) : State :=
  match f, other with
  | .clean, _ => s
  | .correctable, _ => s.raise 732
  | .uncorrectable, .uncorrectable => s
  | .uncorrectable, _ => s.raise 733

/-- A scrub read of one row of both banks (08 R225): a bank that is degraded has no copy. A row unreadable in both banks loses
the records it holds. -/
def execNvjScrub (row : Nat) (a b : NvjFind) (s : State) : Host.Outcome State Fault Refusal :=
  forUnit row 16384 s fun s =>
    let n := s.nvj
    let fa := if n.degA then .uncorrectable else a
    let fb := if n.degB then .uncorrectable else b
    let s1 := if n.degA then s else s.nvjScrubBank a fb
    let s2 := if n.degB then s1 else s1.nvjScrubBank b fa
    if fa = .uncorrectable ∧ fb = .uncorrectable then
      let s3 := { s2 with nvj := { n with live := n.live.map fun r =>
        if r.slot / 32 % 16384 = row then { r with okA := false, okB := false } else r } }
      if n.live.any fun r => r.slot / 32 % 16384 == row then s3.raise 734 else s3
    else s2

end Sys2Proof.Machine
end

