-- ==== Sys2Proof/Machine/Queues.lean ====
section
/-! DEFINITION. Transaction queues (08 R204-R210, R214, R230, R231, R238, R239): access to a queue's parts, flow blocks,
memory as engines reach it, completion records and notifications. -/

namespace Sys2Proof.Machine

/-- The status codes of 08 R231. -/
inductive TStat where
  | ok | badDescriptor | bufferFault | busFault | timeout | noBuffer | unreachable | durabilityMismatch | expired | truncated
  | abortedGroup | abortedReset | lostByReset | peerReset | lostMemory | cancelled | journalFault | flowLimit | queueClosed
  deriving DecidableEq, Repr

/-- The value of a status code. -/
def TStat.code : TStat → Nat
  | .ok => 0 | .badDescriptor => 1 | .bufferFault => 2 | .busFault => 3 | .timeout => 4 | .noBuffer => 5 | .unreachable => 6
  | .durabilityMismatch => 7 | .expired => 8 | .truncated => 9 | .abortedGroup => 0xA | .abortedReset => 0xB
  | .lostByReset => 0xC | .peerReset => 0xD | .lostMemory => 0xE | .cancelled => 0xF | .journalFault => 0x10
  | .flowLimit => 0x11 | .queueClosed => 0x12

/-- A queue beside its registers. -/
def State.tq (s : State) (q : Nat) : TQueue := tblGetD s.tqs q TQueue.empty

/-- The state with a queue changed. -/
def State.onTq (s : State) (q : Nat) (f : TQueue → TQueue) : State := { s with tqs := tblSet s.tqs q (f (s.tq q)) }

/-- The fields of TQ_CFG (08 R239). -/
def State.tqOn (s : State) (q : Nat) : Bool := s.flag (Off.tqCfg q) 63
/-- Durable queue. -/
def State.tqDurable (s : State) (q : Nat) : Bool := s.flag (Off.tqCfg q) 62
/-- The master ID that rings the doorbell. -/
def State.tqOwner (s : State) (q : Nat) : Nat := s.fld (Off.tqCfg q) 50 12
/-- Logical engine. -/
def State.tqEngine (s : State) (q : Nat) : Nat := s.fld (Off.tqCfg q) 46 4
/-- Slots of the descriptor ring. -/
def State.tqSlots (s : State) (q : Nat) : Nat := 2 ^ s.fld (Off.tqRing q) 0 5
/-- Address of the descriptor in a slot count (08 R206). -/
def State.tqSlotAddr (s : State) (q count : Nat) : Nat := s.fld (Off.tqRing q) 12 40 * 4096 + count % s.tqSlots q * 64
/-- Flow blocks of the queue. -/
def State.tqBlocks (s : State) (q : Nat) : Nat := s.fld (Off.tqState q) 0 5 % 16 + 1

/-- The physical engine that serves a logical engine (08 R204, TW_ENGMAP). -/
def State.tePhys (s : State) (e : Nat) : Nat := s.fld (Off.twEngmap (e / 8)) (8 * (e % 8)) 5

/-- The state of a physical engine, TE_STAT.state. -/
def State.teState (s : State) (i : Nat) : Nat := s.fld (Off.teStat i) 0 2

/-- Whether a logical engine dispatches: its physical engine is ACTIVE, not condemned and not handing over (08 R236). -/
def State.teServes (s : State) (e : Nat) : Bool := s.teState (s.tePhys e) == 1

/-- An event of a queue recorded in TW_ERR, with source 530 for the causes that 08 R238 names. -/
def State.twErr (s : State) (q cause : Nat) : State :=
  let s1 := s.logCause Off.twErr cause (q * 2 ^ 32)
  if cause ≤ 5 then s1.raise 530 else s1

/-- Bytes that an engine, a port or the mailbox block reads (15 R405): none outside installed DRAM, or poisoned. -/
def State.dmaRead (s : State) (a n : Nat) : Option (List Byte) :=
  if a + n ≤ s.installed ∧ !s.poisoned a n then some (s.agentRead a n) else none

/-- A write of an engine, a port or the mailbox block: none outside installed DRAM. -/
def State.dmaWrite (s : State) (a : Nat) (bs : List Byte) : Option State :=
  if a + bs.length ≤ s.installed then some (s.agentWrite a bs) else none

/-- A little-endian field of bytes. -/
def fieldLE (bs : List Byte) (off n : Nat) : Nat := leNat ((bs.drop off).take n)

/-- The bytes of a range lie wholly in the durable regions (07 R200, 08 R218). -/
def State.rangeDurable (s : State) (a n : Nat) : Bool := (linesOf a n).all fun l => s.lineDurable l

/-- A flow block of a queue. -/
def State.flow? (s : State) (q i : Nat) : Option Flow := tblGet? (s.tq q).flows i

/-- The state with a flow block changed. -/
def State.onFlow (s : State) (q i : Nat) (f : Flow → Flow) : State :=
  match s.flow? q i with
  | some x => s.onTq q fun t => { t with flows := tblSet t.flows i (f x) }
  | none => s

/-- The flow block that a target has (08 R205). -/
def State.flowOf (s : State) (q target : Nat) : Option Nat :=
  ((s.tq q).flows.find? fun e => e.2.target == target).map (·.1)

/-- The next free flow block of a queue (08 R205). -/
def State.flowFree (s : State) (q : Nat) : Option Nat :=
  (List.range (s.tqBlocks q)).find? fun i => (tblGet? (s.tq q).flows i).isNone

/-- A flow just opened. -/
def Flow.new (target : Nat) : Flow := ⟨target, 1, 0, 1, [], 0, 0, 0, 0⟩

/-- The flow block of a target, opened in the next free block where it has none (08 R205); none where every block is in use. -/
def State.flowOpen (s : State) (q target : Nat) : Option (State × Nat) :=
  match s.flowOf q target with
  | some i => some (s, i)
  | none =>
    match s.flowFree q with
    | some i => some (s.onTq q fun t => { t with flows := tblSet t.flows i (Flow.new target) }, i)
    | none => none

/-- The flow blocks of a disabled queue that no open transaction holds closed (08 R205). -/
def State.flowsClose (s : State) (q : Nat) : State :=
  if s.tqOn q then s
  else s.onTq q fun t => { t with flows := t.flows.filter fun e => t.opens.any fun x => x.flow == e.1 && x.seq != 0 }

/-- Open transactions of a logical engine shown in TE_STAT.open: those of the queues that it serves. -/
def State.teOpen (s : State) (e : Nat) : Nat :=
  s.tqs.foldl (fun k t => if s.tqEngine t.1 = e then k + t.2.opens.length else k) 0

/-- The notification of a completion (08 R239, 15 R401, R402): a doorbell, or for a host function a doorbell bit or a vector
of its own; a vector beyond its last is recorded in HP_ERR. -/
def State.twNotify (s : State) (owner target bit : Nat) : State :=
  if isHostFn owner then
    if target < 32 then s.ring owner target
    else if target < msixCount owner then s.msix owner target
    else (s.logCause Off.hpErr 9 (owner * 2 ^ 32)).raise 766
  else s.ring target bit

/-- TQ_RETIRE moved over the leading slots whose records are written (08 R206). -/
def State.tqRetireUp (s : State) (q : Nat) : Nat → State
  | 0 => s
  | fuel + 1 =>
    let r := s.reg (Off.tqRetire q)
    if (s.tq q).done.contains r then
      ((s.setReg (Off.tqRetire q) ((r + 1) % 2 ^ 32)).onTq q fun t => { t with done := t.done.filter (· != r) }).tqRetireUp q fuel
    else s

/-- The first completion that waits, written where the ring has room (08 R206, R207, R219): the record goes through to DRAM,
the counts move, and the notification follows (06 R172). -/
def State.tqWriteOne (s : State) (q : Nat) : Option State :=
  match (s.tq q).waiting with
  | [] => none
  | (count, bs, ntf) :: rest =>
    let n := 2 ^ s.fld (Off.tqCq q) 0 5
    let tail := s.reg (Off.tqCqtail q)
    if cnt32 tail (s.reg (Off.tqCqhead q)) < n then
      let a := s.fld (Off.tqCq q) 12 40 * 4096 + tail % n * 32
      let s1 := match s.dmaWrite a bs with
        | some t => t.devClean (lineOf a)
        | none => s
      let ret := s.reg (Off.tqRetire q)
      let posted := decide (cnt32 count ret < cnt32 (s.reg (Off.tqTail q)) ret)
      let s2 := (s1.setReg (Off.tqCqtail q) ((tail + 1) % 2 ^ 32)).onTq q fun t =>
        { t with waiting := rest, done := if posted then t.done ++ [count] else t.done }
      let s3 := s2.tqRetireUp q ((s2.tq q).done.length)
      some (if ntf then s3.twNotify (s.tqOwner q) (s.fld (Off.tqCfg q) 29 12) (s.fld (Off.tqCfg q) 24 5) else s3)
    else none

/-- Completions written while the ring has room, and TQ_STAT.cq_full. -/
def State.tqFlush (s : State) (q : Nat) : Nat → State
  | 0 => s.setFlag (Off.tqStat q) 2 (!(s.tq q).waiting.isEmpty)
  | fuel + 1 =>
    match s.tqWriteOne q with
    | some s1 => s1.tqFlush q fuel
    | none => s.setFlag (Off.tqStat q) 2 (!(s.tq q).waiting.isEmpty)

/-- A completion record (08 R230). -/
def recordBytes (q : Nat) (t : Txn) (status value : Nat) (stamp : List Byte) (exch : Bool) : List Byte :=
  natBytes 1 status ++ natBytes 1 (t.kind % 16 + (if t.kind = 5 then t.member % 16 * 16 else 0)) ++
    natBytes 2 (q + bit01 t.durable * 2 ^ 12 + bit01 t.resumed * 2 ^ 13 + bit01 t.late * 2 ^ 14 + bit01 exch * 2 ^ 15) ++
    natBytes 4 t.tag ++ natBytes 8 value ++ stamp

/-- A transaction completes (08 R206, R223, R230): its journal record dies, it is open no longer, its flow may close, and its
record takes its place after those that wait. -/
def State.txnEnd (s : State) (q : Nat) (t : Txn) (st : TStat) (value : Nat) (stamp : List Byte) (exch : Bool) : State :=
  let s1 := if t.durable then s.nvjEndTxn q t.count else s
  let ntf := bitOf t.flags 0 && s.flag (Off.tqCfg q) 41
  let s2 := s1.onTq q fun x => { x with
    opens := x.opens.filter fun y => y.count != t.count
    recvs := x.recvs.filter fun y => y.count != t.count
    waiting := x.waiting ++ [(t.count, recordBytes q t st.code value stamp exch, ntf)] }
  (s2.flowsClose q).tqFlush q ((s2.tq q).waiting.length)

/-- A transaction completes at a time of the Tradewind block, without a number given out. -/
def State.txnDone (s : State) (q : Nat) (t : Txn) (st : TStat) (value : Nat) : State :=
  s.txnEnd q t st value (s.ts80 0x18) false

/-- An open transaction of a queue. -/
def State.openTxn (s : State) (q count : Nat) : Option Txn := (s.tq q).opens.find? fun t => t.count == count

/-- The state with an open transaction of a queue changed. -/
def State.onTxn (s : State) (q count : Nat) (f : Txn → Txn) : State :=
  s.onTq q fun x => { x with opens := x.opens.map fun t => if t.count = count then f t else t }

/-- A transaction opened. -/
def State.txnOpen (s : State) (q : Nat) (t : Txn) : State := s.onTq q fun x => { x with opens := x.opens ++ [t] }

/-- TW_STAT.held and TQ_STAT.held follow why dispatch is held (08 R207, R239). -/
def State.setHeld (s : State) (q : Nat) (h : Option Hold) : State :=
  let s1 := (s.onTq q fun t => { t with held := h }).setFlag (Off.tqStat q) 1 h.isSome
  s1.setFlag Off.twStat 4 (s1.tqs.any fun e => e.2.held == some Hold.journal)

/-- A completion that waited for room is written (08 R207). -/
def execCompletionDeferredWrite (q : Nat) (s : State) : Host.Outcome State Fault Refusal :=
  forUnit q 4096 s fun s => s.tqFlush q ((s.tq q).waiting.length)

end Sys2Proof.Machine
end

