-- ==== Sys2Proof/Machine/Mailbox.lean ====
section
/-! DEFINITION. The mailbox block (13 R362-R377): bindings, posting, receiving, doorbell sets, and what its registers show. -/

namespace Sys2Proof.Machine

/-- The outcome of a post written to MBX_POST_STAT, the sequence of the last accepted message kept (13 R367). -/
def State.postCode (s : State) (ch code : Nat) : State :=
  s.setReg (Off.mbxPostStat ch) (s.fld (Off.mbxPostStat ch) 16 16 * 65536 + 16 + code)

/-- A staging word written (13 R367, R376): of word 0 only bits [63:44] are kept. -/
def State.mbxTx (s : State) (ch i v : Nat) : State :=
  s.onChan ch fun c => { c with staging := tblSet c.staging i (BitVec.ofNat 64 (if i = 0 then v / 2 ^ 44 * 2 ^ 44 else v)) }

/-- The staged words of a channel. -/
def Chan.words (c : Chan) : List (BitVec 64) := (List.range 8).map fun i => tblGetD c.staging i 0

/-- A write of MBX_POST (13 R367, R368): the outcome's code, and the staging words emptied. A blocking post to a full store
waits. -/
def State.mbxPost (s : State) (ch : Nat) (block : Bool) : State :=
  let c := s.chan ch
  let ws := c.words
  let s1 := s.onChan ch fun c => { c with staging := [] }
  if c.staging.length < 8 then s1.postCode ch 3
  else if 56 < bits (ws.headD 0).toNat 44 6 then s1.postCode ch 4
  else if !s.bindValid ch then s1.postCode ch 5
  else if c.store.length < 8 then s1.chanPut ch ws
  else if block then (s1.onChan ch fun c => { c with blocking := some ws }).countHub 2 1 1
  else (s1.postCode ch 1).countHub 2 1 1

/-- A blocking post that ends without room: TIMEOUT (2) or CLOSED (5). -/
def State.mbxAbandon (s : State) (ch code : Nat) : State :=
  if (s.chan ch).blocking.isSome then
    ((s.onChan ch fun c => { c with blocking := none }).postCode ch code).countHub 2 2 (bit01 (code == 2)) else s

/-- A write of MBX_RING (13 R370). -/
def State.mbxRingSet (s : State) (ch v : Nat) : State :=
  if bitOf v 0 && s.bindValid ch then s.ring (s.bindReceiver ch) (s.bindBit ch) else s

/-- The sequence number in a message's header. -/
def Msg.seq (m : Msg) : Nat := bits (m.words.headD 0).toNat 28 16

/-- An error of a channel recorded in MBX_ERR (13 R376). -/
def State.mbxErrLog (s : State) (ch cause master : Nat) : State := s.logCause (Off.mbxErr ch) cause (master * 65536)

/-- A write of MBX_POP (13 R371): the head removed where the number is its own; a blocking post that waits then has room. -/
def State.mbxPopWith (s : State) (master ch v : Nat) : State :=
  match (s.chan ch).store with
  | [] => s.mbxErrLog ch 2 master
  | m :: t =>
    if m.seq = v % 65536 then
      let s1 := s.onChan ch fun c => { c with store := t }
      match (s.chan ch).blocking with
      | some ws => (s1.onChan ch fun c => { c with blocking := none }).chanPut ch ws
      | none => s1
    else s.mbxErrLog ch 2 master

/-- A write of MBX_BIND (13 R363): nothing once locked; with the write that sets the lock its fields are dropped (00 R6,
DEDUCED, log 29); a change of sender or receiver is dropped while the store holds a message, and valid and db_bit still
change (DEDUCED, log 30). -/
def State.mbxBindWrite (s : State) (ch v : Nat) : State :=
  let off := Off.mbxBind ch
  let old := s.reg off
  if bitOf old 63 then s
  else if bitOf v 63 then s.setFlag off 63 true
  else
    let keep := !(s.chan ch).store.isEmpty
    let rcv := if keep then bits old 16 12 else bits v 16 12
    let snd := if keep then bits old 0 12 else bits v 0 12
    let s1 := s.setReg off (bits v 62 1 * 2 ^ 62 + bits v 32 5 * 2 ^ 32 + rcv * 65536 + snd)
    if !s1.bindValid ch then s1.mbxAbandon ch 5 else s1

/-- Whether some channel bound to a receiver and bit holds a message (13 R372). -/
def State.msgWaits (s : State) (m b : Nat) : Bool :=
  s.chans.any fun e => !e.2.store.isEmpty && s.bindReceiver e.1 == m && s.bindBit e.1 == b

/-- The bits of a doorbell set that its receiver sees follow a change of it. -/
def State.dbFollowAll (s : State) (m : Nat) (was : Nat → Bool) : State :=
  (List.range 32).foldl (fun t b => t.dbFollow m b (was b)) s

/-- A W1C write of DB_PEND (13 R372). -/
def State.dbClear (s : State) (m v : Nat) : State :=
  match dbOffsets m with
  | none => s
  | some (p, _) =>
    let s1 := (List.range 32).foldl (fun t b => if bitOf v b && !s.msgWaits m b then t.setFlag p b false else t) s
    s1.dbFollowAll m fun b => !bitOf v b && s.dbLevel m b

/-- A write of DB_MASK (13 R372): a bit that it unmasks is set pending where a bound channel holds a message. -/
def State.dbMaskSet (s : State) (m v : Nat) : State :=
  match dbOffsets m with
  | none => s
  | some (p, k) =>
    let s1 := s.setReg k (v % 2 ^ 32)
    let s2 := (List.range 32).foldl (fun t b =>
      if s.flag k b && !bitOf v b && s.msgWaits m b then t.setFlag p b true else t) s1
    s2.dbFollowAll m (s.dbLevel m)

/-- Word `i` of the head message, zero when the store is empty; none where the head is poisoned (13 R371). -/
def State.mbxRxWord (s : State) (ch i : Nat) : Option Nat :=
  match (s.chan ch).store with
  | [] => some 0
  | m :: _ => if m.poisoned then none else some ((m.words[i]?).getD 0).toNat

/-- MBX_RSTAT (13 R376). -/
def State.mbxRstatVal (s : State) (ch : Nat) : Nat :=
  let c := s.chan ch
  let e := s.epoch (s.bindSender ch)
  match c.store with
  | [] => e * 256
  | m :: _ => m.seq * 65536 + bit01 m.poisoned * 4096 + e * 256 + c.store.length

/-- The reset epoch of a master ID stepped (13 R365); it must send HELLO again (14 R386). -/
def State.bumpEpoch (s : State) (m : Nat) : State :=
  { s with
    epochs := tblSet s.epochs m ((s.epoch m + 1) % 16),
    reqs := tblMap (fun k r => if k = m then { r with hello := false } else r) s.reqs }

/-- A reset of a sender (13 R374): its staging words and its blocking posts are discarded, its epoch steps. -/
def State.senderReset (s : State) (m : Nat) : State :=
  { s with chans := tblMap (fun ch c => if s.bindSender ch = m then { c with staging := [], blocking := none } else c) s.chans
    }.bumpEpoch m

/-- A reset of a receiver (13 R374): its doorbell set at its reset value. -/
def State.receiverReset (s : State) (m : Nat) : State :=
  match dbOffsets m with
  | none => s
  | some (p, k) => ((s.setReg p 0).setReg k 0xFFFFFFFF).dbFollowAll m fun _ => false

/-- The master ID of a doorbell receiver, where it exists (13 R372). -/
def receiverId : Receiver → Option Nat
  | .slot c k => if c < 16 ∧ k < 6 then some (0x100 + 6 * c + k) else none
  | .cp i => if i < 2 then some (0x200 + i) else none
  | .host f => if f < 0x40 then some f else none

/-- A blocking post's timeout (13 R367). -/
def execPostTimeout (ch : Nat) (s : State) : Host.Outcome State Fault Refusal :=
  forUnit ch 4096 s fun s => s.mbxAbandon ch 2

/-- A doorbell change that waited for the pacing window (13 R373). -/
def execDoorbellPacedDelivery (r : Receiver) (bit : Nat) (s : State) : Host.Outcome State Fault Refusal :=
  match receiverId r with
  | none => .refused .noSuchUnit
  | some m =>
    if 32 ≤ bit then .refused .noSuchUnit
    else match masterLp m with
      | some n => .next (if s.dbReceiver m then s.dbDeliver n bit true else s)
      | none => .next s

end Sys2Proof.Machine
end

