-- ==== Sys2Proof/Machine/YafCore.lean ====
section
/-! DEFINITION. How Yafolo takes a command and answers it (14 R378-R389, R392, R393): the bindings of its channels, the layout of
arguments and results, the checks common to every command, and completions. -/

namespace Sys2Proof.Machine

/-- The completion codes (14 R393). -/
inductive Code where
  | ok | badOpcode | badArg | badLength | notPermitted | notOwner | noSuchObject | badState | busy | noResource | locked | noSpare
  | bufferFault | staleEpoch | abortedReset | imageInvalid | timeout | hwFault | bistFail | notOffline | linkDown | version
  deriving DecidableEq, Repr

/-- The value of a completion code. -/
def Code.num : Code → Nat
  | .ok => 0x00 | .badOpcode => 0x01 | .badArg => 0x02 | .badLength => 0x03 | .notPermitted => 0x04 | .notOwner => 0x05
  | .noSuchObject => 0x06 | .badState => 0x07 | .busy => 0x08 | .noResource => 0x09 | .locked => 0x0A | .noSpare => 0x0B
  | .bufferFault => 0x0C | .staleEpoch => 0x0D | .abortedReset => 0x0E | .imageInvalid => 0x0F | .timeout => 0x10 | .hwFault => 0x11
  | .bistFail => 0x12 | .notOffline => 0x13 | .linkDown => 0x14 | .version => 0x15

/-- Who may issue a command (14 R389): PF0 only; a function; a function or a logical processor. -/
inductive By where | pf0 | fn | any
  deriving DecidableEq, Repr

/-- What a command comes to: the state, the code, its detail (none where the manual states none: a free value), whether part of the
effect stands, the results, and whether the completion comes later, by the end of what the command has started. -/
structure Ans where
  st      : State
  code    : Code
  detail  : Option Nat
  applied : Bool
  res     : List Byte
  later   : Bool
  deriving Repr

/-- A command done (14 R382). -/
def Ans.ok (s : State) (res : List Byte) : Ans := ⟨s, .ok, none, true, res, false⟩

/-- A command that changed nothing, with a detail that the manual states. -/
def Ans.no (s : State) (c : Code) (detail : Nat) : Ans := ⟨s, c, some detail, false, [], false⟩

/-- A command that changed nothing, with no detail stated. -/
def Ans.un (s : State) (c : Code) : Ans := ⟨s, c, none, false, [], false⟩

/-- A command that has started and is not over. -/
def Ans.wait (s : State) : Ans := ⟨s, .ok, none, true, [], true⟩

/-- A number raised to a multiple of another. -/
def roundUp (n k : Nat) : Nat := (n + k - 1) / k * k

/-- Fields laid out in order, each at a multiple of its size (14 R381). -/
def packFields (fs : List (Nat × Nat)) : List Byte :=
  fs.foldl (fun bs f => bs ++ List.replicate (roundUp bs.length f.1 - bs.length) 0 ++ natBytes f.1 f.2) []

/-- The end offset of arguments of given sizes (14 R381). -/
def argsEnd (sizes : List Nat) : Nat := sizes.foldl (fun n k => roundUp n k + k) 0

/-- A binding of MBX_BIND, valid and locked (13 R376). -/
def bindWord (sender receiver bit : Nat) : Nat := 2 ^ 63 + 2 ^ 62 + bit * 2 ^ 32 + receiver * 65536 + sender

/-- The requesters of 14 R378. -/
def requesters : List Nat := (List.range 64) ++ ((List.range 96).map fun i => 0x100 + i)

/-- Channels 0 to 639 bound and locked (14 R378). -/
def State.bindChannels (s : State) : State :=
  requesters.foldl (fun (t : State) m =>
    let b := if m < 0x40 then 0 else 1
    (((t.setReg (Off.mbxBind (cmdChannel m 0)) (bindWord m 0x200 b)).setReg (Off.mbxBind (cmdChannel m 1)) (bindWord m 0x201 b)).setReg
      (Off.mbxBind (complChannel m 0)) (bindWord 0x200 m 31)).setReg (Off.mbxBind (complChannel m 1)) (bindWord 0x201 m 30)) s

/-- Whether a command header names a requester and a control processor that exist. -/
def cmdExists (h : CmdHdr) : Bool :=
  (decide (h.master < 0x40) || (decide (0x100 ≤ h.master) && decide (h.master < 0x160))) && decide (h.cp < 2)

/-- Whether a completion of a requester has room beside those that wait and its running L command (14 R384). -/
def State.answerRoom (s : State) (m cp : Nat) : Bool :=
  let running := match s.yaf.trip with | some t => bit01 (t.master == m && t.cp == cp) | none => 0
  decide ((s.chan (complChannel m cp)).store.length + (s.req m).comps.length + running < 8)

/-- A detail that the manual states, or a free byte (log 76). -/
def State.detailOf (s : State) : Option Nat → Nat × State
  | some d => (d, s)
  | none => (s.fresh.1 % 256, s.fresh.2)

/-- A completion posted, or held until there is room (14 R380, R384). -/
def State.complete (s0 : State) (m cp tag opcode : Nat) (c : Code) (detail : Option Nat) (applied : Bool) (res : List Byte) : State :=
  let (d, s) := s0.detailOf detail
  let p := natBytes 2 opcode ++ natBytes 2 tag ++ natBytes 1 c.num ++ natBytes 1 d ++ natBytes 2 (bit01 applied) ++ res
  (s.onReq m fun r => { r with comps := r.comps ++ [(cp, p)] }).postHeld m ((s.req m).comps.length + 1)

/-- The command's message popped from its channel, with the doorbell bit of the control processor cleared where no other message
waits (13 R371, R372, 14 R383). -/
def State.takeCmd (s : State) (m cp : Nat) : State :=
  let ch := cmdChannel m cp
  match (s.chan ch).store with
  | [] => s
  | x :: _ => (s.mbxPopWith (0x200 + cp) ch x.seq).dbClear (0x200 + cp) (if m < 0x40 then 1 else 2)

/-- Whether a requester's class may issue a command (14 R389). -/
def By.admits (b : By) (m : Nat) : Bool :=
  match b with
  | .pf0 => m == 0
  | .fn => decide (m < 0x40)
  | .any => true

/-- The checks before a command's own (14 R379, R381, R385, R386, R389), in this order (DESIGN CHOICE, log 66). -/
def State.yafCheck (s : State) (h : CmdHdr) (hello : Bool) (args : List Nat) (b : By) : Option (Code × Option Nat) :=
  if h.cp = 1 ∧ !s.cp1Serves then some (.badState, some 0xC1)
  else if h.epoch.toNat ≠ s.epoch h.master then some (.staleEpoch, none)
  else if !hello ∧ !(s.req h.master).hello then some (.badState, some 0x48)
  else if h.tag = 0 then some (.badArg, some 0xFE)
  else if h.length < 8 + argsEnd args ∨ !h.padZero then some (.badLength, none)
  else if !b.admits h.master then some (.notPermitted, none)
  else none

/-- Whether Yafolo takes a command of a channel now (14 R379, R383, R384): after READY, with room for the completion, and with no
command without the mark L still open on it; CP0's channels are never taken once CP1 serves, and a lost control processor takes
nothing. -/
def State.yafTakes (s : State) (h : CmdHdr) : Bool :=
  !(s.yaf.stops.any fun x => x.master == h.master && x.cp == h.cp) && s.ready && !s.shutdown && (s.lp (96 + h.cp)).run != .lost && !(h.cp == 0 && s.cp1Serves) && s.answerRoom h.master h.cp

/-- A command taken, carried out and answered: what a row of 14 R390 does, given what the command itself does. -/
def yafRun (h : CmdHdr) (opcode : Nat) (args : List Nat) (b : By) (s : State) (f : State → Ans) :
    Host.Outcome State Fault Refusal :=
  if !cmdExists h then .refused .noSuchUnit
  else .next (
    if !s.yafTakes h then s
    else
      let s1 := s.takeCmd h.master h.cp
      match s.yafCheck h (opcode == 1) args b with
      | some (c, d) => s1.complete h.master h.cp h.tag.toNat opcode c d false []
      | none =>
        let a := f s1
        if a.later then a.st
        else a.st.complete h.master h.cp h.tag.toNat opcode a.code a.detail a.applied a.res)

/-- A trip test interrupted by a warm reset (14 R387): a host function's command completes with ABORTED_RESET. -/
def State.tripAbort (s : State) : State :=
  match s.yaf.trip with
  | none => s
  | some t =>
    let s1 : State := { s with yaf := { s.yaf with trip := none } }
    if t.master < 0x40 then s1.complete t.master t.cp t.tag 0x0805 .abortedReset none (!t.stamps.isEmpty) [] else s1

/-- An engine that ENGINE_DISABLE waits for has stopped (12 R358, 14 R390). -/
def State.engStopped (s : State) (pool e : Nat) : State :=
  let mine := fun (x : EngStop) => x.pool == pool && x.engine == e
  let s1 : State := { s with yaf := { s.yaf with stops := s.yaf.stops.filter fun x => !mine x } }
  (s.yaf.stops.filter mine).foldl (fun (t : State) x => t.complete x.master x.cp x.tag 0x0507 .ok none true []) s1

/-- The commands in progress at a warm reset, by a host function (14 R387). -/
def State.yafAbort (s : State) : State :=
  let s1 : State := { s with yaf := { s.yaf with stops := [] } }
  (s.yaf.stops.foldl (fun (t : State) x =>
    if x.master < 0x40 then t.complete x.master x.cp x.tag 0x0507 .abortedReset none true [] else t) s1).tripAbort

/-- Yafolo tries again to post what it holds for a requester (14 R384, R394). -/
def execCompletionPostRetry (master cp : Nat) (s : State) : Host.Outcome State Fault Refusal :=
  if cmdExists ⟨master, cp, 0, 0, 0, true⟩ then
    .next (if s.yafAlive && !s.shutdown then s.postHeld master 300 else s)
  else .refused .noSuchUnit

end Sys2Proof.Machine
end

