-- ==== Sys2Proof/Machine/Jobs.lean ====
section
/-! DEFINITION. The job rings and engines of the Prism and cipher pools (12 R333-R339, R343-R347, R350-R358): tail writes,
dispatch with its checks, completion records, the stop and the move of a job, and a warm reset. -/

namespace Sys2Proof.Machine

/-- The first register of a ring of a pool (12 R360); the others lie behind it. -/
def jBase : Pool → Nat → Nat
  | .prism, j => Off.pjRing j
  | .cipher, j => Off.cjRing j

/-- The state register of an engine; the error register lies 8 bytes on. -/
def eBase : Pool → Nat → Nat
  | .prism, e => Off.peStat e
  | .cipher, e => Off.ceStat e

/-- The event source of a ring or engine (12 R359). -/
def jSource : Pool → Nat → Nat
  | .prism, j => 544 + j
  | .cipher, j => 580 + j

/-- The key of a ring or engine in the tables of the pools. -/
def jKey : Pool → Nat → Nat
  | .prism, j => j
  | .cipher, j => 36 + j

/-- The registers of a ring (12 R360). -/
def jCq (p : Pool) (j : Nat) : Nat := jBase p j + 0x08
@[inherit_doc jCq] def jBuflo (p : Pool) (j : Nat) : Nat := jBase p j + 0x10
@[inherit_doc jCq] def jBufhi (p : Pool) (j : Nat) : Nat := jBase p j + 0x18
@[inherit_doc jCq] def jCfg (p : Pool) (j : Nat) : Nat := jBase p j + 0x20
@[inherit_doc jCq] def jTail (p : Pool) (j : Nat) : Nat := jBase p j + 0x28
@[inherit_doc jCq] def jHead (p : Pool) (j : Nat) : Nat := jBase p j + 0x30
@[inherit_doc jCq] def jCqtail (p : Pool) (j : Nat) : Nat := jBase p j + 0x38
@[inherit_doc jCq] def jCqhead (p : Pool) (j : Nat) : Nat := jBase p j + 0x40
@[inherit_doc jCq] def jStat (p : Pool) (j : Nat) : Nat := jBase p j + 0x48

/-- The state with the pools changed. -/
def State.onPools (s : State) (f : Pools → Pools) : State := { s with pools := f s.pools }

/-- An engine. -/
def State.jEng (s : State) (p : Pool) (e : Nat) : JEngine := tblGetD s.pools.engines (jKey p e) ⟨none, 0⟩

/-- The state with an engine changed. -/
def State.onJEng (s : State) (p : Pool) (e : Nat) (f : JEngine → JEngine) : State :=
  s.onPools fun x => { x with engines := tblSet x.engines (jKey p e) (f (s.jEng p e)) }

/-- A ring beside its registers. -/
def State.jRing (s : State) (p : Pool) (j : Nat) : JRing := tblGetD s.pools.rings (jKey p j) ⟨[], []⟩

/-- The state with a ring changed. -/
def State.onJRing (s : State) (p : Pool) (j : Nat) (f : JRing → JRing) : State :=
  s.onPools fun x => { x with rings := tblSet x.rings (jKey p j) (f (s.jRing p j)) }

/-- The fields of a ring's configuration. -/
def State.jOn (s : State) (p : Pool) (j : Nat) : Bool := s.flag (jCfg p j) 63
@[inherit_doc State.jOn] def State.jOwner (s : State) (p : Pool) (j : Nat) : Nat := s.fld (jCfg p j) 50 12
@[inherit_doc State.jOn] def State.jWidth (s : State) (p : Pool) (j : Nat) : Nat := s.fld (jCfg p j) 46 4 + 1
@[inherit_doc State.jOn] def State.jSlots (s : State) (p : Pool) (j : Nat) : Nat := 2 ^ s.fld (jBase p j) 0 5

/-- The address of a slot of a descriptor ring. -/
def State.jSlotAddr (s : State) (p : Pool) (j count : Nat) : Nat := s.fld (jBase p j) 12 40 * 4096 + count % s.jSlots p j * 64

/-- An event of a ring or engine: its cause and slot count recorded, and its source raised (12 R359, R360). -/
def State.jEvent (s : State) (p : Pool) (i cause slot : Nat) : State :=
  (s.logCause (eBase p i + 8) cause (slot % 65536 * 2 ^ 32)).raise (jSource p i)

/-- The outcome of a command of an engine: engines stand still after a THERM_SHUTDOWN (16 R435, log 189). -/
def forEngine (e : Nat) (s : State) (f : State → State) : Host.Outcome State Fault Refusal :=
  forUnit e 36 s fun s => if s.shutdown then s else f s

/-- The number of a pool where jobs wait for an engine. -/
def poolIx : Pool → Nat
  | .prism => 0
  | .cipher => 1

/-- The jobs of a ring that run or wait for their next engine. -/
def State.jRunning (s : State) (p : Pool) (j : Nat) : Nat :=
  ((List.range 36).filter fun e => match (s.jEng p e).job with | some x => x.ring == j | none => false).length +
    (s.pools.left.filter fun x => x.1 == poolIx p && x.2.ring == j).length

/-- The running bit of a ring follows its jobs. -/
def State.jRunFlag (s : State) (p : Pool) (j : Nat) : State := s.setFlag (jStat p j) 1 (decide (0 < s.jRunning p j))

/-- A write of bytes through to DRAM (12 R337). -/
def State.dmaThrough (s : State) (a : Nat) (bs : List Byte) : Option State :=
  (s.dmaWrite a bs).map fun t => (linesOf a bs.length).foldl State.devClean t

/-- The bytes from an address up to the first that cannot be read, at most `n` of them; whether all can. -/
def State.readable (s : State) (a n : Nat) : List Byte × Bool :=
  match s.dmaRead a n with
  | some bs => (bs, true)
  | none =>
    let bad := (linesOf a n).find? fun l => decide (s.installed < l + 64) || s.poison.contains l
    let stop := match bad with | some l => (if s.poison.contains l then max a l else max a s.installed) | none => max a s.installed
    (memBytes s.mem a (min n (stop - a)), false)

/-- The first completion that waits, written where the ring has room (12 R336, R337): the record goes through to DRAM, the count
moves, and the notification follows. -/
def State.jWriteOne (s : State) (p : Pool) (j : Nat) : Option State :=
  match (s.jRing p j).waiting with
  | [] => none
  | (bs, ntf) :: rest =>
    let n := 2 ^ s.fld (jCq p j) 0 5
    let tail := s.reg (jCqtail p j)
    if cnt32 tail (s.reg (jCqhead p j)) < n then
      let s1 := (s.dmaThrough (s.fld (jCq p j) 12 40 * 4096 + tail % n * 32) bs).getD s
      let s2 := (s1.setReg (jCqtail p j) ((tail + 1) % 2 ^ 32)).onJRing p j fun r => { r with waiting := rest }
      some (if ntf then s2.twNotify (s.jOwner p j) (s.fld (jCfg p j) 29 12) (s.fld (jCfg p j) 24 5) else s2)
    else none

/-- Completions written while the ring has room, and the bit cq_full. -/
def State.jFlushN (s : State) (p : Pool) (j : Nat) : Nat → State
  | 0 => s.setFlag (jStat p j) 2 (!(s.jRing p j).waiting.isEmpty)
  | fuel + 1 =>
    match s.jWriteOne p j with
    | some s1 => s1.jFlushN p j fuel
    | none => s.setFlag (jStat p j) 2 (!(s.jRing p j).waiting.isEmpty)
@[inherit_doc State.jFlushN] def State.jFlush (s : State) (p : Pool) (j : Nat) : State := s.jFlushN p j ((s.jRing p j).waiting.length)

/-- The op of a descriptor. -/
def descOp (d : List Byte) : Nat := fieldLE d 0 1

/-- Whether a descriptor asks for a notification (12 R338, R350). -/
def descNotify : Pool → List Byte → Bool
  | .prism, d => bitOf (fieldLE d 1 1) 5
  | .cipher, d => bitOf (fieldLE d 0x38 8) 0

/-- A completion record (12 R346). -/
def jRecord (p : Pool) (ring : Nat) (d : List Byte) (status detail : Nat) (resumable streamEnd moved : Bool)
    (consumed produced check eng : Nat) : List Byte :=
  natBytes 1 status ++ natBytes 1 (descOp d % 16) ++
    natBytes 2 (ring + bit01 resumable * 256 + bit01 streamEnd * 512 + bit01 moved * 1024 + poolIx p * 2048) ++
    natBytes 4 (fieldLE d 4 4) ++ natBytes 8 consumed ++ natBytes 8 produced ++ natBytes 4 check ++ natBytes 1 detail ++
    natBytes 1 eng ++ natBytes 2 0

/-- A completion given to its ring. -/
def State.jComplete (s : State) (p : Pool) (j : Nat) (d record : List Byte) : State :=
  (s.onJRing p j fun r => { r with waiting := r.waiting ++ [(record, descNotify p d && s.flag (jCfg p j) 41)] }).jFlush p j

/-- A write of a tail (12 R334): the posted jobs are those not dispatched (DEDUCED, log 55). Answers whether the write is no bus
error. -/
def State.jTailWrite (s : State) (p : Pool) (j master v : Nat) : State × Bool :=
  if master ≠ s.jOwner p j then (s.jEvent p j 2 0, false)
  else if s.jSlots p j < cnt32 v (s.reg (jHead p j)) then ((s.setFlag (jStat p j) 3 true).jEvent p j 3 v, true)
  else
    ((s.setReg (jTail p j) (v % 2 ^ 32)).onJRing p j fun r => { r with posts := r.posts ++ [(v % 2 ^ 32, s.time.cycles)] }, true)

/-- The age of the doorbell that posted the next job of a ring, where a job is posted. -/
def State.jAge (s : State) (p : Pool) (j : Nat) : Option Nat :=
  let h := s.reg (jHead p j)
  let n := cnt32 (s.reg (jTail p j)) h
  if n = 0 then none
  else match (s.jRing p j).posts.find? fun x => decide (0 < cnt32 x.1 h ∧ cnt32 x.1 h ≤ n) with
    | some x => some x.2
    | none => some 0

/-- The ring from which an engine takes its next job (12 R335): enabled, a job posted, below its width, the oldest doorbell; among
equal ages the next ring after the one served last. -/
def State.jPick (s : State) (p : Pool) : Option Nat :=
  let last := tblGetD s.pools.served (poolIx p) 35
  let rings := ((List.range 36).map fun i => (last + 1 + i) % 36).filterMap fun j =>
    if s.jOn p j && decide (s.jRunning p j < s.jWidth p j) then (s.jAge p j).map fun a => (a, j) else none
  match rings with
  | [] => none
  | x :: t => some (t.foldl (fun (b : Nat × Nat) y => if y.1 < b.1 then y else b) x).2

/-- Ranges that share a byte. -/
def jOverlap (a n b m : Nat) : Bool := decide (0 < n ∧ 0 < m ∧ a < b + m ∧ b < a + n)

/-- A range lies wholly inside the buffer window of a ring; an empty one does. -/
def State.inWindow (s : State) (p : Pool) (j a n : Nat) : Bool :=
  decide (n = 0) || (decide (s.reg (jBuflo p j) ≤ a) && decide (a + n ≤ s.reg (jBufhi p j) + 1))

/-- A Prism descriptor breaks a rule of 12 R339. -/
def prismBad (d : List Byte) : Bool :=
  let op := descOp d
  let fl := fieldLE d 1 1
  let src := fieldLE d 8 8
  let sl := fieldLE d 0x10 8
  let dst := fieldLE d 0x18 8
  let dl := fieldLE d 0x20 8
  let st := fieldLE d 0x28 8
  let dict := fieldLE d 0x30 8
  let dn := fieldLE d 0x38 2
  (op != 1 && op != 2) || fl % 4 == 3 || decide (64 ≤ fl) || fieldLE d 2 2 != 0 || fieldLE d 0x3A 6 != 0 ||
    (op == 2 && bitOf fl 2) || dl == 0 || (sl == 0 && !bitOf fl 4) || st == 0 || st % 4096 != 0 ||
    (if dict = 0 then dn != 0 else (dn == 0 || decide (32768 < dn) || bitOf fl 3)) ||
    jOverlap src sl dst dl || jOverlap src sl st 0x9000 || jOverlap dst dl st 0x9000

/-- The ranges that a Prism descriptor names. -/
def prismRanges (d : List Byte) : List (Nat × Nat) :=
  [(fieldLE d 8 8, fieldLE d 0x10 8), (fieldLE d 0x18 8, fieldLE d 0x20 8), (fieldLE d 0x28 8, 0x9000),
    (fieldLE d 0x30 8, fieldLE d 0x38 2)]

/-- Mode, state record, lengths and addresses of a cipher descriptor (12 R350). -/
def cMode (d : List Byte) : Nat := fieldLE d 1 1 % 16
@[inherit_doc cMode] def cState (d : List Byte) : Nat := fieldLE d 0x38 8 / 256 * 256
@[inherit_doc cMode] def cLen (d : List Byte) : Nat := fieldLE d 0x18 4
@[inherit_doc cMode] def cAadLen (d : List Byte) : Nat := fieldLE d 0x1C 4
@[inherit_doc cMode] def cResume (d : List Byte) : Bool := bitOf (fieldLE d 0x38 8) 1
@[inherit_doc cMode] def cSlot (d : List Byte) : Nat := fieldLE d 2 2 % 1024

/-- Bytes at mac: the GCM tag, or a digest (12 R350). -/
def cMacLen (d : List Byte) : Nat :=
  match cMode d with
  | 1 => fieldLE d 1 1 / 16 + 1
  | 4 => 32
  | 5 => 48
  | _ => 0

/-- A cipher descriptor breaks a rule of 12 R349-R351. That a state record is required for more than 65,536 bytes is taken as such
a rule, and aad_len is zero but for GCM (DEDUCED, log 56); the rest of a resumed XTS data unit may be shorter than a block
(DEDUCED, log 188). -/
def cipherBad (d : List Byte) : Bool :=
  let op := descOp d
  let mode := cMode d
  let hi := fieldLE d 1 1 / 16
  let crypt := op == 1 || op == 2
  let modeOk := if crypt then mode == 1 || mode == 2 || mode == 3 else (op == 3 || op == 4 || op == 5) && (mode == 4 || mode == 5)
  let src := fieldLE d 8 8
  let dst := fieldLE d 0x10 8
  !modeOk || (if mode = 1 then decide (hi < 11) else hi != 0) || decide (1024 ≤ fieldLE d 2 2) ||
    (op == 3 && fieldLE d 2 2 != 0) || (!crypt && dst != 0) || fieldLE d 0x38 8 / 4 % 64 != 0 ||
    (mode != 1 && cAadLen d != 0) || (mode == 3 && (decide (cLen d < if cResume d then 1 else 16) || decide (16777216 < cLen d))) ||
    (crypt && src != dst && jOverlap src (cLen d) dst (cLen d)) || (decide (65536 < cLen d + cAadLen d) && cState d == 0)

/-- The ranges that a cipher descriptor names. -/
def cipherRanges (d : List Byte) : List (Nat × Nat) :=
  [(fieldLE d 8 8, cLen d), (fieldLE d 0x10 8, if descOp d ≤ 2 then cLen d else 0), (fieldLE d 0x20 8, cAadLen d),
    (fieldLE d 0x28 8, match cMode d with | 1 => 12 | 2 => 16 | 3 => 16 | _ => 0), (fieldLE d 0x30 8, cMacLen d),
    (cState d, if cState d = 0 then 0 else 256)]

/-- The fault of a key slot for a job (12 R347, R354): 1 empty, 2 owner differs, 3 type unfit. -/
def State.keyFault (s : State) (owner : Nat) (d : List Byte) : Option Nat :=
  let k := s.reg (Off.keyStat (cSlot d))
  let typ := bits k 24 3
  if descOp d = 3 then none
  else if !bitOf k 31 then some 1
  else if bits k 0 12 ≠ owner then some 2
  else
    let fits := if cMode d = 3 then typ == 3 || typ == 4 else if cMode d ≤ 2 then typ == 1 || typ == 2 else typ == 5
    if fits then none else some 3

/-- The code lengths in a record, 4 bits each: 288 of literals and lengths, then 32 of distances. -/
def nibbles (l : List Nat) (n : Nat) : List Byte :=
  (List.range (n / 2)).map fun i => BitVec.ofNat 8 (l.getD (2 * i) 0 + 16 * l.getD (2 * i + 1) 0)
@[inherit_doc nibbles] def unnibbles (bs : List Byte) : List Nat := bs.flatMap fun b => [b.toNat % 16, b.toNat / 16]

/-- The first 512 bytes of a state record (12 R343). The window limit of the zlib header, which the table places nowhere, is kept at
0x028 (DESIGN CHOICE, log 57); bytes to which the table gives no content are free values. -/
def State.streamRecord (s : State) (op fmt : Nat) (saved : Bool) (st : Stream) : List Byte × State :=
  let (f1, s1) := s.freshBytes 20
  let (f2, s2) := s1.freshBytes 284
  let bs := natBytes 4 0x31535250 ++ natBytes 1 op ++ natBytes 1 fmt ++
    natBytes 1 (bit01 saved + bit01 st.inBlock * 2 + bit01 st.final * 4 + bit01 st.header * 8) ++ natBytes 1 st.heldN ++
    natBytes 8 st.consumed ++ natBytes 8 st.produced ++ natBytes 4 st.check ++ natBytes 1 st.held ++ natBytes 1 st.btype ++
    natBytes 2 st.stored ++ natBytes 2 st.mlen ++ natBytes 2 st.mdist ++ natBytes 4 (min 32768 st.window.length) ++
    natBytes 4 st.limit ++ f1 ++ nibbles st.lits 288 ++ nibbles st.dists 32 ++ f2
  (bs ++ natBytes 4 (crc32c bs), s2)

/-- A state record as a stream, but for its window: none where magic, op, format or CRC does not match (12 R344). -/
def streamOf (op fmt : Nat) (r : List Byte) : Option (Stream × Bool × Nat) :=
  if fieldLE r 0 4 = 0x31535250 ∧ fieldLE r 4 1 = op ∧ fieldLE r 5 1 = fmt ∧ fieldLE r 0x1FC 4 = crc32c (r.take 0x1FC) then
    let fl := fieldLE r 6 1
    let st : Stream := {
      consumed := fieldLE r 8 8, produced := fieldLE r 0x10 8, check := fieldLE r 0x18 4, held := fieldLE r 0x1C 1,
      heldN := fieldLE r 7 1 % 8, header := bitOf fl 3, inBlock := bitOf fl 1, final := bitOf fl 2, btype := fieldLE r 0x1D 1,
      stored := fieldLE r 0x1E 2, mlen := fieldLE r 0x20 2, mdist := fieldLE r 0x22 2,
      lits := unnibbles ((r.drop 0x40).take 144), dists := unnibbles ((r.drop 0xD0).take 16), window := [],
      limit := fieldLE r 0x28 4 }
    some (st, bitOf fl 0, fieldLE r 0x24 4)
  else none

/-- How a job starts: an end at once (status, detail), or its progress. -/
inductive JStart where | over (status detail : Nat) | run (str : Stream) (ci : CState)

/-- A cipher job that has done nothing. -/
def CState.zero : CState := ⟨0, 0, 0, 0, [], 0, [], []⟩

/-- The start of a Prism job (12 R344): a new stream with its dictionary, or the stream of a record, with its window from the record
or from the bytes below dst or src. -/
def State.prismStart (s : State) (d : List Byte) : JStart :=
  let fl := fieldLE d 1 1
  let fmt := fl % 4
  let op := descOp d
  let rec_ := fieldLE d 0x28 8
  if bitOf fl 3 then
    match s.dmaRead rec_ 512 with
    | none => .over 3 0
    | some r =>
      match streamOf op fmt r with
      | none => .over 9 0
      | some (st, saved, n) =>
        let below := if op = 2 then fieldLE d 0x18 8 else fieldLE d 8 8
        match (if saved then s.dmaRead (rec_ + 0x1000) n else s.dmaRead (below - n) n) with
        | none => .over 3 0
        | some w => .run { st with window := w.reverse } CState.zero
  else
    match s.dmaRead (fieldLE d 0x30 8) (fieldLE d 0x38 2) with
    | none => .over 3 0
    | some dict => .run (Stream.start fmt dict) CState.zero

/-- The start of a cipher job (12 R352): from its beginning, or from a record whose seal holds. -/
def State.cipherStart (s : State) (j : Nat) (d : List Byte) : JStart :=
  let idle := Stream.start 0 []
  if cResume d then
    match s.dmaRead (cState d) 256 with
    | none => .over 3 0
    | some r =>
      match s.pools.seals.find? fun x => x.ring == j && x.slot == cSlot d && x.opm == descOp d * 16 + cMode d && x.bytes == r with
      | some x => if cState d = 0 then .over 9 0 else .run idle x.ci
      | none => .over 9 0
  else .run idle CState.zero

/-- What dispatch finds in a descriptor (12 R336, R339, R351, R353): an end at once with status and detail, or a start. -/
def State.jStart (s : State) (p : Pool) (j : Nat) (d : List Byte) : JStart :=
  match p with
  | .prism =>
    if prismBad d then .over 1 0
    else if !((prismRanges d).all fun r => s.inWindow p j r.1 r.2) then .over 2 0
    else s.prismStart d
  | .cipher =>
    if cipherBad d then .over 1 0
    else if !((cipherRanges d).all fun r => s.inWindow p j r.1 r.2) then .over 2 0
    else match s.keyFault (s.jOwner p j) d with
      | some k => .over 0x20 k
      | none => s.cipherStart j d

/-- An engine takes a job; PE_STAT shows it. -/
def State.jTake (s : State) (p : Pool) (e : Nat) (job : Job) : State :=
  (((s.onJEng p e fun _ => ⟨some job, 0⟩).setFld (eBase p e) 16 6 job.ring).setFlag (eBase p e) 22 true).jRunFlag p job.ring

/-- An engine is free. -/
def State.jFree (s : State) (p : Pool) (e ring : Nat) : State :=
  ((s.onJEng p e fun _ => ⟨none, 0⟩).setFlag (eBase p e) 22 false).jRunFlag p ring

/-- The next job of a ring dispatched to an engine: its count moves, and it starts or completes at once. -/
def State.jDispatch (s : State) (p : Pool) (e j : Nat) : State :=
  let h := s.reg (jHead p j)
  let s1 := (s.setReg (jHead p j) ((h + 1) % 2 ^ 32)).onJRing p j fun r =>
    { r with posts := r.posts.filter fun x => decide (1 < cnt32 x.1 h ∧ cnt32 x.1 h ≤ s.jSlots p j) }
  let s2 := s1.onPools fun x => { x with served := tblSet x.served (poolIx p) j }
  match s2.dmaRead (s.jSlotAddr p j h) 64 with
  | none => s2.jComplete p j [] (jRecord p j [] 3 0 false false false 0 0 0 e)
  | some d =>
    match s2.jStart p j d with
    | .over st detail =>
      let s3 := if st = 1 then s2.jEvent p j 1 h else s2
      s3.jComplete p j d (jRecord p j d st detail false false false 0 0 0 e)
    | .run str ci =>
      let base := match p with | .prism => (str.consumed, str.produced) | .cipher => (ci.aad, ci.inn)
      s2.jTake p e ⟨j, h, d, tblGetD s.pools.keys (cSlot d) [], str, ci, str, ci, base, false, false, none⟩

/-- A free engine takes its next job (12 R335, R357): one that a condemned engine left, else the oldest posted. -/
def State.jNext (s : State) (p : Pool) (e : Nat) : State :=
  if s.fld (eBase p e) 0 2 ≠ 1 ∨ (s.jEng p e).job.isSome then s
  else match s.pools.left.find? fun x => x.1 == poolIx p with
    | some x => ((s.onPools fun t => { t with left := t.left.erase x }).jTake p e x.2)
    | none => match s.jPick p with
      | some j => s.jDispatch p e j
      | none => s

/-- A running job changed. -/
def State.onJob (s : State) (p : Pool) (e : Nat) (f : Job → Job) : State :=
  s.onJEng p e fun x => { x with job := x.job.map f }

/-- A job ends. -/
def State.jobEnd (s : State) (p : Pool) (e : Nat) (f : JobEnd) : State := s.onJob p e fun x => { x with fin := some f }

/-- The counts of a job's completion record: consumed, produced, and the check or the AAD count (12 R346, R353). -/
def jobCounts (p : Pool) (x : Job) (str : Stream) (ci : CState) (ok : Bool) : Nat × Nat × Nat :=
  match p with
  | .prism => (str.consumed, str.produced, str.check)
  | .cipher =>
    (ci.inn - x.base.2, if descOp x.desc ≤ 2 then ci.inn - x.base.2 else if ok && descOp x.desc != 5 then cMacLen x.desc else 0,
      ci.aad - x.base.1)

/-- The Lens counters of a job that has ended (19 hub page 1). -/
def State.jCount (s : State) (p : Pool) (x : Job) : State :=
  match p with
  | .prism => ((s.countHub 1 0 1).countHub 1 1 (x.str.consumed - x.base.1)).countHub 1 2 (x.str.produced - x.base.2)
  | .cipher => (s.countHub 1 4 1).countHub 1 5 (x.ci.aad - x.base.1 + (x.ci.inn - x.base.2))

/-- The record of a job that has ended written, its ring told, and its engine freed. -/
def State.jobFinish (s : State) (p : Pool) (e : Nat) (x : Job) (f : JobEnd) : State :=
  let (c, o, k) := jobCounts p x x.str x.ci (f.status == 0)
  (((s.jFree p e x.ring).jCount p x).jComplete p x.ring x.desc
    (jRecord p x.ring x.desc f.status f.detail f.resumable f.streamEnd x.moved c o k e)).engStopped (poolIx p) e

/-- A checkpoint or a full record of a Prism job written (12 R342, R343): none where the access fails. -/
def State.prismSave (s : State) (x : Job) (full : Bool) (st : Stream) : Option State :=
  let a := fieldLE x.desc 0x28 8
  let (r, s1) := s.streamRecord (descOp x.desc) (fieldLE x.desc 1 1 % 4) full st
  match s1.dmaThrough a r with
  | none => none
  | some s2 => if full then s2.dmaThrough (a + 0x1000) ((st.window.take 32768).reverse) else some s2

/-- A Prism job ends (12 R342): its state record as the case asks, its completion, its notification. -/
def execPrismJobEnd (e : Nat) (s : State) : Host.Outcome State Fault Refusal :=
  forEngine e s fun s =>
    match (s.jEng .prism e).job with
    | none => s
    | some x =>
      match x.fin with
      | none => s
      | some f =>
        if f.status = 0 ∨ f.full then
          match s.prismSave x f.full x.str with
          | some s1 => s1.jobFinish .prism e x f
          | none => s.jobFinish .prism e x ⟨3, 0, false, false, false⟩
        else s.jobFinish .prism e x f

/-- A cipher job ends (12 R353): its completion and its notification. -/
def execCipherJobEnd (e : Nat) (s : State) : Host.Outcome State Fault Refusal :=
  forEngine e s fun s =>
    match (s.jEng .cipher e).job with
    | none => s
    | some x =>
      match x.fin with
      | none => s
      | some f => s.jobFinish .cipher e x f

/-- A free engine takes a job (12 R335). -/
def execJobDispatch (pool : Pool) (e : Nat) (s : State) : Host.Outcome State Fault Refusal := forEngine e s fun s => s.jNext pool e

/-- A job put back to its last checkpoint (12 R357). -/
def Job.rewind (x : Job) : Job := { x with str := x.ckStr, ci := x.ckCi, fin := none }

/-- A spare engine of a pool. -/
def State.jSpare (s : State) (p : Pool) : Option Nat := (List.range 36).find? fun e => s.fld (eBase p e) 0 2 == 0

/-- An engine condemned (12 R357): recorded, replaced where a spare is left, its job left for the next free engine. -/
def State.jCondemn (s : State) (p : Pool) (e : Nat) : State :=
  let sp := s.jSpare p
  let slot := match (s.jEng p e).job with | some x => x.count | none => 0
  let s1 := ((s.setFld (eBase p e) 0 2 2).condemn (6 + poolIx p) 0 e (jSource p e) sp.isSome).jEvent p e 4 slot
  let s2 := match sp with
    | some d => (s1.setFld (eBase p d) 0 2 1).jEvent p d 5 0
    | none => s1.jEvent p e 6 slot
  match (s.jEng p e).job with
  | none => s2
  | some x =>
    (((s2.jFree p e x.ring).onPools fun t => { t with left := t.left ++ [(poolIx p, { x.rewind with moved := true })] }).jRunFlag p x.ring).engStopped (poolIx p) e

/-- A mismatch of an engine's two datapaths (12 R357): the work since the last checkpoint runs again, at most 3 times for a segment;
then the engine is condemned. -/
def State.jMismatch (s : State) (p : Pool) (e : Nat) : State :=
  let tries := (s.jEng p e).tries
  if 3 ≤ tries then s.jCondemn p e
  else
    let s1 := s.setFld (eBase p e) 32 32 (satAdd (s.fld (eBase p e) 32 32) 1 0xFFFFFFFF)
    (s1.onJEng p e fun x => { job := x.job.map Job.rewind, tries := tries + 1 }).countHub 1 (3 + 3 * poolIx p) 1
@[inherit_doc State.jMismatch]
def execEngineMismatch (pool : Pool) (e : Nat) (s : State) : Host.Outcome State Fault Refusal :=
  forEngine e s fun s => if s.fld (eBase pool e) 0 2 = 2 then s else s.jMismatch pool e

/-- An engine disabled by command (12 R358): its job stops at the end of its segment, and it leaves the pool. -/
def State.jDisableEngine (s : State) (p : Pool) (e : Nat) : State :=
  ((s.setFld (eBase p e) 0 2 3).onJob p e fun x => { x with stop := true }).jEvent p e 7
    (match (s.jEng p e).job with | some x => x.count | none => 0)

/-- A job posted and not dispatched is cancelled (12 R347, R358). Which engine writes its record is a free value (log 58). -/
def State.jCancelN (s : State) (p : Pool) (j : Nat) : Nat → State
  | 0 => s
  | fuel + 1 =>
    let h := s.reg (jHead p j)
    if h = s.reg (jTail p j) then s
    else
      let (e, s1) := s.fresh
      let d := (s1.readable (s.jSlotAddr p j h) 64).1
      ((s1.setReg (jHead p j) ((h + 1) % 2 ^ 32)).jComplete p j d (jRecord p j d 8 0 false false false 0 0 0 (e % 36))).jCancelN p j fuel

/-- A ring disabled (12 R358). -/
def State.jDisable (s : State) (p : Pool) (j : Nat) : State :=
  let s1 := (s.setFlag (jCfg p j) 63 false).jCancelN p j (cnt32 (s.reg (jTail p j)) (s.reg (jHead p j)))
  let s2 := (List.range 36).foldl (fun t e => t.onJEng p e fun x =>
    { x with job := x.job.map fun y => if y.ring = j then { y with stop := true } else y }) s1
  (s2.onJRing p j fun r => { r with posts := [] }).onPools fun t =>
    { t with left := t.left.map fun x => if x.1 = poolIx p ∧ x.2.ring = j then (x.1, { x.2 with stop := true }) else x }

/-- A write of a ring's configuration (12 R358, R360): while the ring is enabled only enable can change. -/
def State.jCfgWrite (s : State) (p : Pool) (j v : Nat) : State :=
  if s.jOn p j then (if bitOf v 63 then s else s.jDisable p j)
  else s.setReg (jCfg p j) (bits v 63 1 * 2 ^ 63 + bits v 46 16 * 2 ^ 46 + bits v 24 18 * 2 ^ 24)

/-- A write of another register of a ring, dropped while the ring is enabled (12 R360). -/
def State.jRegWrite (s : State) (p : Pool) (j off v : Nat) : State := if s.jOn p j then s else s.setReg off v

/-- A write of a completion head by the owner: completions that wait then have room. -/
def State.jCqheadWrite (s : State) (p : Pool) (j v : Nat) : State := (s.setReg (jCqhead p j) (v % 2 ^ 32)).jFlush p j

/-- A job aborted by a warm reset (12 R342, R353, R358): the counts of its last checkpoint, and the record of that checkpoint. -/
def State.jAbort (s : State) (p : Pool) (e : Nat) (x0 : Job) : State :=
  let x := x0.rewind
  let has := match p with | .prism => true | .cipher => cState x.desc != 0
  let s1 := match p with | .prism => (s.prismSave x false x.str).getD s | .cipher => s
  let (c, o, k) := jobCounts p x x.str x.ci false
  (s1.setFlag (jStat p x.ring) 0 true).jComplete p x.ring x.desc
    (jRecord p x.ring x.desc 7 0 has false x.moved c o k e)

/-- A warm reset of the pools (12 R358): every job that was running completes with ABORTED_RESET. A job between two engines has its
record written by the engine numbered by a free value (log 58). -/
def State.poolsWarm (s : State) : State :=
  let one := fun (t : State) (p : Pool) =>
    (List.range 36).foldl (fun (t : State) e =>
      match (t.jEng p e).job with
      | some x => (t.jFree p e x.ring).jAbort p e x
      | none => t) t
  let s1 := one (one s .prism) .cipher
  s1.pools.left.foldl (fun (t : State) x =>
    let p := if x.1 = 0 then Pool.prism else Pool.cipher
    let (e, t1) := t.fresh
    ((t1.onPools fun y => { y with left := y.left.erase x }).jRunFlag p x.2.ring).jAbort p (e % 36) x.2) s1

/-- The engine map rebuilt from the sparing map (12 R357, R358): the 32 lowest engines not condemned are ACTIVE. -/
def State.engineMap (s : State) (p : Pool) : State :=
  let ok := (List.range 36).filter fun e => !s.condemned (6 + poolIx p) 0 e
  let act := ok.take 32
  (List.range 36).foldl (fun (t : State) e =>
    t.setFld (eBase p e) 0 2 (if act.contains e then 1 else if ok.contains e then 0 else 2)) s

/-- A cold reset of the pools (12 R352, R355, R358): rings, engines, keys and records are gone, and a new sealing key is made. -/
def State.poolsCold (s : State) : State :=
  (({ s with pools := { Pools.empty with colds := s.pools.colds + 1 } } : State).engineMap .prism).engineMap .cipher

end Sys2Proof.Machine
end

