-- ==== Sys2Proof/Machine/Faults.lean ====
section
/-! DEFINITION. The fault block's registers, the ERR_N pin and the temperature sensors (16 R418-R437). -/

namespace Sys2Proof.Machine

/-- A W1C of ERR_SRC_n.pending: pending, overflow and count cleared (16 R437). -/
def State.errSrcW1c (s : State) (n : Nat) : State :=
  let off := Off.errSrc n
  if s.flag off 31 then s.setReg off (s.fld off 27 3 * 2 ^ 27) else s

/-- A write of ERR_STATUS_g: each 1 is a W1C of the pending bit that it mirrors. -/
def State.errStatusW1c (s : State) (g v : Nat) : State :=
  (List.range 32).foldl (fun t m => if bitOf v m then t.errSrcW1c (32 * g + m) else t) s

/-- ERR_STATUS_g: the pending bits of a group (16 R418). -/
def State.errStatusVal (s : State) (g : Nat) : Nat :=
  (List.range 32).foldl (fun k m => k + bit01 (s.flag (Off.errSrc (32 * g + m)) 31) * 2 ^ m) 0

/-- ERR_SUMMARY (16 R418). -/
def State.errSummaryVal (s : State) : Nat :=
  (List.range 24).foldl (fun k g => k + bit01 (s.errStatusVal g != 0) * 2 ^ g) 0

/-- A W1C of ERR_FIRST_g.valid (16 R437). -/
def State.errFirstW1c (s : State) (g : Nat) : State :=
  if s.flag (Off.errFirst g) 0 then
    ((s.setReg (Off.errFirst g) 0).setReg (Off.errFirstNs g) 0).setReg (Off.errFirstFr g) 0
  else s

/-- Whether a source has a target of BLOCK_RESET (16 R421). -/
def hasBlockTarget (n : Nat) : Bool := decide (n < 512) || (decide (712 ≤ n) && decide (n < 720)) || (decide (764 ≤ n) && decide (n ≤ 766))

/-- What a field of ERR_REACT takes for a value written (16 R422). -/
def reactStored (n old v : Nat) : Nat :=
  if sourceReserved n ∨ n = 737 ∨ n = 739 ∨ v = 7 then old else if v = 3 ∧ !hasBlockTarget n then 1 else v

/-- A word of 16 reaction fields written (16 R422). -/
def reactWordStored (base old v : Nat) : Nat :=
  (List.range 16).foldl (fun k j => k + reactStored (base + j) (bits old (4 * j) 3) (bits v (4 * j) 3) * 2 ^ (4 * j)) 0

/-- A write of ERR_REACT_LO_g or ERR_REACT_HI_g, where FPR_CTRL.lock does not lock it. -/
def State.errReactSet (s : State) (g : Nat) (hi : Bool) (v : Nat) : State :=
  if s.flag Off.fprCtrl 31 then s
  else
    let off := if hi then Off.errReactHi g else Off.errReactLo g
    s.setReg off (reactWordStored (32 * g + if hi then 16 else 0) (s.reg off) v)

/-- ERR_N released (16 R427). -/
def State.errNRelease (s : State) : State :=
  { s.setFlag Off.errPin 31 false with errPin := ⟨false, 0, false⟩ }

/-- 20 µs in cycles of the 1 GHz time clock (16 R427, 11 R314). -/
def errNMin : Nat := 20000

/-- A W1C of ERR_PIN.hold: a release is armed, or made at once where ERR_N has been low for 20 µs; never during a
THERM_SHUTDOWN (16 R427). -/
def State.errPinArm (s : State) : State :=
  if !s.errPin.low || s.shutdown then s
  else if s.errPin.since + errNMin ≤ s.time.cycles then s.errNRelease
  else { s with errPin := { s.errPin with armed := true } }

/-- A write of ERR_PIN: hold is W1C, force W1S; the assertion of force comes last, since it cancels an armed release. -/
def State.errPinWrite (s : State) (v : Nat) : State :=
  let s1 := if bitOf v 31 then s.errPinArm else s
  if bitOf v 30 then s1.assertErrN 0x3FF else s1

/-- A reading of a sensor, in units of 0.125 °C, as 16 bits (16 R434). -/
def thermBits (r : Int) : Nat := wrapInt r 16

/-- The reading that a 16-bit field holds. -/
def thermVal (v : Nat) : Int := signed v 16

/-- One sensor's new reading in THERM_i: now, and max where it is the first since max was read, or higher. -/
def State.thermRead (s : State) (i : Nat) (r : Int) : State :=
  let off := Off.therm i
  let seen := bitOf s.thermSeen i
  let mx := if seen && decide (r ≤ thermVal (s.fld off 16 16)) then thermVal (s.fld off 16 16) else r
  { s.setReg off (thermBits mx * 65536 + thermBits r) with thermSeen := setBit s.thermSeen i true }

/-- The readings of the 24 sensors taken in order. -/
def State.thermReads (s : State) : Nat → List Int → State
  | _, [] => s
  | i, r :: rs => (if i < 24 then s.thermRead i r else s).thermReads (i + 1) rs

/-- Whether a sensor reads 135 °C or more now and before (16 R435). -/
def State.thermTwice (s : State) : Nat → List Int → Bool
  | _, [] => false
  | i, r :: rs => (decide (i < 24) && decide (1080 ≤ r) && decide (1080 ≤ thermVal (s.fld (Off.therm i) 0 16))) || s.thermTwice (i + 1) rs

/-- THERM_WARN set and cleared by a set of readings (16 R435). DEDUCED, log 31: source 738 is raised when the flag is set. -/
def State.thermWarn (s : State) (rs : List Int) : State :=
  if s.flag Off.fprStat 3 then
    (if (List.range 24).all fun i => decide (thermVal (s.fld (Off.therm i) 0 16) ≤ 920) then s.setFlag Off.fprStat 3 false else s)
  else if rs.any fun r => decide (960 ≤ r) then (s.setFlag Off.fprStat 3 true).raise 738
  else s

/-- The highest of a list of readings. -/
def thermPeak : List Int → Int
  | [] => 0
  | [r] => r
  | r :: rs => max r (thermPeak rs)

/-- An event source raised by its block (16 R418). -/
def execSourceRaise (n : Nat) (s : State) : Host.Outcome State Fault Refusal := forUnit n 768 s fun s => s.raise n

/-- An armed release of ERR_N after its 20 µs (16 R427). -/
def execErrNRelease (s : State) : Host.Outcome State Fault Refusal :=
  .next (if s.errPin.low && s.errPin.armed && !s.shutdown then s.errNRelease else s)

/-- A rail outside its window (16 R428): source 740. For indices 0 to 6 the window is the upper one. -/
def execRailOutOfWindow (rail : Nat) (s : State) : Host.Outcome State Fault Refusal :=
  forUnit rail 10 s fun s => s.raise 740

/-- A reference clock off its rate: source 741 (16 R421). -/
def execRefclkFault (clock : Nat) (s : State) : Host.Outcome State Fault Refusal :=
  forUnit clock 10 s fun s => s.raise 741

/-- Trouble on the die-to-die link of a compute die: source 742 + d. -/
def execD2dLinkFault (d : Nat) (s : State) : Host.Outcome State Fault Refusal := forUnit d 4 s fun s => s.raise (742 + d)

/-- An uncorrectable error in a fabric buffer: source 751. -/
def execFabricBufferError (s : State) : Host.Outcome State Fault Refusal := .next (s.raise 751)

/-- A change of ERROR_INT (0), NMI (1) or MACHINE_CHECK (2) that waited for the pacing window (16 R424). -/
def execErrorInputPacedDelivery (lp input : Nat) (s : State) : Host.Outcome State Fault Refusal :=
  if input < 3 then forLp lp s fun s => s.errDeliver lp input else .refused .noSuchUnit

end Sys2Proof.Machine
end

