-- ==== Sys2Proof/Machine/Life.lean ====
section
/-! DEFINITION. DRAM device sparing, the fuse copy of the sparing map, and the wear monitors (17 R439-R450). -/

namespace Sys2Proof.Machine

/-- The place of a DRAM address, as DRAM_ERR[63:38] packs it: subchannel, rank, bank, row (17 R454). -/
def dramPlaceOf (c addr : Nat) : Nat := Config.dramPlace c addr % 2 ^ 26

/-- The rank and subchannel of a place: bit 2r + s of DRAM_SPARE.marked. -/
def placeHalf (place : Nat) : Nat := place % 8

/-- A DRAM event recorded in DRAM_ERR and its source raised (17 R442). -/
def State.dramEvent (s : State) (c cause place device src : Nat) : State :=
  (s.logCause (Off.dramErr c) cause (place * 2 ^ 38 + device % 16 * 2 ^ 34)).raise (616 + 4 * c + src)

/-- DRAM_SPARE as the service area gives it (17 R454). -/
def State.dramSpareShow (s : State) (c : Nat) : State :=
  let marked := (List.range 8).foldl (fun k h => k + bit01 (tblGet? s.svc.marks (8 * c + h)).isSome * 2 ^ h) 0
  let queued := (s.svc.rows.filter fun r => r.1 == c).length
  s.setReg (Off.dramSpare c) (min queued 255 * 65536 + min (tblGetD s.chip.repaired c 0) 255 * 256 + marked)

/-- A row queued for repair (17 R440), once. -/
def State.rowQueue (s : State) (c place device : Nat) : State :=
  if s.svc.rows.contains (c, place) then s
  else
    let s1 : State := { s with svc := { s.svc with rows := s.svc.rows ++ [(c, place)] } }
    (s1.dramSpareShow c).dramEvent c 4 place device 2

/-- A device found failing (17 R439, R442): marked, or the spare of its rank and subchannel exhausted. -/
def State.deviceFails (s : State) (c place device : Nat) : State :=
  let h := 8 * c + placeHalf place
  match tblGet? s.svc.marks h with
  | some d =>
    if d = device then s
    else (s.dramEvent c 6 place device 2).spareGone 11 (616 + 4 * c + 2)
  | none =>
    let s1 : State := { s with svc := { s.svc with marks := tblSet s.svc.marks h device } }
    ((s1.dramSpareShow c).dramEvent c 3 place device 2).spareUsed 11 (616 + 4 * c + 2)

/-- The distinct addresses among corrected errors. -/
def hitAddrs (hs : List DramHit) : List Nat := (hs.map fun h => h.addr).eraseDups

/-- A corrected error (17 R439, R440): counted over 24 h by device and by row. -/
def State.dramCorrected (s : State) (c addr device nbits : Nat) : State :=
  let place := dramPlaceOf c addr
  let old := s.chip.hits.filter fun h => decide (s.time.cycles < h.at_ + 86400 * 10 ^ 9)
  let hits := old ++ [⟨c, placeHalf place, device, addr, place, s.time.cycles⟩]
  let s1 : State := { s with chip := { s.chip with hits := hits } }
  let s2 := (s1.count (Off.lensDrCnt c 4) 1).dramEvent c 1 place device 0
  let mine := hits.filter fun h => h.ch == c && h.half == placeHalf place && h.device == device
  let s3 := if 2 ≤ nbits ∨ 8 ≤ (hitAddrs mine).length then s2.deviceFails c place device else s2
  if 4 ≤ (hits.filter fun h => h.ch == c && h.row == place).length then s3.rowQueue c place device else s3

/-- An uncorrectable error (17 R440, R442): the line is poisoned, unless a cache holds newer content of it that will be written
over it, and its row is queued. -/
def State.dramUncorrectable (s : State) (c addr device : Nat) : State :=
  let place := dramPlaceOf c addr
  let line := lineOf addr
  let newer := (tblGet? s.underSc line).isSome || (tblGet? s.underL2 line).isSome
  let s1 := if newer then s else s.poisonLine line
  (s1.dramEvent c 2 place device 1).rowQueue c place device

/-- The patrol reads and checks one line (17 R439-R442): the devices in error, and the bits of the access that need correction. -/
def execPatrolScrub (channel addr : Nat) (device : Option Nat) (nbits : Nat) (uncorrectable : Bool) (s : State) :
    Host.Outcome State Fault Refusal :=
  forUnit channel 16 s fun s =>
    let s1 := s.count (Off.lensDrCnt channel 3) 1
    if uncorrectable then s1.dramUncorrectable channel addr (device.getD 0)
    else match device with
      | none => s1
      | some d => s1.dramCorrected channel addr d nbits

/-- A DRAM thermal alert, or write CRC retries exhausted (16 R421, 17 R454). -/
def execDramAlert (channel : Nat) (thermal : Bool) (s : State) : Host.Outcome State Fault Refusal :=
  forUnit channel 16 s fun s => s.dramEvent channel (if thermal then 9 else 8) 0 0 3

/-- The fuse entry of a condemnation (17 R444). -/
def fuseEntry (e : SpareEnt) : BitVec 32 :=
  let hi := 0x80 + e.kind % 16 * 8
  let g := e.group % 256
  let u := e.unit % 256
  BitVec.ofNat 32 (hi * 2 ^ 24 + g * 65536 + u * 256 + (255 - Nat.xor (Nat.xor hi g) u))

/-- Whether the fuses hold entries of a kind: those of 17 R438 kinds 0 to 5. -/
def fusable (kind : Nat) : Bool := decide (1 ≤ kind) && decide (kind ≤ 9)

/-- The next fuse entry to program. -/
def State.fuseNext (s : State) : Nat := s.fld Off.spareStat 52 10

/-- SPARE_STAT.fuse_next moved (17 R445): at 512 the array is full. -/
def State.fuseMoved (s : State) (n : Nat) : State :=
  let s1 := s.setFld Off.spareStat 52 10 n
  if 512 ≤ n ∧ !s.flag Off.spareStat 63 then (s1.setFlag Off.spareStat 63 true).raise 749 else s1

/-- The map with the entry of a value marked as held by the fuses. -/
def markFused (v : BitVec 32) (es : List SpareEnt) : List SpareEnt :=
  es.map fun e => if fusable e.kind && fuseEntry e == v then { e with fused := true } else e

/-- A fuse slot programmed with a value: it reads back as intended, and the record of 17 R445 is cleared. -/
def State.fuseWrite (s : State) (slot : Nat) (v : BitVec 32) : State :=
  let s1 := s.setReg (Off.spmapFuse slot) v.toNat
  let s2 : State := { s1 with svc := { s1.svc with fuseProg := none, map := markFused v s1.svc.map } }
  s2.fuseMoved (max s2.fuseNext (slot + 1))

/-- What the fuses are to be given next (17 R445): the slot on record, else the oldest condemnation not fused, where the array has
room. -/
def State.fuseTask (s : State) : Option (Nat × BitVec 32) :=
  match s.svc.fuseProg with
  | some t => some t
  | none =>
    if 512 ≤ s.fuseNext then none
    else (s.svc.map.find? fun e => fusable e.kind && !e.fused).map fun e => (s.fuseNext, fuseEntry e)

/-- A fuse entry programmed (17 R445): in full, or cut short by a reset or a loss of power, when some of the intended bits are set
and the record stays. -/
def execFuseProgram (ok : Bool) (s : State) : Host.Outcome State Fault Refusal :=
  .next (
    match s.fuseTask with
    | none => s
    | some (slot, v) =>
      if ok then s.fuseWrite slot v
      else
        let s1 : State := { s with svc := { s.svc with fuseProg := some (slot, v) } }
        s1.setReg (Off.spmapFuse slot) ((BitVec.ofNat 32 (s.reg (Off.spmapFuse slot)) ||| Config.fuseCutShort slot v) &&& v).toNat)

/-- AGE_c.deg after a measurement (17 R448). -/
def execAgeMeasure (c deg : Nat) (s : State) : Host.Outcome State Fault Refusal :=
  forUnit c 16 s fun s => s.setReg (Off.age c) (min deg 0xFFFF)

/-- ln 2 in units of 2^-64. -/
def ln2Q : Nat := 0xB17217F7D1CF79AB

/-- The series of the exponential of `r` units of 2^-64, from term `k` on. -/
def expSeries (r : Nat) : Nat → Nat → Nat → Nat
  | 0, _, _ => 0
  | fuel + 1, k, term => term + expSeries r fuel (k + 1) (term * r / 2 ^ 64 / (k + 1))

/-- The exponential of `x` units of 2^-64, in the same units (DESIGN CHOICE, log 62: rounded towards zero). -/
def expQ (x : Int) : Nat :=
  let k := x / (ln2Q : Int)
  let m := expSeries (x - k * ln2Q).toNat 30 0 (2 ^ 64)
  if 0 ≤ k then m * 2 ^ k.toNat else m / 2 ^ (-k).toNat

/-- The equivalent hours that one minute at a junction temperature adds, in units of 2^-64 h (17 R450); the temperature is in units
of 0.125 °C. -/
def lifeGain (t : Int) : Nat :=
  let d := 25 * t + 54630
  if d ≤ 0 then 0
  else expQ (8123500 * 2 ^ 64 * 20 / (7563 * 1000) - 8123500 * 2 ^ 64 * 200 / (d * 1000)) / 60

/-- The hottest of the latest readings. -/
def State.hottest (s : State) : Int := thermPeak ((List.range 24).map fun i => thermVal (s.fld (Off.therm i) 0 16))

/-- A minute of operation, and with it an hour where one is complete (17 R450). -/
def execLifeUpdate (hour : Bool) (s : State) : Host.Outcome State Fault Refusal :=
  .next (
    let f := s.chip.lifeFrac + lifeGain s.hottest
    let eqv := min (s.fld Off.life 32 32 + f / 2 ^ 64) (2 ^ 32 - 1)
    let pow := min (s.fld Off.life 0 32 + bit01 hour) (2 ^ 32 - 1)
    { s.setReg Off.life (eqv * 2 ^ 32 + pow) with chip := { s.chip with lifeFrac := f % 2 ^ 64 } })

end Sys2Proof.Machine
end

