-- ==== Sys2Proof/Machine/SpareMap.lean ====
section
/-! DEFINITION. What the sparing map sets (17 R445-R447, 02 R60-R65): the pairs of each cluster, way maps, engine maps, spare lanes
and the counts of SPARE_STAT; and the merge of its two copies at a cold reset. -/

namespace Sys2Proof.Machine

/-- The spares of a cluster not yet taken: P6, P7, slice 3. -/
structure Spares where
  p6 : Bool
  p7 : Bool
  s3 : Bool
  deriving DecidableEq, Repr

/-- A unit with the spare that stands for it (02 R62): the unit itself, or the spare where the unit is condemned and the spare is
free, or none; with whether the spare is still free. -/
def pickUnit (bad : Bool) (own spare : Nat) (free : Bool) : Option Nat × Bool :=
  if !bad then (some own, free) else if free then (some spare, false) else (none, free)

/-- The cores and the slice of pair `k` (02 R35, R62, R65), and the spares left; a pair that does not form takes none. -/
def State.pairUnits (s : State) (c k : Nat) (f : Spares) : Option (Nat × Nat × Nat) × Spares :=
  let (a, f6) := pickUnit (s.condemned 1 c (2 * k)) (2 * k) 6 f.p6
  let (b, f7) := pickUnit (s.condemned 1 c (2 * k + 1)) (2 * k + 1) 7 f.p7
  let (d, f3) := pickUnit (s.condemned 2 c k) k 3 f.s3
  match a, b, d with
  | some a, some b, some d => (some (a, b, d), ⟨f6, f7, f3⟩)
  | _, _, _ => (none, f)

/-- The spares that a cluster has before any is taken. -/
def State.sparesOf (s : State) (c : Nat) : Spares := ⟨!s.condemned 1 c 6, !s.condemned 1 c 7, !s.condemned 2 c 3⟩

/-- The state code of a spare in CMP_SPARE (02 R69): available, in use, condemned. -/
def spareCode (at0 left : Bool) : Nat := if !at0 then 2 else if left then 0 else 1

/-- CMP_SPARE written for the spares left; the lane field of the comparator test is kept. -/
def State.cmpSpareSet (s : State) (c : Nat) (f : Spares) : State :=
  let g := s.sparesOf c
  s.setFld (Off.cmpSpare c) 0 6 (spareCode g.p6 f.p6 + 4 * spareCode g.p7 f.p7 + 16 * spareCode g.s3 f.s3)

/-- One pair of a mirror cluster formed (02 R62): its map, or LOST where it does not form or its logical processor is lost. -/
def State.pairSet (s : State) (c k : Nat) (u : Option (Nat × Nat × Nat)) : State :=
  let n := 6 * c + k
  let gone := u.isNone || (s.lp n).run == .lost
  let (a, b, d) := u.getD (2 * k, 2 * k + 1, k)
  let s1 := (s.setReg (Off.cmpMap c k) (a + 16 * b + 256 * d + 4096 * bit01 gone)).setFld (Off.cmpStat c k) 12 2 d
  if gone then s1.onLp n fun p => { p with run := .lost } else s1

/-- Which slots of a split cluster no core serves (02 R65), with the spares left. -/
def State.splitUnits (s : State) (c : Nat) : List Nat × Spares :=
  (List.range 6).foldl (fun (a : List Nat × Spares) k =>
    let f := a.2
    if !s.condemned 1 c k then a
    else if k % 2 = 0 then (if f.p6 then (a.1, { f with p6 := false }) else (a.1 ++ [k], f))
    else if f.p7 then (a.1, { f with p7 := false }) else (a.1 ++ [k], f)) ([], s.sparesOf c)

/-- The pairs or the slots of a cluster formed from the sparing map (02 R60-R65). -/
def State.clusterForm (s : State) (c : Nat) : State :=
  if s.isSplit c then
    let (gone, f) := s.splitUnits c
    let s1 := (List.range 3).foldl (fun (t : State) k =>
      t.setReg (Off.cmpMap c k) (2 * k + 16 * (2 * k + 1) + 256 * k + 4096 * 2)) s
    (gone.foldl (fun (t : State) k => t.onLp (6 * c + k) fun p => { p with run := .lost }) s1).cmpSpareSet c f
  else
    let r := (List.range 3).foldl (fun (a : State × Spares) k =>
      let (u, f) := s.pairUnits c k a.2
      (a.1.pairSet c k u, f)) (s, s.sparesOf c)
    r.1.cmpSpareSet c r.2

/-- A way map after one condemnation in order (07 R197-R199, 17 R446). -/
def waymapWith (v phys : Nat) : Nat :=
  if bitOf v phys then v
  else
    let j := if phys < 16 then some phys
      else
        let f := bits v (if phys = 16 then 32 else 40) 5
        if f = 0x1F then none else some f
    let spare := if !bitOf v 16 && bits v 32 5 == 0x1F && phys != 16 then some 16
      else if !bitOf v 17 && bits v 40 5 == 0x1F && phys != 17 then some 17 else none
    match j, spare with
    | some j, some q => waymapAfter v j phys q
    | none, _ => setBit v phys true
    | some _, none => v

/-- The way map of a cache as the sparing map gives it. -/
def State.waymapOf (s : State) (kind group : Nat) : Nat :=
  (s.svc.map.filter fun e => e.kind == kind && e.group == group).foldl (fun v e => waymapWith v e.unit) 0x00001F1F00000000

/-- The way maps set. -/
def State.waymapsSet (s : State) : State :=
  let s1 := (List.range 16).foldl (fun (t : State) c => t.setReg (Off.l2Waymap c) (t.waymapOf 3 c)) s
  (List.range 32).foldl (fun (t : State) i => t.setReg (Off.scWaymap i) (t.waymapOf 4 i)) s1

/-- The physical engine that serves each logical engine of Tradewind (08 R236, 17 R446), and the spares not taken. -/
def State.teMap (s : State) : List Nat × List Nat :=
  (List.range 16).foldl (fun (a : List Nat × List Nat) e =>
    if !s.condemned 5 0 e then (a.1 ++ [e], a.2)
    else match a.2 with
      | q :: t => (a.1 ++ [q], t)
      | [] => (a.1 ++ [e], [])) ([], [16, 17].filter fun i => !s.condemned 5 0 i)

/-- TW_ENGMAP and TE_STAT set. -/
def State.teMapSet (s : State) : State :=
  let m := s.teMap
  let s1 := (List.range 18).foldl (fun (t : State) i =>
    t.setReg (Off.teStat i) (if t.condemned 5 0 i then 2 else 0)) s
  (List.range 16).foldl (fun (t : State) e =>
    let i := m.1.getD e e
    let t1 := t.setFld (Off.twEngmap (e / 8)) (8 * (e % 8)) 5 i
    if t1.condemned 5 0 i then t1.setFld (Off.teStat i) 8 4 e else (t1.setFld (Off.teStat i) 0 2 1).setFld (Off.teStat i) 8 4 e)
    { s1 with tengs := [] }

/-- PORT_STAT.spare_lane set: the port of a condemned lane is served by its group's spare lane (09 R279). -/
def State.lanesSet (s : State) : State :=
  (s.svc.map.filter fun e => e.kind == 9 && decide (e.unit < 16) && !s.condemned 9 e.group 16).foldl
    (fun (t : State) e => t.setFlag (Off.portStat (16 * e.group + e.unit)) 7 true) s

/-- The spare ways of a way map not in use and not retired. -/
def waysLeft (v : Nat) : Nat :=
  bit01 (!bitOf v 16 && bits v 32 5 == 0x1F) + bit01 (!bitOf v 17 && bits v 40 5 == 0x1F)

/-- A sum over numbers below a bound. -/
def sumUpTo (n : Nat) (f : Nat → Nat) : Nat := (List.range n).foldl (fun k i => k + f i) 0

/-- SPARE_STAT's counts (17 R454): the spares neither in use nor condemned. -/
def State.spareStatSet (s : State) : State :=
  let cores := sumUpTo 16 (fun c => bit01 (s.fld (Off.cmpSpare c) 0 2 == 0) + bit01 (s.fld (Off.cmpSpare c) 2 2 == 0)) +
    (if s.svc.map.any fun e => e.kind == 8 then 0 else 2)
  let slices := sumUpTo 16 fun c => bit01 (s.fld (Off.cmpSpare c) 4 2 == 0)
  let l2 := sumUpTo 16 fun c => waysLeft (s.reg (Off.l2Waymap c))
  let sc := sumUpTo 32 fun i => waysLeft (s.reg (Off.scWaymap i))
  let eng := sumUpTo 18 (fun i => bit01 (s.fld (Off.teStat i) 0 2 == 0)) +
    sumUpTo 36 fun e => bit01 (s.fld (Off.peStat e) 0 2 == 0) + bit01 (s.fld (Off.ceStat e) 0 2 == 0)
  let lanes := sumUpTo 8 fun g => bit01 (!s.svc.map.any fun e => e.kind == 9 && e.group == g)
  let rows := 1312 - s.nvj.spareA - s.nvj.spareB
  let dram := Config.dramUnits - s.svc.marks.length
  let s1 := (((s.setFld Off.spareStat 0 6 cores).setFld Off.spareStat 6 5 slices).setFld Off.spareStat 11 6 l2).setFld Off.spareStat 17 7 sc
  (((s1.setFld Off.spareStat 24 4 eng).setFld Off.spareStat 28 4 lanes).setFld Off.spareStat 32 11 rows).setFld Off.spareStat 43 8 dram

/-- Every register that the sparing map sets (17 R446, R447). -/
def State.mapApply (s : State) : State :=
  let s1 := (List.range 16).foldl (fun (t : State) c => t.clusterForm c) s
  let s2 := ((s1.waymapsSet.teMapSet.engineMap .prism).engineMap .cipher).lanesSet
  ((List.range 16).foldl (fun (t : State) c => t.dramSpareShow c) s2).spareStatSet

/-- What a fuse slot holds, where it is a valid entry (17 R444). -/
def fuseParse (v : Nat) : Option SpareEnt :=
  let hi := bits v 24 8
  let g := bits v 16 8
  let u := bits v 8 8
  if bitOf v 31 ∧ bits v 0 8 = 255 - Nat.xor (Nat.xor hi g) u ∧ bits hi 0 3 = 0 ∧ fusable (bits hi 3 4) then
    some ⟨bits hi 3 4, g, u, true⟩
  else none

/-- The slots of the fuse array that are not blank, or on record as in programming, in order. -/
def State.fuseSlots (s : State) : List Nat :=
  (List.range 512).filter fun i => s.reg (Off.spmapFuse i) != 0 || (match s.svc.fuseProg with | some (k, _) => k == i | none => false)

/-- The fuse slots that hold entries which count (17 R446). -/
def State.fuseEntries (s : State) : List (Nat × Option SpareEnt) :=
  s.fuseSlots.map fun i =>
    (i, match s.svc.fuseProg with
      | some (k, _) => if k = i then none else fuseParse (s.reg (Off.spmapFuse i))
      | none => fuseParse (s.reg (Off.spmapFuse i)))

/-- A fuse entry read at the merge: added to the NVJ copy where it lacks it, with source 749. -/
def State.mergeEntry (s : State) (e : SpareEnt) : State :=
  if s.condemned e.kind e.group e.unit then { s with svc := { s.svc with map := markFused (fuseEntry e) s.svc.map } }
  else ({ s with svc := { s.svc with map := s.svc.map ++ [e] } } : State).raise 749

/-- The entries of the NVJ copy alone programmed into the fuses, oldest first (17 R446). -/
def State.mergeFuse (s : State) : Nat → State
  | 0 => s
  | fuel + 1 =>
    match s.fuseTask with
    | none => s
    | some (slot, v) => ((s.fuseWrite slot v).raise 749).mergeFuse fuel

/-- The merge of the two copies (17 R446, R447). -/
def State.mapMerge (s : State) (nvjOk fuseOk : Bool) : State :=
  let s0 := if nvjOk then s
    else ({ s with svc := { s.svc with map := [], marks := [], rows := [] } } : State).raise 749
  if !fuseOk then ({ s0 with svc := { s0.svc with fuseProg := none } } : State).raise 749
  else
    let es := s0.fuseEntries
    let s1 := es.foldl (fun (t : State) x => match x.2 with | some e => t.mergeEntry e | none => t.raise 749)
      { s0 with svc := { s0.svc with fuseProg := none, map := s0.svc.map.map fun e => { e with fused := false } } }
    let s2 := s1.fuseMoved (match es.getLast? with | some x => x.1 + 1 | none => 0)
    s2.mergeFuse s2.svc.map.length

end Sys2Proof.Machine
end

