-- ==== Sys2Proof/Machine/Bist.lean ====
section
/-! DEFINITION. Self-test (19 R472-R479) and the start-up comparator test (02 R61, R62). -/

namespace Sys2Proof.Machine

/-- A run of self-test: scope, unit and kind. -/
abbrev BistRun := Nat × Nat × Nat

/-- Whether a scope and its unit exist (19 R472). -/
def bistExists (scope unit : Nat) : Bool :=
  match scope with
  | 1 => decide (unit < 16)
  | 2 => decide (unit < 16)
  | 3 => decide (unit < 18)
  | 4 => decide (unit < 36)
  | 5 => decide (unit < 36)
  | _ => false

/-- The state register of an engine under test. -/
def bistEngine (scope unit : Nat) : Nat :=
  match scope with
  | 3 => Off.teStat unit
  | 4 => Off.peStat unit
  | _ => Off.ceStat unit

/-- Whether a cluster is offline (19 R475). -/
def State.offline (s : State) (c : Nat) : Bool := bitOf s.chip.offline c

/-- The prerequisite of a run (19 R472). -/
def State.bistReady (s : State) (scope unit : Nat) : Bool :=
  if scope ≤ 2 then s.offline unit
  else
    let st := s.fld (bistEngine scope unit) 0 2
    st == 0 || (scope != 3 && st == 3)

/-- The sub-units that a scope tests, as bits of BIST_FAIL (19 R472, R492). -/
def bistMask (scope : Nat) : Nat :=
  match scope with
  | 1 => 0x1FFF
  | 2 => 0x7FFFFFFF
  | _ => 1

/-- The bits of BIST_FAIL whose units are condemned already: these are not in use and not tested. -/
def State.bistGone (s : State) (scope unit : Nat) : Nat :=
  if scope ≤ 2 then
    sumUpTo 8 (fun n => bit01 (s.condemned 1 unit n) * 2 ^ n) + sumUpTo 4 (fun j => bit01 (s.condemned 2 unit j) * 2 ^ (8 + j)) +
      sumUpTo 18 fun j => bit01 (s.condemned 3 unit j) * 2 ^ (13 + j)
  else 0

/-- The failing sub-units of a verdict that count. -/
def State.bistCounts (s : State) (scope unit : Nat) (fail : BitVec 31) : Nat :=
  (fail &&& BitVec.ofNat 31 (bistMask scope) &&& ~~~ BitVec.ofNat 31 (s.bistGone scope unit)).toNat

/-- The numbers below `n` whose bits, from bit `lo` on, are set. -/
def setAt (v lo n : Nat) : List Nat := (List.range n).filter fun i => bitOf v (lo + i)

/-- Whether failing cores of one orientation can be spared (19 R478): at most one, with its spare free and not failing. -/
def coresSpare (cores : List Nat) (odd : Nat) (free : Bool) : Bool :=
  let mine := cores.filter fun n => n % 2 == odd
  mine.isEmpty || (mine.length == 1 && free && mine.all fun n => decide (n < 6))

/-- Whether every failing sub-unit of a cluster can be spared (19 R478; the case of a failing spare by log 63). -/
def State.clusterSpares (s : State) (c v : Nat) : Bool :=
  let t := s.clusterForm c
  let free := fun i => t.fld (Off.cmpSpare c) (2 * i) 2 == 0
  let cores := setAt v 0 8
  let slices := setAt v 8 4
  let ways := setAt v 13 18
  let m := s.waymapOf 3 c
  let used := fun w => decide (w < 16) || bits m (if w = 16 then 32 else 40) 5 != 0x1F
  let left := [16, 17].filter fun w => !bitOf m w && !used w
  !bitOf v 12 && coresSpare cores 0 (free 0) && coresSpare cores 1 (free 1) &&
    (slices.isEmpty || (slices.length == 1 && free 2 && slices.all fun j => decide (j < 3))) &&
    (ways.isEmpty || (ways.all used && decide (ways.length ≤ left.length)))

/-- A spare that is condemned without having been taken in: its entry, one spare fewer. -/
def State.spareOut (s : State) (kind group unit : Nat) : State :=
  if s.condemned kind group unit then s
  else
    let (lo, w) := spareField kind
    ({ s with svc := { s.svc with map := s.svc.map ++ [⟨kind, group, unit, false⟩] } } : State).spareTaken lo w

/-- The failing sub-units of a cluster condemned, their spares taken for the next CLUSTER_ONLINE (19 R478). -/
def State.clusterCondemn (s : State) (c v : Nat) : State :=
  let s1 := (setAt v 0 8).foldl (fun (t : State) n => t.condemn 1 c n (16 * c + 3) true) s
  let s2 := (setAt v 8 4).foldl (fun (t : State) j => t.condemn 2 c j (16 * c + 3) true) s1
  (setAt v 13 18).foldl (fun (t : State) j => t.condemn 3 c j (16 * c + 13) true) s2

/-- A failing engine condemned: a SPARE one leaves the spares (19 R478). -/
def State.engineCondemn (s : State) (scope unit : Nat) : State :=
  let off := bistEngine scope unit
  let kind := scope + 2
  let s1 := if s.fld off 0 2 = 0 then s.spareOut kind 0 unit
    else if s.condemned kind 0 unit then s
    else { s with svc := { s.svc with map := s.svc.map ++ [⟨kind, 0, unit, false⟩] } }
  s1.setFld off 0 2 2

/-- An engine that was DISABLED and passed becomes SPARE (19 R478). -/
def State.engineBack (s : State) (scope unit : Nat) : State :=
  let off := bistEngine scope unit
  if scope ≤ 2 ∨ s.fld off 0 2 ≠ 3 then s
  else (s.setFld off 0 2 0).setFld Off.spareStat 24 4 (min 10 (s.fld Off.spareStat 24 4 + 1))

/-- What a run leaves in its cluster (19 R476): contents destroyed, cause registers at their reset values. -/
def State.bistWipe (s : State) (scope unit : Nat) : State :=
  if scope ≤ 2 then
    let s1 := (clusterSlots unit).foldl (fun (t : State) n => t.onLp n fun p => { p with l1d := L1.empty, l1i := L1.empty, invq := [], sb := [] }) s
    let s2 := (List.range 3).foldl (fun (t : State) k =>
      ((t.setReg (Off.cmpStat unit k) (t.fld (Off.cmpStat unit k) 12 2 * 4096)).setReg (Off.cmpTimeNs unit k) 0).setReg (Off.cmpTimeFr unit k) 0) s1
    (s2.onL2 unit fun _ => Cache.empty).setReg (Off.l2Err unit) 0
  else s

/-- The exclusive or of the signatures of the sub-units of a run that passed (19 R473). -/
def bistSigPass (scope kind : Nat) : BitVec 64 :=
  (setAt (bistMask scope) 0 31).foldl (fun v i => v ^^^ Config.bistSignature scope kind i) 0

/-- BIST_STAT, BIST_SIG and BIST_FAIL at the end of a run (19 R473, R492): a failing signature is a free value. -/
def State.bistShow (s : State) (r : BistRun) (v : Nat) : State :=
  let (sig, s1) := if v = 0 then ((bistSigPass r.1 r.2.2).toNat, s) else s.fresh
  let s2 := s1.setReg Off.bistStat (2 ^ 31 + bit01 (v == 0) * 2 ^ 29 + r.2.1 * 65536 + r.1 * 256 + r.2.2)
  (((s2.setReg Off.bistSig sig).setReg Off.bistFail v).setFlag Off.bistCtrl 31 false)

/-- How a run ends (19 R478): passed, spared, or not to be spared. -/
inductive BistEnd where | pass | spared | failed
  deriving DecidableEq, Repr

/-- The outcome of a run by its failing sub-units. -/
def State.bistVerdict (s : State) (r : BistRun) (v : Nat) : BistEnd :=
  if v = 0 then .pass
  else if r.1 ≤ 2 then (if s.clusterSpares r.2.1 v then .spared else .failed)
  else .spared

/-- A run's end (19 R473, R476, R478): its verdict shown and acted on. -/
def State.bistEnd (s : State) (r : BistRun) (fail : BitVec 31) : State × BistEnd :=
  let v := s.bistCounts r.1 r.2.1 fail
  let e := s.bistVerdict r v
  let s1 := (({ s with chip := { s.chip with bist := none } } : State).bistWipe r.1 r.2.1).bistShow r v
  (match e with
    | .pass => s1.engineBack r.1 r.2.1
    | .spared => if r.1 ≤ 2 then s1.clusterCondemn r.2.1 v else s1.engineCondemn r.1 r.2.1
    | .failed => s1, e)

/-- A write of BIST_CTRL (19 R472, R492): go starts a run where none is in progress and its prerequisite holds. -/
def State.bistCtrlWrite (s : State) (v : Nat) : State :=
  let scope := bits v 8 8
  let unit := bits v 16 8
  let kind := bits v 0 1
  let s1 := s.setReg Off.bistCtrl (s.reg Off.bistCtrl / 2 ^ 31 % 2 * 2 ^ 31 + unit * 65536 + scope * 256 + kind)
  if bitOf v 31 && s.chip.bist.isNone && bistExists scope unit && s.bistReady scope unit then
    ({ s1.setFlag Off.bistCtrl 31 true with chip := { s1.chip with bist := some (scope, unit, kind) } } : State).setFlag Off.bistStat 30 true
  else s1

/-- The end of the run in progress (19 R473). -/
def execBistDone (fail : BitVec 31) (s : State) : Host.Outcome State Fault Refusal :=
  .next (match s.chip.bist with
    | some r => (s.bistEnd r fail).1
    | none => s)

/-- CMP_TEST and CMP_SPARE.lane_s0_lo after a comparator test (02 R69): the failing slices and their first failing lanes. -/
def State.cmpTestShow (s : State) (c : Nat) (fails : List (Nat × Nat)) : State :=
  let lane := fun j => (tblGet? fails j).getD 0 % 1024
  let mask := sumUpTo 4 fun j => bit01 (fails.any fun f => f.1 == j) * 2 ^ j
  let s1 := s.setReg (Off.cmpTest c)
    (lane 3 * 2 ^ 48 + lane 2 * 2 ^ 32 + lane 1 * 2 ^ 16 + lane 0 / 16 * 2 ^ 10 + mask * 16 + 1)
  s1.setFld (Off.cmpSpare c) 8 4 (lane 0 % 16)

/-- The comparator test of a cluster (02 R61, R62): a failing slice is condemned, slice 3 takes its place where it is free, and the
start-up test source is raised. -/
def State.cmpTestRun (s : State) (c : Nat) (fails : List (Nat × Nat)) : State :=
  let bad := fails.filter fun f => decide (f.1 < 4)
  let s1 := s.cmpTestShow c bad
  let s2 := if bad.any fun f => f.1 == 3 then s1.spareOut 2 c 3 else s1
  let s3 := (bad.filter fun f => f.1 != 3).foldl (fun (t : State) f =>
    if t.condemned 2 c f.1 then t
    else t.condemn 2 c f.1 (16 * c + 3) ((t.clusterForm c).fld (Off.cmpSpare c) 4 2 == 0)) s2
  if bad.isEmpty then s3 else s3.raise (16 * c + 3)

end Sys2Proof.Machine
end

