-- ==== Sys2Proof/Machine/Crypto.lean ====
section
/-! DEFINITION. The algorithms that 12 R349 names by their standards: AES (FIPS 197), GCM (SP 800-38D), CTR (SP 800-38A), XTS
(IEEE 1619), SHA-256 and SHA-384 (FIPS 180-4), HMAC (FIPS 198-1). They are PRESUMED from those standards, log 54. Blocks and
digests are numbers whose most significant byte comes first. -/

namespace Sys2Proof.Machine

/-- A product in the field of AES, modulo x^8 + x^4 + x^3 + x + 1. -/
def gfMul (a b : Nat) : Nat :=
  ((List.range 8).foldl (fun (r : Nat × Nat) i =>
    let acc := if bitOf b i then Nat.xor r.1 r.2 else r.1
    let x := r.2 * 2
    (acc, if x < 256 then x else Nat.xor (x % 256) 0x1B)) (0, a)).1

/-- The inverse in the field of AES: the 254th power; zero of zero. -/
def gfInv (a : Nat) : Nat :=
  let a2 := gfMul a a
  let a4 := gfMul a2 a2
  let a8 := gfMul a4 a4
  let a16 := gfMul a8 a8
  let a32 := gfMul a16 a16
  let a64 := gfMul a32 a32
  let a128 := gfMul a64 a64
  gfMul (gfMul (gfMul a128 a64) (gfMul a32 a16)) (gfMul (gfMul a8 a4) a2)

/-- A byte rotated left. -/
def rotByte (a n : Nat) : Nat := (a * 2 ^ n) % 256 + a / 2 ^ (8 - n)

/-- The S-box. -/
def aesSub (a : Nat) : Nat :=
  let b := gfInv a
  Nat.xor (Nat.xor (Nat.xor (Nat.xor (Nat.xor b (rotByte b 1)) (rotByte b 2)) (rotByte b 3)) (rotByte b 4)) 0x63

/-- The inverse S-box. -/
def aesSubInv (a : Nat) : Nat := gfInv (Nat.xor (Nat.xor (Nat.xor (rotByte a 1) (rotByte a 3)) (rotByte a 6)) 5)

/-- Bytes combined by exclusive or. -/
def xorBytes (a b : List Nat) : List Nat := List.zipWith Nat.xor a b

/-- The words of a key schedule, newest last; `i` counts words, `nk` words of key. -/
def aesExpand (nk : Nat) : Nat → Nat → List (List Nat) → List (List Nat)
  | 0, _, ws => ws
  | fuel + 1, i, ws =>
    let prev := ws.getD (i - 1) []
    let rcon := (List.range (i / nk - 1)).foldl (fun r _ => gfMul r 2) 1
    let t :=
      if i % nk = 0 then
        match (prev.drop 1 ++ prev.take 1).map aesSub with
        | x :: r => Nat.xor x rcon :: r
        | [] => []
      else if nk = 8 ∧ i % 8 = 4 then prev.map aesSub else prev
    aesExpand nk fuel (i + 1) (ws ++ [xorBytes (ws.getD (i - nk) []) t])

/-- The round keys of a key of 16 or 32 bytes, 16 bytes each. -/
def aesKeys (key : List Nat) : List (List Nat) :=
  let nk := key.length / 4
  let ws := aesExpand nk (4 * (nk + 7) - nk) nk ((List.range nk).map fun i => (key.drop (4 * i)).take 4)
  (List.range (nk + 7)).map fun r => ((ws.drop (4 * r)).take 4).flatten

/-- Rows of the state moved: `d` is 1 for encryption, 3 for decryption. -/
def aesShift (d : Nat) (st : List Nat) : List Nat :=
  (List.range 16).map fun i => st.getD ((i / 4 + d * (i % 4)) % 4 * 4 + i % 4) 0

/-- One column multiplied by the matrix whose first row is given. -/
def aesMixCol (row col : List Nat) : List Nat :=
  (List.range 4).map fun r =>
    (List.range 4).foldl (fun acc c => Nat.xor acc (gfMul (row.getD ((c + 4 - r) % 4) 0) (col.getD c 0))) 0

/-- Columns mixed. -/
def aesMix (row st : List Nat) : List Nat := (List.range 4).flatMap fun c => aesMixCol row ((st.drop (4 * c)).take 4)

/-- One block of 16 bytes encrypted (FIPS 197). -/
def aesEnc (key blk : List Nat) : List Nat :=
  match aesKeys key with
  | [] => blk
  | k0 :: ks =>
    let n := ks.length
    ((ks.zipIdx).foldl (fun st (k : List Nat × Nat) =>
      let x := aesShift 1 (st.map aesSub)
      xorBytes (if k.2 + 1 = n then x else aesMix [2, 3, 1, 1] x) k.1) (xorBytes blk k0))

/-- One block of 16 bytes decrypted (FIPS 197). -/
def aesDec (key blk : List Nat) : List Nat :=
  match (aesKeys key).reverse with
  | [] => blk
  | k0 :: ks =>
    let n := ks.length
    ((ks.zipIdx).foldl (fun st (k : List Nat × Nat) =>
      let x := xorBytes ((aesShift 3 st).map aesSubInv) k.1
      if k.2 + 1 = n then x else aesMix [14, 11, 13, 9] x) (xorBytes blk k0))

/-- The number that byte values spell, the first most significant. -/
def numBE (l : List Nat) : Nat := l.foldl (fun a b => a * 256 + b) 0

/-- The `n` byte values of a number, the most significant first. -/
def bytesBE (n v : Nat) : List Nat := (natBytesBE n v).map (·.toNat)

/-- A product in the field of GHASH (SP 800-38D). -/
def ghMul (x y : Nat) : Nat :=
  ((List.range 128).foldl (fun (r : Nat × Nat) i =>
    let z := if bitOf x (127 - i) then Nat.xor r.1 r.2 else r.1
    (z, if r.2 % 2 = 1 then Nat.xor (r.2 / 2) (0xE1 * 2 ^ 120) else r.2 / 2)) (0, y)).1

/-- GHASH gone on over byte values: the accumulator and the bytes of a block not yet full. -/
def ghFeed (h : Nat) : List Nat → Nat × List Nat → Nat × List Nat
  | [], r => r
  | b :: t, (acc, part) =>
    let p := part ++ [b]
    if p.length = 16 then ghFeed h t (ghMul (Nat.xor acc (numBE p)) h, []) else ghFeed h t (acc, p)

/-- A block not full padded with zeros. -/
def ghPad (h : Nat) (r : Nat × List Nat) : Nat × List Nat :=
  if r.2.isEmpty then r else (ghMul (Nat.xor r.1 (numBE (r.2 ++ List.replicate (16 - r.2.length) 0))) h, [])

/-- The keystream byte at a place of a counter stream: the block counter is a big-endian integer of `w` bits in the low end of
the block (SP 800-38A, SP 800-38D). -/
def ctrBlock (key : List Nat) (icb w n : Nat) : List Nat := aesEnc key (bytesBE 16 (setBits icb 0 w (bits icb 0 w + n)))

/-- Bytes combined with a counter stream from byte place `pos` on. -/
def ctrXor (key : List Nat) (icb w : Nat) (pos : Nat) (data : List Nat) : List Nat :=
  let first := pos / 16
  let n := (pos % 16 + data.length + 15) / 16
  let ks := (List.range n).flatMap fun i => ctrBlock key icb w (first + i)
  xorBytes data (ks.drop (pos % 16))

/-- A tweak doubled (IEEE 1619): the 16 bytes are a little-endian number. -/
def xtsDouble (t : Nat) : Nat := if bitOf t 127 then Nat.xor (t * 2 % 2 ^ 128) 0x87 else t * 2

/-- One XTS block; `enc` is the block cipher in its direction. -/
def xtsBlock (enc : List Nat → List Nat) (t : Nat) (b : List Nat) : List Nat :=
  let tw := (natBytes 16 t).map (·.toNat)
  xorBytes (enc (xorBytes b tw)) tw

/-- The tweak `n` blocks on. -/
def xtsTweak (t : Nat) : Nat → Nat
  | 0 => t
  | n + 1 => xtsTweak (xtsDouble t) n

/-- The round constants of SHA-512, whose high halves are those of SHA-256 (FIPS 180-4). -/
def shaK0 : List Nat := [
  0x428a2f98d728ae22, 0x7137449123ef65cd, 0xb5c0fbcfec4d3b2f, 0xe9b5dba58189dbbc, 0x3956c25bf348b538, 0x59f111f1b605d019,
  0x923f82a4af194f9b, 0xab1c5ed5da6d8118, 0xd807aa98a3030242, 0x12835b0145706fbe, 0x243185be4ee4b28c, 0x550c7dc3d5ffb4e2,
  0x72be5d74f27b896f, 0x80deb1fe3b1696b1, 0x9bdc06a725c71235, 0xc19bf174cf692694, 0xe49b69c19ef14ad2, 0xefbe4786384f25e3,
  0x0fc19dc68b8cd5b5, 0x240ca1cc77ac9c65, 0x2de92c6f592b0275, 0x4a7484aa6ea6e483, 0x5cb0a9dcbd41fbd4, 0x76f988da831153b5,
  0x983e5152ee66dfab, 0xa831c66d2db43210, 0xb00327c898fb213f, 0xbf597fc7beef0ee4]
@[inherit_doc shaK0] def shaK1 : List Nat := [
  0xc6e00bf33da88fc2, 0xd5a79147930aa725, 0x06ca6351e003826f, 0x142929670a0e6e70, 0x27b70a8546d22ffc, 0x2e1b21385c26c926,
  0x4d2c6dfc5ac42aed, 0x53380d139d95b3df, 0x650a73548baf63de, 0x766a0abb3c77b2a8, 0x81c2c92e47edaee6, 0x92722c851482353b,
  0xa2bfe8a14cf10364, 0xa81a664bbc423001, 0xc24b8b70d0f89791, 0xc76c51a30654be30, 0xd192e819d6ef5218, 0xd69906245565a910,
  0xf40e35855771202a, 0x106aa07032bbd1b8, 0x19a4c116b8d2d0c8, 0x1e376c085141ab53, 0x2748774cdf8eeb99, 0x34b0bcb5e19b48a8,
  0x391c0cb3c5c95a63, 0x4ed8aa4ae3418acb, 0x5b9cca4f7763e373, 0x682e6ff3d6b2b8a3]
@[inherit_doc shaK0] def shaK2 : List Nat := [
  0x748f82ee5defb2fc, 0x78a5636f43172f60, 0x84c87814a1f0ab72, 0x8cc702081a6439ec, 0x90befffa23631e28, 0xa4506cebde82bde9,
  0xbef9a3f7b2c67915, 0xc67178f2e372532b, 0xca273eceea26619c, 0xd186b8c721c0c207, 0xeada7dd6cde0eb1e, 0xf57d4f7fee6ed178,
  0x06f067aa72176fba, 0x0a637dc5a2c898a6, 0x113f9804bef90dae, 0x1b710b35131c471b, 0x28db77f523047d84, 0x32caab7b40c72493,
  0x3c9ebe0a15c9bebc, 0x431d67c49c100d4c, 0x4cc5d4becb3e42b6, 0x597f299cfc657e2a, 0x5fcb6fab3ad6faec, 0x6c44198c4a475817]

/-- The two hash functions: word bits, rounds, block bytes, rotations of the two sums and of the two schedule functions. -/
structure ShaKind where
  w     : Nat
  block : Nat
  out   : Nat
  big0  : Nat × Nat × Nat
  big1  : Nat × Nat × Nat
  sml0  : Nat × Nat × Nat
  sml1  : Nat × Nat × Nat
  init  : List Nat
  k     : List Nat
  deriving DecidableEq, Repr

/-- SHA-256. -/
def sha256 : ShaKind :=
  { w := 32, block := 64, out := 32, big0 := (2, 13, 22), big1 := (6, 11, 25), sml0 := (7, 18, 3), sml1 := (17, 19, 10),
    init := [0x6a09e667, 0xbb67ae85, 0x3c6ef372, 0xa54ff53a, 0x510e527f, 0x9b05688c, 0x1f83d9ab, 0x5be0cd19],
    k := ((shaK0 ++ shaK1 ++ shaK2).take 64).map (· / 2 ^ 32) }

/-- SHA-384. -/
def sha384 : ShaKind :=
  { w := 64, block := 128, out := 48, big0 := (28, 34, 39), big1 := (14, 18, 41), sml0 := (1, 8, 7), sml1 := (19, 61, 6),
    init := [0xcbbb9d5dc1059ed8, 0x629a292a367cd507, 0x9159015a3070dd17, 0x152fecd8f70e5939, 0x67332667ffc00b31,
      0x8eb44a8768581511, 0xdb0c2e0d64f98fa7, 0x47b5481dbefa4fa4],
    k := shaK0 ++ shaK1 ++ shaK2 }

/-- A word rotated right. -/
def ShaKind.ror (s : ShaKind) (x n : Nat) : Nat := x / 2 ^ n + x * 2 ^ (s.w - n) % 2 ^ s.w

/-- Three rotations combined. -/
def ShaKind.sum (s : ShaKind) (r : Nat × Nat × Nat) (x : Nat) : Nat :=
  Nat.xor (Nat.xor (s.ror x r.1) (s.ror x r.2.1)) (s.ror x r.2.2)

/-- Two rotations and a shift combined. -/
def ShaKind.sched (s : ShaKind) (r : Nat × Nat × Nat) (x : Nat) : Nat :=
  Nat.xor (Nat.xor (s.ror x r.1) (s.ror x r.2.1)) (x / 2 ^ r.2.2)

/-- The message schedule of a block, newest first. -/
def ShaKind.expand (s : ShaKind) : Nat → List Nat → List Nat
  | 0, ws => ws
  | n + 1, ws =>
    let w := (s.sched s.sml1 (ws.getD 1 0) + ws.getD 6 0 + s.sched s.sml0 (ws.getD 14 0) + ws.getD 15 0) % 2 ^ s.w
    s.expand n (w :: ws)

/-- One round on the eight working variables. -/
def ShaKind.round (s : ShaKind) (v : List Nat) (kw : Nat × Nat) : List Nat :=
  match v with
  | [a, b, c, d, e, f, g, h] =>
    let ch := Nat.xor (e &&& f) ((2 ^ s.w - 1 - e) &&& g)
    let maj := Nat.xor (Nat.xor (a &&& b) (a &&& c)) (b &&& c)
    let t1 := h + s.sum s.big1 e + ch + kw.1 + kw.2
    [(t1 + s.sum s.big0 a + maj) % 2 ^ s.w, a, b, c, (d + t1) % 2 ^ s.w, e, f, g]
  | _ => v

/-- One block compressed into the chaining value. -/
def ShaKind.compress (s : ShaKind) (h : List Nat) (blk : List Nat) : List Nat :=
  let n := s.w / 8
  let ws := ((List.range 16).map fun i => numBE ((blk.drop (n * i)).take n)).reverse
  let full := (s.expand (s.k.length - 16) ws).reverse
  (List.zipWith (· + ·) h ((List.zip s.k full).foldl s.round h)).map (· % 2 ^ s.w)

/-- Byte values hashed on: whole blocks compressed, the rest kept. -/
def ShaKind.feed (s : ShaKind) (h : List Nat) (data : List Nat) : Nat → List Nat × List Nat
  | 0 => (h, data)
  | fuel + 1 => if data.length < s.block then (h, data) else s.feed (s.compress h (data.take s.block)) (data.drop s.block) fuel

/-- The digest of a chaining value with the bytes left, `total` bytes hashed in all. -/
def ShaKind.finish (s : ShaKind) (h rest : List Nat) (total : Nat) : List Nat :=
  let lenB := s.w / 4
  let pad := (s.block * 2 - (rest.length + 1 + lenB) % s.block) % s.block
  let msg := rest ++ 0x80 :: List.replicate pad 0 ++ bytesBE lenB (total * 8)
  (((s.feed h msg 3).1).flatMap (bytesBE (s.w / 8))).take s.out

/-- The digest of byte values. -/
def ShaKind.hash (s : ShaKind) (data : List Nat) : List Nat :=
  let (h, r) := s.feed s.init data (data.length / s.block + 1)
  s.finish h r data.length

/-- The inner or outer key block of HMAC. -/
def ShaKind.pad (s : ShaKind) (key : List Nat) (x : Nat) : List Nat :=
  (key ++ List.replicate (s.block - key.length) 0).map fun b => Nat.xor b x

end Sys2Proof.Machine
end

