-- ==== Sys2Proof/Machine/Cipher.lean ====
section
/-! DEFINITION. The work of the cipher engines and the key slots (12 R349-R355): each command takes a job one segment of 65,536 bytes on
(AAD first, then src), up to its sealed record or to its end. -/

namespace Sys2Proof.Machine

/-- Byte values of bytes, and back. -/
def vals (bs : List Byte) : List Nat := bs.map (·.toNat)
@[inherit_doc vals] def bytesOf (l : List Nat) : List Byte := l.map (BitVec.ofNat 8 ·)

/-- Where a job stands in this descriptor: the AAD and src left. -/
def Job.aadLeft (x : Job) : Nat := cAadLen x.desc - (x.ci.aad - x.base.1)
@[inherit_doc Job.aadLeft] def Job.inLeft (x : Job) : Nat := cLen x.desc - (x.ci.inn - x.base.2)

/-- The progress of a job as the bytes that its seal covers. -/
def CState.bytes (c : CState) : List Byte :=
  natBytes 8 c.aad ++ natBytes 8 c.inn ++ natBytes 8 c.outn ++ natBytes 16 c.gh ++ natBytes 16 c.icb ++
    natBytes 1 c.part.length ++ bytesOf c.part ++ c.hash.flatMap (natBytes 8 ·) ++ bytesOf c.prev

/-- A state record sealed and written (12 R352, R353): none where the access fails. -/
def State.sealWrite (s : State) (x : Job) (c : CState) : Option State :=
  let r := Config.sealed s.pools.colds x.ring (cSlot x.desc) c.bytes
  let bs := (r ++ List.replicate 256 0).take 256
  let ent : Seal := ⟨x.ring, cSlot x.desc, descOp x.desc * 16 + cMode x.desc, bs, c⟩
  (s.dmaThrough (cState x.desc) bs).map fun t => t.onPools fun y => { y with seals := ent :: y.seals.filter (· != ent) }

/-- A cipher job ends with BUS_FAULT at its last segment end (12 R353). -/
def State.cipherFault (s : State) (e : Nat) : State := s.jobEnd .cipher e ⟨3, 0, false, false, false⟩

/-- A segment ends with more to do (12 R353): its record is written where the job has one; a stop that was asked for ends the job. -/
def State.cipherSegment (s : State) (e : Nat) (x : Job) (c : CState) : State :=
  let has := cState x.desc != 0
  match (if has then s.sealWrite x c else some s) with
  | none => s.cipherFault e
  | some s1 =>
    let y := if has then { x with ci := c, ckCi := c } else { x with ci := c }
    let s2 := s1.onJEng .cipher e fun _ => ⟨some y, 0⟩
    if x.stop then s2.jobEnd .cipher e ⟨6, 0, has, false, false⟩ else s2

/-- A job has done all its work: OK, or AUTH_FAIL (12 R353). -/
def State.cipherDone (s : State) (e : Nat) (c : CState) (ok : Bool) : State :=
  (s.onJob .cipher e fun y => { y with ci := c }).jobEnd .cipher e ⟨if ok then 0 else 0x21, 0, false, false, false⟩

/-- The bytes of one segment: AAD, then src; none where one cannot be read. -/
def State.cipherInput (s : State) (x : Job) : Option (List Nat × List Nat) :=
  let n := min 65536 x.aadLeft
  let m := min (65536 - n) x.inLeft
  match s.dmaRead (fieldLE x.desc 0x20 8 + (x.ci.aad - x.base.1)) n, s.dmaRead (fieldLE x.desc 8 8 + (x.ci.inn - x.base.2)) m with
  | some a, some b => some (vals a, vals b)
  | _, _ => none

/-- The first counter block of GCM with a 96-bit IV, and the counter block of CTR (SP 800-38D, SP 800-38A). -/
def gcmJ0 (iv : List Nat) : Nat := numBE (iv ++ [0, 0, 0, 1])

/-- The key of a job, as byte values. -/
def Job.keyVals (x : Job) : List Nat := vals x.key

/-- One segment of GCM: the progress after it and the output. -/
def gcmSegment (x : Job) (enc : Bool) (iv a d : List Nat) : CState × List Nat :=
  let key := x.keyVals
  let h := numBE (aesEnc key (List.replicate 16 0))
  let g0 := ghFeed h a (x.ci.gh, x.ci.part)
  let g1 := if x.aadLeft = a.length ∧ x.ci.inn = 0 then ghPad h g0 else g0
  let out := ctrXor key (gcmJ0 iv) 32 (x.ci.inn + 16) d
  let g2 := ghFeed h (if enc then out else d) g1
  ({ x.ci with aad := x.ci.aad + a.length, inn := x.ci.inn + d.length, outn := x.ci.outn + d.length, gh := g2.1, part := g2.2 }, out)

/-- The tag of GCM over all that a job has processed. -/
def gcmTag (x : Job) (iv : List Nat) (c : CState) : List Nat :=
  let key := x.keyVals
  let h := numBE (aesEnc key (List.replicate 16 0))
  let g := ghPad h (c.gh, c.part)
  let s := ghMul (Nat.xor g.1 (c.aad * 8 * 2 ^ 64 + c.inn * 8)) h
  (xorBytes (bytesBE 16 s) (aesEnc key (bytesBE 16 (gcmJ0 iv)))).take (cMacLen x.desc)

/-- The blocks of an XTS segment from its first tweak on. -/
def xtsBlocks (enc : List Nat → List Nat) : Nat → Nat → List Nat → List Nat
  | 0, _, _ => []
  | n + 1, t, d => xtsBlock enc t (d.take 16) ++ xtsBlocks enc n (xtsDouble t) (d.drop 16)

/-- One segment of XTS (IEEE 1619): the output, and how many bytes before the segment's place it begins (16 where the stealing rewrites
the block before). -/
def xtsSegment (x : Job) (enc : Bool) (iv d : List Nat) : List Nat × Nat :=
  let key := x.keyVals
  let k1 := key.take (key.length / 2)
  let k2 := key.drop (key.length / 2)
  let f := if enc then aesEnc k1 else aesDec k1
  let t0 := xtsTweak (leNat (bytesOf (aesEnc k2 iv))) (x.ci.inn / 16)
  let full := d.length / 16
  let b := d.length % 16
  let out := xtsBlocks f full t0 d
  if b = 0 then (out, 0)
  else
    let tail := d.drop (16 * full)
    let prev := if full = 0 then x.ci.prev else (d.drop (16 * (full - 1))).take 16
    let tPrev := xtsTweak (leNat (bytesOf (aesEnc k2 iv))) (x.ci.inn / 16 + full - 1)
    let tLast := xtsDouble tPrev
    let (p, l) :=
      if enc then
        let cc := xtsBlock f tPrev prev
        (xtsBlock f tLast (tail ++ cc.drop b), cc.take b)
      else
        let pp := xtsBlock f tLast prev
        (xtsBlock f tPrev (tail ++ pp.drop b), pp.take b)
    if full = 0 then (p ++ l, 16) else (out.take (16 * (full - 1)) ++ p ++ l, 0)

/-- One segment of an ENCRYPT or DECRYPT job (12 R351, R353). -/
def State.crypt (s : State) (e : Nat) (x : Job) (enc : Bool) : State :=
  let mode := cMode x.desc
  let dst := fieldLE x.desc 0x10 8
  let place := dst + (x.ci.inn - x.base.2)
  match s.dmaRead (fieldLE x.desc 0x28 8) (if mode = 1 then 12 else 16), s.cipherInput x with
  | some ivb, some (a, d) =>
    let iv := vals ivb
    let (c, out, back) : CState × List Nat × Nat :=
      match mode with
      | 1 => let (c, o) := gcmSegment x enc iv a d; (c, o, 0)
      | 2 => ({ x.ci with inn := x.ci.inn + d.length, outn := x.ci.outn + d.length }, ctrXor x.keyVals (numBE iv) 128 x.ci.inn d, 0)
      | _ =>
        let (o, k) := xtsSegment x enc iv d
        ({ x.ci with inn := x.ci.inn + d.length, outn := x.ci.outn + d.length, prev := (d.drop (d.length - 16)).take 16 }, o, k)
    match s.dmaWrite (place - back) (bytesOf out) with
    | none => s.cipherFault e
    | some s1 =>
      if a.length < x.aadLeft ∨ d.length < x.inLeft then s1.cipherSegment e x c
      else if mode ≠ 1 then s1.cipherDone e c true
      else
        let tag := bytesOf (gcmTag x iv c)
        let mac := fieldLE x.desc 0x30 8
        if enc then
          match s1.dmaWrite mac tag with
          | some s2 => s2.cipherDone e c true
          | none => s1.cipherFault e
        else
          match s1.dmaRead mac tag.length with
          | none => s1.cipherFault e
          | some m =>
            if m = tag then s1.cipherDone e c true
            else ((s1.dmaWrite dst (List.replicate (cLen x.desc) 0)).getD s1).cipherDone e c false
  | _, _ => s.cipherFault e

/-- The hash function of a mode. -/
def shaOf (mode : Nat) : ShaKind := if mode = 4 then sha256 else sha384

/-- One segment of a HASH, HMAC_GEN or HMAC_VERIFY job (12 R349, R351). -/
def State.digest (s : State) (e : Nat) (x : Job) : State :=
  let k := shaOf (cMode x.desc)
  let hmac := descOp x.desc != 3
  match s.cipherInput x with
  | none => s.cipherFault e
  | some (_, d) =>
    let h0 := if x.ci.hash.isEmpty then (if hmac then (k.feed k.init (k.pad x.keyVals 0x36) 1).1 else k.init) else x.ci.hash
    let data := x.ci.part ++ d
    let (h, r) := k.feed h0 data (data.length / k.block + 1)
    let c : CState := { x.ci with inn := x.ci.inn + d.length, hash := h, part := r }
    if d.length < x.inLeft then s.cipherSegment e x c
    else
      let inner := k.finish h r (c.inn + (if hmac then k.block else 0))
      let dig := bytesOf (if hmac then k.hash (k.pad x.keyVals 0x5C ++ inner) else inner)
      let mac := fieldLE x.desc 0x30 8
      if descOp x.desc = 5 then
        match s.dmaRead mac dig.length with
        | none => s.cipherFault e
        | some m => s.cipherDone e c (m == dig)
      else
        match s.dmaWrite mac dig with
        | some s1 => s1.cipherDone e c true
        | none => s.cipherFault e

/-- A segment of the job on a cipher engine that runs an op. -/
def State.cipherRun (s : State) (e op : Nat) (f : Job → State) : State :=
  match (s.jEng .cipher e).job with
  | some x => if descOp x.desc = op ∧ x.fin.isNone then f x else s
  | none => s

/-- ENCRYPT (12 R349-R351). -/
def execEncrypt (e : Nat) (s : State) : Host.Outcome State Fault Refusal :=
  forEngine e s fun s => s.cipherRun e 1 fun x => s.crypt e x true

/-- DECRYPT (12 R349-R351). -/
def execDecrypt (e : Nat) (s : State) : Host.Outcome State Fault Refusal :=
  forEngine e s fun s => s.cipherRun e 2 fun x => s.crypt e x false

/-- HASH (12 R349). -/
def execHash (e : Nat) (s : State) : Host.Outcome State Fault Refusal :=
  forEngine e s fun s => s.cipherRun e 3 fun x => s.digest e x

/-- HMAC_GEN (12 R349). -/
def execHmacGen (e : Nat) (s : State) : Host.Outcome State Fault Refusal :=
  forEngine e s fun s => s.cipherRun e 4 fun x => s.digest e x

/-- HMAC_VERIFY (12 R351). -/
def execHmacVerify (e : Nat) (s : State) : Host.Outcome State Fault Refusal :=
  forEngine e s fun s => s.cipherRun e 5 fun x => s.digest e x

/-- Whether a length fits a slot type (12 R354). -/
def keyFits (typ len : Nat) : Bool :=
  match typ with
  | 1 => len == 16
  | 2 => len == 32
  | 3 => len == 32
  | 4 => len == 64
  | 5 => decide (1 ≤ len) && decide (len ≤ 64)
  | _ => false

/-- The outcome of a LOAD (12 R355): 0 OK, 1 LOCKED, 2 BAD_KEY, 3 WEAK_KEY. A locked slot is looked at first (DEDUCED, log 59). -/
def State.keyLoadResult (s : State) (slot typ len owner : Nat) (key : List Byte) : Nat :=
  let k := s.reg (Off.keyStat slot)
  if bitOf k 30 ∧ (bits k 0 12 ≠ owner ∨ bits k 24 3 ≠ typ) then 1
  else if !keyFits typ len then 2
  else if (typ = 3 ∨ typ = 4) ∧ key.take (len / 2) = key.drop (len / 2) then 3
  else 0

/-- A key put into a slot. -/
def State.keyPut (s : State) (slot typ len owner : Nat) (pu : Bool) (key : List Byte) : State :=
  let lock := s.flag (Off.keyStat slot) 30
  (s.setReg (Off.keyStat slot) (2 ^ 31 + bit01 lock * 2 ^ 30 + bit01 pu * 2 ^ 29 + typ * 2 ^ 24 + len * 65536 + owner)).onPools
    fun x => { x with keys := tblSet x.keys slot key }

/-- The key that KEY_DATA holds. -/
def State.keyData (s : State) (len : Nat) : List Byte :=
  ((List.range 8).flatMap fun i => natBytes 8 (s.reg (Off.keyData i))).take len

/-- KEY_DATA written to zero (12 R355). -/
def State.keyWipe (s : State) : State := (List.range 8).foldl (fun t i => t.setReg (Off.keyData i) 0) s

/-- A key command with the fields of KEY_CMD (12 R355, R361): the result stands in KEY_CMD, go is clear, KEY_DATA is zero. -/
def State.keyCommand (s : State) (v : Nat) : State :=
  let slot := bits v 0 10
  let owner := bits v 16 12
  let typ := bits v 36 3
  let len := bits v 40 7
  let keep := bits v 60 3 * 2 ^ 60 + len * 2 ^ 40 + typ * 2 ^ 36 + bits v 33 1 * 2 ^ 33 + owner * 65536 + slot
  let locked := s.flag (Off.keyStat slot) 30
  let fin := fun (t : State) (r : Nat) => (t.keyWipe).setReg Off.keyCmd (keep + r * 2 ^ 48)
  match bits v 60 3 with
  | 1 =>
    let key := s.keyData len
    let r := s.keyLoadResult slot typ len owner key
    fin (if r = 0 then s.keyPut slot typ len owner (bitOf v 33) key else s) r
  | 2 =>
    if locked then fin s 1
    else fin ((s.setReg (Off.keyStat slot) 0).onPools fun x => { x with keys := tblErase x.keys slot }) 0
  | 3 => fin (s.setFlag (Off.keyStat slot) 30 true) 0
  | _ => s

/-- A write of KEY_CMD (12 R361): its fields are kept, and with go the command runs. -/
def State.keyCmdWrite (s : State) (v : Nat) : State :=
  let s1 := s.setReg Off.keyCmd (bits v 60 3 * 2 ^ 60 + s.fld Off.keyCmd 48 3 * 2 ^ 48 + bits v 36 11 * 2 ^ 36 - bitOf39 v +
    bits v 33 1 * 2 ^ 33 + bits v 16 12 * 65536 + bits v 0 10)
  if bitOf v 63 then s1.keyCommand v else s1
where
  /-- Bit 39, which is reserved. -/
  bitOf39 (v : Nat) : Nat := bits v 39 1 * 2 ^ 39

end Sys2Proof.Machine
end

