-- ==== Sys2Proof/Machine/Lens.lean ====
section
/-! DEFINITION. Lens (19 R480-R493): freeze and snapshot at an instant of the timebase, wraps, and the threshold configurations. -/

namespace Sys2Proof.Machine

/-- Whether an offset of a counter page holds a live counter, and not its snapshot copy (19 R480). -/
def lensLive (off : Nat) : Bool := off / 2048 % 2 == 0

/-- LENS made pending at every slot that asks for it at a snapshot (19 R486). -/
def State.lensSnapInt (s : State) : State :=
  (List.range 96).foldl (fun (t : State) n =>
    if t.lpExists n && t.flag (Off.lensSlotCtrl (n / 6) (n % 6)) 1 then t.onLp n fun p => { p with lens := true } else t) s

/-- A snapshot at an instant (19 R484): every live counter, with its wrap bit, copied. -/
def State.lensSnap (s : State) (at_ : Stamp) : State :=
  let live := s.lens.filter fun e => lensLive e.1
  let s1 : State := { s with lens := live.foldl (fun (t : Tbl Nat) e => tblSet t (e.1 + 0x800) e.2) live }
  let s2 := (s1.setReg Off.lensSnapNs at_.ns).setReg Off.lensSnapFr at_.frac
  ((s2.setFlag Off.lensCtrl 31 false).setFlag Off.lensCtrl 28 true).lensSnapInt

/-- The freeze state taken (19 R484). -/
def State.lensFreezeAct (s : State) : State :=
  { s.setFlag Off.lensCtrl 29 (s.flag Off.lensCtrl 30) with chip := { s.chip with freezeOn := false } }

/-- An armed change of the freeze state whose time has passed, or is zero, acts at once (19 R485). -/
def State.lensFreezeDue (s : State) : State :=
  if s.chip.freezeOn && decide (s.reg Off.lensFreezeAt ≤ s.now) then s.lensFreezeAct else s

/-- A write of LENS_CTRL (19 R484, R485, R493): freeze arms a change, snap arms a snapshot, snap_done is W1C. At one instant the
freeze comes first, so that the copies hold the frozen values. -/
def State.lensCtrlWrite (s : State) (v : Nat) : State :=
  let s1 := (if bitOf v 28 then s.setFlag Off.lensCtrl 28 false else s).setFlag Off.lensCtrl 30 (bitOf v 30)
  let s2 := ({ s1 with chip := { s1.chip with freezeOn := true } } : State).lensFreezeDue
  if bitOf v 31 then
    let s3 := s2.setFlag Off.lensCtrl 31 true
    if s3.reg Off.lensSnapAt ≤ s3.now then s3.lensSnap s3.stamp else s3
  else s2

/-- The armed instant of a snapshot (19 R484). -/
def execLensSnapshot (s : State) : Host.Outcome State Fault Refusal :=
  .next (
    if s.flag Off.lensCtrl 31 && decide (s.reg Off.lensSnapAt ≤ s.now) then s.lensSnap ⟨s.reg Off.lensSnapAt, 0⟩ else s)

/-- The armed instant of a change of the freeze state (19 R484). -/
def execLensFreeze (s : State) : Host.Outcome State Fault Refusal := .next s.lensFreezeDue

/-- A threshold configuration as it is stored (19 R491): a code of the other kind, or an unlisted one, stores en := 0. -/
def tcfgStored (hub : Bool) (v : Nat) : Nat :=
  let src := bits v 8 8
  let ok := if hub then decide (0x10 ≤ src) && decide (src ≤ 0x17) else decide (1 ≤ src) && decide (src ≤ 4)
  bit01 (bitOf v 31 && ok) * 2 ^ 31 + bits v 0 24

/-- Whether an offset is that of a counter (19 R482). -/
def lensCounter (off : Nat) : Bool :=
  match regAt off with
  | some (d, _) => [RegName.lensSlotCnt, .lensThCnt, .lensHtCnt, .lensClCnt, .lensScCnt, .lensDrCnt, .lensHubCnt].contains d.name
  | none => false

/-- A counter gains the number of its events (19 R482), threshold counters while their configuration is enabled. -/
def State.lensGain (s : State) (off gain : Nat) : State :=
  match regAt off with
  | some (d, ix) =>
    match d.name, ix with
    | .lensSlotCnt, [c, k, i] => if k < s.slots c then s.countLp (6 * c + k) i gain else s
    | .lensThCnt, [c, i] => if s.flag (Off.lensTcfg c i) 31 then s.count off gain else s
    | .lensHtCnt, [i] => if s.flag (Off.lensHtcfg i) 31 then s.count off gain else s
    | _, _ => s.count off gain
  | none => s

/-- A counter that passes 2^48 - 1 (19 R482): it goes on from the remainder and its wrap bit is set. -/
def execLensWrap (page i gain : Nat) (s : State) : Host.Outcome State Fault Refusal :=
  if lensCounter (0x34000000 + page * 4096 + i * 8) then .next (s.lensGain (0x34000000 + page * 4096 + i * 8) gain)
  else .refused .noSuchUnit

end Sys2Proof.Machine
end

