-- ==== Sys2Proof/Machine/Egress.lean ====
section
/-! DEFINITION. A port's transmit side up to its queue (09 R241-R247, R258, R269-R273, R280, R281): counters and events,
publication entries, the length of a frame, and frames queued. -/

namespace Sys2Proof.Machine

/-- A port beside its registers. -/
def State.port (s : State) (p : Nat) : Port := tblGetD s.ports p Port.empty

/-- The state with a port changed. -/
def State.onPort (s : State) (p : Nat) (f : Port → Port) : State := { s with ports := tblSet s.ports p (f (s.port p)) }

/-- A counter of a port advanced; it saturates (09 R281). -/
def State.portCount (s : State) (p i n : Nat) : State :=
  let off := Off.portCnt p i
  s.setReg off (satAdd (s.reg off) n (2 ^ 64 - 1))

/-- A port event recorded in PORT_ERR and raised (09 R282, R283): `log` picks source 257 + 2p in place of 256 + 2p. -/
def State.portErr (s : State) (p cause index : Nat) (log : Bool) : State :=
  (s.logCause (Off.portErr p) cause (index % 256 * 2 ^ 32)).raise (256 + 2 * p + bit01 log)

/-- The mode of a port, PORT_CFG.mode (09 R243). -/
def State.portMode (s : State) (p : Nat) : Nat := s.fld (Off.portCfg p) 8 3

/-- An Ethernet port that is enabled and has its link (09 R280), and no THERM_SHUTDOWN (16 R435). -/
def State.usable (s : State) (p : Nat) : Bool :=
  !s.shutdown && s.flag (Off.portCfg p) 63 && s.flag (Off.portStat p) 1 && decide (1 ≤ s.portMode p) && decide (s.portMode p ≤ 3)

/-- The even port of a port's pair (09 R251). -/
def pairEven (p : Nat) : Nat := p / 2 * 2

/-- The redundancy mode of a port's pair: 0 none, 1 PRP, 2 HSR. -/
def State.redMode (s : State) (p : Nat) : Nat := s.fld (Off.prpCfg (p / 2)) 16 2

/-- Picoseconds of one bit at a port's data rate (09 R243). -/
def State.bitPs (s : State) (p : Nat) : Nat :=
  match s.portMode p with
  | 1 => 1000
  | 2 => 100
  | _ => 40

/-- Nanoseconds, rounded up, that a frame of `len` bytes takes on the wire, with preamble and gap (09 R258). -/
def State.wireNs (s : State) (p len : Nat) : Nat := ((len + 20) * 8 * s.bitPs p + 999) / 1000

/-- The 256 bytes of a publication's entry (09 R269): none while PUB_BASE.valid is 0. -/
def State.pubEntry (s : State) (i : Nat) : Option (List Byte) :=
  if s.flag Off.pubBase 0 then s.dmaRead (s.fld Off.pubBase 20 32 * 2 ^ 20 + 256 * i) 256 else none

/-- A publication that a queue may send (09 R270). -/
def State.pubOk (s : State) (q i : Nat) : Bool :=
  match s.pubEntry i with
  | some e => bitOf (fieldLE e 0 1) 0 && bits (fieldLE e 0x1A 2) 0 12 == q
  | none => false

/-- I_k of a publication in nanoseconds (09 R271); t_max throughout after a re-enable (R272). -/
def pubInterval (e : List Byte) (k : Nat) (atMax : Bool) : Nat :=
  let tmax := fieldLE e 0x14 4 * 1000000
  if atMax ∨ 40 < k then tmax else min (fieldLE e 0x10 4 * 1000 * 2 ^ (k - 1)) tmax

/-- timeAllowedtoLive of the frame with number k, in ms (09 R271). -/
def pubTal (e : List Byte) (k : Nat) (atMax : Bool) : Nat :=
  (fieldLE e 0x18 1 * pubInterval e (k + 1) atMax + 999999) / 1000000

/-- The sqNum of the frame with number k, wrapping from 2^32 - 1 to 1 (09 R271). -/
def pubSq (k : Nat) : Nat := if k < 2 ^ 32 then k else (k - 1) % (2 ^ 32 - 1) + 1

/-- stNum from a sequence number (09 R270). -/
def pubStNum (seq : Nat) : Nat := (seqCnt seq - 1) % (2 ^ 32 - 1) + 1

/-- Bytes of a BER element with `n` content bytes. -/
def berLen (n : Nat) : Nat := if n < 128 then 2 + n else if n < 256 then 3 + n else 4 + n

/-- Content bytes of a BER integer of a value below 2^64. -/
def berInt (v : Nat) : Nat := ((List.range 8).filter fun i => decide (2 ^ (8 * i + 7) ≤ v)).length + 1

/-- Content bytes of one allData entry by its type code (09 R266). -/
def entryLen (code slot : Nat) : Nat :=
  if code = 1 then 1
  else if 0x20 ≤ code ∧ code < 0x40 then 1 + (code - 0x1F + 7) / 8
  else if code = 2 ∨ code = 3 then (if bitOf slot 63 then berInt (2 ^ 64 - 1 - slot) else berInt slot)
  else if code = 4 ∨ code = 5 then berInt slot
  else if code = 6 then 5 else if code = 7 then 9 else 8

/-- The length in bytes of a GOOSE frame of a publication on a port, with FCS. PRESUMED, log 38: the minimum encodings of
IEC 61850-8-1, the PRP trailer or HSR tag of 6 bytes, and 32 bytes of SecTAG and ICV; a routable frame has 78 bytes more. It
serves only the room that R258 keeps clear on the wire. -/
def State.gooseLen (s : State) (p : Nat) (e slots : List Byte) (stNum k tal : Nat) : Nat :=
  let cnt := fieldLE e 1 1
  let body := (List.range cnt).foldl (fun n i => n + berLen (entryLen (fieldLE e (0x40 + i) 1) (fieldLE slots (8 * i) 8))) 0
  let pdu := fieldLE e 0x28 2 + berLen (berInt tal) + berLen 8 + berLen (berInt stNum) + berLen (berInt (pubSq k)) + 6 +
    berLen (berInt (fieldLE e 0x0C 4)) + berLen (berInt cnt) + berLen body
  let n := 14 + (if bitOf (fieldLE e 0 1) 1 then 4 else 0) + 8 + berLen pdu + 4 + (if s.redMode p = 0 then 0 else 6) +
    (if s.flag (Off.msecCfg p) 63 then 32 else 0) + (if bitOf (fieldLE e 0 1) 4 then 78 else 0)
  max 64 n

/-- The ports of a port target (08 R209). -/
def targetPorts (tg : Nat) : List Nat := if bitOf tg 7 then [bits tg 0 7, bits tg 0 7 + 1] else [bits tg 0 7]

/-- The publication index of a port target. -/
def targetPub (tg : Nat) : Nat := bits tg 8 12

/-- The next sequence number of a pair's trailer or tag, where the pair has one (09 R251). -/
def State.redSeq (s : State) (p : Nat) : Option Nat × State :=
  if s.redMode p = 0 then (none, s)
  else
    let n := (s.port (pairEven p)).pseq
    (some n, s.onPort (pairEven p) fun x => { x with pseq := (n + 1) % 65536 })

/-- The t field of a GOOSE message formed now, as UTC (11 R327), and its TimeQuality: TimeAccuracy 20, ClockNotSynchronized
(bit 5) unless LOCKED. -/
def State.gooseT (s : State) : Nat × Nat :=
  ((s.stampIn 0x18).ns - s.fld Off.timeUtc 0 16 * 10 ^ 9, 20 + (if s.fld Off.timeStat 0 2 = 2 then 0 else 32))

/-- Repetitions of a publication taken out of a port's queue (09 R272). -/
def Port.dropReps (p : Port) (i : Nat) : Port :=
  { p with queue := p.queue.filter fun f => !(f.cls == .rep && (match f.body with | .goose n .. => n == i | _ => false)) }

/-- A GOOSE frame of a publication, number k, put in a port's queue. -/
def State.gooseQueue (s : State) (p i k : Nat) (cls : EgClass) (due : Nat) (txn : Option (Nat × Nat)) (red : Option Nat)
    (atMax : Bool) : State :=
  match s.pubEntry i, tblGet? s.pubs i with
  | some e, some b =>
    let tal := pubTal e k atMax
    let len := s.gooseLen p e b.slots b.stNum k tal
    s.onPort p fun x => { x with queue := x.queue ++ [⟨cls, due, txn, len, red,
      .goose i b.stNum (pubSq k) tal b.tUtc b.tq b.slots b.spdu⟩] }
  | _, _ => s

/-- The number of the first frame of a state: 0, or 1 for one resumed (09 R271, R272). -/
def Txn.firstNum (t : Txn) : Nat := if t.resumed then 1 else 0

/-- The slots of a SEND buffer for a publication of E entries. DESIGN CHOICE, log 37: bytes that a shorter buffer does not give
are free values. -/
def State.pubSlots (s : State) (e data : List Byte) : List Byte × State :=
  let n := 8 * fieldLE e 1 1
  let (pad, s1) := s.freshBytes (n - data.length)
  (data.take n ++ pad, s1)

/-- A transaction's frame built and put in the queue of each port of its target that is up (08 R211, 09 R272, R280); the copy
of a port that is not is skipped and counted. With no port up the transaction keeps its frame and is held. -/
def State.sendPort (s : State) (q : Nat) (t : Txn) (cls : EgClass) : State :=
  let i := targetPub t.target
  let ports := targetPorts t.target
  let up := ports.filter fun p => s.usable p
  match s.pubEntry i with
  | none => s.onTxn q t.count fun x => { x with stage := .returned }
  | some e =>
    if up.isEmpty then s.onTxn q t.count fun x => { x with stage := .returned }
    else
      let (slots, s1) := s.pubSlots e t.data
      let (tu, tq) := s1.gooseT
      let old := tblGetD s1.pubs i ⟨0, 0, 0, [], 0, []⟩
      let k := t.firstNum
      let spdu := if bitOf (fieldLE e 0 1) 4 then old.spdu + 1 else old.spdu
      let pub : Pub := ⟨pubStNum t.seq, tu, tq, slots, spdu, ports.map fun p => (p, ⟨k, 0, false, true⟩)⟩
      let s2 := { s1 with pubs := tblSet s1.pubs i pub }
      let (red, s3) := s2.redSeq (ports.headD 0)
      let s4 := ports.foldl (fun u p =>
        if s.usable p then (u.onPort p fun x => x.dropReps i).gooseQueue p i k cls u.time.cycles (some (q, t.count)) red false
        else u.portCount p 28 1) s3
      s4.onTxn q t.count fun x => { x with stage := .queued }

end Sys2Proof.Machine
end

