-- ==== Sys2Proof/Machine/Routes.lean ====
section
/-! DEFINITION. Routing (10 R292, R298-R301, R309): link counters and events, ages, the choice of an output, and packets
queued at it. -/

namespace Sys2Proof.Machine

/-- A link beside its registers. -/
def State.link (s : State) (l : Nat) : Link := tblGetD s.links l Link.empty

/-- The state with a link changed. -/
def State.onLink (s : State) (l : Nat) (f : Link → Link) : State := { s with links := tblSet s.links l (f (s.link l)) }

/-- A counter of a link advanced; it saturates (LNK_CNT_i). -/
def State.linkCount (s : State) (l i n : Nat) : State :=
  let off := Off.lnkCnt l i
  s.setReg off (satAdd (s.reg off) n (2 ^ 64 - 1))

/-- The source of a cause of LNK_ERR (10 R309): routing causes 720, a duplicate member 724, the rest the link's port group. -/
def linkSource (l cause : Nat) : Nat :=
  if cause = 5 ∨ cause = 6 ∨ cause = 8 then 720 else if cause = 7 then 724 else 712 + l / 16

/-- A link or routing event recorded in LNK_ERR and raised. -/
def State.linkErr (s : State) (l cause : Nat) : State := (s.logCause Off.lnkErr cause (l * 2 ^ 32)).raise (linkSource l cause)

/-- The state of a link, LNK_STAT.state: 0 DOWN, 1 TRAINING, 2 UP, 3 DEGRADED. -/
def State.linkState (s : State) (l : Nat) : Nat := s.fld (Off.lnkStat l) 0 2

/-- A route candidate: UP, or narrowed with its retrain ended (10 R297, R300, R308), and no THERM_SHUTDOWN (16 R435). -/
def State.linkUp (s : State) (l : Nat) : Bool :=
  !s.shutdown && (s.linkState l == 2 || (s.linkState l == 3 && (s.link l).sentConf && (s.link l).gotConf))

/-- The hub's age counter as elapsed hc, 0.625 ns each (10 R298, 00 "Numbers and units"). -/
def State.hcNow (s : State) : Int := s.time.cycles * 8 / 5

/-- The hc elapsed since a stamp, at most 2^31 (10 R298). -/
def elapsedHc (stamp now : Int) : Nat := min (now - stamp).toNat (2 ^ 31)

/-- The device's own number and whether it is in use, RT_SELF. -/
def State.selfDev (s : State) : Nat := s.fld Off.rtSelf 0 18
/-- RT_SELF.valid. -/
def State.selfValid (s : State) : Bool := s.flag Off.rtSelf 31

/-- What routing makes of a packet (10 R300). -/
inductive Route where | deliver | hops | none | out (l : Nat)
  deriving DecidableEq, Repr

/-- The candidate links of a table entry that are up, in field order (10 R300). -/
def State.candidates (s : State) (e : Nat) : List Nat :=
  ((List.range (bits e 32 2 + 1)).map fun j => bits e (8 * j) 7).filter fun l => s.linkUp l

/-- The table entry that leads to a device (10 R300): none where it is not valid. -/
def State.routeEntry (s : State) (dev : Nat) : Option Nat :=
  let member : Nat → Option Nat := fun i =>
    let e := s.reg (Off.rtMember i)
    if bitOf e 63 then some (bits e 0 34) else none
  if dev / 1024 ≠ s.selfDev / 1024 then
    let e := s.reg (Off.rtDomain (dev / 1024))
    if !bitOf e 63 then none
    else if bitOf e 62 then some (bits e 0 34)
    else member (bits e 52 10)
  else member (dev % 1024)

/-- The output of a packet at this device (10 R300). A packet that starts here (`fresh`) has its hops from RT_CTRL already. -/
def State.route (s : State) (p : Packet) : Route :=
  if !s.selfValid && p.typ.toNat != 4 && p.typ.toNat != 5 then .none
  else if p.destDev = s.selfDev then .deliver
  else if p.hops = 0 then .hops
  else
    match s.routeEntry p.destDev with
    | none => .none
    | some e =>
      let c := s.candidates e
      if c.isEmpty then .none
      else .out (c.getD (Nat.xor (Nat.xor (p.srcDev % 1024) p.srcQ) p.destQ % c.length) 0)

/-- The virtual channel of a packet at this device (10 R292): its class, in set 1 outside its source domain. -/
def State.channelOf (s : State) (p : Packet) (cls : Nat) : BitVec 3 :=
  BitVec.ofNat 3 (cls + if p.srcDev / 1024 = s.selfDev / 1024 then 0 else 4)

/-- A packet queued at a link's output, one hop fewer. -/
def State.linkPush (s : State) (l : Nat) (p : Packet) (stamp : Int) : State :=
  s.onLink l fun x => { x with
    queue := x.queue ++ [⟨{ p with hops := p.hops - 1, vc := s.channelOf p (p.vc.toNat % 4) }, stamp⟩] }

/-- A packet of this device with its own number as source and the hops of RT_CTRL (10 R300). -/
def State.newPacket (s : State) (typ cls destDev destQ srcQ seq : Nat) : Packet :=
  { typ := BitVec.ofNat 8 typ, vc := BitVec.ofNat 3 cls, durable := false, first := false, last := false, reply := false,
    exch := false, destDev, destQ, srcDev := s.selfDev, srcQ, age := 0, seq := BitVec.ofNat 64 seq, offset := 0, tlen := 0,
    hops := s.fld Off.rtCtrl 0 8, reason := 0, inc := 0, exSeq := 0, payload := [], form := none }

end Sys2Proof.Machine
end

