-- ==== Sys2Proof/Machine/Arrival.lean ====
section
/-! DEFINITION. The ends of a Tradewind transaction (08 R213-R217, R223, 10 R288-R290, R300): what an acknowledgement or a
refusal does at the sender, and what an arrival does at the receiver. -/

namespace Sys2Proof.Machine

/-- The value of a completion record for a status reached after dispatch (08 R230): `n` counts response or copied bytes. -/
def Txn.value (t : Txn) (n : Nat) : Nat :=
  match t.kind with
  | 2 => n
  | 3 => t.seq % 2 ^ 32 * 2 ^ 32 + n
  | 4 => n
  | _ => t.seq

/-- The target value of a peer queue, as 08 R209 encodes it. -/
def peerTarget (dev q : Nat) : Nat := 2 * 2 ^ 62 + q * 2 ^ 18 + dev

/-- The target value of a local queue. -/
def localTarget (q : Nat) : Nat := 3 * 2 ^ 62 + q

/-- A transaction of a flow waits for its end-to-end acknowledgement. -/
def Txn.unacked (t : Txn) : Bool := t.stage == .sent

/-- A change of the far queue's incarnation seen (08 R217): every unacknowledged transaction of the flow completes with
PEER_RESET. -/
def State.peerReset (s : State) (q flow inc : Nat) : State :=
  let s1 := s.onFlow q flow fun f => { f with peerInc := inc }
  ((s.tq q).opens.filter fun t => t.flow == flow && t.unacked).foldl (fun u t => u.txnDone q t .peerReset (t.value 0)) s1

/-- Whether an incarnation carried by an acknowledgement or refusal is a change for the flow (08 R216, R217): 0 says nothing. -/
def State.incChanged (s : State) (q flow inc : Nat) : Bool :=
  match s.flow? q flow with
  | some f => inc != 0 && f.peerInc != 0 && f.peerInc != inc
  | none => false

/-- The open transaction that a number acknowledged or refused names: of the flow with that far end. -/
def State.sentTxn (s : State) (q target seq : Nat) : Option Txn :=
  (s.tq q).opens.find? fun t => t.seq == seq && t.target == target && t.unacked

/-- An acknowledgement of a transaction (08 R215, R217): it completes, an EXCHANGE waits on for its reply; a late one is
discarded and counted. -/
def State.ackIn (s : State) (q target seq inc : Nat) : State :=
  let s := s.countHub 0 3 1
  match s.sentTxn q target seq with
  | none => s.twErr q 7
  | some t =>
    if s.incChanged q t.flow inc then s.peerReset q t.flow inc
    else
      let s1 := if inc = 0 then s else s.onFlow q t.flow fun f => { f with peerInc := inc }
      if t.kind = 3 then s1.onTxn q t.count fun x => { x with stage := .acked }
      else s1.txnDone q t .ok (t.value 0)

/-- A refusal of a transaction (08 R215): its reason is kept; the sender goes on retransmitting. -/
def State.refuseIn (s : State) (q target seq reason inc : Nat) : State :=
  match s.sentTxn q target seq with
  | none => s
  | some t =>
    if s.incChanged q t.flow inc then s.peerReset q t.flow inc
    else
      (if inc = 0 then s else s.onFlow q t.flow fun f => { f with peerInc := inc }).onTxn q t.count
        fun x => { x with refusals := x.refusals ++ [reason] }

/-- The answer to an arrival: none, an acknowledgement, or a refusal with its reason, each with an incarnation. -/
inductive Answer where | silent | ack (inc : Nat) | refuse (reason inc : Nat)
  deriving DecidableEq, Repr

/-- The incarnation that a refusal of a queue that is not enabled carries, `closed_inc` (08 R216). -/
def State.closedInc (s : State) (q : Nat) : Nat := if (s.tq q).since then nextInc (s.tq q).inc else 0

/-- A number entered in a flow's window, and `low` moved over the numbers delivered (08 R216). -/
def Flow.enter (f : Flow) (n : Nat) : Flow :=
  let up : Nat → Nat × List Nat → Nat × List Nat := fun _ lw =>
    if lw.2.contains lw.1 then (lw.1 + 1, lw.2.filter (· != lw.1)) else lw
  let r := (List.range (f.win.length + 1)).foldl (fun lw i => up i lw) (f.low, f.win ++ [n])
  { f with low := r.1, win := r.2 }

/-- A request or message delivered into the oldest posted RECEIVE (08 R213, R216, R217, R230). -/
def State.deliver (s : State) (fl : Nat) (m : Inbound) (nv : Verifies) : State × Answer :=
  let q := m.destQ
  match (s.tq q).recvs with
  | [] => (s, .refuse TStat.noBuffer.code (s.tq q).inc)
  | r :: _ =>
    let part := m.data.take r.length
    let stamp := s.ts80 0x18
    match s.dmaWrite r.addr part with
    | none => (s.txnEnd q r .busFault 0 stamp false, .silent)
    | some s1 =>
      let (s2, ok, _) :=
        if s.tqDurable q then s1.nvjWrite q (.deliver (fl + 16) m.seq r.count) nv else (s1, true, nv)
      if !ok then (s2.txnEnd q r .journalFault 0 stamp false, .silent)
      else
        let s3 := (s2.onFlow q fl fun f => f.enter (seqCnt m.seq)).countHub 0 4 1
        let st := if m.data.length > part.length then TStat.truncated else TStat.ok
        (s3.txnEnd q r st (part.length + m.srcDev * 2 ^ 32 + m.srcQ * 2 ^ 50) stamp m.exch, .ack (s.tq q).inc)

/-- The reply SEND of an EXCHANGE delivered into its response buffer (08 R213); one that matches no open EXCHANGE is
acknowledged, discarded and counted. -/
def State.deliverReply (s : State) (fl : Nat) (m : Inbound) (nv : Verifies) : State × Answer :=
  let q := m.destQ
  match (s.tq q).opens.find? fun t => t.kind == 3 && t.seq == m.exSeq && t.target == m.src with
  | none => ((s.onFlow q fl fun f => f.enter (seqCnt m.seq)).twErr q 6, .ack (s.tq q).inc)
  | some t =>
    let part := m.data.take t.length2
    let stamp := s.ts80 0x18
    match s.dmaWrite t.addr2 part with
    | none => (s.txnEnd q t .busFault (t.value 0) stamp false, .silent)
    | some s1 =>
      let (s2, ok, _) :=
        if s.tqDurable q then s1.nvjWrite q (.deliver (fl + 16) m.seq t.count) nv else (s1, true, nv)
      if !ok then (s2.txnEnd q t .journalFault (t.value 0) stamp false, .silent)
      else
        let s3 := (s2.onFlow q fl fun f => f.enter (seqCnt m.seq)).countHub 0 4 1
        let st := if m.data.length > part.length then TStat.truncated else TStat.ok
        (s3.txnEnd q t st (t.value part.length) stamp false, .ack (s.tq q).inc)

/-- The arrival of a whole transaction at a queue (08 R216). -/
def State.arrive (s : State) (m : Inbound) (nv : Verifies) : State × Answer :=
  let q := m.destQ
  let inc := (s.tq q).inc
  if !s.tqOn q then (s, .refuse TStat.queueClosed.code (s.closedInc q))
  else if m.durable != s.tqDurable q then (s, .refuse TStat.durabilityMismatch.code inc)
  else
    match s.flowOpen q m.src with
    | none => (s, .refuse TStat.flowLimit.code inc)
    | some (s1, fl) =>
      let f0 := (s1.flow? q fl).getD (Flow.new m.src)
      let si := seqInc m.seq
      let n := seqCnt m.seq
      let f := if f0.rxInc = 0 then { f0 with rxInc := si }
        else if newer si f0.rxInc then { f0 with rxInc := si, low := 1, win := [] } else f0
      let s2 := s1.onFlow q fl fun _ => f
      if newer f.rxInc si then ((s2.onFlow q fl fun x => { x with errs := x.errs + 1 }).twErr q 4, .silent)
      else if n < f.low ∨ f.win.contains n then (s2, .ack inc)
      else if f.low + 65536 ≤ n then ((s2.onFlow q fl fun x => { x with errs := x.errs + 1 }).twErr q 5, .silent)
      else if m.reply then s2.deliverReply fl m nv
      else s2.deliver fl m nv

/-- An acknowledgement or refusal sent to a far device (10 R288, R300): with no route it is discarded and counted. -/
def State.sendControl (s : State) (p : Packet) (l : Nat) : State :=
  match s.route p with
  | .out o => s.linkPush o p s.hcNow
  | .hops => (s.linkCount l 6 1).linkErr l 5
  | .none => s.linkErr l 6
  | .deliver =>
    let tg := peerTarget p.srcDev p.srcQ
    if p.typ.toNat = 2 then s.ackIn p.destQ tg p.seq.toNat p.inc.toNat
    else s.refuseIn p.destQ tg p.seq.toNat p.reason.toNat p.inc.toNat

/-- The answer to an arrival from a peer device sent back (08 R215, R216). -/
def State.answerPeer (s : State) (m : Inbound) (a : Answer) (l : Nat) : State :=
  match a with
  | .silent => s
  | .ack inc => s.sendControl { s.newPacket 2 1 m.srcDev m.srcQ m.destQ m.seq with inc := BitVec.ofNat 16 inc } l
  | .refuse r inc =>
    s.sendControl { s.newPacket 3 1 m.srcDev m.srcQ m.destQ m.seq with
      inc := BitVec.ofNat 16 inc, reason := BitVec.ofNat 8 r } l

/-- The answer to an arrival from a local queue, handed to the sending transaction. -/
def State.answerLocal (s : State) (m : Inbound) (target : Nat) (a : Answer) : State :=
  match a with
  | .silent => s
  | .ack inc => s.ackIn m.srcQ target m.seq inc
  | .refuse r inc => s.refuseIn m.srcQ target m.seq r inc

/-- What arrives at a queue of this device from a transaction of another queue of it. -/
def State.inboundOf (s : State) (q : Nat) (t : Txn) (src destQ : Nat) : Inbound :=
  { srcDev := s.selfDev, srcQ := q, src, destQ, seq := t.seq, durable := t.durable, reply := bitOf t.flags 1,
    exch := t.kind == 3, exSeq := t.addr2, data := t.data }

/-- The DATA packets of a transaction (10 R289, R292): 512 bytes each but the last. -/
def State.dataPackets (s : State) (q : Nat) (t : Txn) (dev dq : Nat) : List Packet :=
  let n := (t.data.length + 511) / 512
  (List.range n).map fun i =>
    { s.newPacket 1 (if t.kind = 6 ∨ t.timeNs ≠ 0 ∨ t.timeFr ≠ 0 then 2 else 3) dev dq q t.seq with
      durable := t.durable, first := i == 0, last := i + 1 == n, reply := bitOf t.flags 1, exch := t.kind == 3,
      offset := 512 * i, tlen := t.data.length, exSeq := if bitOf t.flags 1 then BitVec.ofNat 64 t.addr2 else 0,
      payload := (t.data.drop (512 * i)).take 512 }

/-- One attempt to send a transaction to a peer or local queue (08 R211, R215, 10 R300). A local queue is not reached by
routing, so RT_SELF plays no part in it: DEDUCED, log 34. With no route the engine is answered UNREACHABLE. -/
def State.attempt (s : State) (q : Nat) (t : Txn) (nv : Verifies) : State :=
  if t.target / 2 ^ 62 = 3 then
    let m := s.inboundOf q t (localTarget q) (bits t.target 0 12)
    let (s1, a) := s.arrive m nv
    s1.answerLocal m t.target a
  else
    let dev := bits t.target 0 18
    let dq := bits t.target 18 12
    let ps := s.dataPackets q t dev dq
    match ps with
    | [] => s
    | p :: _ =>
      match s.route p with
      | .out l => ps.foldl (fun u x => u.linkPush l x u.hcNow) s
      | .deliver =>
        let m := s.inboundOf q t (peerTarget s.selfDev q) dq
        let (s1, a) := s.arrive m nv
        s1.answerLocal m t.target a
      | _ => (s.linkErr 0 6).refuseIn q t.target t.seq TStat.unreachable.code 0

end Sys2Proof.Machine
end

