-- ==== Sys2Proof/Machine/Clock.lean ====
section
/-! DEFINITION. Time (11): the timebase and its copies, steps and slews, the discipline and its states, the time pins, and the
per-slot timer. -/

namespace Sys2Proof.Machine

/-- The units of 2^-48 ns that a slew of 100 ppm moves in one cycle (11 R323). -/
def slewUnit : Nat := 2 ^ 48 / 10000

/-- One cycle of the time clock (11 R314): 1 ns, scaled by TIME_FREQ, and the slew. -/
def State.tick (s : State) : State :=
  let t := s.time
  let rate := signed (s.fld Off.timeFreq 0 32) 32
  let d : Int := if 0 ≤ t.slew then min t.slew slewUnit else max t.slew (-(slewUnit : Int))
  { s with time := { t with
      tb := ((t.tb : Int) + 2 ^ 48 + rate * 256 + d).toNat, slew := t.slew - d, cycles := t.cycles + 1 } }

/-- A state change of the timebase (11 R324): source 721 and the TIME_STATE event. -/
def State.timeState (s : State) (st : Nat) : State :=
  if s.fld Off.timeStat 0 2 = st then s
  else
    let s1 := (s.setFld Off.timeStat 0 2 st).raise 721
    s1.event 0xB 0 st (s1.fld Off.timeStat 4 4) []

/-- The mean rate held over the last 64 s in LOCKED (11 R325), weighted by time; the present rate where there is none. -/
def State.meanRate (s : State) : Int :=
  let now := s.time.cycles
  let start := now - 64 * 10 ^ 9
  let r := s.yaf.disc.rates.foldl (fun (a : Int × Nat × Nat) e =>
    let from_ := max e.1 start
    if from_ < a.2.2 then (a.1 + e.2 * (a.2.2 - from_ : Nat), a.2.1 + (a.2.2 - from_), from_) else a) (0, 0, now)
  if r.2.1 = 0 then signed (s.fld Off.timeFreq 0 32) 32 else r.1 / r.2.1

/-- The state with the discipline's record changed. -/
def State.onDisc (s : State) (f : Disc → Disc) : State := { s with yaf := { s.yaf with disc := f s.yaf.disc } }

/-- A value of TIME_FREQ.rate held within ±500 ppm (11 R314, TIME_FREQ). -/
def clampRate (r : Int) : Int := max (-0x20C49BA5) (min 0x20C49BA5 r)

/-- TIME_FREQ written: the rate held in LOCKED is remembered for the mean of R325. -/
def State.setRate (s : State) (r : Int) : State :=
  let c := clampRate r
  let s1 := s.setReg Off.timeFreq (wrapInt c 32)
  if s.fld Off.timeStat 0 2 = 2 then
    s1.onDisc fun d => { d with rates :=
      (s.time.cycles, c) :: d.rates.filter fun e => decide (s.time.cycles < e.1 + 128 * 10 ^ 9) }
  else s1

/-- The timebase enters HOLDOVER (11 R325): the mean rate, no slew. -/
def State.enterHoldover (s : State) : State :=
  let s1 := (s.setReg Off.timeFreq (wrapInt (clampRate s.meanRate) 32)).setFlag Off.timeStat 3 false
  ({ s1 with time := { s1.time with slew := 0 } }).timeState 3

/-- The source is lost or replaced (11 R324): LOCKED becomes HOLDOVER, LOCKING becomes FREERUN. -/
def State.sourceLost (s : State) : State :=
  match s.fld Off.timeStat 0 2 with
  | 2 => s.enterHoldover
  | 1 => s.timeState 0
  | _ => s

/-- The step epoch that each island's copy goes on with until its next correction, and how far it stands from the stepped value
(11 R323). -/
def State.stepCopies (s : State) (amount : Int) : Tbl (Int × Nat) :=
  ((List.range 0x1F).filter fun i => i != 0x1B).map fun i => (i, (s.copyOf i).1 - amount, (s.copyOf i).2)

/-- A phase correction in nanoseconds (11 R323): a step at once, with the next epoch and source 723, or a slew that replaces the
remainder of one in progress. The timebase does not go below zero: DESIGN CHOICE, log 50. -/
def State.adjust (s : State) (step : Bool) (amount : Int) : State :=
  if step then
    let u := amount * 2 ^ 48
    let s1 : State := { s with time := { s.time with
      tb := ((s.time.tb : Int) + u).toNat, copies := s.stepCopies u } }
    (s1.setFld Off.timeStat 4 4 (s.fld Off.timeStat 4 4 + 1)).raise 723
  else
    ({ s with time := { s.time with slew := amount * 2 ^ 48 } }).setFlag Off.timeStat 3 (amount != 0)

/-- A write of TIME_ADJ (11 R323, R332). -/
def State.timeAdjWrite (s : State) (v : Nat) : State :=
  let s1 := s.setReg Off.timeAdj (bits v 62 1 * 2 ^ 62 + bits v 0 48)
  if bitOf v 63 then s1.adjust (bitOf v 62) (signed v 48) else s1

/-- TIME_ADJ as read: the remainder of the slew in progress in nanoseconds. -/
def State.timeAdjVal (s : State) : Nat :=
  bits (s.reg Off.timeAdj) 62 1 * 2 ^ 62 + wrapInt (Int.tdiv s.time.slew (2 ^ 48)) 48

/-- A write of TIME_CTRL (11 R315, R324, R332); `keep` says that its RWL fields are locked. -/
def State.timeCtrlWrite (s : State) (keep : Bool) (v : Nat) : State :=
  let old := s.reg Off.timeCtrl
  let src := if 3 < bits v 0 3 then 0 else bits v 0 3
  let rwl := if keep then old else v
  let thr := if bits rwl 16 8 = 0 then 1 else bits rwl 16 8
  let s1 := s.setReg Off.timeCtrl (bits (old ||| v) 31 1 * 2 ^ 31 + thr * 65536 + bits rwl 3 3 * 8 + src)
  let s2 := if bitOf rwl 4 then s1 else s1.setFlag Off.timeStat 2 true
  if src = bits old 0 3 then s2 else (s2.onDisc fun d => { d with within := 0 }).sourceLost

/-- A write of PPS_CFG (11 R328, R332): the first edge after in_en is set is accepted. -/
def State.ppsCfgWrite (s : State) (v : Nat) : State :=
  let w := bits v 0 20
  let width := if w = 0 then 1 else min w 500000
  let s1 := s.setReg Off.ppsCfg (bits v 29 3 * 2 ^ 29 + width)
  if bitOf v 29 && !s.flag Off.ppsCfg 29 then s1.onDisc fun d => { d with ppsAt := none, ppsRej := 0 } else s1

/-- A free phase step of the timebase within `n` units of 2^-48 ns. -/
def State.freePhase (s : State) (n : Nat) : Int × State :=
  let (v, s1) := s.fresh
  ((v % (2 * n + 1) : Nat) - (n : Int), s1)

/-- The reference of the time clock changes (11 R315): the phase steps by at most 0.5 ns, an amount that the manual leaves open,
and the time event is raised. -/
def State.refChange (s : State) (ref : Bool) : State :=
  let (d, s1) := s.freePhase (2 ^ 47)
  (({ s1 with time := { s1.time with tb := ((s1.time.tb : Int) + d).toNat } }).setFlag Off.timeStat 2 ref).raise 721

/-- TREF_IN missing or off its rate: the system reference serves (11 R315). -/
def execReferenceSwitch (s : State) : Host.Outcome State Fault Refusal :=
  .next (if s.flag Off.timeCtrl 4 && !s.flag Off.timeStat 2 then s.refChange true else s)

/-- TREF_IN valid again for 1 s (11 R315). -/
def execReferenceReturn (s : State) : Host.Outcome State Fault Refusal :=
  .next (if s.flag Off.timeCtrl 4 && s.flag Off.timeStat 2 then s.refChange false else s)

/-- A correction of an island's copy (11 R317, R323): within 1 ns of the timebase, at a place that the manual leaves open, with
the present epoch; but at a step the copy does not run backwards. -/
def execTimeCopyCorrection (island : Nat) (s : State) : Host.Outcome State Fault Refusal :=
  forUnit island 0x1F s fun s =>
    if island = 0x1B then s
    else
      let (d, s1) := s.freePhase (2 ^ 48)
      let (old, ep) := s.copyOf island
      let now := s.fld Off.timeStat 4 4
      let off := if ep = now then max d (min old (2 ^ 48)) else d
      { s1 with time := { s1.time with copies := tblSet s1.time.copies island (off, now) } }

/-- Whether an edge of PPS_IN is accepted (11 R328). -/
def State.ppsAccept (s : State) : Bool :=
  match s.yaf.disc.ppsAt with
  | none => true
  | some a =>
    let d := s.time.cycles - a
    decide (4 ≤ s.yaf.disc.ppsRej) || decide (16500000000 < d) ||
      (List.range 16).any fun i => decide ((i + 1) * 1000000000 ≤ d + 100000) && decide (d ≤ (i + 1) * 1000000000 + 100000)

/-- An edge of PPS_IN (11 R320, R328): stamped within 1 ns of the timebase where accepted, else rejected and counted. -/
def execPpsInEdge (s : State) : Host.Outcome State Fault Refusal :=
  .next (
    if !s.flag Off.ppsCfg 29 then s
    else if s.ppsAccept then
      let (d, s1) := s.freePhase (2 ^ 48)
      let st := stampTb ((s1.time.tb : Int) + d).toNat
      let s2 := (s1.setReg Off.ppsinNs st.ns).setReg Off.ppsinFr (s1.fld Off.ppsinFr 24 8 * 2 ^ 24 + 65536 + st.frac)
      s2.onDisc fun x => { x with ppsAt := some s.time.cycles, ppsRej := 0 }
    else
      let s1 := s.setFld Off.ppsinFr 24 8 (satAdd (s.fld Off.ppsinFr 24 8) 1 255)
      (s1.onDisc fun x => { x with ppsRej := x.ppsRej + 1 }).raise 722)

/-- PPS_OUT rises at a second boundary (11 R328). -/
def execPpsOutPulse (s : State) : Host.Outcome State Fault Refusal :=
  .next (
    if s.flag Off.ppsCfg 31 && (!s.flag Off.ppsCfg 30 || decide (2 ≤ s.fld Off.timeStat 0 2)) then s.emit (.pps s.now) else s)

/-- The lock threshold of a source in units of 2^-6 ns (11 R322). -/
def lockThreshold (src : Nat) : Nat :=
  match src with
  | 1 => 50 * 64
  | 2 => 10 * 64
  | _ => 64

/-- The link marked as time parent (10 R307). -/
def State.timeParent (s : State) : Option Nat := (List.range 128).find? fun l => s.flag (Off.lnkStat l) 3

/-- The sample of the selected source in units of 2^-6 ns (11 R322): given for PTP, from the last PPS_IN edge, or from LNK_TT
of the time-parent link. -/
def State.sampleOf (s : State) (given : Int) : Option Int :=
  match s.fld Off.timeCtrl 0 3 with
  | 1 => some given
  | 2 =>
    if s.flag Off.ppsinFr 16 then
      let e : Int := s.reg Off.ppsinNs * 64 + s.fld Off.ppsinFr 0 16 / 1024
      some ((e + 32 * 10 ^ 9) / (64 * 10 ^ 9) * (64 * 10 ^ 9) - e)
    else none
  | 3 => (s.timeParent).map fun l => signed (s.fld (Off.lnkTt l) 32 32) 32
  | _ => none

/-- The correction of one sample (11 R322, R323): a step where allowed and beyond the threshold, else a slew and a change of rate
in the direction of the offset, both of amounts that the loop's gains give. -/
def State.correct (s : State) (src : Nat) (off : Int) : State :=
  let rate := signed (s.fld Off.timeFreq 0 32) 32
  if s.flag Off.timeCtrl 5 ∧ s.fld Off.timeCtrl 16 8 * 64000 < off.natAbs then
    (s.setReg Off.timeAdj (2 ^ 62 + wrapInt (Int.tdiv off 64) 48)).adjust true (Int.tdiv off 64)
  else
    let phase := off.sign * (min (Config.loopPhase src rate off) (off.natAbs / 64) : Nat)
    let s1 := s.setRate (rate + off.sign * (Config.loopRate src rate off : Nat))
    (s1.setReg Off.timeAdj (wrapInt phase 48)).adjust false phase

/-- What a sample makes of the state of the timebase (11 R324). -/
def State.sampleState (s : State) (src : Nat) (off : Int) : State :=
  let thr := lockThreshold src
  match s.fld Off.timeStat 0 2 with
  | 1 =>
    if off.natAbs ≤ thr then
      let n := s.yaf.disc.within + 1
      if 16 ≤ n then
        let s1 := (s.onDisc fun d => { d with within := 0 }).timeState 2
        s1.onDisc fun d => { d with rates := [(s.time.cycles, signed (s.fld Off.timeFreq 0 32) 32)] }
      else s.onDisc fun d => { d with within := n }
    else s.onDisc fun d => { d with within := 0 }
  | 2 => if 4 * thr < off.natAbs then (s.onDisc fun d => { d with within := 0 }).timeState 1 else s
  | _ => (s.onDisc fun d => { d with within := 0 }).timeState 1

/-- A sample of the selected source (11 R322, R324). -/
def execDisciplineSample (offset64 : Int) (s : State) : Host.Outcome State Fault Refusal :=
  .next (
    match s.sampleOf offset64 with
    | none => s
    | some off =>
      let src := s.fld Off.timeCtrl 0 3
      let s1 := s.onDisc fun d => { d with offset := off, sampleAt := s.time.cycles }
      (s1.sampleState src off).correct src off)

/-- The loss timeout of a source in nanoseconds (11 R322); the sync interval of the PTP profile is not given, so its loss is as
the command says. -/
def lossTimeout (src : Nat) : Nat :=
  match src with
  | 2 => 2500000000
  | 3 => 1000000
  | _ => 0

/-- No valid sample within the loss timeout (11 R324). -/
def execSourceLossTimeout (s : State) : Host.Outcome State Fault Refusal :=
  .next (if s.yaf.disc.sampleAt + lossTimeout (s.fld Off.timeCtrl 0 3) ≤ s.time.cycles then s.sourceLost else s)

/-- A slew whose remainder is zero ends (11 R323). -/
def execSlewComplete (s : State) : Host.Outcome State Fault Refusal :=
  .next (if s.time.slew = 0 then s.setFlag Off.timeStat 3 false else s)

/-- A timer's compare value after it fired (11 R330). -/
def timerNext (cmp period now : Nat) : Nat := cmp + ((now - cmp) / period + 1) * period

/-- The timer of a slot where its time has come (11 R330): TIMER pending, fired set, and the next compare value or the end. -/
def State.timerDue (s : State) (c k : Nat) : State :=
  let ctl := Off.tmrCtrl c k
  let cmp := s.reg (Off.tmrCmp c k)
  let now := (s.stampIn c).ns
  if decide (k < s.slots c) && s.flag ctl 63 && decide (cmp ≤ now) then
    let s1 := (s.onLp (6 * c + k) fun p => { p with timer := true }).setFlag ctl 61 true
    let period := s.fld ctl 0 32
    if s.flag ctl 62 && period != 0 then s1.setReg (Off.tmrCmp c k) (timerNext cmp period now % 2 ^ 64)
    else s1.setFlag ctl 63 false
  else s

/-- A timer fires (11 R330). -/
def execTimerFire (c k : Nat) (s : State) : Host.Outcome State Fault Refusal :=
  forUnit c 16 s fun s => s.timerDue c k

end Sys2Proof.Machine
end

