-- ==== Sys2Proof/Machine/PortRx.lean ====
section
/-! DEFINITION. A port's receive side (09 R241-R268, R274, R281, 12 R356): MAC, MACsec, duplicate discard, classifier,
sampled-value landing, GOOSE decode and the software ring. -/

namespace Sys2Proof.Machine

/-- The group of a port (09 R242). -/
def portGroup (p : Nat) : Nat := p / 16

/-- A TS80 value of a stamp taken in a port's island (09 R248, 11 R312). -/
def State.portTs (s : State) (p : Nat) (t : Stamp) : List Byte := s.tsBytes (0x10 + portGroup p) t

/-- The receive stamp of a frame whose last bit arrives now: the start of the first bit after its start delimiter, corrected by
PORT_TSLAT.rx_lat (09 R248). Log 48. -/
def State.rxStamp (s : State) (p len : Nat) : Stamp :=
  stampTb (s.tbIn (0x10 + portGroup p) - len * 8 * s.bitPs p * 2 ^ 48 / 1000 - s.fld (Off.portTslat p) 0 16 * 2 ^ 46)

/-- The transmit stamp of a frame that starts now, with its preamble of 8 bytes before the stamp point, corrected by
PORT_TSLAT.tx_lat (09 R248). -/
def State.txStamp (s : State) (p : Nat) : Stamp :=
  stampTb (s.tbIn (0x10 + portGroup p) + 64 * s.bitPs p * 2 ^ 48 / 1000 + s.fld (Off.portTslat p) 16 16 * 2 ^ 46)

/-- A failure of the receive path counted and logged (09 R282: source 257 + 2p). -/
def State.rxReject (s : State) (p counter cause index : Nat) : State := (s.portCount p counter 1).portErr p cause index true

/-- Bytes written by a port; a place outside installed DRAM takes nothing (15 R405: ports reach device DRAM only). -/
def State.portWrite (s : State) (a : Nat) (bs : List Byte) : State := (s.dmaWrite a bs).getD s

/-- The key of a receive association in a port's store. -/
def saKey (sc an : Nat) : Nat := sc * 4 + an

/-- The transmit half of a port's store. -/
def saTxKey (an : Nat) : Nat := 64 + an

/-- The receive association of an SCI and AN (09 R247). -/
def State.rxSa (s : State) (p : Nat) (t : SecTag) : Option (Nat × Sa) :=
  (s.port p).sas.find? fun e => decide (e.1 < 64) && e.2.sci == t.sci && e.1 % 4 == t.an.toNat

/-- EtherTypes that pass MACsec unprotected (09 R245). -/
def State.bypasses (s : State) (p ether : Nat) : Bool := ether == 0x888E || (s.port p).bypass.contains ether

/-- A frame at the MACsec stage (09 R245, R247): the frame that passes on, with whether it was protected. The number that an
association holds is the next one expected, PRESUMED of IEEE 802.1AE, log 186. -/
def State.macsecRx (s : State) (p : Nat) (f : Frame) : State × Option (Frame × Bool) :=
  if !s.flag (Off.msecCfg p) 63 then
    match f.sec with
    | none => (s, some (f, false))
    | some _ => (s, some ({ f with ether := 0x88E5#16, payload := .other, tci := none, red := none, route := none }, false))
  else
    match f.sec with
    | none =>
      if !s.bypasses p f.ether.toNat && s.flag (Off.msecCfg p) 62 then (s.rxReject p 10 7 0, none) else (s, some (f, false))
    | some t =>
      match s.rxSa p t with
      | none => (s.rxReject p 10 7 0, none)
      | some (k, sa) =>
        if !t.icvOk then (s.rxReject p 8 7 k, none)
        else if s.flag (Off.msecCfg p) 58 && decide (t.pn + s.fld (Off.msecCfg p) 0 32 < sa.pn) then (s.rxReject p 9 7 k, none)
        else (s.onPort p fun x => { x with sas := tblSet x.sas k { sa with pn := max sa.pn (t.pn + 1) } }, some (f, true))

/-- Nanoseconds for which a pair keeps an entry, PRP_CFG.forget_ms (09 R252). -/
def State.forgetNs (s : State) (k : Nat) : Nat := s.fld (Off.prpCfg k) 0 16 * 1000000

/-- The duplicate-discard entries of a pair that are not forgotten (09 R252). -/
def State.ddtLive (s : State) (k : Nat) : List Ddt :=
  (tblGetD s.ddts k []).filter fun e => decide (s.time.cycles < e.at_ + s.forgetNs k)

/-- A frame with a trailer or tag at the duplicate stage (09 R251, R252): whether it passes. -/
def State.redundancyRx (s : State) (p : Nat) (f : Frame) : State × Bool :=
  match s.redMode p, f.red with
  | 0, _ => (s, true)
  | _, none => (s, true)
  | m, some t =>
    let k := p / 2
    let s1 := if m = 1 ∧ t.lanB ≠ (p % 2 == 1) then s.portCount p 12 1 else s
    let live := s1.ddtLive k
    if live.any fun e => e.src == f.src && e.seq == t.seq then (s1.portCount p 11 1, false)
    else
      let full := decide (4096 ≤ live.length)
      let s2 := if full then s1.rxReject p 13 9 0 else s1
      ({ s2 with ddts := tblSet s2.ddts k ((if full then live.drop 1 else live) ++ [⟨f.src, t.seq, s.time.cycles⟩]) }, true)

/-- A table entry of a group as bytes: `n` words of 8 bytes from an offset on. -/
def State.entryBytes (s : State) (off n : Nat) : List Byte := (List.range n).flatMap fun i => natBytes 8 (s.reg (off + 8 * i))

/-- Whether a rule of the classifier matches a frame on a port (09 R254-R256); log 45 for the byte order of addresses. -/
def ruleMatches (r : List Byte) (p : Nat) (f : Frame) : Bool :=
  let fl := fieldLE r 2 1
  let mac := BitVec.ofNat 48 (beNat ((r.drop 4).take 6))
  let mask := BitVec.ofNat 48 (beNat ((r.drop 10).take 6))
  let vlan := fieldLE r 0x12 2
  let tci : Nat := match f.tci with | some t => t.toNat | none => 0
  bitOf fl 0 && bitOf (fieldLE r 0 2) (p % 16) && decide (bits (fieldLE r 0x1C 4) 0 4 < 7) &&
    (f.dst ^^^ mac) &&& mask == 0 &&
    (!bitOf fl 1 || f.tci.isSome && bits tci 0 12 == bits vlan 0 12) &&
    (!bitOf fl 2 || f.tci.isSome && bits tci 13 3 == bits vlan 12 3) &&
    (!bitOf fl 3 || f.ether.toNat == fieldLE r 0x10 2) &&
    (!bitOf fl 4 || f.appid.toNat == fieldLE r 0x14 2) &&
    (!bitOf fl 5 || (match f.route with | some h => h.ipDst.toNat == fieldLE r 0x18 4 | none => false)) &&
    (!bitOf fl 6 || (match f.route with | some h => h.udpDst.toNat == fieldLE r 0x16 2 | none => false))

/-- The rule that a frame takes: its number, action and index (09 R255, R256). -/
def State.classify (s : State) (p : Nat) (f : Frame) : Option (Nat × Nat × Nat) :=
  (List.range 256).findSome? fun r =>
    let e := s.entryBytes (Off.clsRule (portGroup p) (4 * r)) 4
    if ruleMatches e p f then some (r, bits (fieldLE e 0x1C 4) 0 4, bits (fieldLE e 0x1C 4) 16 12) else none

/-- A frame put in the port's software ring (09 R257). -/
def State.softRing (s : State) (p rule : Nat) (f : Frame) (prot : Bool) (st : Stamp) : State :=
  let cfg := s.reg (Off.portRxring p)
  let n := bits cfg 0 5
  let tail := s.reg (Off.portRxtail p)
  if n < 4 ∨ 12 < n ∨ 2 ^ n ≤ cnt32 tail (s.reg (Off.portRxhead p)) then s.portCount p 15 1
  else
    let size := if bitOf cfg 5 then 16384 else 2048
    let trunc := decide (size - 32 < f.bytes.length)
    let lanB := match f.red with | some t => t.lanB | none => false
    let flags := bit01 trunc + bit01 lanB * 2 + bit01 prot * 4 + rule % 256 * 256
    let a := bits cfg 12 40 * 4096 + tail % 2 ^ n * size
    let s1 := s.portWrite a (s.portTs p st ++ natBytes 4 f.bytes.length ++ natBytes 4 flags ++ natBytes 8 0 ++
      f.bytes.take (size - 32))
    let s2 := s1.setReg (Off.portRxtail p) ((tail + 1) % 2 ^ 32)
    if s2.flag (Off.portRxntf p) 31 then s2.ring (s2.fld (Off.portRxntf p) 0 12) (s2.fld (Off.portRxntf p) 24 5) else s2

/-- What a stream's entry says (09 R260). -/
structure SvEntry where
  valid : Bool
  routable : Bool
  simAccept : Bool
  notify : Bool
  m : Nat
  chans : Nat
  synchMin : Nat
  rate : Nat
  crc : Nat
  len : Nat
  n : Nat
  dbBit : Nat
  ring : Nat
  confRev : Nat
  target : Nat
  stale : Nat
  deriving DecidableEq, Repr

/-- The offset of a stream's entry. -/
def svOff (g n : Nat) : Nat := Off.svStream g (8 * n)

/-- A stream's entry read. -/
def State.svEntry (s : State) (g n : Nat) : SvEntry :=
  let e := s.entryBytes (svOff g n) 8
  { valid := bitOf (fieldLE e 0 1) 0, routable := bitOf (fieldLE e 0 1) 1, simAccept := bitOf (fieldLE e 0 1) 2,
    notify := bitOf (fieldLE e 0 1) 3, m := fieldLE e 1 1, chans := fieldLE e 2 1, synchMin := fieldLE e 3 1,
    rate := fieldLE e 4 4, crc := fieldLE e 8 4, len := fieldLE e 0xC 1, n := fieldLE e 0xD 1 + 1,
    dbBit := bits (fieldLE e 0xE 1) 0 5, ring := fieldLE e 0x10 8, confRev := fieldLE e 0x18 4,
    target := bits (fieldLE e 0x1C 2) 0 12, stale := fieldLE e 0x1E 2 }

/-- smpCnt wraps at W (09 R259). -/
def SvEntry.wrap (e : SvEntry) : Nat := if e.rate ≤ 65536 then e.rate else 65536

/-- The offsets of a ring's planes (09 R261): values, qualities, presence. -/
def SvEntry.values (e : SvEntry) : Nat := 2 ^ e.m * 32
/-- A plane starts on a 64-byte boundary. -/
def up64 (n : Nat) : Nat := (n + 63) / 64 * 64
/-- The quality plane. -/
def SvEntry.quality (e : SvEntry) : Nat := e.values + up64 (2 ^ e.m * 4 * e.chans)
/-- The presence bitmap. -/
def SvEntry.presence (e : SvEntry) : Nat := e.quality + up64 (2 ^ e.m * 4 * e.chans)

/-- A stream's own state at its port. -/
def State.stream (s : State) (g n : Nat) : StreamSt := tblGetD s.streams (256 * g + n) ⟨0, 0, 0, 0⟩

/-- A presence bit. -/
def State.present (s : State) (e : SvEntry) (i : Nat) : Bool := bitOf (memGet s.mem (e.ring + e.presence + i / 8)).toNat (i % 8)

/-- A presence bit written. -/
def State.setPresent (s : State) (e : SvEntry) (i : Nat) (b : Bool) : State :=
  let a := e.ring + e.presence + i / 8
  s.portWrite a [BitVec.ofNat 8 (setBit (memGet s.mem a).toNat (i % 8) b)]

/-- An ASDU is rejected by its stream's entry (09 R264). -/
def asduBad (e : SvEntry) (a : Asdu) : Bool :=
  a.svIdLen != e.len || a.svIdCrc.toNat != e.crc || a.confRev.toNat != e.confRev || a.data.length != e.chans ||
    decide (a.smpSynch < e.synchMin) || (a.simulate && !e.simAccept) || decide (e.wrap ≤ a.smpCnt)

/-- The extended sample number of an ASDU, or none where it is late or a duplicate, with the counter that says so (09 R263). -/
def State.landX (s : State) (g n : Nat) (e : SvEntry) (smp : Nat) : Except Nat Int :=
  let xn : Int := s.reg (svOff g n + 0x30)
  if !bitOf (s.reg (svOff g n + 0x38)) 0 then .ok smp
  else
    let w := e.wrap
    let d := (smp + w - (s.stream g n).smp % w) % w
    let x : Int := if d < w / 2 then xn + d else xn - (w - d : Nat)
    if x ≤ xn - (2 ^ (e.m - 1) : Nat) then .error 17
    else
      let i := (x % (2 ^ e.m : Nat)).toNat
      if x ≤ xn ∧ s.present e i ∧ leNat (s.agentRead (e.ring + i * 32 + 0x10) 8) = wrapInt x 64 then .error 18 else .ok x

/-- The presence bits of the far half cleared as the newest number moves from `xn` to `x` (09 R263), at most 2^m of them. -/
def State.clearAhead (s : State) (e : SvEntry) (xn x : Int) : State :=
  let n := min (x - xn).toNat (2 ^ e.m)
  (List.range n).foldl (fun t (j : Nat) =>
    t.setPresent e (((x - (j : Int) + (2 ^ (e.m - 1) : Nat)) % (2 ^ e.m : Nat)).toNat) false) s

/-- One accepted ASDU landed (09 R262, R263): the state, and X where it landed. -/
def State.land (s : State) (p g n : Nat) (e : SvEntry) (f : Frame) (st : Stamp) (pos count : Nat) (a : Asdu) :
    State × Option Int :=
  match s.landX g n e a.smpCnt with
  | .error c => (s.portCount p c 1, none)
  | .ok x =>
    let off := svOff g n
    let run := bitOf (s.reg (off + 0x38)) 0
    let xn : Int := s.reg (off + 0x30)
    let s0 := if run then s
      else (s.portWrite (e.ring + e.presence) (List.replicate (2 ^ e.m / 8) 0)).setFlag (off + 0x38) 0 true
    let i := (x % (2 ^ e.m : Nat)).toNat
    let lanB := match f.red with | some t => t.lanB | none => false
    let flags := bit01 (decide (x < xn)) + bit01 a.simulate * 2 + bit01 lanB * 4 + bit01 f.route.isSome * 8
    let head := s0.portTs p st ++ natBytes 8 (wrapInt x 64) ++ natBytes 2 a.smpCnt ++ natBytes 1 a.smpSynch ++
      natBytes 1 flags ++ natBytes 1 pos ++ natBytes 1 count ++ natBytes 2 0
    let s1 := ((s0.portWrite (e.ring + i * 32) head).portWrite (e.ring + e.values + i * 4 * e.chans)
      (a.data.flatMap fun d => natBytes 4 d.1.toNat)).portWrite (e.ring + e.quality + i * 4 * e.chans)
      (a.data.flatMap fun d => natBytes 4 d.2.toNat)
    let key := 256 * g + n
    let old := s1.stream g n
    let s2 := if xn < x then
        let t := (s1.clearAhead e xn x).setReg (off + 0x30) (wrapInt x 64)
        { t with streams := tblSet t.streams key { old with smp := a.smpCnt } }
      else s1
    let s3 := (s2.setPresent e i true).setFlag (off + 0x38) 1 false
    let s4 := { s3 with streams := tblSet s3.streams key { s3.stream g n with landed := s.time.cycles, port := p } }
    (s4.portCount p 16 1, some x)

/-- The ASDUs of a frame landed in order; malformed coding rejects the rest of the frame (09 R264). The flag says whether some
X with X mod N = N - 1 landed. -/
def State.landAll (s : State) (p g n : Nat) (e : SvEntry) (f : Frame) (st : Stamp) (count : Nat) :
    Nat → Bool → List Asdu → State × Bool
  | _, hit, [] => (s, hit)
  | pos, hit, a :: t =>
    if a.malformed then ((s.portCount p 19 (t.length + 1)).portErr p 9 n true, hit)
    else if asduBad e a then (s.rxReject p 19 9 n).landAll p g n e f st count (pos + 1) hit t
    else
      match s.land p g n e f st pos count a with
      | (s1, none) => s1.landAll p g n e f st count (pos + 1) hit t
      | (s1, some x) => s1.landAll p g n e f st count (pos + 1) (hit || x % (e.n : Int) == (e.n : Int) - 1) t

/-- A frame at the sampled-value decoder of a stream (09 R259, R264, R265). -/
def State.svDecode (s : State) (p n : Nat) (f : Frame) (st : Stamp) : State :=
  let g := portGroup p
  let e := s.svEntry g n
  match f.payload with
  | .sv asdus =>
    if !e.valid || asdus.isEmpty || decide (8 < asdus.length) || e.chans = 0 || decide (24 < e.chans) then
      (s.portCount p 19 (max 1 asdus.length)).portErr p 9 n true
    else
      let (s1, hit) := s.landAll p g n e f st asdus.length 0 false asdus
      if hit && e.notify then s1.ring e.target e.dbBit else s1
  | _ => s.rxReject p 19 9 n

/-- The checks of a routable frame against an entry's key fields (09 R273, R274, 12 R356): whether it passes. -/
def State.routeOk (s : State) (keys : List Byte) (last : Nat) (h : RouteHdr) : Bool × Nat :=
  let slot := if fieldLE keys 4 4 = h.keyId.toNat then fieldLE keys 0 2 else fieldLE keys 2 2
  let known := fieldLE keys 4 4 == h.keyId.toNat || fieldLE keys 8 4 == h.keyId.toNat
  let ks := s.reg (Off.keyStat (slot % 1024))
  let pre := h.ipOk && h.udpOk && !h.optionsOrFragment && decide (last < h.spdu) && known
  (pre && bitOf ks 31 && bitOf ks 29 && h.sigOk, bit01 pre)

/-- A signature that does not verify, at the engine that had the request (12 R356, R359): its cause and its source. Which active engine
has it is a free value (log 187). -/
def State.portAuthEvent (s : State) : State :=
  let act := (List.range 36).filter fun e => s.fld (Off.ceStat e) 0 2 == 1
  let (k, s1) := s.fresh
  match act[k % act.length]? with
  | some e => (s1.logCause (Off.ceErr e) 8 0).raise (580 + e)
  | none => s

/-- A failed check of a routable frame (09 R274). -/
def State.authFail (s : State) (p n : Nat) : State := s.rxReject p 23 0xA n

/-- A routable sampled-value frame (09 R274). -/
def State.rsvDecode (s : State) (p n : Nat) (f : Frame) (st : Stamp) : State :=
  let g := portGroup p
  let key := 256 * g + n
  match f.route with
  | none => s.authFail p n
  | some h =>
    let (ok, asked) := s.routeOk ((s.entryBytes (svOff g n) 8).drop 0x20) (s.stream g n).spdu h
    let s0 := s.countHub 1 7 asked
    if ok then
      ({ s0 with streams := tblSet s0.streams key { s0.stream g n with spdu := h.spdu } }).svDecode p n f st
    else (if asked = 1 then s0.portAuthEvent else s0).authFail p n

/-- The offset of a subscription's entry (09 R267). -/
def subOff (g n : Nat) : Nat := Off.gseSub g (8 * n)

/-- A subscription's own state. -/
def State.sub (s : State) (g n : Nat) : SubSt := tblGetD s.subs (512 * g + n) ⟨0, 0, 0, 0⟩

/-- The doorbell of a subscription's entry, where enabled. -/
def State.subNotify (s : State) (e : List Byte) : State :=
  if bitOf (fieldLE e 0 1) 3 then s.ring (bits (fieldLE e 0x18 2) 0 12) (fieldLE e 0x1A 1 % 32) else s

/-- The 64-byte header of a status block (09 R268). -/
def statusHeader (cur flags stNum sqNum tal : Nat) (stamp t : List Byte) (count : Nat) : List Byte :=
  natBytes 1 cur ++ natBytes 1 flags ++ natBytes 2 0 ++ natBytes 4 stNum ++ natBytes 4 sqNum ++ natBytes 4 tal ++ stamp ++ t ++
    natBytes 4 count ++ natBytes 20 0

/-- An accepted GOOSE message at its status block (09 R268). -/
def State.gooseAccept (s : State) (p n : Nat) (e : List Byte) (m : GooseMsg) (st : Stamp) : State :=
  let g := portGroup p
  let a := fieldLE e 0x10 8
  let cnt := fieldLE e 1 1
  let h := s.agentRead a 64
  let fl := fieldLE h 1 1
  let key := 512 * g + n
  let s0 := if bitOf fl 1 then s.portWrite (a + 1) [BitVec.ofNat 8 (setBit fl 1 false)] else s
  let seen := { s0.sub g n with seen := s.time.cycles, port := p, tal := m.talMs }
  let ts := s.portTs p st
  let t := natBytesBE 8 m.t.toNat
  if !bitOf fl 0 || fieldLE h 4 4 != m.stNum then
    let buf := 1 - fieldLE h 0 1 % 2
    let s1 := s0.portWrite (a + 64 + buf * (8 * cnt)) (m.entries.flatMap fun x => natBytes 8 x.slot.toNat)
    let s2 := s1.portWrite a (statusHeader buf (1 + bit01 m.simulation * 4 + bit01 m.ndsCom * 8) m.stNum m.sqNum m.talMs ts t
      ((fieldLE h 0x28 4 + 1) % 2 ^ 32))
    ({ (s2.portCount p 20 1) with subs := tblSet s2.subs key seen }).subNotify e
  else if fieldLE h 8 4 < m.sqNum ∨ (m.sqNum = 1 ∧ fieldLE h 8 4 = 2 ^ 32 - 1) then
    let s1 := s0.portWrite (a + 8) (natBytes 4 m.sqNum ++ natBytes 4 m.talMs ++ ts ++ t)
    { (s1.portCount p 20 1) with subs := tblSet s1.subs key seen }
  else s0.portCount p 11 1

/-- A frame at the GOOSE decoder of a subscription (09 R266-R268). -/
def State.gooseDecode (s : State) (p rule n : Nat) (f : Frame) (prot : Bool) (st : Stamp) : State :=
  let g := portGroup p
  let e := s.entryBytes (subOff g n) 8
  match f.payload with
  | .goose m =>
    let cnt := m.entries.length
    if cnt = 0 ∨ 64 < cnt ∨ (m.entries.any fun x => !x.accepted) then
      let s1 := s.rxReject p 21 9 n
      if bitOf (fieldLE e 0 1) 0 && bitOf (fieldLE e 0 1) 4 then s1.softRing p rule f prot st else s1
    else if !bitOf (fieldLE e 0 1) 0 || m.gocbCrc.toNat != fieldLE e 4 4 || m.gocbLen != fieldLE e 8 1 ||
        m.confRev.toNat != fieldLE e 0xC 4 || cnt != fieldLE e 1 1 || (m.simulation && !bitOf (fieldLE e 0 1) 2) then
      s.rxReject p 21 9 n
    else s.gooseAccept p n e m st
  | _ => s.rxReject p 21 9 n

/-- A routable GOOSE frame (09 R274). -/
def State.rgooseDecode (s : State) (p rule n : Nat) (f : Frame) (prot : Bool) (st : Stamp) : State :=
  let g := portGroup p
  let key := 512 * g + n
  match f.route with
  | none => s.authFail p n
  | some h =>
    let (ok, asked) := s.routeOk ((s.entryBytes (subOff g n) 8).drop 0x1C) (s.sub g n).spdu h
    let s0 := s.countHub 1 7 asked
    if ok then
      ({ s0 with subs := tblSet s0.subs key { s0.sub g n with spdu := h.spdu } }).gooseDecode p rule n f prot st
    else (if asked = 1 then s0.portAuthEvent else s0).authFail p n

/-- A frame past the duplicate stage, classified and decoded (09 R244, R254-R257). A frame with TPID 0x88A8 is classified on
that EtherType and never decoded. -/
def State.frameIn (s : State) (p : Nat) (f0 : Frame) (prot : Bool) (st : Stamp) : State :=
  let f : Frame := if f0.svlan then { f0 with ether := 0x88A8#16, tci := none, payload := .other, route := none } else f0
  match s.classify p f with
  | none =>
    let s1 := s.portCount p 14 1
    if s1.flag (Off.clsDefault (portGroup p)) 0 then s1.softRing p 0xFF f prot st else s1
  | some (r, act, idx) =>
    match act with
    | 1 => s.svDecode p (idx % 256) f st
    | 2 => s.gooseDecode p r (idx % 512) f prot st
    | 3 => s.rsvDecode p (idx % 256) f st
    | 4 => s.rgooseDecode p r (idx % 512) f prot st
    | 6 => s.softRing p r f prot st
    | _ => s

/-- A frame received whole (09 R241, R244): the MAC counts and discards, then MACsec, duplicate discard and the classifier. A
port that is not up receives nothing. -/
def State.frameRx (s : State) (p : Nat) (f : Frame) : State :=
  if !s.usable p then s
  else if !f.fcsOk then s.portCount p 2 1
  else if f.len < 64 ∨ 9216 < f.len then s.portCount p 6 1
  else
    let s1 := (s.portCount p 0 1).portCount p 1 f.len
    if f.macControl then s1.portCount p 7 1
    else
      match s1.macsecRx p f with
      | (s2, none) => s2
      | (s2, some (f1, prot)) =>
        match s2.redundancyRx p f1 with
        | (s3, false) => s3
        | (s3, true) => s3.frameIn p f1 prot (s.rxStamp p f.len)

/-- A received frame (09 R241). -/
def execFrameReceive (p : Nat) (f : Frame) (s : State) : Host.Outcome State Fault Refusal :=
  forUnit p 128 s fun s => s.frameRx p f

/-- The oldest duplicate-discard entry of a pair forgotten, once it is old enough (09 R252). -/
def execDdtEntryForget (pair : Nat) (s : State) : Host.Outcome State Fault Refusal :=
  forUnit pair 64 s fun s => { s with ddts := tblSet s.ddts pair (s.ddtLive pair) }

/-- No ASDU landed within the stale timeout (09 R265): the flag, the doorbell and the port's link event, once. -/
def execSvStale (g n : Nat) (s : State) : Host.Outcome State Fault Refusal :=
  forUnit g 8 s fun s =>
    let e := s.svEntry g n
    let off := svOff g n + 0x38
    let x := s.stream g n
    if decide (n < 256) && e.valid && s.flag off 0 && !s.flag off 1 && e.stale != 0 &&
        decide (x.landed + e.stale * 10000 ≤ s.time.cycles) then
      let s1 := s.setFlag off 1 true
      (if e.notify then s1.ring e.target e.dbBit else s1).portErr x.port 5 n false
    else s

/-- No frame accepted by the last stamp plus the time allowed to live (09 R268): the flag in the status block, the doorbell and
the port's link event, once. -/
def execGooseStale (g n : Nat) (s : State) : Host.Outcome State Fault Refusal :=
  forUnit g 8 s fun s =>
    let e := s.entryBytes (subOff g n) 8
    let a := fieldLE e 0x10 8
    let fl := (memGet s.mem (a + 1)).toNat
    let x := s.sub g n
    if decide (n < 512) && bitOf (fieldLE e 0 1) 0 && bitOf fl 0 && !bitOf fl 1 &&
        decide (x.seen + x.tal * 1000000 ≤ s.time.cycles) then
      (((s.portWrite (a + 1) [BitVec.ofNat 8 (setBit fl 1 true)]).portCount x.port 22 1).subNotify e).portErr x.port 6 n false
    else s

end Sys2Proof.Machine
end

