-- ==== Sys2Proof/Machine/PortTx.lean ====
section
/-! DEFINITION. A port's egress (09 R247-R249, R253, R258, R269-R272, R281): the order of frames, MACsec on transmit, GOOSE
repetitions, HSR forwarding, and what happens to queued frames when a port goes down or comes back. -/

namespace Sys2Proof.Machine

/-- The EtherType of a frame to send, for the MACsec bypass list. -/
def bodyEther : TxBody → Nat
  | .goose .. => 0x88B8
  | .supervision => 0x88FB
  | .ptp .. => 0x88F7
  | .forwarded f => f.ether.toNat

/-- Nanoseconds from now to the release of a TIMED_SEND parked for a port; none that has passed (09 R258). -/
def State.parkedIn (s : State) (p : Nat) : List Nat :=
  (s.tqs.flatMap fun e => e.2.opens).filterMap fun t =>
    if t.stage == .parked && t.target / 2 ^ 62 == 1 && (targetPorts t.target).contains p && decide (s.now ≤ t.timeNs) then
      some (t.timeNs - s.now)
    else none

/-- A frame that starts now leaves the wire before the release of every parked TIMED_SEND (09 R258). -/
def State.clearOfTimed (s : State) (p : Nat) (f : EgFrame) : Bool :=
  (s.parkedIn p).all fun d => decide (s.wireNs p f.len ≤ d)

/-- A frame that starts now leaves the wire before the port's next GOOSE repetition (09 R258). -/
def State.clearOfReps (s : State) (p : Nat) (f : EgFrame) : Bool :=
  let fin := s.time.cycles + s.wireNs p f.len
  ((s.port p).queue.all fun x => x.cls != .rep || decide (fin ≤ x.due)) &&
    s.pubs.all fun b => match tblGet? b.2.ports p with
      | some x => x.stopped || decide (fin ≤ x.due)
      | none => true

/-- The next frame of a port (09 R258): a due TIMED_SEND, a GOOSE event, a due repetition, another frame; within a class the
oldest that may start. Log 49. -/
def State.nextFrame (s : State) (p : Nat) : Option EgFrame :=
  let q := (s.port p).queue
  let first := fun (c : EgClass) (ok : EgFrame → Bool) => q.find? fun f => f.cls == c && ok f
  (first .timed fun _ => true) <|> (first .event fun f => s.clearOfTimed p f) <|>
    (first .rep fun f => decide (f.due ≤ s.time.cycles) && s.clearOfTimed p f) <|>
    (first .other fun f => s.clearOfTimed p f && s.clearOfReps p f)

/-- A frame at MACsec on its way out (09 R245, R247): the association that protects it, or none where it goes out unprotected;
no answer where it is held. -/
def State.macsecTx (s : State) (p : Nat) (f : EgFrame) : Option (State × Option Nat) :=
  if !s.flag (Off.msecCfg p) 63 || s.bypasses p (bodyEther f.body) then some (s, none)
  else
    match (s.port p).txAn with
    | none => none
    | some an =>
      match tblGet? (s.port p).sas (saTxKey an) with
      | none => none
      | some sa =>
        if 2 ^ 64 - 1 ≤ sa.pn then none
        else
          let warn := !sa.warned && decide (2 ^ 62 ≤ sa.pn)
          let s1 := s.onPort p fun x => { x with
            sas := tblSet x.sas (saTxKey an) { sa with pn := sa.pn + 1, warned := sa.warned || warn } }
          some (if warn then s1.portErr p 0xB an false else s1, some an)

/-- The schedule of a publication at a port after its frame number `k` left (09 R271): the next repetition comes I_(k+1) later. -/
def State.pubStart (s : State) (p i k : Nat) : State :=
  match s.pubEntry i, tblGet? s.pubs i with
  | some e, some b =>
    { s with pubs := tblSet s.pubs i { b with
      ports := tblSet b.ports p ⟨k, s.time.cycles + pubInterval e (k + 1) false, false, false⟩ } }
  | _, _ => s

/-- What the start of a GOOSE frame writes into its publication's entry (09 R269): stNum and sqNum. -/
def State.pubMark (s : State) (i stNum sqNum : Nat) : State :=
  if s.flag Off.pubBase 0 then
    s.portWrite (s.fld Off.pubBase 20 32 * 2 ^ 20 + 256 * i + 0x30) (natBytes 4 stNum ++ natBytes 4 sqNum)
  else s

/-- The transaction of a frame completes as its first bit leaves (08 R211, R230). -/
def State.txnSent (s : State) (p : Nat) (tx : Option (Nat × Nat)) : State :=
  match tx with
  | none => s
  | some (q, c) =>
    match s.openTxn q c with
    | some t => s.txnEnd q t .ok t.seq (s.portTs p (s.txStamp p)) false
    | none => s

/-- A TRIP_TEST ends with the first event frame of its publication (14 R390): t_in is the end of the last frame injected before, free
where there is none (log 91). -/
def State.tripEvent (s : State) (i stNum : Nat) (out : Stamp) : State :=
  match s.yaf.trip with
  | none => s
  | some t =>
    if t.pub ≠ i then s
    else
      let (v, s1) := if t.stamps.isEmpty then s.fresh else (0, s)
      let tin := t.stamps.headD (v, 0)
      let lat := ((out.ns : Int) * 65536 + out.frac - (tin.1 * 65536 + tin.2)) / 2 ^ 14
      let index := if t.stamps.isEmpty then v / 2 ^ 32 else t.stamps.length - 1
      let s2 : State := { s1 with yaf := { s1.yaf with
        trip := none, muted := if t.wire then s1.yaf.muted else tblSet s1.yaf.muted i stNum } }
      s2.complete t.master t.cp t.tag 0x0805 .ok none true
        (packFields [(8, tin.1), (8, out.ns), (4, wrapInt lat 32), (4, stNum), (2, index)])

/-- Whether a trip test keeps a frame of a publication off the wire (14 R390, wire = 0): every frame while it runs, and afterwards
those of the state whose event frame ended it. -/
def State.isMuted (s : State) (i stNum : Nat) : Bool :=
  (match s.yaf.trip with | some t => t.pub == i && !t.wire | none => false) || tblGet? s.yaf.muted i == some stNum

/-- A chosen frame starts (09 R248, R249, R271, R281). -/
def State.startFrame (s : State) (p : Nat) (f : EgFrame) (sa : Option Nat) : State :=
  let body := match f.body with | .ptp m _ => TxBody.ptp m (s.txStamp p) | b => b
  let mute := match f.body with | .goose i st _ _ _ _ _ _ => s.isMuted i st | _ => false
  let s0 := s.onPort p fun x => { x with queue := x.queue.erase f }
  let s1 := if mute then s0 else s0.emit (.frame p body sa f.red)
  let s2 := (s1.portCount p 24 1).portCount p 25 f.len
  let s3 := if f.cls = EgClass.rep then
      let u := s2.portCount p 26 1
      if f.due + 2 < s.time.cycles then u.portCount p 27 1 else u
    else s2
  let s4 := match f.body with
    | .goose i st sq _ _ _ _ _ =>
      let u := s3.pubMark i st sq
      if f.cls = EgClass.rep then u else (u.pubStart p i sq).tripEvent i st (s.txStamp p)
    | _ => s3
  s4.txnSent p f.txn

/-- A port that may start a frame chooses and starts it (09 R258). -/
def execFrameStart (p : Nat) (s : State) : Host.Outcome State Fault Refusal :=
  forUnit p 128 s fun s =>
    if !s.usable p then s
    else
      match s.nextFrame p with
      | none => s
      | some f =>
        match s.macsecTx p f with
        | none => s
        | some (s1, sa) => s1.startFrame p f sa

/-- Repetition `k` of a publication queued in a port, and the schedule kept (09 R271). -/
def State.queueRep (s : State) (p i k : Nat) (x : PubPort) (red : Option Nat) : State :=
  match s.pubEntry i with
  | none => s
  | some e =>
    let s1 := s.gooseQueue p i k .rep x.due none red x.atMax
    match tblGet? s1.pubs i with
    | some b => { s1 with pubs := tblSet s1.pubs i { b with
        ports := tblSet b.ports p { x with k := k, due := x.due + pubInterval e (k + 1) x.atMax } } }
    | none => s1

/-- A new SPDU number for a routable publication (09 R273). -/
def State.pubSpdu (s : State) (i : Nat) : State :=
  match s.pubEntry i, tblGet? s.pubs i with
  | some e, some b => if bitOf (fieldLE e 0 1) 4 then { s with pubs := tblSet s.pubs i { b with spdu := b.spdu + 1 } } else s
  | _, _ => s

/-- The due repetition of a publication queued at the ports that send that number (09 R271): both copies of a pair carry one
number of the trailer or tag. -/
def State.repeatPub (s : State) (i : Nat) : State :=
  match tblGet? s.pubs i with
  | none => s
  | some b =>
    let run := b.ports.filter fun e => !e.2.stopped && s.usable e.1
    match run.find? fun e => decide (e.2.due ≤ s.time.cycles) with
    | none => s
    | some (p0, x0) =>
      let same := run.filter fun e => e.2.k == x0.k && e.2.atMax == x0.atMax
      let (red, s1) := (s.pubSpdu i).redSeq p0
      same.foldl (fun u e => u.queueRep e.1 i (x0.k + 1) e.2 red) s1

/-- A GOOSE repetition falls due (09 R271). -/
def execGooseRepetition (pub : Nat) (s : State) : Host.Outcome State Fault Refusal :=
  forUnit pub 4096 s fun s => s.repeatPub pub

/-- A queued frame handed back as its port goes down (09 R280): its transaction is held, but where the pair's other port is up,
the copy is skipped and counted. -/
def State.handBack (s : State) (p : Nat) (f : EgFrame) : State :=
  match f.txn with
  | none => s
  | some (q, c) =>
    match s.openTxn q c with
    | none => s
    | some t =>
      if (targetPorts t.target).any fun o => o != p && s.usable o then s.portCount p 28 1
      else s.onTxn q c fun x => { x with stage := .returned }

/-- Every publication's repetitions at a port stopped (09 R272). -/
def State.pubsStop (s : State) (p : Nat) : State :=
  { s with pubs := tblMap (fun _ b => match tblGet? b.ports p with
      | some x => { b with ports := tblSet b.ports p { x with stopped := true } }
      | none => b) s.pubs }

/-- A port that stops sending: its queue emptied (09 R280). -/
def State.portDrop (s : State) (p : Nat) : State :=
  let q := (s.port p).queue
  let s1 := (s.onPort p fun x => { x with queue := [] }).pubsStop p
  q.foldl (fun u f => u.handBack p f) s1

/-- The largest number that a port gave a publication's frames, and whether any has left. -/
def Pub.lastNum (b : Pub) : Nat × Bool :=
  b.ports.foldl (fun (a : Nat × Bool) e => (max a.1 e.2.k, a.2 || decide (0 < e.2.due))) (0, false)

/-- A port that sends again: the current state of each publication goes out at once with the next number, and repetitions
follow at t_max (09 R272). -/
def State.pubsResume (s : State) (p : Nat) : State :=
  s.pubs.foldl (fun u e =>
    match tblGet? e.2.ports p with
    | none => u
    | some x =>
      let (k, left) := e.2.lastNum
      if x.stopped && left then
        let (red, u1) := (u.pubSpdu e.1).redSeq p
        u1.queueRep p e.1 (k + 1) ⟨k, u.time.cycles, true, false⟩ red
      else u) s

/-- Frames that a port of an HSR pair has forwarded already: source and tag, at key 64 + port. -/
def State.seenHsr (s : State) (p : Nat) (f : Frame) (t : RedTag) : Bool :=
  (tblGetD s.ddts (64 + p) []).any fun e =>
    e.src == f.src && e.seq == t.seq && decide (s.time.cycles < e.at_ + s.forgetNs (p / 2))

/-- Whether a frame arrived whole and, with MACsec on, verified (09 R253). -/
def State.verified (s : State) (p : Nat) (f : Frame) : Bool :=
  f.fcsOk && (if s.flag (Off.msecCfg p) 63 then
    match f.sec with
    | some t => t.icvOk && (s.rxSa p t).isSome
    | none => s.bypasses p f.ether.toNat || !s.flag (Off.msecCfg p) 62
  else true)

/-- An HSR frame not for this device alone goes to the other port of the pair, once, and never one that this device sent
(09 R253). -/
def execHsrForward (p : Nat) (f : Frame) (s : State) : Host.Outcome State Fault Refusal :=
  forUnit p 128 s fun s =>
    let other := if p % 2 = 0 then p + 1 else p - 1
    match f.red with
    | none => s
    | some t =>
      let mine := f.src == Config.portMac (pairEven p) || f.src == Config.portMac (pairEven p + 1)
      let forMe := f.dst == Config.portMac (pairEven p) || f.dst == Config.portMac (pairEven p + 1)
      if s.redMode p = 2 && s.usable p && s.usable other && s.verified p f && !mine && !forMe && !s.seenHsr p f t then
        let key := 64 + p
        let ent : Ddt := ⟨f.src, t.seq, s.time.cycles⟩
        let s1 : State := { s with ddts := tblSet s.ddts key ((tblGetD s.ddts key []) ++ [ent]) }
        let fr : EgFrame := ⟨.other, s.time.cycles, none, f.len, some t.seq.toNat, .forwarded f⟩
        s1.onPort other fun x => { x with queue := x.queue ++ [fr] }
      else s

/-- A frame of Yafolo queued in a port: others, oldest first (09 R258). -/
def State.queueOther (s : State) (p len : Nat) (red : Option Nat) (b : TxBody) : State :=
  s.onPort p fun x => { x with queue := x.queue ++ [⟨.other, s.time.cycles, none, len, red, b⟩] }

/-- A PRP or HSR supervision frame on both ports of a pair (09 R251). Its length, as that of a PTP message, is PRESUMED of the
standards, log 38. -/
def execPrpSupervisionFrame (pair : Nat) (s : State) : Host.Outcome State Fault Refusal :=
  forUnit pair 64 s fun s =>
    if s.redMode (2 * pair) = 0 then s
    else
      let (red, s1) := s.redSeq (2 * pair)
      [2 * pair, 2 * pair + 1].foldl (fun u p => if u.usable p then u.queueOther p 70 red .supervision else u) s1

end Sys2Proof.Machine
end

