-- ==== Sys2Proof/Machine/PortCtl.lean ====
section
/-! DEFINITION. Control of ports (09 R242, R243, R246, R272, R275-R280, R283): enable and disable, the link's state, block
lock, modules and their life records, the spare lane, and the writes of port registers that do more than store. -/

namespace Sys2Proof.Machine

/-- A cage. -/
def State.cage (s : State) (p : Nat) : Cage := tblGetD s.cages p ⟨none, false, false⟩

/-- TX_DISABLE: high while the port is disabled or its module reports TX_FAULT (09 R275). -/
def State.txDisableEval (s : State) (p : Nat) : State :=
  s.setFlag (Off.portStat p) 3 (!s.flag (Off.portCfg p) 63 || s.flag (Off.portStat p) 4)

/-- The link of an Ethernet port follows its enable, lock, LOS and TX_FAULT (09 R278, R280): a change raises the port's link
event and LINK_CHANGE; a port that goes down hands its frames back, one that comes up sends the current state of its
publications. -/
def State.linkEval (s : State) (p : Nat) : State :=
  let st := Off.portStat p
  let up := s.flag (Off.portCfg p) 63 && s.flag st 2 && !s.flag st 5 && !s.flag st 4 &&
    decide (1 ≤ s.portMode p) && decide (s.portMode p ≤ 3)
  if up = s.flag st 1 then s
  else
    let s1 := s.setFlag st 1 up
    let s2 := if up then s1.pubsResume p else s1.portDrop p
    (s2.portErr p 1 0 false).event 0xA p (s2.reg st) 0 []

/-- A write of PORT_CFG (09 R242, R243, R280): mode and fec are dropped while the port is enabled; reserved values store 0. -/
def State.portCfgWrite (s : State) (p v : Nat) : State :=
  let off := Off.portCfg p
  let old := s.reg off
  let mode := if bitOf old 63 then bits old 8 3 else if 4 < bits v 8 3 then 0 else bits v 8 3
  let fec := if bitOf old 63 then bits old 4 2 else if bits v 4 2 = 3 then 0 else bits v 4 2
  let s1 := s.setReg off (bits v 63 1 * 2 ^ 63 + mode * 256 + fec * 16 + bits v 3 1 * 8)
  let s2 := (s1.setFlag (Off.portStat p) 0 (bitOf v 63)).txDisableEval p
  s2.linkEval p

/-- A write of PRP_CFG of a pair (09 R283). -/
def State.prpCfgWrite (s : State) (k v : Nat) : State :=
  let off := Off.prpCfg k
  let old := s.reg off
  let busy := s.flag (Off.portCfg (2 * k)) 63 || s.flag (Off.portCfg (2 * k + 1)) 63
  let mode := if busy then bits old 16 2 else if bits v 16 2 = 3 then 0 else bits v 16 2
  let fg := bits v 0 16
  let ms := if 1 ≤ fg ∧ fg ≤ 4000 then fg else bits old 0 16
  s.setReg off (mode * 65536 + ms)

/-- A write of MSEC_CFG (09 R246, R283): disabling clears the key store. -/
def State.msecCfgWrite (s : State) (p v : Nat) : State :=
  let s1 := s.setReg (Off.msecCfg p) (bits v 58 6 * 2 ^ 58 + bits v 0 32)
  if bitOf v 63 then s1 else s1.onPort p fun x => { x with sas := [], txAn := none }

/-- Block lock of a port lost (09 R278). -/
def State.lockLost (s : State) (p : Nat) : State :=
  if s.flag (Off.portStat p) 2 then
    let s1 := (s.onPort p fun x => { x with lock := false }).setFlag (Off.portStat p) 2 false
    if s1.flag (Off.portStat p) 1 then s1.linkEval p else s1.portErr p 1 0 false
  else s

/-- The life record of a module, opened where there is none: at most 1,024 are kept, and the record of the absent module last
seen longest ago gives way (09 R276). -/
def State.openLife (s : State) (part serial : BitVec 32) : State :=
  let ls := s.svc.lives
  if ls.any fun r => r.part == part && r.serial == serial then s
  else
    let absent := ls.filter fun r => !(s.cages.any fun c => c.2.ident == some (r.part, r.serial))
    let drop := absent.foldl (fun (b : Option LifeRec) r =>
      match b with
      | none => some r
      | some x => if r.seen < x.seen then some r else b) none
    let kept := if ls.length < 1024 then ls
      else match drop with
        | some x => ls.erase x
        | none => ls.drop 1
    let new : LifeRec := ⟨part, serial, s.now, 0, 0, [], 0, 0, s.now, false⟩
    { s with svc := { s.svc with lives := kept ++ [new] } }

/-- The life record of a module changed. -/
def State.onLife (s : State) (id : BitVec 32 × BitVec 32) (f : LifeRec → LifeRec) : State :=
  { s with svc := { s.svc with lives := s.svc.lives.map fun r => if (r.part, r.serial) = id then f r else r } }

/-- What one cage's reading changes (09 R275, R276, R278). -/
def State.cageRead (s : State) (c : CageRead) : State :=
  let p := c.port
  let old := s.cage p
  let st := Off.portStat p
  let id := if c.present then some (c.part, c.serial) else none
  let s0 : State := { s with cages := tblSet s.cages p ⟨id, c.los, c.txFault⟩ }
  let s1 := match old.ident with
    | some o =>
      if id = some o then s0
      else
        ((((s0.onLife o fun r => { r with seen := s.now }).setFlag st 6 false).lockLost p).portErr p 3 0 false).event 8 p 0
          o.2.toNat []
    | none => s0
  let s2 := match id with
    | some n =>
      if old.ident = some n then s1
      else (((s1.openLife n.1 n.2).setFlag st 6 true).portErr p 3 0 false).event 8 p 1 n.2.toNat []
    | none => s1
  let s3 := s2.setFlag st 5 c.los
  let s4 := if c.los && !old.los then (s3.lockLost p).portErr p 3 0 false else s3
  let s5 := (s4.setFlag st 4 c.txFault).txDisableEval p
  let s6 := if c.txFault && !old.txFault then s5.portErr p 3 0 false else s5
  s6.linkEval p

/-- The board expanders of a bus polled (09 R275, R278): a bus that stays stuck raises the event of each of its ports. -/
def execExpanderPoll (bus : Nat) (cages : List CageRead) (stuck : Bool) (s : State) : Host.Outcome State Fault Refusal :=
  forUnit bus 16 s fun s =>
    if stuck then (List.range 8).foldl (fun u i => u.portErr (8 * bus + i) 3 0 false) s
    else (cages.filter fun c => c.port / 8 == bus).foldl (fun u c => u.cageRead c) s

/-- The rated laser life of a part in hours (09 R277, 14 MODULE_CFG). -/
def State.ratedLife (s : State) (part : BitVec 32) : Nat :=
  match tblGet? s.yaf.mod.lifeKh part.toNat with
  | some k => k * 1000
  | none => match tblGet? s.yaf.mod.lifeKh 0 with
    | some k => k * 1000
    | none => 100000

/-- The larger wear ratio of a module in per mille (09 R277). -/
def State.wearRatio (s : State) (r : LifeRec) : Nat :=
  let a := if s.ratedLife r.part = 0 then 1000 else r.laser * 1000 / s.ratedLife r.part
  let b := if r.biasFirst = 0 then 0 else (r.biasNow - r.biasFirst) * 2000 / r.biasFirst
  max a b

/-- The hourly update of a module's life record, and MODULE_WEAR once (09 R276, R277, R394). -/
def execModuleLifeUpdate (p tempBin biasUa : Nat) (s : State) : Host.Outcome State Fault Refusal :=
  forUnit p 128 s fun s =>
    match (s.cage p).ident with
    | none => s
    | some id =>
      let b := min tempBin 7
      let on := !s.flag (Off.portStat p) 3
      let s1 := s.onLife id fun r => { r with
        powered := r.powered + 1, laser := r.laser + bit01 on, hist := tblSet r.hist b (tblGetD r.hist b 0 + 1),
        biasFirst := if r.biasFirst = 0 then biasUa else r.biasFirst, biasNow := biasUa, seen := s.now }
      match s1.svc.lives.find? fun r => decide ((r.part, r.serial) = id) with
      | none => s1
      | some r =>
        if !r.worn && decide (s1.yaf.mod.wearPct * 10 ≤ s1.wearRatio r) then
          ((s1.onLife id fun r => { r with worn := true }).portErr p 4 0 false).event 9 p (s1.wearRatio r) r.laser []
        else s1

/-- The spare lane of a group is taken or condemned (09 R279, 17 R444): lane 16 serves, or a lane of the group has failed. -/
def State.laneTaken (s : State) (g : Nat) : Bool := s.svc.map.any fun e => e.kind == 9 && e.group == g

/-- A failing lane moved to the group's spare lane (09 R279): the port is disabled, steered, and enabled again; with the spare
in use, or a spare that does not lock, the port stays disabled. Nothing is moved where no switch is declared, or the module
reports LOS or TX_FAULT. -/
def State.spareLane (s : State) (p : Nat) (ok : Bool) : State :=
  let g := portGroup p
  let st := Off.portStat p
  if !bitOf s.yaf.mod.steer g || s.flag st 5 || s.flag st 4 || !s.flag (Off.portCfg p) 63 then s
  else
    let v := s.reg (Off.portCfg p)
    let s1 := (s.lockLost p).portCfgWrite p (setBit v 63 false)
    if s.laneTaken g || !ok then s1.portErr p 2 0 false
    else
      let s2 := (s1.condemn 9 g (p % 16) (256 + 2 * p) true).setFlag st 7 true
      let s3 := (s2.onPort p fun x => { x with lock := true }).setFlag st 2 true
      (s3.portCfgWrite p v).portErr p 2 0 false

/-- A PTP message sent on a port of the profile's set (09 R249, 14 PTP_CONFIG). Its length is PRESUMED of IEEE 1588, log 38. -/
def execPtpMessageSend (p : Nat) (msg : BitVec 8) (s : State) : Host.Outcome State Fault Refusal :=
  forUnit p 128 s fun s =>
    if s.yaf.ptp.role != 0 && bitOf s.yaf.ptp.ports p && s.usable p then
      let (red, s1) := s.redSeq p
      s1.queueOther p (if s.yaf.ptp.transport = 1 then 114 else 72) red (.ptp msg ⟨0, 0⟩)
    else s

end Sys2Proof.Machine
end

