-- ==== Sys2Proof/Machine/Links.lean ====
section
/-! DEFINITION. A Tradewind link (10 R284-R299, R308): bring-up, lanes, link-level retry, credits, packets out, and what its
failure does. -/

namespace Sys2Proof.Machine

/-- Lanes of a width code (LNK_CFG.width). -/
def widthLanes (w : Nat) : Nat := if w = 0 then 1 else if w = 1 then 2 else 4

/-- The lanes configured, and those in use. -/
def State.lanesCfg (s : State) (l : Nat) : Nat := widthLanes (s.fld (Off.lnkCfg l) 48 2)
/-- LNK_STAT.width_now. -/
def State.lanesNow (s : State) (l : Nat) : Nat := widthLanes (s.fld (Off.lnkStat l) 10 2)

/-- LNK_CFG.enable. -/
def State.linkOn (s : State) (l : Nat) : Bool := s.flag (Off.lnkCfg l) 63

/-- The enabled link that a port is a lane of (10 R284). -/
def State.linkOfPort (s : State) (p : Nat) : Option Nat :=
  ([p, p / 2 * 2, p / 4 * 4].eraseDups).find? fun l => s.linkOn l && decide (p < l + s.lanesCfg l)

/-- Every lane that a link uses has block lock. -/
def State.lanesLocked (s : State) (l : Nat) : Bool :=
  (List.range (s.lanesNow l)).all fun j => s.flag (Off.lnkStat l) (4 + (s.link l).base + j)

/-- LNK_STAT.state changed, with LINK_CHANGE (14 R394). -/
def State.setLinkState (s : State) (l st : Nat) : State := (s.setFld (Off.lnkStat l) 0 2 st).event 0xA l st 0 []

/-- A control block put on a link (10 R286): its type and the bytes that follow. -/
def State.linkWord (s : State) (l kind value : Nat) : State := s.emit (.linkWord l kind value)

/-- Training starts: with every lane locked, INIT goes out unconfirmed (10 R296). -/
def State.linkTrain (s : State) (l : Nat) : State :=
  let s1 := s.onLink l fun x => { x with sentConf := false, gotConf := false }
  if s1.lanesLocked l then
    s1.linkWord l 0x69 (s1.lanesNow l + s1.fld (Off.lnkCfg l) 40 1 * 256)
  else s1

/-- A packet that no link leads on (10 R300, R308): counted; DATA is answered with REFUSE, reason UNREACHABLE, which stands for
its destination. -/
def State.noRoute (s : State) (p : Packet) (l : Nat) : State :=
  let s1 := s.linkErr l 6
  if p.typ.toNat = 1 then
    s1.sendControl { s1.newPacket 3 1 p.srcDev p.srcQ p.destQ p.seq.toNat with
      srcDev := p.destDev, reason := BitVec.ofNat 8 TStat.unreachable.code } l
  else s1

/-- A packet of a link that went down sent on the next candidate of its entry (10 R308). Its hop was counted already. -/
def State.reroute (s : State) (l : Nat) (q : QPkt) : State :=
  let p := { q.pkt with hops := q.pkt.hops + 1 }
  match s.route p with
  | .out o => s.linkPush o p q.stamp
  | _ => s.noRoute q.pkt l

/-- A link leaves the candidate sets and its packets go elsewhere (10 R308): those of its replay buffer, then those queued. -/
def State.linkVacate (s : State) (l : Nat) : State :=
  let x := s.link l
  let s1 := s.onLink l fun y => { y with
    sentConf := false, gotConf := false, replay := [], queue := [], resends := 0, lackDue := false, discard := false,
    txSeq := 0, rxSeq := 0, credits := [], tsync := [] }
  (x.replay.map (·.pkt) ++ x.queue).foldl (fun u q => u.reroute l q) s1

/-- The time parent's link is lost: a timebase disciplined by Tradewind enters holdover (10 R308, 11 R322). -/
def State.parentLost (s : State) (l : Nat) : State :=
  if s.flag (Off.lnkStat l) 3 then
    let s1 := s.setFlag (Off.lnkStat l) 3 false
    if s1.fld Off.timeCtrl 0 3 = 3 then s1.sourceLost else s1
  else s

/-- A link taken down (10 R291, R297, R308, R309): while it stays enabled it trains again at full width. -/
def State.linkDown (s : State) (l cause : Nat) : State :=
  if s.linkState l = 0 then s
  else
    let was := decide (2 ≤ s.linkState l)
    let s1 := (s.setFld (Off.lnkStat l) 10 2 (s.fld (Off.lnkCfg l) 48 2)).onLink l fun x => { x with base := 0, nbr := none }
    let s2 := s1.setLinkState l (if s.linkOn l then 1 else 0)
    let s3 := if was then ((s2.linkVacate l).linkCount l 7 1).linkErr l cause else s2.linkVacate l
    let s4 := s3.parentLost l
    if s.linkOn l then s4.linkTrain l else s4

/-- A write of LNK_CFG (10 R285, R310). -/
def State.lnkCfgWrite (s : State) (l v : Nat) : State :=
  let off := Off.lnkCfg l
  let old := s.reg off
  let w0 := if bits v 48 2 = 3 then 0 else bits v 48 2
  let w := if l % widthLanes w0 = 0 then w0 else bits old 48 2
  let new := bits v 63 1 * 2 ^ 63 + w * 2 ^ 48 + bits v 40 1 * 2 ^ 40 + bits v 16 16 * 65536
  if bitOf old 63 && (bits new 48 2 != bits old 48 2 || bits new 40 1 != bits old 40 1) then s
  else
    let s1 := s.setReg off new
    if bitOf v 63 && !bitOf old 63 then
      if (List.range (widthLanes w)).all fun j => s1.portMode (l + j) == 4 && s1.flag (Off.portCfg (l + j)) 63 then
        let ok := (List.range (widthLanes w)).foldl (fun a j => a + bit01 (s1.flag (Off.portStat (l + j)) 2) * 2 ^ j) 0
        let s2 := ((s1.setFld (Off.lnkStat l) 4 4 ok).setFld (Off.lnkStat l) 10 2 w).onLink l fun _ => Link.empty
        (s2.setLinkState l 1).linkTrain l
      else s1
    else if !bitOf v 63 && bitOf old 63 then s1.linkDown l 1
    else s1

/-- A write of PORT_CFG with what it does to a link of the port: a lane disabled takes the link down (09 R280, 10 R285). -/
def State.portCfgPut (s : State) (p v : Nat) : State :=
  let s1 := s.portCfgWrite p v
  match s1.linkOfPort p with
  | some l => if s1.flag (Off.portCfg p) 63 then s1 else s1.linkDown l 1
  | none => s1

/-- The credits that a packet takes (10 R293). -/
def packetCost (p : Packet) : Nat := (48 + (p.payload.length + 7) / 8 * 8 + 63) / 64

/-- The credits of a channel at link up (10 R292). -/
def fullCredits (vc : Nat) : Nat := if vc % 4 < 2 then 64 else 512

/-- An INIT block received (10 R296): a mismatch is recorded; both ends confirmed bring the link up, or back from narrowing. -/
def execInitReceived (l width rate : Nat) (confirmed : Bool) (s : State) : Host.Outcome State Fault Refusal :=
  forUnit l 128 s fun s =>
    let st := s.linkState l
    if !s.linkOn l || !s.lanesLocked l || !(st == 1 || (st == 3 && !s.linkUp l)) then s
    else if width ≠ s.lanesNow l ∨ rate ≠ s.fld (Off.lnkCfg l) 40 1 then s.linkErr l 4
    else
      let s1 := (s.onLink l fun x => { x with sentConf := true, gotConf := x.gotConf || confirmed }).linkWord l 0x69
        (width + rate * 256 + 65536)
      if (s1.link l).gotConf then
        let s2 := s1.onLink l fun x => { x with
          txSeq := 0, rxSeq := 0, resends := 0, credits := (List.range 8).map fun v => (v, fullCredits v) }
        if st = 1 then (s2.setLinkState l 2).linkErr l 9 else s2.linkErr l 9
      else s1

/-- An ALIGN block sent on a lane (10 R287). -/
def execAlignSend (l lane : Nat) (s : State) : Host.Outcome State Fault Refusal :=
  forUnit l 128 s fun s =>
    if s.linkState l != 0 && decide (lane < s.lanesNow l) then s.linkWord l 0x33 (lane + s.lanesNow l * 256) else s

/-- The packets of a replay buffer sent again (10 R290): the eighth time without progress the link goes down (R291). -/
def State.resend (s : State) (l : Nat) : State :=
  let x := s.link l
  if x.replay.isEmpty then s
  else if 8 ≤ x.resends + 1 then s.linkDown l 3
  else
    let s1 := s.onLink l fun y => { y with
      resends := y.resends + 1, replay := y.replay.map fun r => { r with sent := s.time.cycles } }
    x.replay.foldl (fun u r => (u.emit (.packet l r.pkt.pkt r.seq)).linkCount l 4 1) s1

/-- Replay entries up to a link sequence released (10 R290), and LNK_STAT.rtt from the packet that it names. A sequence that no
entry has releases nothing. -/
def State.ackLink (s : State) (l seq : Nat) : State :=
  let x := s.link l
  match x.replay.findIdx? fun r => r.seq == seq with
  | none => s
  | some i =>
    let s1 := s.onLink l fun y => { y with replay := y.replay.drop (i + 1), resends := 0 }
    match x.replay[i]? with
    | some r => s1.setFld (Off.lnkStat l) 12 20 (min (s.time.cycles - r.sent) (2 ^ 20 - 1))
    | none => s1

/-- A LACK block received (10 R290): an acknowledgement names the last packet accepted, a negative one the packet expected. The
first is DEDUCED, log 51. -/
def execLackReceived (l : Nat) (seq : BitVec 8) (negative : Bool) (s : State) : Host.Outcome State Fault Refusal :=
  forUnit l 128 s fun s =>
    if !s.linkUp l then s
    else if negative then
      let s1 := s.ackLink l ((seq.toNat + 255) % 256)
      if (s1.link l).replay.any fun r => r.seq == seq.toNat then s1.resend l else s1
    else s.ackLink l seq.toNat

/-- A CREDIT block received (10 R293). -/
def execCreditReceived (l vc n : Nat) (s : State) : Host.Outcome State Fault Refusal :=
  forUnit l 128 s fun s =>
    if s.linkUp l && decide (vc < 8) then
      s.onLink l fun x => { x with credits := tblSet x.credits vc (min (tblGetD x.credits vc 0 + n) (fullCredits vc)) }
    else s

/-- No acknowledgement progress for 10 µs plus the round trip (10 R290). -/
def execReplayTimeout (l : Nat) (s : State) : Host.Outcome State Fault Refusal :=
  forUnit l 128 s fun s => if s.linkUp l then s.resend l else s

/-- A packet's channel holds enough credits. -/
def Link.affords (x : Link) (q : QPkt) : Bool := decide (packetCost q.pkt ≤ tblGetD x.credits q.pkt.vc.toNat 0)

/-- The oldest of some packets by 10 R298; the first of equals. Round-robin among the inputs of an arbiter is not kept: DESIGN
CHOICE, log 52. -/
def oldest (now : Int) (qs : List QPkt) : Option QPkt :=
  qs.foldl (fun (b : Option QPkt) q =>
    match b with
    | none => some q
    | some x => if elapsedHc x.stamp now < elapsedHc q.stamp now then some q else b) none

/-- A link output sends the oldest packet whose channel holds enough credits (10 R290, R293, R298, R299). -/
def execPacketSend (l : Nat) (s : State) : Host.Outcome State Fault Refusal :=
  forUnit l 128 s fun s =>
    let x := s.link l
    if !s.linkUp l || decide (255 ≤ x.replay.length) then s
    else
      let s0 := if x.queue.all fun q => x.affords q then s else s.linkCount l 5 1
      match oldest s.hcNow (x.queue.filter fun q => x.affords q) with
      | none => s0
      | some q =>
        let p := { q.pkt with age := BitVec.ofNat 32 (elapsedHc q.stamp s.hcNow) }
        let vc := p.vc.toNat
        let s1 := s0.onLink l fun y => { y with
          queue := y.queue.erase q, txSeq := (y.txSeq + 1) % 256,
          replay := y.replay ++ [⟨y.txSeq, { q with pkt := p }, s.time.cycles⟩],
          credits := tblSet y.credits vc (tblGetD y.credits vc 0 - packetCost p) }
        (s1.linkCount l 0 1).emit (.packet l p x.txSeq)

/-- The receiver's cumulative acknowledgement (10 R290). -/
def execLackSend (l : Nat) (s : State) : Host.Outcome State Fault Refusal :=
  forUnit l 128 s fun s =>
    if s.linkUp l && (s.link l).lackDue then
      (s.onLink l fun x => { x with lackDue := false }).linkWord l 0x4B (((s.link l).rxSeq + 255) % 256)
    else s

/-- What a link receiver saw go wrong (10 R290): packets are discarded until the expected one, and one negative LACK goes out. -/
def execLinkRxError (l : Nat) (e : RxError) (s : State) : Host.Outcome State Fault Refusal :=
  forUnit l 128 s fun s =>
    if !s.linkUp l then s
    else
      let s1 := match e with
        | .crc => s.linkCount l 2 1
        | .sequence => s.linkCount l 3 1
        | .slip => s
      if (s.link l).discard && e == .sequence then s1
      else (s1.onLink l fun x => { x with discard := true }).linkWord l 0x4B ((s.link l).rxSeq + 256)

/-- A packet accepted by a link (10 R290, R293): counted, a LACK owed, its credits returned as it leaves the input's buffer. -/
def State.linkAccept (s : State) (l : Nat) (p : Packet) : State :=
  let s1 := s.onLink l fun x => { x with rxSeq := (x.rxSeq + 1) % 256, lackDue := true, discard := false }
  (s1.linkCount l 1 1).linkWord l 0x55 (p.vc.toNat + packetCost p * 256)

/-- A lane of a link loses block lock (10 R297): the link narrows to the half without it, or goes down. -/
def State.laneLost (s : State) (l lane : Nat) : State :=
  let s1 := s.setFlag (Off.lnkStat l) (4 + lane) false
  let n := s1.lanesNow l
  let b := (s1.link l).base
  let st := s1.linkState l
  if lane < b ∨ b + n ≤ lane ∨ st < 2 then s1
  else
    let b' := if lane < b + n / 2 then b + n / 2 else b
    let half := (List.range (n / 2)).all fun j => s1.flag (Off.lnkStat l) (4 + b' + j)
    if n = 1 ∨ half = false then s1.linkDown l 1
    else
      let s2 := (s1.setFld (Off.lnkStat l) 10 2 (if n = 4 then 1 else 0)).setLinkState l 3
      let s3 := (((s2.onLink l fun x => { x with base := b' }).linkVacate l).linkErr l 2).parentLost l
      s3.linkTrain l

/-- A lane of a link has lost block lock for 10 µs (10 R297). -/
def execLaneLoss (l lane : Nat) (s : State) : Host.Outcome State Fault Refusal :=
  forUnit l 128 s fun s =>
    if s.linkOn l && decide (lane < s.lanesCfg l) then
      ((s.onPort (l + lane) fun x => { x with lock := false }).setFlag (Off.portStat (l + lane)) 2 false).laneLost l lane
    else s

/-- A lane of a link gains block lock: with every lane locked, INIT is sent (10 R296). -/
def State.laneUp (s : State) (l lane : Nat) : State :=
  let s1 := s.setFlag (Off.lnkStat l) (4 + lane) true
  if s1.linkUp l then s1 else s1.linkTrain l

/-- Block lock gained (09 R278, PORT_STAT.lock): the link of an enabled Ethernet port comes up; a lane of a Tradewind link goes on
with its bring-up. -/
def execBlockLockAcquired (p : Nat) (s : State) : Host.Outcome State Fault Refusal :=
  forUnit p 128 s fun s =>
    if s.flag (Off.portStat p) 5 then s
    else
      let s1 := ((s.onPort p fun x => { x with lock := true }).setFlag (Off.portStat p) 2 true).linkEval p
      match s1.linkOfPort p with
      | some l => s1.laneUp l (p - l)
      | none => s1

/-- Loss of block lock: the link goes down (09 R278). The frame being received is dropped: a frame is received in one command
here, so there is none in part. The narrowing of a Tradewind link waits 10 µs, for LANE_LOSS. -/
def execBlockLockLoss (p : Nat) (s : State) : Host.Outcome State Fault Refusal :=
  forUnit p 128 s fun s =>
    let s1 := s.lockLost p
    match s1.linkOfPort p with
    | some l => s1.setFlag (Off.lnkStat l) (4 + (p - l)) false
    | none => s1

/-- A failing lane moved to the group's spare lane (09 R279); a Tradewind link then trains again at full width (10 R297). -/
def execSpareLaneMove (p : Nat) (ok : Bool) (s : State) : Host.Outcome State Fault Refusal :=
  forUnit p 128 s fun s =>
    let s1 := s.spareLane p ok
    match s1.linkOfPort p with
    | some l =>
      if s1.flag (Off.portStat p) 2 then
        let s2 := s1.setFlag (Off.lnkStat l) (4 + (p - l)) true
        if s2.linkState l = 3 then s2.linkDown l 1 else s2.linkTrain l
      else s1
    | none => s1

end Sys2Proof.Machine
end

