-- ==== Sys2Proof/Machine/Tradewind.lean ====
section
/-! DEFINITION. Transaction queues at work (08 R205-R229, R236, R239): the descriptor and its checks, dispatch and holds, the
kinds, retransmission, the doorbell, enabling and disabling a queue, and engine hand-over. -/

namespace Sys2Proof.Machine

/-- A kind that names a target: a RECEIVE takes from any flow and a COPY has its destination in addr2. DEDUCED, log 33. -/
def usesTarget (kind : Nat) : Bool := kind != 2 && kind != 4

/-- A descriptor's fields, its default target and timeout resolved (08 R208, R209). -/
def State.parseDesc (s : State) (q count : Nat) (b : List Byte) : Txn :=
  let tg := fieldLE b 0x30 8
  let dflt := tg / 2 ^ 62 == 0
  let tmo := fieldLE b 0x38 4
  { count, kind := fieldLE b 0 1, flags := fieldLE b 1 1, member := fieldLE b 2 1, length := fieldLE b 4 4,
    addr := fieldLE b 8 8, addr2 := fieldLE b 0x10 8, length2 := fieldLE b 0x18 4, tag := fieldLE b 0x1C 4,
    timeNs := fieldLE b 0x20 8, timeFr := fieldLE b 0x28 2, target := if dflt then s.reg (Off.tqTarget q) else tg,
    byDefault := dflt, timeout := if tmo = 0 then s.fld (Off.tqCfg q) 0 24 else tmo, durable := s.tqDurable q, seq := 0,
    flow := 0, stage := .sent, refusals := [], resumed := false, late := false, data := [], dcrc := crc32c b, bcrc := 0,
    interval := 20 }

/-- A descriptor that could not be read (08 R210): every field zero. -/
def State.blankDesc (s : State) (q count : Nat) : Txn := s.parseDesc q count []

/-- Bits of a target that 08 R209 leaves at zero, a pair that does not start at an even port, and a publication that the queue
may not send (09 R270). -/
def State.targetBad (s : State) (q : Nat) (t : Txn) : Bool :=
  match t.target / 2 ^ 62 with
  | 1 => bits t.target 20 42 != 0 || (bitOf t.target 7 && bitOf t.target 0) || t.kind == 3 || !s.pubOk q (targetPub t.target)
  | 2 => bits t.target 30 32 != 0 || decide (65536 < t.length)
  | 3 => bits t.target 12 50 != 0 || decide (65536 < t.length)
  | _ => true

/-- Whether two ranges share a byte. -/
def overlap (a n b m : Nat) : Bool := decide (a < b + m) && decide (b < a + n)

/-- The format checks of 08 R210 on a descriptor and its 64 bytes. An EXCHANGE that names a port has no request that R211
describes and is refused here too: DESIGN CHOICE, log 33. -/
def State.descBad (s : State) (q : Nat) (t : Txn) (b : List Byte) : Bool :=
  let reply := bitOf t.flags 1
  t.kind == 0 || decide (6 < t.kind) || decide (3 < t.flags) || fieldLE b 3 1 != 0 || fieldLE b 0x2C 4 != 0 ||
    fieldLE b 0x3C 4 != 0 || (t.kind != 5 && t.member != 0) || t.length == 0 || (reply && t.kind != 1) ||
    (t.kind != 3 && t.length2 != 0) || (t.kind != 3 && t.kind != 4 && !reply && t.addr2 != 0) ||
    (t.kind == 4 && overlap t.addr t.length t.addr2 t.length) ||
    (usesTarget t.kind && ((t.byDefault && fieldLE b 0x30 8 != 0) || s.targetBad q t))

/-- A buffer inside the window, and on a durable queue inside the durable regions (08 R210). -/
def State.bufferOk (s : State) (q : Nat) (durable : Bool) (a n : Nat) : Bool :=
  decide (s.reg (Off.tqBuflo q) ≤ a) && decide (a + n ≤ s.reg (Off.tqBufhi q) + 1) && (!durable || s.rangeDurable a n)

/-- Every buffer of a descriptor lies where it must. -/
def State.buffersOk (s : State) (q : Nat) (t : Txn) : Bool :=
  s.bufferOk q t.durable t.addr t.length &&
    (t.kind != 4 || s.bufferOk q t.durable t.addr2 t.length) &&
    (t.kind != 3 || t.length2 == 0 || s.bufferOk q t.durable t.addr2 t.length2)

/-- A deadline that has passed (08 R208, R210, R212): a TIMED_SEND has none. -/
def State.expired (s : State) (t : Txn) : Bool :=
  t.kind != 6 && (t.timeNs != 0 || t.timeFr != 0) &&
    (decide (t.timeNs < s.now) || (t.timeNs == s.now && decide (t.timeFr < s.nowFrac)))

/-- A release time of a TIMED_SEND that has passed (08 R212). -/
def State.released (s : State) (t : Txn) : Bool :=
  (t.timeNs != 0 || t.timeFr != 0) && (decide (t.timeNs < s.now) || (t.timeNs == s.now && decide (t.timeFr < s.nowFrac)))

/-- The descriptor in a slot, with the status of the first check of 08 R210 that it fails. -/
def State.checkDesc (s : State) (q count : Nat) : Txn × Option TStat :=
  match s.dmaRead (s.tqSlotAddr q count) 64 with
  | none => (s.blankDesc q count, some .busFault)
  | some b =>
    let t := s.parseDesc q count b
    if s.descBad q t b then (t, some .badDescriptor)
    else if !s.buffersOk q t then (t, some .bufferFault)
    else if usesTarget t.kind && (s.flowOf q t.target).isNone && (s.flowFree q).isNone then (t, some .flowLimit)
    else if s.expired t then (t, some .expired)
    else (t, none)

/-- The transactions of a flow that count against its 65,536 (08 R207): unacknowledged, for a port flow not completed. -/
def State.flowBusy (s : State) (q : Nat) (t : Txn) : Nat :=
  match s.flowOf q t.target with
  | none => 0
  | some i => ((s.tq q).opens.filter fun x => x.flow == i && x.seq != 0 && x.stage != .acked).length

/-- The parked TIMED_SENDs of a logical engine (08 R207, R211). -/
def State.parkedCount (s : State) (e : Nat) : Nat :=
  s.tqs.foldl (fun k x => if s.tqEngine x.1 = e then k + (x.2.opens.filter fun t => t.stage == .parked).length else k) 0

/-- Why a descriptor is held at dispatch, if it is (08 R207). -/
def State.holdOf (s : State) (q : Nat) (t : Txn) : Option Hold :=
  if !usesTarget t.kind then (if t.kind = 4 ∧ t.durable ∧ s.nvj.atLimit then some .journal else none)
  else if 65536 ≤ s.flowBusy q t then some .flow
  else if t.target / 2 ^ 62 = 1 ∧ !(targetPorts t.target).any (fun p => s.usable p) then some .port
  else if t.durable ∧ s.nvj.atLimit then some .journal
  else if t.kind = 6 ∧ 4096 ≤ s.parkedCount (s.tqEngine q) then some .timer
  else none

/-- Whether a queue dispatches now: enabled, a descriptor posted, the block RUNNING and not stopped (08 R233, R235), its engine
serving (R236). -/
def State.mayDispatch (s : State) (q : Nat) : Bool :=
  s.tqOn q && s.reg (Off.tqHead q) != s.reg (Off.tqTail q) && s.fld Off.twStat 0 2 == 3 && !s.twStopped && !s.shutdown &&
    s.teServes (s.tqEngine q)

/-- TQ_HEAD moved over dispatched descriptors (08 R206). -/
def State.headUp (s : State) (q n : Nat) : State := s.setReg (Off.tqHead q) ((s.reg (Off.tqHead q) + n) % 2 ^ 32)

/-- A descriptor completed at dispatch with a status, nothing sent (08 R210). -/
def State.failDesc (s : State) (q : Nat) (t : Txn) (st : TStat) : State :=
  (if st = .badDescriptor then s.twErr q 1 else s).txnDone q t st 0

/-- The buffer of a descriptor read and its CRC formed (08 R220 step 3). -/
def State.withBuffer (s : State) (t : Txn) : Option Txn :=
  match s.dmaRead t.addr t.length with
  | some b => some { t with data := b, bcrc := crc32c b }
  | none => none

/-- A sequence number taken in the flow of a descriptor's target (08 R205, R214). -/
def State.takeNumber (s : State) (q : Nat) (t : Txn) : Option (State × Txn) :=
  match s.flowOpen q t.target with
  | none => none
  | some (s1, i) =>
    let n := ((s1.flow? q i).getD (Flow.new t.target)).next
    some (s1.onFlow q i fun f => { f with next := n + 1 }, { t with seq := (s.tq q).inc * 2 ^ 48 + n % 2 ^ 48, flow := i })

/-- A number never sent given back to its flow (08 R225, R227). -/
def State.giveBack (s : State) (q : Nat) (t : Txn) : State :=
  if t.seq = 0 then s else s.onFlow q t.flow fun f => { f with next := min f.next (seqCnt t.seq) }

/-- A transaction built and, where durable, committed, sent to its target (08 R211, R220 step 5). -/
def State.emitTxn (s : State) (q : Nat) (t : Txn) (nv : Verifies) : State :=
  if t.target / 2 ^ 62 = 1 then s.sendPort q t (if t.kind = 6 then .timed else .event)
  else (s.onTxn q t.count fun x => { x with stage := .sent }).attempt q { t with stage := .sent } nv

/-- A TIMED_SEND parked, or sent as soon as it is built: with no release time, or late where the time has passed (08 R208,
R211, R212). -/
def State.parkOrSend (s : State) (q : Nat) (t : Txn) (nv : Verifies) : State :=
  if t.timeNs = 0 ∧ t.timeFr = 0 then s.emitTxn q t nv
  else if s.released t then (s.onTxn q t.count fun x => { x with late := true }).emitTxn q { t with late := true } nv
  else s.onTxn q t.count fun x => { x with stage := .parked }

/-- A SEND, EXCHANGE or TIMED_SEND that passed its checks, carried out (08 R211, R214, R219, R220, R225). -/
def State.sendDesc (s : State) (q : Nat) (t : Txn) (nv : Verifies) : State :=
  match s.withBuffer t with
  | none => s.txnDone q t .busFault 0
  | some t1 =>
    match s.takeNumber q t1 with
    | none => s.failDesc q t1 .flowLimit
    | some (s1, t2) =>
      let (s2, ok, nv1) := if t.durable then
          s1.nvjWrite q (.commit t2.count t2.seq t2.dcrc t2.bcrc t2.flow t2.kind) nv
        else (s1, true, nv)
      if !ok then (s2.giveBack q t2).txnDone q t2 .journalFault 0
      else
        let s3 := ((if t.durable then s2.countHub 0 1 1 else s2).txnOpen q t2)
        if t.kind = 6 then s3.parkOrSend q t2 nv1 else s3.emitTxn q t2 nv1

/-- A RECEIVE posted (08 R211). -/
def State.postReceive (s : State) (q : Nat) (t : Txn) : State := s.onTq q fun x => { x with recvs := x.recvs ++ [t] }

/-- Bytes copied in address order, line by line, until one cannot be read or written: how many were performed (08 R229). -/
def State.copyLines (s : State) (src dst n done : Nat) : Nat → State × Nat
  | 0 => (s, done)
  | fuel + 1 =>
    if n ≤ done then (s, done)
    else
      let a := src + done
      let k := min (n - done) (64 - a % 64)
      match s.dmaRead a k with
      | none => (s, done)
      | some b =>
        match s.dmaWrite (dst + done) b with
        | none => (s, done)
        | some s1 => s1.copyLines src dst n (done + k) fuel

/-- A COPY carried out (08 R211, R229); on a durable queue after its COMMIT record. -/
def State.copyDesc (s : State) (q : Nat) (t : Txn) (nv : Verifies) : State :=
  let (s1, ok, _) := if t.durable then s.nvjWrite q (.commit t.count 0 t.dcrc 0 0 4) nv else (s, true, nv)
  if !ok then s1.txnDone q t .journalFault 0
  else
    let (s2, n) := s1.copyLines t.addr t.addr2 t.length 0 (t.length / 64 + 2)
    s2.txnDone q t (if n = t.length then .ok else .busFault) n

/-- A descriptor other than a GROUP, past its checks and holds, carried out. -/
def State.runDesc (s : State) (q : Nat) (t : Txn) (nv : Verifies) : State :=
  match t.kind with
  | 2 => s.postReceive q t
  | 4 => s.copyDesc q t nv
  | _ => s.sendDesc q t nv

/-- The head descriptor of a queue dispatched, unless it is held (08 R207, R210); a held one holds its queue. -/
def State.dispatchOne (s : State) (q : Nat) (nv : Verifies) : State :=
  let (t, st) := s.checkDesc q (s.reg (Off.tqHead q))
  match st with
  | some e => ((s.setHeld q none).headUp q 1).failDesc q t e
  | none =>
    match s.holdOf q t with
    | some h => s.setHeld q (some h)
    | none => (((s.setHeld q none).headUp q 1).countHub 0 0 1).runDesc q t nv

/-- The kind of the head descriptor of a queue; 0 where it cannot be read. -/
def State.headKind (s : State) (q : Nat) : Nat :=
  match s.dmaRead (s.tqSlotAddr q (s.reg (Off.tqHead q))) 64 with
  | some b => fieldLE b 0 1
  | none => 0

/-- A group aborted (08 R227, R228): `t` completes with its own status, the other members with ABORTED_GROUP; numbers are given
back and TQ_HEAD passes them. -/
def State.groupAbort (s : State) (q : Nat) (others : List Txn) (t : Txn) (st : TStat) : State :=
  let s1 := (others.foldl (fun u m => u.giveBack q m) (s.giveBack q t)).onTq q fun x => { x with group := [] }
  let s2 := ((s1.setHeld q none).headUp q (others.length + 1)).failDesc q t st
  others.foldl (fun u m => u.txnDone q m .abortedGroup 0) s2

/-- Members posted after member `i` of a group that carry on its index sequence: they abort with it. -/
def State.groupRest (s : State) (q head i n : Nat) : Nat → List Txn
  | 0 => []
  | fuel + 1 =>
    if n ≤ i ∨ cnt32 (s.reg (Off.tqTail q)) head ≤ i then []
    else
      match s.dmaRead (s.tqSlotAddr q (head + i)) 64 with
      | none => []
      | some b =>
        let t := s.parseDesc q ((head + i) % 2 ^ 32) b
        if t.kind = 5 ∧ t.member = i + (n - 1) * 16 then t :: s.groupRest q head (i + 1) n fuel else []

/-- Whether a member is prepared: its own status where a check fails, else the state and the member with its number and its
buffer held (08 R227 prepare). -/
def State.prepareMember (s : State) (q count i n : Nat) : Except (Txn × TStat) (State × Txn) :=
  match s.dmaRead (s.tqSlotAddr q count) 64 with
  | none => .error (s.blankDesc q count, .busFault)
  | some b =>
    let t := s.parseDesc q count b
    if t.kind ≠ 5 ∨ t.member ≠ i + (n - 1) * 16 ∨ n < 2 then .error (t, .badDescriptor)
    else
      match s.checkDesc q count with
      | (_, some e) => .error (t, e)
      | (_, none) =>
        match s.withBuffer t with
        | none => .error (t, .busFault)
        | some t1 =>
          match s.takeNumber q t1 with
          | none => .error (t1, .flowLimit)
          | some r => .ok r

/-- A group whose members are all prepared, released (08 R227): on a durable queue after the MEMBER records and the
GROUP_COMMIT. A MEMBER not written ends as a failed member; a GROUP_COMMIT not written fails every member. DEDUCED, log 40. -/
def State.groupRelease (s : State) (q : Nat) (ms : List Txn) (nv : List Verifies) : State :=
  let n := ms.length
  let write : State × Option Nat × List Verifies → Nat × Txn → State × Option Nat × List Verifies := fun u e =>
    match u with
    | (t, none, v) =>
      let m := e.2
      let (t1, ok, _) := t.nvjWrite q (.member m.count m.seq m.dcrc m.bcrc m.flow e.1 (n - 1)) (v.headD [])
      (t1, if ok then none else some e.1, v.tail)
    | r => r
  let release : State → State := fun t =>
    let t1 := ((t.onTq q fun x => { x with group := [] }).setHeld q none).headUp q n
    let t2 := ms.foldl (fun u m => u.txnOpen q m) (t1.countHub 0 0 n)
    ms.foldl (fun u m => u.emitTxn q m []) t2
  if !s.tqDurable q then release s
  else
    match ((List.range n).zip ms).foldl write (s, none, nv) with
    | (t, some i, _) =>
      let bad := ms.getD i (s.blankDesc q 0)
      t.groupAbort q (ms.filter fun m => m.count != bad.count) bad .journalFault
    | (t, none, v) =>
      let (t1, ok, _) := t.nvjWrite q (.groupCommit ((ms.head?.map (·.count)).getD 0) n) (v.headD [])
      if ok then release (t1.countHub 0 1 n)
      else
        let t2 := ms.foldl (fun u m => u.giveBack q m) t1
        ms.foldl (fun u m => u.txnDone q m .journalFault 0)
          (((t2.onTq q fun x => { x with group := [] }).setHeld q none).headUp q n)

/-- The first member of a prepared group whose deadline has passed (08 R228). -/
def State.groupExpired (s : State) (ms : List Txn) : Option Txn := ms.find? fun m => s.expired m

/-- Why a prepared group is held (08 R207, R228). -/
def State.groupHold (s : State) (q : Nat) (ms : List Txn) : Option Hold :=
  if ms.any fun m => decide (m.target / 2 ^ 62 = 1) && !(targetPorts m.target).any fun p => s.usable p then some .port
  else if s.tqDurable q && s.nvj.atLimit then some .journal
  else if ms.any fun m => decide (65536 ≤ s.flowBusy q m) then some .flow
  else none

/-- A group taken as far as it goes (08 R227, R228): members prepared as they are posted, then the release, an abort, or a
hold. Members prepared wait in the queue's state, their buffers held. Members posted after an abort meet R228's index check on
their own: DESIGN CHOICE, log 39. -/
def State.groupStep (s : State) (q : Nat) (nv : List Verifies) : Nat → State
  | 0 => s
  | fuel + 1 =>
    let head := s.reg (Off.tqHead q)
    let ms := (s.tq q).group
    let i := ms.length
    let n := match ms with
      | m :: _ => m.member / 16 + 1
      | [] => (match s.dmaRead (s.tqSlotAddr q head) 64 with | some b => fieldLE b 2 1 / 16 + 1 | none => 0)
    match s.groupExpired ms with
    | some m => s.groupAbort q ((ms.filter fun x => x.count != m.count) ++ s.groupRest q head i n 16) m .expired
    | none =>
      if i ≠ 0 ∧ i = n then
        match s.groupHold q ms with
        | some h => s.setHeld q (some h)
        | none => s.groupRelease q ms nv
      else if cnt32 (s.reg (Off.tqTail q)) head ≤ i then s.setHeld q (some .group)
      else
        match s.prepareMember q ((head + i) % 2 ^ 32) i n with
        | .error (t, st) =>
          let broken := t.kind ≠ 5 ∨ t.member ≠ i + (n - 1) * 16 ∨ n < 2
          s.groupAbort q (ms ++ if broken then [] else s.groupRest q head (i + 1) n 16) t st
        | .ok (s1, t) => (s1.onTq q fun x => { x with group := x.group ++ [t] }).groupStep q nv fuel

/-- Whether the head of a queue is a GROUP, or members of one are prepared. -/
def State.inGroup (s : State) (q : Nat) : Bool := !(s.tq q).group.isEmpty || s.headKind q == 5

/-- Dispatch of a descriptor of one kind: the row of a kind acts on the head descriptor of that kind, or on one whose kind the
checks of 08 R210 refuse. -/
def dispatchKind (q kind : Nat) (nv : Verifies) (s : State) : State :=
  if s.mayDispatch q && !s.inGroup q && (s.headKind q == kind || s.headKind q == 0 || decide (6 < s.headKind q)) then
    s.dispatchOne q nv
  else s

/-- Transactions that a port gave back (09 R280) sent again on the ports that are up (08 R207). One whose descriptor names the
queue's default target goes to the target as rebound, under a number of that flow. -/
def State.resendReturned (s : State) (q : Nat) (nv : Verifies) : State :=
  ((s.tq q).opens.filter fun t => t.stage == .returned).foldl (fun u t =>
    let tg := u.reg (Off.tqTarget q)
    if t.byDefault && tg != t.target && tg / 2 ^ 62 != 0 then
      match u.takeNumber q { t with target := tg } with
      | none => u.txnDone q t .flowLimit 0
      | some (u1, t1) =>
        let (u2, ok, nv1) := if t.durable then
            (u1.nvjEndTxn q t.count).nvjWrite q (.commit t1.count t1.seq t1.dcrc t1.bcrc t1.flow t1.kind) nv
          else (u1, true, nv)
        if ok then (u2.onTxn q t.count fun _ => t1).emitTxn q t1 nv1 else (u2.giveBack q t1).txnDone q t1 .journalFault 0
    else if (targetPorts t.target).any fun p => u.usable p then
      u.sendPort q t (if t.kind = 6 then .timed else .event)
    else u) s

/-- Nanoseconds in an interval given in microseconds. -/
def usNs (us : Nat) : Nat := us * 1000

/-- A descriptor of kind SEND dispatched (08 R211). -/
def execSend (q : Nat) (nv : Verifies) (s : State) : Host.Outcome State Fault Refusal :=
  forUnit q 4096 s fun s => dispatchKind q 1 nv s

/-- A RECEIVE dispatched: its buffer posted. -/
def execReceive (q : Nat) (s : State) : Host.Outcome State Fault Refusal :=
  forUnit q 4096 s fun s => dispatchKind q 2 [] s

/-- An EXCHANGE dispatched: its request sent (08 R213). -/
def execExchange (q : Nat) (nv : Verifies) (s : State) : Host.Outcome State Fault Refusal :=
  forUnit q 4096 s fun s => dispatchKind q 3 nv s

/-- A COPY dispatched and carried out (08 R229). -/
def execCopy (q : Nat) (nv : Verifies) (s : State) : Host.Outcome State Fault Refusal :=
  forUnit q 4096 s fun s => dispatchKind q 4 nv s

/-- A TIMED_SEND dispatched: numbered, built, journalled and parked (08 R211). -/
def execTimedSend (q : Nat) (nv : Verifies) (s : State) : Host.Outcome State Fault Refusal :=
  forUnit q 4096 s fun s => dispatchKind q 6 nv s

/-- A GROUP taken as far as it goes (08 R227). -/
def execGroup (q : Nat) (nv : List Verifies) (s : State) : Host.Outcome State Fault Refusal :=
  forUnit q 4096 s fun s => if s.mayDispatch q && s.inGroup q then s.groupStep q nv 18 else s

/-- A parked TIMED_SEND reaches its release time and is sent (08 R212); past it, with the late flag (11 R326). -/
def execTimedSendRelease (q slot : Nat) (s : State) : Host.Outcome State Fault Refusal :=
  forUnit q 4096 s fun s =>
    match s.openTxn q slot with
    | some t =>
      if t.stage = .parked then
        let t1 := { t with late := t.late || s.released t }
        (s.onTxn q slot fun _ => t1).emitTxn q t1 []
      else s
    | none => s

/-- What held a queue may have ended (08 R207): transactions that a port gave back go out, and the held descriptor is
dispatched. -/
def execHoldRelease (q : Nat) (s : State) : Host.Outcome State Fault Refusal :=
  forUnit q 4096 s fun s =>
    let s1 := s.resendReturned q []
    if (s1.tq q).held.isSome && s1.mayDispatch q then
      if s1.inGroup q then s1.groupStep q [] 18 else s1.dispatchOne q []
    else s1

/-- The deadline of a held descriptor passes (08 R210, R228): it completes with EXPIRED, or its group is aborted. -/
def execDeadlineExpiry (q : Nat) (s : State) : Host.Outcome State Fault Refusal :=
  forUnit q 4096 s fun s =>
    if (s.tq q).held.isSome && s.mayDispatch q then
      if s.inGroup q then (if (s.groupExpired (s.tq q).group).isSome then s.groupStep q [] 18 else s)
      else
        match s.checkDesc q (s.reg (Off.tqHead q)) with
        | (t, some .expired) => ((s.setHeld q none).headUp q 1).failDesc q t .expired
        | _ => s
    else s

/-- An unacknowledged transaction sent again with the same number (08 R215), its next interval doubled up to 1,280 µs. -/
def execRetransmit (q slot : Nat) (s : State) : Host.Outcome State Fault Refusal :=
  forUnit q 4096 s fun s =>
    match s.openTxn q slot with
    | some t =>
      if t.unacked then
        let t1 := { t with interval := min (2 * t.interval) 1280 }
        ((s.onTxn q slot fun _ => t1).countHub 0 2 1).attempt q t1 []
      else s
    | none => s

/-- The status that a transaction without an acknowledgement takes at its timeout (08 R215). -/
def Txn.timeoutStatus (t : Txn) : TStat :=
  match t.refusals with
  | [] => .timeout
  | r :: rs =>
    if rs.all fun x => x == r then
      (match r with
        | 5 => .noBuffer | 6 => .unreachable | 7 => .durabilityMismatch | 0x11 => .flowLimit | 0x12 => .queueClosed
        | _ => .timeout)
    else .timeout

/-- The acknowledgement timeout of a transaction expires (08 R215; a timeout of 0 never does), or that of a group held for a
port that is down (R228). -/
def execAckTimeout (q slot : Nat) (s : State) : Host.Outcome State Fault Refusal :=
  forUnit q 4096 s fun s =>
    match s.openTxn q slot with
    | some t => if t.unacked && t.timeout != 0 then s.txnDone q t t.timeoutStatus (t.value 0) else s
    | none =>
      let ms := (s.tq q).group
      let down := ms.find? fun m => decide (m.target / 2 ^ 62 = 1) && !(targetPorts m.target).any fun p => s.usable p
      match (s.tq q).held, down with
      | some .port, some m =>
        if ms.any fun x => x.count == slot && x.timeout != 0 then
          s.groupAbort q (ms.filter fun x => x.count != m.count) m .timeout
        else s
      | _, _ => s

/-- The number below which every transaction of a flow is acknowledged or completed (08 R222, R223). -/
def State.txMark (s : State) (q i : Nat) (f : Flow) : Nat :=
  let open_ := ((s.tq q).opens.filter fun t => t.flow == i && t.seq != 0 && t.stage != .acked).map fun t => seqCnt t.seq
  (s.tq q).inc * 2 ^ 48 + open_.foldl min f.next

/-- The ACKMARK of one direction of a flow written where its mark has advanced (08 R223, R224). -/
def State.ackmark (s : State) (q i : Nat) : State :=
  match s.flow? q i with
  | none => s
  | some f =>
    if !s.tqDurable q then s
    else
      let m := s.txMark q i f
      let s1 := if f.markTx ≠ m then
          (let (u, ok, _) := s.nvjWrite q (.ackmark i m) []
           if ok then u.onFlow q i fun x => { x with markTx := m } else u)
        else s
      let r := f.rxInc * 2 ^ 48 + f.low
      if f.rxInc ≠ 0 ∧ f.markRx ≠ r then
        (let (u, ok, _) := s1.nvjWrite q (.ackmark (i + 16) r) []
         if ok then u.onFlow q i fun x => { x with markRx := r } else u)
      else s1

/-- The ACKMARK of a flow of a durable queue (08 R224). -/
def execAckmarkWrite (q flow : Nat) (s : State) : Host.Outcome State Fault Refusal :=
  forUnit q 4096 s fun s => s.ackmark q flow

/-- A doorbell (08 R206, R239): TQ_TAIL written by the owner; none is a bus error for another master. -/
def State.tqTailWrite (s : State) (master q v : Nat) : State × Bool :=
  if master ≠ s.tqOwner q then (s.twErr q 2, false)
  else if s.tqSlots q < cnt32 v (s.reg (Off.tqRetire q)) then ((s.setFlag (Off.tqStat q) 3 true).twErr q 3, true)
  else (s.setReg (Off.tqTail q) (v % 2 ^ 32), true)

/-- What enabling a queue comes to (08 R214, R218, 14 R390). -/
inductive TqEnable where | done (s : State) | badState | badSize | notDurable | noResource

/-- A queue enabled (08 R214, R218, R222): a new incarnation, every flow anew, and the QCONFIG of a durable queue. -/
def State.queueEnable (s : State) (q : Nat) : TqEnable :=
  let k := s.fld (Off.tqRing q) 0 5
  let c := s.fld (Off.tqCq q) 0 5
  let base := fun r => s.fld r 12 40 * 4096
  if s.tqOn q || !(s.tq q).opens.isEmpty then .badState
  else if k < 4 ∨ 16 < k ∨ c < 4 ∨ 16 < c then .badSize
  else if s.tqDurable q && !(s.rangeDurable (base (Off.tqRing q)) (64 * 2 ^ k) && s.rangeDurable (base (Off.tqCq q)) (32 * 2 ^ c) &&
      s.rangeDurable (base (Off.tqState q)) (0x2040 * s.tqBlocks q)) then .notDurable
  else if s.tqDurable q && s.nvj.atLimit then .noResource
  else
    let inc := match tblGet? s.svc.incs q with | some i => nextInc i | none => 1
    let s1 := { s with svc := { s.svc with incs := tblSet s.svc.incs q inc } }
    let s2 := (s1.setFlag (Off.tqCfg q) 63 true).onTq q fun t => { t with inc, since := true, flows := [], held := none, group := [] }
    .done (if s.tqDurable q then
        (s2.nvjWriteAll q [] [
          .qconfig 0 (s2.reg (Off.tqRing q)) (s2.reg (Off.tqCq q)) (s2.reg (Off.tqState q)),
          .qconfig 1 (s2.reg (Off.tqBuflo q)) (s2.reg (Off.tqBufhi q)) (s2.reg (Off.tqTarget q)),
          .qconfig 2 (s2.reg (Off.tqCfg q)) inc 0]).1
      else s2)

/-- Every descriptor from a count on, `n` of them, as far as they can be read. -/
def State.descsFrom (s : State) (q count n : Nat) : List Txn :=
  (List.range n).map fun i =>
    let c := (count + i) % 2 ^ 32
    match s.dmaRead (s.tqSlotAddr q c) 64 with
    | some b => s.parseDesc q c b
    | none => s.blankDesc q c

/-- A queue disabled (08 R205, R223, R239): what is undispatched and the posted RECEIVEs complete with CANCELLED; dispatched
transactions go on. Also the number of completions. -/
def State.queueDisable (s : State) (q : Nat) : State × Nat :=
  let head := s.reg (Off.tqHead q)
  let tail := s.reg (Off.tqTail q)
  let todo := s.descsFrom q head (cnt32 tail head)
  let recvs := (s.tq q).recvs
  let s0 := (s.tq q).group.foldl (fun u m => u.giveBack q m) s
  let s1 := ((s0.setFlag (Off.tqCfg q) 63 false).setReg (Off.tqHead q) tail).setHeld q none
  let s2 := s1.onTq q fun t => { t with group := [] }
  let s3 := (todo ++ recvs).foldl (fun u t => u.txnDone q t .cancelled 0) s2
  let s4 := s3.onNvj fun n => { n with off := if s.tqDurable q then n.off ++ [q] else n.off }.settle
  (s4.flowsClose q, todo.length + recvs.length)

/-- A write of TQ_CFG by a control processor (08 R239): while enabled only the enable bit counts. -/
def State.tqCfgWrite (s : State) (q v : Nat) : State :=
  if s.tqOn q then (if bitOf v 63 then s else (s.queueDisable q).1)
  else
    let s1 := s.setReg (Off.tqCfg q) (setBits (setBit v 63 false) 42 4 0)
    if bitOf v 63 then (match s1.queueEnable q with | .done t => t | _ => s1) else s1

/-- A physical engine ready to take over: TE16 or TE17, SPARE (08 R236). -/
def State.teSpare (s : State) : Option Nat :=
  if s.teState 16 = 0 then some 16 else if s.teState 17 = 0 then some 17 else none

/-- What a physical engine has met. -/
def State.teng (s : State) (i : Nat) : TEng := tblGetD s.tengs i ⟨0, none⟩

/-- A physical engine condemned (08 R236): its hand-over to a spare starts; with none, its logical engine's queues are held. -/
def State.teFail (s : State) (i : Nat) : State :=
  let s1 := (s.condemn 5 0 i (512 + i) s.teSpare.isSome).raise (512 + i)
  match s.teSpare with
  | some d =>
    let s2 := (s1.setFld (Off.teStat i) 0 2 3).setFld (Off.teStat d) 0 2 3
    { s2 with tengs := tblSet s2.tengs i ⟨0, some d⟩ }
  | none => s1.setFld (Off.teStat i) 0 2 2

/-- The hand-over of a logical engine done at a descriptor boundary (08 R236): the map names the new engine, which is ACTIVE;
the old one is CONDEMNED. -/
def State.teHandover (s : State) (e : Nat) : State :=
  let i := s.tePhys e
  match (s.teng i).dest with
  | none => s
  | some d =>
    let s1 := s.setFld (Off.twEngmap (e / 8)) (8 * (e % 8)) 5 d
    let s2 := ((s1.setFld (Off.teStat i) 0 2 2).setFld (Off.teStat d) 0 2 1).setFld (Off.teStat d) 8 4 e
    { s2 with tengs := tblSet s2.tengs i ⟨0, none⟩ }.raise (512 + i)

/-- A mismatch of a physical engine retried (08 R236): a success adds time only; the third failure exhausts the budget. -/
def execEngineRetry (i : Nat) (succeeds : Bool) (s : State) : Host.Outcome State Fault Refusal :=
  forUnit i 18 s fun s =>
    let t := s.teng i
    if s.teState i ≠ 1 then s
    else if succeeds then { s with tengs := tblSet s.tengs i { t with tries := 0 } }
    else if t.tries + 1 < 3 then { s with tengs := tblSet s.tengs i { t with tries := t.tries + 1 } }
    else s.teFail i

/-- A logical engine moves to another physical engine (08 R236). -/
def execEngineHandover (logical : Nat) (s : State) : Host.Outcome State Fault Refusal :=
  forUnit logical 16 s fun s => s.teHandover logical

end Sys2Proof.Machine
end

