-- ==== Sys2Proof/Machine/Registers.lean ====
section
/-! DEFINITION. The register window (00 R5-R10, 01 R22-R25): how a read or a write by a master ID reaches a register, who may, and what
it does. The registers are those of 02 R69, 03 R102, 07 R203, 08 R239, R240, 09 R283, 10 R310, 11 R332, 12 R360, R361, 13 R376, R377,
15 R416, 16 R437, 17 R454, 18 R471, 19 R492, R493. -/

namespace Sys2Proof.Machine

/-- CMP_STAT after a W1C of valid (02 R69). -/
def State.cmpStatW1c (s : State) (c k : Nat) : State :=
  let off := Off.cmpStat c k
  ((((s.setFlag off 0 false).setFld off 16 4 0).setFld off 32 10 0).setReg (Off.cmpTimeNs c k) 0).setReg (Off.cmpTimeFr c k) 0

/-- Whether an interrupt vector is pending at a logical processor (03 R102, 13 R373, 11 R329). -/
def State.intPending (s : State) (n v : Nat) : Bool :=
  let p := s.lp n
  if v = 0x18 then p.timer
  else if v = 0x19 then p.swi
  else if v = 0x1A then p.lens
  else if v = 0x1B then p.err
  else if 0x20 ≤ v ∧ v ≤ 0x3F then bitOf (tblGetD s.dbIn n 0) (v - 0x20)
  else false

/-- The interrupt vectors of 03 R94. -/
def intVectors : List Nat := [0x18, 0x19, 0x1A, 0x1B] ++ (List.range 32).map (0x20 + ·)

/-- Whether a self-test run holds a cluster (19 R476). -/
def State.underTest (s : State) (c : Nat) : Bool :=
  match s.chip.bist with
  | some (scope, unit, _) => decide (scope ≤ 2) && unit == c
  | none => false

/-- INTC_PEND of a slot (03 R102). -/
def State.intcPendVal (s : State) (n : Nat) : Nat :=
  intVectors.foldl (fun k v => k + bit01 (s.intPending n v) * 2 ^ v) 0

/-- The register blocks of 01 R24: first offset and the offset after the last instance. -/
def regBlocks : List (Nat × Nat) :=
  [(0, 0x12000000), (0x14000000, 0x15000000), (0x18000000, 0x1C000000), (0x20000000, 0x20800000), (0x21000000, 0x22100000),
   (0x24000000, 0x24240000), (0x25000000, 0x26000000), (0x28000000, 0x28100000), (0x2C000000, 0x2D000000), (0x2E000000, 0x2F000000),
   (0x30000000, 0x31000000), (0x34000000, 0x37000000)]

/-- Whether an offset lies in some block (01 R22). -/
def inBlock (off : Nat) : Bool := regBlocks.any fun b => decide (b.1 ≤ off) && decide (off < b.2)

/-- Whether a register overlaps the bytes of an access without being exactly it: an access of another width or alignment (00 R9). -/
def overlapsReg (off size : Nat) : Bool :=
  (List.range (size + 7)).any fun i =>
    decide (7 ≤ off + i) && (match regAt (off + i - 7) with
      | some (d, _) => decide (off < off + i - 7 + d.width / 8)
      | none => false)

/-- Whether a register belongs to a slot, and exists only where the slot does (03 R102, 13 R372, 19 R480). -/
def RegName.ofSlot : RegName → Bool
  | .intcLvl => true | .intcPend => true | .intcSwi => true | .tmrCmp => true | .tmrCtrl => true | .errLpen => true
  | .mcStat => true | .dbPendLp => true | .dbMaskLp => true
  | .lensSlotCnt => true | .lensSlotSnap => true | .lensSlotCtrl => true
  | _ => false

/-- What an access names: a register with its numbers, nothing (an offset not assigned, R8), or a bus error (R9, 01 R22, 19 R476). -/
inductive RegTo where
  | reg (d : RegDesc) (ix : List Nat) | nothing | bad

/-- What an access of `size` bytes at an offset names. -/
def State.regTo (s : State) (off size : Nat) : RegTo :=
  if !inBlock off || (decide (off < 0x10000000) && s.underTest (off / 0x1000000)) then .bad
  else match regAt off with
    | some (d, ix) =>
      if d.name.ofSlot && decide (s.slots (ix.headD 0) ≤ (ix.drop 1).headD 0) then .nothing
      else if d.width = 8 * size then .reg d ix
      else .bad
    | none => if overlapsReg off size then .bad else .nothing

/-- The lock bit of the block of a register (00 R7, 07 R203, 08 R239, R240, 10 R310, 11 R332, 16 R437). -/
def lockBit (off : Nat) : Option (Nat × Nat) :=
  if off < 0x10000000 then some (Off.cmpCtrl (off / 0x1000000), 31)
  else if off < 0x12000000 then some (Off.scLock ((off - 0x10000000) / 0x100000), 0)
  else if 0x18000000 ≤ off ∧ off < 0x1C000000 then some (Off.twCtrl, 31)
  else if 0x21000000 ≤ off ∧ off < 0x22000000 then some (Off.rtCtrl, 31)
  else if 0x22000000 ≤ off ∧ off < 0x22100000 then some (Off.timeCtrl, 31)
  else if 0x2E000000 ≤ off ∧ off < 0x2F000000 then some (Off.fprCtrl, 31)
  else if 0x30000000 ≤ off ∧ off < 0x31000000 then some (Off.nvjCfg, 31)
  else none

/-- Whether the lock of a register's block is set. -/
def State.locked (s : State) (off : Nat) : Bool :=
  match lockBit off with
  | some (r, b) => s.flag r b
  | none => false

/-- The lock bits of every block (14 R390, LOCK_CONFIG). -/
def lockBits : List (Nat × Nat) :=
  ((List.range 16).map fun c => (Off.cmpCtrl c, 31)) ++ ((List.range 32).map fun i => (Off.scLock i, 0)) ++
    [(Off.twCtrl, 31), (Off.rtCtrl, 31), (Off.timeCtrl, 31), (Off.fprCtrl, 31), (Off.nvjCfg, 31)]

/-- One field after a write (00 R5). -/
def fieldWrite (v : Nat) (keep : Bool) (r : Nat) : Nat × Nat × Acc → Nat
  | (hi, lo, a) =>
    let w := hi + 1 - lo
    let old := bits r lo w
    let x := bits v lo w
    match a with
    | .rw => setBits r lo w x
    | .wo => setBits r lo w x
    | .rwl => if keep then r else setBits r lo w x
    | .w1c => setBits r lo w (old - (old &&& x))
    | .w1s => setBits r lo w (old ||| x)
    | _ => r

/-- A register's value after a write of it (00 R5-R7): with the write that sets the lock its RWL fields are dropped (DEDUCED, log 29). -/
def State.fieldsWrite (s : State) (d : RegDesc) (off v : Nat) : Nat :=
  let keep := s.locked off || (match lockBit off with | some (r, b) => r == off && bitOf v b | none => false)
  d.fields.foldl (fieldWrite v keep) (s.reg off)

/-- Whether a register records the first event of a kind, all of which a write of 1 to valid clears. -/
def RegName.isCause : RegName → Bool
  | .l2Err => true | .scErr => true | .twErr => true | .portErr => true | .lnkErr => true | .peErr => true | .ceErr => true
  | .mbxErr => true | .hpErr => true | .dramErr => true | .mcStat => true
  | _ => false

/-- Who may write a register. -/
inductive Writer where
  | any | cps | ids (a : Nat) | cpsOr (a : Nat) | machine
  deriving DecidableEq, Repr

/-- The master IDs that a register's chapter lets write it; any, where the chapter names none. -/
def State.writer (s : State) (d : RegDesc) (ix : List Nat) (off : Nat) : Writer :=
  match d.name, ix with
  | .dbPendLp, [c, k] => .cpsOr (0x100 + 6 * c + k)
  | .dbMaskLp, [c, k] => .cpsOr (0x100 + 6 * c + k)
  | .errLpen, [c, k] => .cpsOr (0x100 + 6 * c + k)
  | .dbPendHf, [f] => .cpsOr f
  | .dbMaskHf, [f] => .cpsOr f
  | .portRxhead, [p] => .ids (s.fld (Off.portRxntf p) 0 12)
  | .tqTail, _ => .any
  | .tqCqhead, [q] => .ids (s.tqOwner q)
  | .pjTail, _ => .any
  | .cjTail, _ => .any
  | .pjCqhead, [j] => .ids (s.jOwner .prism j)
  | .cjCqhead, [j] => .ids (s.jOwner .cipher j)
  | .mbxTx, ch :: _ => .ids (s.bindSender ch)
  | .mbxPost, [ch] => .ids (s.bindSender ch)
  | .mbxRing, [ch] => .ids (s.bindSender ch)
  | .mbxPostStat, [ch] => .ids (s.bindSender ch)
  | .mbxRx, ch :: _ => .ids (s.bindReceiver ch)
  | .mbxRstat, [ch] => .ids (s.bindReceiver ch)
  | .mbxPop, [ch] => .ids (s.bindReceiver ch)
  | .mbxBind, _ => .cps
  | .mbxErr, _ => .cps
  | .lensTcfg, _ => .machine
  | .lensHtcfg, _ => .machine
  | .lensSlotCtrl, _ => .machine
  | .lensCtrl, _ => .machine
  | .lensFreezeAt, _ => .machine
  | .lensSnapAt, _ => .machine
  | .tqHead, _ => .any
  | .tqRetire, _ => .any
  | .tqCqtail, _ => .any
  | .tqStat, _ => .any
  | .spareStat, _ => .cps
  | .life, _ => .cps
  | _, _ =>
    if (decide (0x18000000 ≤ off) && decide (off < 0x26000000)) || (decide (0x2C000000 ≤ off) && decide (off < 0x2F000000)) ||
        (decide (0x34000000 ≤ off) && decide (off < 0x36000000)) then .cps
    else .any

/-- Whether a master ID, at the privilege level of its request, is one of a kind of writer. -/
def Writer.admits (w : Writer) (master priv : Nat) : Bool :=
  match w with
  | .any => true
  | .cps => isCp master
  | .ids a => master == a
  | .cpsOr a => isCp master || master == a
  | .machine => isCp master || ((masterLp master).isSome && priv == 0)

/-- Whether a master ID may read a register (13 R376, 19 R481). -/
def State.mayRead (s : State) (d : RegDesc) (ix : List Nat) (off master priv : Nat) : Bool :=
  if 0x34000000 ≤ off ∧ off < 0x35000000 then Writer.machine.admits master priv
  else match d.name with
    | .mbxBind => true
    | .mbxTx => (s.writer d ix off).admits master priv
    | .mbxPost => (s.writer d ix off).admits master priv
    | .mbxPostStat => (s.writer d ix off).admits master priv
    | .mbxRing => (s.writer d ix off).admits master priv
    | .mbxRx => (s.writer d ix off).admits master priv
    | .mbxRstat => (s.writer d ix off).admits master priv
    | .mbxPop => (s.writer d ix off).admits master priv
    | .mbxErr => isCp master
    | _ => true

/-- The channel of a mailbox register. -/
def mbxChannel (off : Nat) : Option Nat :=
  if 0x28000000 ≤ off ∧ off < 0x28100000 then some ((off - 0x28000000) / 0x100) else none

/-- An access that the mailbox block turned away recorded in MBX_ERR (13 R376). -/
def State.accessRefused (s : State) (off size master : Nat) : State :=
  match mbxChannel off, s.regTo off size with
  | some ch, .reg d ix => if (s.writer d ix off).admits master 0 then s else s.mbxErrLog ch 1 master
  | _, _ => s

/-- Whether a register holds Lens counts, which stand in `lens`. -/
def RegName.isLensCount : RegName → Bool
  | .lensSlotCnt => true | .lensSlotSnap => true | .lensClCnt => true | .lensClSnap => true | .lensThCnt => true
  | .lensThSnap => true | .lensScCnt => true | .lensScSnap => true | .lensDrCnt => true | .lensDrSnap => true
  | .lensHubCnt => true | .lensHubSnap => true | .lensHtCnt => true | .lensHtSnap => true
  | _ => false

/-- The bits of a register that a read shows: all but the write-only fields (00 R5). -/
def shown (d : RegDesc) (v : Nat) : Nat :=
  d.fields.foldl (fun r f => match f with | (hi, lo, Acc.wo) => setBits r lo (hi + 1 - lo) 0 | _ => r) v

/-- A register after a read of it: its RC fields clear (00 R5). -/
def afterRead (d : RegDesc) (v : Nat) : Nat :=
  d.fields.foldl (fun r f => match f with | (hi, lo, Acc.rc) => setBits r lo (hi + 1 - lo) 0 | _ => r) v

/-- The value of a register as it stands, by its own rule where it mirrors other state. -/
def State.regValue (s : State) (d : RegDesc) (ix : List Nat) (off : Nat) : Option Nat :=
  match d.name, ix with
  | .intcPend, [c, k] => some (s.intcPendVal (6 * c + k))
  | .errStatus, [g] => some (s.errStatusVal g)
  | .errSummary, _ => some s.errSummaryVal
  | .mbxRx, [ch, i] => s.mbxRxWord ch i
  | .mbxRstat, [ch] => some (s.mbxRstatVal ch)
  | .nvjStat, _ => some s.nvjStatVal
  | .teStat, [i] => some (s.reg off % 2 ^ 32 + (if s.teState i = 1 then s.teOpen (s.fld off 8 4) else 0) * 2 ^ 32)
  | .timeAdj, _ => some s.timeAdjVal
  | _, _ => some (if d.name.isLensCount then tblGetD s.lens off 0 else shown d (s.reg off))

/-- A read of the register window: the value, or none for a bus error. What a rail reads is a free value: no command of this model
brings a reading (log 73). -/
def readReg (s : State) (master priv off size : Nat) : Option (State × Nat) :=
  match s.regTo off size with
  | .bad => none
  | .nothing =>
    if 0x34000000 ≤ off ∧ off < 0x35000000 ∧ !Writer.machine.admits master priv then none else some (s, 0)
  | .reg d ix =>
    if !s.mayRead d ix off master priv then none
    else if d.name = .railMon then
      let (k, s1) := s.fresh
      some (s1, s.fld off 32 16 * 2 ^ 32 + k % 2 ^ 32)
    else match s.regValue d ix off with
      | none => none
      | some v =>
        let r := afterRead d (s.reg off)
        let s1 := if r = s.reg off then s else s.setReg off r
        some (if d.name = .therm then { s1 with thermSeen := setBit s1.thermSeen (ix.headD 0) false } else s1, v)

/-- A range engine's control register written (07 R188). -/
def State.rmCtrlWrite (s : State) (e : RangeEngine) (d : RegDesc) (v : Nat) : State :=
  if bitOf v 63 then
    s.rmStart e (bits v 0 3) ⟨BitVec.ofNat 4 (bits v 8 4), bitOf v 28, BitVec.ofNat 5 (bits v 32 5), BitVec.ofNat 12 (bits v 16 12)⟩
  else s.setReg (rmCtrl e) (s.fieldsWrite d (rmCtrl e) v)

/-- The words of a stream entry that the port writes (09 R260). -/
def streamRo (i : Nat) : Bool := i % 8 == 6 || i % 8 == 7

/-- A write that the writer's right allows. The second component is false for a bus error. -/
def State.regWrite (s : State) (d : RegDesc) (ix : List Nat) (master off v : Nat) : State × Bool :=
  let plain := s.setReg off (s.fieldsWrite d off v)
  let ringReg : Nat → State := fun q => if s.tqOn q then s else plain
  match d.name, ix with
  | .cmpStat, [c, k] => (if bitOf v 0 then s.cmpStatW1c c k else s, true)
  | .intcSwi, [c, k] => (if bitOf v 0 then plain.onLp (6 * c + k) fun p => { p with swi := true } else s, true)
  | .tmrCmp, [c, k] => (plain.timerDue c k, true)
  | .tmrCtrl, [c, k] => (plain.timerDue c k, true)
  | .l2Locken, [c] => (s.lockenWrite (.l2 c) v, true)
  | .scLocken, [i] => (s.lockenWrite (.slice i) v, true)
  | .l2Errcfg, _ => (if bits v 0 8 = 0 then s else plain, true)
  | .scErrcfg, _ => (if bits v 0 8 = 0 then s else plain, true)
  | .rmCtrl, [c] => (s.rmCtrlWrite (.cluster c) d v, true)
  | .hrmCtrl, [h] => (s.rmCtrlWrite (.hub h) d v, true)
  | .dur, [i] => (if s.locked off then s else s.durWrite i v, true)
  | .twCtrl, _ =>
    let r := plain.fld off 0 20
    (if s.locked off then plain else plain.setFld off 0 20 (if r = 0 then 1 else min r 262144), true)
  | .tqRing, [q] => (ringReg q, true)
  | .tqCq, [q] => (ringReg q, true)
  | .tqState, [q] => (ringReg q, true)
  | .tqBuflo, [q] => (ringReg q, true)
  | .tqBufhi, [q] => (ringReg q, true)
  | .tqCfg, [q] => (s.tqCfgWrite q v, true)
  | .tqTail, [q] => s.tqTailWrite master q v
  | .tqCqhead, [q] => (plain.tqFlush q ((s.tq q).waiting.length + 1), true)
  | .portCfg, [p] => (s.portCfgPut p v, true)
  | .prpCfg, [k] => (s.prpCfgWrite k v, true)
  | .msecCfg, [p] => (s.msecCfgWrite p v, true)
  | .svStream, [_, i] => (if streamRo i then s else plain, true)
  | .lnkCfg, [l] => (s.lnkCfgWrite l v, true)
  | .rtCtrl, _ => (if plain.fld off 0 8 = 0 then plain.setFld off 0 8 1 else plain, true)
  | .timeCtrl, _ => (s.timeCtrlWrite (s.locked off || bitOf v 31) v, true)
  | .timeFreq, _ => (s.setRate (signed (v % 2 ^ 32) 32), true)
  | .timeAdj, _ => (s.timeAdjWrite v, true)
  | .ppsCfg, _ => (s.ppsCfgWrite v, true)
  | .pjRing, [j] => (if s.jOn .prism j then s else plain, true)
  | .pjCq, [j] => (if s.jOn .prism j then s else plain, true)
  | .pjBuflo, [j] => (if s.jOn .prism j then s else plain, true)
  | .pjBufhi, [j] => (if s.jOn .prism j then s else plain, true)
  | .cjRing, [j] => (if s.jOn .cipher j then s else plain, true)
  | .cjCq, [j] => (if s.jOn .cipher j then s else plain, true)
  | .cjBuflo, [j] => (if s.jOn .cipher j then s else plain, true)
  | .cjBufhi, [j] => (if s.jOn .cipher j then s else plain, true)
  | .pjCfg, [j] => (s.jCfgWrite .prism j v, true)
  | .cjCfg, [j] => (s.jCfgWrite .cipher j v, true)
  | .pjTail, [j] => s.jTailWrite .prism j master v
  | .cjTail, [j] => s.jTailWrite .cipher j master v
  | .pjCqhead, [j] => (s.jCqheadWrite .prism j v, true)
  | .cjCqhead, [j] => (s.jCqheadWrite .cipher j v, true)
  | .keyCmd, _ => (s.keyCmdWrite v, true)
  | .mbxTx, [ch, i] => (s.mbxTx ch i v, true)
  | .mbxPost, [ch] => (s.mbxPost ch (bitOf v 31), true)
  | .mbxRing, [ch] => (s.mbxRingSet ch v, true)
  | .mbxPop, [ch] => (s.mbxPopWith master ch v, true)
  | .mbxBind, [ch] => (s.mbxBindWrite ch v, true)
  | .errPin, _ => (s.errPinWrite v, true)
  | .errStatus, [g] => (s.errStatusW1c g v, true)
  | .errFirst, [g] => (if bitOf v 0 then s.errFirstW1c g else s, true)
  | .errReactLo, [g] => (s.errReactSet g false v, true)
  | .errReactHi, [g] => (s.errReactSet g true v, true)
  | .errSrc, [n] => (if bitOf v 31 then s.errSrcW1c n else s, true)
  | .bistCtrl, _ => (s.bistCtrlWrite v, true)
  | .lensTcfg, _ => (s.setReg off (tcfgStored false v), true)
  | .lensHtcfg, _ => (s.setReg off (tcfgStored true v), true)
  | .lensCtrl, _ => (s.lensCtrlWrite v, true)
  | .dbPendLp, [c, k] => (s.dbClear (0x100 + 6 * c + k) v, true)
  | .dbMaskLp, [c, k] => (s.dbMaskSet (0x100 + 6 * c + k) v, true)
  | .dbPendCp, [i] => (s.dbClear (0x200 + i) v, true)
  | .dbMaskCp, [i] => (s.dbMaskSet (0x200 + i) v, true)
  | .dbPendHf, [f] => (s.dbClear f v, true)
  | .dbMaskHf, [f] => (s.dbMaskSet f v, true)
  | _, _ =>
    if d.name.isLensCount then
      (if lensLive off && bitOf v 63 then { s with lens := tblSet s.lens off (setBit (tblGetD s.lens off 0) 63 false) } else s, true)
    else if d.name.isCause then (if bitOf v 0 then s.setReg off 0 else s, true)
    else (plain, true)

/-- A write of the register window; the second component is false where it completes with a bus error. -/
def writeReg (s : State) (master priv off size v : Nat) : State × Bool :=
  match s.regTo off size with
  | .bad => (s, false)
  | .nothing => (s, true)
  | .reg d ix =>
    if (s.writer d ix off).admits master priv then s.regWrite d ix master off v else (s.accessRefused off size master, false)

end Sys2Proof.Machine
end

