-- ==== Sys2Proof/Machine/Drain.lean ====
section
/-! DEFINITION. From store to performed (06 R153-R160, 02 R42, 04 R134): the drain engine of a logical processor's store
buffer, and host memory as a destination (15 R406, R410, R411, R414). -/

namespace Sys2Proof.Machine

/-- Host memory can be reached: link active, and CXL, not the PCIe fallback (15 R396, R414), and no THERM_SHUTDOWN (16 R435). -/
def State.hostOk (s : State) : Bool := !s.shutdown && s.flag Off.hpStat 0 && s.flag Off.hpStat 1

/-- The function whose requests a logical processor's host accesses are (15 R406). -/
def State.lpFn (s : State) (n : Nat) : Nat :=
  match s.parts.find? fun e => e.2.lps.contains n with
  | none => 0
  | some (p, _) =>
    match s.assigns.find? fun a => a.kind == 6 && decide (a.first ≤ p) && decide (p < a.first + a.count) with
    | some a => a.vf
    | none => 0

/-- Base of host memory in the device's physical addresses (01 R21). -/
def hostBase : Nat := 0x8000000000000

/-- The dirty log's part in a host write of a logical processor (15 R410, R411): the bit set before the request is sent, or
the write held (none) because the log is, or becomes, FULL. -/
def State.hostWriteLog (s : State) (n a : Nat) : State × Bool :=
  let f := s.lpFn n
  if f = 0 then (s, true)
  else
    let r := Off.hpDlog (f - 1)
    let page := (a - hostBase) / 4096
    match s.fld r 0 2 with
    | 1 =>
      let d := tblGetD s.dlogs f ⟨0, 0, []⟩
      if page < d.pages then
        ({ s with dlogs := tblSet s.dlogs f { d with set := if d.set.contains page then d.set else d.set ++ [page] } }, true)
      else
        ((((s.setReg r (page % 2 ^ 40 * 2 ^ 24 + 4 + 2)).logCause Off.hpErr 4 (f * 2 ^ 32)).raise 765), false)
    | 2 => (s, false)
    | _ => (s, true)

/-- What performing a store-buffer entry comes to. -/
inductive Performed where
  | done (s : State)
  | held (s : State)
  | busError (s : State)

/-- A NORMAL-WB store performed in the owning L2 (06 R157): the line taken owned, the other copies invalidated, the bytes
written; every reservation of the granule clears (06 R170). -/
def State.storeWb (s : State) (n a : Nat) (bs : List Byte) : State :=
  let line := lineOf a
  let s1 := if n < 96 then (s.l2Own (n / 6) line).l1Siblings n line else s
  let s2 := (s1.clearRsv line fun _ => true).onLp n fun p => { p with l1d := p.l1d.mergeStale line (a - line) bs }
  if n < 96 then { s2 with mem := memWriteBytes s2.mem a bs } else s2.lineWrite a bs

/-- A store of a logical processor performed at its destination (06 R157, 01 R22, R23). -/
def State.performStore (s : State) (n : Nat) (t : MemType) (priv a : Nat) (bs : List Byte) : Performed :=
  match s.rangeKind a bs.length with
  | some .dram =>
    match t with
    | .wb => .done (s.storeWb n a bs)
    | _ => .done (s.lineWrite a bs)
  | some .host =>
    if s.hostOk then
      let (s1, go) := s.hostWriteLog n a
      if go then
        (match t with
          | .wb => .done (s1.storeWb n a bs)
          | _ => .done (({ s1 with mem := memWriteBytes s1.mem a bs }.clearRsv (lineOf a) fun _ => true).countHub 2 6 1))
      else .held s1
    else .busError s
  | some .regs =>
    if t = .device then
      match writeReg s (lpMaster n) priv (regOff a) bs.length (leNat bs) with
      | (s1, true) => .done s1
      | (s1, false) => .busError s1
    else .busError s
  | _ => .busError s

/-- A line operation refused (07 R185): L2_STAT.maint_refused; the control processors have no L2 and no such bit. -/
def State.maintRefused (s : State) (n : Nat) : State := if n < 96 then s.setFlag (Off.l2Stat (n / 6)) 0 true else s

/-- A line operation at the scope of a cluster; a control processor, on the hub, has no cluster and no copies. -/
def State.clineAt (s : State) (n op : Nat) (device : Bool) (line : Nat) : State :=
  if device || decide (n < 96) then s.lineOp (n / 6) op device line
  else if op = 3 then s.devZero line else s

/-- A locking prefetch performed (07 R186). -/
def State.pflkAt (s : State) (n way : Nat) (sc : Bool) (line : Nat) : State :=
  match (if sc then s.placeSc way line else if n < 96 then s.placeL2 (n / 6) way line else none) with
  | some s1 => s1
  | none => s.maintRefused n

/-- A store-buffer entry performed: a store, a line operation (07 R185), or nothing. -/
def State.performEntry (s : State) (n : Nat) (e : SbEntry) : Performed :=
  match e.kind with
  | .store t => s.performStore n t e.priv e.addr e.bytes
  | .cline op dev => .done (s.clineAt n op dev (lineOf e.addr))
  | .pflk w sc => .done (s.pflkAt n w sc (lineOf e.addr))
  | .noEffect => .done (s.maintRefused n)

/-- The channel of a DEVICE store to MBX_POST (13 R368). -/
def postChannel (e : SbEntry) : Option Nat :=
  let off := regOff e.addr
  if e.kind = .store .device ∧ regBase + 0x28000000 ≤ e.addr ∧ e.addr < regBase + 0x28100000 ∧ off % 256 = 0x40 then
    some ((off - 0x28000000) / 256)
  else none

/-- Entries that may be performed now, by their place in the buffer (06 R158): the oldest, or, where the oldest is NORMAL-NC,
any of the leading NORMAL-NC entries that no older one of its transaction ID precedes, at most 8 in flight. -/
def sendable (sb : List SbEntry) : List Nat :=
  let lead := (sb.takeWhile fun e => decide (e.kind = .store .nc)).take 8
  if lead.isEmpty then (if sb.isEmpty then [] else [0])
  else (List.range lead.length).filter fun i =>
    match lead[i]? with
    | some e => !e.performed && (lead.take i).all fun o => o.performed || o.addr / 64 % 32 != e.addr / 64 % 32
    | none => false

/-- The leading performed entries retired. -/
def retire (sb : List SbEntry) : List SbEntry := sb.dropWhile fun e => e.performed

/-- One step of the drain engine (06 R158): an entry that the order allows is sent and performed, then the leading performed
entries retire. A bus error on a committed store makes STORE_BUS_ERROR pending (03 R101). A blocking post holds the buffer
until its outcome is known (13 R368). The second component is false where nothing could be done. -/
def State.drainOne (s : State) (n : Nat) : State × Bool :=
  let p := s.lp n
  match p.postWait with
  | some ch =>
    if (s.chan ch).blocking.isSome then (s, false)
    else (s.onLp n fun p => { p with sb := p.sb.drop 1, postWait := none }, true)
  | none =>
    let cand := sendable p.sb
    match cand with
    | [] => (s, false)
    | i0 :: _ =>
      let (k, s0) := if cand.length ≤ 1 then (0, s) else s.fresh
      let i := (cand[k % cand.length]?).getD i0
      match p.sb[i]? with
      | none => (s, false)
      | some e =>
        let mark : State → State := fun t => t.onLp n fun p =>
          { p with sb := retire (p.sb.modify i fun e => { e with performed := true }) }
        match s0.performEntry n e with
        | .done t =>
          (match postChannel e with
            | some ch => if (t.chan ch).blocking.isSome then (t.onLp n fun p => { p with postWait := some ch }, true)
                         else (mark t, true)
            | none => (mark t, true))
        | .busError t => (mark (t.onLp n fun p => { p with sbe := p.sbe ++ [e.addr] }), true)
        | .held t => (t, false)

/-- The drain engine run for at most `fuel` steps. -/
def State.drainFor (s : State) (n : Nat) : Nat → State
  | 0 => s
  | fuel + 1 =>
    if (s.lp n).sb.isEmpty then s
    else
      let (s1, go) := s.drainOne n
      if go then s1.drainFor n fuel else s1

/-- The store buffer drained as far as it can be: what a wait for every older entry to retire comes to. -/
def State.drainAll (s : State) (n : Nat) : State := s.drainFor n (2 * (s.lp n).sb.length)

/-- Whether an entry holds any byte of a range. -/
def SbEntry.overlaps (e : SbEntry) (a n : Nat) : Bool :=
  match e.kind with
  | .store _ => decide (e.addr < a + n) && decide (a < e.addr + e.bytes.length)
  | _ => false

/-- The byte of an address that the youngest entry holds. -/
def sbByte (sb : List SbEntry) (a : Nat) : Option Byte :=
  match (sb.reverse.find? fun e => e.overlaps a 1) with
  | some e => e.bytes[a - e.addr]?
  | none => none

/-- The store buffer drained until no entry holds a byte of a range (06 R159). -/
def State.drainPast (s : State) (n a len : Nat) : Nat → State
  | 0 => s
  | fuel + 1 =>
    if (s.lp n).sb.any fun e => e.overlaps a len then
      let (s1, go) := s.drainOne n
      if go then s1.drainPast n a len fuel else s1
    else s

end Sys2Proof.Machine
end

