-- ==== Sys2Proof/Machine/Resume.lean ====
section
/-! DEFINITION. What Tradewind does at a reset and at a start (08 R217, R228, R232-R235, 18 R468): the scan of the journal, the
resume of durable queues, the end of the work of the others, and the marks written at SAG_WARN. -/

namespace Sys2Proof.Machine

/-- A range added to the RESUME_REPORT list (14 R390), joined to the last one where it follows on. -/
def State.reportSlot (s : State) (q code first last : Nat) : State :=
  let r := s.svc.report
  let joined := match r.getLast? with
    | some e => if e.q = q ∧ e.code = code ∧ (e.last + 1) % 2 ^ 32 = first ∧ q ≠ 0xFFFF then
        r.dropLast ++ [{ e with last := last }] else r ++ [⟨q, code, first, last⟩]
    | none => [⟨q, code, first, last⟩]
  { s with svc := { s.svc with report := joined } }

/-- The slot count of an open transaction's record. -/
def JBody.txnCount : JBody → Option Nat
  | .commit c .. => some c
  | .member c .. => some c
  | _ => none

/-- The three parts of a queue's QCONFIG, where all live (08 R222). -/
def Nvj.config (n : Nvj) (q : Nat) : Option (List Nat) :=
  let part := fun k => (n.live.find? fun r => r.q == q && (match r.body with | .qconfig p .. => p == k | _ => false)).map fun r =>
    match r.body with | .qconfig _ a b c => [a, b, c] | _ => []
  match part 0, part 1, part 2 with
  | some a, some b, some c => some (a ++ b ++ c)
  | _, _, _ => none

/-- A durable queue restored from its QCONFIG, with its incarnation (08 R233 step 3). A warm reset has kept its registers
(R234), TQ_TARGET as rebound among them. -/
def State.restoreQueue (s : State) (q : Nat) (w : List Nat) (warm kept : Bool) : State :=
  let g := fun i => w.getD i 0
  let s1 := if warm then s else ((((((s.setReg (Off.tqRing q) (g 0)).setReg (Off.tqCq q) (g 1)).setReg (Off.tqState q) (g 2)).setReg
    (Off.tqBuflo q) (g 3)).setReg (Off.tqBufhi q) (g 4)).setReg (Off.tqTarget q) (g 5)).setReg (Off.tqCfg q)
      (setBit (g 6) 63 true)
  s1.onTq q fun t => { t with
    inc := g 7 % 65536, since := true, opens := [], held := none, flows := if kept then t.flows else [] }

/-- A transaction as its journal record alone gives it (08 R233): its kind or GROUP with the member index, tag 0. -/
def recordTxn (s : State) (q : Nat) (b : JBody) : Txn :=
  match b with
  | .commit c sq _ _ f k => { s.blankDesc q c with kind := k, seq := sq, flow := f, durable := true, resumed := true }
  | .member c sq _ _ f i l =>
    { s.blankDesc q c with kind := 5, member := i + l * 16, seq := sq, flow := f, durable := true, resumed := true }
  | _ => s.blankDesc q 0

/-- Whether the group of a MEMBER has its GROUP_COMMIT. -/
def Nvj.committed (n : Nvj) (q : Nat) (b : JBody) : Bool :=
  match b with
  | .member c _ _ _ _ i _ =>
    n.live.any fun r => r.q == q && (match r.body with | .groupCommit k _ => k == cnt32 c i | _ => false)
  | _ => true

/-- The flow block of a resumed transaction, with its next number above its own (08 R233 step 4). Where the flow-state area was
lost with the memory its target is not known: DESIGN CHOICE, log 41. -/
def State.rebuildFlow (s : State) (q : Nat) (t : Txn) : State :=
  if t.seq = 0 then s
  else
    let s1 := match s.flow? q t.flow with
      | some _ => s
      | none => s.onTq q fun x => { x with flows := tblSet x.flows t.flow (Flow.new t.target) }
    s1.onFlow q t.flow fun f => { f with next := max f.next (seqCnt t.seq + 1) }

/-- One open record resumed (08 R233 steps 5 and 6). `kept` says that DRAM holds what it held (18 R465). -/
def State.resumeOne (s : State) (kept : Bool) (r : JRec) : State :=
  let q := r.q
  let rt := recordTxn s q r.body
  match s.nvj.config q with
  | none => (s.reportSlot q TStat.lostByReset.code rt.count rt.count).nvjEndTxn q rt.count
  | some _ =>
    let marked := s.setFlag (Off.tqStat q) 0 true
    if !s.nvj.committed q r.body then (marked.giveBack q rt).txnDone q { rt with seq := 0 } .abortedReset 0
    else
      let lost : State := (marked.rebuildFlow q rt).txnDone q rt .lostMemory rt.seq |>.reportSlot q TStat.lostMemory.code rt.count rt.count
      let dcrc := match r.body with | .commit _ _ d .. => d | .member _ _ d .. => d | _ => 0
      let bcrc := match r.body with | .commit _ _ _ b .. => b | .member _ _ _ b .. => b | _ => 0
      if !kept then lost
      else
        match s.dmaRead (s.tqSlotAddr q rt.count) 64 with
        | none => lost
        | some b =>
          let t := { s.parseDesc q rt.count b with seq := rt.seq, flow := rt.flow, resumed := true }
          if t.dcrc ≠ dcrc then lost
          else if t.kind = 4 then (marked.txnOpen q t).copyDesc q t []
          else
            match s.withBuffer t with
            | none => lost
            | some t1 =>
              if t1.bcrc ≠ bcrc then lost
              else if s.expired t1 then (marked.rebuildFlow q t1).txnDone q t1 .expired t1.seq
              else
                let s1 := (marked.rebuildFlow q t1).txnOpen q t1
                if t1.kind = 6 then s1.parkOrSend q t1 [] else s1.emitTxn q t1 []

/-- The open COMMIT and MEMBER records of a log, oldest first, less those before a slot. -/
def Nvj.open_ (n : Nvj) (fromSlot : Nat) : List JRec :=
  n.live.filter fun r => r.body.txnCount.isSome && decide (fromSlot ≤ r.slot)

/-- A list of open records reported as LOST_BY_RESET (08 R232). -/
def State.reportLost (s : State) (rs : List JRec) : State :=
  rs.foldl (fun u r => u.reportSlot r.q TStat.lostByReset.code ((r.body.txnCount).getD 0) ((r.body.txnCount).getD 0)) s

/-- Records unreadable in both banks reported and treated as absent (08 R225, 14 R390). -/
def State.reportUnreadable (s : State) : State :=
  let bad := s.nvj.live.filter fun r => !r.okA && !r.okB
  (bad.foldl (fun u r => u.reportSlot 0xFFFF 0xFF (r.slot % nvjSlots) (r.slot % nvjSlots)) s).nvjEnd fun r => !r.okA && !r.okB

/-- The work of one enabled non-durable queue at a warm reset ended (08 R228, R234): prepared group members with ABORTED_RESET,
the rest of what was posted with LOST_BY_RESET; the queue is disabled. -/
def State.endNonDurable (s : State) (q : Nat) : State :=
  let ret := s.reg (Off.tqRetire q)
  let tail := s.reg (Off.tqTail q)
  let x := s.tq q
  let gone := x.done ++ x.waiting.map (·.1)
  let todo := (s.descsFrom q ret (cnt32 tail ret)).filter fun t => !gone.contains t.count
  let s1 := todo.foldl (fun u t =>
    if x.group.any fun m => m.count == t.count then u.txnDone q t .abortedReset 0
    else
      match s.openTxn q t.count with
      | some o => u.txnDone q o .lostByReset (o.value 0)
      | none => u.txnDone q t .lostByReset 0) s
  ((((s1.setReg (Off.tqHead q) tail).setFlag (Off.tqCfg q) 63 false).setHeld q none).onTq q fun t =>
    { t with opens := [], recvs := [], group := [] }).flowsClose q

/-- The members of a durable queue's group that were prepared and not committed at a warm reset (08 R228). -/
def State.endDurableGroup (s : State) (q : Nat) : State :=
  let ms := (s.tq q).group
  if ms.isEmpty then s
  else
    let s1 := ms.foldl (fun u m => u.giveBack q m) ((s.onTq q fun t => { t with group := [] }).headUp q ms.length)
    ms.foldl (fun u m => u.txnDone q { m with resumed := true } .abortedReset 0) s1

/-- The queues that exist in the state. -/
def State.queues (s : State) : List Nat := s.tqs.map (·.1)

/-- The start of the journal and of Tradewind at the end of a warm reset, or at a cold start (08 R232-R234, 18 R462, R468).
`kept` says that DRAM was kept. Source 531 is raised where a completion at resume names LOST_MEMORY or ABORTED_RESET (R238). -/
def State.twStart (s : State) (warm kept : Bool) : State :=
  let s0 := { s with svc := { s.svc with report := [] } }.setFlag Off.nvjStat 0 true
  let s1 := s0.reportUnreadable
  let n := s1.nvj
  let noResume := !warm && (match n.epoch with | some (3, slot) => decide (n.last ≤ slot) | _ => false)
  let run := fun (u : State) =>
    let v := { u.setFld Off.twStat 0 2 3 with twStopped := false }
    v.event 0xC 0 (v.queues.filter fun q => v.flag (Off.tqStat q) 0).length v.svc.report.length []
  if noResume then
    run ((s1.reportLost (n.open_ 0)).onNvj fun n => { n with live := [], epoch := none, last := 0, cold := none, off := [] })
  else
    let fromSlot := if warm then 0 else n.cold.getD 0
    let old := n.live.filter fun r => decide (r.slot < fromSlot)
    let s2 := (s1.reportLost (old.filter fun r => r.body.txnCount.isSome)).nvjEnd fun r => decide (r.slot < fromSlot)
    let marks_ := s2.nvj.live.filterMap fun r => match r.body with | .ndmark a b => some (r.q, a, b) | _ => none
    let s3 := if warm then s2 else marks_.foldl (fun u m =>
      if m.2.1 = m.2.2 then u else u.reportSlot m.1 TStat.lostByReset.code m.2.1 ((2 ^ 32 - 1 + m.2.2) % 2 ^ 32)) s2
    let s4 := s3.nvjEnd fun r => match r.body with | .ndmark .. => true | .epoch .. => true | _ => false
    let qs := (s4.nvj.live.map (·.q)).eraseDups
    let s5 := qs.foldl (fun u q =>
      match u.nvj.config q with
      | some w => (u.restoreQueue q w warm kept).endDurableGroup q
      | none => u) s4
    let s6 := (s5.nvj.open_ 0).foldl (fun u r => u.resumeOne kept r) s5
    let s7 := if warm then (s6.queues.filter fun q => s6.tqOn q && !s6.tqDurable q).foldl (fun u q => u.endNonDurable q) s6 else s6
    let lost := (s5.nvj.open_ 0).any fun r => !s5.nvj.committed r.q r.body
    let mem := s7.svc.report.any fun r => r.code == TStat.lostMemory.code
    run (if lost || mem then s7.raise 531 else s7)

/-- The warm reset's own part before the start (18 R468): engines stop; what was in flight is gone. -/
def State.twHalt (s : State) : State :=
  { s with twStopped := true, reasm := [], tqs := tblMap (fun _ t => { t with held := none }) s.tqs }

/-- A cold reset of Tradewind (08 R234): counts and per-slot state cleared; the flow-state areas, in memory, are kept where DRAM
is. -/
def State.twCold (s : State) : State :=
  { s with
    twStopped := true, reasm := [], tengs := [],
    tqs := tblMap (fun _ t => { TQueue.empty with flows := t.flows }) s.tqs }

/-- The marks of SAG_WARN (08 R235): dispatch stops, an NDMARK for each enabled non-durable queue with open descriptors, then
the EPOCH. -/
def State.twSag (s : State) : State :=
  let qs := s.queues.filter fun q => s.tqOn q && !s.tqDurable q && s.reg (Off.tqRetire q) != s.reg (Off.tqTail q)
  (qs.foldl (fun (u : State) q => (u.nvjWrite q (.ndmark (u.reg (Off.tqRetire q)) (u.reg (Off.tqTail q))) []).1)
    { s with twStopped := true }).nvjEpoch 2

end Sys2Proof.Machine
end

