-- ==== Sys2Proof/Machine/Supply.lean ====
section
/-! DEFINITION. The supply and temperature monitors (16 R428-R435): SAG_WARN with the write-back of durable lines, its end,
SAG_RESET, and the thermal thresholds. -/

namespace Sys2Proof.Machine

/-- A bit of PWR_HIST set (16 R437). -/
def State.history (s : State) (i : Nat) : State := s.setFlag Off.pwrHist i true

/-- The actions of 16 R429 steps 2 to 4: Tradewind stops and marks the journal, and every durable dirty line is written back. -/
def State.flushDurable (s : State) : State :=
  let s1 := s.setFlag Off.fprStat 2 false
  let s2 := s1.twSag
  let s3 := s2.writeBackAll s2.lineDurable
  (s3.setFlag Off.fprStat 1 false).setFlag Off.fprStat 2 true

/-- SAG_WARN (16 R429), where it is not active already. -/
def State.sagWarn (s : State) : State :=
  if s.flag Off.fprStat 0 then s
  else (((s.setFlag Off.fprStat 0 true).history 0).raise 736).flushDurable

/-- The retention record of 18 R466, after the journal's newest slot: every rank is in self-refresh. -/
def State.retain (s : State) : State := { s with chip := { s.chip with ret := some s.nvj.head } }

/-- THERM_SHUTDOWN (16 R435): source 739, the actions of R429, the retention record; then every island but the time island
stops, READY is released and ERR_N stays low. DEDUCED, log 32: the actions are steps 2 to 4 of R429. -/
def State.thermShutdown (s : State) (peak : Int) : State :=
  let s0 := s.raise 739
  let s1 := (if s0.errPin.low then s0 else s0.assertErrN 739).flushDurable.retain
  let s2 := (s1.setFld Off.pwrHist 32 16 (thermBits peak)).history 2
  { s2 with shutdown := true, ready := false }

/-- A rail of index 0 to 6 below 94 % of nominal for 100 ns (16 R429). -/
def execSagWarn (rail : Nat) (s : State) : Host.Outcome State Fault Refusal :=
  forUnit rail 7 s fun s => if s.shutdown then s else s.sagWarn

/-- Every rail of indices 0 to 6 at or above 96 % of nominal for 10 µs (16 R430): dispatch resumes (08 R235), but not after a
POWER_DOWN. -/
def execSagWarnClear (s : State) : Host.Outcome State Fault Refusal :=
  .next (
    if !s.flag Off.fprStat 0 || s.shutdown then s
    else { s.setFlag Off.fprStat 0 false with twStopped := s.chip.down })

/-- A rail of index 0 to 6 below 90 % of nominal for 100 ns (16 R431): source 737, and the warm reset is
asked for. -/
def execSagReset (rail : Nat) (s : State) : Host.Outcome State Fault Refusal :=
  forUnit rail 7 s fun s =>
    if s.shutdown then s
    else
      let s1 := (s.history 1).raise 737
      if s.ready then s1.askReset (.warm 737) else s1

/-- A set of readings of the sensors, in units of 0.125 °C (16 R434, R435). After a THERM_SHUTDOWN the readings only serve the
cold reset that waits for them. -/
def execThermSample (readings : List Int) (s : State) : Host.Outcome State Fault Refusal :=
  .next (
    let rs := readings.take 24
    let twice := s.thermTwice 0 rs
    let s1 := s.thermReads 0 rs
    if s.shutdown then s1
    else
      let s2 := if rs.isEmpty then s1 else s1.thermWarn rs
      if twice then s2.thermShutdown (thermPeak rs) else s2)

end Sys2Proof.Machine
end

