-- ==== Sys2Proof/Machine/Resets.lean ====
section
/-! DEFINITION. The resets below a cold one (18 R457-R469, with the tables of 02 R60, 07 R201, 09 R283, 10 R305, 11 R316, 12 R358,
13 R374, 14 R387, 15 R414, 16 R420, 19 R487): logical-processor restart, cluster reset, port block reset and chip warm reset. -/

namespace Sys2Proof.Machine

/-- The state of a logical processor after a restart or a cluster reset (18 R469). -/
def runReset (p : LP) : Run :=
  match p.run with
  | .empty => .empty
  | .lost => .lost
  | .debug => if p.was = .empty then .empty else .loaded
  | _ => .loaded

/-- A logical processor restarted (18 R469): the stores left in the drain domain stay. A restart of it alone keeps the L1 caches
(07 R201) and what is pending in the interrupt controller, whose registers only a cluster reset clears (03 R102). -/
def LP.restart (p : LP) (alone : Bool) : LP :=
  let q : LP := { LP.reset with run := runReset p, sb := p.sb }
  if alone then { q with l1d := p.l1d, l1i := p.l1i, invq := p.invq, timer := p.timer, swi := p.swi, lens := p.lens, err := p.err }
  else q

/-- A logical processor reset (18 R459, R469): its posts abandoned and its epoch stepped, its committed stores drained, its doorbell
set at its reset value (13 R374). -/
def State.lpReset (s : State) (n : Nat) (alone : Bool) : State :=
  let m := lpMaster n
  let s1 := ((s.senderReset m).onLp n fun p => { p with postWait := none }).drainAll n
  let s2 := (s1.onLp n fun p => p.restart alone).receiverReset m
  { s2 with errHeld := s2.errHeld.filter fun e => e.1 / 4 != n }

/-- A logical-processor restart (18 R469, 11 R330): ERR_LPEN and LENS_SLOT_CTRL cleared, the timer disabled. -/
def State.lpRestart (s : State) (n : Nat) : State :=
  let s1 := s.lpReset n true
  if 96 ≤ n then s1
  else
    let c := n / 6
    let k := n % 6
    ((s1.setReg (Off.errLpen c k) 0).setReg (Off.lensSlotCtrl c k) 0).setFlag (Off.tmrCtrl c k) 63 false

/-- A logical-processor restart asked for by Yafolo (18 R457), where the logical processor exists. -/
def execLpRestart (lp : Nat) (s : State) : Host.Outcome State Fault Refusal :=
  forLp lp s fun s => if s.lpExists lp && !s.shutdown then s.lpRestart lp else s

/-- A reset that was asked for taken up. -/
def State.resetTaken (s : State) (r : ResetReq) : State := { s with resetReqs := s.resetReqs.filter (· != r) }

/-- Whether a reset register class is cleared by a cluster reset. -/
def ResetCls.ofCluster : ResetCls → Bool
  | .restart => true
  | .block => true
  | _ => false

/-- Whether a register belongs to the host port, whose block reset is its own. -/
def RegName.ofHost : RegName → Bool
  | .hpStat => true
  | .hpDlog => true
  | _ => false

/-- A cluster reset (18 R469, 02 R60, R64): its range engine aborted, its logical processors reset, its registers cleared, its pairs
formed from the sparing map. The L2 and its locks are kept (07 R201). -/
def State.clusterReset (s : State) (c : Nat) : State :=
  let s1 := s.rmAbort (.cluster c)
  let s2 := (List.range (s1.slots c)).foldl (fun (t : State) k => t.lpReset (6 * c + k) false) s1
  let s3 := s2.clearRegs fun d ix => d.cls.ofCluster && !d.name.ofHost && ix.headD 16 == c
  let s4 := (List.range 3).foldl (fun (t : State) k =>
    t.onPair (3 * c + k) fun q => { q with attempts := [], skewHold := false, cmpOff := false }) s3
  s4.clusterForm c

/-- A cluster reset (18 R457, R458): absorbed by a wider reset in progress. -/
def execClusterReset (c : Nat) (s : State) : Host.Outcome State Fault Refusal :=
  forUnit c 16 s fun s =>
    if !s.ready || s.underTest c then s else (s.resetTaken (.cluster c)).clusterReset c

/-- The block reset of a port (16 R421, 18 R457): its registers, which only a warm reset clears, are kept; it loses lock, its link
goes down, and the frames that it holds go back (09 R280). DEDUCED, log 69. -/
def State.portBlockReset (s : State) (p : Nat) : State :=
  let s1 := s.lockLost p
  match s1.linkOfPort p with
  | some l => s1.setFlag (Off.lnkStat l) (4 + (p - l)) false
  | none => s1

/-- The block reset that a reaction asks for at a port (16 R421): of the port; or, where it asks for the link that begins at the
port, the retraining of that link. -/
def execPortBlockReset (p : Nat) (s : State) : Host.Outcome State Fault Refusal :=
  forUnit p 128 s fun s =>
    if !s.ready then s
    else if s.resetReqs.contains (.link p) then (s.resetTaken (.link p)).linkDown p 1
    else (s.resetTaken (.port p)).portBlockReset p

/-- The committed stores of a logical processor drained for 2 µs (18 R459, R468 step 3): how many drain in that time is a free value
(log 70); the rest is discarded. Also how many were discarded. -/
def State.warmDrain (s : State) (n : Nat) : State × Nat :=
  let k := 2 * (s.lp n).sb.length
  let (f, s1) := s.fresh
  let s2 := s1.drainFor n (f % (k + 1))
  (s2, (s2.lp n).sb.length)

/-- Step 3 of a warm reset: every drain engine, and the entries lost in all. -/
def State.warmDrains (s : State) : State × Nat :=
  (s.lps.map (·.1)).foldl (fun (a : State × Nat) n =>
    let (t, k) := a.1.warmDrain n
    (t, a.2 + k)) (s, 0)

/-- Every cache emptied and unlocked (07 R201): dirty content not written back is lost; the count of exhausted spares stays, and a way
retirement in progress is abandoned (R199). -/
def State.cachesDrop (s : State) : State :=
  let lines := (s.underL2.map (·.1) ++ s.underSc.map (·.1)).eraseDups
  let s1 := lines.foldl (fun (t : State) l => t.allDiscard l) s
  { s1 with
    l2 := tblMap (fun _ c => { Cache.empty with exhausted := c.exhausted }) s1.l2
    sc := tblMap (fun _ c => { Cache.empty with exhausted := c.exhausted }) s1.sc
    underL2 := [], underSc := [] }

/-- The range engines that are busy aborted (07 R190, R201). -/
def State.rmAbortAll (s : State) : State :=
  let s1 := (List.range 16).foldl (fun (t : State) c => t.rmAbort (.cluster c)) s
  (List.range 4).foldl (fun (t : State) h => t.rmAbort (.hub h)) s1

/-- The logical processors after a warm reset: EMPTY, but LOST stays LOST (02 R56); the control processors run again. -/
def State.lpsWarm (s : State) : State :=
  { s with lps := tblMap (fun n p =>
      { LP.reset with run := if p.run = .lost then .lost else if 96 ≤ n then .running else .empty }) s.lps }

/-- Whether a channel has a host function at an end (13 R374). -/
def State.hostBound (s : State) (ch : Nat) : Bool := decide (s.bindSender ch < 0x40) || decide (s.bindReceiver ch < 0x40)

/-- The mailbox block at a warm reset (13 R374): only host-bound stores keep their messages, staging words are gone, and the epoch of
every master ID but a host function's steps. -/
def State.mailWarm (s : State) : State :=
  { s with
    chans := tblMap (fun ch c => { c with store := if s.hostBound ch then c.store else [], staging := [], blocking := none }) s.chans
    epochs := (s.epochs.filter fun e => decide (e.1 < 0x40)) ++
      (List.range 0xFC0).map fun i => (0x40 + i, (s.epoch (0x40 + i) + 1) % 16)
    reqs := s.reqs.filter fun e => decide (e.1 < 0x40)
    dbIn := [], dbAt := [], errAt := [], errHeld := [] }

/-- RT_SELF, the root priority and the domain tables restored from the service area (10 R305). -/
def State.identRestore (s : State) : State :=
  let s1 := match s.svc.ident with
    | some (domain, _, member, valid) => s.setReg Off.rtSelf (bit01 (valid != 0) * 2 ^ 31 + domain * 1024 + member)
    | none => s
  s1.svc.domains.foldl (fun (t : State) e => t.setReg (Off.rtDomain e.1) e.2) s1

/-- The set points of the compute dies' supplies in RAIL_MON (18 R455). -/
def State.railsSet (s : State) : State :=
  (List.range 4).foldl (fun (t : State) i => t.setFld (Off.railMon i) 32 16 (650 + Config.avsSetPoint i % 201)) s

/-- RST_STAT at a warm reset (18 R471). -/
def State.rstWarm (s : State) (cause src lost : Nat) : State :=
  let n := satAdd (s.fld Off.rstStat 32 16) 1 0xFFFF
  (((s.setFld Off.rstStat 0 4 cause).setFld Off.rstStat 8 10 src).setFld Off.rstStat 32 16 n).setFld Off.rstStat 48 16 (min lost 0xFFFF)

/-- Whether a register keeps its value over a warm reset: by its header line (00 R10), and the host port's own (15 R414). -/
def RegDesc.overWarm (d : RegDesc) : Bool :=
  d.name.ofHost || (match d.cls with | .cold => true | .aon => true | .never => true | _ => false)

/-- The islands held in reset (18 R468 step 5): registers, ports, links, Lens, pairs and the rest of their state. -/
def State.warmClear (s : State) : State :=
  let s1 := s.clearRegs fun d _ => !d.overWarm
  { s1 with
    pairs := [], lens := [], ports := [], ddts := [], streams := [], subs := [], pubs := [], cages := [], links := [], form := []
    resetReqs := [], errPin := ⟨false, 0, false⟩, thermSeen := 0, cp1Serves := (s1.lp 96).run == .lost
    time := { s1.time with copies := [] }
    yaf := { s1.yaf with images := [], muted := [] }
    chip := { s1.chip with bist := none, freezeOn := false, bootKind := 2 } }

/-- A chip warm reset (18 R468), its steps in order, from the request to READY. -/
def State.warmReset (s : State) (cause src : Nat) : State :=
  let s1 := ({ s with ready := false } : State).nvjEpoch 1
  let (s2, lost) := s1.twHalt.warmDrains
  let s3 := s2.writeBackAll s2.lineDurable
  let s4 := s3.retain.rmAbortAll.cachesDrop.lpsWarm.mailWarm
  let s5 := (s4.poolsWarm.warmClear.rstWarm cause src lost).identRestore.railsSet
  let s6 := (s5.mapApply).twStart true true
  ({ s6 with ready := true } : State).yafAbort.actHeld true

/-- The warm reset that a source's reaction (5) or the RESET command (6) has asked for: its source, 0x3FF for the command. -/
def State.warmAsked (s : State) (cause : Nat) : Option Nat :=
  s.resetReqs.findSome? fun r => match r with
    | .warm n => if (cause = 5 ∧ n < 768) ∨ (cause = 6 ∧ 768 ≤ n) then some (if n < 768 then n else 0x3FF) else none
    | _ => none

/-- A warm reset by WARM_RESET_N (4), a fault reaction (5) or the RESET command (6) (18 R457, R458): before READY it is ignored. -/
def execWarmReset (cause : Nat) (s : State) : Host.Outcome State Fault Refusal :=
  if cause < 4 ∨ 6 < cause then .refused .noSuchUnit
  else .next (
    let src := if cause = 4 then some 0x3FF else s.warmAsked cause
    match src with
    | none => s
    | some n =>
      if s.shutdown then s
      else if !s.ready then s.setFlag Off.rstStat 18 true
      else s.warmReset cause n)

end Sys2Proof.Machine
end

