-- ==== Sys2Proof/Machine/Boot.lean ====
section
/-! DEFINITION. Cold reset, cold boot, and power (18 R455-R467, 17 R446, 02 R61, 19 R474): what each clears, the steps from t0 to
READY, and the fate of DRAM. -/

namespace Sys2Proof.Machine

/-- What is lost at a cold reset or with power: everything but the queue of commands, the journal and the service area, the fuses,
memory as DRAM holds it, and the records of the chip's life. `aon` says that VDD_AON was down, so that PWR_HIST and RST_STAT (18
R471) and the timebase (11 R316) start again. -/
def State.coldClear (s : State) (aon : Bool) : State :=
  let d := s.cachesDrop
  let c := s.chip
  { State.reset with
    pending := s.pending, freeCount := s.freeCount, resp := s.resp, out := s.out
    regs := s.regs.filter fun e => match regAt e.1 with
      | some (x, _) => (match x.cls with | .never => true | .aon => !aon | _ => false)
      | none => false
    mem := d.mem, poison := d.poison, installed := s.installed, nvj := s.nvj
    svc := { s.svc with ident := none, domains := [] }
    tqs := s.twCold.tqs, twStopped := true
    pools := s.poolsCold.pools
    time := if aon then ⟨0, 0, 0, []⟩ else { s.time with slew := 0, copies := [] }
    chip := { Chip.empty with
      ret := c.ret, down := false, dramKeep := c.dramKeep, repaired := c.repaired, ppr := c.ppr, lifeFrac := c.lifeFrac
      running := c.running, next := c.next, valid := c.valid, vers := c.vers } }

/-- The phase of the boot (18 R471). -/
def State.phase (s : State) : Nat := s.fld Off.bootStat 4 4

/-- RST_STAT at a cold reset (18 R471). -/
def State.rstCold (s : State) (cause : Nat) : State :=
  ((s.setFld Off.rstStat 0 4 cause).setFld Off.rstStat 8 10 0x3FF).setFld Off.rstStat 32 16 0

/-- A cold reset (18 R457): where the device was out of cold reset an EPOCH of kind COLD comes first (08 R232), but not at the end of
a THERM_SHUTDOWN. -/
def State.coldReset (s : State) (cause : Nat) : State :=
  if s.shutdown then (s.coldClear false).rstCold 7
  else
    let s1 := if s.ready || s.phase == 0xF then s.nvjEpoch 3 else s
    (s1.coldClear false).rstCold cause

/-- A cold reset by PWR_GOOD_IN (1), RESET_IN_N (2), the RESET command (3), or one that ends a THERM_SHUTDOWN (7) (18 R457, R458, 16
R435): during a shutdown it waits until every sensor reads below 115 °C. -/
def execColdReset (cause : Nat) (s : State) : Host.Outcome State Fault Refusal :=
  if cause = 0 ∨ 7 < cause ∨ (4 ≤ cause ∧ cause ≤ 6) then .refused .noSuchUnit
  else .next (
    if s.shutdown then
      if (List.range 24).all fun i => decide (thermVal (s.fld (Off.therm i) 0 16) < 920) then s.coldReset 7
      else s.askReset (.cold 7)
    else if cause = 7 ∨ (cause = 3 ∧ !s.resetReqs.contains (.cold 3)) then s
    else s.coldReset cause)

/-- The effective CLUSTER_SPLIT mask (18 R461). -/
def splitMask (b : BootInput) : Nat := (b.split ||| Config.splitFuse).toNat

/-- Step 1 of 18 R462: the straps. -/
def State.bootStraps (s : State) (b : BootInput) : State :=
  let clk := if b.clkSel.toNat = 3 then 0 else b.clkSel.toNat
  let s1 := ({ s with split := splitMask b, chip := { s.chip with dramKeep := b.dramKeep } } : State).setReg Off.bootStat
    (splitMask b * 65536 + clk * 2 ^ 14)
  if b.testMode = 0 then s1 else (s1.setFlag Off.fprStat 4 true).raise 750

/-- A phase of the boot shown. -/
def State.phaseSet (s : State) (p : Nat) : State := s.setFld Off.bootStat 4 4 p

/-- A boot that fails (18 R463): phase FAILED, ERR_N asserted, READY released. The source that ERR_PIN then names is a free value. -/
def State.bootFail (s : State) : State :=
  let (f, s1) := (s.phaseSet 0xF).fresh
  s1.assertErrN f

/-- Step 4 of 18 R462: the image of the slot named next, or of the other one; none where both fail. -/
def State.bootImage (s : State) (b : BootInput) : Option State :=
  let ok := fun i => if i = 0 then b.imageA else b.imageB
  let n := s.chip.next
  let run := fun (t : State) (i : Nat) =>
    ({ t with chip := { t.chip with running := i } } : State).setFlag Off.bootStat 8 (i == 1)
  if ok n then some (run s n)
  else if ok (1 - n) then some (((run s (1 - n)).setFlag Off.bootStat 9 true).raise 748)
  else none

/-- The failing bits of a cluster that are spares not in use: these are condemned without another (18 R463). -/
def idleSpares (s : State) (c v : Nat) : List (Nat × Nat) :=
  let t := s.clusterForm c
  let m := s.waymapOf 3 c
  let cores := [6, 7].filter fun n => bitOf v n && t.fld (Off.cmpSpare c) (2 * (n - 6)) 2 == 0
  let slices := [3].filter fun j => bitOf v (8 + j) && t.fld (Off.cmpSpare c) 4 2 == 0
  let ways := [16, 17].filter fun w => bitOf v (13 + w) && !bitOf m w && bits m (if w = 16 then 32 else 40) 5 == 0x1F
  cores.map (fun n => (1, n)) ++ slices.map (fun j => (2, j)) ++ ways.map fun w => (3, w)

/-- The bits of BIST_FAIL of a list of units. -/
def unitBits (us : List (Nat × Nat)) : Nat :=
  us.foldl (fun k u => k + 2 ^ (if u.1 = 1 then u.2 else if u.1 = 2 then 8 + u.2 else 13 + u.2)) 0

/-- The quick BIST's verdict on one cluster (18 R463): failing units are condemned and spared; a cluster with no spare stays
offline. -/
def State.bootCluster (s : State) (c : Nat) (fail : BitVec 31) : State :=
  let v := s.bistCounts 2 c fail
  let idle := idleSpares s c v
  let rest := v - unitBits idle
  let s1 := idle.foldl (fun (t : State) u => t.spareOut u.1 c u.2) s
  if s1.clusterSpares c rest then s1.clusterCondemn c rest
  else ({ s with chip := { s.chip with offline := setBit s.chip.offline c true } } : State).setFlag Off.bootStat 10 true

/-- A failing engine at the quick BIST (18 R463): numbers 0 to 17 Tradewind, 18 to 53 Prism, 54 to 89 cipher. -/
def State.bootEngine (s : State) (i : Nat) : State :=
  if 90 ≤ i then s
  else
    let kind := if i < 18 then 5 else if i < 54 then 6 else 7
    let unit := if i < 18 then i else if i < 54 then i - 18 else i - 54
    let serving := if i < 18 then 16 else 32
    let total := if i < 18 then 18 else 36
    let left := (List.range total).filter fun e => !s.condemned kind 0 e && e != unit
    let source := if i < 18 then 512 + unit else if i < 54 then 544 + unit else 580 + unit
    if s.condemned kind 0 unit then s
    else if unit < serving then s.condemn kind 0 unit source (decide (serving ≤ left.length))
    else s.spareOut kind 0 unit

/-- Steps 5 and 6 of 18 R462: the quick BIST and the comparator test. -/
def State.bootTests (s : State) (b : BootInput) : State :=
  let s1 := b.bistFail.foldl (fun (t : State) x => if x.1 < 16 then t.bootCluster x.1 x.2 else t) s
  let s2 := b.engineFail.foldl (fun (t : State) i => t.bootEngine i) s1
  (List.range 16).foldl (fun (t : State) c =>
    t.cmpTestRun c ((b.cmpFail.filter fun x => x.1 == c).map fun x => (x.2.1, x.2.2))) s2

/-- Whether DRAM contents are kept (18 R465). -/
def State.dramKept (s : State) (b : BootInput) : Bool :=
  (b.dramKeep || s.fld Off.rstStat 0 4 == 7) && b.serialsMatch &&
    (match s.nvj.epoch, s.chip.ret with
      | some (kind, slot), some r => (kind == 1 || kind == 2 || kind == 4) && decide (slot < r)
      | _, _ => false)

/-- A queued row repaired during training, at most one for each bank group (17 R440, R442); without a repair row it stays queued. -/
def State.rowRepair (s : State) (c place : Nat) : State :=
  let key := (c, place / 32 % 8 * 8 + placeHalf place)
  if s.chip.ppr.contains key then (s.dramEvent c 6 place 0 2).spareGone 11 (616 + 4 * c + 2)
  else
    let s1 : State := { s with
      chip := { s.chip with ppr := s.chip.ppr ++ [key], repaired := tblSet s.chip.repaired c (tblGetD s.chip.repaired c 0 + 1) }
      svc := { s.svc with rows := s.svc.rows.filter fun r => r != (c, place) } }
    (s1.dramSpareShow c).dramEvent c 5 place 0 2

/-- Step 7 of 18 R462: training, with modules replaced, rows repaired, and the contents kept or initialised (R465, R467). -/
def State.bootDram (s : State) (b : BootInput) (kept : Bool) : State :=
  let s1 : State := if b.serialsMatch then s
    else { s with svc := { s.svc with marks := [], rows := [] }, chip := { s.chip with repaired := [], ppr := [] } }
  let s2 := b.dramFail.foldl (fun (t : State) c => if c < 16 then t.dramEvent c 7 0 0 3 else t) { s1 with installed := b.installed }
  let s3 := s2.svc.rows.foldl (fun (t : State) r => t.rowRepair r.1 r.2) s2
  if kept then (s3.setReg Off.dramInit (2 ^ 63 + b.installed / 64 * 64)).setFlag Off.bootStat 11 true
  else { s3 with mem := s3.mem.filter fun e => decide (hostBase ≤ e.1), poison := s3.poison.filter fun l => decide (hostBase ≤ l),
                 tqs := tblMap (fun _ t => { t with flows := [] }) s3.tqs }

/-- Steps 8 to 10 of 18 R462: resume, bindings, READY. -/
def State.bootReady (s : State) (kept : Bool) : State :=
  let s1 := (s.phaseSet 5).twStart false kept
  let s2 := ((s1.onLp 96 fun p => { p with run := .running }).onLp 97 fun p => { p with run := .running }).phaseSet 6
  ({ s2 with ready := true, chip := { s2.chip with bootKind := if kept then 3 else 1 } } : State).actHeld false

/-- A cold boot (18 R462, R463), from cold reset only. The channels of Yafolo are bound first, since nothing runs until READY and an
event of the boot waits in them. -/
def State.coldBoot (s : State) (b : BootInput) : State :=
  let s1 := (s.bindChannels.bootStraps b).railsSet
  let s2 := (s1.mapMerge b.nvjCopyOk b.fuseReadOk).phaseSet 1
  match s2.bootImage b with
  | none => s2.bootFail
  | some s3 =>
    if !b.bistHubOk then (s3.phaseSet 2).bootFail
    else
      let kept := s3.dramKept b
      let s4 := ((s3.phaseSet 3).bootTests b).phaseSet 4
      ((s4.bootDram b kept).mapApply).bootReady kept

@[inherit_doc State.coldBoot]
def execColdBoot (b : BootInput) (s : State) : Host.Outcome State Fault Refusal :=
  .next (if s.ready || s.shutdown || s.phase == 0xF then s else s.coldBoot b)

/-- The DRAM initialiser is done (18 R467). -/
def execDramInitDone (s : State) : Host.Outcome State Fault Refusal :=
  .next (if s.phase = 6 ∧ !s.flag Off.dramInit 63 then s.setReg Off.dramInit (2 ^ 63 + s.installed / 64 * 64) else s)

/-- VDD_AON enters its operating range (11 R316, 18 R455, R471): the device is in cold reset, the timebase starts from 0. -/
def execVddAonPowerUp (s : State) : Host.Outcome State Fault Refusal := .next (s.coldClear true)

/-- The rails are removed (18 R456): what is volatile is lost, and DRAM unless it is kept in self-refresh. -/
def execPowerLoss (dramKept : Bool) (s : State) : Host.Outcome State Fault Refusal :=
  .next (
    let s1 := s.coldClear true
    if dramKept then s1 else { s1 with mem := s1.mem.filter fun e => decide (hostBase ≤ e.1) })

end Sys2Proof.Machine
end

