-- ==== Sys2Proof/Machine/Flags.lean ====
section
/-! DEFINITION. The flags of PS and every flag computation of the integer families (03 R71, 04 R109, R111, R112, R113). Values
are numbers below 2^w. -/

namespace Sys2Proof.Machine

/-- The four flags n, z, v, c. -/
structure Flags where
  n : Bool
  z : Bool
  v : Bool
  c : Bool
  deriving DecidableEq, Repr

/-- The flags in PS [3:0] (03 R71). -/
def psFlags (ps : BitVec 32) : Flags :=
  ⟨bitOf ps.toNat 3, bitOf ps.toNat 2, bitOf ps.toNat 1, bitOf ps.toNat 0⟩

/-- PS with its flags replaced. -/
def psSetFlags (ps : BitVec 32) (f : Flags) : BitVec 32 :=
  BitVec.ofNat 32 (setBits ps.toNat 0 4 (8 * bit01 f.n + 4 * bit01 f.z + 2 * bit01 f.v + bit01 f.c))

/-- The privilege level (03 R71): 0 machine, 1 kernel, 2 task. -/
def psPriv (ps : BitVec 32) : Nat := bits ps.toNat 4 2

/-- The sign of a w-bit value. -/
def sgn (w x : Nat) : Bool := bitOf x (w - 1)

/-- ADD and ADC (04 R111): the result and its flags. -/
def addFam (w a b cin : Nat) : Nat × Flags :=
  let r := (a + b + cin) % 2 ^ w
  (r, ⟨sgn w r, r == 0, (sgn w a == sgn w b) && (sgn w r != sgn w a), decide (2 ^ w ≤ a + b + cin)⟩)

/-- SUB, CMP and SBC (04 R111): the result and its flags. -/
def subFam (w a b bin : Nat) : Nat × Flags :=
  let r := wrapInt ((a : Int) - b - bin) w
  (r, ⟨sgn w r, r == 0, (sgn w a != sgn w b) && (sgn w r != sgn w a), decide (a < b + bin)⟩)

/-- The flags of a logical result: n and z from it, v and c zero. -/
def logicFlags (w r : Nat) : Flags := ⟨sgn w r, r == 0, false, false⟩

/-- SHL (04 R112). -/
def shlFam (w a b : Nat) : Nat × Flags :=
  let r := if b ≤ w then a * 2 ^ b % 2 ^ w else 0
  (r, ⟨sgn w r, r == 0, false, b != 0 && decide (b ≤ w) && bitOf a (w - b)⟩)

/-- SHR (04 R112). -/
def shrFam (w a b : Nat) : Nat × Flags :=
  let r := if b ≤ w then a / 2 ^ b else 0
  (r, ⟨sgn w r, r == 0, false, b != 0 && decide (b ≤ w) && bitOf a (b - 1)⟩)

/-- SAR (04 R112). -/
def sarFam (w a b : Nat) : Nat × Flags :=
  let n := if b ≤ w then b else w
  let r := wrapInt (signed a w / (2 ^ n : Nat)) w
  (r, ⟨sgn w r, r == 0, false, b != 0 && (if b ≤ w then bitOf a (b - 1) else sgn w a)⟩)

/-- ROT (04 R112): left by b mod w. -/
def rotFam (w a b : Nat) : Nat × Flags :=
  let n := b % w
  let r := (a * 2 ^ n + a / 2 ^ (w - n)) % 2 ^ w
  (r, ⟨sgn w r, r == 0, false, n != 0 && bitOf r 0⟩)

/-- MUL (04 R112): the low w bits of the signed product; v and c when it does not fit. -/
def mulFam (w a b : Nat) : Nat × Flags :=
  let p := signed a w * signed b w
  let r := wrapInt p w
  let o := decide (signed r w ≠ p)
  (r, ⟨sgn w r, r == 0, o, o⟩)

/-- DIV by a divisor that is not zero (04 R112): toward zero; v for −2^(w−1) by −1. -/
def divFam (w a b : Nat) : Nat × Flags :=
  let q := (signed a w).tdiv (signed b w)
  let r := wrapInt q w
  (r, ⟨sgn w r, r == 0, decide (signed r w ≠ q), false⟩)

/-- DIVU by a divisor that is not zero. -/
def divuFam (w a b : Nat) : Nat × Flags :=
  let r := a / b
  (r, ⟨sgn w r, r == 0, false, false⟩)

/-- REM.Q by a divisor that is not zero (04 R112): the sign of the dividend. -/
def remFam (w a b : Nat) : Nat × Flags :=
  let r := wrapInt ((signed a w).tmod (signed b w)) w
  (r, logicFlags w r)

/-- REMU.Q by a divisor that is not zero. -/
def remuFam (w a b : Nat) : Nat × Flags := (a % b, logicFlags w (a % b))

/-- A condition of 04 R109. -/
def condHolds (k : Nat) (f : Flags) : Bool :=
  match k with
  | 0x0 => true
  | 0x1 => f.z
  | 0x2 => !f.z
  | 0x3 => f.c
  | 0x4 => !f.c
  | 0x5 => f.n
  | 0x6 => !f.n
  | 0x7 => f.v
  | 0x8 => !f.v
  | 0x9 => !f.c && !f.z
  | 0xA => f.c || f.z
  | 0xB => f.n == f.v
  | 0xC => f.n != f.v
  | 0xD => !f.z && f.n == f.v
  | 0xE => f.z || f.n != f.v
  | _ => false

end Sys2Proof.Machine
end

