-- ==== Sys2Proof/Machine/Ops.lean ====
section
/-! DEFINITION. The named operations of a logical processor: the region check (03 R89-R91), reads and writes of memory through
the store buffer and the L1 (06 R153-R160), the workspace (03 R73-R75), taking a trap or an interrupt (R94-R101) and
returning from one (R100), and the commit of an instruction (02 R40, 06 R170). -/

namespace Sys2Proof.Machine

/-- A trap or an event to take (03 R94, R98): vector, detail, operand index, fault address, whether imprecise, and the
frame's PC where it is not the trapping instruction. -/
structure Trap where
  vec   : Nat
  detail : Nat
  opIdx : Nat
  fault : Nat
  imprecise : Bool
  resume : Option Nat
  deriving DecidableEq, Repr

/-- A trap with a detail. -/
def mkTrap (vec detail opIdx fault : Nat) : Trap := ⟨vec, detail, opIdx, fault, false, none⟩

/-- ILLEGAL_OPERAND with a detail of 03 R86 and the index of its operand. -/
def illegal (detail idx : Nat) : Trap := mkTrap 0x04 detail idx 0

/-- No trap at all: the instruction waits, as it stands, for the store buffer (13 R368). -/
def waitTrap : Trap := mkTrap 0xFF 0 0 0

/-- The kinds of access that R90 checks. -/
inductive Access where | read | write | exec | atomic
  deriving DecidableEq, Repr

/-- Entry `i` of a region table. -/
def LP.region (p : LP) (i : Nat) : BitVec 64 × BitVec 64 := tblGetD p.rt i (0, 0)

/-- The first byte of an entry's region. -/
def regionBase (e : BitVec 64 × BitVec 64) : Nat := bits e.1.toNat 12 40 * 4096
/-- The last byte of an entry's region. -/
def regionLast (e : BitVec 64 × BitVec 64) : Nat := bits e.2.toNat 12 40 * 4096 + 4095
/-- The type field. -/
def regionType (e : BitVec 64 × BitVec 64) : Nat := bits e.1.toNat 1 2

/-- Whether an entry matches an address (03 R90). -/
def regionMatches (e : BitVec 64 × BitVec 64) (a : Nat) : Bool :=
  bitOf e.1.toNat 0 && regionType e != 3 && decide (regionBase e ≤ a) && decide (a ≤ regionLast e)

/-- The entry of lowest index that matches (03 R90). -/
def LP.findRegion (p : LP) (a : Nat) : Option (BitVec 64 × BitVec 64) :=
  ((List.range 64).map p.region).find? fun e => regionMatches e a

/-- A permission of a level: bit 0 read, 1 write, 2 execute (03 R89). -/
def regionPerm (e : BitVec 64 × BitVec 64) (level bit : Nat) : Bool :=
  bitOf e.2.toNat ((if level = 0 then 6 else if level = 1 then 3 else 0) + bit)

/-- The memory type that a type field names. -/
def memTypeOf (t : Nat) : MemType := if t = 0 then .wb else if t = 1 then .nc else .device

/-- The check of every access (03 R90): the memory type, or the detail of REGION. -/
def LP.check (p : LP) (a size : Nat) (k : Access) (level : Nat) : Except Nat MemType :=
  if 2 ^ 52 ≤ a then .error 6
  else match p.findRegion a with
    | none => .error 1
    | some e =>
      if regionLast e < a + size - 1 then .error 2
      else if (k = .read ∨ k = .atomic) ∧ !regionPerm e level 0 then .error 3
      else if (k = .write ∨ k = .atomic) ∧ !regionPerm e level 1 then .error 4
      else if k = .exec ∧ !regionPerm e level 2 then .error 5
      else .ok (memTypeOf (regionType e))

/-- The check with its trap: REGION, the operand's index and the address. -/
def LP.checkOp (p : LP) (a size : Nat) (k : Access) (level idx : Nat) : Except Trap MemType :=
  match p.check a size k level with
  | .ok t => .ok t
  | .error d => .error (mkTrap 0x06 d idx a)

/-- The current level. -/
def LP.level (p : LP) : Nat := psPriv p.ps

/-- A read through the L1 and the store buffer (06 R159, R160): each byte from the youngest entry that holds it, else the
former content that a stale L1 line gives, else memory. -/
def State.readByte (s : State) (n a : Nat) : Byte :=
  match sbByte (s.lp n).sb a with
  | some b => b
  | none =>
    match (s.lp n).l1d.staleOf (lineOf a) with
    | some c => c.getD (a % 64) 0
    | none => memGet s.mem a

/-- The bytes of a normal-memory load. -/
def State.readBytes (s : State) (n a : Nat) : Nat → List Byte
  | 0 => []
  | k + 1 => s.readByte n a :: s.readBytes n (a + 1) k

/-- Whether every byte of a range is held in the store buffer. -/
def sbHolds (sb : List SbEntry) (a n : Nat) : Bool := (List.range n).all fun i => (sbByte sb (a + i)).isSome

/-- A NORMAL-WB load's misses asked for (07 R181) and counted (19 R488). -/
def State.missFills (s : State) (n a size : Nat) : State :=
  (linesOf a size).foldl (fun t l =>
    if (t.lp n).l1d.hasD l then
      t.onLp n fun p => { p with l1d := p.l1d.fill 8 3 128 l }
    else (t.askFill n l 0).countLp n 10 1) s

/-- A load of `size` bytes of a checked type (06 R153-R160): none is a bus error (01 R22, R23, 07 R195). A load of normal
memory that finds some of its bytes in the store buffer waits for those entries; a DEVICE load waits for every entry. A
16-byte DEVICE load of the register window is two accesses of 8 bytes (06 R156). -/
def State.load (s : State) (n a size : Nat) (t : MemType) : Option (State × Nat) :=
  match t with
  | .device =>
    let s1 := s.drainAll n
    match s1.rangeKind a size with
    | some .regs =>
      let m := lpMaster n
      let pr := (s1.lp n).level
      if size = 16 then
        match readReg s1 m pr (regOff a) 8 with
        | none => none
        | some (s2, lo) =>
          match readReg s2 m pr (regOff (a + 8)) 8 with
          | none => none
          | some (s3, hi) => some (s3, lo + 2 ^ 64 * hi)
      else readReg s1 m pr (regOff a) size
    | some .dram => if s1.poisoned a size then none else some (s1, leNat (s1.agentRead a size))
    | some .host => if s1.hostOk then some (s1.countHub 2 6 1, leNat (s1.agentRead a size)) else none
    | _ => none
  | _ =>
    let held := sbHolds (s.lp n).sb a size
    let s1 := if held then s.countLp n 11 1 else s.drainPast n a size (2 * (s.lp n).sb.length)
    let ok : Bool := match s1.rangeKind a size with
      | some .dram => !s1.poisoned a size
      | some .host => s1.hostOk && !s1.poisoned a size
      | _ => false
    if held then some (s1, leNat (s1.readBytes n a size))
    else if !ok then none
    else match t with
      | .wb => some (s1.missFills n a size, leNat (s1.readBytes n a size))
      | _ => some (s1, leNat (s1.agentRead a size))

/-- The bytes of a store cut at every aligned 8 bytes (04 R134). -/
def cutStore (a : Nat) (bs : List Byte) : Nat → List (Nat × List Byte)
  | 0 => []
  | fuel + 1 =>
    if bs.isEmpty then []
    else
      let k := 8 - a % 8
      (a, bs.take k) :: cutStore (a + k) (bs.drop k) fuel

/-- One entry put in the store buffer; with 32 entries held, the store waits for the oldest to retire (04 R134). -/
def State.push (s : State) (n : Nat) (e : SbEntry) : State :=
  let s1 := if 32 ≤ (s.lp n).sb.length then (s.drainOne n).1 else s
  s1.onLp n fun p => { p with sb := p.sb ++ [e] }

/-- The bytes of the workspace file that a store overlaps, written there too (03 R73). -/
def LP.mirror (p : LP) (a : Nat) : List Byte → LP
  | [] => p
  | b :: t =>
    let p1 := if p.wp.toNat ≤ a ∧ a < p.wp.toNat + 256 then { p with wfile := memSet p.wfile (a - p.wp.toNat) b } else p
    p1.mirror (a + 1) t

/-- A store committed to the store buffer (02 R40, 04 R134, 03 R73), one entry for each aligned 8 bytes. -/
def State.store (s : State) (n a : Nat) (t : MemType) (bs : List Byte) : State :=
  let s1 := (cutStore a bs bs.length).foldl (fun u e =>
    u.push n ⟨.store t, e.1, e.2, (u.lp n).level, false⟩) s
  s1.onLp n fun p => p.mirror a bs

/-- Bytes of the workspace file, as a number (03 R75). -/
def LP.wread (p : LP) (off size : Nat) : Nat := leNat (memBytes p.wfile off size)

/-- The check of a workspace operand (03 R73): permission as for memory, and NORMAL-WB or else detail 0x07. -/
def LP.wcheck (p : LP) (off size : Nat) (k : Access) (idx : Nat) : Except Trap Unit :=
  match p.checkOp (p.wp.toNat + off) size k p.level idx with
  | .error t => .error t
  | .ok .wb => .ok ()
  | .ok _ => .error (mkTrap 0x06 7 idx (p.wp.toNat + off))

/-- A write of a workspace operand: the file, and one store to memory at the slot's address (03 R73). -/
def State.wwrite (s : State) (n off size v : Nat) : State := s.store n ((s.lp n).wp.toNat + off) .wb (natBytes size v)

/-- The target level of an event (03 R95): 1 kernel, 0 machine. -/
def LP.target (p : LP) (vec : Nat) : Nat :=
  if p.level ≠ 0 ∧ bitOf p.tdel.toNat vec ∧ vec ≠ 1 ∧ vec ≠ 2 ∧ vec ≠ 0x16 then 1 else 0

/-- The trap frame (03 R98). -/
def trapFrame (at_ : Stamp) (p : LP) (t : Trap) (framePc framePs : Nat) : List Byte :=
  natBytes 8 framePc ++ natBytes 4 framePs ++
    natBytes 4 (t.vec + t.detail * 256 + t.opIdx * 65536 + bit01 t.imprecise * 2 ^ 20) ++
    natBytes 8 t.fault ++ natBytes 8 p.cnt.toNat ++ natBytes 8 p.srcp.toNat ++ natBytes 8 p.dstp.toNat ++
    natBytes 8 at_.ns ++ natBytes 8 at_.frac

/-- PS after entry (03 R99): prev_priv, priv, ie and rpt zero, and the field that the event sets. -/
def psEnter (ps : BitVec 32) (target : Nat) (ipl : Option Nat) (vec : Nat) : BitVec 32 :=
  let v := ps.toNat
  let v1 := setBits (setBits (setBits (setBits v 10 2 (psPriv ps)) 4 2 target) 8 1 0) 18 1 0
  let v2 := match ipl with | some l => setBits v1 12 4 l | none => v1
  let v3 := if vec = 1 then setBits v2 9 1 0 else v2
  BitVec.ofNat 32 (if vec = 2 then setBits v3 19 1 1 else v3)

/-- A logical processor halted (03 R101): its event source is raised, and LP_HALTED is posted with the vector and the frame's
PC (14 R394); a control processor is lost by it (16 R426). -/
def State.halt (s : State) (n vec framePc : Nat) : State :=
  let s1 := s.onLp n fun p => { p with run := .halted, haltVec := vec, rsv := none }
  let s2 := if n < 96 then s1.raise (16 * (n / 6) + 5 + n % 6) else (s1.raise (746 + (n - 96))).cpLost (n - 96)
  s2.event 2 (lpMaster n) vec framePc (s2.lpOwners n)

/-- The stack pointer of a target level. -/
def LP.tsp (p : LP) (target : Nat) : Nat := if target = 1 then p.tspK.toNat else p.tspM.toNat

/-- Whether the frame can be pushed at a level (03 R97, step 2): TSP − 64 to TSP − 1 written at that level. -/
def LP.frameOk (p : LP) (target : Nat) : Except Nat MemType := p.check ((2 ^ 64 - 64 + p.tsp target) % 2 ^ 64) 64 .write target

/-- Entry proper to a vector (03 R97-R99), once the frame check has passed; the frame holds the cause of the event. -/
def State.enter (s : State) (n vec : Nat) (t : Trap) (target framePc framePs : Nat) (ipl : Option Nat) (mt : MemType) : State :=
  let p := s.lp n
  let tsp := (2 ^ 64 - 64 + p.tsp target) % 2 ^ 64
  let s1 := (s.onLp n fun p => { p.applyAllInv with rsv := none }).countLp n 14 p.invq.length
  let s2 := s1.store n tsp mt (trapFrame (s.stampIn (lpIsland n)) p t framePc framePs)
  s2.onLp n fun q => { q with
    run := if q.run = .stepping then .debug else .running,
    tspK := if target = 1 then BitVec.ofNat 64 tsp else q.tspK,
    tspM := if target = 1 then q.tspM else BitVec.ofNat 64 tsp,
    ps := psEnter q.ps target ipl vec,
    pc := BitVec.ofNat 64 ((q.tvb.toNat + 64 * vec) % 2 ^ 52) }

/-- TAKING A TRAP OR AN INTERRUPT (03 R95-R101), shared by every event: the target level, the frame check, DOUBLE_TRAP where
it fails at kernel level, and the halt where it fails at machine level. `framePs` is PS before entry. -/
def State.takeEvent (s : State) (n : Nat) (t : Trap) (framePc framePs : Nat) (ipl : Option Nat) : State :=
  let p := s.lp n
  let target := p.target t.vec
  match p.frameOk target with
  | .ok mt => s.enter n t.vec t target framePc framePs ipl mt
  | .error _ =>
    if target = 1 then
      match p.frameOk 0 with
      | .ok mt => s.enter n 0x16 { t with fault := p.tspK.toNat } 0 framePc framePs none mt
      | .error _ => s.halt n 0x16 framePc
    else s.halt n t.vec framePc

/-- A precise trap of the instruction at PC. -/
def State.trap (s : State) (n : Nat) (t : Trap) (framePc : Nat) : State :=
  let s1 := if t.vec = 0x08 ∧ regBase ≤ t.fault then s.accessRefused (regOff t.fault) 8 (lpMaster n) else s
  (s1.takeEvent n t framePc (s1.lp n).ps.toNat none).countLp n 6 1

/-- An instruction that does not complete: it waits, or traps. -/
def State.stop (s : State) (n : Nat) (t : Trap) (framePc : Nat) : State :=
  if t.vec = 0xFF then s else s.trap n t framePc

/-- Whether a blocking post holds the store buffer of a logical processor (13 R368). -/
def State.stuck (s : State) (n : Nat) : Bool :=
  match (s.lp n).postWait with
  | some ch => (s.chan ch).blocking.isSome
  | none => false

/-- The level that INTC_LVL gives a vector at a slot (03 R102); the control processors have no INTC registers, and take every
vector at level 15. DESIGN CHOICE, log 14. -/
def State.intLevel (s : State) (n v : Nat) : Nat :=
  if 96 ≤ n then 15
  else s.fld (Off.intcLvl (n / 6) (n % 6) ((v - 0x18) / 8)) (8 * ((v - 0x18) % 8)) 4

/-- Whether an interrupt can be taken at the current level (03 R95): one delegated to kernel stays pending at machine level. -/
def LP.notDeferred (p : LP) (v : Nat) : Bool := !(p.level == 0 && bitOf p.tdel.toNat v)

/-- The pending interrupt of highest level above PS.ipl, the lower vector first (03 R96). -/
def State.topInt (s : State) (n : Nat) : Option (Nat × Nat) :=
  let p := s.lp n
  (intVectors.filter fun v => s.intPending n v && p.notDeferred v && decide (bits p.ps.toNat 12 4 < s.intLevel n v)).foldl
    (fun best v => match best with
      | none => some (v, s.intLevel n v)
      | some (_, l) => if l < s.intLevel n v then some (v, s.intLevel n v) else best) none

/-- The asynchronous events that may be taken at a boundary, in the order of 03 R96. -/
inductive Event where
  | machineCheck (fault : Nat) | machineCheckHalt | nmi | storeBusError (a : Nat) | interrupt (v lvl : Nat)
  deriving DecidableEq, Repr

/-- The event to take now, if there is one. -/
def State.nextEvent (s : State) (n : Nat) : Option Event :=
  let p := s.lp n
  match p.mc with
  | some (_, f) => if bitOf p.ps.toNat 9 then some (.machineCheck f) else some .machineCheckHalt
  | none =>
    if p.nmi && !bitOf p.ps.toNat 19 then some .nmi
    else match p.sbe with
      | a :: _ => some (.storeBusError a)
      | [] => if bitOf p.ps.toNat 8 then (s.topInt n).map fun e => .interrupt e.1 e.2 else none

/-- The highest pending event taken (03 R96, R97), with the frame's PC and PS given: its pending state is consumed as the
event's own rules say (INTC_SWI clears when taken; a doorbell's level stays). -/
def State.takeNext (s : State) (n framePc framePs : Nat) : State :=
  match s.nextEvent n with
  | none => s
  | some .machineCheckHalt => (s.onLp n fun p => { p with mc := none }).halt n 0x01 framePc
  | some (.machineCheck f) =>
    (s.onLp n fun p => { p with mc := none }).takeEvent n (mkTrap 0x01 0 0 f) framePc framePs none
  | some .nmi => (s.onLp n fun p => { p with nmi := false }).takeEvent n (mkTrap 0x02 0 0 0) framePc framePs none
  | some (.storeBusError a) =>
    (s.onLp n fun p => { p with sbe := p.sbe.drop 1 }).takeEvent n ⟨0x09, 0, 0, a, true, none⟩ framePc framePs none
  | some (.interrupt v l) =>
    let s1 := s.onLp n fun p => { p with
      timer := p.timer && v != 0x18, swi := p.swi && v != 0x19, lens := p.lens && v != 0x1A, err := p.err && v != 0x1B }
    let s2 := if v = 0x19 ∧ n < 96 then s1.setReg (Off.intcSwi (n / 6) (n % 6)) 0 else s1
    (s2.takeEvent n (mkTrap v 0 0 0) framePc framePs (some l)).countLp n 5 1

/-- Whether a logical processor can execute an instruction now. -/
def State.canRun (s : State) (n : Nat) : Bool :=
  s.lpExists n && !s.shutdown && ((s.lp n).run == .running || (s.lp n).run == .stepping)

/-- The time of 24 h, in time-clock cycles of 1.6 ns (02 R58). -/
def dayCycles : Nat := 54000000000000

/-- The commit of an instruction (02 R40, R47, 06 R170): the next PC, one more instruction since LDRES (itself the
first, so that 16 may stand between), the counters, and a
retry budget made whole, which counts a successful retry. -/
def State.commit (s : State) (n nextPc : Nat) : State :=
  let s1 := s.onLp n fun p =>
    let age := if p.rsv.isSome then p.rsvAge + 1 else 0
    { p with pc := BitVec.ofNat 64 (nextPc % 2 ^ 52), rsvAge := age, rsv := if 17 < age then none else p.rsv,
             run := if p.run = .stepping then .debug else p.run }
  let s2 := s1.countLp n 1 1
  if n < 96 ∧ !s.isSplit (n / 6) ∧ s2.fld (Off.cmpStat (n / 6) (n % 6)) 14 2 ≠ 0 then
    (((s2.setFld (Off.cmpStat (n / 6) (n % 6)) 14 2 0).countLp n 3 1).bumpReg (Off.cmpRetrycnt (n / 6) (n % 6)) 0xFFFFFFFF).onPair
      (3 * (n / 6) + n % 6) (fun q =>
        { q with attempts := [], leaky := s.time.cycles :: q.leaky.filter (fun c => s.time.cycles < c + dayCycles), skewHold := false })
  else s2

end Sys2Proof.Machine
end

