-- ==== Sys2Proof/Machine/Operands.lean ====
section
/-! DEFINITION. Every operand form (03 R76, R80-R87, 04 R107, R108, R120): the length of an instruction, the illegal encodings,
the effective address with its base-register step, the checks in specifier order, and the reads and the writes of an
operand; and the frame of every instruction: fetch, privilege, encoding, operands, operation, commit (03 R85, R91, R96). -/

namespace Sys2Proof.Machine

/-- What an instruction does with an operand: reads it, writes it, both, or takes its address; `lres` and `scond` are the m
operands of LDRES and STCOND, of which the first is read and the second written (04 R127). -/
inductive Role where | src | dst | rmw | adr | lres | scond
  deriving DecidableEq, Repr

/-- An operand: its specifier, its role, its size in bytes, whether it is packed decimal (no alignment, not in a base
register), and whether an RMW in memory is an atomic. -/
structure Opd where
  spec   : Spec
  role   : Role
  size   : Nat
  packed : Bool
  atomic : Bool
  deriving DecidableEq, Repr

/-- A source of some bytes. -/
def osrc (sp : Spec) (n : Nat) : Opd := ⟨sp, .src, n, false, false⟩
/-- A destination. -/
def odst (sp : Spec) (n : Nat) : Opd := ⟨sp, .dst, n, false, false⟩
/-- A read-modify-write operand. -/
def ormw (sp : Spec) (n : Nat) : Opd := ⟨sp, .rmw, n, false, false⟩
/-- The memory operand of an atomic. -/
def oatom (sp : Spec) (n : Nat) : Opd := ⟨sp, .rmw, n, false, true⟩
/-- The m operand of LDRES. -/
def olres (sp : Spec) (n : Nat) : Opd := ⟨sp, .lres, n, false, true⟩
/-- The m operand of STCOND. -/
def oscond (sp : Spec) (n : Nat) : Opd := ⟨sp, .scond, n, false, true⟩
/-- An address operand. -/
def oadr (sp : Spec) : Opd := ⟨sp, .adr, 8, false, false⟩
/-- A packed-decimal source. -/
def opsrc (sp : Spec) (n : Nat) : Opd := ⟨sp, .src, n, true, false⟩
/-- A packed-decimal destination. -/
def opdst (sp : Spec) (n : Nat) : Opd := ⟨sp, .dst, n, true, false⟩

/-- The bytes that a specifier takes, with its extension bytes (03 R83, R84); `size` is the operand's. -/
def specLen (sp : Spec) (size : Nat) : Nat :=
  match sp with
  | .slot _ | .base _ | .ind _ | .postInc _ | .preDec _ | .lit _ | .reserved _ => 1
  | .ind8 _ _ | .wpRel _ _ => 2
  | .ind32 _ _ | .deref _ _ | .pcRel _ _ => 5
  | .index _ _ _ .none | .index _ _ _ .bad => 2
  | .index _ _ _ (.d8 _) => 3
  | .index _ _ _ (.d32 _) => 6
  | .abs _ _ => 9
  | .imm _ _ => 1 + size

/-- The length of an instruction: its prefix and opcode bytes, then its specifiers (03 R81). -/
def instrLen (opBytes : Nat) (os : List Opd) : Nat := os.foldl (fun k o => k + specLen o.spec o.size) opBytes

/-- Whether a specifier is a literal or an immediate. -/
def isConst : Spec → Bool
  | .imm _ _ | .lit _ => true
  | _ => false

/-- Whether a specifier names memory (03 R83). -/
def isMem : Spec → Bool
  | .slot _ | .base _ | .imm _ _ | .lit _ | .reserved _ => false
  | _ => true

/-- Whether a specifier has the reserved mode 0xF (03 R87). -/
def isReserved : Spec → Bool
  | .reserved _ => true
  | _ => false

/-- Bits [3:0] that must be zero and are not (03 R86, detail 0x02). -/
def badZero : Spec → Bool
  | .pcRel z _ | .abs z _ | .imm z _ | .wpRel z _ => z != 0
  | _ => false

/-- A 16-byte or packed operand in a base register, or a 16-byte operand in an odd slot (detail 0x03). -/
def badWide (o : Opd) : Bool :=
  match o.spec with
  | .base _ => o.size == 16 || o.packed
  | .slot n => o.size == 16 && n.toNat % 2 == 1
  | _ => false

/-- The index, from 1, of the first operand for which a test holds. -/
def firstIdx (p : Opd → Bool) : Nat → List Opd → Option Nat
  | _, [] => none
  | i, o :: os => if p o then some i else firstIdx p (i + 1) os

/-- Whether a destination is a literal or an immediate (detail 0x01). -/
def badDest (o : Opd) : Bool := o.role != .src && o.role != .adr && isConst o.spec

/-- Whether a specifier has the dsize that is illegal (detail 0x05). -/
def badIndex (o : Opd) : Bool :=
  match o.spec with
  | .index _ _ _ .bad => true
  | _ => false

/-- The lowest detail of R86 that holds for an encoding, 0x06 apart, with the index of the first specifier that it is
about. DEDUCED, log 28: the index. -/
def encodingFault (len : Nat) (os : List Opd) : Option (Nat × Nat) :=
  match firstIdx badDest 1 os, firstIdx (fun o => badZero o.spec) 1 os, firstIdx badWide 1 os with
  | some i, _, _ => some (1, i)
  | none, some i, _ => some (2, i)
  | none, none, some i => some (3, i)
  | none, none, none =>
    if 32 < len then some (4, 0)
    else match firstIdx badIndex 1 os with
      | some i => some (5, i)
      | none => none

/-- A base register. -/
def LP.breg (p : LP) (n : Nat) : Nat := (tblGetD p.b n 0).toNat

/-- A logical processor with a base register written, all 64 bits. -/
def LP.setB (p : LP) (n v : Nat) : LP := { p with b := tblSet p.b n (BitVec.ofNat 64 v) }

/-- A sum modulo 2^64 of a base and a signed displacement. -/
def addDisp (a : Nat) (d : Int) : Nat := wrapInt ((a : Int) + d) 64

/-- The displacement of a mode 0x6 index byte. -/
def dispInt : Disp → Int
  | .d8 d => d.toInt
  | .d32 d => d.toInt
  | _ => 0

/-- Where an operand is, once its address is formed. -/
inductive Place where
  | wslot (off : Nat)          -- byte offset in the workspace
  | breg (n : Nat)
  | mem (a : Nat)
  | const (v : Nat)
  deriving DecidableEq, Repr

/-- The address formula of 03 R83 with the step of modes 0x7 and 0x8 (R85, R107): the place, and the state with the base
register stepped; mode 0x9 reads its pointer. A literal is its value here; a floating-point source converts it. -/
def State.place (s : State) (n idx : Nat) (o : Opd) : Except Trap (State × Place) :=
  let p := s.lp n
  let step := o.size
  match o.spec with
  | .slot w => .ok (s, .wslot (8 * w.toNat))
  | .base b => .ok (s, .breg b.toNat)
  | .ind b => .ok (s, .mem (p.breg b.toNat))
  | .ind8 b d => .ok (s, .mem (addDisp (p.breg b.toNat) d.toInt))
  | .ind32 b d => .ok (s, .mem (addDisp (p.breg b.toNat) d.toInt))
  | .index b x sc d =>
    .ok (s, .mem (addDisp (p.breg b.toNat + p.breg x.toNat * 2 ^ sc.toNat) (dispInt d)))
  | .postInc b =>
    .ok (s.onLp n fun q => q.setB b.toNat (q.breg b.toNat + step), .mem (p.breg b.toNat))
  | .preDec b =>
    let a := addDisp (p.breg b.toNat) (-(step : Int))
    .ok (s.onLp n fun q => q.setB b.toNat a, .mem a)
  | .deref b d =>
    let q := addDisp (p.breg b.toNat) d.toInt
    if q % 8 ≠ 0 then .error (mkTrap 0x07 0 idx q)
    else match p.checkOp q 8 .read p.level idx with
      | .error t => .error t
      | .ok mt =>
        match s.load n q 8 mt with
        | none => .error (mkTrap 0x08 0 idx q)
        | some (s1, v) => .ok (s1, .mem v)
  | .pcRel _ d => .ok (s, .mem (addDisp p.pc.toNat d.toInt))
  | .abs _ a => .ok (s, .mem a.toNat)
  | .imm _ v => .ok (s, .const (v.toNat % 2 ^ (8 * o.size)))
  | .lit k => .ok (s, .const k.toNat)
  | .wpRel _ d => .ok (s, .mem ((p.wp.toNat + 8 * d.toNat) % 2 ^ 64))
  | .reserved _ => .ok (s, .const 0)

/-- The places of the operands in specifier order, up to the first whose address cannot be formed (03 R85). -/
def State.places (s : State) (n : Nat) : Nat → List Opd → State × List Place × Option Trap
  | _, [] => (s, [], none)
  | idx, o :: os =>
    match s.place n idx o with
    | .error t => (s, [], some t)
    | .ok (s1, pl) =>
      let (s2, ps, t) := s1.places n (idx + 1) os
      (s2, pl :: ps, t)

/-- The access kind of a role. -/
def roleAccess (o : Opd) : Access :=
  match o.role with
  | .src | .adr => .read
  | .dst | .scond => .write
  | .rmw => .atomic
  | .lres => .read

/-- An operand checked, and read where its role reads (03 R73, R76, R80, R90, R94): ALIGNMENT, then REGION, then BUS_ERROR. An
atomic operand outside NORMAL-WB memory raises BUS_ERROR (04 R128). An address operand in a memory mode is not accessed. -/
def State.fetchOpd (s : State) (n idx : Nat) (o : Opd) (pl : Place) : Except Trap (State × Nat) :=
  let p := s.lp n
  let reads := o.role ≠ .dst
  match pl with
  | .const v => .ok (s, v)
  | .breg b => .ok (s, p.breg b % 2 ^ (8 * o.size))
  | .wslot off =>
    match p.wcheck off o.size (roleAccess o) idx with
    | .error t => .error t
    | .ok () => .ok (s, p.wread off o.size)
  | .mem a =>
    if o.role = .adr then .ok (s, a)
    else if !o.packed && a % o.size != 0 then .error (mkTrap 0x07 0 idx a)
    else match p.checkOp a o.size (roleAccess o) p.level idx with
      | .error t => .error t
      | .ok mt =>
        if o.atomic then
          (if mt ≠ .wb then .error (mkTrap 0x08 0 idx a)
           else if s.stuck n then .error waitTrap
           else
            let s0 := s.drainAll n
            let ok := match s0.rangeKind a o.size with
              | some .dram => !s0.poisoned a o.size
              | some .host => s0.hostOk
              | _ => false
            if ok then .ok (s0, leNat (s0.agentRead a o.size)) else .error (mkTrap 0x08 0 idx a))
        else if reads && mt == .device && s.stuck n then .error waitTrap
        else if reads then
          match s.load n a o.size mt with
          | none => .error (mkTrap 0x08 0 idx a)
          | some (s1, v) => .ok (s1, v)
        else .ok (s, 0)

/-- The operands checked and read in specifier order (03 R85, R96); a place that could not be formed traps in its turn. -/
def State.fetchOpds (s : State) (n : Nat) (late : Option Trap) : Nat → List Opd → List Place → Except Trap (State × List Nat)
  | idx, o :: os, pl :: ps =>
    match s.fetchOpd n idx o pl with
    | .error t => .error t
    | .ok (s1, v) =>
      match s1.fetchOpds n late (idx + 1) os ps with
      | .error t => .error t
      | .ok (s2, vs) => .ok (s2, v :: vs)
  | _, _, _ =>
    match late with
    | some t => .error t
    | none => .ok (s, [])

/-- A write of a destination (03 R73, R75, R76): base registers zero-extend. -/
def State.putOpd (s : State) (n : Nat) (o : Opd) (pl : Place) (v : Nat) : State :=
  match pl with
  | .const _ => s
  | .breg b => s.onLp n fun p => p.setB b (v % 2 ^ (8 * o.size))
  | .wslot off => s.wwrite n off o.size (v % 2 ^ (8 * o.size))
  | .mem a =>
    let p := s.lp n
    match p.check a o.size .write p.level with
    | .ok mt =>
      if o.atomic then
        s.storeWb n a (natBytes o.size v)
      else s.store n a mt (natBytes o.size v)
    | .error _ => s

/-- The operands of an instruction, ready: places and values. -/
structure Ready where
  os : List Opd
  ps : List Place
  vs : List Nat

/-- The value of operand `i` (from 0). -/
def Ready.val (r : Ready) (i : Nat) : Nat := (r.vs[i]?).getD 0

/-- A write of operand `i`. -/
def Ready.put (r : Ready) (s : State) (n i v : Nat) : State :=
  match r.os[i]?, r.ps[i]? with
  | some o, some pl => s.putOpd n o pl v
  | _, _ => s

/-- The address of operand `i` in memory, or zero. -/
def Ready.addr (r : Ready) (i : Nat) : Nat :=
  match r.ps[i]? with
  | some (.mem a) => a
  | _ => 0

/-- What fetching an instruction comes to (03 R91, R155, 01 R22, R23): every byte in one region with execute permission, of
NORMAL-WB type, in memory that answers. -/
def State.fetchTrap (s : State) (n len : Nat) : Option Trap :=
  let p := s.lp n
  let k := if 32 < len then 32 else len
  match p.check p.pc.toNat k .exec p.level with
  | .error d => some (mkTrap 0x06 d 0 p.pc.toNat)
  | .ok .wb =>
    match s.rangeKind p.pc.toNat k with
    | some .dram => if s.poisoned p.pc.toNat k then some (mkTrap 0x08 0 0 p.pc.toNat) else none
    | some .host => if s.hostOk then none else some (mkTrap 0x08 0 0 p.pc.toNat)
    | _ => some (mkTrap 0x08 0 0 p.pc.toNat)
  | .ok _ => some (mkTrap 0x08 0 0 p.pc.toNat)

/-- The L1 instruction cache's misses of an instruction asked for and counted. -/
def State.fetchFills (s : State) (n len : Nat) : State :=
  (linesOf (s.lp n).pc.toNat len).foldl (fun t l =>
    if (t.lp n).l1i.hasI l then t.onLp n fun p => { p with l1i := p.l1i.fill 4 2 256 l }
    else (t.askFill n l 1).countLp n 9 1) s

/-- Whether an operand in its place is a memory access that clears a reservation (06 R170): any but an access to an address
operand that reads no pointer, and but a store to the workspace. The m operands of atomics see to themselves. -/
def clearsRsv (p : LP) (o : Opd) (pl : Place) : Bool :=
  match o.spec, pl with
  | .deref _ _, _ => true
  | _, .mem a =>
    o.role != .adr && !o.atomic &&
      !(o.role == .dst && decide (p.wp.toNat ≤ a) && decide (a + o.size ≤ p.wp.toNat + 256))
  | _, _ => false

/-- Whether any operand is one. -/
def touchesMem (p : LP) : List Opd → List Place → Bool
  | o :: os, pl :: ps => clearsRsv p o pl || touchesMem p os ps
  | _, _ => false

/-- An undefined execution of a reserved encoding, confined by 03 R87: the flags and one base register take free values, and
the next instruction follows. Log 15. -/
def State.reservedEffect (s : State) (n len : Nat) : State :=
  let (f, s1) := s.fresh
  let (v, s2) := s1.fresh
  let (b, s3) := s2.fresh
  (s3.onLp n fun p => { p.setB (b % 16) v with
    ps := BitVec.ofNat 32 (setBits p.ps.toNat 0 4 f), rsv := none }).commit n ((s.lp n).pc.toNat + len)

/-- THE FRAME OF EVERY INSTRUCTION (03 R85, R96): nothing where the logical processor does not run; else the fetch, a level
that the opcode needs (`minPriv` the numerically highest level allowed), the encoding, the operands, and the operation, in
this order; the first trap is taken with the state as it was before the instruction. The operation answers the state and
the address of the next instruction. -/
def execOn (n opBytes maxLevel : Nat) (os : List Opd) (s : State)
    (f : State → Ready → Nat → Except Trap (State × Nat)) : State :=
  if !s.canRun n then s
  else
    let len := instrLen opBytes os
    let pc := (s.lp n).pc.toNat
    match s.fetchTrap n len with
    | some t => s.trap n t pc
    | none =>
      if maxLevel < (s.lp n).level then s.trap n (mkTrap 0x05 0 0 0) pc
      else match encodingFault len os with
        | some (d, i) => s.trap n (mkTrap 0x04 d i 0) pc
        | none =>
          if os.any fun o => isReserved o.spec then s.reservedEffect n len
          else
            let s0 := s.fetchFills n len
            let (s1, ps, late) := s0.places n 1 os
            match s1.fetchOpds n late 1 os ps with
            | .error t => s.stop n t pc
            | .ok (s2, vs) =>
              let s3 := if touchesMem (s2.lp n) os ps then s2.onLp n fun p => { p with rsv := none } else s2
              match f s3 ⟨os, ps, vs⟩ ((pc + len) % 2 ^ 52) with
              | .error t => s.stop n t (t.resume.getD pc)
              | .ok (s4, next) => if s.stuck n && decide (32 < (s4.lp n).sb.length) then s else s4.commit n next

end Sys2Proof.Machine
end

