-- ==== Sys2Proof/Machine/Integer.lean ====
section
/-! DEFINITION. The integer arithmetic and logic of opcodes 0x00-0x3F with the 16-byte forms of 0x59-0x5E, and the moves, bit
fields and wide integers of 0x40-0x5F (04 R110-R114). -/

namespace Sys2Proof.Machine

/-- The bytes of an integer size. -/
def isize : ISize → Nat
  | .b => 1 | .h => 2 | .w => 4 | .q => 8

/-- The bytes of a size, 16 included. -/
def sizeBytes : Size → Nat
  | .b => 1 | .h => 2 | .w => 4 | .q => 8 | .o => 16

/-- The flags of a logical processor. -/
def State.flagsOf (s : State) (n : Nat) : Flags := psFlags (s.lp n).ps

/-- The state with the flags of a logical processor written. -/
def State.setFlags (s : State) (n : Nat) (f : Flags) : State := s.onLp n fun p => { p with ps := psSetFlags p.ps f }

/-- `finish` of 04 R111: INT_OVERFLOW where v, PS.iov and the row say so, before anything is written; else the result to
operand 0 and the flags. -/
def finish (n : Nat) (ovf : Bool) (s : State) (r : Ready) (next : Nat) (x : Nat × Flags) : Except Trap (State × Nat) :=
  if x.2.v && ovf && bitOf (s.lp n).ps.toNat 16 then .error (mkTrap 0x0B 0 0 0)
  else .ok ((r.put s n 0 x.1).setFlags n x.2, next)

/-- A three-operand arithmetic instruction d, a, b (04 R110): the operation, from the flags before and the two sources. -/
def arith3 (n opBytes size : Nat) (ovf : Bool) (d a b : Spec) (s : State) (f : Flags → Nat → Nat → Nat × Flags) : State :=
  execOn n opBytes 3 [odst d size, osrc a size, osrc b size] s fun s r next =>
    finish n ovf s r next (f (s.flagsOf n) (r.val 1) (r.val 2))

/-- As `arith3`, for a divisor that may be zero: INT_DIVIDE (04 R112). -/
def arithDiv (n opBytes size : Nat) (ovf : Bool) (d a b : Spec) (s : State) (f : Nat → Nat → Nat × Flags) : State :=
  execOn n opBytes 3 [odst d size, osrc a size, osrc b size] s fun s r next =>
    if r.val 2 = 0 then .error (mkTrap 0x0A 0 0 0) else finish n ovf s r next (f (r.val 1) (r.val 2))

/-- An instruction on two sources that writes flags only. -/
def flags2 (n size : Nat) (a b : Spec) (s : State) (f : Nat → Nat → Flags) : State :=
  execOn n 1 3 [osrc a size, osrc b size] s fun s r next => .ok (s.setFlags n (f (r.val 0) (r.val 1)), next)

/-- An instruction d, a that writes d and no flag, with its sizes. -/
def move2 (n opBytes dsize asize : Nat) (d a : Spec) (s : State) (f : Nat → Nat) : State :=
  execOn n opBytes 3 [odst d dsize, osrc a asize] s fun s r next => .ok (r.put s n 0 (f (r.val 1)), next)

/-- A count d, a of .Q: n, v and c zero, z from the result (04 R113). -/
def count2 (n : Nat) (d a : Spec) (s : State) (f : Nat → Nat) : State :=
  execOn n 1 3 [odst d 8, osrc a 8] s fun s r next =>
    let x := f (r.val 1)
    .ok ((r.put s n 0 x).setFlags n ⟨false, x == 0, false, false⟩, next)

/-- The number of leading zeros of a w-bit value. -/
def clzNat (v : Nat) : Nat → Nat
  | 0 => 0
  | w + 1 => if bitOf v w then 0 else 1 + clzNat v w

/-- The number of trailing zeros among w bits. -/
def ctzNat (v : Nat) : Nat → Nat
  | 0 => 0
  | w + 1 => if v % 2 = 1 then 0 else 1 + ctzNat (v / 2) w

/-- The position and the length of a field control (04 R114). -/
def fieldOf (f : Nat) : Nat × Nat := (f % 64, f / 256 % 64 + 1)

/-- EXTU.Q's field (04 R114): bits at positions above 63 read as zero. -/
def extractU (a f : Nat) : Nat := a / 2 ^ (fieldOf f).1 % 2 ^ (fieldOf f).2

/-- EXTS.Q's field. -/
def extractS (a f : Nat) : Nat := wrapInt (signed (extractU a f) (fieldOf f).2) 64

/-- INS.Q's result: bits pos to min(pos + len − 1, 63) of m replaced (04 R114). -/
def insertField (m a f : Nat) : Nat := setBits m (fieldOf f).1 (min (fieldOf f).2 (64 - (fieldOf f).1)) a

/-- ADC (04 R111). -/
def execAdc (n : Nat) (sz : ISize) (d a b : Spec) (s : State) : Host.Outcome State Fault Refusal :=
  forLp n s fun s => arith3 n 1 (isize sz) true d a b s fun f x y => addFam (8 * isize sz) x y (bit01 f.c)

/-- ADD (04 R111), and ADD.O with w = 128 (R113). -/
def execAdd (n : Nat) (sz : Size) (d a b : Spec) (s : State) : Host.Outcome State Fault Refusal :=
  forLp n s fun s => arith3 n 1 (sizeBytes sz) true d a b s fun _ x y => addFam (8 * sizeBytes sz) x y 0

/-- SUB, and SUB.O. -/
def execSub (n : Nat) (sz : Size) (d a b : Spec) (s : State) : Host.Outcome State Fault Refusal :=
  forLp n s fun s => arith3 n 1 (sizeBytes sz) true d a b s fun _ x y => subFam (8 * sizeBytes sz) x y 0

/-- SBC. -/
def execSbc (n : Nat) (sz : ISize) (d a b : Spec) (s : State) : Host.Outcome State Fault Refusal :=
  forLp n s fun s => arith3 n 1 (isize sz) true d a b s fun f x y => subFam (8 * isize sz) x y (bit01 f.c)

/-- CMP, and CMP.O: the flags of a − b. -/
def execCmp (n : Nat) (sz : Size) (a b : Spec) (s : State) : Host.Outcome State Fault Refusal :=
  forLp n s fun s => flags2 n (sizeBytes sz) a b s fun x y => (subFam (8 * sizeBytes sz) x y 0).2

/-- TST: the flags of a AND b. -/
def execTst (n : Nat) (sz : ISize) (a b : Spec) (s : State) : Host.Outcome State Fault Refusal :=
  forLp n s fun s => flags2 n (isize sz) a b s fun x y => logicFlags (8 * isize sz) (x &&& y)

/-- AND. -/
def execAnd (n : Nat) (sz : Size) (d a b : Spec) (s : State) : Host.Outcome State Fault Refusal :=
  forLp n s fun s => arith3 n 1 (sizeBytes sz) false d a b s fun _ x y =>
    (x &&& y, logicFlags (8 * sizeBytes sz) (x &&& y))

/-- OR. -/
def execOr (n : Nat) (sz : Size) (d a b : Spec) (s : State) : Host.Outcome State Fault Refusal :=
  forLp n s fun s => arith3 n 1 (sizeBytes sz) false d a b s fun _ x y =>
    (x ||| y, logicFlags (8 * sizeBytes sz) (x ||| y))

/-- XOR. -/
def execXor (n : Nat) (sz : Size) (d a b : Spec) (s : State) : Host.Outcome State Fault Refusal :=
  forLp n s fun s => arith3 n 1 (sizeBytes sz) false d a b s fun _ x y =>
    (x ^^^ y, logicFlags (8 * sizeBytes sz) (x ^^^ y))

/-- SHL (04 R112). -/
def execShl (n : Nat) (sz : ISize) (d a b : Spec) (s : State) : Host.Outcome State Fault Refusal :=
  forLp n s fun s => arith3 n 1 (isize sz) false d a b s fun _ x y => shlFam (8 * isize sz) x y

/-- SHR. -/
def execShr (n : Nat) (sz : ISize) (d a b : Spec) (s : State) : Host.Outcome State Fault Refusal :=
  forLp n s fun s => arith3 n 1 (isize sz) false d a b s fun _ x y => shrFam (8 * isize sz) x y

/-- SAR. -/
def execSar (n : Nat) (sz : ISize) (d a b : Spec) (s : State) : Host.Outcome State Fault Refusal :=
  forLp n s fun s => arith3 n 1 (isize sz) false d a b s fun _ x y => sarFam (8 * isize sz) x y

/-- ROT. -/
def execRot (n : Nat) (sz : ISize) (d a b : Spec) (s : State) : Host.Outcome State Fault Refusal :=
  forLp n s fun s => arith3 n 1 (isize sz) false d a b s fun _ x y => rotFam (8 * isize sz) x y

/-- MUL. -/
def execMul (n : Nat) (sz : ISize) (d a b : Spec) (s : State) : Host.Outcome State Fault Refusal :=
  forLp n s fun s => arith3 n 1 (isize sz) true d a b s fun _ x y => mulFam (8 * isize sz) x y

/-- DIV. -/
def execDiv (n : Nat) (sz : ISize) (d a b : Spec) (s : State) : Host.Outcome State Fault Refusal :=
  forLp n s fun s => arithDiv n 1 (isize sz) true d a b s (divFam (8 * isize sz))

/-- DIVU. -/
def execDivu (n : Nat) (sz : ISize) (d a b : Spec) (s : State) : Host.Outcome State Fault Refusal :=
  forLp n s fun s => arithDiv n 1 (isize sz) false d a b s (divuFam (8 * isize sz))

/-- REM.Q. -/
def execRem (n : Nat) (d a b : Spec) (s : State) : Host.Outcome State Fault Refusal :=
  forLp n s fun s => arithDiv n 1 8 false d a b s (remFam 64)

/-- REMU.Q. -/
def execRemu (n : Nat) (d a b : Spec) (s : State) : Host.Outcome State Fault Refusal :=
  forLp n s fun s => arithDiv n 1 8 false d a b s (remuFam 64)

/-- MOV, and MOV.O without interpretation. -/
def execMov (n : Nat) (sz : Size) (d a : Spec) (s : State) : Host.Outcome State Fault Refusal :=
  forLp n s fun s => move2 n 1 (sizeBytes sz) (sizeBytes sz) d a s id

/-- MOVA: the address of t (04 R107). -/
def execMova (n : Nat) (d t : Spec) (s : State) : Host.Outcome State Fault Refusal :=
  forLp n s fun s => execOn n 1 3 [odst d 8, oadr t] s fun s r next => .ok (r.put s n 0 (r.val 1), next)

/-- The bytes of a MOVZ or MOVS source. -/
def ssize : SSize → Nat
  | .b => 1 | .h => 2 | .w => 4

/-- MOVZ. -/
def execMovz (n : Nat) (sz : SSize) (d a : Spec) (s : State) : Host.Outcome State Fault Refusal :=
  forLp n s fun s => move2 n 1 8 (ssize sz) d a s id

/-- MOVS. -/
def execMovs (n : Nat) (sz : SSize) (d a : Spec) (s : State) : Host.Outcome State Fault Refusal :=
  forLp n s fun s => move2 n 1 8 (ssize sz) d a s fun x => wrapInt (signed x (8 * ssize sz)) 64

/-- EXTU.Q. -/
def execExtu (n : Nat) (d a f : Spec) (s : State) : Host.Outcome State Fault Refusal :=
  forLp n s fun s => execOn n 1 3 [odst d 8, osrc a 8, osrc f 2] s fun s r next =>
    .ok (r.put s n 0 (extractU (r.val 1) (r.val 2)), next)

/-- EXTS.Q. -/
def execExts (n : Nat) (d a f : Spec) (s : State) : Host.Outcome State Fault Refusal :=
  forLp n s fun s => execOn n 1 3 [odst d 8, osrc a 8, osrc f 2] s fun s r next =>
    .ok (r.put s n 0 (extractS (r.val 1) (r.val 2)), next)

/-- INS.Q. -/
def execIns (n : Nat) (m a f : Spec) (s : State) : Host.Outcome State Fault Refusal :=
  forLp n s fun s => execOn n 1 3 [ormw m 8, osrc a 8, osrc f 2] s fun s r next =>
    .ok (r.put s n 0 (insertField (r.val 0) (r.val 1) (r.val 2)), next)

/-- POPC.Q. -/
def execPopc (n : Nat) (d a : Spec) (s : State) : Host.Outcome State Fault Refusal :=
  forLp n s fun s => count2 n d a s fun x => popCount x 64

/-- CLZ.Q. -/
def execClz (n : Nat) (d a : Spec) (s : State) : Host.Outcome State Fault Refusal :=
  forLp n s fun s => count2 n d a s fun x => clzNat x 64

/-- CTZ.Q. -/
def execCtz (n : Nat) (d a : Spec) (s : State) : Host.Outcome State Fault Refusal :=
  forLp n s fun s => count2 n d a s fun x => ctzNat x 64

/-- The bytes of a BSWAP. -/
def hsize : HSize → Nat
  | .h => 2 | .w => 4 | .q => 8

/-- BSWAP. -/
def execBswap (n : Nat) (sz : HSize) (d a : Spec) (s : State) : Host.Outcome State Fault Refusal :=
  forLp n s fun s => move2 n 1 (hsize sz) (hsize sz) d a s fun x => beNat (natBytes (hsize sz) x)

/-- MULX.Q: the full signed product; n and z from it (04 R113). -/
def execMulx (n : Nat) (d a b : Spec) (s : State) : Host.Outcome State Fault Refusal :=
  forLp n s fun s => execOn n 1 3 [odst d 16, osrc a 8, osrc b 8] s fun s r next =>
    let x := wrapInt (signed (r.val 1) 64 * signed (r.val 2) 64) 128
    .ok ((r.put s n 0 x).setFlags n (logicFlags 128 x), next)

/-- MULXU.Q: the full unsigned product. -/
def execMulxu (n : Nat) (d a b : Spec) (s : State) : Host.Outcome State Fault Refusal :=
  forLp n s fun s => execOn n 1 3 [odst d 16, osrc a 8, osrc b 8] s fun s r next =>
    let x := r.val 1 * r.val 2
    .ok ((r.put s n 0 x).setFlags n (logicFlags 128 x), next)

/-- SEL.Q: a if z, else b. -/
def execSel (n : Nat) (d a b : Spec) (s : State) : Host.Outcome State Fault Refusal :=
  forLp n s fun s => execOn n 1 3 [odst d 8, osrc a 8, osrc b 8] s fun s r next =>
    .ok (r.put s n 0 (if (s.flagsOf n).z then r.val 1 else r.val 2), next)

end Sys2Proof.Machine
end

