-- ==== Sys2Proof/Machine/Control.lean ====
section
/-! DEFINITION. The control instructions of opcodes 0x60-0x7F (04 R115, R116), entry to a vector at a boundary (03 R97), and
ERET (03 R100). -/

namespace Sys2Proof.Machine

/-- Bcc: PC := t where the condition holds. -/
def execBcc (n : Nat) (cond : BitVec 4) (t : Spec) (s : State) : Host.Outcome State Fault Refusal :=
  forLp n s fun s => execOn n 1 3 [oadr t] s fun s r next =>
    .ok (s, if condHolds cond.toNat (s.flagsOf n) then r.val 0 else next)

/-- CALL: d := the address of the next instruction; PC := t. -/
def execCall (n : Nat) (d t : Spec) (s : State) : Host.Outcome State Fault Refusal :=
  forLp n s fun s => execOn n 1 3 [odst d 8, oadr t] s fun s r next => .ok (r.put s n 0 next, r.val 1)

/-- RET: PC := a. -/
def execRet (n : Nat) (a : Spec) (s : State) : Host.Outcome State Fault Refusal :=
  forLp n s fun s => execOn n 1 3 [osrc a 8] s fun s r _ => .ok (s, r.val 0)

/-- LOOP.Q: m := m − 1; branch if m ≠ 0. -/
def execLoop (n : Nat) (m t : Spec) (s : State) : Host.Outcome State Fault Refusal :=
  forLp n s fun s => execOn n 1 3 [ormw m 8, oadr t] s fun s r next =>
    let x := (2 ^ 64 - 1 + r.val 0) % 2 ^ 64
    .ok (r.put s n 0 x, if x ≠ 0 then r.val 1 else next)

/-- BBS.Q: branch if bit (b mod 64) of a is 1. -/
def execBbs (n : Nat) (a b t : Spec) (s : State) : Host.Outcome State Fault Refusal :=
  forLp n s fun s => execOn n 1 3 [osrc a 8, osrc b 8, oadr t] s fun s r next =>
    .ok (s, if bitOf (r.val 0) (r.val 1 % 64) then r.val 2 else next)

/-- BBC.Q: branch if that bit is 0. -/
def execBbc (n : Nat) (a b t : Spec) (s : State) : Host.Outcome State Fault Refusal :=
  forLp n s fun s => execOn n 1 3 [osrc a 8, osrc b 8, oadr t] s fun s r next =>
    .ok (s, if bitOf (r.val 0) (r.val 1 % 64) then next else r.val 2)

/-- JTAB.Q (04 R116): the entry min(a, b) of the table at t, one access. -/
def execJtab (n : Nat) (a b t : Spec) (s : State) : Host.Outcome State Fault Refusal :=
  forLp n s fun s => execOn n 1 3 [osrc a 8, osrc b 8, oadr t] s fun s r _ =>
    let j := if r.val 0 < r.val 1 then r.val 0 else r.val 1
    let q := (r.val 2 + 8 * j) % 2 ^ 64
    if q % 8 ≠ 0 then .error (mkTrap 0x07 0 3 q)
    else match (s.lp n).checkOp q 8 .read (s.lp n).level 3 with
      | .error e => .error e
      | .ok mt =>
        match s.load n q 8 mt with
        | none => .error (mkTrap 0x08 0 3 q)
        | some (s1, v) => .ok (s1.onLp n fun p => { p with rsv := none }, v)

/-- SCOND.B: d := 1 if condition k [3:0] holds, else 0 (04 R116). -/
def execScond (n : Nat) (d k : Spec) (s : State) : Host.Outcome State Fault Refusal :=
  forLp n s fun s => execOn n 1 3 [odst d 1, osrc k 1] s fun s r next =>
    .ok (r.put s n 0 (bit01 (condHolds (r.val 1 % 16) (s.flagsOf n))), next)

/-- SVC: SYSCALL, with the code in the frame's fault address and the next instruction as its PC (04 R116, 03 R94). -/
def execSvc (n : Nat) (a : Spec) (s : State) : Host.Outcome State Fault Refusal :=
  forLp n s fun s => execOn n 1 3 [osrc a 1] s fun _ r next =>
    .error { mkTrap 0x0F 0 0 (r.val 0) with resume := some next }

/-- BKPT: BREAK (03 R94). -/
def execBkpt (n : Nat) (s : State) : Host.Outcome State Fault Refusal :=
  forLp n s fun s => execOn n 1 3 [] s fun _ _ next => .error { mkTrap 0x15 0 0 0 with resume := some next }

/-- The frame that ERET reads (03 R98, R100): 64 bytes at the current level's TSP. -/
def State.eretFrame (s : State) (n : Nat) : Except Trap (State × List Byte) :=
  let p := s.lp n
  let a := if p.level = 0 then p.tspM.toNat else p.tspK.toNat
  match p.checkOp a 64 .read p.level 0 with
  | .error t => .error t
  | .ok mt =>
    let s1 := s.drainPast n a 64 (2 * p.sb.length)
    let ok := match s1.rangeKind a 64 with
      | some .dram => !s1.poisoned a 64
      | some .host => s1.hostOk
      | _ => false
    if ok then .ok (if mt = .wb then s1.missFills n a 64 else s1, s1.readBytes n a 64)
    else .error (mkTrap 0x08 0 0 a)

/-- PS as ERET restores it (03 R100): at kernel level mce and nmi_active keep their values. Reserved bits stay zero. -/
def eretPs (cur frame : Nat) : Nat :=
  let f := frame % 2 ^ 20
  let f1 := setBits (setBits f 6 2 0) 17 1 0
  if psPriv (BitVec.ofNat 32 cur) = 1 then setBits (setBits f1 9 1 (bits cur 9 1)) 19 1 (bits cur 19 1) else f1

/-- ERET (03 R100): PC, PS, CNT, SRCP and DSTP from the frame, TSP stepped; PRIVILEGE at task level, and for a frame whose
level is 0b11 or above the current one. -/
def execEret (n : Nat) (s : State) : Host.Outcome State Fault Refusal :=
  forLp n s fun s => execOn n 1 1 [] s fun s _ _ =>
    match s.eretFrame n with
    | .error t => .error t
    | .ok (s1, fr) =>
      let p := s1.lp n
      let fps := leNat ((fr.drop 8).take 4)
      let lvl := bits fps 4 2
      if lvl = 3 ∨ lvl < p.level then .error (mkTrap 0x05 0 0 0)
      else
        let s2 := s1.onLp n fun q => { q with
          ps := BitVec.ofNat 32 (eretPs q.ps.toNat fps),
          cnt := BitVec.ofNat 64 (leNat ((fr.drop 0x18).take 8)),
          srcp := BitVec.ofNat 64 (leNat ((fr.drop 0x20).take 8)),
          dstp := BitVec.ofNat 64 (leNat ((fr.drop 0x28).take 8)),
          tspK := if p.level = 0 then q.tspK else q.tspK + 64#64,
          tspM := if p.level = 0 then q.tspM + 64#64 else q.tspM,
          rsv := none }
        .ok (s2, leNat (fr.take 8))

/-- NOP. -/
def execNop (n : Nat) (s : State) : Host.Outcome State Fault Refusal :=
  forLp n s fun s => execOn n 1 3 [] s fun s _ next => .ok (s, next)

/-- Whether the wait of WFI ends (04 R116): an interrupt above PS.ipl, MACHINE_CHECK, NMI while nmi_active is 0, or
STORE_BUS_ERROR is pending. -/
def State.wfiEnds (s : State) (n : Nat) : Bool :=
  let p := s.lp n
  (s.topInt n).isSome || p.mc.isSome || (p.nmi && !bitOf p.ps.toNat 19) || !p.sbe.isEmpty

/-- WFI (04 R116): PRIVILEGE at task level; else the wait begins, and ends at once where its end is there already. The PC is
the next instruction's. -/
def execWfi (n : Nat) (s : State) : Host.Outcome State Fault Refusal :=
  forLp n s fun s => execOn n 1 1 [] s fun s _ next =>
    .ok (if s.wfiEnds n then s else s.onLp n fun p => { p with run := .waiting }, next)

/-- The end of a WFI wait (04 R116): the event that may be taken is taken; with PS.ie = 0 the next instruction follows. -/
def execWfiWake (n : Nat) (s : State) : Host.Outcome State Fault Refusal :=
  forLp n s fun s =>
    if (s.lp n).run = .waiting && s.wfiEnds n then
      let s1 := s.onLp n fun p => { p with run := .running }
      s1.takeNext n (s1.lp n).pc.toNat (s1.lp n).ps.toNat
    else s

/-- Whether the condition of a compare-and-branch holds for its flags (04 R115). -/
def cbHolds (c : CbCond) (f : Flags) : Bool :=
  condHolds (match c with | .eq => 1 | .ne => 2 | .lt => 0xC | .ge => 0xB | .lo => 3) f

/-- CBEQ, CBNE, CBLT, CBGE, CBLO: compare as CMP does, branch, flags unchanged. -/
def execCbcc (n : Nat) (c : CbCond) (a b t : Spec) (s : State) : Host.Outcome State Fault Refusal :=
  forLp n s fun s => execOn n 1 3 [osrc a 8, osrc b 8, oadr t] s fun s r next =>
    .ok (s, if cbHolds c (subFam 64 (r.val 0) (r.val 1) 0).2 then r.val 2 else next)

/-- Entry to a vector at a committed boundary (03 R96, R97): the pending event of highest order is taken; nothing where none
can be. -/
def execVectorEntry (n : Nat) (s : State) : Host.Outcome State Fault Refusal :=
  forLp n s fun s =>
    if s.canRun n then s.takeNext n (s.lp n).pc.toNat (s.lp n).ps.toNat else s

end Sys2Proof.Machine
end

