-- ==== Sys2Proof/Machine/Fp.lean ====
section
/-! DEFINITION. Floating-point values and their rounding (05 R136-R149): decoding an encoding into an exact value, rounding an
exact rational to a format in a mode, and the exceptions each operation signals. -/

namespace Sys2Proof.Machine

/-- A format (05 R136): its width, the bits of its fraction, and its bias. -/
structure Fmt where
  width : Nat
  frac  : Nat
  bias  : Nat
  deriving DecidableEq, Repr

/-- binary32. -/
def fmt32 : Fmt := ⟨32, 23, 127⟩
/-- binary64. -/
def fmt64 : Fmt := ⟨64, 52, 1023⟩
/-- binary128. -/
def fmt128 : Fmt := ⟨128, 112, 16383⟩

/-- The format of an instruction. -/
def fmtOf : FFmt → Fmt
  | .w => fmt32 | .q => fmt64 | .o => fmt128

/-- The bytes of a format. -/
def Fmt.bytes (f : Fmt) : Nat := f.width / 8

/-- The bits of the exponent field. -/
def Fmt.expBits (f : Fmt) : Nat := f.width - f.frac - 1

/-- The exponent of the smallest subnormal's unit: 1 − bias − frac. -/
def Fmt.emin (f : Fmt) : Int := 1 - (f.bias : Int) - (f.frac : Int)

/-- An operand decoded: a NaN with its encoding, an infinity, or a finite number (−1)^sign × mant × 2^exp. -/
inductive FVal where
  | nan (enc : Nat) (quiet : Bool)
  | inf (sign : Bool)
  | fin (sign : Bool) (mant : Nat) (exp : Int)
  deriving DecidableEq, Repr

/-- The value that an encoding stands for (05 R136). -/
def Fmt.decode (f : Fmt) (v : Nat) : FVal :=
  let sign := bitOf v (f.width - 1)
  let e := bits v f.frac f.expBits
  let m := bits v 0 f.frac
  if e = 2 ^ f.expBits - 1 then
    (if m = 0 then .inf sign else .nan v (bitOf v (f.frac - 1)))
  else if e = 0 then .fin sign m f.emin
  else .fin sign (m + 2 ^ f.frac) (f.emin + (e : Int) - 1)

/-- An encoding from its three fields. -/
def Fmt.encode (f : Fmt) (sign : Bool) (e m : Nat) : Nat := bit01 sign * 2 ^ (f.width - 1) + e * 2 ^ f.frac + m

/-- Infinity. -/
def Fmt.inf (f : Fmt) (sign : Bool) : Nat := f.encode sign (2 ^ f.expBits - 1) 0
/-- The largest finite number. -/
def Fmt.maxFin (f : Fmt) (sign : Bool) : Nat := f.encode sign (2 ^ f.expBits - 2) (2 ^ f.frac - 1)
/-- The default NaN. -/
def Fmt.defaultNan (f : Fmt) : Nat := f.encode false (2 ^ f.expBits - 1) (2 ^ (f.frac - 1))
/-- Zero. -/
def Fmt.zero (f : Fmt) (sign : Bool) : Nat := f.encode sign 0 0

/-- The exceptions of 05 R140: invalid, divide by zero, overflow, underflow, inexact. -/
structure Exc where
  i : Bool
  z : Bool
  o : Bool
  u : Bool
  x : Bool
  deriving DecidableEq, Repr

/-- No exception. -/
def Exc.none : Exc := ⟨false, false, false, false, false⟩
/-- Invalid alone. -/
def Exc.inv : Exc := ⟨true, false, false, false, false⟩
/-- Inexact alone, where a test holds. -/
def Exc.inexact (b : Bool) : Exc := ⟨false, false, false, false, b⟩

/-- The exceptions as the five low bits of FPCS (05 R138). -/
def Exc.bits (e : Exc) : Nat := 16 * bit01 e.i + 8 * bit01 e.z + 4 * bit01 e.o + 2 * bit01 e.u + bit01 e.x

/-- The rounding modes (05 R139). -/
inductive RMode where | rne | rtz | rdn | rup | rna
  deriving DecidableEq, Repr

/-- FPCS.rm (05 R138): stored values are 0 to 4. -/
def rmOf (fpcs : BitVec 32) : RMode :=
  match bits fpcs.toNat 16 3 with
  | 1 => .rtz | 2 => .rdn | 3 => .rup | 4 => .rna | _ => .rne

/-- A non-negative rational num / den rounded to an integer, for a number of a sign: the integer, and whether it is exact. -/
def roundInt (rm : RMode) (sign : Bool) (num den : Nat) : Nat × Bool :=
  let q := num / den
  let r := num % den
  if r = 0 then (q, true)
  else
    let up := match rm with
      | .rne => decide (den < 2 * r) || (2 * r == den && q % 2 == 1)
      | .rna => decide (den ≤ 2 * r)
      | .rtz => false
      | .rup => !sign
      | .rdn => sign
    (if up then q + 1 else q, false)

/-- The number of bits of a number. -/
def bitLen (n : Nat) : Nat := if n = 0 then 0 else Nat.log2 n + 1

/-- num × 2^e / den as a fraction with a natural scale. -/
def scale2 (num den : Nat) (e : Int) : Nat × Nat :=
  if 0 ≤ e then (num * 2 ^ e.toNat, den) else (num, den * 2 ^ (-e).toNat)

/-- The exponent of the unit in the last place of a positive rational num / den with p bits: 2^(p−1) ≤ value / 2^k < 2^p. -/
def ulpExp (num den p : Nat) : Int :=
  let k0 : Int := (bitLen num : Int) - (bitLen den : Int) - (p : Int)
  let (a, b) := scale2 num den (-k0)
  if 2 ^ p * b ≤ a then k0 + 1 else if a < 2 ^ (p - 1) * b then k0 - 1 else k0

/-- A positive exact value num / den of a sign rounded to a format (05 R140, R141): the encoding and the exceptions. `ufEn`
is FPCS.uf_en, by which an exact tiny result signals underflow too. -/
def Fmt.roundPos (f : Fmt) (rm : RMode) (ufEn sign : Bool) (num den : Nat) : Nat × Exc :=
  let p := f.frac + 1
  let k := ulpExp num den p
  -- rounded with unbounded exponent
  let (ua, ub) := scale2 num den (-k)
  let (um, _) := roundInt rm sign ua ub
  let uk := if um = 2 ^ p then k + 1 else k
  let uMant := if um = 2 ^ p then 2 ^ (p - 1) else um
  let tiny := decide (uk < f.emin)
  -- delivered: the exponent is not below that of the subnormals
  let dk := if k < f.emin then f.emin else k
  let (da, db) := scale2 num den (-dk)
  let (dm, exact) := roundInt rm sign da db
  let emax : Int := f.emin + (2 ^ f.expBits - 3 : Nat)
  if emax < uk then
    let toInf := match rm with
      | .rne | .rna => true
      | .rtz => false
      | .rup => !sign
      | .rdn => sign
    (if toInf then f.inf sign else f.maxFin sign, ⟨false, false, true, false, true⟩)
  else
    let u := tiny && (ufEn || !exact)
    let exc : Exc := ⟨false, false, false, u, !exact⟩
    if tiny then
      (if dm < 2 ^ f.frac then (f.encode sign 0 dm, exc) else (f.encode sign 1 (dm - 2 ^ f.frac), exc))
    else
      (f.encode sign (uk - f.emin + 1).toNat (uMant - 2 ^ f.frac), exc)

/-- An exact value (−1)^sign × num / den rounded; a zero keeps the sign given. -/
def Fmt.round (f : Fmt) (rm : RMode) (ufEn sign : Bool) (num den : Nat) : Nat × Exc :=
  if num = 0 then (f.zero sign, Exc.none) else f.roundPos rm ufEn sign num den

/-- An exact value m × 2^e, m an integer, rounded; an exact zero takes the sign given. -/
def Fmt.roundInt2 (f : Fmt) (rm : RMode) (ufEn zeroSign : Bool) (m : Int) (e : Int) : Nat × Exc :=
  if m = 0 then (f.zero zeroSign, Exc.none)
  else
    let (a, b) := scale2 m.natAbs 1 e
    f.roundPos rm ufEn (decide (m < 0)) a b

/-- A NaN's encoding with the quiet bit set. -/
def Fmt.quiet (f : Fmt) (enc : Nat) : Nat := setBit enc (f.frac - 1) true

/-- A signalling NaN. -/
def FVal.isSnan : FVal → Bool
  | .nan _ q => !q
  | _ => false

/-- A NaN. -/
def FVal.isNan : FVal → Bool
  | .nan _ _ => true
  | _ => false

/-- The first NaN of a list of operands. -/
def firstNan : List FVal → Option Nat
  | [] => none
  | .nan e _ :: _ => some e
  | _ :: t => firstNan t

/-- The NaN result of an operation (05 R144): the first NaN operand made quiet, else the default NaN; invalid where an
operand signals or `inv` says so. -/
def Fmt.nanResult (f : Fmt) (vs : List FVal) (inv : Bool) : Nat × Exc :=
  ((match firstNan vs with | some e => f.quiet e | none => f.defaultNan),
    ⟨inv || vs.any FVal.isSnan, false, false, false, false⟩)

/-- The signed mantissa of a finite number. -/
def signedMant (s : Bool) (m : Nat) : Int := if s then -(m : Int) else m

/-- The sign of an exact zero sum of two zeros or of opposite numbers (IEEE 754): kept where the signs agree, else + but −
in RDN. -/
def zeroSum (rm : RMode) (a b : Bool) : Bool := if a = b then a else rm = .rdn

/-- The exact sum of two finite numbers: integer and exponent. -/
def exactSum (sa : Bool) (ma : Nat) (ea : Int) (sb : Bool) (mb : Nat) (eb : Int) : Int × Int :=
  let e := if ea ≤ eb then ea else eb
  (signedMant sa ma * 2 ^ (ea - e).toNat + signedMant sb mb * 2 ^ (eb - e).toNat, e)

/-- FADD (05 R145). -/
def Fmt.add (f : Fmt) (rm : RMode) (uf : Bool) (x y : FVal) : Nat × Exc :=
  match x, y with
  | .inf a, .inf b => if a = b then (f.inf a, Exc.none) else f.nanResult [] true
  | .inf a, .fin _ _ _ => (f.inf a, Exc.none)
  | .fin _ _ _, .inf b => (f.inf b, Exc.none)
  | .fin sa ma ea, .fin sb mb eb =>
    let (m, e) := exactSum sa ma ea sb mb eb
    f.roundInt2 rm uf (zeroSum rm sa sb) m e
  | _, _ => f.nanResult [x, y] false

/-- The negative of a value that is not a NaN. -/
def FVal.neg : FVal → FVal
  | .inf s => .inf (!s)
  | .fin s m e => .fin (!s) m e
  | v => v

/-- FSUB. -/
def Fmt.sub (f : Fmt) (rm : RMode) (uf : Bool) (x y : FVal) : Nat × Exc := f.add rm uf x y.neg

/-- FMUL. -/
def Fmt.mul (f : Fmt) (rm : RMode) (uf : Bool) (x y : FVal) : Nat × Exc :=
  match x, y with
  | .inf a, .inf b => (f.inf (a != b), Exc.none)
  | .inf a, .fin b m _ => if m = 0 then f.nanResult [] true else (f.inf (a != b), Exc.none)
  | .fin a m _, .inf b => if m = 0 then f.nanResult [] true else (f.inf (a != b), Exc.none)
  | .fin sa ma ea, .fin sb mb eb =>
    f.roundInt2 rm uf (sa != sb) (signedMant (sa != sb) (ma * mb)) (ea + eb)
  | _, _ => f.nanResult [x, y] false

/-- FDIV. -/
def Fmt.div (f : Fmt) (rm : RMode) (uf : Bool) (x y : FVal) : Nat × Exc :=
  match x, y with
  | .inf _, .inf _ => f.nanResult [] true
  | .inf a, .fin b _ _ => (f.inf (a != b), Exc.none)
  | .fin a _ _, .inf b => (f.zero (a != b), Exc.none)
  | .fin sa ma ea, .fin sb mb eb =>
    if mb = 0 then
      (if ma = 0 then f.nanResult [] true else (f.inf (sa != sb), ⟨false, true, false, false, false⟩))
    else
      let (a, b) := scale2 ma mb (ea - eb)
      f.round rm uf (sa != sb) a b
  | _, _ => f.nanResult [x, y] false

/-- The integer square root, bit by bit from bit `k` down. -/
def isqrtFrom (n : Nat) : Nat → Nat → Nat
  | 0, r => r
  | k + 1, r => if (r + 2 ^ k) * (r + 2 ^ k) ≤ n then isqrtFrom n k (r + 2 ^ k) else isqrtFrom n k r

/-- The integer square root. -/
def isqrt (n : Nat) : Nat := isqrtFrom n (bitLen n / 2 + 1) 0

/-- FSQRT (05 R145): the root's integer part with enough bits, and a sticky bit, rounded. -/
def Fmt.sqrt (f : Fmt) (rm : RMode) (uf : Bool) (x : FVal) : Nat × Exc :=
  match x with
  | .nan _ _ => f.nanResult [x] false
  | .inf true => f.nanResult [] true
  | .inf false => (f.inf false, Exc.none)
  | .fin s m e =>
    if m = 0 then (f.zero s, Exc.none)
    else if s then f.nanResult [] true
    else
      let e1 := if e % 2 = 0 then e else e - 1
      let m1 := if e % 2 = 0 then m else 2 * m
      let k := 2 * f.frac + 8
      let big := m1 * 2 ^ (2 * k)
      let r := isqrt big
      let r1 := 2 * r + (if r * r = big then 0 else 1)
      f.roundInt2 rm uf false (r1 : Int) (e1 / 2 - (k : Int) - 1)

/-- FMA (05 R145): a × b + m with one rounding; the NaN order is m, a, b (R144). -/
def Fmt.fma (f : Fmt) (rm : RMode) (uf : Bool) (m a b : FVal) : Nat × Exc :=
  let zeroInf := match a, b with
    | .inf _, .fin _ x _ => x == 0
    | .fin _ x _, .inf _ => x == 0
    | _, _ => false
  if m.isNan || a.isNan || b.isNan then f.nanResult [m, a, b] zeroInf
  else if zeroInf then f.nanResult [] true
  else match a, b, m with
    | .inf x, .inf y, .inf z => if (x != y) = z then (f.inf z, Exc.none) else f.nanResult [] true
    | .inf x, .fin y _ _, .inf z => if (x != y) = z then (f.inf z, Exc.none) else f.nanResult [] true
    | .fin x _ _, .inf y, .inf z => if (x != y) = z then (f.inf z, Exc.none) else f.nanResult [] true
    | .inf x, .inf y, .fin _ _ _ => (f.inf (x != y), Exc.none)
    | .inf x, .fin y _ _, .fin _ _ _ => (f.inf (x != y), Exc.none)
    | .fin x _ _, .inf y, .fin _ _ _ => (f.inf (x != y), Exc.none)
    | .fin _ _ _, .fin _ _ _, .inf z => (f.inf z, Exc.none)
    | .fin sa ma ea, .fin sb mb eb, .fin sm mm em =>
      let (x, e) := exactSum (sa != sb) (ma * mb) (ea + eb) sm mm em
      f.roundInt2 rm uf (zeroSum rm (sa != sb) sm) x e
    | _, _, _ => f.nanResult [] true

/-- The order of two values that are not NaNs, −0 and +0 equal: less, equal or greater. -/
def fcompare : FVal → FVal → Ordering
  | .inf a, .inf b => if a = b then .eq else if a then .lt else .gt
  | .inf a, _ => if a then .lt else .gt
  | _, .inf b => if b then .gt else .lt
  | .fin sa ma ea, .fin sb mb eb =>
    let (d, _) := exactSum sa ma ea (!sb) mb eb
    if d < 0 then .lt else if d = 0 then .eq else .gt
  | _, _ => .eq

/-- The flags of FCMP and FCMPS (05 R146). -/
def fcmpFlags (x y : FVal) : Flags :=
  if x.isNan || y.isNan then ⟨false, false, true, false⟩
  else match fcompare x y with
    | .lt => ⟨true, false, false, false⟩
    | .eq => ⟨false, true, false, false⟩
    | .gt => ⟨false, false, false, false⟩

/-- A value encoded exactly. -/
def Fmt.enc (f : Fmt) (v : FVal) : Nat :=
  match v with
  | .nan e _ => e
  | .inf s => f.inf s
  | .fin s m e => (f.roundInt2 .rne false s (signedMant s m) e).1

/-- The sign of a value. -/
def FVal.sign : FVal → Bool
  | .nan _ _ => false
  | .inf s => s
  | .fin s _ _ => s

/-- FMIN and FMAX (05 R147): IEEE 754-2019 minimum and maximum, −0 less than +0. -/
def Fmt.minmax (f : Fmt) (max : Bool) (x y : FVal) : Nat × Exc :=
  if x.isNan || y.isNan then f.nanResult [x, y] false
  else
    let less := match fcompare x y with
      | .lt => true
      | .gt => false
      | .eq => x.sign && !y.sign
    (f.enc (if less != max then x else y), Exc.none)

/-- FCLASS's mask (05 R147). -/
def Fmt.fclass (f : Fmt) (v : FVal) : Nat :=
  match v with
  | .nan _ q => if q then 512 else 256
  | .inf s => if s then 1 else 128
  | .fin s m _ =>
    if m = 0 then (if s then 8 else 16)
    else if m < 2 ^ f.frac then (if s then 4 else 32)
    else (if s then 2 else 64)

/-- A finite value rounded to an integer: its sign, the magnitude, and whether it is exact. -/
def roundFin (rm : RMode) (s : Bool) (m : Nat) (e : Int) : Nat × Bool :=
  let (a, b) := scale2 m 1 e
  roundInt rm s a b

/-- CVTFI (05 R148): to a signed .Q. -/
def cvtFi (rm : RMode) (v : FVal) : Nat × Exc :=
  match v with
  | .nan _ _ => (2 ^ 63, Exc.inv)
  | .inf s => (if s then 2 ^ 63 else 2 ^ 63 - 1, Exc.inv)
  | .fin s m e =>
    let (q, exact) := roundFin rm s m e
    if s then
      (if q ≤ 2 ^ 63 then ((2 ^ 64 - q) % 2 ^ 64, Exc.inexact (!exact)) else (2 ^ 63, Exc.inv))
    else
      (if q < 2 ^ 63 then (q, Exc.inexact (!exact)) else (2 ^ 63 - 1, Exc.inv))

/-- CVTFU (05 R148): to an unsigned .Q. -/
def cvtFu (rm : RMode) (v : FVal) : Nat × Exc :=
  match v with
  | .nan _ _ => (0, Exc.inv)
  | .inf s => (if s then 0 else 2 ^ 64 - 1, Exc.inv)
  | .fin s m e =>
    let (q, exact) := roundFin rm s m e
    if s then (if q = 0 then (0, Exc.inexact (!exact)) else (0, Exc.inv))
    else (if q < 2 ^ 64 then (q, Exc.inexact (!exact)) else (2 ^ 64 - 1, Exc.inv))

/-- FRINT (05 R149). -/
def Fmt.frint (f : Fmt) (rm : RMode) (v : FVal) : Nat × Exc :=
  match v with
  | .nan _ _ => f.nanResult [v] false
  | .inf s => (f.inf s, Exc.none)
  | .fin s m e =>
    let (q, exact) := roundFin rm s m e
    ((f.roundInt2 rm false s (signedMant s q) 0).1, Exc.inexact (!exact))

/-- A NaN carried to another format (05 R144): sign kept, quiet bit set, payload aligned at its most significant bits. -/
def convNan (src dst : Fmt) (enc : Nat) : Nat :=
  let sign := bitOf enc (src.width - 1)
  let m := bits enc 0 src.frac
  let m1 := if dst.frac ≤ src.frac then m / 2 ^ (src.frac - dst.frac) else m * 2 ^ (dst.frac - src.frac)
  dst.quiet (dst.encode sign (2 ^ dst.expBits - 1) m1)

/-- FCVT (05 R149). -/
def fconvert (src dst : Fmt) (rm : RMode) (uf : Bool) (v : FVal) : Nat × Exc :=
  match v with
  | .nan e q => (convNan src dst e, ⟨!q, false, false, false, false⟩)
  | .inf s => (dst.inf s, Exc.none)
  | .fin s m e =>
    let (r, x) := dst.roundInt2 rm uf s (signedMant s m) e
    (r, if src.frac < dst.frac then Exc.none else x)

/-- An integer rounded to a format. -/
def Fmt.ofInt (f : Fmt) (rm : RMode) (i : Int) : Nat × Exc := f.roundInt2 rm false false i 0

end Sys2Proof.Machine
end

