-- ==== Sys2Proof/Machine/Float.lean ====
section
/-! DEFINITION. The floating-point instructions (04 R117, 05 R136-R152), CVTFP and CVTPF with the packed form of 04 R118-R121
apart (Decimal.lean). -/

namespace Sys2Proof.Machine

/-- The enables of FPCS, in the order of the flags (05 R138). -/
def fpEnables (fpcs : BitVec 32) : Nat := bits fpcs.toNat 8 5

/-- Whether FPCS.uf_en is set. -/
def fpUfEn (fpcs : BitVec 32) : Bool := bitOf fpcs.toNat 9

/-- The vector of the enabled exception that comes first in the order I, Z, O, U, X (05 R142). -/
def fpVector (e : Exc) (en : Nat) : Option Nat :=
  if e.i && bitOf en 4 then some 0x10
  else if e.z && bitOf en 3 then some 0x11
  else if e.o && bitOf en 2 then some 0x12
  else if e.u && bitOf en 1 then some 0x13
  else if e.x && bitOf en 0 then some 0x14
  else none

/-- FPCS with the signalled exceptions ORed into its flags. -/
def fpcsOr (fpcs : BitVec 32) (e : Exc) : BitVec 32 := fpcs ||| BitVec.ofNat 32 e.bits

/-- The end of a floating-point operation (05 R142, R143): the trap with its detail, or the flags and then the rest. -/
def fpFinish (n : Nat) (e : Exc) (s : State) (next : Nat) (write : State → State) : Except Trap (State × Nat) :=
  let fpcs := (s.lp n).fpcs
  match fpVector e (fpEnables fpcs) with
  | some v => .error (mkTrap v (e.bits + 32 * bits fpcs.toNat 16 3) 0 0)
  | none => .ok (write (s.onLp n fun p => { p with fpcs := fpcsOr p.fpcs e }), next)

/-- The value of a floating-point source (03 R84): a literal is the integer converted exactly. -/
def Fmt.source (f : Fmt) (r : Ready) (i : Nat) : FVal :=
  match r.os[i]? with
  | some o =>
    (match o.spec with
      | .lit k => f.decode (f.ofInt .rne k.toNat).1
      | _ => f.decode (r.val i))
  | none => f.decode (r.val i)

/-- The rounding mode in force. -/
def State.rmode (s : State) (n : Nat) : RMode := rmOf (s.lp n).fpcs

/-- Whether uf_en is in force. -/
def State.ufEn (s : State) (n : Nat) : Bool := fpUfEn (s.lp n).fpcs

/-- An instruction d, a, b of one format. -/
def fp3 (n : Nat) (ff : FFmt) (d a b : Spec) (s : State)
    (g : Fmt → RMode → Bool → FVal → FVal → Nat × Exc) : State :=
  let f := fmtOf ff
  execOn n 1 3 [odst d f.bytes, osrc a f.bytes, osrc b f.bytes] s fun s r next =>
    let x := g f (s.rmode n) (s.ufEn n) (f.source r 1) (f.source r 2)
    fpFinish n x.2 s next fun t => r.put t n 0 x.1

/-- An instruction d, a whose source is a floating-point value of a format, with the bytes of the destination. -/
def fp2 (n opBytes dbytes : Nat) (f : Fmt) (d a : Spec) (s : State)
    (g : RMode → Bool → FVal → Nat × Exc) : State :=
  execOn n opBytes 3 [odst d dbytes, osrc a f.bytes] s fun s r next =>
    let x := g (s.rmode n) (s.ufEn n) (f.source r 1)
    fpFinish n x.2 s next fun t => r.put t n 0 x.1

/-- FADD. -/
def execFadd (n : Nat) (f : FFmt) (d a b : Spec) (s : State) : Host.Outcome State Fault Refusal :=
  forLp n s fun s => fp3 n f d a b s Fmt.add

/-- FSUB. -/
def execFsub (n : Nat) (f : FFmt) (d a b : Spec) (s : State) : Host.Outcome State Fault Refusal :=
  forLp n s fun s => fp3 n f d a b s Fmt.sub

/-- FMUL. -/
def execFmul (n : Nat) (f : FFmt) (d a b : Spec) (s : State) : Host.Outcome State Fault Refusal :=
  forLp n s fun s => fp3 n f d a b s Fmt.mul

/-- FDIV. -/
def execFdiv (n : Nat) (f : FFmt) (d a b : Spec) (s : State) : Host.Outcome State Fault Refusal :=
  forLp n s fun s => fp3 n f d a b s Fmt.div

/-- FSQRT. -/
def execFsqrt (n : Nat) (f : FFmt) (d a : Spec) (s : State) : Host.Outcome State Fault Refusal :=
  forLp n s fun s => fp2 n 1 (fmtOf f).bytes (fmtOf f) d a s (fmtOf f).sqrt

/-- FMA: m := a × b + m, one rounding. -/
def execFma (n : Nat) (f : FFmt) (m a b : Spec) (s : State) : Host.Outcome State Fault Refusal :=
  forLp n s fun s =>
    let k := (fmtOf f).bytes
    execOn n 1 3 [ormw m k, osrc a k, osrc b k] s fun s r next =>
      let x := (fmtOf f).fma (s.rmode n) (s.ufEn n) ((fmtOf f).source r 0) ((fmtOf f).source r 1) ((fmtOf f).source r 2)
      fpFinish n x.2 s next fun t => r.put t n 0 x.1

/-- A comparison (05 R146): `quiet` signals invalid for a signalling NaN only. -/
def fpCompare (n : Nat) (ff : FFmt) (quiet : Bool) (a b : Spec) (s : State) : State :=
  let f := fmtOf ff
  execOn n 1 3 [osrc a f.bytes, osrc b f.bytes] s fun s r next =>
    let x := f.source r 0
    let y := f.source r 1
    let inv := if quiet then x.isSnan || y.isSnan else x.isNan || y.isNan
    fpFinish n ⟨inv, false, false, false, false⟩ s next fun t => t.setFlags n (fcmpFlags x y)

/-- FCMP. -/
def execFcmp (n : Nat) (f : FFmt) (a b : Spec) (s : State) : Host.Outcome State Fault Refusal :=
  forLp n s fun s => fpCompare n f true a b s

/-- FCMPS. -/
def execFcmps (n : Nat) (f : FFmt) (a b : Spec) (s : State) : Host.Outcome State Fault Refusal :=
  forLp n s fun s => fpCompare n f false a b s

/-- FMIN. -/
def execFmin (n : Nat) (f : FFmt) (d a b : Spec) (s : State) : Host.Outcome State Fault Refusal :=
  forLp n s fun s => fp3 n f d a b s fun f _ _ x y => f.minmax false x y

/-- FMAX. -/
def execFmax (n : Nat) (f : FFmt) (d a b : Spec) (s : State) : Host.Outcome State Fault Refusal :=
  forLp n s fun s => fp3 n f d a b s fun f _ _ x y => f.minmax true x y

/-- The opcode bytes of FCLASS (04 R117): the binary128 form is F1 2E. -/
def fclassOp : FFmt → Nat
  | .o => 2
  | _ => 1

/-- FCLASS: a 16-bit mask, no exception. -/
def execFclass (n : Nat) (f : FFmt) (d a : Spec) (s : State) : Host.Outcome State Fault Refusal :=
  forLp n s fun s => fp2 n (fclassOp f) 2 (fmtOf f) d a s fun _ _ v => ((fmtOf f).fclass v, Exc.none)

/-- CVTFI: to a signed .Q. -/
def execCvtfi (n : Nat) (f : FFmt) (d a : Spec) (s : State) : Host.Outcome State Fault Refusal :=
  forLp n s fun s => fp2 n 2 8 (fmtOf f) d a s fun rm _ v => cvtFi rm v

/-- CVTFU: to an unsigned .Q. -/
def execCvtfu (n : Nat) (f : FFmt) (d a : Spec) (s : State) : Host.Outcome State Fault Refusal :=
  forLp n s fun s => fp2 n 2 8 (fmtOf f) d a s fun rm _ v => cvtFu rm v

/-- A conversion from a .Q integer. -/
def fpFromInt (n : Nat) (f : Fmt) (d a : Spec) (s : State) (value : Nat → Int) : State :=
  execOn n 2 3 [odst d f.bytes, osrc a 8] s fun s r next =>
    let x := f.ofInt (s.rmode n) (value (r.val 1))
    fpFinish n x.2 s next fun t => r.put t n 0 x.1

/-- CVTIF: from a signed .Q. -/
def execCvtif (n : Nat) (f : FFmt) (d a : Spec) (s : State) : Host.Outcome State Fault Refusal :=
  forLp n s fun s => fpFromInt n (fmtOf f) d a s fun v => signed v 64

/-- CVTUF: from an unsigned .Q. -/
def execCvtuf (n : Nat) (f : FFmt) (d a : Spec) (s : State) : Host.Outcome State Fault Refusal :=
  forLp n s fun s => fpFromInt n (fmtOf f) d a s fun v => (v : Int)

/-- FRINT. -/
def execFrint (n : Nat) (f : FFmt) (d a : Spec) (s : State) : Host.Outcome State Fault Refusal :=
  forLp n s fun s => fp2 n 2 (fmtOf f).bytes (fmtOf f) d a s fun rm _ v => (fmtOf f).frint rm v

/-- The formats of FCVT, destination first (04 R117). -/
def cvtFmts : CvtPair → Fmt × Fmt
  | .qw => (fmt64, fmt32) | .ow => (fmt128, fmt32) | .wq => (fmt32, fmt64)
  | .oq => (fmt128, fmt64) | .wo => (fmt32, fmt128) | .qo => (fmt64, fmt128)

/-- FCVT. -/
def execFcvt (n : Nat) (p : CvtPair) (d a : Spec) (s : State) : Host.Outcome State Fault Refusal :=
  forLp n s fun s => fp2 n 2 (cvtFmts p).1.bytes (cvtFmts p).2 d a s fun rm uf v =>
    fconvert (cvtFmts p).2 (cvtFmts p).1 rm uf v

end Sys2Proof.Machine
end

