-- ==== Sys2Proof/Machine/Decimal.lean ====
section
/-! DEFINITION. Packed decimal (04 R118-R122) with its two floating-point conversions (05 R148). A packed operand of L bytes
is the number that its bytes spell, little-endian: nibble k is bits [4k + 3 : 4k]. -/

namespace Sys2Proof.Machine

/-- Nibble `k` of a packed operand (04 R118). -/
def nibble (p k : Nat) : Nat := bits p (4 * k) 4

/-- Whether every digit and the sign of a packed operand of L bytes is valid (04 R119). -/
def pdValid (p l : Nat) : Bool :=
  ((List.range (2 * l - 1)).all fun k => decide (nibble p (k + 1) ≤ 9)) &&
    (nibble p 0 == 0xC || nibble p 0 == 0xD || nibble p 0 == 0xF)

/-- The magnitude that digits 1 to k of a packed operand spell. -/
def pdDigits (p : Nat) : Nat → Nat
  | 0 => 0
  | k + 1 => pdDigits p k + nibble p (k + 1) * 10 ^ k

/-- The value of a valid packed operand (04 R121). -/
def pdValue (p l : Nat) : Int :=
  if nibble p 0 = 0xD then -(pdDigits p (2 * l - 1) : Int) else (pdDigits p (2 * l - 1) : Int)

/-- The nibbles of the digits of a magnitude, from weight 10^0 up. -/
def pdNibbles (m : Nat) : Nat → Nat
  | 0 => 0
  | k + 1 => m % 10 + 16 * pdNibbles (m / 10) k

/-- The bytes of a value as a packed result of L bytes: zero is positive (04 R119). -/
def pdEncode (l : Nat) (v : Int) : Nat := (if v < 0 then 0xD else 0xC) + 16 * pdNibbles v.natAbs (2 * l - 1)

/-- Whether a value does not fit L bytes. -/
def pdOver (l : Nat) (v : Int) : Bool := decide (10 ^ (2 * l - 1) ≤ v.natAbs)

/-- The flags that describe a value written. -/
def pdFlags (v : Int) : Flags := ⟨decide (v < 0), decide (v = 0), false, false⟩

/-- The address of operand `i` for a frame: of its workspace slot in memory, or of its memory; zero for a constant. -/
def Ready.faultAddr (r : Ready) (s : State) (n i : Nat) : Nat :=
  match r.ps[i]? with
  | some (.mem a) => a
  | some (.wslot off) => ((s.lp n).wp.toNat + off) % 2 ^ 64
  | _ => 0

/-- A packed source read: DECIMAL_DATA with its index and address where a nibble is invalid (04 R119). -/
def Ready.packed (r : Ready) (s : State) (n i l : Nat) : Except Trap Int :=
  if pdValid (r.val i) l then .ok (pdValue (r.val i) l) else .error (mkTrap 0x0C 0 (i + 1) (r.faultAddr s n i))

/-- A packed result of L bytes written to operand 0 with its flags (04 R121), or DECIMAL_OVERFLOW. -/
def pdWrite (n l : Nat) (s : State) (r : Ready) (next : Nat) (v : Int) : Except Trap (State × Nat) :=
  if pdOver l v then .error (mkTrap 0x0D 0 0 0)
  else .ok ((r.put s n 0 (pdEncode l v)).setFlags n (pdFlags v), next)

/-- d, a, b of 16 bytes, all packed; `divides` where a zero b is INT_DIVIDE. -/
def pd3 (n : Nat) (divides : Bool) (d a b : Spec) (s : State) (f : Int → Int → Int) : State :=
  execOn n 1 3 [opdst d 16, opsrc a 16, opsrc b 16] s fun s r next =>
    match r.packed s n 1 16, r.packed s n 2 16 with
    | .error t, _ => .error t
    | .ok _, .error t => .error t
    | .ok x, .ok y => if divides && y == 0 then .error (mkTrap 0x0A 0 0 0) else pdWrite n 16 s r next (f x y)

/-- d, a of 16 bytes, packed. -/
def pd2 (n : Nat) (d a : Spec) (s : State) (f : Int → Int) : State :=
  execOn n 1 3 [opdst d 16, opsrc a 16] s fun s r next =>
    match r.packed s n 1 16 with
    | .error t => .error t
    | .ok x => pdWrite n 16 s r next (f x)

/-- d, a of 16 bytes, packed, and an unsigned byte k. -/
def pdk (n : Nat) (d a k : Spec) (s : State) (f : Int → Nat → Int) : State :=
  execOn n 1 3 [opdst d 16, opsrc a 16, osrc k 1] s fun s r next =>
    match r.packed s n 1 16 with
    | .error t => .error t
    | .ok x => pdWrite n 16 s r next (f x (r.val 2))

/-- PDADD. -/
def execPdadd (n : Nat) (d a b : Spec) (s : State) : Host.Outcome State Fault Refusal :=
  forLp n s fun s => pd3 n false d a b s fun x y => x + y

/-- PDSUB. -/
def execPdsub (n : Nat) (d a b : Spec) (s : State) : Host.Outcome State Fault Refusal :=
  forLp n s fun s => pd3 n false d a b s fun x y => x - y

/-- PDMUL. -/
def execPdmul (n : Nat) (d a b : Spec) (s : State) : Host.Outcome State Fault Refusal :=
  forLp n s fun s => pd3 n false d a b s fun x y => x * y

/-- PDDIV: quotient toward zero. -/
def execPddiv (n : Nat) (d a b : Spec) (s : State) : Host.Outcome State Fault Refusal :=
  forLp n s fun s => pd3 n true d a b s Int.tdiv

/-- PDREM: remainder with the sign of a. -/
def execPdrem (n : Nat) (d a b : Spec) (s : State) : Host.Outcome State Fault Refusal :=
  forLp n s fun s => pd3 n true d a b s Int.tmod

/-- PDCMP: n := a < b, z := a = b. -/
def execPdcmp (n : Nat) (a b : Spec) (s : State) : Host.Outcome State Fault Refusal :=
  forLp n s fun s => execOn n 1 3 [opsrc a 16, opsrc b 16] s fun s r next =>
    match r.packed s n 0 16, r.packed s n 1 16 with
    | .error t, _ => .error t
    | .ok _, .error t => .error t
    | .ok x, .ok y => .ok (s.setFlags n ⟨decide (x < y), decide (x = y), false, false⟩, next)

/-- The control byte that gives the lengths of the operands before it, read with the base registers as they stand before the
instruction. DESIGN CHOICE, log 26. -/
def State.peekK (s : State) (n idx : Nat) (k : Spec) : Nat :=
  match s.place n idx (osrc k 1) with
  | .error _ => 0
  | .ok (s1, pl) =>
    match s1.fetchOpd n idx (osrc k 1) pl with
    | .error _ => 0
    | .ok (_, v) => v % 256

/-- PDCHK: z := 1 where the operand of k [3:0] + 1 bytes is valid. -/
def execPdchk (n : Nat) (a k : Spec) (s : State) : Host.Outcome State Fault Refusal :=
  forLp n s fun s =>
    let l := s.peekK n 2 k % 16 + 1
    execOn n 1 3 [opsrc a l, osrc k 1] s fun s r next =>
      .ok (s.setFlags n ⟨false, pdValid (r.val 0) l, false, false⟩, next)

/-- PDMOV: from k [3:0] + 1 bytes to k [7:4] + 1 bytes. -/
def execPdmov (n : Nat) (d a k : Spec) (s : State) : Host.Outcome State Fault Refusal :=
  forLp n s fun s =>
    let kv := s.peekK n 3 k
    let la := kv % 16 + 1
    let ld := kv / 16 + 1
    execOn n 1 3 [opdst d ld, opsrc a la, osrc k 1] s fun s r next =>
      match r.packed s n 1 la with
      | .error t => .error t
      | .ok x => pdWrite n ld s r next x

/-- A value divided by 10^k, rounded half away from zero (04 R120). -/
def pdShrValue (x : Int) (k : Nat) : Int :=
  let m := (2 * x.natAbs + 10 ^ k) / (2 * 10 ^ k)
  if x < 0 then -(m : Int) else (m : Int)

/-- PDSHL: a × 10^k. -/
def execPdshl (n : Nat) (d a k : Spec) (s : State) : Host.Outcome State Fault Refusal :=
  forLp n s fun s => pdk n d a k s fun x k => x * 10 ^ k

/-- PDSHR: a ÷ 10^k, rounded half away from zero. -/
def execPdshr (n : Nat) (d a k : Spec) (s : State) : Host.Outcome State Fault Refusal :=
  forLp n s fun s => pdk n d a k s pdShrValue

/-- PDNEG. -/
def execPdneg (n : Nat) (d a : Spec) (s : State) : Host.Outcome State Fault Refusal :=
  forLp n s fun s => pd2 n d a s fun x => -x

/-- PDABS. -/
def execPdabs (n : Nat) (d a : Spec) (s : State) : Host.Outcome State Fault Refusal :=
  forLp n s fun s => pd2 n d a s fun x => (x.natAbs : Int)

/-- The bytes of CVTPB and CVTBP's integer. -/
def qbytes : QSize → Nat
  | .q => 8 | .o => 16

/-- CVTPB: packed to binary; DECIMAL_OVERFLOW where the .Q result does not fit. -/
def execCvtpb (n : Nat) (sz : QSize) (d a : Spec) (s : State) : Host.Outcome State Fault Refusal :=
  forLp n s fun s => execOn n 1 3 [odst d (qbytes sz), opsrc a 16] s fun s r next =>
    match r.packed s n 1 16 with
    | .error t => .error t
    | .ok x =>
      let w := 8 * qbytes sz
      if x < -(2 ^ (w - 1) : Int) ∨ (2 ^ (w - 1) : Int) ≤ x then .error (mkTrap 0x0D 0 0 0)
      else .ok ((r.put s n 0 (wrapInt x w)).setFlags n (pdFlags x), next)

/-- CVTBP: binary to packed; DECIMAL_OVERFLOW where the .O source does not fit. -/
def execCvtbp (n : Nat) (sz : QSize) (d a : Spec) (s : State) : Host.Outcome State Fault Refusal :=
  forLp n s fun s => execOn n 1 3 [opdst d 16, osrc a (qbytes sz)] s fun s r next =>
    pdWrite n 16 s r next (signed (r.val 1) (8 * qbytes sz))

/-- What CVTFP gives (05 R148): the packed value and the exceptions. -/
def cvtFp (rm : RMode) (v : FVal) : Int × Exc :=
  match v with
  | .nan _ _ => (0, Exc.inv)
  | .inf s => ((if s then -(10 ^ 31 - 1) else 10 ^ 31 - 1), Exc.inv)
  | .fin s m e =>
    let (q, exact) := roundFin rm s m e
    if 10 ^ 31 ≤ q then ((if s then -(10 ^ 31 - 1) else 10 ^ 31 - 1), Exc.inv)
    else (if s then -(q : Int) else (q : Int), Exc.inexact (!exact))

/-- CVTFP: to 31 packed digits. -/
def execCvtfp (n : Nat) (f : FFmt) (d a : Spec) (s : State) : Host.Outcome State Fault Refusal :=
  forLp n s fun s => execOn n 2 3 [opdst d 16, osrc a (fmtOf f).bytes] s fun s r next =>
    let x := cvtFp (s.rmode n) ((fmtOf f).source r 1)
    fpFinish n x.2 s next fun t => r.put t n 0 (pdEncode 16 x.1)

/-- CVTPF: from 31 packed digits; DECIMAL_DATA comes before any floating-point exception (05 R142). -/
def execCvtpf (n : Nat) (f : FFmt) (d a : Spec) (s : State) : Host.Outcome State Fault Refusal :=
  forLp n s fun s => execOn n 2 3 [odst d (fmtOf f).bytes, opsrc a 16] s fun s r next =>
    match r.packed s n 1 16 with
    | .error t => .error t
    | .ok v =>
      let x := (fmtOf f).ofInt (s.rmode n) v
      fpFinish n x.2 s next fun t => r.put t n 0 x.1

end Sys2Proof.Machine
end

