-- ==== Sys2Proof/Machine/Packets.lean ====
section
/-! DEFINITION. Packets that a link accepts (10 R288, R289, R298, R300): forwarding, reassembly of transactions,
acknowledgements, and the two-way time transfer (R306). -/

namespace Sys2Proof.Machine

/-- The stamp of a packet that arrives with an age (10 R298). -/
def State.arrivalStamp (s : State) (p : Packet) : Int := s.hcNow - p.age.toNat

/-- A packet sent on, or handled as having no route (10 R300). -/
def State.forward (s : State) (l : Nat) (p : Packet) : State :=
  match s.route p with
  | .out o => s.linkPush o p (s.arrivalStamp p)
  | .hops => (s.linkCount l 6 1).linkErr l 5
  | .none => s.noRoute p l
  | .deliver => s

/-- The context of a transaction at an engine (10 R289). -/
def State.context (s : State) (e : Nat) (p : Packet) : Option Reasm :=
  s.reasm.find? fun r => r.eng == e && r.srcDev == p.srcDev && r.srcQ == p.srcQ && r.seq == p.seq.toNat

/-- Bytes that a context holds. -/
def Reasm.held (r : Reasm) : Nat := r.segs.foldl (fun n x => n + x.2.length) 0

/-- A segment put into a context: bytes held already are ignored (10 R289). -/
def Reasm.put (r : Reasm) (p : Packet) : Reasm :=
  if (tblGet? r.segs p.offset).isSome ∨ r.tlen < p.offset + p.payload.length then r
  else { r with segs := tblSet r.segs p.offset p.payload }

/-- The transaction of a whole context. -/
def Reasm.whole (r : Reasm) : Inbound :=
  { srcDev := r.srcDev, srcQ := r.srcQ, src := peerTarget r.srcDev r.srcQ, destQ := r.destQ, seq := r.seq, durable := r.durable,
    reply := r.reply, exch := r.exch, exSeq := r.exSeq, data := r.segs.flatMap (·.2) }

/-- A context kept, or handled where it is whole (10 R289). -/
def State.assemble (s : State) (l : Nat) (r : Reasm) (nv : Verifies) : State :=
  if r.held = r.tlen ∧ r.tlen ≠ 0 then
    let m := r.whole
    let (s1, a) := s.arrive m nv
    s1.answerPeer m a l
  else { s with reasm := s.reasm ++ [r] }

/-- A DATA packet for this device (10 R289): its context, opened where there is room, and the whole transaction handled by
08 R216. -/
def State.dataIn (s : State) (l : Nat) (p : Packet) (nv : Verifies) : State :=
  let e := s.tqEngine p.destQ
  let fresh : Reasm := ⟨e, p.srcDev, p.srcQ, p.destQ, p.seq.toNat, p.tlen, p.durable, p.reply, p.exch, p.exSeq.toNat,
    s.time.cycles, []⟩
  match s.context e p with
  | none =>
    if 1024 ≤ (s.reasm.filter fun r => r.eng == e).length then s
    else s.assemble l (fresh.put p) nv
  | some r => ({ s with reasm := s.reasm.erase r }).assemble l (r.put p) nv
/-- An acknowledgement or refusal for this device (08 R215). -/
def State.controlIn (s : State) (p : Packet) : State :=
  let tg := peerTarget p.srcDev p.srcQ
  if p.typ.toNat = 2 then s.ackIn p.destQ tg p.seq.toNat p.inc.toNat
  else s.refuseIn p.destQ tg p.seq.toNat p.reason.toNat p.inc.toNat

/-- A packet that a link accepts: an invalid type is discarded and recorded (10 R288); one for another device is forwarded; one
for this device is taken. -/
def State.packetIn (s : State) (l : Nat) (p : Packet) (nv : Verifies) : State :=
  if !s.linkUp l then s
  else
    let s1 := s.linkAccept l p
    let t := p.typ.toNat
    if t = 0 ∨ 5 < t then s1.linkErr l 8
    else
      match s1.route p with
      | .deliver =>
        if t = 1 then s1.dataIn l p nv
        else if t = 2 ∨ t = 3 then s1.controlIn p
        else s1
      | _ => s1.forward l p

/-- A packet for another device (10 R300). -/
def execPacketForward (l : Nat) (p : Packet) (s : State) : Host.Outcome State Fault Refusal :=
  forUnit l 128 s fun s => s.packetIn l p []

/-- A DATA packet (10 R289); `nv` are the verify results of the DELIVER record that it may complete. -/
def execDataPacket (l : Nat) (p : Packet) (nv : Verifies) (s : State) : Host.Outcome State Fault Refusal :=
  forUnit l 128 s fun s => if p.typ.toNat = 1 then s.packetIn l p nv else s

/-- An ACK packet (08 R215, R217). -/
def execAckPacket (l : Nat) (p : Packet) (s : State) : Host.Outcome State Fault Refusal :=
  forUnit l 128 s fun s => if p.typ.toNat = 2 then s.packetIn l p [] else s

/-- A REFUSE packet (08 R215). -/
def execRefusePacket (l : Nat) (p : Packet) (s : State) : Host.Outcome State Fault Refusal :=
  forUnit l 128 s fun s => if p.typ.toNat = 3 then s.packetIn l p [] else s

/-- Contexts of an engine not completed within 2 ms discarded (10 R289). -/
def execReassemblyTimeout (e : Nat) (s : State) : Host.Outcome State Fault Refusal :=
  forUnit e 16 s fun s =>
    { s with reasm := s.reasm.filter fun r => r.eng != e || decide (s.time.cycles < r.at_ + 2000000) }

/-- The stamp of a control block as it leaves or arrives at a link's first port (09 R248, 10 R306). -/
def State.linkTx (s : State) (l : Nat) : Stamp :=
  stampTb (s.tbIn (0x10 + portGroup l) + s.fld (Off.portTslat l) 16 16 * 2 ^ 46)
/-- The receive stamp. -/
def State.linkRx (s : State) (l : Nat) : Stamp :=
  stampTb (s.tbIn (0x10 + portGroup l) - s.fld (Off.portTslat l) 0 16 * 2 ^ 46)

/-- A TSYNC request sent with a new identity (10 R306). -/
def execTsyncSend (l : Nat) (s : State) : Host.Outcome State Fault Refusal :=
  forUnit l 128 s fun s =>
    if s.linkUp l then
      let id := ((s.link l).ident + 1) % 256
      (s.onLink l fun x => { x with
        ident := id, tsync := (x.tsync.filter fun m => m.ident != id) ++ [⟨id, s.linkTx l, none, none⟩] }).linkWord l 0x66 id
    else s

/-- A TSYNC request received: the reply, and the TIME packet with its receive and transmit stamps to the far end (10 R306). -/
def execTsyncRequestReceived (l : Nat) (ident : BitVec 8) (s : State) : Host.Outcome State Fault Refusal :=
  forUnit l 128 s fun s =>
    if s.linkUp l then
      let isl := 0x10 + portGroup l
      let p := { s.newPacket 5 0 (s.fld (Off.lnkStat l) 32 18) 0 0 0 with
        payload := s.tsBytes isl (s.linkRx l) ++ s.tsBytes isl (s.linkTx l) }
      ((s.linkWord l 0x66 (ident.toNat + 256)).onLink l fun x => { x with queue := x.queue ++ [⟨p, s.hcNow⟩] })
    else s

/-- A stamp in units of 2^-16 ns. -/
def stampUnits (t : Stamp) : Int := (t.ns * 65536 + t.frac : Nat)

/-- A measurement with its four stamps ends: LNK_TT takes the mean of the last 16 (10 R306). -/
def State.measure (s : State) (l : Nat) (m : Tsync) (t4 t2 t3 : Stamp) : State :=
  let there := stampUnits t2 - stampUnits m.t1
  let back := stampUnits t4 - stampUnits t3
  let asym := signed (s.fld (Off.lnkCfg l) 16 16) 16
  let s1 := s.onLink l fun x => { x with
    tsync := x.tsync.filter fun y => y.ident != m.ident,
    meas := (x.meas ++ [((there - back) / 2, (there + back) / 2)]).drop (x.meas.length - 15) }
  let ms := (s1.link l).meas
  let off := (ms.foldl (fun (a : Int) x => a + x.1) 0) / (ms.length * 1024 : Nat) - asym
  let del := (ms.foldl (fun (a : Int) x => a + x.2) 0) / (ms.length * 1024 : Nat)
  s1.setReg (Off.lnkTt l) (wrapInt off 32 * 2 ^ 32 + wrapInt del 32)

/-- A measurement in flight changed, and ended where all its stamps are there. -/
def State.onTsync (s : State) (l id : Nat) (f : Tsync → Tsync) : State :=
  match (s.link l).tsync.find? fun m => m.ident == id with
  | none => s
  | some m =>
    let m1 := f m
    match m1.t4, m1.t23 with
    | some t4, some (t2, t3) => s.measure l m1 t4 t2 t3
    | _, _ => s.onLink l fun x => { x with tsync := x.tsync.map fun y => if y.ident = id then m1 else y }

/-- A TSYNC reply received (10 R306). -/
def execTsyncReplyReceived (l : Nat) (ident : BitVec 8) (s : State) : Host.Outcome State Fault Refusal :=
  forUnit l 128 s fun s => if s.linkUp l then s.onTsync l ident.toNat fun m => { m with t4 := some (s.linkRx l) } else s

/-- A TIME packet (10 R306). -/
def execTimePacket (l : Nat) (ident : BitVec 8) (t2 t3 : Stamp) (s : State) : Host.Outcome State Fault Refusal :=
  forUnit l 128 s fun s =>
    if s.linkUp l then
      let p := { s.newPacket 5 0 s.selfDev 0 0 0 with payload := natBytes 32 0 }
      (s.linkAccept l p).onTsync l ident.toNat fun m => { m with t23 := some (t2, t3) }
    else s

end Sys2Proof.Machine
end

