-- ==== Sys2Proof/Machine/Formation.lean ====
section
/-! DEFINITION. Domain formation (10 R302-R305, R307): FORM packets, the root, up*/down* routes, the member table and the time
parent. Nodes are named by their unique identities. -/

namespace Sys2Proof.Machine

/-- This device's identity. -/
def myUid : Nat := Config.uniqueId.toNat

/-- The domain of this device. -/
def State.myDomain (s : State) : Nat :=
  match s.svc.ident with
  | some (d, _, _, _) => d
  | none => s.selfDev / 1024

/-- The root priority of this device; zero before any SET_IDENTITY. DESIGN CHOICE, log 53. -/
def State.myPrio (s : State) : Nat :=
  match s.svc.ident with
  | some (_, p, _, _) => p
  | none => 0

/-- Links that formation uses: UP, not inter-domain, the far end known (10 R302, R303). -/
def State.formLinks (s : State) : List (Nat × Nat) :=
  (List.range 128).filterMap fun l =>
    if s.linkUp l && !s.flag (Off.lnkStat l) 2 then (s.link l).nbr.map fun u => (l, u) else none

/-- What this device says of itself (10 R303 step 2). -/
def State.myNode (s : State) : FormNode :=
  { domain := s.myDomain, member := if s.selfValid then some (s.selfDev % 1024) else none, uid := myUid, prio := s.myPrio,
    links := s.formLinks }

/-- A FORM packet with a node's state put on a link, class 0. -/
def State.sendForm (s : State) (l : Nat) (n : FormNode) : State :=
  let p := { s.newPacket 4 0 (s.fld (Off.lnkStat l) 32 18) 0 0 0 with form := some n }
  s.onLink l fun x => { x with queue := x.queue ++ [⟨p, s.hcNow⟩] }

/-- A node's state flooded on every link of the domain but one. -/
def State.flood (s : State) (but : Option Nat) (n : FormNode) : State :=
  ((List.range 128).filter fun l => s.linkUp l && !s.flag (Off.lnkStat l) 2 && some l != but).foldl (fun u l => u.sendForm l n) s

/-- A FORM packet received (10 R302, R303): the first on a link names its far end; news of the domain are kept and flooded on,
and no formation crosses an inter-domain link. -/
def execFormPacket (l : Nat) (n : FormNode) (s : State) : Host.Outcome State Fault Refusal :=
  forUnit l 128 s fun s =>
    if !s.linkUp l then s
    else
      let s1 := s.linkAccept l (s.newPacket 4 0 s.selfDev 0 0 0)
      let s2 :=
        if (s1.link l).nbr.isSome then s1
        else
          let t := (s1.onLink l fun x => { x with nbr := some n.uid }).setFlag (Off.lnkStat l) 2 (n.domain != s1.myDomain)
          t.setFld (Off.lnkStat l) 32 18 (n.domain * 1024 + n.member.getD 0)
      if n.domain ≠ s2.myDomain ∨ n.uid = myUid ∨ tblGet? s2.form n.uid = some n then s2
      else ({ s2 with form := tblSet s2.form n.uid n }).flood (some l) n

/-- The link state of the domain as this device knows it, itself included. -/
def State.formNodes (s : State) : List FormNode := s.myNode :: (s.form.filter fun e => e.1 != myUid).map (·.2)

/-- Two nodes are joined: each lists the other. -/
def joined (ns : List FormNode) (a b : Nat) : Bool :=
  (ns.any fun n => n.uid == a && n.links.any fun e => e.2 == b) && (ns.any fun n => n.uid == b && n.links.any fun e => e.2 == a)

/-- The joined neighbours of a node. -/
def neighbours (ns : List FormNode) (u : Nat) : List Nat :=
  ((ns.filter fun n => n.uid == u).flatMap fun n => n.links.map (·.2)).eraseDups.filter fun v => joined ns u v

/-- Hop distances from a node, spread `fuel` hops further: nodes reached, each with its distance. -/
def spread (ns : List FormNode) : Nat → Nat → Tbl Nat → List Nat → Tbl Nat
  | 0, _, t, _ => t
  | fuel + 1, d, t, front =>
    let next := (front.flatMap fun u => neighbours ns u).eraseDups.filter fun v => (tblGet? t v).isNone
    if next.isEmpty then t
    else spread ns fuel (d + 1) (next.foldl (fun t v => tblSet t v (d + 1)) t) next

/-- Hop distances from a node over the part of the domain that it reaches. -/
def hopsFrom (ns : List FormNode) (u : Nat) : Tbl Nat := spread ns ns.length 0 [(u, 0)] [u]

/-- The root of a part (10 R303 step 4): lowest priority, then lowest identity. -/
def formRoot (part : List FormNode) : Option FormNode :=
  part.foldl (fun (b : Option FormNode) n =>
    match b with
    | none => some n
    | some x => if n.prio < x.prio ∨ (n.prio = x.prio ∧ n.uid < x.uid) then some n else b) none

/-- Whether a hop leads towards the root (10 R304): a tie of distance is broken by the lower identity. -/
def hopUp (dist : Tbl Nat) (u v : Nat) : Bool :=
  let du := tblGetD dist u 0
  let dv := tblGetD dist v 0
  decide (dv < du) || (dv == du && decide (v < u))

/-- The least of some lengths. -/
def least (l : List (Option Nat)) : Option Nat :=
  l.foldl (fun (b : Option Nat) x => match b, x with
    | none, y => y
    | some a, some c => some (min a c)
    | some a, none => some a) none

/-- One round of path lengths to a destination over hops that a test allows, from the lengths at the neighbours. -/
def relax (ns : List FormNode) (part : List Nat) (t : Tbl Nat) (step : Nat → Nat → Option Nat) : Tbl Nat :=
  part.foldl (fun acc u =>
    match least (tblGet? t u :: (neighbours ns u).map fun v => (step u v).map (· + 1)) with
    | some d => tblSet acc u d
    | none => acc) t

/-- `fuel` rounds. -/
def relaxN (ns : List FormNode) (part : List Nat) (step : Tbl Nat → Nat → Nat → Option Nat) : Nat → Tbl Nat → Tbl Nat
  | 0, t => t
  | fuel + 1, t => relaxN ns part step fuel (relax ns part t (step t))

/-- The lengths of the shortest paths to a destination that never turn to the root, and of the shortest legal ones (10 R304). -/
def legalLengths (ns : List FormNode) (part : List Nat) (dist : Tbl Nat) (dest : Nat) : Tbl Nat × Tbl Nat :=
  let down := relaxN ns part (fun t u v => if hopUp dist u v then none else tblGet? t v) part.length [(dest, 0)]
  (down, relaxN ns part (fun t u v => if hopUp dist u v then tblGet? t v else tblGet? down v) part.length [(dest, 0)])

/-- The links of the shortest legal next hops to a destination, in rising order, at most four (10 R304). -/
def nextHops (ns : List FormNode) (part : List Nat) (dist : Tbl Nat) (mine : List (Nat × Nat)) (dest : Nat) : List Nat :=
  let (down, any) := legalLengths ns part dist dest
  let len : Nat → Option Nat := fun v => (if hopUp dist myUid v then tblGet? any v else tblGet? down v).map (· + 1)
  match least (mine.map fun e => len e.2) with
  | none => []
  | some d => ((mine.filter fun e => len e.2 == some d).map (·.1)).take 4

/-- A member table entry from its links (RT_MEMBER). -/
def memberEntry (ls : List Nat) : Nat :=
  match ls with
  | [] => 0
  | _ => 2 ^ 63 + (ls.length - 1) * 2 ^ 32 +
    ls.getD 3 0 * 2 ^ 24 + ls.getD 2 0 * 2 ^ 16 + ls.getD 1 0 * 2 ^ 8 + ls.getD 0 0

/-- The node of a part that holds a member number: of several, the one of lowest identity (10 R305). -/
def memberNode (part : List FormNode) (m : Nat) : Option FormNode :=
  formRoot ((part.filter fun n => n.member == some m).map fun n => { n with prio := 0 })

/-- A device that finds its member number held by a node of lower identity gives up its own (10 R305). -/
def State.dupMember (s : State) (part : List FormNode) : State :=
  if !s.selfValid then s
  else
    match memberNode part (s.selfDev % 1024) with
    | some n =>
      if n.uid = myUid then s
      else ((s.setFlag Off.rtSelf 31 false).linkErr 0 7).event 0xD (s.selfDev % 1024) n.uid 0 []
    | none => s

/-- The member table rewritten (10 R303 step 5). -/
def State.writeMembers (s : State) (ns part : List FormNode) (dist : Tbl Nat) : State :=
  let ids := part.map (·.uid)
  (List.range 1024).foldl (fun u m =>
    let e := match memberNode part m with
      | some n => if n.uid = myUid then 0 else memberEntry (nextHops ns ids dist s.formLinks n.uid)
      | none => 0
    u.setReg (Off.rtMember m) e) s

/-- The time parent set (10 R307): the lowest-numbered link towards the root. -/
def State.setParent (s : State) (dist : Tbl Nat) : State :=
  let d := tblGetD dist myUid 0
  let up := s.formLinks.filter fun e => decide (0 < d) && tblGet? dist e.2 == some (d - 1)
  let p := (up.map (·.1)).head?
  (List.range 128).foldl (fun u l =>
    if u.flag (Off.lnkStat l) 3 = (some l == p) then u else u.setFlag (Off.lnkStat l) 3 (some l == p)) s

/-- Formation at this device (10 R303-R305): its state flooded, the root chosen, the routes and the time parent set. -/
def State.formNow (s : State) : State :=
  let s1 := s.flood none s.myNode
  let ns := s1.formNodes
  let reach := hopsFrom ns myUid
  let part := ns.filter fun n => (tblGet? reach n.uid).isSome
  let s2 := s1.dupMember part
  match formRoot part with
  | none => s2
  | some r =>
    let dist := hopsFrom ns r.uid
    (s2.writeMembers ns part dist).setParent dist

/-- Formation after a link change (10 R303). -/
def execFormation (s : State) : Host.Outcome State Fault Refusal := .next s.formNow

end Sys2Proof.Machine
end

