-- ==== Sys2Proof/Machine/Host.lean ====
section
/-! DEFINITION. The host port (15 R395-R416): the link and its resets, MSI-X, register pages, CXL.mem and snoops. -/

namespace Sys2Proof.Machine

/-- An event of the host port: its cause and function in HP_ERR, and its source (15 R415, R416). -/
def State.hpEvent (s : State) (cause fn src : Nat) : State := (s.logCause Off.hpErr cause (fn * 2 ^ 32)).raise src

/-- The message of a pending vector sent once, where it can be sent now (15 R402). -/
def State.msixFlush (s : State) (f v : Nat) : State :=
  if (s.fn f).pend.contains v && s.msixOpen f v then
    (({ s with fns := tblSet s.fns f { s.fn f with pend := (s.fn f).pend.filter (· != v) } } : State).emit (.msix f v)).countHub 2 7 1
  else s

/-- The messages of every pending vector sent that can be (15 R402, R414). -/
def State.msixFlushAll (s : State) : State :=
  s.fns.foldl (fun (t : State) e => e.2.pend.foldl (fun (t : State) v => t.msixFlush e.1 v) t) s

/-- The link active again after it was not (15 R414). -/
def State.hostRises (s : State) : State :=
  if s.flag Off.hpStat 0 then s.msixFlushAll
  else ((s.setFlag Off.hpStat 0 true).hpEvent 1 0 764).msixFlushAll

/-- The host link trains (15 R395, R396): its mode, rate and width in HP_STAT; a fallback to PCIe is an event of its own, before the
link is active. -/
def execCxlLinkTraining (cxl : Bool) (speed : BitVec 2) (width : BitVec 3) (s : State) : Host.Outcome State Fault Refusal :=
  if speed = 0 ∨ width.toNat < 2 ∨ 4 < width.toNat then .refused .noSuchUnit
  else .next (
    let s1 := ((s.setFlag Off.hpStat 1 cxl).setFld Off.hpStat 8 2 speed.toNat).setFld Off.hpStat 4 3 width.toNat
    (if cxl then s1 else s1.hpEvent 3 0 764).hostRises)

/-- The host lines that some L2 holds, in a slot or in its eviction buffer. -/
def State.hostLines (s : State) : List Nat :=
  (s.l2.flatMap fun e => (e.2.slots.filterMap fun x => if x.2.valid then x.2.line else none) ++ e.2.ebuf).eraseDups.filter
    fun l => s.addrKind l == .host

/-- Every host line invalidated in the L2s and the snoop filter; each dirty one is lost and counted (15 R414). -/
def State.hostInvalidate (s : State) : State :=
  let lines := s.hostLines
  let dirty := (s.underL2.map (·.1)).filter fun l => s.addrKind l == .host
  let s1 := lines.foldl (fun (t : State) l => (clusters.foldl (fun (t : State) c => t.l2Drop c l) t).clearRsv l fun _ => true) s
  let s2 : State := { s1 with l2 := tblMap (fun _ x => { x with fills := x.fills.filter fun f => s.addrKind f.line != .host }) s1.l2 }
  let s3 := dirty.foldl (fun (t : State) l => t.l2Discard l) s2
  if dirty.isEmpty then s3
  else (s3.setReg Off.hpLost (satAdd (s3.reg Off.hpLost) dirty.length 0xFFFFFFFF)).hpEvent 6 0 766

/-- The dirty logs in state ON or FULL broken, each with its event (15 R414). -/
def State.logsBreak (s : State) : State :=
  (List.range 63).foldl (fun (t : State) i =>
    let st := t.fld (Off.hpDlog i) 0 2
    if st = 1 ∨ st = 2 then (t.setFld (Off.hpDlog i) 0 2 3).hpEvent 5 (i + 1) 765 else t) s

/-- Loss of the host link (15 R414). -/
def execHostLinkDown (s : State) : Host.Outcome State Fault Refusal :=
  .next (
    if !s.flag Off.hpStat 0 then s
    else ((s.setFlag Off.hpStat 0 false).hpEvent 1 0 764).hostInvalidate.logsBreak)

/-- The host link active again without a conventional reset (15 R414). -/
def execHostLinkUp (s : State) : Host.Outcome State Fault Refusal := .next s.hostRises

/-- A function's MSI-X table and control at their reset values; what is pending stays pending (15 R409, R414). -/
def State.fnReset (s : State) (f : Nat) : State :=
  { s with fns := tblSet s.fns f { HostFn.reset with pend := (s.fn f).pend } }

/-- A conventional reset (15 R414): the block reset of the host port. Host lines go as at any exit of the link from its active
state. -/
def execConventionalReset (s : State) : Host.Outcome State Fault Refusal :=
  .next (
    let s1 := (s.hpEvent 2 0 764).hostInvalidate
    let s2 := (s1.fns.map (·.1)).foldl (fun (t : State) f => t.fnReset f) s1
    let s3 := (List.range 63).foldl (fun (t : State) i => t.setReg (Off.hpDlog i) 0) (s2.setReg Off.hpStat 0)
    ({ s3 with dlogs := [], chip := { s3.chip with hdm := none, hdmErr := false } } : State).resetTaken .hostPort)

/-- A function-level reset (15 R409, 13 R374). -/
def execFunctionLevelReset (fn : Nat) (s : State) : Host.Outcome State Fault Refusal :=
  forUnit fn 64 s fun s =>
    let s1 := (s.fnReset fn).senderReset fn
    if fn = 0 then s1
    else { s1.setFld (Off.hpDlog (fn - 1)) 0 2 0 with dlogs := tblErase s1.dlogs fn }

/-- 256 MiB. -/
def hdmUnit : Nat := 0x10000000

/-- The host commits the HDM decoder (15 R403): where it fails, the error bit is set and nothing is committed. -/
def execHdmCommit (base size skip ways : Nat) (s : State) : Host.Outcome State Fault Refusal :=
  .next (
    if !s.hostOk then s
    else if size % hdmUnit = 0 ∧ skip % hdmUnit = 0 ∧ size ≤ 2 ^ 40 ∧ skip + size ≤ s.installed ∧ ways = 1 then
      { s.setFlag Off.hpStat 10 true with chip := { s.chip with hdm := some (base, size, skip), hdmErr := false } }
    else { s.setFlag Off.hpStat 10 false with chip := { s.chip with hdm := none, hdmErr := true } })

/-- The device physical address of a host range, where the HDM decoder maps all of it. -/
def State.hdmDpa (s : State) (a n : Nat) : Option Nat :=
  match s.chip.hdm with
  | some (base, size, skip) => if base ≤ a ∧ a + n ≤ base + size then some (a - base + skip) else none
  | none => none

/-- A CXL.mem read of the host (15 R403); before READY it waits (R414). -/
def execCxlMemRead (addr len : Nat) (s : State) : Host.Outcome State Fault Refusal :=
  .next (
    if !s.hostOk || !s.ready then s
    else
      let s1 := s.countHub 2 4 1
      match s.hdmDpa addr len with
      | some a => s1.answer (.bytes (s1.agentRead a len) (s1.poisoned a len))
      | none => s1.answer (.bytes (List.replicate len 0xFF) true))

/-- A CXL.mem write of the host (15 R403); before READY it waits (R414). -/
def execCxlMemWrite (addr : Nat) (bytes : List (BitVec 8)) (s : State) : Host.Outcome State Fault Refusal :=
  .next (
    if !s.hostOk || !s.ready then s
    else
      let s1 := s.countHub 2 5 1
      match s.hdmDpa addr bytes.length with
      | some a => (s1.agentWrite a bytes).answer .done
      | none => s1.answer .done)

/-- A host snoop (15 R407), at a host physical address: answered from the snoop filter and the L2s, with the line's bytes where a
copy is dirty; the dirty copy is written back, and every copy goes where the host asks for ownership. -/
def execHostSnoop (addr : Nat) (invalidate : Bool) (s : State) : Host.Outcome State Fault Refusal :=
  .next (
    let line := lineOf (hostBase + addr)
    if !s.hostOk || s.addrKind line != .host then s
    else
      let s1 := (s.holders line).foldl (fun (t : State) c => t.countCl c 5 1) s
      let r : Resp := if (tblGet? s.underL2 line).isSome then .bytes (s.lineBytes line) (s.poison.contains line) else .done
      let s2 := (s1.l2WriteBack line).l2Clean line
      (if invalidate then (clusters.foldl (fun (t : State) c => t.l2Drop c line) s2).clearRsv line fun _ => true else s2).answer r)

/-- An ATS invalidation (15 R407): every request of the model is performed when its command ends, so it completes at once; lines held
stay valid. -/
def execAtsInvalidation (fn _page : Nat) (s : State) : Host.Outcome State Fault Refusal :=
  forUnit fn 64 s fun s => if s.flag Off.hpStat 0 then s.answer .done else s

/-- An entry of a function's MSI-X table. -/
def State.msixEntry (s : State) (f v : Nat) : MsixVec := tblGetD (s.fn f).table v ⟨0, 0, true⟩

/-- An entry of a function's MSI-X table written; a message that becomes deliverable is sent (15 R402). -/
def State.msixPut (s : State) (f v : Nat) (e : MsixVec) : State :=
  ({ s with fns := tblSet s.fns f { s.fn f with table := tblSet (s.fn f).table v e } } : State).msixFlush f v

/-- The host unmasks a vector (15 R402). -/
def execMsixUnmask (fn vector : Nat) (s : State) : Host.Outcome State Fault Refusal :=
  forUnit fn 64 s fun s =>
    if vector < msixCount fn then s.msixPut fn vector { s.msixEntry fn vector with masked := false } else s

/-- What a BAR offset reaches: a register, a byte of the MSI-X table or of the pending-bit array, or nothing (15 R398, R399). -/
inductive BarTo where | reg (off : Nat) | table (i : Nat) | pba (i : Nat) | nothing
  deriving DecidableEq, Repr

/-- The windows of PF0's BAR0 beyond its function page (15 R398): BAR offset, size, offset from REGBASE. -/
def barWindows : List (Nat × Nat × Nat) :=
  [(0x0100000, 0x100000, 0x28000000), (0x0200000, 0x100000, 0x18100000), (0x0300000, 0x10000, 0x18000000),
   (0x0400000, 0x240000, 0x24000000), (0x0700000, 0x30000, 0x25000000), (0x0800000, 0x10000, 0x22000000),
   (0x0900000, 0x10000, 0x36000000), (0x1000000, 0x800000, 0x20000000), (0x2000000, 0x1000000, 0x21000000),
   (0x4000000, 0x1000000, 0x2E000000)]

/-- The i-th object of a kind that VF_ASSIGN gave a function (15 R399, R408). -/
def State.assignedAt (s : State) (f kind i : Nat) : Option Nat :=
  ((s.assigns.filter fun a => a.vf == f && a.kind == kind).flatMap fun a => (List.range a.count).map (a.first + ·))[i]?

/-- A register of an object slot, where the slot has an object. -/
def slotReg (base stride rest : Nat) : Option Nat → BarTo
  | some o => .reg (base + o * stride + rest)
  | none => .nothing

/-- What an offset of a function page reaches (15 R399). -/
def State.pageTo (s : State) (f off : Nat) : BarTo :=
  let rest := off % 0x100
  if off < 0x10000 then (if off < 8 then .reg (Off.dbPendHf f + off) else if off < 16 then .reg (Off.dbMaskHf f + (off - 8)) else .nothing)
  else if off < 0x50000 then
    let i := (off - 0x10000) / 0x100
    if i < 4 then .reg (Off.mbxTx ([2 * f, 2 * f + 1, 128 + 2 * f, 129 + 2 * f].getD i 0) 0 + rest)
    else slotReg 0x28000000 0x100 rest (s.assignedAt f 4 (i - 4))
  else if 0x80000 ≤ off ∧ off < 0xC0000 then slotReg 0x18100000 0x100 rest (s.assignedAt f 1 ((off - 0x80000) / 0x100))
  else if 0xC0000 ≤ off ∧ off < 0xC2400 then slotReg 0x24000000 0x10000 rest (s.assignedAt f 2 ((off - 0xC0000) / 0x100))
  else if 0xC4000 ≤ off ∧ off < 0xC6400 then slotReg 0x25010000 0x100 rest (s.assignedAt f 3 ((off - 0xC4000) / 0x100))
  else if 0xE0000 ≤ off ∧ off < 0xE0000 + 16 * msixCount f then .table (off - 0xE0000)
  else if 0xF0000 ≤ off ∧ off < 0xF0000 + msixCount f / 8 then .pba (off - 0xF0000)
  else .nothing

/-- What a BAR offset reaches (15 R398, R399): PF0's function page, its other windows, or a VF's page. -/
def State.barTo (s : State) (f off : Nat) : BarTo :=
  if off < 0x100000 then s.pageTo f off
  else if f ≠ 0 then .nothing
  else match barWindows.find? fun w => decide (w.1 ≤ off) && decide (off < w.1 + w.2.1) with
    | some w => .reg (w.2.2 + (off - w.1))
    | none => .nothing

/-- The sixteen bytes of an MSI-X table entry: address, data, and the mask in bit 0 of the last word. -/
def MsixVec.bytes (e : MsixVec) : List Byte := natBytes 8 e.addr.toNat ++ natBytes 4 e.data.toNat ++ natBytes 4 (bit01 e.masked)

/-- An entry from its sixteen bytes. -/
def MsixVec.ofBytes (bs : List Byte) : MsixVec :=
  ⟨BitVec.ofNat 64 (leNat (bs.take 8)), BitVec.ofNat 32 (leNat ((bs.drop 8).take 4)), bitOf (leNat (bs.drop 12)) 0⟩

/-- A read of the MSI-X table or the pending bits. -/
def State.msixRead (s : State) (f size : Nat) : BarTo → Nat
  | .table i => leNat (((s.msixEntry f (i / 16)).bytes.drop (i % 16)).take size)
  | .pba i => (List.range (8 * size)).foldl (fun v b => if (s.fn f).pend.contains (8 * i + b) then v + 2 ^ b else v) 0
  | _ => 0

/-- A write of the MSI-X table; the pending bits are read only. -/
def State.msixWrite (s : State) (f size v : Nat) : BarTo → State
  | .table i =>
    let bs := (s.msixEntry f (i / 16)).bytes
    let o := i % 16
    s.msixPut f (i / 16) (MsixVec.ofBytes ((bs.take o ++ natBytes (min size (16 - o)) v ++ bs.drop (o + size)).take 16))
  | _ => s

/-- A BAR access refused (15 R400, R415): Completer Abort for a read, nothing for a write; HP_ERR records both (DEDUCED, log 72). -/
def State.barRefused (s : State) (f : Nat) (write : Bool) : State :=
  (s.hpEvent 8 f 766).answer (if write then .done else .completerAbort)

/-- Whether a BAR of a function has an offset (15 R397). -/
def barHas (b : BarAddr) : Bool := decide (b.fn < 64) && decide (b.offset < (if b.fn = 0 then 0x10000000 else 0x100000))

/-- A BAR access of the host (15 R398-R400): before READY a read returns zero and a write is dropped (R414). -/
def execBarAccess (bar : BarAddr) (size : Nat) (write : Option (BitVec 64)) (s : State) : Host.Outcome State Fault Refusal :=
  if !barHas bar then .refused .noSuchUnit
  else .next (
    if !s.flag Off.hpStat 0 || decide (s.fld Off.hpStat 16 6 < bar.fn) then s
    else if !s.ready then s.answer (match write with | some _ => .done | none => .value 0)
    else
      let tgt := s.barTo bar.fn bar.offset
      match tgt, write with
      | .reg off, none =>
        (match readReg s bar.fn 0 off size with
          | some (s1, v) => s1.answer (.value (BitVec.ofNat 64 v))
          | none => (s.accessRefused off size bar.fn).barRefused bar.fn false)
      | .reg off, some v =>
        (match writeReg s bar.fn 0 off size (v.toNat % 2 ^ (8 * size)) with
          | (s1, true) => s1.answer .done
          | (s1, false) => s1.barRefused bar.fn true)
      | t, none => s.answer (.value (BitVec.ofNat 64 (s.msixRead bar.fn size t)))
      | t, some v => (s.msixWrite bar.fn size v.toNat t).answer .done)

end Sys2Proof.Machine
end

