-- ==== Sys2Proof/Machine/Strings.lean ====
section
/-! DEFINITION. The string instructions and the RPT prefix (04 R123-R126). One element of each is written once; the prefix
repeats it until CNT is 0, an event is taken, or an element traps. -/

namespace Sys2Proof.Machine

/-- What an element does (04 R124). -/
inductive StrElem where
  | mov | movr | cmp | scan (want : Bool) | fil | xlt | crc | sum | spn | and | or | xor | popc | xch
  deriving DecidableEq, Repr

/-- Whether an element keeps a scan result in its first operand. -/
def StrElem.scans : StrElem → Bool
  | .cmp | .scan _ | .spn => true
  | _ => false

/-- Whether an element adds to an m operand. -/
def StrElem.accumulates : StrElem → Bool
  | .crc | .sum | .popc => true
  | _ => false

/-- The scan result that stands for no match. -/
def noMatch : Nat := 2 ^ 64 - 1

/-- An address operand of a table: `size` bytes where its mode is a memory mode, by which Bn steps (04 R126), and else an
8-byte value. -/
def otab (sp : Spec) (size : Nat) : Opd := ⟨sp, .adr, if isMem sp then size else 8, false, false⟩

/-- The element and the operands of a string instruction; none for a byte that is none (04 R123). -/
def strShape : StrOp → Option (StrElem × List Opd)
  | .smov => some (.mov, [])
  | .smovr => some (.movr, [])
  | .scmp d => some (.cmp, [ormw d 8])
  | .sscn d a => some (.scan true, [ormw d 8, osrc a 1])
  | .sscnn d a => some (.scan false, [ormw d 8, osrc a 1])
  | .sfil a => some (.fil, [osrc a 1])
  | .sxlt t => some (.xlt, [otab t 256])
  | .scrc m => some (.crc, [ormw m 4])
  | .ssum m => some (.sum, [ormw m 8])
  | .sspn d t => some (.spn, [ormw d 8, otab t 32])
  | .sand => some (.and, [])
  | .sor => some (.or, [])
  | .sxor => some (.xor, [])
  | .spopc m => some (.popc, [ormw m 8])
  | .sxch => some (.xch, [])
  | .notString _ => none

/-- A byte read at an element's pointer. -/
def State.elemLoad (s : State) (n a : Nat) : Except Trap (State × Nat) :=
  match (s.lp n).checkOp a 1 .read (s.lp n).level 0 with
  | .error t => .error t
  | .ok mt =>
    match s.load n a 1 mt with
    | none => .error (mkTrap 0x08 0 0 a)
    | some (s1, v) => .ok (s1, v % 256)

/-- A byte written at an element's pointer. -/
def State.elemStore (s : State) (n a v : Nat) : Except Trap State :=
  match (s.lp n).checkOp a 1 .write (s.lp n).level 0 with
  | .error t => .error t
  | .ok mt => .ok (s.store n a mt [BitVec.ofNat 8 v])

/-- The pointers stepped. -/
def State.stepPtrs (s : State) (n : Nat) (src dst : Int) : State :=
  s.onLp n fun p => { p with srcp := p.srcp + BitVec.ofInt 64 src, dstp := p.dstp + BitVec.ofInt 64 dst }

/-- A scan result after an element. -/
def scanNext (acc addr : Nat) (hit : Bool) : Nat := if acc = noMatch && hit then addr else acc

/-- An element on the bytes at SRCP and DSTP that writes DSTP. -/
def State.elemBoth (s : State) (n : Nat) (f : Nat → Nat → Nat) : Except Trap State :=
  let p := s.lp n
  match s.elemLoad n p.dstp.toNat with
  | .error t => .error t
  | .ok (s1, y) =>
    match s1.elemLoad n p.srcp.toNat with
    | .error t => .error t
    | .ok (s2, x) =>
      match s2.elemStore n p.dstp.toNat (f y x) with
      | .error t => .error t
      | .ok s3 => .ok (s3.stepPtrs n 1 1)

/-- An element on the byte at SRCP that gives a new value of the first operand. -/
def State.elemSrc (s : State) (n : Nat) (f : Nat → Nat → Nat) : Except Trap (State × Nat) :=
  let a := (s.lp n).srcp.toNat
  match s.elemLoad n a with
  | .error t => .error t
  | .ok (s1, x) => .ok (s1.stepPtrs n 1 0, f a x)

/-- ONE ELEMENT (04 R124): `acc` is the first operand's value where the element keeps a result there, `a` the byte
operand, `tbl` the table. The state, and the new value of the first operand. -/
def State.element (s : State) (n : Nat) (e : StrElem) (acc a : Nat) (tbl : List Byte) : Except Trap (State × Nat) :=
  let p := s.lp n
  let src := p.srcp.toNat
  let dst := p.dstp.toNat
  let keep (r : Except Trap State) : Except Trap (State × Nat) :=
    match r with
    | .error t => .error t
    | .ok s1 => .ok (s1, acc)
  match e with
  | .mov =>
    keep (match s.elemLoad n src with
      | .error t => .error t
      | .ok (s1, x) => match s1.elemStore n dst x with
        | .error t => .error t
        | .ok s2 => .ok (s2.stepPtrs n 1 1))
  | .movr =>
    keep (match s.elemLoad n ((2 ^ 64 - 1 + src) % 2 ^ 64) with
      | .error t => .error t
      | .ok (s1, x) => match s1.elemStore n ((2 ^ 64 - 1 + dst) % 2 ^ 64) x with
        | .error t => .error t
        | .ok s2 => .ok (s2.stepPtrs n (-1) (-1)))
  | .cmp =>
    match s.elemLoad n src with
    | .error t => .error t
    | .ok (s1, x) => match s1.elemLoad n dst with
      | .error t => .error t
      | .ok (s2, y) => .ok (s2.stepPtrs n 1 1, scanNext acc src (x != y))
  | .scan want => s.elemSrc n fun ad x => scanNext acc ad ((x == a) == want)
  | .fil =>
    keep (match s.elemStore n dst a with
      | .error t => .error t
      | .ok s1 => .ok (s1.stepPtrs n 0 1))
  | .xlt =>
    keep (match s.elemLoad n src with
      | .error t => .error t
      | .ok (s1, x) => match s1.elemStore n dst (tbl.getD x 0).toNat with
        | .error t => .error t
        | .ok s2 => .ok (s2.stepPtrs n 1 1))
  | .crc => s.elemSrc n fun _ x => crcStep acc x
  | .sum => s.elemSrc n fun ad x => (acc + (if ad % 2 = 0 then x * 256 else x)) % 2 ^ 64
  | .spn => s.elemSrc n fun ad x => scanNext acc ad (!bitOf (tbl.getD (x / 8) 0).toNat (x % 8))
  | .and => keep (s.elemBoth n Nat.land)
  | .or => keep (s.elemBoth n Nat.lor)
  | .xor => keep (s.elemBoth n Nat.xor)
  | .popc => s.elemSrc n fun _ x => (acc + popCount x 8) % 2 ^ 64
  | .xch =>
    keep (match s.elemLoad n src with
      | .error t => .error t
      | .ok (s1, x) => match s1.elemLoad n dst with
        | .error t => .error t
        | .ok (s2, y) => match s2.elemStore n dst x with
          | .error t => .error t
          | .ok s3 => match s3.elemStore n src y with
            | .error t => .error t
            | .ok s4 => .ok (s4.stepPtrs n 1 1))

/-- The flags of a scan (04 R124). -/
def scanFlags (acc : Nat) : Flags := ⟨false, acc == noMatch, false, false⟩

/-- The bytes of a table, of a checked type (04 R125): none is a bus error. -/
def State.tableBytes (s : State) (n a size : Nat) (mt : MemType) : Option (State × List Byte) :=
  match mt with
  | .device =>
    let s1 := s.drainAll n
    match s1.rangeKind a size with
    | some .dram => if s1.poisoned a size then none else some (s1, s1.agentRead a size)
    | some .host => if s1.hostOk then some (s1, s1.agentRead a size) else none
    | _ => none
  | _ =>
    let s1 := s.drainPast n a size (2 * (s.lp n).sb.length)
    let ok : Bool := match s1.rangeKind a size with
      | some .dram => !s1.poisoned a size
      | some .host => s1.hostOk && !s1.poisoned a size
      | _ => false
    if !ok then none
    else if mt = .wb then some (s1.missFills n a size, s1.readBytes n a size) else some (s1, s1.agentRead a size)

/-- load_table of 04 R125: the table at an address into the string table store (02 R32). -/
def State.loadTable (s : State) (n idx a size : Nat) : Except Trap State :=
  match (s.lp n).checkOp a size .read (s.lp n).level idx with
  | .error t => .error t
  | .ok mt =>
    match s.tableBytes n a size mt with
    | none => .error (mkTrap 0x08 0 idx a)
    | some (s1, bs) => .ok (s1.onLp n fun p => { p with strTable := bs })

/-- The size of an element's table, if it has one. -/
def StrElem.table : StrElem → Option Nat
  | .xlt => some 256
  | .spn => some 32
  | _ => none

/-- A string instruction without a prefix (04 R123): exactly one element, CNT neither read nor changed. -/
def strOne (n : Nat) (op : StrOp) (s : State) : State :=
  match strShape op with
  | none => s
  | some (e, os) =>
    execOn n 1 3 os s fun s r next =>
      let tab : Except Trap State := match e.table with
        | none => .ok s
        | some k => s.loadTable n os.length (r.val (os.length - 1)) k
      match tab with
      | .error t => .error t
      | .ok s1 =>
        let acc := if e.scans then noMatch else r.val 0
        let a := r.val (os.length - 1) % 256
        match s1.element n e acc a (s1.lp n).strTable with
        | .error t => .error t
        | .ok (s2, v) =>
          let s3 := s2.onLp n fun p => { p with rsv := none }
          if e.scans then .ok ((r.put s3 n 0 v).setFlags n (scanFlags v), next)
          else if e.accumulates then .ok (r.put s3 n 0 v, next)
          else .ok (s3, next)

/-- An operand whose base register an RPT instruction does not step before it ends (04 R126): the place of modes 0x7 and
0x8 is Bn and Bn − S. -/
def State.placeHeld (s : State) (n idx : Nat) (o : Opd) : Except Trap (State × Place) :=
  match o.spec with
  | .postInc b => .ok (s, .mem ((s.lp n).breg b.toNat))
  | .preDec b => .ok (s, .mem (addDisp ((s.lp n).breg b.toNat) (-(o.size : Int))))
  | _ => s.place n idx o

/-- The explicit operands of an element, placed and read, no base register stepped. -/
def State.heldOpds (s : State) (n : Nat) : Nat → List Opd → Except Trap (State × List Place × List Nat)
  | _, [] => .ok (s, [], [])
  | idx, o :: os =>
    match s.placeHeld n idx o with
    | .error t => .error t
    | .ok (s1, pl) =>
      match s1.fetchOpd n idx o pl with
      | .error t => .error t
      | .ok (s2, v) =>
        match s2.heldOpds n (idx + 1) os with
        | .error t => .error t
        | .ok (s3, ps, vs) => .ok (s3, pl :: ps, v :: vs)

/-- The deferred steps of the base registers (04 R126). -/
def State.heldSteps (s : State) (n : Nat) : List Opd → State
  | [] => s
  | o :: os =>
    let s1 := match o.spec with
      | .postInc b => s.onLp n fun p => p.setB b.toNat (p.breg b.toNat + o.size)
      | .preDec b => s.onLp n fun p => p.setB b.toNat (addDisp (p.breg b.toNat) (-(o.size : Int)))
      | _ => s
    s1.heldSteps n os

/-- `start` and PS.rpt of 04 R125. -/
def State.rptStart (s : State) (n : Nat) (e : StrElem) (os : List Opd) : Except Trap State :=
  if bitOf (s.lp n).ps.toNat 18 then .ok s
  else
    let mark : State → State := fun t => t.onLp n fun p => { p with ps := BitVec.ofNat 32 (setBit p.ps.toNat 18 true) }
    if e.scans then
      match s.heldOpds n 1 os with
      | .error t => .error t
      | .ok (s1, ps, vs) => .ok (mark (Ready.put ⟨os, ps, vs⟩ s1 n 0 noMatch))
    else .ok (mark s)

/-- `load_table` of 04 R125: the table's address is the last operand's. -/
def State.rptTable (s : State) (n : Nat) (e : StrElem) (os : List Opd) : Except Trap State :=
  match e.table, os.getLast? with
  | some k, some o =>
    (match s.placeHeld n os.length o with
      | .error t => .error t
      | .ok (s1, pl) =>
        match s1.fetchOpd n os.length o pl with
        | .error t => .error t
        | .ok (s2, a) => s2.loadTable n os.length a k)
  | _, _ => .ok s

/-- One element under the prefix: its explicit operands accessed, its action, its result written, CNT one less. -/
def State.rptElement (s : State) (n : Nat) (e : StrElem) (os : List Opd) : Except Trap State :=
  match s.heldOpds n 1 os with
  | .error t => .error t
  | .ok (s1, ps, vs) =>
    let r : Ready := ⟨os, ps, vs⟩
    match s1.element n e (r.val 0) (r.val (os.length - 1) % 256) (s1.lp n).strTable with
    | .error t => .error t
    | .ok (s2, v) =>
      let s3 := if (e.scans || e.accumulates) && v != r.val 0 then r.put s2 n 0 v else s2
      .ok ((s3.onLp n fun p => { p with cnt := p.cnt - 1#64, rsv := none }).countLp n 2 1)

/-- `finish` of 04 R125: the flags of a scan, the deferred steps, PS.rpt zero; then the next instruction. -/
def State.rptFinish (s : State) (n : Nat) (e : StrElem) (os : List Opd) (next : Nat) : State :=
  let pc := (s.lp n).pc.toNat
  let fl : Except Trap State :=
    if e.scans then
      match s.heldOpds n 1 os with
      | .error t => .error t
      | .ok (s1, ps, vs) => .ok (s1.setFlags n (scanFlags (Ready.val ⟨os, ps, vs⟩ 0)))
    else .ok s
  match fl with
  | .error t => s.stop n t pc
  | .ok s1 =>
    ((s1.heldSteps n os).onLp n fun p => { p with ps := BitVec.ofNat 32 (setBit p.ps.toNat 18 false) }).commit n next

/-- The loop of 04 R125 over at most `k` elements: an element's trap leaves the earlier ones committed, and a pending event
is taken after an element. -/
def State.rptLoop (s : State) (n : Nat) (e : StrElem) (os : List Opd) (next : Nat) : Nat → State
  | 0 => s.rptFinish n e os next
  | k + 1 =>
    match s.rptElement n e os with
    | .error t => s.stop n t (s.lp n).pc.toNat
    | .ok s1 =>
      if (s1.nextEvent n).isSome then s1.takeNext n (s1.lp n).pc.toNat (s1.lp n).ps.toNat
      else s1.rptLoop n e os next k

/-- An RPT instruction (04 R123, R125). -/
def rptOn (n : Nat) (op : StrOp) (s : State) : State :=
  if !s.canRun n then s
  else
    let pc := (s.lp n).pc.toNat
    match strShape op with
    | none =>
      (match s.fetchTrap n 2 with
        | some t => s.trap n t pc
        | none => s.trap n (illegal 7 0) pc)
    | some (e, os) =>
      let len := instrLen 2 os
      match s.fetchTrap n len with
      | some t => s.trap n t pc
      | none =>
        match encodingFault len os with
        | some (d, i) => s.trap n (illegal d i) pc
        | none =>
          if os.any fun o => isReserved o.spec then s.reservedEffect n len
          else
            let s0 := s.fetchFills n len
            match s0.rptStart n e os with
            | .error t => s0.stop n t pc
            | .ok s1 =>
              match s1.rptTable n e os with
              | .error t => s1.stop n t pc
              | .ok s2 => s2.rptLoop n e os ((pc + len) % 2 ^ 52) (s2.lp n).cnt.toNat

/-- RPT before a string instruction, or before a byte that is none. -/
def execRpt (n : Nat) (op : StrOp) (s : State) : Host.Outcome State Fault Refusal :=
  forLp n s fun s => rptOn n op s

/-- SMOV. -/
def execSmov (n : Nat) (s : State) : Host.Outcome State Fault Refusal := forLp n s fun s => strOne n .smov s
/-- SMOVR. -/
def execSmovr (n : Nat) (s : State) : Host.Outcome State Fault Refusal := forLp n s fun s => strOne n .smovr s
/-- SCMP. -/
def execScmp (n : Nat) (d : Spec) (s : State) : Host.Outcome State Fault Refusal := forLp n s fun s => strOne n (.scmp d) s
/-- SSCN. -/
def execSscn (n : Nat) (d a : Spec) (s : State) : Host.Outcome State Fault Refusal :=
  forLp n s fun s => strOne n (.sscn d a) s
/-- SSCNN. -/
def execSscnn (n : Nat) (d a : Spec) (s : State) : Host.Outcome State Fault Refusal :=
  forLp n s fun s => strOne n (.sscnn d a) s
/-- SFIL. -/
def execSfil (n : Nat) (a : Spec) (s : State) : Host.Outcome State Fault Refusal := forLp n s fun s => strOne n (.sfil a) s
/-- SXLT. -/
def execSxlt (n : Nat) (t : Spec) (s : State) : Host.Outcome State Fault Refusal := forLp n s fun s => strOne n (.sxlt t) s
/-- SCRC. -/
def execScrc (n : Nat) (m : Spec) (s : State) : Host.Outcome State Fault Refusal := forLp n s fun s => strOne n (.scrc m) s
/-- SSUM. -/
def execSsum (n : Nat) (m : Spec) (s : State) : Host.Outcome State Fault Refusal := forLp n s fun s => strOne n (.ssum m) s
/-- SSPN. -/
def execSspn (n : Nat) (d t : Spec) (s : State) : Host.Outcome State Fault Refusal :=
  forLp n s fun s => strOne n (.sspn d t) s
/-- SAND. -/
def execSand (n : Nat) (s : State) : Host.Outcome State Fault Refusal := forLp n s fun s => strOne n .sand s
/-- SOR. -/
def execSor (n : Nat) (s : State) : Host.Outcome State Fault Refusal := forLp n s fun s => strOne n .sor s
/-- SXOR. -/
def execSxor (n : Nat) (s : State) : Host.Outcome State Fault Refusal := forLp n s fun s => strOne n .sxor s
/-- SPOPC. -/
def execSpopc (n : Nat) (m : Spec) (s : State) : Host.Outcome State Fault Refusal := forLp n s fun s => strOne n (.spopc m) s
/-- SXCH. -/
def execSxch (n : Nat) (s : State) : Host.Outcome State Fault Refusal := forLp n s fun s => strOne n .sxch s

end Sys2Proof.Machine
end

