-- ==== Sys2Proof/Machine/System.lean ====
section
/-! DEFINITION. The atomic and system instructions of 0xC0-0xDF and 0xF0 (04 R127-R129, 06 R166-R170, 07 R184-R186), system
registers (03 R70-R78, R89-R93), and the store drain of a logical processor as commands of their own. -/

namespace Sys2Proof.Machine

/-- A logical processor that takes a memory access other than of its workspace (06 R170): its reservation clears. -/
def State.dropRsv (s : State) (n : Nat) : State := s.onLp n fun p => { p with rsv := none }

/-- The invalidation queue emptied: the load half of a FENCE (06 R166). -/
def State.fenceLoads (s : State) (n : Nat) : State := (s.onLp n LP.applyAllInv).countLp n 14 (s.lp n).invq.length

/-- The z flag written, the others kept. -/
def State.setZ (s : State) (n : Nat) (z : Bool) : State := s.setFlags n { s.flagsOf n with z := z }

/-- Whether operand `i` is in memory. -/
def Ready.inMem (r : Ready) (i : Nat) : Bool :=
  match r.ps[i]? with
  | some (.mem _) => true
  | _ => false

/-- A read-modify-write d, m, a (04 R127): a FENCE before and after its own access (06 R169). -/
def atomic3 (n size : Nat) (d m a : Spec) (s : State) (f : Nat → Nat → Nat) : State :=
  execOn n 1 3 [odst d size, oatom m size, osrc a size] (if s.canRun n then s.fenceLoads n else s) fun s r next =>
    let s1 := if r.inMem 1 then s.dropRsv n else s
    let s2 := (r.put s1 n 0 (r.val 1))
    .ok ((r.put s2 n 1 (f (r.val 1) (r.val 2) % 2 ^ (8 * size))).fenceLoads n, next)

/-- SWP. -/
def execSwp (n : Nat) (sz : ISize) (d m a : Spec) (s : State) : Host.Outcome State Fault Refusal :=
  forLp n s fun s => atomic3 n (isize sz) d m a s fun _ a => a

/-- LDADD. -/
def execLdadd (n : Nat) (sz : ISize) (d m a : Spec) (s : State) : Host.Outcome State Fault Refusal :=
  forLp n s fun s => atomic3 n (isize sz) d m a s fun m a => m + a

/-- LDOR. -/
def execLdor (n : Nat) (d m a : Spec) (s : State) : Host.Outcome State Fault Refusal :=
  forLp n s fun s => atomic3 n 8 d m a s Nat.lor

/-- LDAND. -/
def execLdand (n : Nat) (d m a : Spec) (s : State) : Host.Outcome State Fault Refusal :=
  forLp n s fun s => atomic3 n 8 d m a s Nat.land

/-- CAS m1, m2, a: m2 is the memory operand. -/
def execCas (n : Nat) (sz : ISize) (m1 m2 a : Spec) (s : State) : Host.Outcome State Fault Refusal :=
  forLp n s fun s =>
    execOn n 1 3 [ormw m1 (isize sz), oatom m2 (isize sz), osrc a (isize sz)]
        (if s.canRun n then s.fenceLoads n else s) fun s r next =>
      let s1 := if r.inMem 1 then s.dropRsv n else s
      if r.val 1 = r.val 0 then .ok (((r.put s1 n 1 (r.val 2)).setZ n true).fenceLoads n, next)
      else .ok (((r.put s1 n 0 (r.val 1)).setZ n false).fenceLoads n, next)

/-- LDRES (06 R170): d := m; the reservation of m's line is set, where m is in memory. -/
def execLdres (n : Nat) (sz : Size) (d m : Spec) (s : State) : Host.Outcome State Fault Refusal :=
  forLp n s fun s => execOn n 1 3 [odst d (sizeBytes sz), olres m (sizeBytes sz)] s fun s r next =>
    let s1 := if r.inMem 1 then s.onLp n fun p => { p with rsv := some (lineOf (r.addr 1)), rsvAge := 0 } else s
    let s2 := match r.os[0]?, r.ps[0]? with
      | some o, some pl => if clearsRsv (s1.lp n) o pl then s1.dropRsv n else s1
      | _, _ => s1
    .ok (r.put s2 n 0 (r.val 1), next)

/-- STCOND (06 R170, 04 R108): writes and sets z where the reservation is held and covers m; clears the reservation. -/
def execStcond (n : Nat) (sz : Size) (m a : Spec) (s : State) : Host.Outcome State Fault Refusal :=
  forLp n s fun s => execOn n 1 3 [oscond m (sizeBytes sz), osrc a (sizeBytes sz)] s fun s r next =>
    let ok := r.inMem 0 && (s.lp n).rsv == some (lineOf (r.addr 0))
    let s1 := s.dropRsv n
    .ok ((if ok then r.put s1 n 0 (r.val 1) else s1.countLp n 13 1).setZ n ok, next)

/-- An instruction without operands that first waits for the store buffer to empty: where it cannot, it waits as it stands. -/
def fenceOn (n : Nat) (loads : Bool) (s : State) : State :=
  if !s.canRun n then s
  else
    let s1 := s.drainAll n
    if !(s1.lp n).sb.isEmpty then s1
    else execOn n 1 3 [] s1 fun s _ next => .ok (if loads then s.fenceLoads n else s, next)

/-- FENCE. -/
def execFence (n : Nat) (s : State) : Host.Outcome State Fault Refusal := forLp n s fun s => fenceOn n true s

/-- FENCE.L: the wait for the invalidation queue. -/
def execFenceL (n : Nat) (s : State) : Host.Outcome State Fault Refusal :=
  forLp n s fun s => execOn n 1 3 [] s fun s _ next => .ok (s.fenceLoads n, next)

/-- FENCE.S: the wait for the store buffer. -/
def execFenceS (n : Nat) (s : State) : Host.Outcome State Fault Refusal := forLp n s fun s => fenceOn n false s

/-- LPID (03 R78). -/
def State.lpid (s : State) (n : Nat) : Nat :=
  if n < 96 then lpMaster n + n % 6 * 2 ^ 12 + bit01 (s.isSplit (n / 6)) * 2 ^ 15 + n / 6 * 2 ^ 16 else lpMaster n

/-- The numbers of the system registers (03 R77). -/
def srKnown (k : Nat) : Bool := [0, 1, 2, 3, 4, 5, 8, 9, 0xA, 0xB, 0xC, 0xD, 0xE, 0x10].contains k

/-- Whether a level may read a system register. -/
def srReads (level k : Nat) : Bool :=
  if k = 0xB then level == 0
  else if k = 8 ∨ k = 9 ∨ k = 0xA ∨ k = 0xC ∨ k = 0xD ∨ k = 0xE then decide (level ≤ 1)
  else true

/-- Whether a level may write a system register, the rules of R72 and R92 apart. -/
def srWrites (level k : Nat) : Bool :=
  if k = 0x10 then false
  else if k = 8 ∨ k = 9 ∨ k = 0xB then level == 0
  else if k = 0xA ∨ k = 0xC ∨ k = 0xD ∨ k = 0xE then decide (level ≤ 1)
  else true

/-- The value of a system register. -/
def State.srValue (s : State) (n k : Nat) : Nat :=
  let p := s.lp n
  let e := p.region (bits p.rtidx.toNat 0 6)
  match k with
  | 0 => p.ps.toNat
  | 1 => p.wp.toNat
  | 2 => p.cnt.toNat
  | 3 => p.srcp.toNat
  | 4 => p.dstp.toNat
  | 5 => p.fpcs.toNat
  | 8 => p.tvb.toNat
  | 9 => p.tdel.toNat
  | 0xA => p.tspK.toNat
  | 0xB => p.tspM.toNat
  | 0xC => p.rtidx.toNat
  | 0xD => e.1.toNat
  | 0xE => e.2.toNat
  | _ => s.lpid n

/-- MFSR (03 R77): ILLEGAL_OPERAND for a number that names nothing, PRIVILEGE for one that the level may not read. -/
def execMfsr (n : Nat) (d k : Spec) (s : State) : Host.Outcome State Fault Refusal :=
  forLp n s fun s => execOn n 1 3 [odst d 8, osrc k 1] s fun s r next =>
    let num := r.val 1 % 256
    if !srKnown num then .error (illegal 6 2)
    else if !srReads (s.lp n).level num then .error (mkTrap 0x05 0 0 0)
    else .ok (r.put s n 0 (s.srValue n num), next)

/-- The bits of PS that software may write at a level (03 R72). -/
def psWritable (level : Nat) : Nat :=
  let task := 0x1000F
  if level = 0 then task + 0xF100 + 0xE30 else if level = 1 then task + 0xF100 else task

/-- A write of PS (03 R72): PRIVILEGE where any bit outside the writable fields would change, those that read only included
(DEDUCED, log 96). -/
def State.writePs (s : State) (n v : Nat) : Except Trap State :=
  let p := s.lp n
  let lvl := p.level
  let diff := Nat.xor p.ps.toNat (v % 2 ^ 32)
  if diff ≠ Nat.land diff (psWritable lvl) then .error (mkTrap 0x05 0 0 0)
  else if lvl = 0 ∧ bits v 4 2 = 3 then .error (illegal 6 2)
  else .ok (s.onLp n fun q => { q with ps := BitVec.ofNat 32 v })

/-- A write of WP (03 R73): the range checked for read and write, its type NORMAL-WB, and the 256 bytes loaded. -/
def State.writeWp (s : State) (n v : Nat) : Except Trap State :=
  let a := v / 256 * 256
  let p := s.lp n
  match p.check a 256 .atomic p.level with
  | .error d => .error (mkTrap 0x06 d 2 a)
  | .ok mt =>
    if mt ≠ .wb then .error (mkTrap 0x06 7 2 a)
    else
      match s.tableBytes n a 256 .wb with
      | none => .error (mkTrap 0x08 0 2 a)
      | some (s1, bs) => .ok (s1.onLp n fun q => { q with wp := BitVec.ofNat 64 a, wfile := memWriteBytes [] 0 bs, rsv := none })

/-- The bits of RTLO and of RTHI that hold a value (03 R89). -/
def rtMask (hi : Bool) : Nat := 0xFFFFFFFFFF000 + (if hi then 0x1FF else 0xF)

/-- Whether a machine-owned entry covers an entry's range with a permission for machine level (03 R92). -/
def LP.covered (p : LP) (e : BitVec 64 × BitVec 64) (bit : Nat) : Bool :=
  (List.range 64).any fun i =>
    let m := p.region i
    bitOf m.1.toNat 0 && !bitOf m.1.toNat 3 && regionType m != 3 && decide (regionBase m ≤ regionBase e) &&
      decide (regionLast e ≤ regionLast m) && bitOf m.2.toNat (6 + bit)

/-- Whether a kernel-level write may leave an entry so (03 R92). -/
def LP.kernelMay (p : LP) (old new : BitVec 64 × BitVec 64) (hi : Bool) : Bool :=
  bitOf old.1.toNat 3 && bitOf new.1.toNat 3 && !(hi && bits new.2.toNat 6 3 != 0) &&
    (!bitOf new.1.toNat 0 || regionType new == 3 || decide (regionLast new < regionBase new) ||
      (List.range 3).all fun b => !(bitOf new.2.toNat b || bitOf new.2.toNat (3 + b) || bitOf new.2.toNat (6 + b)) ||
        p.covered new b)

/-- A write of RTLO or RTHI of the entry that RTIDX selects (03 R89, R92, R93). -/
def State.writeRegion (s : State) (n : Nat) (hi : Bool) (v : Nat) : Except Trap State :=
  let p := s.lp n
  let i := bits p.rtidx.toNat 0 6
  let old := p.region i
  let w := BitVec.ofNat 64 (Nat.land v (rtMask hi))
  let new := if hi then (old.1, w) else (w, old.2)
  if p.level ≠ 0 && !p.kernelMay old new hi then .error (mkTrap 0x05 0 0 0)
  else .ok (s.onLp n fun q => { q with rt := tblSet q.rt i new })

/-- The vectors that TDEL may delegate (03 R94, R95). -/
def tdelMask : Nat := 0xFFFFFFFF0F3FBFF0

/-- FPCS as written (05 R138): a reserved rounding mode is stored as RNE. -/
def fpcsStored (v : Nat) : Nat := (if 4 < bits v 16 3 then 0 else bits v 16 3) * 65536 + bits v 8 5 * 256 + bits v 0 5

/-- A write of a system register (03 R70, R77). -/
def State.srWrite (s : State) (n k v : Nat) : Except Trap State :=
  let set : (LP → LP) → Except Trap State := fun f => .ok (s.onLp n f)
  let w := BitVec.ofNat 64 v
  match k with
  | 0 => s.writePs n v
  | 1 => s.writeWp n v
  | 2 => set fun p => { p with cnt := w }
  | 3 => set fun p => { p with srcp := w }
  | 4 => set fun p => { p with dstp := w }
  | 5 => set fun p => { p with fpcs := BitVec.ofNat 32 (fpcsStored v) }
  | 8 => set fun p => { p with tvb := BitVec.ofNat 64 (v / 4096 * 4096) }
  | 9 => set fun p => { p with tdel := BitVec.ofNat 64 (Nat.land v tdelMask) }
  | 0xA => set fun p => { p with tspK := BitVec.ofNat 64 (v / 64 * 64) }
  | 0xB => set fun p => { p with tspM := BitVec.ofNat 64 (v / 64 * 64) }
  | 0xC => set fun p => { p with rtidx := BitVec.ofNat 64 (v % 64) }
  | 0xD => s.writeRegion n false v
  | 0xE => s.writeRegion n true v
  | _ => .ok s

/-- MTSR with its number operand (03 R77). -/
def mtsrOn (n : Nat) (k a : Spec) (s : State) : State :=
  execOn n 1 3 [osrc k 1, osrc a 8] s fun s r next =>
    let num := r.val 0 % 256
    if !srKnown num then .error (illegal 6 1)
    else if !srWrites (s.lp n).level num then .error (mkTrap 0x05 0 0 0)
    else match s.srWrite n num (r.val 1) with
      | .error t => .error t
      | .ok s1 => .ok (s1, next)

/-- MTSR. -/
def execMtsr (n : Nat) (k a : Spec) (s : State) : Host.Outcome State Fault Refusal := forLp n s fun s => mtsrOn n k a s

/-- MTSR of PS. -/
def execPsWrite (n : Nat) (a : Spec) (s : State) : Host.Outcome State Fault Refusal :=
  forLp n s fun s => mtsrOn n (.lit 0) a s

/-- MTSR of WP. -/
def execWpWrite (n : Nat) (a : Spec) (s : State) : Host.Outcome State Fault Refusal :=
  forLp n s fun s => mtsrOn n (.lit 1) a s

/-- MTSR of RTLO or RTHI. -/
def execRegionTableWrite (n : Nat) (hi : Bool) (a : Spec) (s : State) : Host.Outcome State Fault Refusal :=
  forLp n s fun s => mtsrOn n (.lit (if hi then 0xE else 0xD)) a s

/-- DEVTIME of a time (11 R311): seconds, nanoseconds, fraction, zero. -/
def devtime (t : Stamp) : Nat := t.ns / 1000000000 * 2 ^ 80 + t.ns % 1000000000 * 2 ^ 48 + t.frac * 2 ^ 32

/-- RDTIME (11 R319). -/
def execRdtime (n : Nat) (d : Spec) (s : State) : Host.Outcome State Fault Refusal :=
  forLp n s fun s => execOn n 1 3 [odst d 16] s fun s r next => .ok (r.put s n 0 (devtime (s.stampIn (lpIsland n))), next)

/-- Whether R184 refuses the control byte of CLINE. -/
def clineRefused (k : Nat) : Bool := decide (4 < k % 8) || k / 16 != 0

/-- CLINE (07 R184, R185): the control byte, the region check, and one store-buffer entry. -/
def clineOn (n : Nat) (k t : Spec) (s : State) : State :=
  execOn n 1 1 [osrc k 1, oadr t] s fun s r next =>
    let kv := r.val 0 % 256
    let a := r.val 1
    if clineRefused kv then .ok (s.push n ⟨.noEffect, lineOf a, [], (s.lp n).level, false⟩, next)
    else
      let acc : Access := if kv % 8 = 0 ∨ kv % 8 = 4 then .read else .write
      match (s.lp n).checkOp a 1 acc (s.lp n).level 2 with
      | .error e => .error e
      | .ok mt =>
        if mt ≠ .wb then .error (mkTrap 0x08 0 2 a)
        else .ok (s.push n ⟨.cline (kv % 8) (bitOf kv 3), lineOf a, [], (s.lp n).level, false⟩, next)

/-- CLINE CLEAN. -/
def execClineClean (n : Nat) (k t : Spec) (s : State) : Host.Outcome State Fault Refusal := forLp n s fun s => clineOn n k t s
/-- CLINE INVAL. -/
def execClineInval (n : Nat) (k t : Spec) (s : State) : Host.Outcome State Fault Refusal := forLp n s fun s => clineOn n k t s
/-- CLINE CLEANINVAL. -/
def execClineCleaninval (n : Nat) (k t : Spec) (s : State) : Host.Outcome State Fault Refusal :=
  forLp n s fun s => clineOn n k t s
/-- CLINE ZERO. -/
def execClineZero (n : Nat) (k t : Spec) (s : State) : Host.Outcome State Fault Refusal := forLp n s fun s => clineOn n k t s
/-- CLINE UNLOCK. -/
def execClineUnlock (n : Nat) (k t : Spec) (s : State) : Host.Outcome State Fault Refusal := forLp n s fun s => clineOn n k t s

/-- PFLK (07 R184-R186). -/
def execPflk (n : Nat) (k t : Spec) (s : State) : Host.Outcome State Fault Refusal :=
  forLp n s fun s => execOn n 1 1 [osrc k 1, oadr t] s fun s r next =>
    let kv := r.val 0 % 256
    let a := r.val 1
    if kv / 32 ≠ 0 then .ok (s.push n ⟨.noEffect, lineOf a, [], (s.lp n).level, false⟩, next)
    else
      match (s.lp n).checkOp a 1 .read (s.lp n).level 2 with
      | .error e => .error e
      | .ok mt =>
        if mt ≠ .wb then .error (mkTrap 0x08 0 2 a)
        else .ok (s.push n ⟨.pflk (kv % 16) (bitOf kv 4), lineOf a, [], (s.lp n).level, false⟩, next)

/-- PREF (04 R129): the line asked for, unless its address is one to ignore. -/
def execPref (n : Nat) (t : Spec) (s : State) : Host.Outcome State Fault Refusal :=
  forLp n s fun s => execOn n 2 3 [oadr t] s fun s r next =>
    let a := r.val 0
    match (s.lp n).check a 1 .read (s.lp n).level with
    | .ok .wb =>
      if s.addrKind a = .dram ∨ s.addrKind a = .host then .ok (s.askFill n (lineOf a) 2, next) else .ok (s, next)
    | _ => .ok (s, next)

/-- ISYNC (04 R129): the L1 instruction cache emptied. -/
def execIsync (n : Nat) (s : State) : Host.Outcome State Fault Refusal :=
  forLp n s fun s => execOn n 2 3 [] s fun s _ next => .ok (s.onLp n fun p => { p with l1i := L1.empty }, next)

/-- LPSTOP (04 R129): the logical processor halts, its committed stores drain, and LP_HALTED is posted (14 R394). -/
def execLpstop (n : Nat) (s : State) : Host.Outcome State Fault Refusal :=
  forLp n s fun s => execOn n 2 0 [] s fun s _ next =>
    let s1 := (s.drainAll n).onLp n fun p => { p with run := .halted, haltVec := 0, rsv := none }
    .ok (s1.event 2 (lpMaster n) 0 next (s1.lpOwners n), next)

/-- The execution of a reserved encoding (03 R87): undefined results, confined. Its length is that of the bytes given. -/
def execReservedOpcode (n : Nat) (bytes : List (BitVec 8)) (s : State) : Host.Outcome State Fault Refusal :=
  forLp n s fun s =>
    if !s.canRun n then s
    else
      let pc := (s.lp n).pc.toNat
      match s.fetchTrap n bytes.length with
      | some t => s.trap n t pc
      | none => if 32 < bytes.length then s.trap n (illegal 4 0) pc else s.reservedEffect n bytes.length

/-- One step of the drain engine (06 R158). -/
def execStoreDrain (n : Nat) (s : State) : Host.Outcome State Fault Refusal :=
  forLp n s fun s => if s.lpExists n then (s.drainOne n).1 else s

/-- Up to two invalidations applied (06 R160). -/
def execL1InvalidationApply (n : Nat) (s : State) : Host.Outcome State Fault Refusal :=
  forLp n s fun s =>
    if (s.lp n).invq.isEmpty then s else (s.onLp n fun p => p.applyInv.applyInv).countLp n 14 (min 2 (s.lp n).invq.length)

end Sys2Proof.Machine
end

