-- ==== Sys2Proof/Machine/Pairs.lean ====
section
/-! DEFINITION. Mirror pairs (02 R36-R69): retry, SKEW, re-pairing onto spare cores and slices, and debug access. -/

namespace Sys2Proof.Machine

/-- The lane field of an event that names no lane (02 R69). -/
def noLane : Nat := 0x3FF

/-- An event of a pair recorded in CMP_STAT, with the time of the first in the cluster's island (02 R69). -/
def State.cmpEvent (s : State) (c k cause lane : Nat) : State :=
  let off := Off.cmpStat c k
  let s1 := s.setFld off 20 4 cause
  if s.flag off 0 then s1
  else
    let t := s.stampIn c
    ((((s1.setFld off 16 4 cause).setFld off 32 10 lane).setFlag off 0 true).setReg (Off.cmpTimeNs c k) t.ns).setReg
      (Off.cmpTimeFr c k) t.frac

/-- The logical processor of a pair, and the pair's own number. -/
def pairLp (c k : Nat) : Nat := 6 * c + k
@[inherit_doc pairLp] def pairNum (c k : Nat) : Nat := 3 * c + k

/-- The numbers of a logical processor's pair: where it has one. -/
def State.pairOf (s : State) (n : Nat) : Option (Nat × Nat) :=
  if n < 96 ∧ n % 6 < 3 ∧ !s.isSplit (n / 6) then some (n / 6, n % 6) else none

/-- A pair held for a re-pairing, CMP_STAT.repairing set (02 R54 step 1, R58). -/
def State.pairHold (s : State) (c k : Nat) : State :=
  (s.onLp (pairLp c k) fun p => { p with run := .repairing, was := p.run }).setFlag (Off.cmpStat c k) 30 true

/-- A pair stopped with LP_LOST (02 R56): its CMP_MAP reads LOST, its sources and event follow. The event's cause is the last one
recorded before (DEDUCED, log 60). -/
def State.pairLost (s : State) (c k : Nat) : State :=
  let n := pairLp c k
  let cause := s.fld (Off.cmpStat c k) 20 4
  let s1 := (s.onLp n fun p => { p with run := .lost, rsv := none }).cmpEvent c k 6 noLane
  let s2 := ((s1.setFlag (Off.cmpStat c k) 30 false).setFld (Off.cmpMap c k) 12 2 1).raise (16 * c + k)
  s2.event 1 (lpMaster n) cause (s2.reg (Off.cmpMap c k)) (s2.lpOwners n)

/-- The retry budget of one committed boundary (02 R47). -/
def retryBudget : Nat := 3

/-- A detection that counts against the budget: a retry, or RETRY_EXHAUSTED with the pair held (02 R45-R48). -/
def State.pairFault (s : State) (c k cause lane : Nat) : State :=
  let off := Off.cmpStat c k
  let depth := s.fld off 14 2
  let s1 := (s.cmpEvent c k cause lane).onPair (pairNum c k) fun q => { q with attempts := q.attempts ++ [cause] }
  if depth < retryBudget then s1.setFld off 14 2 (depth + 1)
  else ((s1.cmpEvent c k 5 noLane).pairHold c k).raise (16 * c + k)

/-- A SKEW retry: counted, and the input held until the next committed boundary (02 R50, R51). -/
def State.pairSkew (s : State) (c k lane : Nat) : State :=
  (((s.cmpEvent c k 2 lane).countLp (pairLp c k) 4 1).bumpReg (Off.cmpSkewcnt c k) 0xFFFFFFFF).onPair (pairNum c k) fun q => { q with skewHold := true }

/-- What a pair's comparator does with a detection (02 R45-R52, 07 R195). -/
def State.pairDetect (s : State) (c k : Nat) (ev : Detect) : State :=
  match ev with
  | .mismatch lane (some d) => if d ≤ 4 then s.pairSkew c k lane else s.pairFault c k 1 lane
  | .mismatch lane none => s.pairFault c k 1 lane
  | .comparatorFault lane => s.pairFault c k 3 lane
  | .delayFault => s.pairFault c k 4 noLane
  | .l1Parity a =>
    (s.onLp (pairLp c k) fun p => { p with l1d := p.l1d.drop (lineOf a), l1i := p.l1i.drop (lineOf a) }).pairFault c k 1 noLane

/-- RETRY (02 R45): where the pair runs and compares. A further detection while the pair is being re-paired loses it (R55). -/
def execRetry (c k : Nat) (ev : Detect) (s : State) : Host.Outcome State Fault Refusal :=
  if 16 ≤ c ∨ 3 ≤ k then .refused .noSuchUnit
  else
    let run := (s.lp (pairLp c k)).run
    if s.isSplit c ∨ run = .empty ∨ run = .lost ∨ (s.pair (pairNum c k)).cmpOff then .next s
    else if run = .repairing then .next (s.pairLost c k)
    else .next (s.pairDetect c k ev)

/-- The state of a spare in CMP_SPARE: 0 P6, 1 P7, 2 slice 3 (02 R69). -/
def State.spareState (s : State) (c i : Nat) : Nat := s.fld (Off.cmpSpare c) (2 * i) 2

/-- The way a re-pairing takes (02 R55): onto slice 3, onto P6 for the leading copy, onto P7 for the trailing copy, or none. -/
inductive RepairPath where | slice | lead | trail | none
  deriving DecidableEq, Repr

/-- The spare that a path takes. -/
def RepairPath.spare : RepairPath → Nat
  | .slice => 2
  | .trail => 1
  | _ => 0

/-- The path by the causes of the attempts and the verdicts of the core checks (02 R55). -/
def repairPath (attempts : List Nat) (v : RepairVerdict) : RepairPath :=
  if attempts.any fun a => a == 3 || a == 4 then .slice
  else if v.leadOk && v.trailOk then .slice
  else if v.trailOk then .lead
  else if v.leadOk then .trail
  else .none

/-- The unit that a path condemns: its kind in the sparing map and its number. -/
def State.pathUnit (s : State) (c k : Nat) : RepairPath → Nat × Nat
  | .slice => (2, s.fld (Off.cmpMap c k) 8 2)
  | .trail => (1, s.fld (Off.cmpMap c k) 4 3)
  | _ => (1, s.fld (Off.cmpMap c k) 0 3)

/-- A spare that failed its own check (02 R55): condemned, one fewer left. -/
def State.spareFailed (s : State) (c i : Nat) : State :=
  let kind := if i = 2 then 2 else 1
  let unit := if i = 2 then 3 else 6 + i
  let ent : SpareEnt := ⟨kind, c, unit, false⟩
  let (lo, w) := spareField kind
  (({ s with svc := { s.svc with map := s.svc.map ++ [ent] } } : State).spareTaken lo w).setFld (Off.cmpSpare c) (2 * i) 2 2

/-- The pair steered onto the spare (02 R54 steps 7 to 9): the store buffer drained on a core path, the L1 caches emptied, the sparing
map updated, the pair going on as before. Its duration is a free value of at most 20 µs (log 61). -/
def State.pairSteer (s : State) (c k : Nat) (path : RepairPath) : State :=
  let n := pairLp c k
  let (kind, unit) := s.pathUnit c k path
  let s1 := if path = .slice then s else s.drainAll n
  let s2 := s1.onLp n fun p => { p with
    run := p.was, l1d := L1.empty, l1i := L1.empty, invq := [] }
  let s3 := match path with
    | .slice => (s2.setFld (Off.cmpMap c k) 8 2 3).setFld (Off.cmpStat c k) 12 2 3
    | .trail => s2.setFld (Off.cmpMap c k) 4 3 7
    | _ => s2.setFld (Off.cmpMap c k) 0 3 6
  let s4 := (s3.setFld (Off.cmpSpare c) (2 * path.spare) 2 1).condemn kind c unit (16 * c + k) true
  let s5 := ((s4.setFlag (Off.cmpStat c k) 30 false).setFld (Off.cmpStat c k) 14 2 0).onPair (pairNum c k)
    fun q => { q with attempts := [], leaky := [], skewHold := false, cmpOff := false }
  let (d, s6) := s5.fresh
  let s7 := s6.raise (16 * c + 4)
  s7.event 3 (lpMaster n) (s7.reg (Off.cmpMap c k)) (d % 20001) (s7.lpOwners n)

/-- Steps 2 to 9 of a re-pairing (02 R54, R55), or LP_LOST. -/
def State.pairRepair (s : State) (c k : Nat) (v : RepairVerdict) : State :=
  let path := repairPath (s.pair (pairNum c k)).attempts v
  let lead := s.fld (Off.cmpMap c k) 0 3
  let trail := s.fld (Off.cmpMap c k) 4 3
  let src := 16 * c + k
  if v.further then s.pairLost c k
  else match path with
    | .none => ((s.condemn 1 c lead src false).condemn 1 c trail src false).pairLost c k
    | p =>
      if s.spareState c p.spare = 0 ∧ v.spareOk then s.pairSteer c k p
      else
        let s1 := if s.spareState c p.spare = 0 then s.spareFailed c p.spare else s
        let (kind, unit) := s.pathUnit c k p
        (s1.condemn kind c unit src false).pairLost c k

/-- REPAIR_SEQUENCE (02 R54): of a pair held by RETRY_EXHAUSTED, or held for an advance re-pairing. -/
def execRepairSequence (c k : Nat) (v : RepairVerdict) (s : State) : Host.Outcome State Fault Refusal :=
  if 16 ≤ c ∨ 3 ≤ k then .refused .noSuchUnit
  else if (s.lp (pairLp c k)).run = .repairing then .next (s.pairRepair c k v) else .next s

/-- The successful retries of a pair in the last 24 h (02 R58). -/
def State.recentRetries (s : State) (c k : Nat) : Nat :=
  ((s.pair (pairNum c k)).leaky.filter fun t => decide (s.time.cycles < t + dayCycles)).length

/-- PROACTIVE_REPAIR (02 R58): where the count has reached CMP_CTRL.proactive_thresh, the pair is held and re-paired at once. -/
def execProactiveRepair (c k : Nat) (v : RepairVerdict) (s : State) : Host.Outcome State Fault Refusal :=
  if 16 ≤ c ∨ 3 ≤ k then .refused .noSuchUnit
  else
    let th := s.fld (Off.cmpCtrl c) 8 8
    let run := (s.lp (pairLp c k)).run
    if s.isSplit c ∨ run = .lost ∨ run = .repairing ∨ th = 0 ∨ s.recentRetries c k < th then .next s
    else .next ((s.pairHold c k).pairRepair c k v)

/-- The shared spare pair of the control processors is free (02 R59): its cores are 4 and 5 of 17 R444. -/
def State.cpSpareFree (s : State) : Bool := !(s.svc.map.any fun e => e.kind == 8)

/-- CP_REPAIR (02 R59, 16 R421): the control processor moved onto the spare pair, or lost. -/
def execCpRepair (i : Nat) (spareOk : Bool) (s : State) : Host.Outcome State Fault Refusal :=
  forUnit i 2 s fun s =>
    let n := 96 + i
    let src := 746 + i
    if (s.lp n).run = .lost then s
    else
      let sp := s.cpSpareFree && spareOk
      let s1 := ((s.raise src).condemn 8 0 (2 * i) src sp).condemn 8 0 (2 * i + 1) src sp
      if sp then s1.onLp n fun p => { p with l1d := L1.empty, l1i := L1.empty, invq := [] }
      else
        let s2 := s1.cpLost i
        s2.event 1 (lpMaster n) 5 0 []

/-- TAMLER_HALT (02 R63): both copies stop at the next committed boundary. -/
def execTamlerHalt (n : Nat) (s : State) : Host.Outcome State Fault Refusal :=
  forLp n s fun s =>
    let run := (s.lp n).run
    if run = .running ∨ run = .waiting then s.onLp n fun p => { p with run := .debug, was := run } else s

/-- An architected register or memory as Tamler reads it, 8 bytes of memory at an address that the region table permits at machine
level (02 R63). -/
def State.tamlerRead (s : State) (n : Nat) (item : TamlerItem) : Option Nat :=
  let p := s.lp n
  match item with
  | .baseReg r => some (tblGetD p.b r.toNat 0).toNat
  | .sysReg k => if srKnown k.toNat then some (s.srValue n k.toNat) else none
  | .pc => some p.pc.toNat
  | .wslot i => some (p.wread (8 * i.toNat) 8)
  | .memory a =>
    match p.check a 8 .read 0 with
    | .ok _ => some (leNat (s.readBytes n a 8))
    | .error _ => none

/-- A write of Tamler to both copies (02 R63). -/
def State.tamlerWrite (s : State) (n : Nat) (item : TamlerItem) (v : Nat) : Option State :=
  match item with
  | .baseReg r => some (s.onLp n fun p => { p with b := tblSet p.b r.toNat (BitVec.ofNat 64 v) })
  | .sysReg k => if srKnown k.toNat then (s.srWrite n k.toNat v).toOption else none
  | .pc => some (s.onLp n fun p => { p with pc := BitVec.ofNat 64 (v % 2 ^ 52) })
  | .wslot i => some (s.wwrite n (8 * i.toNat) 8 v)
  | .memory a =>
    match (s.lp n).check a 8 .write 0 with
    | .ok t => some (s.store n a t (natBytes 8 v))
    | .error _ => none

/-- TAMLER_ACCESS (02 R63): of a logical processor that Tamler has halted. -/
def execTamlerAccess (n : Nat) (item : TamlerItem) (w : Option (BitVec 64)) (s : State) : Host.Outcome State Fault Refusal :=
  forLp n s fun s =>
    if (s.lp n).run ≠ .debug then s.answer .busError
    else match w with
      | none =>
        match s.tamlerRead n item with
        | some v => s.answer (.value (BitVec.ofNat 64 v))
        | none => s.answer .busError
      | some v =>
        match s.tamlerWrite n item v.toNat with
        | some t => t.answer .done
        | none => s.answer .busError

/-- TAMLER_SINGLE_STEP (02 R63): the next instruction of the logical processor runs, and it is halted again. -/
def execTamlerSingleStep (n : Nat) (s : State) : Host.Outcome State Fault Refusal :=
  forLp n s fun s => if (s.lp n).run = .debug then s.onLp n fun p => { p with run := .stepping } else s

/-- TAMLER_PER_CORE_ACCESS (02 R63, R64): comparison is off and LOCKSTEP_BROKEN set. A slot without a pair has nothing to break. -/
def execTamlerPerCoreAccess (n : Nat) (s : State) : Host.Outcome State Fault Refusal :=
  forLp n s fun s =>
    match s.pairOf n with
    | none => s
    | some (c, k) =>
      ((((s.cmpEvent c k 7 noLane).setFlag (Off.cmpStat c k) 31 true).onPair (pairNum c k) fun q => { q with cmpOff := true }).raise
        (16 * c + k))

/-- TAMLER_EXIT (02 R63): the logical processor goes on; with LOCKSTEP_BROKEN set its copies are made alike, which empties their
L1 caches. -/
def execTamlerExit (n : Nat) (s : State) : Host.Outcome State Fault Refusal :=
  forLp n s fun s =>
    let run := (s.lp n).run
    if run ≠ .debug ∧ run ≠ .stepping then s
    else
      let s1 := s.onLp n fun p => { p with run := p.was }
      match s.pairOf n with
      | none => s1
      | some (c, k) =>
        if s.flag (Off.cmpStat c k) 31 then
          (s1.onLp n fun p => { p with l1d := L1.empty, l1i := L1.empty, invq := [] }).onPair (pairNum c k)
            fun q => { q with cmpOff := false }
        else s1

end Sys2Proof.Machine
end

