-- ==== Sys2Proof/Machine/Deflate.lean ====
section
/-! DEFINITION. Writing DEFLATE, zlib and gzip streams (12 R341): blocks of at most 32,768 input bytes in the fixed codes, in codes
of their own, or stored. Which matches are found, and the codes of a dynamic block, are free values. -/

namespace Sys2Proof.Machine

/-- The `n` bits of a code, most significant first. -/
def msb (n v : Nat) : List Bool := (List.range n).map fun i => bitOf v (n - 1 - i)

/-- The `n` low bits of a number, least significant first. -/
def lsb (n v : Nat) : List Bool := (List.range n).map fun i => bitOf v i

/-- The fixed code of a literal or length symbol (RFC 1951). -/
def fixedCode (s : Nat) : List Bool :=
  if s < 144 then msb 8 (0x30 + s)
  else if s < 256 then msb 9 (0x190 + (s - 144))
  else if s < 280 then msb 7 (s - 256)
  else msb 8 (0xC0 + (s - 280))

/-- A match in the fixed codes. -/
def matchCode (len dist : Nat) : List Bool :=
  let s := ((List.range 29).filter fun i => decide ((lenCode (257 + i)).1 ≤ len)).getLastD 0 + 257
  let d := ((List.range 30).filter fun i => decide ((distCode i).1 ≤ dist)).getLastD 0
  fixedCode s ++ lsb (lenCode s).2 (len - (lenCode s).1) ++ msb 5 d ++ lsb (distCode d).2 (dist - (distCode d).1)

/-- A match stands: its length and distance are allowed, and the bytes ahead repeat those before. -/
def matchFits (before ahead : List Byte) (len dist : Nat) : Bool :=
  decide (3 ≤ len) && decide (len ≤ 258) && decide (len ≤ ahead.length) && decide (1 ≤ dist) &&
    decide (dist ≤ min 32768 before.length) &&
    (List.range len).all fun i =>
      (if i < dist then before.getD (dist - 1 - i) 0 else ahead.getD (i - dist) 0) == ahead.getD i 0

/-- The fixed coding of a block's bytes; `before` is newest first. -/
def fixedBits (opt : Nat) : Nat → List Byte → List Byte → List Bool
  | 0, _, _ => []
  | _ + 1, _, [] => fixedCode 256
  | fuel + 1, before, b :: t =>
    let (len, dist) := Config.matchAt opt before (b :: t)
    if matchFits before (b :: t) len dist then
      matchCode len dist ++ fixedBits opt fuel (((b :: t).take len).reverse ++ before) ((b :: t).drop len)
    else fixedCode b.toNat ++ fixedBits opt fuel (b :: before) t

/-- Bits put behind those held, as whole bytes and the bits still held. -/
def packBits : Nat → List Bool → Nat → Nat → List Byte → List Byte × Nat × Nat
  | 0, _, h, n, out => (out.reverse, h, n)
  | _ + 1, [], h, n, out => (out.reverse, h, n)
  | fuel + 1, b :: t, h, n, out =>
    let h1 := h + bit01 b * 2 ^ n
    if n = 7 then packBits fuel t 0 0 (BitVec.ofNat 8 h1 :: out) else packBits fuel t h1 (n + 1) out

/-- One block written behind the bits held: its bytes and the bits held after. A block longer coded than stored is stored. -/
def writeBlock (opt : Nat) (dynamic final : Bool) (st : Stream) (blk : List Byte) : List Byte × Nat × Nat :=
  let body := if dynamic then Config.dynamicBlock opt st.window blk else fixedBits opt (blk.length + 1) st.window blk
  let storedBits := 3 + (8 - (st.heldN + 3) % 8) % 8 + 32 + 8 * blk.length
  let head := [final, !dynamic, dynamic]
  if body.length + 3 ≤ storedBits then
    packBits (body.length + 4) (head ++ body) st.held st.heldN []
  else
    let pad := List.replicate ((8 - (st.heldN + 3) % 8) % 8) false
    let (a, _, _) := packBits 16 ([final, false, false] ++ pad) st.held st.heldN []
    (a ++ natBytes 2 blk.length ++ natBytes 2 (65535 - blk.length) ++ blk, 0, 0)

/-- The header of a format (12 R341). -/
def streamHeader (fmt : Nat) (dict : List Byte) : List Byte :=
  match fmt with
  | 1 => if dict.isEmpty then [0x78#8, 0x9C#8] else [0x78#8, 0xBB#8] ++ natBytesBE 4 (dict.foldl adlerStep 1)
  | 2 => [0x1F#8, 0x8B#8, 0x08#8, 0#8, 0#8, 0#8, 0#8, 0#8, 0#8, 0xFF#8]
  | _ => []

/-- The bits held made a byte, and the trailer of a format. -/
def streamTrailer (fmt : Nat) (st : Stream) : List Byte :=
  (if st.heldN = 0 then [] else [BitVec.ofNat 8 st.held]) ++
    match fmt with
    | 1 => natBytesBE 4 st.check
    | 2 => natBytes 4 st.check ++ natBytes 4 (st.consumed % 2 ^ 32)
    | _ => []

/-- One block of input compressed: the header first where none is written yet, the trailer after a final block. -/
def compressBlock (fmt : Nat) (dynamic final : Bool) (dict : List Byte) (st : Stream) (blk : List Byte) : Stream × List Byte :=
  let head := if st.produced = 0 ∧ st.consumed = 0 ∧ !st.header then streamHeader fmt dict else []
  let (body, h, n) := writeBlock (fmt + bit01 dynamic * 4) dynamic final st blk
  let st1 := { st with
    header := true, held := h, heldN := n, consumed := st.consumed + blk.length, check := blk.foldl (checkStep fmt) st.check,
    window := blk.reverse ++ st.window, final := final }
  let tail := if final then streamTrailer fmt st1 else []
  let out := head ++ body ++ tail
  ({ st1 with produced := st.produced + out.length, held := if final then 0 else h, heldN := if final then 0 else n }, out)

end Sys2Proof.Machine
end

