-- ==== Sys2Proof/Machine/Prism.lean ====
section
/-! DEFINITION. The work of the Prism engines (12 R340-R345): each command takes a job one segment of 64 KiB of input on, up to a
checkpoint or to its end. -/

namespace Sys2Proof.Machine

/-- The fields of a Prism job's descriptor that its work needs. -/
def Job.fmt (x : Job) : Nat := fieldLE x.desc 1 1 % 4
@[inherit_doc Job.fmt] def Job.final (x : Job) : Bool := bitOf (fieldLE x.desc 1 1) 4
@[inherit_doc Job.fmt] def Job.srcAt (x : Job) : Nat := fieldLE x.desc 8 8 + (x.str.consumed - x.base.1)
@[inherit_doc Job.fmt] def Job.srcLeft (x : Job) : Nat := fieldLE x.desc 0x10 8 - (x.str.consumed - x.base.1)
@[inherit_doc Job.fmt] def Job.dstAt (x : Job) : Nat := fieldLE x.desc 0x18 8 + (x.str.produced - x.base.2)
@[inherit_doc Job.fmt] def Job.room (x : Job) : Nat := fieldLE x.desc 0x20 8 - (x.str.produced - x.base.2)

/-- A segment ends (12 R342): its checkpoint is written, its retries are forgotten, and a stop that was asked for ends the job. -/
def State.prismSegment (s : State) (e : Nat) (x : Job) (st : Stream) : State :=
  let y := { x with str := st, ckStr := st }
  match s.prismSave y false st with
  | none => (s.onJEng .prism e fun _ => ⟨some y, 0⟩).jobEnd .prism e ⟨3, 0, false, false, false⟩
  | some s1 =>
    let s2 := s1.onJEng .prism e fun _ => ⟨some y, 0⟩
    if x.stop then s2.jobEnd .prism e ⟨6, 0, true, true, false⟩ else s2

/-- Output bytes written, then the job goes on as a function of the state says; a write that fails ends the job with BUS_FAULT after
the bytes that can be written. -/
def State.prismOut (s : State) (e : Nat) (x : Job) (st : Stream) (out : List Byte) (k : State → State) : State :=
  match s.dmaWrite x.dstAt out with
  | some s1 => k s1
  | none =>
    let n := s.installed - x.dstAt
    let s1 := (s.dmaWrite x.dstAt (out.take n)).getD s
    (s1.onJob .prism e fun y => { y with str := { st with produced := x.str.produced + min n out.length } }).jobEnd .prism e
      ⟨3, 0, false, false, false⟩

/-- One segment of a DECOMPRESS job (12 R340, R342, R345). -/
def State.decompress (s : State) (e : Nat) (x : Job) : State :=
  let view := if x.str.header then min x.srcLeft 69632 else x.srcLeft
  let (bs, whole) := s.readable x.srcAt view
  let dict := if x.str.header then [] else ((s.dmaRead (fieldLE x.desc 0x30 8) (fieldLE x.desc 0x38 2)).getD [])
  let (st, r, rev, h) :=
    inflate x.fmt dict 65536 (x.room + 16 * bs.length + 64) x.str ⟨bs, x.str.held, x.str.heldN, 0⟩ [] x.room
  let out := rev.reverse
  let st1 : Stream := { st with
    consumed := x.str.consumed + r.used, held := r.acc, heldN := r.n, window := st.window.take 32768 }
  s.prismOut e x st1 out fun s1 =>
    let fin := fun (t : Stream) (f : JobEnd) => (s1.onJob .prism e fun y => { y with str := t }).jobEnd .prism e f
    match h with
    | .segment => s1.prismSegment e x st1
    | .done => fin { st1 with held := 0, heldN := 0 } ⟨0, 0, false, false, true⟩
    | .full => fin st1 ⟨4, 0, true, true, false⟩
    | .more =>
      if !whole then fin st1 ⟨3, 0, false, false, false⟩
      else if x.final then fin st1 ⟨0x16, 0, false, false, false⟩
      else fin st1 ⟨5, 0, true, true, false⟩
    | .err c d p =>
      fin { st1 with consumed := ((x.str.consumed : Int) + p / 8 + 1).toNat }
        ⟨c, if c = 0x15 then d else (p % 8).toNat, false, false, false⟩

/-- A job on an engine that runs an op and has not ended. -/
def State.jobOf (s : State) (p : Pool) (e op : Nat) : Option Job :=
  match (s.jEng p e).job with
  | some x => if descOp x.desc = op ∧ x.fin.isNone then some x else none
  | none => none

/-- DECOMPRESS (12 R340). -/
def execDecompress (e : Nat) (s : State) : Host.Outcome State Fault Refusal :=
  forEngine e s fun s => match s.jobOf .prism e 2 with
    | some x => s.decompress e x
    | none => s

/-- One block of a COMPRESS job: the job after it, whether it was the last of a final input, and its output; none where the output
cannot hold it. -/
def compressOne (x : Job) (dict blk : List Byte) : Option (Stream × List Byte × Bool) :=
  let last := x.final && blk.length == x.srcLeft
  let (st, out) := compressBlock x.fmt (bitOf (fieldLE x.desc 1 1) 2) last dict x.str blk
  if out.length ≤ x.room then some ({ st with window := st.window.take 32768 }, out, last) else none

/-- At most `n` blocks of a COMPRESS job (12 R341, R342); a segment has two. -/
def State.compressN (s : State) (e : Nat) (dict : List Byte) : Nat → Job → State
  | 0, x => s.prismSegment e x x.str
  | n + 1, x =>
    let fin := fun (f : JobEnd) => (s.onJob .prism e fun y => { y with str := x.str }).jobEnd .prism e f
    if x.srcLeft = 0 ∧ !x.final then fin ⟨5, 0, true, true, false⟩
    else
      match s.dmaRead x.srcAt (min 32768 x.srcLeft) with
      | none => fin ⟨3, 0, false, false, false⟩
      | some blk =>
        match compressOne x dict blk with
        | none => fin ⟨4, 0, true, true, false⟩
        | some (st, out, last) =>
          s.prismOut e x st out fun s1 =>
            if last then
              (s1.onJob .prism e fun y => { y with str := st }).jobEnd .prism e ⟨0, 0, false, false, true⟩
            else s1.compressN e dict n { x with str := st }

/-- COMPRESS (12 R341). -/
def execCompress (e : Nat) (s : State) : Host.Outcome State Fault Refusal :=
  forEngine e s fun s => match s.jobOf .prism e 1 with
    | some x =>
      let dict := if x.str.header then [] else ((s.dmaRead (fieldLE x.desc 0x30 8) (fieldLE x.desc 0x38 2)).getD [])
      s.compressN e dict 2 x
    | none => s

end Sys2Proof.Machine
end

