-- ==== Sys2Proof/Machine/RegCmds.lean ====
section
/-! DEFINITION. The commands that are one write of a register: each reaches it through `writeReg`, with the rights, locks and effects
of its chapter. -/

namespace Sys2Proof.Machine

/-- Whether a master ID of 01 R25 is that of an agent of this device or of its host. -/
def masterExists (m : Nat) : Bool :=
  decide (m < 0x40) || (masterLp m).isSome || (decide (0x300 ≤ m) && decide (m ≤ 0x311)) || (decide (0x400 ≤ m) && decide (m ≤ 0x447))

/-- Whether the agent of a master ID is there: the second slot of a core that is not split is none (01 R15). -/
def State.masterPresent (s : State) (m : Nat) : Bool :=
  match masterLp m with | some n => s.lpExists n | none => true

/-- The privilege level at which a master ID issues a request (19 R481). -/
def State.privOf (s : State) (m : Nat) : Nat :=
  match masterLp m with
  | some n => (s.lp n).level
  | none => 0

/-- One write of the register window, with its answer; a device that has shut down (16 R435) does nothing, and an agent that is
not there asks nothing. -/
def State.writeBy (s : State) (master off size v : Nat) : State :=
  if s.shutdown || !s.masterPresent master then s
  else
    let (t, ok) := writeReg s master (s.privOf master) off size (v % 2 ^ (8 * size))
    t.answer (if ok then .done else .busError)

/-- The outcome of a command that is one register write; refused where the unit or the master does not exist. -/
def regCmd (there : Bool) (master off size v : Nat) (s : State) : Host.Outcome State Fault Refusal :=
  if there && masterExists master then .next (s.writeBy master off size v) else .refused .noSuchUnit

/-- REGISTER_WRITE (00 R5-R10, 01 R22, R23). -/
def execRegisterWrite (master off size : Nat) (value : BitVec 64) (s : State) : Host.Outcome State Fault Refusal :=
  regCmd ([1, 2, 4, 8].contains size && decide (off < 0x1000000000)) master off size value.toNat s

/-- The register, its size and the lock bit that LOCK_SET names (00 R7): the lock bits of the blocks, and that of a channel. -/
def lockOf (off : Nat) : Option (Nat × Nat × Nat) :=
  match lockBits.find? fun l => l.1 == off with
  | some (r, b) => some (r, 4, b)
  | none => match regAt off with
    | some (d, _) => if d.name = .mbxBind then some (off, 8, 63) else none
    | none => none

/-- LOCK_SET (00 R7): the lock bit of the register named written to 1, its other fields as they stand. -/
def execLockSet (master off : Nat) (s : State) : Host.Outcome State Fault Refusal :=
  match lockOf off with
  | some (r, size, b) => regCmd true master r size (s.reg r ||| 2 ^ b) s
  | none => .refused .noSuchUnit

/-- FIFO_DELIVERY (01 R32-R34): a transfer between islands arrives. Every command of the model carries its own transfers to their
ends, so nothing is left to deliver (DESIGN CHOICE, log 74). -/
def execFifoDelivery (_src _dst : Nat) (s : State) : Host.Outcome State Fault Refusal := .next s

/-- INTC_SWI_RAISE (03 R102). -/
def execIntcSwiRaise (master c k : Nat) (s : State) : Host.Outcome State Fault Refusal :=
  regCmd (decide (c < 16) && decide (k < 6)) master (Off.intcSwi c k) 4 1 s

/-- LOCKEN_WRITE (07 R182). -/
def execLockenWrite (master : Nat) (u : CacheUnit) (value : BitVec 32) (s : State) : Host.Outcome State Fault Refusal :=
  regCmd (unitExists u) master (match u with | .l2 c => Off.l2Locken c | .slice i => Off.scLocken i) 4 value.toNat s

/-- The write of RM_CTRL that starts a range operation (07 R187, R203). -/
def rmCmd (op master : Nat) (e : RangeEngine) (a : RmArgs) (s : State) : Host.Outcome State Fault Refusal :=
  regCmd (rmExists e) master (rmCtrl e) 8 (2 ^ 63 + a.dbBit.toNat * 2 ^ 32 + bit01 a.dbEn * 2 ^ 28 + a.dbTarget.toNat * 2 ^ 16 +
    a.way.toNat * 256 + op) s

/-- RM_CLEAN (07 R187). -/
def execRmClean (master : Nat) (e : RangeEngine) (args : RmArgs) (s : State) : Host.Outcome State Fault Refusal := rmCmd 1 master e args s
/-- RM_INVAL (07 R187). -/
def execRmInval (master : Nat) (e : RangeEngine) (args : RmArgs) (s : State) : Host.Outcome State Fault Refusal := rmCmd 2 master e args s
/-- RM_CLEANINVAL (07 R187). -/
def execRmCleaninval (master : Nat) (e : RangeEngine) (args : RmArgs) (s : State) : Host.Outcome State Fault Refusal :=
  rmCmd 3 master e args s
/-- RM_LOCKFILL (07 R186, R187). -/
def execRmLockfill (master : Nat) (e : RangeEngine) (args : RmArgs) (s : State) : Host.Outcome State Fault Refusal :=
  rmCmd 4 master e args s
/-- RM_UNLOCK (07 R187). -/
def execRmUnlock (master : Nat) (e : RangeEngine) (args : RmArgs) (s : State) : Host.Outcome State Fault Refusal := rmCmd 5 master e args s
/-- RM_ZERO (07 R187). -/
def execRmZero (master : Nat) (e : RangeEngine) (args : RmArgs) (s : State) : Host.Outcome State Fault Refusal := rmCmd 6 master e args s

/-- DUR_WRITE (07 R200). -/
def execDurWrite (master i : Nat) (value : BitVec 64) (s : State) : Host.Outcome State Fault Refusal :=
  regCmd (decide (i < 8)) master (Off.dur i) 8 value.toNat s

/-- QUEUE_DOORBELL (08 R206). -/
def execQueueDoorbell (master q : Nat) (value : BitVec 32) (s : State) : Host.Outcome State Fault Refusal :=
  regCmd (decide (q < 4096)) master (Off.tqTail q) 4 value.toNat s

/-- TQ_ENABLE_WRITE (08 R214, R239): TQ_CFG as it stands, with enable. -/
def execTqEnableWrite (master q : Nat) (s : State) : Host.Outcome State Fault Refusal :=
  regCmd (decide (q < 4096)) master (Off.tqCfg q) 8 (setBit (s.reg (Off.tqCfg q)) 63 true) s

/-- TQ_DISABLE_WRITE (08 R239): TQ_CFG as it stands, without enable. -/
def execTqDisableWrite (master q : Nat) (s : State) : Host.Outcome State Fault Refusal :=
  regCmd (decide (q < 4096)) master (Off.tqCfg q) 8 (setBit (s.reg (Off.tqCfg q)) 63 false) s

/-- PORT_ENABLE_WRITE (09 R242, R283). -/
def execPortEnableWrite (master p : Nat) (value : BitVec 64) (s : State) : Host.Outcome State Fault Refusal :=
  regCmd (decide (p < 128)) master (Off.portCfg p) 8 (setBit value.toNat 63 true) s

/-- PORT_DISABLE_WRITE (09 R280). -/
def execPortDisableWrite (master p : Nat) (s : State) : Host.Outcome State Fault Refusal :=
  regCmd (decide (p < 128)) master (Off.portCfg p) 8 (setBit (s.reg (Off.portCfg p)) 63 false) s

/-- MSEC_CFG_WRITE (09 R246, R283). -/
def execMsecCfgWrite (master p : Nat) (value : BitVec 64) (s : State) : Host.Outcome State Fault Refusal :=
  regCmd (decide (p < 128)) master (Off.msecCfg p) 8 value.toNat s

/-- LINK_ENABLE (10 R285, R310). -/
def execLinkEnable (master l : Nat) (value : BitVec 64) (s : State) : Host.Outcome State Fault Refusal :=
  regCmd (decide (l < 128)) master (Off.lnkCfg l) 8 (setBit value.toNat 63 true) s

/-- LINK_DISABLE_WRITE (10 R310). -/
def execLinkDisableWrite (master l : Nat) (s : State) : Host.Outcome State Fault Refusal :=
  regCmd (decide (l < 128)) master (Off.lnkCfg l) 8 (setBit (s.reg (Off.lnkCfg l)) 63 false) s

/-- TIME_STEP (11 R323). -/
def execTimeStep (master : Nat) (amount : BitVec 48) (s : State) : Host.Outcome State Fault Refusal :=
  regCmd true master Off.timeAdj 8 (2 ^ 63 + 2 ^ 62 + amount.toNat) s

/-- TIME_SLEW (11 R323). -/
def execTimeSlew (master : Nat) (amount : BitVec 48) (s : State) : Host.Outcome State Fault Refusal :=
  regCmd true master Off.timeAdj 8 (2 ^ 63 + amount.toNat) s

/-- TIME_CTRL_SRC_WRITE (11 R324, R332). -/
def execTimeCtrlSrcWrite (master : Nat) (src : BitVec 3) (s : State) : Host.Outcome State Fault Refusal :=
  regCmd true master Off.timeCtrl 4 (setBits (setBit (s.reg Off.timeCtrl) 31 false) 0 3 src.toNat) s

/-- PRISM_DOORBELL (12 R334). -/
def execPrismDoorbell (master j : Nat) (value : BitVec 32) (s : State) : Host.Outcome State Fault Refusal :=
  regCmd (decide (j < 36)) master (jTail .prism j) 4 value.toNat s

/-- CIPHER_DOORBELL (12 R334). -/
def execCipherDoorbell (master j : Nat) (value : BitVec 32) (s : State) : Host.Outcome State Fault Refusal :=
  regCmd (decide (j < 36)) master (jTail .cipher j) 4 value.toNat s

/-- JOB_RING_ENABLE (12 R360): the configuration as it stands, with enable. -/
def execJobRingEnable (master : Nat) (pool : Pool) (j : Nat) (s : State) : Host.Outcome State Fault Refusal :=
  regCmd (decide (j < 36)) master (jCfg pool j) 8 (setBit (s.reg (jCfg pool j)) 63 true) s

/-- JOB_RING_DISABLE (12 R358, R360). -/
def execJobRingDisable (master : Nat) (pool : Pool) (j : Nat) (s : State) : Host.Outcome State Fault Refusal :=
  regCmd (decide (j < 36)) master (jCfg pool j) 8 (setBit (s.reg (jCfg pool j)) 63 false) s

/-- KEY_CMD_LOAD (12 R355, R361): the key that KEY_DATA holds. -/
def execKeyCmdLoad (master : Nat) (slot : BitVec 10) (typ : BitVec 3) (len : BitVec 7) (owner : BitVec 12) (portUse : Bool) (s : State) :
    Host.Outcome State Fault Refusal :=
  regCmd true master Off.keyCmd 8 (2 ^ 63 + 2 ^ 60 + len.toNat * 2 ^ 40 + typ.toNat * 2 ^ 36 + bit01 portUse * 2 ^ 33 +
    owner.toNat * 65536 + slot.toNat) s

/-- KEY_CMD_CLEAR (12 R355). -/
def execKeyCmdClear (master : Nat) (slot : BitVec 10) (s : State) : Host.Outcome State Fault Refusal :=
  regCmd true master Off.keyCmd 8 (2 ^ 63 + 2 * 2 ^ 60 + slot.toNat) s

/-- KEY_CMD_LOCK (12 R355). -/
def execKeyCmdLock (master : Nat) (slot : BitVec 10) (s : State) : Host.Outcome State Fault Refusal :=
  regCmd true master Off.keyCmd 8 (2 ^ 63 + 3 * 2 ^ 60 + slot.toNat) s

/-- MBX_TX_WRITE (13 R367). -/
def execMbxTxWrite (master ch i : Nat) (value : BitVec 64) (s : State) : Host.Outcome State Fault Refusal :=
  regCmd (decide (ch < 4096) && decide (i < 8)) master (Off.mbxTx ch i) 8 value.toNat s

/-- POST (13 R367, R368). -/
def execPost (master ch : Nat) (s : State) : Host.Outcome State Fault Refusal :=
  regCmd (decide (ch < 4096)) master (Off.mbxPost ch) 4 0 s

/-- BLOCKING_POST (13 R368). -/
def execBlockingPost (master ch : Nat) (timeout : BitVec 20) (s : State) : Host.Outcome State Fault Refusal :=
  regCmd (decide (ch < 4096)) master (Off.mbxPost ch) 4 (2 ^ 31 + timeout.toNat) s

/-- MBX_RING_WRITE (13 R370). -/
def execMbxRingWrite (master ch : Nat) (value : BitVec 32) (s : State) : Host.Outcome State Fault Refusal :=
  regCmd (decide (ch < 4096)) master (Off.mbxRing ch) 4 value.toNat s

/-- POP (13 R371). -/
def execPop (master ch : Nat) (value : BitVec 32) (s : State) : Host.Outcome State Fault Refusal :=
  regCmd (decide (ch < 4096)) master (Off.mbxPop ch) 4 value.toNat s

/-- BIND_WRITE (13 R363). -/
def execBindWrite (master ch : Nat) (value : BitVec 64) (s : State) : Host.Outcome State Fault Refusal :=
  regCmd (decide (ch < 4096)) master (Off.mbxBind ch) 8 value.toNat s

/-- DOORBELL_CLEAR (13 R372). -/
def execDoorbellClear (master : Nat) (r : Receiver) (value : BitVec 32) (s : State) : Host.Outcome State Fault Refusal :=
  match (receiverId r).bind dbOffsets with
  | some (p, _) => regCmd true master p 4 value.toNat s
  | none => .refused .noSuchUnit

/-- DOORBELL_MASK_WRITE (13 R372). -/
def execDoorbellMaskWrite (master : Nat) (r : Receiver) (value : BitVec 32) (s : State) : Host.Outcome State Fault Refusal :=
  match (receiverId r).bind dbOffsets with
  | some (_, k) => regCmd true master k 4 value.toNat s
  | none => .refused .noSuchUnit

/-- ERR_SRC_CLEAR (16 R418, R437). -/
def execErrSrcClear (master n : Nat) (s : State) : Host.Outcome State Fault Refusal :=
  regCmd (decide (n < 768)) master (Off.errSrc n) 4 (2 ^ 31) s

/-- ERR_FIRST_CLEAR (16 R419, R437). -/
def execErrFirstClear (master g : Nat) (s : State) : Host.Outcome State Fault Refusal :=
  regCmd (decide (g < 24)) master (Off.errFirst g) 4 1 s

/-- ERR_REACT_WRITE (16 R422). -/
def execErrReactWrite (master g : Nat) (hi : Bool) (value : BitVec 64) (s : State) : Host.Outcome State Fault Refusal :=
  regCmd (decide (g < 24)) master (if hi then Off.errReactHi g else Off.errReactLo g) 8 value.toNat s

/-- ERR_PIN_FORCE (16 R427). -/
def execErrPinForce (master : Nat) (s : State) : Host.Outcome State Fault Refusal := regCmd true master Off.errPin 4 (2 ^ 30) s

/-- ERR_PIN_RELEASE (16 R427). -/
def execErrPinRelease (master : Nat) (s : State) : Host.Outcome State Fault Refusal := regCmd true master Off.errPin 4 (2 ^ 31) s

/-- BIST_GO (19 R472, R492). -/
def execBistGo (master : Nat) (scope unit : BitVec 8) (kind : Bool) (s : State) : Host.Outcome State Fault Refusal :=
  regCmd true master Off.bistCtrl 4 (2 ^ 31 + unit.toNat * 65536 + scope.toNat * 256 + bit01 kind) s

/-- LENS_SNAP_ARM (19 R484): the freeze field as it stands. -/
def execLensSnapArm (master : Nat) (s : State) : Host.Outcome State Fault Refusal :=
  regCmd true master Off.lensCtrl 4 (2 ^ 31 + s.fld Off.lensCtrl 30 1 * 2 ^ 30) s

/-- LENS_FREEZE_ARM (19 R484). -/
def execLensFreezeArm (master : Nat) (freeze : Bool) (s : State) : Host.Outcome State Fault Refusal :=
  regCmd true master Off.lensCtrl 4 (bit01 freeze * 2 ^ 30) s

end Sys2Proof.Machine
end

