-- ==== Sys2Proof/Machine/YafObj.lean ====
section
/-! DEFINITION. What a command of 14 R390 may touch: the objects of a requester (R389), its DRAM window, and the states of logical
processors that details and results give. -/

namespace Sys2Proof.Machine

/-- The partition of a logical processor, with its number. -/
def State.partOf (s : State) (n : Nat) : Option (Nat × Part) := s.parts.find? fun e => e.2.lps.contains n

/-- Whether VF_ASSIGN has given a function an object: kinds 1 queues, 2 Prism rings, 3 cipher rings, 4 channels, 6 partition,
7 key slots. -/
def State.vfHas (s : State) (m kind i : Nat) : Bool :=
  s.assigns.any fun a => a.vf == m && a.kind == kind && decide (a.first ≤ i) && decide (i < a.first + a.count)

/-- Whether a requester may act on a partition (R389): PF0, and a VF that was given it. -/
def State.mayPart (s : State) (m i : Nat) : Bool := m == 0 || s.vfHas m 6 i

/-- Whether a requester may act on a logical processor (R389). -/
def State.mayLp (s : State) (m n : Nat) : Bool :=
  m == 0 ||
    match s.partOf n with
    | none => false
    | some (i, p) => if m < 0x40 then s.vfHas m 6 i else p.lps.contains (m - 0x100)

/-- Whether a master is a logical processor of a requesting logical processor's partition. -/
def State.samePart (s : State) (m other : Nat) : Bool :=
  match s.partOf (m - 0x100) with
  | some (_, p) => decide (0x100 ≤ other) && p.lps.contains (other - 0x100)
  | none => false

/-- Whether a requester may act on a queue or ring with an owner (R389). -/
def State.mayUse (s : State) (m kind i owner : Nat) : Bool :=
  m == 0 || (if m < 0x40 then s.vfHas m kind i else s.samePart m owner)

/-- Whether a requester may act on a channel between two masters (R389). -/
def State.mayChan (s : State) (m ch sender receiver : Nat) : Bool :=
  m == 0 || (if m < 0x40 then s.vfHas m 4 ch else s.samePart m sender && s.samePart m receiver)

/-- The DRAM windows of a requester (R389, R391): all of DRAM for PF0, what VF_ASSIGN gave a VF, its partition's for a logical
processor. -/
def State.windows (s : State) (m : Nat) : List (Nat × Nat) :=
  if m = 0 then [(0, s.installed)]
  else if m < 0x40 then (s.assigns.filter fun a => a.vf == m && a.kind == 5).map fun a => (a.base, a.size)
  else match s.partOf (m - 0x100) with
    | some (_, p) => [(p.base, p.size)]
    | none => []

/-- Whether a window holds a range. -/
def holds (w : Nat × Nat) (a n : Nat) : Bool := decide (w.1 ≤ a) && decide (a + n ≤ w.1 + w.2)

/-- Whether a range lies in the requester's window and in DRAM. -/
def State.inReq (s : State) (m a n : Nat) : Bool := (s.windows m).any fun w => holds w a n && decide (a + n ≤ s.installed)

/-- The bytes of a requester's buffer; none where it lies outside its window or meets a bus error (BUFFER_FAULT). -/
def State.bufRead (s : State) (m a n : Nat) : Option (List Byte) := if s.inReq m a n then s.dmaRead a n else none

/-- The code of a run state (14 R390): EMPTY 0, LOADED 1, RUNNING 2, HALTED 3, REPAIRING 4, LOST 5; a halt by Tamler does not count. -/
def runCode : Run → Nat
  | .empty => 0
  | .loaded => 1
  | .halted => 3
  | .repairing => 4
  | .lost => 5
  | _ => 2

/-- The state of a logical processor as LP_STATUS gives it. -/
def LP.code (p : LP) : Nat := if p.run = .debug ∨ p.run = .stepping then runCode p.was else runCode p.run

/-- The slot of a master ID that R16 gives to a logical processor. -/
def State.lpSlot (s : State) (m : Nat) : Option Nat :=
  if 0x100 ≤ m ∧ m < 0x160 ∧ s.lpExists (m - 0x100) then some (m - 0x100) else none

/-- A command on a logical processor that exists and that the requester may act on. -/
def State.onSlot (s : State) (m mid : Nat) (f : Nat → Ans) : Ans :=
  match s.lpSlot mid with
  | none => Ans.un s .noSuchObject
  | some n => if !s.mayLp m n then Ans.un s .notOwner else f n

/-- BAD_STATE with the state of a logical processor as its detail. -/
def Ans.lpState (s : State) (n : Nat) : Ans := Ans.no s .badState (s.lp n).code

end Sys2Proof.Machine
end

