-- ==== Sys2Proof/Machine/YafDev.lean ====
section
/-! DEFINITION. The device commands of Yafolo (14 R390, opcodes 0x00xx) and an opcode not assigned (R392). -/

namespace Sys2Proof.Machine

/-- The opcodes of R390. -/
def opcodes : List Nat :=
  [0x0001, 0x0002, 0x0003, 0x0004, 0x0005, 0x0101, 0x0102, 0x0103, 0x0104, 0x0105, 0x0106, 0x0107, 0x0108, 0x0109,
   0x0201, 0x0202, 0x0203, 0x0204, 0x0205, 0x0206, 0x0207, 0x0208, 0x0209,
   0x0301, 0x0302, 0x0303, 0x0304, 0x0305, 0x0306, 0x0307, 0x0308, 0x0309] ++
  [0x0401, 0x0402, 0x0403, 0x0404, 0x0405, 0x0406, 0x0501, 0x0502, 0x0503, 0x0504, 0x0505, 0x0506, 0x0507,
   0x0601, 0x0602, 0x0603, 0x0701, 0x0702, 0x0703, 0x0704, 0x0705, 0x0706, 0x0801, 0x0802, 0x0803, 0x0804, 0x0805,
   0x0901, 0x0902, 0x0903, 0x0904, 0x0905, 0x0906, 0x0A01, 0x0A02, 0x0F01, 0x0F02, 0x0F03]

/-- A message on a command channel whose flags are not 0x0001, or whose opcode is not assigned (14 R392, R393), before every check but
that of R379 (log 66). Flags 0x0001 with an assigned opcode make another command. -/
def execBadOpcode (h : CmdHdr) (opcode flags : BitVec 16) (s : State) : Host.Outcome State Fault Refusal :=
  if !cmdExists h || (flags == 1 && opcodes.contains opcode.toNat) then .refused .noSuchUnit
  else .next (
    if !s.yafTakes h then s
    else
      let (c, d) := if h.cp = 1 ∧ !s.cp1Serves then (Code.badState, some 0xC1) else (Code.badOpcode, none)
      (s.takeCmd h.master h.cp).complete h.master h.cp h.tag.toNat opcode.toNat c d false [])

/-- The version of the image in a slot: what FW_STAGE wrote, or as shipped (log 75). -/
def State.fwVersion (s : State) (slot : Nat) : Nat := tblGetD s.chip.vers slot (Config.shippedVersion slot).toNat

/-- HELLO (14 R386, R390). -/
def yafHello (m version : Nat) (s : State) : Ans :=
  if version < 0x0100 then Ans.un s .version
  else
    Ans.ok (s.onReq m fun r => { r with hello := true })
      (packFields [(2, 0x0100), (2, m), (1, s.epoch m), (1, s.chip.running), (1, s.chip.bootKind), (4, s.reg Off.devId),
        (4, s.fwVersion s.chip.running), (4, s.reg Off.rtSelf)])

/-- HELLO. -/
def execHello (h : CmdHdr) (version : BitVec 16) (s : State) : Host.Outcome State Fault Refusal :=
  yafRun h 0x0001 [2] .any s (yafHello h.master version.toNat)

/-- The cluster clock in MHz (18 BOOT_STAT.clk). -/
def State.clockMhz (s : State) : Nat :=
  match s.fld Off.bootStat 14 2 with
  | 0 => 1600
  | 1 => 1800
  | _ => 2000

/-- Whether a slot is a running-capable logical processor: it exists, is not lost, and its cluster is not offline. -/
def State.lpCapable (s : State) (n : Nat) : Bool := s.lpExists n && (s.lp n).run != .lost && !bitOf s.chip.offline (n / 6)

/-- GET_INFO. -/
def yafGetInfo (s : State) : Ans :=
  let lost := ((List.range 96).filter fun n => s.lpExists n && (s.lp n).run == .lost).length
  let cap := (List.range 96).foldl (fun v n => if s.lpCapable n then v + 2 ^ n else v) 0
  Ans.ok s (packFields [(2, s.clockMhz), (2, s.split), (2, s.installed / 2 ^ 30), (1, s.fld Off.timeStat 0 2), (1, lost),
    (8, cap % 2 ^ 64), (4, cap / 2 ^ 64)])

/-- GET_INFO. -/
def execGetInfo (h : CmdHdr) (s : State) : Host.Outcome State Fault Refusal := yafRun h 0x0002 [] .any s yafGetInfo

/-- SET_IDENTITY (14 R390, 10 R303, R305): RT_SELF and the service area record it, and formation runs with it. -/
def yafSetIdentity (domain prio member valid : Nat) (s : State) : Ans :=
  if 1 < valid ∨ 1023 < member then Ans.un s .badArg
  else if s.selfValid ∧ (List.range 128).any (fun l => s.linkUp l) then Ans.un s .badState
  else
    let s1 : State := { s with svc := { s.svc with ident := some (domain, prio, member, valid) } }
    Ans.ok (s1.setReg Off.rtSelf (valid * 2 ^ 31 + domain * 1024 + member)).formNow []

/-- SET_IDENTITY. -/
def execSetIdentity (h : CmdHdr) (domain prio : BitVec 8) (member : BitVec 16) (valid : BitVec 8) (s : State) :
    Host.Outcome State Fault Refusal :=
  yafRun h 0x0003 [1, 1, 2, 1] .pf0 s (yafSetIdentity domain.toNat prio.toNat member.toNat valid.toNat)

/-- EVENT_MASK (14 R394). -/
def execEventMask (h : CmdHdr) (mask : BitVec 64) (s : State) : Host.Outcome State Fault Refusal :=
  yafRun h 0x0004 [8] .fn s fun s => Ans.ok (s.onReq h.master fun r => { r with mask := mask.toNat }) []

/-- LOCK_CONFIG: every block locked until the next cold reset. -/
def yafLockConfig (s : State) : Ans :=
  if lockBits.all fun (r, b) => s.flag r b then Ans.un s .badState
  else Ans.ok (lockBits.foldl (fun (t : State) e => t.setFlag e.1 e.2 true) s) []

/-- LOCK_CONFIG. -/
def execLockConfig (h : CmdHdr) (s : State) : Host.Outcome State Fault Refusal := yafRun h 0x0005 [] .pf0 s yafLockConfig

end Sys2Proof.Machine
end

