-- ==== Sys2Proof/Machine/YafTw.lean ====
section
/-! DEFINITION. The Tradewind and routing commands of Yafolo (14 R390, opcodes 0x02xx). -/

namespace Sys2Proof.Machine

/-- A command on a queue that exists and that the requester may act on. -/
def State.onQueue (s : State) (m q : Nat) (f : Ans) : Ans :=
  if 4096 ≤ q then Ans.un s .noSuchObject
  else if !s.mayUse m 1 q (s.tqOwner q) then Ans.un s .notOwner
  else f

/-- Whether a ring, window or area lies in installed DRAM (15 R405). -/
def State.inDram (s : State) (a n : Nat) : Bool := decide (a + n ≤ s.installed)

/-- QUEUE_RINGS: kept until QUEUE_ENABLE. -/
def yafQueueRings (m q : Nat) (r : QRings) (s : State) : Ans :=
  s.onQueue m q (
    if 31 < r.k ∨ 15 < r.flows ∨ r.ring % 4096 ≠ 0 ∨ r.cq % 4096 ≠ 0 ∨ r.area % 4096 ≠ 0 then Ans.un s .badArg
    else if !(s.inDram r.ring (64 * 2 ^ r.k) && s.inDram r.cq (32 * 2 ^ r.k) && s.inDram r.area (0x2040 * (r.flows + 1)) &&
        s.inDram r.lo 1 && s.inDram r.hi 1) then Ans.no s .badArg 0x22
    else if s.tqOn q then Ans.un s .badState
    else Ans.ok { s with yaf := { s.yaf with rings := tblSet s.yaf.rings q r } } [])

/-- QUEUE_RINGS. -/
def execQueueRings (h : CmdHdr) (queue : BitVec 16) (k flows : BitVec 8) (ring cq state buflo bufhi : BitVec 64) (s : State) :
    Host.Outcome State Fault Refusal :=
  yafRun h 0x0201 [2, 1, 1, 8, 8, 8, 8, 8] .fn s
    (yafQueueRings h.master queue.toNat ⟨k.toNat, flows.toNat, ring.toNat, cq.toNat, state.toNat, buflo.toNat, bufhi.toNat⟩)

/-- The value of TQ_CFG that QUEUE_PARAMS gives, without the enable bit (08 R239). -/
def paramsCfg (owner engine durable bit en target timeout : Nat) : Nat :=
  durable * 2 ^ 62 + owner * 2 ^ 50 + engine * 2 ^ 46 + en * 2 ^ 41 + target * 2 ^ 29 + bit * 2 ^ 24 + timeout

/-- QUEUE_PARAMS: kept until QUEUE_ENABLE. -/
def yafQueueParams (m q owner engine durable bit en target timeout dflt : Nat) (s : State) : Ans :=
  s.onQueue m q (
    if 4095 < owner ∨ 15 < engine ∨ 1 < durable ∨ 31 < bit ∨ 1 < en ∨ 4095 < target ∨ 2 ^ 24 ≤ timeout then Ans.un s .badArg
    else if s.tqOn q then Ans.un s .badState
    else Ans.ok { s with yaf := { s.yaf with
      params := tblSet s.yaf.params q ⟨paramsCfg owner engine durable bit en target timeout, dflt⟩ } } [])

/-- QUEUE_PARAMS. -/
def execQueueParams (h : CmdHdr) (queue owner : BitVec 16) (engine durable notifyBit notifyEn : BitVec 8) (notifyTarget : BitVec 16)
    (timeout : BitVec 32) (target : BitVec 64) (s : State) : Host.Outcome State Fault Refusal :=
  yafRun h 0x0202 [2, 2, 1, 1, 1, 1, 2, 4, 8] .fn s
    (yafQueueParams h.master queue.toNat owner.toNat engine.toNat durable.toNat notifyBit.toNat notifyEn.toNat notifyTarget.toNat
      timeout.toNat target.toNat)

/-- The queue registers as QUEUE_ENABLE writes them; a queue for which a command gave no settings keeps its registers (log 80). -/
def State.queueWrite (s : State) (q : Nat) : State :=
  let s1 := match tblGet? s.yaf.rings q with
    | some r =>
      ((((s.setReg (Off.tqRing q) (r.ring + r.k)).setReg (Off.tqCq q) (r.cq + r.k)).setReg (Off.tqState q) (r.area + r.flows)).setReg
        (Off.tqBuflo q) r.lo).setReg (Off.tqBufhi q) r.hi
    | none => s
  match tblGet? s1.yaf.params q with
  | some p => (s1.setReg (Off.tqCfg q) p.cfg).setReg (Off.tqTarget q) p.target
  | none => s1

/-- QUEUE_ENABLE. -/
def yafQueueEnable (m q : Nat) (s : State) : Ans :=
  s.onQueue m q (
    if s.tqOn q then Ans.un s .badState
    else match (s.queueWrite q).queueEnable q with
      | .done t => Ans.ok t (packFields [(2, (t.tq q).inc)])
      | .badState => Ans.un s .badState
      | .badSize => Ans.un s .badArg
      | .notDurable => Ans.no s .badArg 0x21
      | .noResource => Ans.un s .noResource)

/-- QUEUE_ENABLE. -/
def execQueueEnable (h : CmdHdr) (queue : BitVec 16) (s : State) : Host.Outcome State Fault Refusal :=
  yafRun h 0x0203 [2] .fn s (yafQueueEnable h.master queue.toNat)

/-- QUEUE_DISABLE. -/
def yafQueueDisable (m q : Nat) (s : State) : Ans :=
  s.onQueue m q (
    if !s.tqOn q then Ans.un s .badState
    else
      let (t, n) := s.queueDisable q
      Ans.ok t (packFields [(4, n)]))

/-- QUEUE_DISABLE. -/
def execQueueDisable (h : CmdHdr) (queue : BitVec 16) (s : State) : Host.Outcome State Fault Refusal :=
  yafRun h 0x0204 [2] .any s (yafQueueDisable h.master queue.toNat)

/-- QUEUE_REBIND: the default target, and what a later enable writes. -/
def yafQueueRebind (m q target : Nat) (s : State) : Ans :=
  s.onQueue m q (
    if target / 2 ^ 62 = 0 then Ans.un s .badArg
    else
      let s1 : State := { s with yaf := { s.yaf with
        params := tblMap (fun k p => if k = q then { p with target := target } else p) s.yaf.params } }
      Ans.ok (s1.setReg (Off.tqTarget q) target) [])

/-- QUEUE_REBIND. -/
def execQueueRebind (h : CmdHdr) (queue : BitVec 16) (target : BitVec 64) (s : State) : Host.Outcome State Fault Refusal :=
  yafRun h 0x0205 [2, 8] .any s (yafQueueRebind h.master queue.toNat target.toNat)

/-- QUEUE_STATUS. -/
def yafQueueStatus (m q : Nat) (s : State) : Ans :=
  s.onQueue m q (Ans.ok s (packFields [(4, s.reg (Off.tqStat q)), (4, s.reg (Off.tqHead q)), (4, s.reg (Off.tqRetire q)),
    (4, s.reg (Off.tqTail q)), (2, (s.tq q).inc)]))

/-- QUEUE_STATUS. -/
def execQueueStatus (h : CmdHdr) (queue : BitVec 16) (s : State) : Host.Outcome State Fault Refusal :=
  yafRun h 0x0206 [2] .any s (yafQueueStatus h.master queue.toNat)

/-- A logical engine moved to a named engine, and the one it leaves condemned (08 R236). -/
def State.teMove (s : State) (e d : Nat) : State :=
  let i := s.tePhys e
  let s1 := s.condemn 5 0 i (512 + i) true
  ({ s1 with tengs := tblSet s1.tengs i ⟨0, some d⟩ } : State).teHandover e

/-- TE_DISABLE. -/
def yafTeDisable (e d : Nat) (s : State) : Ans :=
  if 16 ≤ e ∨ 18 ≤ d then Ans.un s .noSuchObject
  else if s.teState (s.tePhys e) = 3 then Ans.un s .busy
  else if s.teState d ≠ 0 then Ans.no s .badState (s.teState d)
  else Ans.ok (s.teMove e d) []

/-- TE_DISABLE. -/
def execTeDisable (h : CmdHdr) (logical dest : BitVec 8) (s : State) : Host.Outcome State Fault Refusal :=
  yafRun h 0x0207 [1, 1] .pf0 s (yafTeDisable logical.toNat dest.toNat)

/-- DOMAIN_SET (10 R310): RT_DOMAIN, and its copy in the service area. -/
def yafDomainSet (domain valid isLocal gateway links : Nat) (s : State) : Ans :=
  if 1 < valid ∨ 1 < isLocal ∨ 1023 < gateway ∨ 2 ^ 34 ≤ links then Ans.un s .badArg
  else
    let v := valid * 2 ^ 63 + isLocal * 2 ^ 62 + gateway * 2 ^ 52 + links
    Ans.ok (({ s with svc := { s.svc with domains := tblSet s.svc.domains domain v } } : State).setReg (Off.rtDomain domain) v) []

/-- DOMAIN_SET. -/
def execDomainSet (h : CmdHdr) (domain valid isLocal : BitVec 8) (gateway : BitVec 16) (links : BitVec 64) (s : State) :
    Host.Outcome State Fault Refusal :=
  yafRun h 0x0208 [1, 1, 1, 2, 8] .pf0 s (yafDomainSet domain.toNat valid.toNat isLocal.toNat gateway.toNat links.toNat)

/-- RESUME_REPORT: the total and up to three entries. -/
def yafResumeReport (index : Nat) (s : State) : Ans :=
  let r := s.svc.report
  if r.length ≤ index then Ans.un s .badArg
  else Ans.ok s (packFields ((4, r.length) :: ((r.drop index).take 3).flatMap fun e =>
    [(2, e.q), (1, e.code), (1, 0), (4, e.first), (4, e.last)]))

/-- RESUME_REPORT. -/
def execResumeReport (h : CmdHdr) (index : BitVec 32) (s : State) : Host.Outcome State Fault Refusal :=
  yafRun h 0x0209 [4] .fn s (yafResumeReport index.toNat)

end Sys2Proof.Machine
end

