-- ==== Sys2Proof/Machine/YafEng.lean ====
section
/-! DEFINITION. The commands of Yafolo on engines and keys (14 R390, opcodes 0x05xx) and on mailbox bindings (0x06xx). -/

namespace Sys2Proof.Machine

/-- The pool that a number names. -/
def poolOf (n : Nat) : Pool := if n = 0 then .prism else .cipher

/-- A command on a job ring that exists and that the requester may act on. -/
def State.onRing (s : State) (m pool j : Nat) (f : Pool → Ans) : Ans :=
  if 1 < pool then Ans.un s .badArg
  else if 36 ≤ j then Ans.un s .noSuchObject
  else if !s.mayUse m (2 + pool) j (s.jOwner (poolOf pool) j) then Ans.un s .notOwner
  else f (poolOf pool)

/-- RING_CONFIG: the registers of the ring (12 R360). Its width is the register's field (DEDUCED, log 87). -/
def yafRingConfig (m pool j k width owner bit en target ring cq lo hi : Nat) (s : State) : Ans :=
  s.onRing m pool j fun p =>
    if 31 < k ∨ 15 < width ∨ 4095 < owner ∨ 31 < bit ∨ 1 < en ∨ 4095 < target ∨ ring % 4096 ≠ 0 ∨ cq % 4096 ≠ 0 then
      Ans.un s .badArg
    else if !(s.inDram ring (64 * 2 ^ k) && s.inDram cq (32 * 2 ^ k) && s.inDram lo 1 && s.inDram hi 1) then Ans.no s .badArg 0x22
    else if s.jOn p j then Ans.un s .badState
    else
      let s1 := (((s.jRegWrite p j (jBase p j) (ring + k)).jRegWrite p j (jCq p j) (cq + k)).jRegWrite p j (jBuflo p j) lo).jRegWrite
        p j (jBufhi p j) hi
      Ans.ok (s1.jCfgWrite p j (owner * 2 ^ 50 + width * 2 ^ 46 + en * 2 ^ 41 + target * 2 ^ 29 + bit * 2 ^ 24)) []

/-- RING_CONFIG. -/
def execRingConfig (h : CmdHdr) (pool ring k width : BitVec 8) (owner : BitVec 16) (notifyBit notifyEn : BitVec 8)
    (notifyTarget : BitVec 16) (ringA cq buflo bufhi : BitVec 64) (s : State) : Host.Outcome State Fault Refusal :=
  yafRun h 0x0501 [1, 1, 1, 1, 2, 1, 1, 2, 8, 8, 8, 8] .fn s
    (yafRingConfig h.master pool.toNat ring.toNat k.toNat width.toNat owner.toNat notifyBit.toNat notifyEn.toNat notifyTarget.toNat
      ringA.toNat cq.toNat buflo.toNat bufhi.toNat)

/-- Whether the sizes of a ring may be enabled: k from 4 to 12 (12 R360). -/
def State.ringSizes (s : State) (p : Pool) (j : Nat) : Bool :=
  [jBase p j, jCq p j].all fun r => decide (4 ≤ s.fld r 0 5) && decide (s.fld r 0 5 ≤ 12)

/-- RING_ENABLE. -/
def yafRingEnable (m pool j : Nat) (s : State) : Ans :=
  s.onRing m pool j fun p =>
    if !s.ringSizes p j then Ans.un s .badArg
    else if s.jOn p j then Ans.un s .badState
    else Ans.ok (s.jCfgWrite p j (setBit (s.reg (jCfg p j)) 63 true)) []

/-- RING_ENABLE. -/
def execRingEnable (h : CmdHdr) (pool ring : BitVec 8) (s : State) : Host.Outcome State Fault Refusal :=
  yafRun h 0x0502 [1, 1] .fn s (yafRingEnable h.master pool.toNat ring.toNat)

/-- RING_DISABLE (12 R358). -/
def yafRingDisable (m pool j : Nat) (s : State) : Ans :=
  s.onRing m pool j fun p => if !s.jOn p j then Ans.un s .badState else Ans.ok (s.jDisable p j) []

/-- RING_DISABLE. -/
def execRingDisable (h : CmdHdr) (pool ring : BitVec 8) (s : State) : Host.Outcome State Fault Refusal :=
  yafRun h 0x0503 [1, 1] .any s (yafRingDisable h.master pool.toNat ring.toNat)

/-- A command on a key slot that exists and that the requester may act on. -/
def State.onKey (s : State) (m slot : Nat) (f : Ans) : Ans :=
  if 1024 ≤ slot then Ans.un s .noSuchObject
  else if m ≠ 0 ∧ !s.vfHas m 7 slot then Ans.un s .notOwner
  else f

/-- A key command given through KEY_DATA and KEY_CMD (12 R355): 1 LOAD, 2 CLEAR, 3 LOCK. -/
def State.keyGive (s : State) (cmd slot typ len owner portUse : Nat) (key : List Byte) : State :=
  let s1 := (List.range 8).foldl (fun (t : State) i => t.setReg (Off.keyData i) (fieldLE key (8 * i) 8)) s
  s1.keyCmdWrite (2 ^ 63 + cmd * 2 ^ 60 + len * 2 ^ 40 + typ * 2 ^ 36 + portUse * 2 ^ 33 + owner * 65536 + slot)

/-- KEY_LOAD: the command of 12 R355, and zeros over the key bytes. -/
def yafKeyLoad (m slot typ len portUse owner key : Nat) (s : State) : Ans :=
  s.onKey m slot (
    if 1 < portUse ∨ 4095 < owner then Ans.un s .badArg
    else match s.bufRead m key len with
      | none => Ans.un s .bufferFault
      | some bs =>
        match s.keyLoadResult slot typ len owner bs with
        | 0 => Ans.ok ((s.keyGive 1 slot typ len owner portUse bs).agentWrite key (List.replicate len 0)) []
        | 1 => Ans.un s .locked
        | d => Ans.no s .badArg d)

/-- KEY_LOAD. -/
def execKeyLoad (h : CmdHdr) (slot : BitVec 16) (typ length portUse : BitVec 8) (owner : BitVec 16) (key : BitVec 64) (s : State) :
    Host.Outcome State Fault Refusal :=
  yafRun h 0x0504 [2, 1, 1, 1, 2, 8] .fn s
    (yafKeyLoad h.master slot.toNat typ.toNat length.toNat portUse.toNat owner.toNat key.toNat)

/-- KEY_CLEAR. -/
def yafKeyClear (m slot : Nat) (s : State) : Ans :=
  s.onKey m slot (if s.flag (Off.keyStat slot) 30 then Ans.un s .locked else Ans.ok (s.keyGive 2 slot 0 0 0 0 []) [])

/-- KEY_CLEAR. -/
def execKeyClear (h : CmdHdr) (slot : BitVec 16) (s : State) : Host.Outcome State Fault Refusal :=
  yafRun h 0x0505 [2] .fn s (yafKeyClear h.master slot.toNat)

/-- KEY_LOCK. -/
def yafKeyLock (m slot : Nat) (s : State) : Ans := s.onKey m slot (Ans.ok (s.keyGive 3 slot 0 0 0 0 []) [])

/-- KEY_LOCK. -/
def execKeyLock (h : CmdHdr) (slot : BitVec 16) (s : State) : Host.Outcome State Fault Refusal :=
  yafRun h 0x0506 [2] .fn s (yafKeyLock h.master slot.toNat)

/-- ENGINE_DISABLE (12 R358): with a job running, the completion comes when the engine has stopped. -/
def yafEngineDisable (h : CmdHdr) (pool e : Nat) (s : State) : Ans :=
  let p := poolOf pool
  if 1 < pool then Ans.un s .badArg
  else if 36 ≤ e then Ans.un s .noSuchObject
  else if s.fld (eBase p e) 0 2 ≠ 1 then Ans.no s .badState (s.fld (eBase p e) 0 2)
  else
    let s1 := s.jDisableEngine p e
    if (s.jEng p e).job.isSome then
      Ans.wait { s1 with yaf := { s1.yaf with stops := s1.yaf.stops ++ [⟨h.master, h.cp, h.tag.toNat, pool, e⟩] } }
    else Ans.ok s1 []

/-- ENGINE_DISABLE. -/
def execEngineDisable (h : CmdHdr) (pool engine : BitVec 8) (s : State) : Host.Outcome State Fault Refusal :=
  yafRun h 0x0507 [1, 1] .pf0 s (yafEngineDisable h pool.toNat engine.toNat)

/-- Whether a requester may act on a channel as it is bound; one that was never bound is free (DEDUCED, log 89). -/
def State.chanMine (s : State) (m ch : Nat) : Bool :=
  (s.reg (Off.mbxBind ch) == 0 && (decide (0x40 ≤ m) || s.vfHas m 4 ch)) || s.mayChan m ch (s.bindSender ch) (s.bindReceiver ch)

/-- Whether the write of a binding would be dropped for the messages that its store holds (13 R363). -/
def State.bindKept (s : State) (ch sender receiver : Nat) : Bool :=
  !(s.chan ch).store.isEmpty && (s.bindSender ch != sender || s.bindReceiver ch != receiver)

/-- CHAN_BIND (13 R362, R363, 14 R388). -/
def yafChanBind (m ch sender receiver bit lock : Nat) (s : State) : Ans :=
  if 4096 ≤ ch then Ans.un s .noSuchObject
  else if !(s.chanMine m ch && s.mayChan m ch sender receiver) then Ans.un s .notOwner
  else if ch < 640 ∨ 0xFFF ≤ sender ∨ 0xFFF ≤ receiver ∨ 31 < bit ∨ 1 < lock ∨ (0x100 ≤ receiver ∧ receiver < 0x160 ∧ 30 ≤ bit) then
    Ans.un s .badArg
  else if s.bindLocked ch then Ans.un s .locked
  else if s.bindKept ch sender receiver then Ans.un s .badState
  else
    let s1 := s.mbxBindWrite ch (2 ^ 62 + bit * 2 ^ 32 + receiver * 65536 + sender)
    Ans.ok (if lock = 1 then s1.setFlag (Off.mbxBind ch) 63 true else s1) []

/-- CHAN_BIND. -/
def execChanBind (h : CmdHdr) (ch sender receiver : BitVec 16) (dbBit lock : BitVec 8) (s : State) :
    Host.Outcome State Fault Refusal :=
  yafRun h 0x0601 [2, 2, 2, 1, 1] .any s
    (yafChanBind h.master ch.toNat sender.toNat receiver.toNat dbBit.toNat lock.toNat)

/-- A command on a channel that exists and that the requester may act on. -/
def State.onChanCmd (s : State) (m ch : Nat) (f : Ans) : Ans :=
  if 4096 ≤ ch then Ans.un s .noSuchObject
  else if !s.chanMine m ch then Ans.un s .notOwner
  else f

/-- CHAN_CLOSE: valid written to 0 (13 R363). -/
def yafChanClose (m ch : Nat) (s : State) : Ans :=
  s.onChanCmd m ch (
    if s.bindLocked ch then Ans.un s .locked
    else Ans.ok (s.mbxBindWrite ch (setBit (s.reg (Off.mbxBind ch)) 62 false)) [])

/-- CHAN_CLOSE. -/
def execChanClose (h : CmdHdr) (ch : BitVec 16) (s : State) : Host.Outcome State Fault Refusal :=
  yafRun h 0x0602 [2] .any s (yafChanClose h.master ch.toNat)

/-- CHAN_STATUS: the head is the sequence number of the first message, 0 where there is none (DEDUCED, log 89). -/
def yafChanStatus (m ch : Nat) (s : State) : Ans :=
  s.onChanCmd m ch (
    let st := (s.chan ch).store
    Ans.ok s (packFields [(8, s.reg (Off.mbxBind ch)), (1, st.length), (2, match st with | x :: _ => x.seq | [] => 0)]))

/-- CHAN_STATUS. -/
def execChanStatus (h : CmdHdr) (ch : BitVec 16) (s : State) : Host.Outcome State Fault Refusal :=
  yafRun h 0x0603 [2] .any s (yafChanStatus h.master ch.toNat)

end Sys2Proof.Machine
end

