-- ==== Sys2Proof/Machine/YafFault.lean ====
section
/-! DEFINITION. The commands of Yafolo on faults and sparing (14 R390, opcodes 0x07xx). -/

namespace Sys2Proof.Machine

/-- The word of ERR_REACT that holds the field of a source. -/
def State.reactWordOf (s : State) (n : Nat) : Nat := s.reg (if 16 ≤ n % 32 then Off.errReactHi (n / 32) else Off.errReactLo (n / 32))

/-- ERR_REACT_SET (16 R422). -/
def yafErrReactSet (n react : Nat) (s : State) : Ans :=
  if 768 ≤ n ∨ sourceReserved n ∨ n = 737 ∨ n = 739 ∨ 6 < react then Ans.un s .badArg
  else if s.locked Off.fprCtrl then Ans.un s .locked
  else Ans.ok (s.errReactSet (n / 32) (decide (16 ≤ n % 32)) (setBits (s.reactWordOf n) (4 * (n % 16)) 3 react)) []

/-- ERR_REACT_SET. -/
def execErrReactSet (h : CmdHdr) (source : BitVec 16) (react : BitVec 8) (s : State) : Host.Outcome State Fault Refusal :=
  yafRun h 0x0701 [2, 1] .pf0 s (yafErrReactSet source.toNat react.toNat)

/-- Whether a requester may see a source: PF0, and a function that has a logical processor of the source's cluster (log 84). -/
def State.maySource (s : State) (m n : Nat) : Bool :=
  m == 0 || (decide (n < 256) && (List.range 6).any fun k => s.mayLp m (6 * (n / 16) + k))

/-- ERR_STATUS (16 R418): ERR_SRC, and of ERR_FIRST the source (DEDUCED, log 90) and the time. -/
def yafErrStatus (m n : Nat) (s : State) : Ans :=
  if 768 ≤ n then Ans.un s .badArg
  else if !s.maySource m n then Ans.un s .notOwner
  else Ans.ok s (packFields [(4, s.reg (Off.errSrc n)), (2, s.fld (Off.errFirst (n / 32)) 16 10), (8, s.reg (Off.errFirstNs (n / 32)))])

/-- ERR_STATUS. -/
def execErrStatus (h : CmdHdr) (source : BitVec 16) (s : State) : Host.Outcome State Fault Refusal :=
  yafRun h 0x0702 [2] .fn s (yafErrStatus h.master source.toNat)

/-- ERR_CLEAR (16 R427). -/
def yafErrClear (n release : Nat) (s : State) : Ans :=
  if 768 ≤ n ∨ 1 < release then Ans.un s .badArg
  else
    let s1 := s.errSrcW1c n
    Ans.ok (if release = 1 then s1.errPinArm else s1) []

/-- ERR_CLEAR. -/
def execErrClear (h : CmdHdr) (source : BitVec 16) (release : BitVec 8) (s : State) : Host.Outcome State Fault Refusal :=
  yafRun h 0x0703 [2, 1] .pf0 s (yafErrClear source.toNat release.toNat)

/-- SPARE_STATUS: the fields of SPARE_STAT. -/
def yafSpareStatus (s : State) : Ans :=
  Ans.ok s (packFields (([(0, 6), (6, 5), (11, 6), (17, 7), (24, 4), (28, 4), (32, 11), (43, 8)] : List (Nat × Nat)).map fun f =>
    (4, s.fld Off.spareStat f.1 f.2)))

/-- SPARE_STATUS. -/
def execSpareStatus (h : CmdHdr) (s : State) : Host.Outcome State Fault Refusal := yafRun h 0x0704 [] .fn s yafSpareStatus

/-- REPAIR_NOW (02 R54, R55, R58): NO_SPARE where the path needs a spare that is not free. -/
def yafRepairNow (m mid : Nat) (v : RepairVerdict) (s : State) : Ans :=
  s.onSlot m mid fun n =>
    let c := n / 6
    let k := n % 6
    if s.isSplit c ∨ ((s.lp n).code ≠ 1 ∧ (s.lp n).code ≠ 2) then Ans.lpState s n
    else
      let path := repairPath (s.pair (pairNum c k)).attempts v
      if path ≠ .none ∧ !v.further ∧ s.spareState c path.spare ≠ 0 then Ans.un s .noSpare
      else
        let s1 := (s.pairHold c k).pairRepair c k v
        Ans.ok s1 (packFields [(4, s1.reg (Off.cmpMap c k))])

/-- REPAIR_NOW. -/
def execRepairNow (h : CmdHdr) (mid : BitVec 16) (v : RepairVerdict) (s : State) : Host.Outcome State Fault Refusal :=
  yafRun h 0x0705 [2] .pf0 s (yafRepairNow h.master mid.toNat v)

/-- The blocks that WEAR_CFG writes: the clusters named, the slices, the journal. -/
def wearBlocks (mask : Nat) : List Nat :=
  ((clusters.filter fun c => bitOf mask c).map Off.cmpCtrl) ++ ((List.range 32).map Off.scLock) ++ [Off.nvjCfg]

/-- WEAR_CFG (02 R58, 07 R197, 08 R240): the thresholds of the clusters named, of every slice, and of the journal. A threshold of
retirement is at least 1. -/
def yafWearCfg (mask proactive l2 sc warn : Nat) (s : State) : Ans :=
  if l2 = 0 ∨ sc = 0 then Ans.un s .badArg
  else if (wearBlocks mask).any fun o => s.locked o then Ans.un s .locked
  else
    let s1 := (clusters.filter fun c => bitOf mask c).foldl (fun (t : State) c =>
      (t.setFld (Off.cmpCtrl c) 8 8 proactive).setReg (Off.l2Errcfg c) l2) s
    let s2 := (List.range 32).foldl (fun (t : State) i => t.setReg (Off.scErrcfg i) sc) s1
    Ans.ok (s2.setFld Off.nvjCfg 0 16 warn) []

/-- WEAR_CFG. -/
def execWearCfg (h : CmdHdr) (clusters : BitVec 16) (proactive l2Thresh scThresh : BitVec 8) (nvjWarn : BitVec 16) (s : State) :
    Host.Outcome State Fault Refusal :=
  yafRun h 0x0706 [2, 1, 1, 1, 2] .pf0 s
    (yafWearCfg clusters.toNat proactive.toNat l2Thresh.toNat scThresh.toNat nvjWarn.toNat)

end Sys2Proof.Machine
end

