-- ==== Sys2Proof/Machine/YafPart.lean ====
section
/-! DEFINITION. The partition and program commands of Yafolo (14 R390, opcodes 0x01xx, R391). -/

namespace Sys2Proof.Machine

/-- The slots that the two words of PART_CREATE name. -/
def lpMask (lps0 : BitVec 64) (lps1 : BitVec 32) : List Nat :=
  (List.range 96).filter fun i => if i < 64 then bitOf lps0.toNat i else bitOf lps1.toNat (i - 64)

/-- Whether a host function exists: PF0 and the VFs enabled (15 R397, VF_ENABLE). -/
def State.fnExists (s : State) (f : Nat) : Bool := decide (f ≤ s.fld Off.hpStat 16 6)

/-- PART_CREATE. -/
def yafPartCreate (part owner base size : Nat) (lps : List Nat) (s : State) : Ans :=
  if 64 ≤ part then Ans.un s .badArg
  else if !s.fnExists owner || lps.any (fun n => !s.lpExists n) then Ans.un s .noSuchObject
  else if base % 4096 ≠ 0 ∨ size % 4096 ≠ 0 ∨ s.installed < base + size then Ans.un s .badArg
  else if (tblGet? s.parts part).isSome then Ans.un s .badState
  else match lps.find? fun n => (s.partOf n).isSome with
    | some n => Ans.lpState s n
    | none => Ans.ok { s with parts := tblSet s.parts part ⟨owner, base, size, lps⟩ } []

/-- PART_CREATE. -/
def execPartCreate (h : CmdHdr) (part : BitVec 8) (owner : BitVec 16) (base size lps0 : BitVec 64) (lps1 : BitVec 32) (s : State) :
    Host.Outcome State Fault Refusal :=
  yafRun h 0x0101 [1, 2, 8, 8, 8, 4] .pf0 s
    (yafPartCreate part.toNat owner.toNat base.toNat size.toNat (lpMask lps0 lps1))

/-- A logical processor without a program: a LOADED or HALTED one is restarted and its image forgotten (log 77). -/
def State.lpUnload (s : State) (n : Nat) : State :=
  if (s.lp n).code = 1 ∨ (s.lp n).code = 3 then
    let s1 := (s.lpRestart n).onLp n fun p => { p with run := .empty }
    { s1 with yaf := { s1.yaf with images := tblErase s1.yaf.images n } }
  else s

/-- PART_DESTROY. -/
def yafPartDestroy (m part : Nat) (s : State) : Ans :=
  if 64 ≤ part then Ans.un s .badArg
  else match tblGet? s.parts part with
    | none => Ans.un s .noSuchObject
    | some p =>
      if !s.mayPart m part then Ans.un s .notOwner
      else match p.lps.find? fun n => (s.lp n).code == 2 with
        | some n => Ans.lpState s n
        | none =>
          let s1 := p.lps.foldl State.lpUnload s
          Ans.ok { s1 with parts := tblErase s1.parts part } []

/-- PART_DESTROY. -/
def execPartDestroy (h : CmdHdr) (part : BitVec 8) (s : State) : Host.Outcome State Fault Refusal :=
  yafRun h 0x0102 [1] .fn s (yafPartDestroy h.master part.toNat)

/-- A segment of an image (14 R391): destination, source offset, length, and whether it is filled with zeros. -/
structure Segment where
  dst  : Nat
  src  : Nat
  len  : Nat
  zero : Bool
  deriving DecidableEq, Repr

/-- The segments of an image with `n` region entries. -/
def imageSegs (bs : List Byte) (n k : Nat) : List Segment :=
  (List.range k).map fun i =>
    let o := 0x40 + 16 * n + 32 * i
    ⟨fieldLE bs o 8, fieldLE bs (o + 8) 8, fieldLE bs (o + 16) 4, bitOf (fieldLE bs (o + 20) 4) 0⟩

/-- The start state that an image gives. -/
def imageOf (bs : List Byte) (n : Nat) : Image :=
  { pc := fieldLE bs 0x10 8, wp := fieldLE bs 0x18 8, b15 := fieldLE bs 0x20 8, tvb := fieldLE bs 0x28 8, tspM := fieldLE bs 0x30 8
    regions := (List.range n).map fun i => (fieldLE bs (0x40 + 16 * i) 8, fieldLE bs (0x48 + 16 * i) 8) }

/-- The bits of RTLO and RTHI that an image's region entry sets (03 R89). -/
def imageRt (r : List (Nat × Nat)) : Tbl (BitVec 64 × BitVec 64) :=
  (List.range r.length).zipWith (fun i e =>
    (i, (BitVec.ofNat 64 (Nat.land e.1 0xFFFFFFFFFF00F), BitVec.ofNat 64 (Nat.land e.2 0xFFFFFFFFFF1FF)))) r

/-- A logical processor in the start state of 03 R78: PC, WP, B15, TVB, TSP_M and the region table from the image, the workspace file
from memory (R73), what the caches and the interrupt controller hold as it was. -/
def LP.start (p : LP) (im : Image) (ws : List Byte) (r : Run) : LP :=
  { LP.reset with
    run := r, pc := BitVec.ofNat 64 im.pc, wp := BitVec.ofNat 64 im.wp, wfile := memWriteBytes [] 0 ws,
    b := tblSet [] 15 (BitVec.ofNat 64 im.b15), tvb := BitVec.ofNat 64 im.tvb, tspM := BitVec.ofNat 64 im.tspM,
    rt := imageRt im.regions, sb := p.sb, l1d := p.l1d, l1i := p.l1i, invq := p.invq, timer := p.timer, swi := p.swi,
    lens := p.lens, err := p.err }

/-- Whether a predicate holds of `n` numbers from `a` on, by steps of `k`. -/
def allFrom (p : Nat → Bool) (k a : Nat) : Nat → Bool
  | 0 => true
  | n + 1 => p a && allFrom p k (a + k) n

/-- Whether a register is of an object of a partition (14 R389): its logical processors, the queues and rings that they own, the
channels between them. -/
def State.partReg (s : State) (p : Part) (d : RegDesc) (ix : List Nat) : Bool :=
  let own := fun m => decide (0x100 ≤ m) && p.lps.contains (m - 0x100)
  let i := ix.headD 0
  if d.name.ofSlot then p.lps.contains (6 * i + (ix.drop 1).headD 0)
  else if 0x18100000 ≤ d.base ∧ d.base < 0x18200000 then own (s.tqOwner i)
  else if 0x24000000 ≤ d.base ∧ d.base < 0x24000100 then own (s.fld (Off.pjCfg i) 50 12)
  else if 0x25010000 ≤ d.base ∧ d.base < 0x25020000 then own (s.fld (Off.cjCfg i) 50 12)
  else if 0x28000000 ≤ d.base ∧ d.base < 0x28000100 then own (s.bindSender i) && own (s.bindReceiver i)
  else false

/-- Whether a 4 KiB page is a page of registers that all belong to objects of a partition (14 R391, detail 0x03). -/
def State.partPage (s : State) (p : Part) (page : Nat) : Bool :=
  decide (regBase ≤ page) &&
    (List.range 1024).any (fun i => (regAt (page - regBase + 4 * i)).isSome) &&
    (List.range 1024).all fun i =>
      match regAt (page - regBase + 4 * i) with
      | some (d, ix) => s.partReg p d ix
      | none => true

/-- Whether a region entry of an image may stand (14 R391, detail 0x03). -/
def State.regionOk (s : State) (p : Part) (e : BitVec 64 × BitVec 64) : Bool :=
  !bitOf e.1.toNat 0 ||
    (if p.base ≤ regionBase e ∧ regionLast e < p.base + p.size then true
     else allFrom (s.partPage p) 4096 (regionBase e) ((regionLast e + 4096 - regionBase e) / 4096) &&
       decide (regionBase e ≤ regionLast e))

/-- Whether a segment may stand (14 R391, detail 0x04). -/
def segOk (p : Part) (l : LP) (g : Segment) : Bool :=
  g.len == 0 || (holds (p.base, p.size) g.dst g.len &&
    (match l.check g.dst g.len .write 0 with | .ok _ => true | .error _ => false))

/-- Whether the start state of an image may stand (14 R391, detail 0x05): PC executable, WP by 03 R73, TVB and TSP_M aligned. -/
def startOk (im : Image) (l : LP) : Bool :=
  (match l.check im.pc 1 .exec 0 with | .ok _ => true | .error _ => false) &&
    im.wp % 256 == 0 && (match l.check im.wp 256 .atomic 0 with | .ok t => t == .wb | .error _ => false) &&
    im.tvb % 4096 == 0 && im.tspM % 64 == 0

/-- What is wrong with an image, in the order of the details (14 R391). -/
def State.imageFault (s : State) (p : Part) (bs : List Byte) (crc : Nat) : Option Nat :=
  let n := fieldLE bs 6 1
  let k := fieldLE bs 7 1
  let im := imageOf bs n
  let l : LP := { LP.reset with rt := imageRt im.regions }
  if bs.length < 0x40 ∨ fieldLE bs 0 4 ≠ 0x31544C43 ∨ fieldLE bs 4 2 ≠ 1 ∨ n = 0 ∨ 64 < n ∨ k = 0 ∨ 32 < k ∨
      fieldLE bs 8 4 ≠ bs.length ∨ bs.length < 0x40 + 16 * n + 32 * k then some 1
  else if crc32c bs ≠ crc then some 2
  else if ((List.range n).map l.region).any fun e => !s.regionOk p e then some 3
  else if (imageSegs bs n k).any fun g => !segOk p l g then some 4
  else if !startOk im l then some 5
  else none

/-- The segments of an image copied in order; none where a source lies outside the requester's window or meets a bus error. -/
def State.copySegs (s : State) (m image : Nat) : List Segment → Option State
  | [] => some s
  | g :: t =>
    if g.zero then (s.agentWrite g.dst (List.replicate g.len 0)).copySegs m image t
    else match s.bufRead m (image + g.src) g.len with
      | some bs => (s.agentWrite g.dst bs).copySegs m image t
      | none => none

/-- Whether every segment's source can be read before any is copied. -/
def State.segsRead (s : State) (m image : Nat) (gs : List Segment) : Bool :=
  gs.all fun g => g.zero || (s.bufRead m (image + g.src) g.len).isSome

/-- The workspace of an image's start state as memory holds it. -/
def State.imageWs (s : State) (im : Image) : List Byte := s.agentRead im.wp 256

/-- PROG_LOAD (14 R390, R391). -/
def yafProgLoad (m mid image length crc : Nat) (s : State) : Ans :=
  s.onSlot m mid fun n =>
    if (s.lp n).code ≠ 0 ∧ (s.lp n).code ≠ 1 then Ans.lpState s n
    else match s.bufRead m image length with
      | none => Ans.un s .bufferFault
      | some bs =>
        let p := match s.partOf n with | some (_, p) => p | none => ⟨0, 0, 0, []⟩
        match s.imageFault p bs crc with
        | some d => Ans.no s .imageInvalid d
        | none =>
          let r := fieldLE bs 6 1
          let k := fieldLE bs 7 1
          let im := imageOf bs r
          let gs := imageSegs bs r k
          if !s.segsRead m image gs then Ans.un s .bufferFault
          else
            let s1 := (s.copySegs m image gs).getD s
            let s2 := s1.onLp n fun q => q.start im (s1.imageWs im) .loaded
            Ans.ok { s2 with yaf := { s2.yaf with images := tblSet s2.yaf.images n im } } (packFields [(8, im.pc), (1, r), (1, k)])

/-- PROG_LOAD. -/
def execProgLoad (h : CmdHdr) (mid : BitVec 16) (image : BitVec 64) (length crc : BitVec 32) (s : State) :
    Host.Outcome State Fault Refusal :=
  yafRun h 0x0103 [2, 8, 4, 4] .fn s (yafProgLoad h.master mid.toNat image.toNat length.toNat crc.toNat)

/-- LP_START (14 R390, 03 R78). -/
def yafLpStart (m mid : Nat) (s : State) : Ans :=
  s.onSlot m mid fun n =>
    if (s.lp n).code ≠ 1 ∨ bitOf s.chip.offline (n / 6) then Ans.lpState s n
    else match tblGet? s.yaf.images n with
      | some im => Ans.ok (s.onLp n fun q => q.start im (s.imageWs im) .running) []
      | none => Ans.ok (s.onLp n fun q => { q with run := .running }) []

/-- LP_START. -/
def execLpStart (h : CmdHdr) (mid : BitVec 16) (s : State) : Host.Outcome State Fault Refusal :=
  yafRun h 0x0104 [2] .fn s (yafLpStart h.master mid.toNat)

/-- LP_STOP: a restart that keeps the image and leaves the state LOADED. -/
def yafLpStop (m mid : Nat) (s : State) : Ans :=
  s.onSlot m mid fun n =>
    if (s.lp n).code = 0 ∨ (s.lp n).code = 5 then Ans.lpState s n
    else Ans.ok ((s.lpRestart n).onLp n fun p => { p with run := .loaded }) []

/-- LP_STOP. -/
def execLpStop (h : CmdHdr) (mid : BitVec 16) (s : State) : Host.Outcome State Fault Refusal :=
  yafRun h 0x0105 [2] .any s (yafLpStop h.master mid.toNat)

/-- LP_STATUS: the cause is the vector of a halt, else CMP_STAT.last_cause. A slot of a split cluster has no pair, so what its pair's
registers would give is free (log 79). -/
def yafLpStatus (m mid : Nat) (s : State) : Ans :=
  s.onSlot m mid fun n =>
    let c := n / 6
    let k := n % 6
    let p := s.lp n
    let halt := fun x => if p.code = 3 then p.haltVec else x
    if s.isSplit c then
      let (v, s1) := s.fresh
      let (w, s2) := s1.fresh
      Ans.ok s2 (packFields [(1, p.code), (1, halt (v % 256)), (4, v / 2 ^ 32), (4, w), (4, w / 2 ^ 32)])
    else
      Ans.ok s (packFields [(1, p.code), (1, halt (s.fld (Off.cmpStat c k) 20 4)), (4, s.reg (Off.cmpRetrycnt c k)),
        (4, s.reg (Off.cmpSkewcnt c k)), (4, s.reg (Off.cmpMap c k))])

/-- LP_STATUS. -/
def execLpStatus (h : CmdHdr) (mid : BitVec 16) (s : State) : Host.Outcome State Fault Refusal :=
  yafRun h 0x0106 [2] .any s (yafLpStatus h.master mid.toNat)

/-- The range engine of LOCK_RANGE and UNLOCK_RANGE: the cluster's, or an idle one of the hub; none where it is busy. -/
def State.freeEngine (s : State) (scope cluster : Nat) : Option RangeEngine :=
  if scope = 0 then (if s.flag (Off.rmStat cluster) 4 then none else some (.cluster cluster))
  else ((List.range 4).find? fun i => !s.flag (Off.hrmStat i) 4).map .hub

/-- Whether a range of lines is the requester's. -/
def State.mayRange (s : State) (m addr lines : Nat) : Bool :=
  m == 0 || (s.windows m).any fun w => holds w (lineOf addr) (64 * lines)

/-- A range operation that Yafolo runs to its end (07 R187): the engine's registers written, the operation started and finished. -/
def State.yafRange (s : State) (e : RangeEngine) (op way addr lines : Nat) : State :=
  (((s.setReg (rmAddr e) (lineOf addr)).setReg (rmCount e) lines).rmStart e op ⟨BitVec.ofNat 4 way, false, 0, 0⟩).rmFinish e

/-- The answer to a range command: HW_FAULT with the engine's code where that is neither DONE nor DONE_SKIPPED. -/
def rangeAns (s : State) (e : RangeEngine) (moved : Bool) (skips : Bool) : Ans :=
  let code := s.fld (rmStat e) 0 4
  let n := s.fld (rmStat e) 32 32
  let res := packFields ((4, n) :: (if skips then [(4, s.fld (rmStat e) 16 16)] else []))
  if code = 2 ∨ code = 3 then Ans.ok s res
  else ⟨s, .hwFault, some code, moved || n != 0, res, false⟩

/-- The enables that LOCK_RANGE sets (14 R390, 07 R182): none where more than 12 ways would be enabled. -/
def State.enableWay (s : State) (scope cluster way : Nat) : Option State :=
  let units : List (Nat × CacheUnit) :=
    if scope = 0 then [(Off.l2Locken cluster, .l2 cluster)] else (List.range 32).map fun i => (Off.scLocken i, .slice i)
  if units.any (fun u => !s.flag u.1 way && decide (12 < popCount (setBit (s.reg u.1) way true) 16)) then none
  else some (units.foldl (fun (t : State) u => if t.flag u.1 way then t else t.lockenWrite u.2 (setBit (t.reg u.1) way true)) s)

/-- The checks that LOCK_RANGE and UNLOCK_RANGE share. -/
def State.rangeCheck (s : State) (m scope cluster addr lines : Nat) (f : RangeEngine → Ans) : Ans :=
  if 1 < scope then Ans.un s .badArg
  else if scope = 0 ∧ 16 ≤ cluster then Ans.un s .noSuchObject
  else if !s.mayRange m addr lines then Ans.un s .notOwner
  else if 2 ^ 52 ≤ addr then Ans.un s .badArg
  else if scope = 0 ∧ s.underTest cluster then Ans.un s .busy
  else match s.freeEngine scope cluster with
    | none => Ans.un s .busy
    | some e => f e

/-- LOCK_RANGE. -/
def yafLockRange (m scope cluster way addr lines : Nat) (s : State) : Ans :=
  if 16 ≤ way then Ans.un s .badArg
  else s.rangeCheck m scope cluster addr lines fun e =>
    match s.enableWay scope cluster way with
    | none => Ans.un s .noResource
    | some s1 => rangeAns (s1.yafRange e 4 way addr lines) e (s1.regs != s.regs) true

/-- LOCK_RANGE. -/
def execLockRange (h : CmdHdr) (scope cluster way : BitVec 8) (addr : BitVec 64) (lines : BitVec 32) (s : State) :
    Host.Outcome State Fault Refusal :=
  yafRun h 0x0107 [1, 1, 1, 8, 4] .fn s (yafLockRange h.master scope.toNat cluster.toNat way.toNat addr.toNat lines.toNat)

/-- UNLOCK_RANGE. -/
def yafUnlockRange (m scope cluster addr lines : Nat) (s : State) : Ans :=
  s.rangeCheck m scope cluster addr lines fun e => rangeAns (s.yafRange e 5 0 addr lines) e false false

/-- UNLOCK_RANGE. -/
def execUnlockRange (h : CmdHdr) (scope cluster : BitVec 8) (addr : BitVec 64) (lines : BitVec 32) (s : State) :
    Host.Outcome State Fault Refusal :=
  yafRun h 0x0108 [1, 1, 8, 4] .fn s (yafUnlockRange h.master scope.toNat cluster.toNat addr.toNat lines.toNat)

/-- SET_DURABLE (07 R200). -/
def yafSetDurable (index size base : Nat) (s : State) : Ans :=
  let others := ((List.range 8).filter (· != index)).foldl (fun k m => k + s.durUnits m) 0
  if 8 ≤ index ∨ (size ≠ 0 ∧ (base % 65536 ≠ 0 ∨ 2 ^ 52 < base + 65536 * size)) then Ans.un s .badArg
  else if s.locked (Off.dur 0) then Ans.un s .locked
  else if 1024 < others + size then Ans.un s .noResource
  else Ans.ok (s.durWrite index (base / 65536 % 2 ^ 36 * 65536 + size * 16 + bit01 (size != 0))) []

/-- SET_DURABLE. -/
def execSetDurable (h : CmdHdr) (index : BitVec 8) (size : BitVec 16) (base : BitVec 64) (s : State) :
    Host.Outcome State Fault Refusal :=
  yafRun h 0x0109 [1, 2, 8] .pf0 s (yafSetDurable index.toNat size.toNat base.toNat)

end Sys2Proof.Machine
end

