-- ==== Sys2Proof/Machine/YafPort.lean ====
section
/-! DEFINITION. The port, module and link commands of Yafolo (14 R390, opcodes 0x03xx). -/

namespace Sys2Proof.Machine

/-- The state that an outcome goes on with. -/
def nextOr (s : State) (o : Host.Outcome State Fault Refusal) : State := match o with | .next t => t | _ => s

/-- A trip test runs on a port (14 R383). -/
def State.portTest (s : State) (p : Nat) : Bool := match s.yaf.trip with | some t => t.port == p | none => false

/-- A command on a port that exists: no VF is given a port, so ports are PF0's (log 84); BUSY while a trip test runs there. -/
def State.onPortCmd (s : State) (m p : Nat) (f : Ans) : Ans :=
  if 128 ≤ p then Ans.un s .noSuchObject
  else if m ≠ 0 then Ans.un s .notOwner
  else if s.portTest p then Ans.un s .busy
  else f

/-- What PORT_UP sets at a port. -/
structure PortSet where
  mode     : Nat
  fec      : Nat
  an       : Nat
  txLat    : Nat
  rxLat    : Nat
  rxlog    : Nat
  rxbig    : Nat
  rxbit    : Nat
  rxtarget : Nat
  rxring   : Nat
  deriving DecidableEq, Repr

/-- The FEC of a port: what the command names, or the default of 09 R243, clause 108 for 25GBASE-R. -/
def PortSet.fecCode (x : PortSet) : Nat := if x.fec = 0xFF then (if x.mode = 3 then 2 else 0) else x.fec

/-- A port brought up: its latencies, ring and notification, then PORT_CFG. The ring's doorbell is on where the ring is (DEDUCED,
log 81). -/
def State.portSetUp (s : State) (x : PortSet) (p : Nat) : State :=
  let s1 := ((s.setReg (Off.portTslat p) (x.txLat * 65536 + x.rxLat)).setReg (Off.portRxring p)
    (x.rxring / 4096 % 2 ^ 40 * 4096 + x.rxbig * 32 + x.rxlog)).setReg (Off.portRxntf p)
    (bit01 (x.rxlog != 0) * 2 ^ 31 + x.rxbit * 2 ^ 24 + x.rxtarget)
  s1.portCfgPut p (2 ^ 63 + x.mode * 256 + x.fecCode * 16 + x.an * 8)

/-- PORT_UP: with a pair flag on an even port, PRP_CFG and both ports of the pair. -/
def yafPortUp (m p flags forget : Nat) (x : PortSet) (s : State) : Ans :=
  let pair := p % 2 == 0 && bits flags 1 2 != 0
  let ports := if pair then [p, p + 1] else [p]
  s.onPortCmd m p (
    if 4 < x.mode ∨ (2 < x.fec ∧ x.fec ≠ 0xFF) ∨ 7 < flags ∨ bits flags 1 2 = 3 ∨ (x.rxlog ≠ 0 ∧ (x.rxlog < 4 ∨ 12 < x.rxlog)) ∨
        1 < x.rxbig ∨ 31 < x.rxbit ∨ 4095 < x.rxtarget ∨ x.rxring % 4096 ≠ 0 then Ans.un s .badArg
    else if ports.any fun i => s.portTest i then Ans.un s .busy
    else if ports.any fun i => s.flag (Off.portCfg i) 63 || (s.linkOfPort i).isSome then Ans.un s .badState
    else
      let s1 := if pair then s.prpCfgWrite (p / 2) (bits flags 1 2 * 65536 + forget) else s
      Ans.ok (ports.foldl (fun (t : State) i => t.portSetUp x i) s1) [])

/-- PORT_UP. -/
def execPortUp (h : CmdHdr) (port mode fec flags : BitVec 8) (forget txLat rxLat : BitVec 16) (rxlog rxbig rxbit : BitVec 8)
    (rxtarget : BitVec 16) (rxring : BitVec 64) (s : State) : Host.Outcome State Fault Refusal :=
  yafRun h 0x0301 [1, 1, 1, 1, 2, 2, 2, 1, 1, 1, 2, 8] .pf0 s
    (yafPortUp h.master port.toNat flags.toNat forget.toNat
      ⟨mode.toNat, fec.toNat, flags.toNat % 2, txLat.toNat, rxLat.toNat, rxlog.toNat, rxbig.toNat, rxbit.toNat, rxtarget.toNat,
        rxring.toNat⟩)

/-- PORT_DOWN (09 R280). -/
def yafPortDown (m p : Nat) (s : State) : Ans :=
  s.onPortCmd m p (Ans.ok (s.portCfgPut p (setBit (s.reg (Off.portCfg p)) 63 false)) [])

/-- PORT_DOWN. -/
def execPortDown (h : CmdHdr) (port : BitVec 8) (s : State) : Host.Outcome State Fault Refusal :=
  yafRun h 0x0302 [1] .pf0 s (yafPortDown h.master port.toNat)

/-- PORT_STATUS. -/
def yafPortStatus (m p : Nat) (s : State) : Ans :=
  s.onPortCmd m p (Ans.ok s (packFields [(4, s.reg (Off.portStat p)), (8, s.reg (Off.portErr p))]))

/-- PORT_STATUS. -/
def execPortStatus (h : CmdHdr) (port : BitVec 8) (s : State) : Host.Outcome State Fault Refusal :=
  yafRun h 0x0303 [1] .fn s (yafPortStatus h.master port.toNat)

/-- The first word of an entry of a port group's table, its words, and how many entries there are: 1 rules, 2 streams, 3
subscriptions (09 R254, R260, R266). -/
def tableAt (kind g i : Nat) : Nat × Nat × Nat :=
  match kind with
  | 1 => (Off.clsRule g (4 * i), 4, 256)
  | 2 => (Off.svStream g (8 * i), 8, 256)
  | _ => (Off.gseSub g (8 * i), 8, 512)

/-- TABLE_WRITE: the words of the entry, those that the port itself writes in a stream kept. -/
def yafTableWrite (m kind g i entry : Nat) (s : State) : Ans :=
  let (off, n, count) := tableAt kind g i
  if kind = 0 ∨ 3 < kind then Ans.un s .badArg
  else if 8 ≤ g ∨ count ≤ i then Ans.un s .noSuchObject
  else match s.bufRead m entry (8 * n) with
    | none => Ans.un s .bufferFault
    | some bs =>
      Ans.ok ((List.range n).foldl (fun (t : State) j =>
        if kind == 2 && streamRo j then t else t.setReg (off + 8 * j) (fieldLE bs (8 * j) 8)) s) []

/-- TABLE_WRITE. -/
def execTableWrite (h : CmdHdr) (kind group : BitVec 8) (index : BitVec 16) (entry : BitVec 64) (s : State) :
    Host.Outcome State Fault Refusal :=
  yafRun h 0x0304 [1, 1, 2, 8] .pf0 s (yafTableWrite h.master kind.toNat group.toNat index.toNat entry.toNat)

/-- Whether a queue names a publication: it is enabled and its default target is a port, or a transaction of it to a port is open. -/
def State.namesPub (s : State) : Bool :=
  s.tqs.any fun e => (s.tqOn e.1 && s.fld (Off.tqTarget e.1) 62 2 == 1) || e.2.opens.any fun t => t.target / 2 ^ 62 == 1

/-- PUB_TABLE (09 R269). -/
def yafPubTable (base : Nat) (s : State) : Ans :=
  if base % 2 ^ 20 ≠ 0 ∨ 2 ^ 52 ≤ base then Ans.un s .badArg
  else if s.namesPub then Ans.un s .badState
  else Ans.ok (s.setReg Off.pubBase (base + bit01 (base != 0))) []

/-- PUB_TABLE. -/
def execPubTable (h : CmdHdr) (base : BitVec 64) (s : State) : Host.Outcome State Fault Refusal :=
  yafRun h 0x0305 [8] .pf0 s (yafPubTable base.toNat)

/-- SA_LOAD (09 R245, R246): MSEC_CFG, then the association; a transmit association loaded is the one in use (DEDUCED, log 83). The key
bytes in memory become zeros. -/
def yafSaLoad (m p dir sc an : Nat) (cfg window : Nat) (key : Nat) (f : List Byte → Sa) (s : State) : Ans :=
  s.onPortCmd m p (
    if 1 < dir ∨ 3 < an ∨ (if dir = 0 then 0 < sc else 7 < sc) then Ans.un s .badArg
    else match s.bufRead m key 44 with
      | none => Ans.un s .bufferFault
      | some bs =>
        let s1 := (s.msecCfgWrite p (cfg * 2 ^ 32 + window)).onPort p fun x => { x with
          sas := tblSet x.sas (if dir = 0 then saTxKey an else saKey sc an) (f bs),
          txAn := if dir = 0 then some an else x.txAn }
        Ans.ok (s1.agentWrite key (List.replicate 44 0)) [])

/-- SA_LOAD. -/
def execSaLoad (h : CmdHdr) (port dir sc an : BitVec 8) (ssci : BitVec 32) (sci key pn : BitVec 64) (cfg window : BitVec 32)
    (s : State) : Host.Outcome State Fault Refusal :=
  yafRun h 0x0306 [1, 1, 1, 1, 4, 8, 8, 8, 4, 4] .pf0 s
    (yafSaLoad h.master port.toNat dir.toNat sc.toNat an.toNat cfg.toNat window.toNat key.toNat
      fun bs => ⟨sci, ssci.toNat, bs, pn.toNat, window.toNat, false⟩)

/-- MODULE_INFO (09 R276): the record's encoding is not given, so its length, at most 256, and its bytes are free values (log 85). -/
def yafModuleInfo (m p buf : Nat) (s : State) : Ans :=
  s.onPortCmd m p (
    if !s.flag (Off.portStat p) 6 then Ans.un s .badState
    else
      let (v, s1) := s.fresh
      let (bs, s2) := s1.freshBytes (v % 257)
      if !s.inReq m buf bs.length then Ans.un s .bufferFault
      else Ans.ok (s2.agentWrite buf bs) (packFields [(4, bs.length)]))

/-- MODULE_INFO. -/
def execModuleInfo (h : CmdHdr) (port : BitVec 8) (buf : BitVec 64) (s : State) : Host.Outcome State Fault Refusal :=
  yafRun h 0x0307 [1, 8] .fn s (yafModuleInfo h.master port.toNat buf.toNat)

/-- MODULE_CFG (09 R277, R279). -/
def yafModuleCfg (wearPct steer lifeKh part fecThresh : Nat) (s : State) : Ans :=
  if wearPct < 50 ∨ 100 < wearPct then Ans.un s .badArg
  else Ans.ok { s with yaf := { s.yaf with
    mod := ⟨wearPct, tblSet s.yaf.mod.lifeKh part lifeKh, steer, fecThresh⟩ } } []

/-- MODULE_CFG. -/
def execModuleCfg (h : CmdHdr) (wearPct steer : BitVec 8) (lifeKh : BitVec 16) (part fecThresh : BitVec 32) (s : State) :
    Host.Outcome State Fault Refusal :=
  yafRun h 0x0308 [1, 1, 2, 4, 4] .pf0 s
    (yafModuleCfg wearPct.toNat steer.toNat lifeKh.toNat part.toNat fecThresh.toNat)

/-- The ports and registers of a link set up (10 R284, R285). -/
def State.linkSetUp (s : State) (l width rate asym : Nat) : State :=
  let s1 := (List.range (widthLanes width)).foldl (fun (t : State) j => t.portCfgPut (l + j) (2 ^ 63 + 4 * 256)) s
  s1.lnkCfgWrite l (2 ^ 63 + width * 2 ^ 48 + rate * 2 ^ 40 + asym * 65536)

/-- The far end answers: every lane gains block lock and the confirmed INIT arrives (10 R296). -/
def State.linkAnswer (s : State) (l width rate : Nat) : State :=
  if s.linkUp l then s
  else
    let s1 := (List.range (widthLanes width)).foldl (fun (t : State) j => nextOr t (execBlockLockAcquired (l + j) t)) s
    nextOr s1 (execInitReceived l (widthLanes width) rate true s1)

/-- LINK_UP: the width and rate are coded as in LNK_CFG (DEDUCED, log 82). `comesUp` says whether the far end answers within 10 ms; with
LINK_DOWN nothing is changed (14 R382). -/
def yafLinkUp (m l width rate asym : Nat) (comesUp : Bool) (s : State) : Ans :=
  s.onPortCmd m l (
    if 2 < width ∨ 1 < rate ∨ l % widthLanes width ≠ 0 then Ans.un s .badArg
    else if (List.range (widthLanes width)).any fun j => s.portTest (l + j) then Ans.un s .busy
    else
      let s1 := s.linkSetUp l width rate asym
      let s2 := if comesUp then s1.linkAnswer l width rate else s1
      if s2.linkUp l then Ans.ok s2 (packFields [(1, s2.linkState l)]) else Ans.un s .linkDown)

/-- LINK_UP. -/
def execLinkUp (h : CmdHdr) (port width rate : BitVec 8) (asym : BitVec 16) (comesUp : Bool) (s : State) :
    Host.Outcome State Fault Refusal :=
  yafRun h 0x0309 [1, 1, 1, 2] .pf0 s (yafLinkUp h.master port.toNat width.toNat rate.toNat asym.toNat comesUp)

end Sys2Proof.Machine
end

