-- ==== Sys2Proof/Machine/YafTest.lean ====
section
/-! DEFINITION. The test commands of Yafolo (14 R390, opcodes 0x08xx, 19 R472-R479, 02 R61, R62), and what they inject. -/

namespace Sys2Proof.Machine

/-- The lines that an L2 holds, in its slots and its eviction buffer. -/
def State.l2Lines (s : State) (c : Nat) : List Nat :=
  ((s.l2c c).slots.filterMap fun e => if e.2.valid then e.2.line else none) ++ (s.l2c c).ebuf

/-- A command on a cluster that exists, that no self-test holds. -/
def State.onCluster (s : State) (c : Nat) (f : Ans) : Ans :=
  if 16 ≤ c then Ans.un s .noSuchObject
  else if s.underTest c then Ans.un s .busy
  else f

/-- The slot of a cluster whose logical processor is RUNNING, if there is one. -/
def State.runningIn (s : State) (c : Nat) : Option Nat := (clusterSlots c).find? fun n => s.lpExists n && (s.lp n).code == 2

/-- CLUSTER_OFFLINE (19 R475). -/
def yafClusterOffline (c : Nat) (s : State) : Ans :=
  s.onCluster c (
    match s.runningIn c with
    | some n => Ans.lpState s n
    | none =>
      let s1 := s.fillAll c
      let s2 := (s1.l2Lines c).eraseDups.foldl (fun (t : State) l => t.lineCleanInval c l) s1
      let s3 := (s2.lockenWrite (.l2 c) 0).clusterReset c
      Ans.ok { s3 with chip := { s3.chip with offline := setBit s3.chip.offline c true } } [])

/-- CLUSTER_OFFLINE. -/
def execClusterOffline (h : CmdHdr) (cluster : BitVec 8) (s : State) : Host.Outcome State Fault Refusal :=
  yafRun h 0x0801 [1] .pf0 s (yafClusterOffline cluster.toNat)

/-- A check of CLUSTER_ONLINE that failed and could not be spared: what the check showed stands, nothing else. -/
def Ans.bistFail (s : State) : Ans := ⟨s, .bistFail, none, false, [], false⟩

/-- The cluster formed from the sparing map, with its L2 empty and unlocked, and online (19 R477). -/
def State.goOnline (s : State) (c : Nat) : State :=
  let s1 := (s.clusterForm c).onL2 c fun x => { Cache.empty with exhausted := x.exhausted }
  let s2 := (s1.setReg (Off.l2Locken c) 0).setReg (Off.l2Waymap c) (s1.waymapOf 3 c)
  { s2 with chip := { s2.chip with offline := setBit s2.chip.offline c false } }

/-- CLUSTER_ONLINE (19 R477, R478): the comparator test with its failing slices, then quick CLUSTER_LOGIC with its verdict. A cluster
that is online stays as it is (DEDUCED, log 95). -/
def yafClusterOnline (c : Nat) (cmpFail : BitVec 4) (lane : Nat) (bistFail : BitVec 31) (s : State) : Ans :=
  s.onCluster c (
    if !s.offline c then Ans.ok s []
    else
      let fails := (setAt cmpFail.toNat 0 4).map fun j => (j, lane)
      let s1 := s.cmpTestShow c fails
      let v := s1.bistCounts 1 c (BitVec.ofNat 31 (cmpFail.toNat * 256))
      if v ≠ 0 ∧ !s1.clusterSpares c v then Ans.bistFail s1
      else
        let s2 := if v = 0 then s1 else s1.clusterCondemn c v
        match s2.bistEnd (1, c, 0) bistFail with
        | (s3, .failed) => Ans.bistFail s3
        | (s3, _) => Ans.ok (s3.goOnline c) [])

/-- CLUSTER_ONLINE. -/
def execClusterOnline (h : CmdHdr) (cluster : BitVec 8) (cmpFail : BitVec 4) (lane : Nat) (bistFail : BitVec 31) (s : State) :
    Host.Outcome State Fault Refusal :=
  yafRun h 0x0802 [1] .pf0 s (yafClusterOnline cluster.toNat cmpFail lane bistFail)

/-- BIST_RUN (19 R472, R473, R478). -/
def yafBistRun (scope unit kind : Nat) (fail : BitVec 31) (s : State) : Ans :=
  if scope = 0 ∨ 5 < scope ∨ 1 < kind then Ans.un s .badArg
  else if !bistExists scope unit then Ans.un s .noSuchObject
  else if s.chip.bist.isSome then Ans.un s .busy
  else if !s.bistReady scope unit then
    (if scope ≤ 2 then Ans.un s .notOffline else Ans.no s .badState (s.fld (bistEngine scope unit) 0 2))
  else
    let (s1, e) := (s.bistCtrlWrite (2 ^ 31 + unit * 65536 + scope * 256 + kind)).bistEnd (scope, unit, kind) fail
    let res := packFields [(8, s1.reg Off.bistSig), (1, s1.fld Off.bistStat 29 1)]
    if e = .failed then ⟨s1, .bistFail, none, false, res, false⟩ else Ans.ok s1 res

/-- BIST_RUN. -/
def execBistRun (h : CmdHdr) (scope unit kind : BitVec 8) (fail : BitVec 31) (s : State) : Host.Outcome State Fault Refusal :=
  yafRun h 0x0803 [1, 1, 1] .pf0 s (yafBistRun scope.toNat unit.toNat kind.toNat fail)

/-- CMP_TEST (02 R61, R62). -/
def yafCmpTest (c : Nat) (fail : BitVec 4) (lanes : List Nat) (s : State) : Ans :=
  s.onCluster c (
    if !s.offline c then Ans.un s .notOffline
    else
      let s1 := s.cmpTestRun c ((setAt fail.toNat 0 4).map fun j => (j, lanes.getD j 0))
      Ans.ok s1 (packFields [(1, s1.fld (Off.cmpTest c) 4 4)]))

/-- CMP_TEST. -/
def execCmpTest (h : CmdHdr) (cluster : BitVec 8) (fail : BitVec 4) (lanes : List Nat) (s : State) :
    Host.Outcome State Fault Refusal :=
  yafRun h 0x0804 [1] .pf0 s (yafCmpTest cluster.toNat fail lanes)

/-- Whether a publication exists: its entry is valid (09 R269). -/
def State.pubExists (s : State) (i : Nat) : Bool :=
  decide (i < 4096) && (match s.pubEntry i with | some e => bitOf (fieldLE e 0 1) 0 | none => false)

/-- TRIP_TEST started: its end comes with an event frame of the publication, or with its timeout. -/
def yafTripTest (h : CmdHdr) (port wire pub count frames timeout : Nat) (s : State) : Ans :=
  if 128 ≤ port then Ans.un s .noSuchObject
  else if !s.pubExists pub then Ans.un s .noSuchObject
  else if 1 < wire then Ans.un s .badArg
  else if s.yaf.trip.isSome then Ans.un s .busy
  else if !s.flag (Off.portStat port) 0 ∨ (s.linkOfPort port).isSome ∨ s.portMode port = 4 then Ans.un s .badState
  else if !s.inReq h.master frames (2048 * count) then Ans.un s .bufferFault
  else
    let now := match tblGet? s.pubs pub with | some b => b.stNum | none => 0
    Ans.wait { s with yaf := { s.yaf with
      trip := some ⟨h.master, h.cp, h.tag.toNat, port, wire != 0, pub, frames, count, [], s.time.cycles + timeout * 1000⟩
      muted := if wire = 0 then tblSet s.yaf.muted pub now else s.yaf.muted } }

/-- TRIP_TEST. The frames lie where the command says; their period is asserted by the injections. -/
def execTripTest (h : CmdHdr) (port wire : BitVec 8) (pub count : BitVec 16) (_period : BitVec 32) (frames : BitVec 64)
    (timeout : BitVec 32) (s : State) : Host.Outcome State Fault Refusal :=
  yafRun h 0x0805 [1, 1, 2, 2, 4, 8, 4] .pf0 s
    (yafTripTest h port.toNat wire.toNat pub.toNat count.toNat frames.toNat timeout.toNat)

/-- Whether a frame is the one in a slot of a trip test: its length, and its bytes where it has neither tag nor trailer. -/
def State.slotFrame (s : State) (t : Trip) (f : Frame) : Bool :=
  let a := t.frames + 2048 * t.stamps.length
  let n := leNat (s.agentRead a 2)
  f.len == n + 4 && (f.tci.isSome || f.red.isSome || f.bytes == s.agentRead (a + 2) n)

/-- The next frame of a trip test injected at the output of the port's MACsec stage (14 R390): it passes duplicate discard, the
classifier and the decoders as a received frame does. -/
def State.tripInject (s : State) (t : Trip) (f : Frame) : State :=
  let p := t.port
  let last := stampTb (s.tbIn (0x10 + portGroup p) - s.fld (Off.portTslat p) 0 16 * 2 ^ 46)
  let s1 : State := { s with yaf := { s.yaf with
    trip := some { t with left := t.left - 1, stamps := (last.ns, last.frac) :: t.stamps } } }
  match s1.redundancyRx p f with
  | (s2, false) => s2
  | (s2, true) => s2.frameIn p f (s2.flag (Off.msecCfg p) 63) (s.rxStamp p f.len)

/-- TRIP_TEST_FRAME_INJECT: nothing where no test has a frame left, or where the frame is not the one that lies there. -/
def execTripTestFrameInject (f : Frame) (s : State) : Host.Outcome State Fault Refusal :=
  .next (match s.yaf.trip with
    | some t => if t.left ≠ 0 ∧ f.sec.isNone ∧ s.usable t.port ∧ s.slotFrame t f then s.tripInject t f else s
    | none => s)

/-- The timeout of a trip test (14 R390). -/
def State.tripTimeout (s : State) : State :=
  match s.yaf.trip with
  | some t =>
    if t.until_ ≤ s.time.cycles then
      ({ s with yaf := { s.yaf with trip := none } } : State).complete t.master t.cp t.tag 0x0805 .timeout none (!t.stamps.isEmpty) []
    else s
  | none => s

end Sys2Proof.Machine
end

