-- ==== Sys2Proof/Machine/YafSys.lean ====
section
/-! DEFINITION. The commands of Yafolo on virtual functions, power and firmware (14 R390, opcodes 0x09xx, 0x0Axx and 0x0Fxx, 15
R408-R412). -/

namespace Sys2Proof.Machine

/-- VF_ENABLE. -/
def yafVfEnable (count : Nat) (s : State) : Ans :=
  if 63 < count then Ans.un s .badArg
  else if s.assigns.any fun a => decide (count < a.vf) then Ans.un s .badState
  else Ans.ok (s.setFld Off.hpStat 16 6 count) []

/-- VF_ENABLE. -/
def execVfEnable (h : CmdHdr) (count : BitVec 8) (s : State) : Host.Outcome State Fault Refusal :=
  yafRun h 0x0901 [1] .pf0 s (yafVfEnable count.toNat)

/-- Whether an assignment names objects that there are. -/
def State.assignGood (s : State) (a : Assign) : Bool :=
  let e := a.first + a.count
  match a.kind with
  | 1 => decide (e ≤ 4096)
  | 2 => decide (e ≤ 36)
  | 3 => decide (e ≤ 36)
  | 4 => decide (640 ≤ a.first) && decide (e ≤ 4096)
  | 5 => decide (a.base + a.size ≤ s.installed)
  | 6 => (List.range a.count).all fun i => (tblGet? s.parts (a.first + i)).isSome
  | _ => decide (e ≤ 1024)

/-- Whether two assignments share an object. -/
def Assign.meets (a b : Assign) : Bool :=
  a.kind == b.kind &&
    (if a.kind = 5 then decide (a.base < b.base + b.size) && decide (b.base < a.base + a.size)
     else decide (a.first < b.first + b.count) && decide (b.first < a.first + a.count))

/-- How many objects of a kind a function holds. -/
def State.heldCount (s : State) (vf kind : Nat) : Nat :=
  (s.assigns.filter fun a => a.vf == vf && a.kind == kind).foldl (fun n a => n + a.count) 0

/-- The slots of a function's window for a kind (15 R399, R408). -/
def windowSlots (kind : Nat) : Nat :=
  match kind with
  | 1 => 1024
  | 2 => 36
  | 3 => 36
  | 4 => 1020
  | _ => 4096

/-- VF_ASSIGN (15 R408). -/
def yafVfAssign (a : Assign) (s : State) : Ans :=
  if a.vf = 0 ∨ s.fld Off.hpStat 16 6 < a.vf then Ans.un s .noSuchObject
  else if a.kind = 0 ∨ 7 < a.kind then Ans.un s .badArg
  else if !s.assignGood a then Ans.un s .noSuchObject
  else if s.assigns.contains a then Ans.ok s []
  else if a.kind ≠ 5 ∧ windowSlots a.kind < s.heldCount a.vf a.kind + a.count then Ans.un s .badArg
  else if s.assigns.any fun b => b.vf != a.vf && a.meets b then Ans.un s .badState
  else Ans.ok { s with assigns := s.assigns ++ [a] } []

/-- VF_ASSIGN. -/
def execVfAssign (h : CmdHdr) (vf kind : BitVec 8) (first count : BitVec 16) (base size : BitVec 64) (s : State) :
    Host.Outcome State Fault Refusal :=
  yafRun h 0x0902 [1, 1, 2, 2, 8, 8] .pf0 s
    (yafVfAssign ⟨vf.toNat, kind.toNat, first.toNat, count.toNat, base.toNat, size.toNat⟩)

/-- Whether an assignment holds an object that is enabled (log 94). -/
def State.assignOn (s : State) (a : Assign) : Bool :=
  (List.range a.count).any fun i =>
    let o := a.first + i
    match a.kind with
    | 1 => s.tqOn o
    | 2 => s.jOn .prism o
    | 3 => s.jOn .cipher o
    | 4 => s.bindValid o
    | 6 => match tblGet? s.parts o with
      | some p => p.lps.any fun n => (s.lp n).code == 2
      | none => false
    | _ => false

/-- VF_RELEASE (15 R408). -/
def yafVfRelease (vf : Nat) (s : State) : Ans :=
  if vf = 0 ∨ s.fld Off.hpStat 16 6 < vf then Ans.un s .noSuchObject
  else if s.assigns.any fun a => a.vf == vf && s.assignOn a then Ans.un s .badState
  else Ans.ok { s with assigns := s.assigns.filter fun a => a.vf != vf } []

/-- VF_RELEASE. -/
def execVfRelease (h : CmdHdr) (vf : BitVec 8) (s : State) : Host.Outcome State Fault Refusal :=
  yafRun h 0x0903 [1] .pf0 s (yafVfRelease vf.toNat)

/-- A command on the dirty log of a VF, with the state of the log. -/
def State.onDlog (s : State) (vf : Nat) (f : Nat → Ans) : Ans :=
  if vf = 0 ∨ s.fld Off.hpStat 16 6 < vf then Ans.un s .noSuchObject else f (s.fld (Off.hpDlog (vf - 1)) 0 2)

/-- DIRTY_LOG_START (15 R410). -/
def yafDirtyLogStart (vf bitmap pages : Nat) (s : State) : Ans :=
  s.onDlog vf fun st =>
    if st = 1 ∨ st = 2 then Ans.no s .badState st
    else Ans.ok (({ s with dlogs := tblSet s.dlogs vf ⟨bitmap, pages, []⟩ } : State).setReg (Off.hpDlog (vf - 1)) 1) []

/-- DIRTY_LOG_START. -/
def execDirtyLogStart (h : CmdHdr) (vf : BitVec 8) (bitmap pages : BitVec 64) (s : State) : Host.Outcome State Fault Refusal :=
  yafRun h 0x0904 [1, 8, 8] .pf0 s (yafDirtyLogStart vf.toNat bitmap.toNat pages.toNat)

/-- The bits of a log set in its bitmap in host memory (15 R410); no bit is cleared. -/
def State.bitmapWrite (s : State) (d : DirtyLog) : State :=
  d.set.foldl (fun (t : State) n =>
    let a := hostBase + d.bitmap + n / 8
    t.agentWrite a [memGet t.mem a ||| BitVec.ofNat 8 (2 ^ (n % 8))]) s

/-- The host lines held dirty for a VF: in the L2 of a cluster with a logical processor whose host accesses are the VF's (log 93). -/
def State.dirtyHost (s : State) (vf : Nat) : List Nat :=
  (clusters.filter fun c => (clusterSlots c).any fun n => s.lpExists n && s.lpFn n == vf).flatMap fun c =>
    (s.l2Lines c).filter fun l => decide (hostBase ≤ l) && (s.l2IsDirty c l || (s.l2c c).ebuf.contains l)

/-- The pages of host lines. -/
def pagesOf (ls : List Nat) : List Nat := (ls.map fun l => (l - hostBase) / 4096).eraseDups

/-- DIRTY_LOG_SWAP (15 R411, R412): the old bitmap goes to host memory, the new one starts with the pages of the lines held dirty. The
command names no page count for the new bitmap, which is a free value (log 92); a held page beyond it is FULL again. -/
def yafDirtyLogSwap (vf bitmap : Nat) (s : State) : Ans :=
  s.onDlog vf fun st =>
    if st = 0 ∨ st = 3 then Ans.no s .badState st
    else
      let r := Off.hpDlog (vf - 1)
      let full := s.fld r 2 1
      let s1 := s.bitmapWrite (tblGetD s.dlogs vf ⟨0, 0, []⟩)
      let (pages, s2) := s1.fresh
      let s3 : State := { s2 with dlogs := tblSet s2.dlogs vf ⟨bitmap, pages, pagesOf (s2.dirtyHost vf)⟩ }
      let again := st == 2 && decide (pages ≤ s.fld r 24 40)
      Ans.ok (s3.setReg r (s.fld r 24 40 * 2 ^ 24 + (if again then 6 else 1))) (packFields [(1, full)])

/-- DIRTY_LOG_SWAP. -/
def execDirtyLogSwap (h : CmdHdr) (vf : BitVec 8) (bitmap : BitVec 64) (s : State) : Host.Outcome State Fault Refusal :=
  yafRun h 0x0905 [1, 8] .pf0 s (yafDirtyLogSwap vf.toNat bitmap.toNat)

/-- DIRTY_LOG_STOP (15 R412): the dirty host lines written back, their pages set, the bitmap written, the log OFF. -/
def yafDirtyLogStop (vf : Nat) (s : State) : Ans :=
  s.onDlog vf fun st =>
    if st = 0 ∨ st = 3 then Ans.no s .badState st
    else
      let ls := s.dirtyHost vf
      let d := tblGetD s.dlogs vf ⟨0, 0, []⟩
      let s1 := ls.foldl (fun (t : State) l => t.l2WriteBack l |>.l2Clean l) s
      let s2 := s1.bitmapWrite { d with set := (d.set ++ pagesOf ls).eraseDups }
      Ans.ok (({ s2 with dlogs := tblErase s2.dlogs vf } : State).setFld (Off.hpDlog (vf - 1)) 0 2 0) []

/-- DIRTY_LOG_STOP. -/
def execDirtyLogStop (h : CmdHdr) (vf : BitVec 8) (s : State) : Host.Outcome State Fault Refusal :=
  yafRun h 0x0906 [1] .pf0 s (yafDirtyLogStop vf.toNat)

/-- RESET (14 R390, 18 R457): a warm or cold reset is asked for and begins after the completion; a cluster reset is done. -/
def yafReset (kind c : Nat) (s : State) : Ans :=
  match kind with
  | 1 => Ans.ok (s.askReset (.warm 0x3FF)) []
  | 2 => Ans.ok (s.askReset (.cold 3)) []
  | 3 => s.onCluster c (
      match s.runningIn c with
      | some n => Ans.lpState s n
      | none => Ans.ok ((s.resetTaken (.cluster c)).clusterReset c) [])
  | _ => Ans.un s .badArg

/-- RESET. -/
def execReset (h : CmdHdr) (kind cluster : BitVec 8) (s : State) : Host.Outcome State Fault Refusal :=
  yafRun h 0x0A01 [1, 1] .pf0 s (yafReset kind.toNat cluster.toNat)

/-- POWER_DOWN (07 R200, 08 R235, 18 R466): dispatch stops, every dirty line is written back, the journal gets its EPOCH of kind
POWERDOWN, and the retention record is written. -/
def yafPowerDown (s : State) : Ans :=
  let s1 := (({ s with twStopped := true } : State).writeBackAll fun _ => true).nvjEpoch 4
  let s2 := s1.retain
  Ans.ok { s2 with chip := { s2.chip with down := true } } []

/-- POWER_DOWN. -/
def execPowerDown (h : CmdHdr) (s : State) : Host.Outcome State Fault Refusal := yafRun h 0x0A02 [] .pf0 s yafPowerDown

/-- FW_STAGE: `sigOk` and `readbackOk` are what the checks of the image and of the flash find, `version` what the image says. -/
def yafFwStage (m slot image length : Nat) (sigOk readbackOk : Bool) (version : Nat) (s : State) : Ans :=
  if 1 < slot then Ans.un s .badArg
  else if slot = s.chip.running then Ans.un s .badState
  else match s.bufRead m image length with
    | none => Ans.un s .bufferFault
    | some _ =>
      if !sigOk then Ans.no s .imageInvalid 6
      else if !readbackOk then Ans.no s .imageInvalid 7
      else Ans.ok { s with chip := { s.chip with valid := setBit s.chip.valid slot true, vers := tblSet s.chip.vers slot version } }
        (packFields [(4, version)])

/-- FW_STAGE. -/
def execFwStage (h : CmdHdr) (slot : BitVec 8) (image : BitVec 64) (length : BitVec 32) (sigOk readbackOk : Bool)
    (version : BitVec 32) (s : State) : Host.Outcome State Fault Refusal :=
  yafRun h 0x0F01 [1, 8, 4] .pf0 s (yafFwStage h.master slot.toNat image.toNat length.toNat sigOk readbackOk version.toNat)

/-- FW_ACTIVATE. -/
def yafFwActivate (slot : Nat) (s : State) : Ans :=
  if 1 < slot then Ans.un s .badArg
  else if !bitOf s.chip.valid slot then Ans.un s .badState
  else Ans.ok { s with chip := { s.chip with next := slot } } []

/-- FW_ACTIVATE. -/
def execFwActivate (h : CmdHdr) (slot : BitVec 8) (s : State) : Host.Outcome State Fault Refusal :=
  yafRun h 0x0F02 [1] .pf0 s (yafFwActivate slot.toNat)

/-- The version of an image in a slot. -/
def State.slotVersion (s : State) (slot : Nat) : Nat := tblGetD s.chip.vers slot (Config.shippedVersion slot).toNat

/-- FW_STATUS. -/
def yafFwStatus (s : State) : Ans :=
  Ans.ok s (packFields [(1, s.chip.running), (1, s.chip.next), (1, s.chip.valid), (4, s.slotVersion 0), (4, s.slotVersion 1)])

/-- FW_STATUS. -/
def execFwStatus (h : CmdHdr) (s : State) : Host.Outcome State Fault Refusal := yafRun h 0x0F03 [] .fn s yafFwStatus

end Sys2Proof.Machine
end

