-- ==== Sys2Proof/Machine/YafTime.lean ====
section
/-! DEFINITION. The time commands of Yafolo (14 R390, opcodes 0x04xx). -/

namespace Sys2Proof.Machine

/-- TIME_SOURCE (11 R332): it writes RWL fields, so LOCKED once the block is locked. -/
def yafTimeSource (src tref allowStep stepUs : Nat) (s : State) : Ans :=
  if 3 < src ∨ 3 < tref ∨ 1 < allowStep then Ans.un s .badArg
  else if s.locked Off.timeCtrl then Ans.un s .locked
  else Ans.ok (s.timeCtrlWrite false (stepUs * 65536 + allowStep * 32 + bits tref 0 1 * 16 + bits tref 1 1 * 8 + src)) []

/-- TIME_SOURCE. -/
def execTimeSource (h : CmdHdr) (src tref allowStep stepUs : BitVec 8) (s : State) : Host.Outcome State Fault Refusal :=
  yafRun h 0x0401 [1, 1, 1, 1] .pf0 s (yafTimeSource src.toNat tref.toNat allowStep.toNat stepUs.toNat)

/-- TIME_SET: one step (11 R323) to the time given. -/
def yafTimeSet (tai : Nat) (s : State) : Ans :=
  let st := s.fld Off.timeStat 0 2
  if st = 1 ∨ st = 2 then Ans.no s .badState st
  else
    let s1 := s.adjust true ((tai : Int) - s.now)
    Ans.ok s1 (packFields [(1, s1.fld Off.timeStat 4 4)])

/-- TIME_SET. -/
def execTimeSet (h : CmdHdr) (taiNs : BitVec 64) (s : State) : Host.Outcome State Fault Refusal :=
  yafRun h 0x0402 [8] .pf0 s (yafTimeSet taiNs.toNat)

/-- TIME_STATUS. -/
def yafTimeStatus (s : State) : Ans :=
  Ans.ok s (packFields [(1, s.fld Off.timeStat 0 2), (1, s.fld Off.timeStat 4 4), (1, s.fld Off.timeStat 2 1),
    (4, wrapInt s.yaf.disc.offset 32), (4, s.reg Off.timeFreq), (8, s.now)])

/-- TIME_STATUS. -/
def execTimeStatus (h : CmdHdr) (s : State) : Host.Outcome State Fault Refusal := yafRun h 0x0403 [] .any s yafTimeStatus

/-- PTP_CONFIG. -/
def yafPtpConfig (c : PtpCfg) (s : State) : Ans :=
  if c.profile = 0 ∨ 2 < c.profile ∨ 3 < c.role ∨ 1 < c.transport then Ans.un s .badArg
  else if (List.range 128).any fun p => bitOf c.ports p && !s.flag (Off.portStat p) 0 then Ans.un s .badState
  else Ans.ok { s with yaf := { s.yaf with ptp := c } } []

/-- PTP_CONFIG. -/
def execPtpConfig (h : CmdHdr) (profile role domain transport prio1 prio2 : BitVec 8) (ports0 ports1 : BitVec 64) (s : State) :
    Host.Outcome State Fault Refusal :=
  yafRun h 0x0404 [1, 1, 1, 1, 1, 1, 8, 8] .pf0 s
    (yafPtpConfig ⟨profile.toNat, role.toNat, domain.toNat, transport.toNat, prio1.toNat, prio2.toNat,
      ports0.toNat + ports1.toNat * 2 ^ 64⟩)

/-- PPS_CONFIG (11 R328, R332): the width is that of PPS_CFG, which stores at most 500,000. -/
def yafPpsConfig (flags width : Nat) (s : State) : Ans :=
  if 7 < flags then Ans.un s .badArg
  else Ans.ok (s.ppsCfgWrite (bits flags 0 1 * 2 ^ 31 + bits flags 1 1 * 2 ^ 30 + bits flags 2 1 * 2 ^ 29 + min width 500000)) []

/-- PPS_CONFIG. -/
def execPpsConfig (h : CmdHdr) (flags : BitVec 8) (width : BitVec 32) (s : State) : Host.Outcome State Fault Refusal :=
  yafRun h 0x0405 [1, 4] .pf0 s (yafPpsConfig flags.toNat width.toNat)

/-- UTC_SET (11 R327). -/
def yafUtcSet (offset leap : Nat) (s : State) : Ans :=
  if 2 < leap then Ans.un s .badArg
  else Ans.ok (s.setReg Off.timeUtc (bit01 (leap == 1) * 2 ^ 17 + bit01 (leap == 2) * 65536 + offset)) []

/-- UTC_SET. -/
def execUtcSet (h : CmdHdr) (offset : BitVec 16) (leap : BitVec 8) (s : State) : Host.Outcome State Fault Refusal :=
  yafRun h 0x0406 [2, 1] .pf0 s (yafUtcSet offset.toNat leap.toNat)

end Sys2Proof.Machine
end

