-- ==== Sys2Proof/Machine/Dispatch.lean ====
section
/-! DEFINITION. The effect of each command: one arm for each constructor of `Instr`. -/

namespace Sys2Proof.Machine

def exec (i : Instr) (s : State) : Host.Outcome State Fault Refusal :=
  match i with
  | .registerWrite master off size value => Sys2Proof.Machine.execRegisterWrite master off size value s
  | .lockSet master off => Sys2Proof.Machine.execLockSet master off s
  | .fifoDelivery src dst => Sys2Proof.Machine.execFifoDelivery src dst s
  | .retry c k ev => Sys2Proof.Machine.execRetry c k ev s
  | .repairSequence c k v => Sys2Proof.Machine.execRepairSequence c k v s
  | .proactiveRepair c k v => Sys2Proof.Machine.execProactiveRepair c k v s
  | .cpRepair unit spareOk => Sys2Proof.Machine.execCpRepair unit spareOk s
  | .tamlerHalt lp => Sys2Proof.Machine.execTamlerHalt lp s
  | .tamlerAccess lp item write => Sys2Proof.Machine.execTamlerAccess lp item write s
  | .tamlerSingleStep lp => Sys2Proof.Machine.execTamlerSingleStep lp s
  | .tamlerPerCoreAccess lp => Sys2Proof.Machine.execTamlerPerCoreAccess lp s
  | .tamlerExit lp => Sys2Proof.Machine.execTamlerExit lp s
  | .adc lp sz d a b => Sys2Proof.Machine.execAdc lp sz d a b s
  | .add lp sz d a b => Sys2Proof.Machine.execAdd lp sz d a b s
  | .sub lp sz d a b => Sys2Proof.Machine.execSub lp sz d a b s
  | .sbc lp sz d a b => Sys2Proof.Machine.execSbc lp sz d a b s
  | .cmp lp sz a b => Sys2Proof.Machine.execCmp lp sz a b s
  | .tst lp sz a b => Sys2Proof.Machine.execTst lp sz a b s
  | .and lp sz d a b => Sys2Proof.Machine.execAnd lp sz d a b s
  | .or lp sz d a b => Sys2Proof.Machine.execOr lp sz d a b s
  | .xor lp sz d a b => Sys2Proof.Machine.execXor lp sz d a b s
  | .shl lp sz d a b => Sys2Proof.Machine.execShl lp sz d a b s
  | .shr lp sz d a b => Sys2Proof.Machine.execShr lp sz d a b s
  | .sar lp sz d a b => Sys2Proof.Machine.execSar lp sz d a b s
  | .rot lp sz d a b => Sys2Proof.Machine.execRot lp sz d a b s
  | .mul lp sz d a b => Sys2Proof.Machine.execMul lp sz d a b s
  | .div lp sz d a b => Sys2Proof.Machine.execDiv lp sz d a b s
  | .divu lp sz d a b => Sys2Proof.Machine.execDivu lp sz d a b s
  | .rem lp d a b => Sys2Proof.Machine.execRem lp d a b s
  | .remu lp d a b => Sys2Proof.Machine.execRemu lp d a b s
  | .mov lp sz d a => Sys2Proof.Machine.execMov lp sz d a s
  | .mova lp d t => Sys2Proof.Machine.execMova lp d t s
  | .movz lp sz d a => Sys2Proof.Machine.execMovz lp sz d a s
  | .movs lp sz d a => Sys2Proof.Machine.execMovs lp sz d a s
  | .extu lp d a f => Sys2Proof.Machine.execExtu lp d a f s
  | .exts lp d a f => Sys2Proof.Machine.execExts lp d a f s
  | .ins lp m a f => Sys2Proof.Machine.execIns lp m a f s
  | .popc lp d a => Sys2Proof.Machine.execPopc lp d a s
  | .clz lp d a => Sys2Proof.Machine.execClz lp d a s
  | .ctz lp d a => Sys2Proof.Machine.execCtz lp d a s
  | .bswap lp sz d a => Sys2Proof.Machine.execBswap lp sz d a s
  | .mulx lp d a b => Sys2Proof.Machine.execMulx lp d a b s
  | .mulxu lp d a b => Sys2Proof.Machine.execMulxu lp d a b s
  | .sel lp d a b => Sys2Proof.Machine.execSel lp d a b s
  | .bcc lp cond t => Sys2Proof.Machine.execBcc lp cond t s
  | .call lp d t => Sys2Proof.Machine.execCall lp d t s
  | .ret lp a => Sys2Proof.Machine.execRet lp a s
  | .loop lp m t => Sys2Proof.Machine.execLoop lp m t s
  | .bbs lp a b t => Sys2Proof.Machine.execBbs lp a b t s
  | .bbc lp a b t => Sys2Proof.Machine.execBbc lp a b t s
  | .jtab lp a b t => Sys2Proof.Machine.execJtab lp a b t s
  | .scond lp d k => Sys2Proof.Machine.execScond lp d k s
  | .svc lp a => Sys2Proof.Machine.execSvc lp a s
  | .bkpt lp => Sys2Proof.Machine.execBkpt lp s
  | .eret lp => Sys2Proof.Machine.execEret lp s
  | .nop lp => Sys2Proof.Machine.execNop lp s
  | .wfi lp => Sys2Proof.Machine.execWfi lp s
  | .wfiWake lp => Sys2Proof.Machine.execWfiWake lp s
  | .cbcc lp cond a b t => Sys2Proof.Machine.execCbcc lp cond a b t s
  | .fadd lp f d a b => Sys2Proof.Machine.execFadd lp f d a b s
  | .fsub lp f d a b => Sys2Proof.Machine.execFsub lp f d a b s
  | .fmul lp f d a b => Sys2Proof.Machine.execFmul lp f d a b s
  | .fdiv lp f d a b => Sys2Proof.Machine.execFdiv lp f d a b s
  | .fsqrt lp f d a => Sys2Proof.Machine.execFsqrt lp f d a s
  | .fma lp f m a b => Sys2Proof.Machine.execFma lp f m a b s
  | .fcmp lp f a b => Sys2Proof.Machine.execFcmp lp f a b s
  | .fcmps lp f a b => Sys2Proof.Machine.execFcmps lp f a b s
  | .fmin lp f d a b => Sys2Proof.Machine.execFmin lp f d a b s
  | .fmax lp f d a b => Sys2Proof.Machine.execFmax lp f d a b s
  | .fclass lp f d a => Sys2Proof.Machine.execFclass lp f d a s
  | .cvtfi lp f d a => Sys2Proof.Machine.execCvtfi lp f d a s
  | .cvtfu lp f d a => Sys2Proof.Machine.execCvtfu lp f d a s
  | .cvtif lp f d a => Sys2Proof.Machine.execCvtif lp f d a s
  | .cvtuf lp f d a => Sys2Proof.Machine.execCvtuf lp f d a s
  | .cvtfp lp f d a => Sys2Proof.Machine.execCvtfp lp f d a s
  | .cvtpf lp f d a => Sys2Proof.Machine.execCvtpf lp f d a s
  | .frint lp f d a => Sys2Proof.Machine.execFrint lp f d a s
  | .fcvt lp p d a => Sys2Proof.Machine.execFcvt lp p d a s
  | .pdadd lp d a b => Sys2Proof.Machine.execPdadd lp d a b s
  | .pdsub lp d a b => Sys2Proof.Machine.execPdsub lp d a b s
  | .pdcmp lp a b => Sys2Proof.Machine.execPdcmp lp a b s
  | .pdchk lp a k => Sys2Proof.Machine.execPdchk lp a k s
  | .pdmov lp d a k => Sys2Proof.Machine.execPdmov lp d a k s
  | .pdmul lp d a b => Sys2Proof.Machine.execPdmul lp d a b s
  | .pddiv lp d a b => Sys2Proof.Machine.execPddiv lp d a b s
  | .pdrem lp d a b => Sys2Proof.Machine.execPdrem lp d a b s
  | .pdshl lp d a k => Sys2Proof.Machine.execPdshl lp d a k s
  | .pdshr lp d a k => Sys2Proof.Machine.execPdshr lp d a k s
  | .pdneg lp d a => Sys2Proof.Machine.execPdneg lp d a s
  | .pdabs lp d a => Sys2Proof.Machine.execPdabs lp d a s
  | .cvtpb lp sz d a => Sys2Proof.Machine.execCvtpb lp sz d a s
  | .cvtbp lp sz d a => Sys2Proof.Machine.execCvtbp lp sz d a s
  | .rpt lp op => Sys2Proof.Machine.execRpt lp op s
  | .smov lp => Sys2Proof.Machine.execSmov lp s
  | .smovr lp => Sys2Proof.Machine.execSmovr lp s
  | .scmp lp d => Sys2Proof.Machine.execScmp lp d s
  | .sscn lp d a => Sys2Proof.Machine.execSscn lp d a s
  | .sscnn lp d a => Sys2Proof.Machine.execSscnn lp d a s
  | .sfil lp a => Sys2Proof.Machine.execSfil lp a s
  | .sxlt lp t => Sys2Proof.Machine.execSxlt lp t s
  | .scrc lp m => Sys2Proof.Machine.execScrc lp m s
  | .ssum lp m => Sys2Proof.Machine.execSsum lp m s
  | .sspn lp d t => Sys2Proof.Machine.execSspn lp d t s
  | .sand lp => Sys2Proof.Machine.execSand lp s
  | .sor lp => Sys2Proof.Machine.execSor lp s
  | .sxor lp => Sys2Proof.Machine.execSxor lp s
  | .spopc lp m => Sys2Proof.Machine.execSpopc lp m s
  | .sxch lp => Sys2Proof.Machine.execSxch lp s
  | .swp lp sz d m a => Sys2Proof.Machine.execSwp lp sz d m a s
  | .cas lp sz m1 m2 a => Sys2Proof.Machine.execCas lp sz m1 m2 a s
  | .ldadd lp sz d m a => Sys2Proof.Machine.execLdadd lp sz d m a s
  | .ldor lp d m a => Sys2Proof.Machine.execLdor lp d m a s
  | .ldand lp d m a => Sys2Proof.Machine.execLdand lp d m a s
  | .ldres lp sz d m => Sys2Proof.Machine.execLdres lp sz d m s
  | .stcond lp sz m a => Sys2Proof.Machine.execStcond lp sz m a s
  | .fence lp => Sys2Proof.Machine.execFence lp s
  | .fenceL lp => Sys2Proof.Machine.execFenceL lp s
  | .fenceS lp => Sys2Proof.Machine.execFenceS lp s
  | .mfsr lp d k => Sys2Proof.Machine.execMfsr lp d k s
  | .mtsr lp k a => Sys2Proof.Machine.execMtsr lp k a s
  | .psWrite lp a => Sys2Proof.Machine.execPsWrite lp a s
  | .wpWrite lp a => Sys2Proof.Machine.execWpWrite lp a s
  | .regionTableWrite lp hi a => Sys2Proof.Machine.execRegionTableWrite lp hi a s
  | .rdtime lp d => Sys2Proof.Machine.execRdtime lp d s
  | .clineClean lp k t => Sys2Proof.Machine.execClineClean lp k t s
  | .clineInval lp k t => Sys2Proof.Machine.execClineInval lp k t s
  | .clineCleaninval lp k t => Sys2Proof.Machine.execClineCleaninval lp k t s
  | .clineZero lp k t => Sys2Proof.Machine.execClineZero lp k t s
  | .clineUnlock lp k t => Sys2Proof.Machine.execClineUnlock lp k t s
  | .pflk lp k t => Sys2Proof.Machine.execPflk lp k t s
  | .pref lp t => Sys2Proof.Machine.execPref lp t s
  | .isync lp => Sys2Proof.Machine.execIsync lp s
  | .lpstop lp => Sys2Proof.Machine.execLpstop lp s
  | .reservedOpcode lp bytes => Sys2Proof.Machine.execReservedOpcode lp bytes s
  | .vectorEntry lp => Sys2Proof.Machine.execVectorEntry lp s
  | .intcSwiRaise master c k => Sys2Proof.Machine.execIntcSwiRaise master c k s
  | .storeDrain lp => Sys2Proof.Machine.execStoreDrain lp s
  | .l1InvalidationApply lp => Sys2Proof.Machine.execL1InvalidationApply lp s
  | .cacheFill c => Sys2Proof.Machine.execCacheFill c s
  | .evictionDone u => Sys2Proof.Machine.execEvictionDone u s
  | .lockenWrite master u value => Sys2Proof.Machine.execLockenWrite master u value s
  | .rmClean master e args => Sys2Proof.Machine.execRmClean master e args s
  | .rmInval master e args => Sys2Proof.Machine.execRmInval master e args s
  | .rmCleaninval master e args => Sys2Proof.Machine.execRmCleaninval master e args s
  | .rmLockfill master e args => Sys2Proof.Machine.execRmLockfill master e args s
  | .rmUnlock master e args => Sys2Proof.Machine.execRmUnlock master e args s
  | .rmZero master e args => Sys2Proof.Machine.execRmZero master e args s
  | .rmDone e => Sys2Proof.Machine.execRmDone e s
  | .durWrite master unit value => Sys2Proof.Machine.execDurWrite master unit value s
  | .scrub u set way found => Sys2Proof.Machine.execScrub u set way found s
  | .eccCounterDecay u => Sys2Proof.Machine.execEccCounterDecay u s
  | .wayRetirement u => Sys2Proof.Machine.execWayRetirement u s
  | .queueDoorbell master q value => Sys2Proof.Machine.execQueueDoorbell master q value s
  | .send q nv => Sys2Proof.Machine.execSend q nv s
  | .receive q => Sys2Proof.Machine.execReceive q s
  | .exchange q nv => Sys2Proof.Machine.execExchange q nv s
  | .copy q nv => Sys2Proof.Machine.execCopy q nv s
  | .group q nv => Sys2Proof.Machine.execGroup q nv s
  | .timedSend q nv => Sys2Proof.Machine.execTimedSend q nv s
  | .timedSendRelease q slot => Sys2Proof.Machine.execTimedSendRelease q slot s
  | .holdRelease q => Sys2Proof.Machine.execHoldRelease q s
  | .deadlineExpiry q => Sys2Proof.Machine.execDeadlineExpiry q s
  | .retransmit q slot => Sys2Proof.Machine.execRetransmit q slot s
  | .ackTimeout q slot => Sys2Proof.Machine.execAckTimeout q slot s
  | .ackmarkWrite q flow => Sys2Proof.Machine.execAckmarkWrite q flow s
  | .completionDeferredWrite q => Sys2Proof.Machine.execCompletionDeferredWrite q s
  | .nvjScrub row a b => Sys2Proof.Machine.execNvjScrub row a b s
  | .engineRetry unit succeeds => Sys2Proof.Machine.execEngineRetry unit succeeds s
  | .engineHandover logical => Sys2Proof.Machine.execEngineHandover logical s
  | .tqEnableWrite master q => Sys2Proof.Machine.execTqEnableWrite master q s
  | .tqDisableWrite master q => Sys2Proof.Machine.execTqDisableWrite master q s
  | .frameReceive p f => Sys2Proof.Machine.execFrameReceive p f s
  | .hsrForward p f => Sys2Proof.Machine.execHsrForward p f s
  | .frameStart p => Sys2Proof.Machine.execFrameStart p s
  | .gooseRepetition pub => Sys2Proof.Machine.execGooseRepetition pub s
  | .svStale g n => Sys2Proof.Machine.execSvStale g n s
  | .gooseStale g n => Sys2Proof.Machine.execGooseStale g n s
  | .ddtEntryForget pair => Sys2Proof.Machine.execDdtEntryForget pair s
  | .portEnableWrite master p value => Sys2Proof.Machine.execPortEnableWrite master p value s
  | .portDisableWrite master p => Sys2Proof.Machine.execPortDisableWrite master p s
  | .msecCfgWrite master p value => Sys2Proof.Machine.execMsecCfgWrite master p value s
  | .blockLockLoss p => Sys2Proof.Machine.execBlockLockLoss p s
  | .expanderPoll bus cages stuck => Sys2Proof.Machine.execExpanderPoll bus cages stuck s
  | .moduleLifeUpdate p tempBin biasUa => Sys2Proof.Machine.execModuleLifeUpdate p tempBin biasUa s
  | .spareLaneMove p ok => Sys2Proof.Machine.execSpareLaneMove p ok s
  | .linkEnable master l value => Sys2Proof.Machine.execLinkEnable master l value s
  | .initReceived l width rate confirmed => Sys2Proof.Machine.execInitReceived l width rate confirmed s
  | .alignSend l lane => Sys2Proof.Machine.execAlignSend l lane s
  | .lackReceived l seq negative => Sys2Proof.Machine.execLackReceived l seq negative s
  | .creditReceived l vc n => Sys2Proof.Machine.execCreditReceived l vc n s
  | .replayTimeout l => Sys2Proof.Machine.execReplayTimeout l s
  | .packetSend l => Sys2Proof.Machine.execPacketSend l s
  | .packetForward l p => Sys2Proof.Machine.execPacketForward l p s
  | .dataPacket l p nv => Sys2Proof.Machine.execDataPacket l p nv s
  | .ackPacket l p => Sys2Proof.Machine.execAckPacket l p s
  | .refusePacket l p => Sys2Proof.Machine.execRefusePacket l p s
  | .formPacket l n => Sys2Proof.Machine.execFormPacket l n s
  | .timePacket l ident t2 t3 => Sys2Proof.Machine.execTimePacket l ident t2 t3 s
  | .reassemblyTimeout e => Sys2Proof.Machine.execReassemblyTimeout e s
  | .laneLoss l lane => Sys2Proof.Machine.execLaneLoss l lane s
  | .formation => Sys2Proof.Machine.execFormation s
  | .tsyncSend l => Sys2Proof.Machine.execTsyncSend l s
  | .tsyncRequestReceived l ident => Sys2Proof.Machine.execTsyncRequestReceived l ident s
  | .tsyncReplyReceived l ident => Sys2Proof.Machine.execTsyncReplyReceived l ident s
  | .referenceSwitch => Sys2Proof.Machine.execReferenceSwitch s
  | .referenceReturn => Sys2Proof.Machine.execReferenceReturn s
  | .timeCopyCorrection island => Sys2Proof.Machine.execTimeCopyCorrection island s
  | .ppsInEdge => Sys2Proof.Machine.execPpsInEdge s
  | .ppsOutPulse => Sys2Proof.Machine.execPpsOutPulse s
  | .disciplineSample offset64 => Sys2Proof.Machine.execDisciplineSample offset64 s
  | .sourceLossTimeout => Sys2Proof.Machine.execSourceLossTimeout s
  | .timeStep master amount => Sys2Proof.Machine.execTimeStep master amount s
  | .timeSlew master amount => Sys2Proof.Machine.execTimeSlew master amount s
  | .slewComplete => Sys2Proof.Machine.execSlewComplete s
  | .timeCtrlSrcWrite master src => Sys2Proof.Machine.execTimeCtrlSrcWrite master src s
  | .timerFire c k => Sys2Proof.Machine.execTimerFire c k s
  | .prismDoorbell master j value => Sys2Proof.Machine.execPrismDoorbell master j value s
  | .cipherDoorbell master j value => Sys2Proof.Machine.execCipherDoorbell master j value s
  | .jobDispatch pool e => Sys2Proof.Machine.execJobDispatch pool e s
  | .compress e => Sys2Proof.Machine.execCompress e s
  | .decompress e => Sys2Proof.Machine.execDecompress e s
  | .prismJobEnd e => Sys2Proof.Machine.execPrismJobEnd e s
  | .encrypt e => Sys2Proof.Machine.execEncrypt e s
  | .decrypt e => Sys2Proof.Machine.execDecrypt e s
  | .hash e => Sys2Proof.Machine.execHash e s
  | .hmacGen e => Sys2Proof.Machine.execHmacGen e s
  | .hmacVerify e => Sys2Proof.Machine.execHmacVerify e s
  | .cipherJobEnd e => Sys2Proof.Machine.execCipherJobEnd e s
  | .engineMismatch pool e => Sys2Proof.Machine.execEngineMismatch pool e s
  | .jobRingEnable master pool j => Sys2Proof.Machine.execJobRingEnable master pool j s
  | .jobRingDisable master pool j => Sys2Proof.Machine.execJobRingDisable master pool j s
  | .keyCmdLoad master slot typ len owner portUse => Sys2Proof.Machine.execKeyCmdLoad master slot typ len owner portUse s
  | .keyCmdClear master slot => Sys2Proof.Machine.execKeyCmdClear master slot s
  | .keyCmdLock master slot => Sys2Proof.Machine.execKeyCmdLock master slot s
  | .mbxTxWrite master ch unit value => Sys2Proof.Machine.execMbxTxWrite master ch unit value s
  | .post master ch => Sys2Proof.Machine.execPost master ch s
  | .blockingPost master ch timeout => Sys2Proof.Machine.execBlockingPost master ch timeout s
  | .postTimeout ch => Sys2Proof.Machine.execPostTimeout ch s
  | .mbxRingWrite master ch value => Sys2Proof.Machine.execMbxRingWrite master ch value s
  | .pop master ch value => Sys2Proof.Machine.execPop master ch value s
  | .bindWrite master ch value => Sys2Proof.Machine.execBindWrite master ch value s
  | .doorbellClear master r value => Sys2Proof.Machine.execDoorbellClear master r value s
  | .doorbellMaskWrite master r value => Sys2Proof.Machine.execDoorbellMaskWrite master r value s
  | .doorbellPacedDelivery r bit => Sys2Proof.Machine.execDoorbellPacedDelivery r bit s
  | .hello h version => Sys2Proof.Machine.execHello h version s
  | .badOpcode h opcode flags => Sys2Proof.Machine.execBadOpcode h opcode flags s
  | .getInfo h => Sys2Proof.Machine.execGetInfo h s
  | .setIdentity h domain prio member valid => Sys2Proof.Machine.execSetIdentity h domain prio member valid s
  | .eventMask h mask => Sys2Proof.Machine.execEventMask h mask s
  | .lockConfig h => Sys2Proof.Machine.execLockConfig h s
  | .partCreate h part owner base size lps0 lps1 => Sys2Proof.Machine.execPartCreate h part owner base size lps0 lps1 s
  | .partDestroy h part => Sys2Proof.Machine.execPartDestroy h part s
  | .progLoad h mid image length crc => Sys2Proof.Machine.execProgLoad h mid image length crc s
  | .lpStart h mid => Sys2Proof.Machine.execLpStart h mid s
  | .lpStop h mid => Sys2Proof.Machine.execLpStop h mid s
  | .lpStatus h mid => Sys2Proof.Machine.execLpStatus h mid s
  | .lockRange h scope cluster way addr lines => Sys2Proof.Machine.execLockRange h scope cluster way addr lines s
  | .unlockRange h scope cluster addr lines => Sys2Proof.Machine.execUnlockRange h scope cluster addr lines s
  | .setDurable h index size base => Sys2Proof.Machine.execSetDurable h index size base s
  | .queueRings h queue k flows ring cq state buflo bufhi => Sys2Proof.Machine.execQueueRings h queue k flows ring cq state buflo bufhi s
  | .queueParams h queue owner engine durable notifyBit notifyEn notifyTarget timeout target => Sys2Proof.Machine.execQueueParams h queue owner engine durable notifyBit notifyEn notifyTarget timeout target s
  | .queueEnable h queue => Sys2Proof.Machine.execQueueEnable h queue s
  | .queueDisable h queue => Sys2Proof.Machine.execQueueDisable h queue s
  | .queueRebind h queue target => Sys2Proof.Machine.execQueueRebind h queue target s
  | .queueStatus h queue => Sys2Proof.Machine.execQueueStatus h queue s
  | .teDisable h logical dest => Sys2Proof.Machine.execTeDisable h logical dest s
  | .domainSet h domain valid isLocal gateway links => Sys2Proof.Machine.execDomainSet h domain valid isLocal gateway links s
  | .resumeReport h index => Sys2Proof.Machine.execResumeReport h index s
  | .portUp h port mode fec flags forget txLat rxLat rxlog rxbig rxbit rxtarget rxring => Sys2Proof.Machine.execPortUp h port mode fec flags forget txLat rxLat rxlog rxbig rxbit rxtarget rxring s
  | .portDown h port => Sys2Proof.Machine.execPortDown h port s
  | .portStatus h port => Sys2Proof.Machine.execPortStatus h port s
  | .tableWrite h kind group index entry => Sys2Proof.Machine.execTableWrite h kind group index entry s
  | .pubTable h base => Sys2Proof.Machine.execPubTable h base s
  | .saLoad h port dir sc an ssci sci key pn cfg window => Sys2Proof.Machine.execSaLoad h port dir sc an ssci sci key pn cfg window s
  | .moduleInfo h port buf => Sys2Proof.Machine.execModuleInfo h port buf s
  | .moduleCfg h wearPct steer lifeKh part fecThresh => Sys2Proof.Machine.execModuleCfg h wearPct steer lifeKh part fecThresh s
  | .linkUp h port width rate asym comesUp => Sys2Proof.Machine.execLinkUp h port width rate asym comesUp s
  | .timeSource h src tref allowStep stepUs => Sys2Proof.Machine.execTimeSource h src tref allowStep stepUs s
  | .timeSet h taiNs => Sys2Proof.Machine.execTimeSet h taiNs s
  | .timeStatus h => Sys2Proof.Machine.execTimeStatus h s
  | .ptpConfig h profile role domain transport prio1 prio2 ports0 ports1 => Sys2Proof.Machine.execPtpConfig h profile role domain transport prio1 prio2 ports0 ports1 s
  | .ppsConfig h flags width => Sys2Proof.Machine.execPpsConfig h flags width s
  | .utcSet h offset leap => Sys2Proof.Machine.execUtcSet h offset leap s
  | .ringConfig h pool ring k width owner notifyBit notifyEn notifyTarget ringA cq buflo bufhi => Sys2Proof.Machine.execRingConfig h pool ring k width owner notifyBit notifyEn notifyTarget ringA cq buflo bufhi s
  | .ringEnable h pool ring => Sys2Proof.Machine.execRingEnable h pool ring s
  | .ringDisable h pool ring => Sys2Proof.Machine.execRingDisable h pool ring s
  | .keyLoad h slot typ length portUse owner key => Sys2Proof.Machine.execKeyLoad h slot typ length portUse owner key s
  | .keyClear h slot => Sys2Proof.Machine.execKeyClear h slot s
  | .keyLock h slot => Sys2Proof.Machine.execKeyLock h slot s
  | .engineDisable h pool engine => Sys2Proof.Machine.execEngineDisable h pool engine s
  | .chanBind h ch sender receiver dbBit lock => Sys2Proof.Machine.execChanBind h ch sender receiver dbBit lock s
  | .chanClose h ch => Sys2Proof.Machine.execChanClose h ch s
  | .chanStatus h ch => Sys2Proof.Machine.execChanStatus h ch s
  | .errReactSet h source react => Sys2Proof.Machine.execErrReactSet h source react s
  | .errStatus h source => Sys2Proof.Machine.execErrStatus h source s
  | .errClear h source release => Sys2Proof.Machine.execErrClear h source release s
  | .spareStatus h => Sys2Proof.Machine.execSpareStatus h s
  | .repairNow h mid v => Sys2Proof.Machine.execRepairNow h mid v s
  | .wearCfg h clusters proactive l2Thresh scThresh nvjWarn => Sys2Proof.Machine.execWearCfg h clusters proactive l2Thresh scThresh nvjWarn s
  | .clusterOffline h cluster => Sys2Proof.Machine.execClusterOffline h cluster s
  | .clusterOnline h cluster cmpFail lane bistFail => Sys2Proof.Machine.execClusterOnline h cluster cmpFail lane bistFail s
  | .bistRun h scope unit kind fail => Sys2Proof.Machine.execBistRun h scope unit kind fail s
  | .cmpTest h cluster fail lanes => Sys2Proof.Machine.execCmpTest h cluster fail lanes s
  | .tripTest h port wire pub count period frames timeout => Sys2Proof.Machine.execTripTest h port wire pub count period frames timeout s
  | .tripTestFrameInject f => Sys2Proof.Machine.execTripTestFrameInject f s
  | .vfEnable h count => Sys2Proof.Machine.execVfEnable h count s
  | .vfAssign h vf kind first count base size => Sys2Proof.Machine.execVfAssign h vf kind first count base size s
  | .vfRelease h vf => Sys2Proof.Machine.execVfRelease h vf s
  | .dirtyLogStart h vf bitmap pages => Sys2Proof.Machine.execDirtyLogStart h vf bitmap pages s
  | .dirtyLogSwap h vf bitmap => Sys2Proof.Machine.execDirtyLogSwap h vf bitmap s
  | .dirtyLogStop h vf => Sys2Proof.Machine.execDirtyLogStop h vf s
  | .reset h kind cluster => Sys2Proof.Machine.execReset h kind cluster s
  | .powerDown h => Sys2Proof.Machine.execPowerDown h s
  | .fwStage h slot image length sigOk readbackOk version => Sys2Proof.Machine.execFwStage h slot image length sigOk readbackOk version s
  | .fwActivate h slot => Sys2Proof.Machine.execFwActivate h slot s
  | .fwStatus h => Sys2Proof.Machine.execFwStatus h s
  | .completionPostRetry master cp => Sys2Proof.Machine.execCompletionPostRetry master cp s
  | .cxlLinkTraining cxl speed width => Sys2Proof.Machine.execCxlLinkTraining cxl speed width s
  | .hostLinkDown => Sys2Proof.Machine.execHostLinkDown s
  | .hostLinkUp => Sys2Proof.Machine.execHostLinkUp s
  | .conventionalReset => Sys2Proof.Machine.execConventionalReset s
  | .functionLevelReset fn => Sys2Proof.Machine.execFunctionLevelReset fn s
  | .hdmCommit hostBase size skip ways => Sys2Proof.Machine.execHdmCommit hostBase size skip ways s
  | .barAccess bar size write => Sys2Proof.Machine.execBarAccess bar size write s
  | .cxlMemRead addr len => Sys2Proof.Machine.execCxlMemRead addr len s
  | .cxlMemWrite addr bytes => Sys2Proof.Machine.execCxlMemWrite addr bytes s
  | .hostSnoop addr invalidate => Sys2Proof.Machine.execHostSnoop addr invalidate s
  | .atsInvalidation fn page => Sys2Proof.Machine.execAtsInvalidation fn page s
  | .msixUnmask fn vector => Sys2Proof.Machine.execMsixUnmask fn vector s
  | .sourceRaise n => Sys2Proof.Machine.execSourceRaise n s
  | .errSrcClear master n => Sys2Proof.Machine.execErrSrcClear master n s
  | .errFirstClear master g => Sys2Proof.Machine.execErrFirstClear master g s
  | .errReactWrite master g hi value => Sys2Proof.Machine.execErrReactWrite master g hi value s
  | .errPinForce master => Sys2Proof.Machine.execErrPinForce master s
  | .errPinRelease master => Sys2Proof.Machine.execErrPinRelease master s
  | .errNRelease => Sys2Proof.Machine.execErrNRelease s
  | .sagWarn rail => Sys2Proof.Machine.execSagWarn rail s
  | .sagWarnClear => Sys2Proof.Machine.execSagWarnClear s
  | .sagReset rail => Sys2Proof.Machine.execSagReset rail s
  | .railOutOfWindow rail => Sys2Proof.Machine.execRailOutOfWindow rail s
  | .thermSample readings => Sys2Proof.Machine.execThermSample readings s
  | .refclkFault clock => Sys2Proof.Machine.execRefclkFault clock s
  | .d2dLinkFault d => Sys2Proof.Machine.execD2dLinkFault d s
  | .fabricBufferError => Sys2Proof.Machine.execFabricBufferError s
  | .patrolScrub channel addr device bits uncorrectable => Sys2Proof.Machine.execPatrolScrub channel addr device bits uncorrectable s
  | .fuseProgram ok => Sys2Proof.Machine.execFuseProgram ok s
  | .ageMeasure c deg => Sys2Proof.Machine.execAgeMeasure c deg s
  | .lifeUpdate hour => Sys2Proof.Machine.execLifeUpdate hour s
  | .coldReset cause => Sys2Proof.Machine.execColdReset cause s
  | .coldBoot b => Sys2Proof.Machine.execColdBoot b s
  | .dramInitDone => Sys2Proof.Machine.execDramInitDone s
  | .warmReset cause => Sys2Proof.Machine.execWarmReset cause s
  | .clusterReset c => Sys2Proof.Machine.execClusterReset c s
  | .lpRestart lp => Sys2Proof.Machine.execLpRestart lp s
  | .portBlockReset p => Sys2Proof.Machine.execPortBlockReset p s
  | .bistGo master scope unit kind => Sys2Proof.Machine.execBistGo master scope unit kind s
  | .bistDone fail => Sys2Proof.Machine.execBistDone fail s
  | .lensSnapArm master => Sys2Proof.Machine.execLensSnapArm master s
  | .lensFreezeArm master freeze => Sys2Proof.Machine.execLensFreezeArm master freeze s
  | .lensSnapshot => Sys2Proof.Machine.execLensSnapshot s
  | .lensFreeze => Sys2Proof.Machine.execLensFreeze s
  | .lensWrap page unit gain => Sys2Proof.Machine.execLensWrap page unit gain s
  | .vddAonPowerUp => Sys2Proof.Machine.execVddAonPowerUp s
  | .powerLoss dramKept => Sys2Proof.Machine.execPowerLoss dramKept s
  | .blockLockAcquired p => Sys2Proof.Machine.execBlockLockAcquired p s
  | .lackSend l => Sys2Proof.Machine.execLackSend l s
  | .linkRxError l e => Sys2Proof.Machine.execLinkRxError l e s
  | .linkDisableWrite master l => Sys2Proof.Machine.execLinkDisableWrite master l s
  | .dramAlert channel thermal => Sys2Proof.Machine.execDramAlert channel thermal s
  | .errorInputPacedDelivery lp input => Sys2Proof.Machine.execErrorInputPacedDelivery lp input s
  | .prpSupervisionFrame pair => Sys2Proof.Machine.execPrpSupervisionFrame pair s
  | .ptpMessageSend p msg => Sys2Proof.Machine.execPtpMessageSend p msg s

end Sys2Proof.Machine
end

