-- ==== Sys2Proof/Machine/Idle.lean ====
section
/-! DEFINITION. What the passing of time does while no command waits. -/

namespace Sys2Proof.Machine

/-- One nanosecond of the time clock passes (11 R312, R314; DESIGN CHOICE, log 1): the timebase and the slew in progress advance,
and a trip test whose timeout is over ends (14 R390). -/
def State.idle (s : State) : State := s.tick.tripTimeout

end Sys2Proof.Machine
end

