-- ==== Sys2Proof/Safety.lean ====
section
/-! DEFINITION. What a safe run is, and the conditions under which a command's own effect takes place: an instruction whose operands
are ready, and a command of Yafolo that is taken. Statements use them as hypotheses. -/

namespace Sys2Proof.Safety

open Sys2Proof.Machine

/-- The step from a state gives a next state. -/
def goesOn (s : State) : Bool :=
  match step s with
  | .next _ => true
  | _ => false

/-- Nothing stands before the operands of an instruction: the logical processor runs with no blocking post outstanding (13 R368),
the fetch is granted (03 R91), the level is low enough (04 R131), and the encoding is legal (03 R86, R87). -/
def mayBegin (s : State) (n opBytes maxLevel : Nat) (os : List Opd) : Bool :=
  s.canRun n && !s.stuck n && (s.fetchTrap n (instrLen opBytes os)).isNone && decide ((s.lp n).level ≤ maxLevel) &&
    (encodingFault (instrLen opBytes os) os).isNone && !(os.any fun o => isReserved o.spec)

/-- The operation of an instruction begins (03 R85): the state after its operands are addressed and read, its operands, and the
address of the next instruction; none where the instruction traps or waits before it. -/
def operandsReady (s : State) (n opBytes maxLevel : Nat) (os : List Opd) : Option (State × Ready × Nat) :=
  if mayBegin s n opBytes maxLevel os then
    match (s.fetchFills n (instrLen opBytes os)).places n 1 os with
    | (s1, ps, late) =>
      match s1.fetchOpds n late 1 os ps with
      | .error _ => none
      | .ok (s2, vs) =>
        some (if touchesMem (s2.lp n) os ps then s2.onLp n fun p => { p with rsv := none } else s2, ⟨os, ps, vs⟩,
          ((s.lp n).pc.toNat + instrLen opBytes os) % 2 ^ 52)
  else none

/-- The string instruction without a prefix that does one element of an operation (04 R123). -/
def strInstr (n : Nat) : StrOp → Option Instr
  | .smov => some (.smov n)
  | .smovr => some (.smovr n)
  | .scmp d => some (.scmp n d)
  | .sscn d a => some (.sscn n d a)
  | .sscnn d a => some (.sscnn n d a)
  | .sfil a => some (.sfil n a)
  | .sxlt t => some (.sxlt n t)
  | .scrc m => some (.scrc n m)
  | .ssum m => some (.ssum n m)
  | .sspn d t => some (.sspn n d t)
  | .sand => some (.sand n)
  | .sor => some (.sor n)
  | .sxor => some (.sxor n)
  | .spopc m => some (.spopc n m)
  | .sxch => some (.sxch n)
  | .notString _ => none

/-- The elements of an RPT instruction, one after the other, while no event can be taken (04 R125). -/
def elementsDone (s : State) (n : Nat) (e : StrElem) (os : List Opd) : Nat → Option State
  | 0 => some s
  | k + 1 =>
    match s.rptElement n e os with
    | .error _ => none
    | .ok s1 => if (s1.nextEvent n).isSome then none else elementsDone s1 n e os k

/-- A command of Yafolo is taken and passes the checks that stand before its own (14 R379, R381, R383-R386, R389). -/
def accepted (h : CmdHdr) (opcode : Nat) (args : List Nat) (b : By) (s : State) : Bool :=
  cmdExists h && s.yafTakes h && (s.yafCheck h (opcode == 1) args b).isNone

/-- A command of Yafolo done: its completion OK, with its results (14 R380, R382). -/
def yafDone (h : CmdHdr) (opcode : Nat) (t : State) (res : List Byte) : State :=
  t.complete h.master h.cp h.tag.toNat opcode .ok none true res

/-- A command of Yafolo turned away: its completion, with nothing applied (14 R382, R393). -/
def yafNot (h : CmdHdr) (opcode : Nat) (t : State) (c : Code) (detail : Option Nat) : State :=
  t.complete h.master h.cp h.tag.toNat opcode c detail false []

/-- A write of `size` bytes at an offset, by a master that is there on a device that has not shut down, reaches the register of a name and
instance, and the register's chapter lets that master write it (01 R25, 00 R9). -/
def reaches (s : State) (master off size : Nat) (nm : RegName) (ix : List Nat) : Bool :=
  !s.shutdown && s.masterPresent master && masterExists master &&
    (match s.regTo off size with
      | .reg d i => d.name == nm && i == ix && (s.writer d i off).admits master (s.privOf master)
      | _ => false)

/-- What an instruction that writes its first operand and the flags leaves: both written, and the instruction committed. -/
def written (s : State) (r : Ready) (n next x : Nat) (f : Flags) : State := ((r.put s n 0 x).setFlags n f).commit n next

/-- What an instruction that writes its first operand and no flag leaves. -/
def moved (s : State) (r : Ready) (n next x : Nat) : State := (r.put s n 0 x).commit n next

/-- A trap taken from the state before the instruction (03 R94). -/
def trapped (s : State) (n : Nat) (t : Trap) : State := s.trap n t (s.lp n).pc.toNat

end Sys2Proof.Safety
end

