-- ==== Sys2Proof/WellFormed.lean ====
section
/-! DEFINITION. Well-formed commands: those whose units, masters and causes this device has. Exactly these have an effect; the others
name something that does not exist. -/

namespace Sys2Proof

open Sys2Proof.Machine

/-- Whether the units that a command names exist: slot numbers 0-97 (01 R15), ports and links 0-127, queues and channels 0-4095, job
engines 0-35, sources 0-767, masters of 01 R25, registers of the window, and so on through the manual's counts. -/
def Instr.wellFormed (i : Instr) : Bool :=
  match i with
  | .registerWrite master off size .. => masterExists master && [1, 2, 4, 8].contains size && decide (off < 0x1000000000)
  | .lockSet master off => masterExists master && (lockOf off).isSome
  | .fifoDelivery .. | .formation | .referenceSwitch | .referenceReturn | .ppsInEdge | .ppsOutPulse | .disciplineSample ..
  | .sourceLossTimeout | .slewComplete | .tripTestFrameInject .. | .hostLinkDown | .hostLinkUp | .conventionalReset
  | .hdmCommit .. | .cxlMemRead .. | .cxlMemWrite .. | .hostSnoop .. | .errNRelease | .sagWarnClear | .thermSample ..
  | .fabricBufferError | .fuseProgram .. | .lifeUpdate .. | .coldBoot .. | .dramInitDone | .bistDone .. | .lensSnapshot
  | .lensFreeze | .vddAonPowerUp | .powerLoss .. => true
  | .retry c k .. | .repairSequence c k .. | .proactiveRepair c k .. => decide (c < 16) && decide (k < 3)
  | .cpRepair i .. => decide (i < 2)
  | .tamlerHalt lp | .tamlerAccess lp .. | .tamlerSingleStep lp | .tamlerPerCoreAccess lp | .tamlerExit lp | .adc lp ..
  | .add lp .. | .sub lp .. | .sbc lp .. | .cmp lp .. | .tst lp .. | .and lp .. | .or lp .. | .xor lp .. | .shl lp ..
  | .shr lp .. | .sar lp .. | .rot lp .. | .mul lp .. | .div lp .. | .divu lp .. | .rem lp .. | .remu lp .. | .mov lp ..
  | .mova lp .. | .movz lp .. | .movs lp .. | .extu lp .. | .exts lp .. | .ins lp .. | .popc lp .. | .clz lp .. | .ctz lp ..
  | .bswap lp .. | .mulx lp .. | .mulxu lp .. | .sel lp .. | .bcc lp .. | .call lp .. | .ret lp .. | .loop lp .. | .bbs lp ..
  | .bbc lp .. | .jtab lp .. | .scond lp .. | .svc lp .. | .bkpt lp | .eret lp | .nop lp | .wfi lp | .wfiWake lp
  | .cbcc lp .. | .fadd lp .. | .fsub lp .. | .fmul lp .. | .fdiv lp .. | .fsqrt lp .. | .fma lp .. | .fcmp lp ..
  | .fcmps lp .. | .fmin lp .. | .fmax lp .. | .fclass lp .. | .cvtfi lp .. | .cvtfu lp .. | .cvtif lp .. | .cvtuf lp ..
  | .cvtfp lp .. | .cvtpf lp .. | .frint lp .. | .fcvt lp .. | .pdadd lp .. | .pdsub lp .. | .pdcmp lp .. | .pdchk lp ..
  | .pdmov lp .. | .pdmul lp .. | .pddiv lp .. | .pdrem lp .. | .pdshl lp .. | .pdshr lp .. | .pdneg lp .. | .pdabs lp ..
  | .cvtpb lp .. | .cvtbp lp .. | .rpt lp .. | .smov lp | .smovr lp | .scmp lp .. | .sscn lp .. | .sscnn lp .. | .sfil lp ..
  | .sxlt lp .. | .scrc lp .. | .ssum lp .. | .sspn lp .. | .sand lp | .sor lp | .sxor lp | .spopc lp .. | .sxch lp
  | .swp lp .. | .cas lp .. | .ldadd lp .. | .ldor lp .. | .ldand lp .. | .ldres lp .. | .stcond lp .. | .fence lp
  | .fenceL lp | .fenceS lp | .mfsr lp .. | .mtsr lp .. | .psWrite lp .. | .wpWrite lp .. | .regionTableWrite lp ..
  | .rdtime lp .. | .clineClean lp .. | .clineInval lp .. | .clineCleaninval lp .. | .clineZero lp .. | .clineUnlock lp ..
  | .pflk lp .. | .pref lp .. | .isync lp | .lpstop lp | .reservedOpcode lp .. | .vectorEntry lp | .storeDrain lp
  | .l1InvalidationApply lp | .lpRestart lp => decide (lp < 98)
  | .intcSwiRaise master c k => masterExists master && decide (c < 16) && decide (k < 6)
  | .cacheFill c | .timerFire c .. | .ageMeasure c .. | .clusterReset c => decide (c < 16)
  | .evictionDone u | .scrub u .. | .eccCounterDecay u | .wayRetirement u => unitExists u
  | .lockenWrite master u .. => masterExists master && unitExists u
  | .rmClean master e .. | .rmInval master e .. | .rmCleaninval master e .. | .rmLockfill master e .. | .rmUnlock master e ..
  | .rmZero master e .. => masterExists master && rmExists e
  | .rmDone e => rmExists e
  | .durWrite master i .. => masterExists master && decide (i < 8)
  | .queueDoorbell master q .. | .tqEnableWrite master q | .tqDisableWrite master q => masterExists master && decide (q < 4096)
  | .send q .. | .receive q | .exchange q .. | .copy q .. | .group q .. | .timedSend q .. | .timedSendRelease q ..
  | .holdRelease q | .deadlineExpiry q | .retransmit q .. | .ackTimeout q .. | .ackmarkWrite q ..
  | .completionDeferredWrite q => decide (q < 4096)
  | .nvjScrub row .. => decide (row < 16384)
  | .engineRetry i .. => decide (i < 18)
  | .engineHandover logical => decide (logical < 16)
  | .frameReceive p .. | .hsrForward p .. | .frameStart p | .blockLockLoss p | .moduleLifeUpdate p .. | .spareLaneMove p ..
  | .portBlockReset p | .blockLockAcquired p | .ptpMessageSend p .. => decide (p < 128)
  | .gooseRepetition pub => decide (pub < 4096)
  | .svStale g .. | .gooseStale g .. => decide (g < 8)
  | .ddtEntryForget pair | .prpSupervisionFrame pair => decide (pair < 64)
  | .portEnableWrite master p .. | .portDisableWrite master p | .msecCfgWrite master p .. =>
    masterExists master && decide (p < 128)
  | .expanderPoll bus .. => decide (bus < 16)
  | .linkEnable master l .. | .linkDisableWrite master l => masterExists master && decide (l < 128)
  | .initReceived l .. | .alignSend l .. | .lackReceived l .. | .creditReceived l .. | .replayTimeout l | .packetSend l
  | .packetForward l .. | .dataPacket l .. | .ackPacket l .. | .refusePacket l .. | .formPacket l .. | .timePacket l ..
  | .laneLoss l .. | .tsyncSend l | .tsyncRequestReceived l .. | .tsyncReplyReceived l .. | .lackSend l | .linkRxError l .. =>
    decide (l < 128)
  | .reassemblyTimeout e => decide (e < 16)
  | .timeCopyCorrection island => decide (island < 0x1F)
  | .timeStep master .. | .timeSlew master .. | .timeCtrlSrcWrite master .. | .keyCmdLoad master .. | .keyCmdClear master ..
  | .keyCmdLock master .. | .errPinForce master | .errPinRelease master | .bistGo master .. | .lensSnapArm master
  | .lensFreezeArm master .. => masterExists master
  | .prismDoorbell master j .. | .cipherDoorbell master j .. | .jobRingEnable master _ j | .jobRingDisable master _ j =>
    masterExists master && decide (j < 36)
  | .jobDispatch _ e | .compress e | .decompress e | .prismJobEnd e | .encrypt e | .decrypt e | .hash e | .hmacGen e
  | .hmacVerify e | .cipherJobEnd e | .engineMismatch _ e => decide (e < 36)
  | .mbxTxWrite master ch i .. => masterExists master && decide (ch < 4096) && decide (i < 8)
  | .post master ch | .blockingPost master ch .. | .mbxRingWrite master ch .. | .pop master ch .. | .bindWrite master ch .. =>
    masterExists master && decide (ch < 4096)
  | .postTimeout ch => decide (ch < 4096)
  | .doorbellClear master r .. | .doorbellMaskWrite master r .. => masterExists master && (receiverId r).isSome
  | .doorbellPacedDelivery r bit => (receiverId r).isSome && decide (bit < 32)
  | .hello h .. | .getInfo h | .setIdentity h .. | .eventMask h .. | .lockConfig h | .partCreate h .. | .partDestroy h ..
  | .progLoad h .. | .lpStart h .. | .lpStop h .. | .lpStatus h .. | .lockRange h .. | .unlockRange h .. | .setDurable h ..
  | .queueRings h .. | .queueParams h .. | .queueEnable h .. | .queueDisable h .. | .queueRebind h .. | .queueStatus h ..
  | .teDisable h .. | .domainSet h .. | .resumeReport h .. | .portUp h .. | .portDown h .. | .portStatus h ..
  | .tableWrite h .. | .pubTable h .. | .saLoad h .. | .moduleInfo h .. | .moduleCfg h .. | .linkUp h .. | .timeSource h ..
  | .timeSet h .. | .timeStatus h | .ptpConfig h .. | .ppsConfig h .. | .utcSet h .. | .ringConfig h .. | .ringEnable h ..
  | .ringDisable h .. | .keyLoad h .. | .keyClear h .. | .keyLock h .. | .engineDisable h .. | .chanBind h ..
  | .chanClose h .. | .chanStatus h .. | .errReactSet h .. | .errStatus h .. | .errClear h .. | .spareStatus h
  | .repairNow h .. | .wearCfg h .. | .clusterOffline h .. | .clusterOnline h .. | .bistRun h .. | .cmpTest h ..
  | .tripTest h .. | .vfEnable h .. | .vfAssign h .. | .vfRelease h .. | .dirtyLogStart h .. | .dirtyLogSwap h ..
  | .dirtyLogStop h .. | .reset h .. | .powerDown h | .fwStage h .. | .fwActivate h .. | .fwStatus h => cmdExists h
  | .badOpcode h opcode flags => cmdExists h && !(flags == 1 && opcodes.contains opcode.toNat)
  | .completionPostRetry master cp => cmdExists ⟨master, cp, 0, 0, 0, true⟩
  | .cxlLinkTraining _ speed width => decide (speed ≠ 0) && decide (2 ≤ width.toNat) && decide (width.toNat ≤ 4)
  | .functionLevelReset fn | .atsInvalidation fn .. | .msixUnmask fn .. => decide (fn < 64)
  | .barAccess bar .. => barHas bar
  | .sourceRaise n => decide (n < 768)
  | .errSrcClear master n => masterExists master && decide (n < 768)
  | .errFirstClear master g | .errReactWrite master g .. => masterExists master && decide (g < 24)
  | .sagWarn rail | .sagReset rail => decide (rail < 7)
  | .railOutOfWindow rail => decide (rail < 10)
  | .refclkFault clock => decide (clock < 10)
  | .d2dLinkFault d => decide (d < 4)
  | .patrolScrub channel .. | .dramAlert channel .. => decide (channel < 16)
  | .coldReset cause => [1, 2, 3, 7].contains cause
  | .warmReset cause => [4, 5, 6].contains cause
  | .lensWrap page i .. => lensCounter (0x34000000 + page * 4096 + i * 8)
  | .errorInputPacedDelivery lp input => decide (lp < 98) && decide (input < 3)

end Sys2Proof
end

