-- ==== Sys2Proof/Certificates/Slice0/Obligations.lean ====
section
/-! DEFINITION. The statements about the model, one for each family of commands and each kind of state, from the rules of the manual. A
rule number in a docstring names what a statement is taken from; where a statement states a rule whole, its entry in the list says so. -/

open Sys2Proof Sys2Proof.Machine Sys2Proof.Safety

/-- From 04 R111 and R113: ADD, ADC, SUB and SBC in every size. The result modulo 2^w and the four flags by the sums and the sign bits, and
INT_OVERFLOW with nothing written where v and PS.iov are both 1. -/
def Obligations.AddSubtract : Prop :=
  ∀ (n : Nat) (d a b : Spec) (s s1 : State) (r : Ready) (next : Nat), n < 98 →
    (∀ sz : Size, operandsReady s n 1 3 [odst d (sizeBytes sz), osrc a (sizeBytes sz), osrc b (sizeBytes sz)] = some (s1, r, next) →
      ∀ w res : Nat, w = 8 * sizeBytes sz → res = (r.val 1 + r.val 2) % 2 ^ w →
      ∃ f : Flags, (f.n = true ↔ 2 ^ (w - 1) ≤ res) ∧ (f.z = true ↔ res = 0) ∧ (f.c = true ↔ 2 ^ w ≤ r.val 1 + r.val 2) ∧
        (f.v = true ↔ sgn w (r.val 1) = sgn w (r.val 2) ∧ sgn w res ≠ sgn w (r.val 1)) ∧
        (¬ (f.v = true ∧ bitOf (s1.lp n).ps.toNat 16 = true) → exec (.add n sz d a b) s = .next (written s1 r n next res f)) ∧
        (f.v = true ∧ bitOf (s1.lp n).ps.toNat 16 = true → exec (.add n sz d a b) s = .next (trapped s n (mkTrap 0x0B 0 0 0)))) ∧
    (∀ sz : Size, operandsReady s n 1 3 [odst d (sizeBytes sz), osrc a (sizeBytes sz), osrc b (sizeBytes sz)] = some (s1, r, next) →
      ∀ w res : Nat, w = 8 * sizeBytes sz → res = wrapInt ((r.val 1 : Int) - r.val 2) w →
      ∃ f : Flags, (f.n = true ↔ 2 ^ (w - 1) ≤ res) ∧ (f.z = true ↔ res = 0) ∧ (f.c = true ↔ r.val 1 < r.val 2) ∧
        (f.v = true ↔ sgn w (r.val 1) ≠ sgn w (r.val 2) ∧ sgn w res ≠ sgn w (r.val 1)) ∧
        (¬ (f.v = true ∧ bitOf (s1.lp n).ps.toNat 16 = true) → exec (.sub n sz d a b) s = .next (written s1 r n next res f)) ∧
        (f.v = true ∧ bitOf (s1.lp n).ps.toNat 16 = true → exec (.sub n sz d a b) s = .next (trapped s n (mkTrap 0x0B 0 0 0)))) ∧
    (∀ sz : Sys2Proof.ISize, operandsReady s n 1 3 [odst d (isize sz), osrc a (isize sz), osrc b (isize sz)] = some (s1, r, next) →
      ∀ w res : Nat, w = 8 * isize sz → res = (r.val 1 + r.val 2 + bit01 (s1.flagsOf n).c) % 2 ^ w →
      ∃ f : Flags, (f.n = true ↔ 2 ^ (w - 1) ≤ res) ∧ (f.z = true ↔ res = 0) ∧
        (f.c = true ↔ 2 ^ w ≤ r.val 1 + r.val 2 + bit01 (s1.flagsOf n).c) ∧
        (f.v = true ↔ sgn w (r.val 1) = sgn w (r.val 2) ∧ sgn w res ≠ sgn w (r.val 1)) ∧
        (¬ (f.v = true ∧ bitOf (s1.lp n).ps.toNat 16 = true) → exec (.adc n sz d a b) s = .next (written s1 r n next res f)) ∧
        (f.v = true ∧ bitOf (s1.lp n).ps.toNat 16 = true → exec (.adc n sz d a b) s = .next (trapped s n (mkTrap 0x0B 0 0 0)))) ∧
    (∀ sz : Sys2Proof.ISize, operandsReady s n 1 3 [odst d (isize sz), osrc a (isize sz), osrc b (isize sz)] = some (s1, r, next) →
      ∀ w res : Nat, w = 8 * isize sz → res = wrapInt ((r.val 1 : Int) - r.val 2 - bit01 (s1.flagsOf n).c) w →
      ∃ f : Flags, (f.n = true ↔ 2 ^ (w - 1) ≤ res) ∧ (f.z = true ↔ res = 0) ∧
        (f.c = true ↔ r.val 1 < r.val 2 + bit01 (s1.flagsOf n).c) ∧
        (f.v = true ↔ sgn w (r.val 1) ≠ sgn w (r.val 2) ∧ sgn w res ≠ sgn w (r.val 1)) ∧
        (¬ (f.v = true ∧ bitOf (s1.lp n).ps.toNat 16 = true) → exec (.sbc n sz d a b) s = .next (written s1 r n next res f)) ∧
        (f.v = true ∧ bitOf (s1.lp n).ps.toNat 16 = true → exec (.sbc n sz d a b) s = .next (trapped s n (mkTrap 0x0B 0 0 0))))

/-- From 04 R110 to R113: AND, OR, XOR, SHL, SHR, SAR, ROT, MUL, DIV, DIVU, REM and REMU. The results and the flags of 04 R112: c is the last
bit shifted out, a count beyond the width empties the value, a count of zero leaves it with c zero; MUL sets v and c where the signed
product does not fit; DIV rounds toward zero and sets v for the one quotient that does not fit; REM takes the sign of the dividend; v with
PS.iov raises INT_OVERFLOW, and a divisor of zero INT_DIVIDE, with nothing written. -/
def Obligations.ShiftsMultiplyDivide : Prop :=
  (∀ (n : Nat) (d a b : Spec) (s s1 : State) (r : Ready) (next : Nat), n < 98 →
      (∀ sz : Size, operandsReady s n 1 3 [odst d (sizeBytes sz), osrc a (sizeBytes sz), osrc b (sizeBytes sz)] = some (s1, r, next) →
        ∀ w : Nat, w = 8 * sizeBytes sz →
          exec (.and n sz d a b) s = .next (written s1 r n next (r.val 1 &&& r.val 2) (logicFlags w (r.val 1 &&& r.val 2))) ∧
          exec (.or n sz d a b) s = .next (written s1 r n next (r.val 1 ||| r.val 2) (logicFlags w (r.val 1 ||| r.val 2))) ∧
          exec (.xor n sz d a b) s = .next (written s1 r n next (r.val 1 ^^^ r.val 2) (logicFlags w (r.val 1 ^^^ r.val 2)))) ∧
      (∀ sz : Sys2Proof.ISize, operandsReady s n 1 3 [odst d (isize sz), osrc a (isize sz), osrc b (isize sz)] = some (s1, r, next) →
        ∀ w x k : Nat, w = 8 * isize sz → x = r.val 1 → k = r.val 2 →
          (k = 0 → ∀ f : Flags, f = ⟨sgn w x, x == 0, false, false⟩ → x < 2 ^ w →
            exec (.shl n sz d a b) s = .next (written s1 r n next x f) ∧ exec (.shr n sz d a b) s = .next (written s1 r n next x f) ∧
            exec (.sar n sz d a b) s = .next (written s1 r n next x f)) ∧
          (k % w = 0 → x < 2 ^ w →
            exec (.rot n sz d a b) s = .next (written s1 r n next x ⟨sgn w x, x == 0, false, false⟩)) ∧
          (1 ≤ k ∧ k ≤ w →
            (∀ y : Nat, y = x * 2 ^ k % 2 ^ w →
              exec (.shl n sz d a b) s = .next (written s1 r n next y ⟨sgn w y, y == 0, false, bitOf x (w - k)⟩)) ∧
            (∀ y : Nat, y = x / 2 ^ k →
              exec (.shr n sz d a b) s = .next (written s1 r n next y ⟨sgn w y, y == 0, false, bitOf x (k - 1)⟩)) ∧
            (∀ y : Nat, y = wrapInt (signed x w / (2 ^ k : Nat)) w →
              exec (.sar n sz d a b) s = .next (written s1 r n next y ⟨sgn w y, y == 0, false, bitOf x (k - 1)⟩))) ∧
          (w < k →
            exec (.shl n sz d a b) s = .next (written s1 r n next 0 ⟨false, true, false, false⟩) ∧
            exec (.shr n sz d a b) s = .next (written s1 r n next 0 ⟨false, true, false, false⟩) ∧
            (x < 2 ^ w → exec (.sar n sz d a b) s =
              .next (written s1 r n next (if sgn w x then 2 ^ w - 1 else 0) ⟨sgn w x, !sgn w x, false, sgn w x⟩))) ∧
          (k % w ≠ 0 → ∀ y : Nat, y = (x * 2 ^ (k % w) + x / 2 ^ (w - k % w)) % 2 ^ w →
            exec (.rot n sz d a b) s = .next (written s1 r n next y ⟨sgn w y, y == 0, false, bitOf y 0⟩)) ∧
          (∀ p : Int, p = signed x w * signed k w →
            ∃ v : Bool, (v = true ↔ ¬ (-(2 ^ (w - 1) : Int) ≤ p ∧ p < (2 ^ (w - 1) : Int))) ∧
              (¬ (v = true ∧ bitOf (s1.lp n).ps.toNat 16 = true) → exec (.mul n sz d a b) s =
                .next (written s1 r n next (wrapInt p w) ⟨sgn w (wrapInt p w), wrapInt p w == 0, v, v⟩)) ∧
              (v = true ∧ bitOf (s1.lp n).ps.toNat 16 = true →
                exec (.mul n sz d a b) s = .next (trapped s n (mkTrap 0x0B 0 0 0)))))) ∧
  (∀ (n : Nat) (d a b : Spec) (s s1 : State) (r : Ready) (next : Nat), n < 98 →
      (∀ sz : Sys2Proof.ISize, operandsReady s n 1 3 [odst d (isize sz), osrc a (isize sz), osrc b (isize sz)] = some (s1, r, next) →
        (r.val 2 = 0 → exec (.div n sz d a b) s = .next (trapped s n (mkTrap 0x0A 0 0 0)) ∧
          exec (.divu n sz d a b) s = .next (trapped s n (mkTrap 0x0A 0 0 0))) ∧
        (r.val 2 ≠ 0 → ∀ w : Nat, w = 8 * isize sz →
          exec (.divu n sz d a b) s =
            .next (written s1 r n next (r.val 1 / r.val 2) ⟨sgn w (r.val 1 / r.val 2), r.val 1 / r.val 2 == 0, false, false⟩) ∧
          ∀ q : Int, q = (signed (r.val 1) w).tdiv (signed (r.val 2) w) →
            ∃ v : Bool, (v = true ↔ ¬ (-(2 ^ (w - 1) : Int) ≤ q ∧ q < (2 ^ (w - 1) : Int))) ∧
              (¬ (v = true ∧ bitOf (s1.lp n).ps.toNat 16 = true) → exec (.div n sz d a b) s =
                .next (written s1 r n next (wrapInt q w) ⟨sgn w (wrapInt q w), wrapInt q w == 0, v, false⟩)) ∧
              (v = true ∧ bitOf (s1.lp n).ps.toNat 16 = true →
                exec (.div n sz d a b) s = .next (trapped s n (mkTrap 0x0B 0 0 0))))) ∧
      (operandsReady s n 1 3 [odst d 8, osrc a 8, osrc b 8] = some (s1, r, next) →
        (r.val 2 = 0 → exec (.rem n d a b) s = .next (trapped s n (mkTrap 0x0A 0 0 0)) ∧
          exec (.remu n d a b) s = .next (trapped s n (mkTrap 0x0A 0 0 0))) ∧
        (r.val 2 ≠ 0 →
          exec (.remu n d a b) s = .next (written s1 r n next (r.val 1 % r.val 2) (logicFlags 64 (r.val 1 % r.val 2))) ∧
          ∀ x : Nat, x = wrapInt ((signed (r.val 1) 64).tmod (signed (r.val 2) 64)) 64 →
            exec (.rem n d a b) s = .next (written s1 r n next x (logicFlags 64 x)))))

/-- From 04 R110, R113: CMP and TST write the flags of a − b and of a AND b, and nothing else but the commit. -/
def Obligations.CompareTest : Prop :=
  ∀ (n : Nat) (a b : Spec) (s s1 : State) (r : Ready) (next : Nat), n < 98 →
    (∀ sz : Size, operandsReady s n 1 3 [osrc a (sizeBytes sz), osrc b (sizeBytes sz)] = some (s1, r, next) →
      ∀ w res : Nat, w = 8 * sizeBytes sz → res = wrapInt ((r.val 0 : Int) - r.val 1) w →
      ∃ f : Flags, exec (.cmp n sz a b) s = .next ((s1.setFlags n f).commit n next) ∧
        (f.n = true ↔ 2 ^ (w - 1) ≤ res) ∧ (f.z = true ↔ res = 0) ∧ (f.c = true ↔ r.val 0 < r.val 1) ∧
        (f.v = true ↔ sgn w (r.val 0) ≠ sgn w (r.val 1) ∧ sgn w res ≠ sgn w (r.val 0))) ∧
    (∀ sz : Sys2Proof.ISize, operandsReady s n 1 3 [osrc a (isize sz), osrc b (isize sz)] = some (s1, r, next) →
      exec (.tst n sz a b) s =
        .next ((s1.setFlags n (logicFlags (8 * isize sz) (r.val 0 &&& r.val 1))).commit n next))

/-- From 04 R113 and R114: the moves, extensions, bit fields, counts, byte reversal, full products and the select. -/
def Obligations.MovesAndFields : Prop :=
  ∀ (n : Nat) (d a b : Spec) (s s1 : State) (r : Ready) (next : Nat), n < 98 →
    (∀ sz : Size, operandsReady s n 1 3 [odst d (sizeBytes sz), osrc a (sizeBytes sz)] = some (s1, r, next) →
      exec (.mov n sz d a) s = .next (moved s1 r n next (r.val 1))) ∧
    (operandsReady s n 1 3 [odst d 8, oadr a] = some (s1, r, next) →
      exec (.mova n d a) s = .next (moved s1 r n next (r.val 1))) ∧
    (∀ sz : SSize, operandsReady s n 1 3 [odst d 8, osrc a (ssize sz)] = some (s1, r, next) →
      exec (.movz n sz d a) s = .next (moved s1 r n next (r.val 1)) ∧
      exec (.movs n sz d a) s = .next (moved s1 r n next (wrapInt (signed (r.val 1) (8 * ssize sz)) 64))) ∧
    (operandsReady s n 1 3 [odst d 8, osrc a 8, osrc b 2] = some (s1, r, next) →
      ∀ pos len x : Nat, pos = r.val 2 % 64 → len = r.val 2 / 256 % 64 + 1 → x = r.val 1 / 2 ^ pos % 2 ^ len →
        exec (.extu n d a b) s = .next (moved s1 r n next x) ∧
        exec (.exts n d a b) s = .next (moved s1 r n next (wrapInt (signed x len) 64))) ∧
    (operandsReady s n 1 3 [ormw d 8, osrc a 8, osrc b 2] = some (s1, r, next) → r.val 0 < 2 ^ 64 →
      ∀ pos len : Nat, pos = r.val 2 % 64 → len = min (r.val 2 / 256 % 64 + 1) (64 - pos) →
        ∃ x : Nat, exec (.ins n d a b) s = .next (moved s1 r n next x) ∧
          ∀ i : Nat, i < 64 → bitOf x i = if pos ≤ i ∧ i < pos + len then bitOf (r.val 1) (i - pos) else bitOf (r.val 0) i) ∧
    (operandsReady s n 1 3 [odst d 8, osrc a 8] = some (s1, r, next) →
      exec (.popc n d a) s = .next (written s1 r n next (popCount (r.val 1) 64) ⟨false, popCount (r.val 1) 64 == 0, false, false⟩) ∧
      (∃ k : Nat, k ≤ 64 ∧ exec (.clz n d a) s = .next (written s1 r n next k ⟨false, k == 0, false, false⟩) ∧
        (∀ i : Nat, 64 - k ≤ i → i < 64 → bitOf (r.val 1) i = false) ∧ (k < 64 → bitOf (r.val 1) (63 - k) = true)) ∧
      (∃ k : Nat, k ≤ 64 ∧ exec (.ctz n d a) s = .next (written s1 r n next k ⟨false, k == 0, false, false⟩) ∧
        (∀ i : Nat, i < k → bitOf (r.val 1) i = false) ∧ (k < 64 → bitOf (r.val 1) k = true))) ∧
    (∀ sz : HSize, operandsReady s n 1 3 [odst d (hsize sz), osrc a (hsize sz)] = some (s1, r, next) →
      exec (.bswap n sz d a) s = .next (moved s1 r n next (leNat (natBytes (hsize sz) (r.val 1)).reverse))) ∧
    (operandsReady s n 1 3 [odst d 16, osrc a 8, osrc b 8] = some (s1, r, next) →
      (∀ x : Nat, x = wrapInt (signed (r.val 1) 64 * signed (r.val 2) 64) 128 →
        exec (.mulx n d a b) s = .next (written s1 r n next x (logicFlags 128 x))) ∧
      exec (.mulxu n d a b) s = .next (written s1 r n next (r.val 1 * r.val 2) (logicFlags 128 (r.val 1 * r.val 2)))) ∧
    (operandsReady s n 1 3 [odst d 8, osrc a 8, osrc b 8] = some (s1, r, next) →
      exec (.sel n d a b) s = .next (moved s1 r n next (if (psFlags (s1.lp n).ps).z then r.val 1 else r.val 2)))

/-- From 04 R109: the condition numbers, and the two instructions that use them: Bcc goes to its target, and SCOND writes 1, exactly when the
condition of its number holds. -/
def Obligations.ConditionNumbers : Prop :=
  ∃ holds : Nat → Flags → Prop,
    (∀ f : Flags, holds 0x0 f ∧ (holds 0x1 f ↔ f.z = true) ∧ (holds 0x2 f ↔ f.z = false) ∧ (holds 0x3 f ↔ f.c = true) ∧
      (holds 0x4 f ↔ f.c = false) ∧ (holds 0x5 f ↔ f.n = true) ∧ (holds 0x6 f ↔ f.n = false) ∧ (holds 0x7 f ↔ f.v = true) ∧
      (holds 0x8 f ↔ f.v = false) ∧ (holds 0x9 f ↔ f.c = false ∧ f.z = false) ∧ (holds 0xA f ↔ f.c = true ∨ f.z = true) ∧
      (holds 0xB f ↔ f.n = f.v) ∧ (holds 0xC f ↔ f.n ≠ f.v) ∧ (holds 0xD f ↔ f.z = false ∧ f.n = f.v) ∧
      (holds 0xE f ↔ f.z = true ∨ f.n ≠ f.v) ∧ ¬ holds 0xF f) ∧
    ∀ (n : Nat) (d a t : Spec) (s s1 : State) (r : Ready) (next : Nat), n < 98 →
      (∀ k : BitVec 4, operandsReady s n 1 3 [oadr t] = some (s1, r, next) →
        (holds k.toNat (psFlags (s1.lp n).ps) → exec (.bcc n k t) s = .next (s1.commit n (r.val 0))) ∧
        (¬ holds k.toNat (psFlags (s1.lp n).ps) → exec (.bcc n k t) s = .next (s1.commit n next))) ∧
      (operandsReady s n 1 3 [odst d 1, osrc a 1] = some (s1, r, next) →
        (holds (r.val 1 % 16) (psFlags (s1.lp n).ps) → exec (.scond n d a) s = .next (moved s1 r n next 1)) ∧
        (¬ holds (r.val 1 % 16) (psFlags (s1.lp n).ps) → exec (.scond n d a) s = .next (moved s1 r n next 0)))

/-- From 04 R115 and R116, with 04 R109's conditions: branches, calls, returns, loops, bit and compare branches, SCOND and NOP go where the
manual says and change nothing else but what they write. -/
def Obligations.ControlTransfers : Prop :=
  ∀ (n : Nat) (d a b t : Spec) (s s1 : State) (r : Ready) (next : Nat), n < 98 →
    (∀ k : BitVec 4, operandsReady s n 1 3 [oadr t] = some (s1, r, next) →
      exec (.bcc n k t) s = .next (s1.commit n (if condHolds k.toNat (psFlags (s1.lp n).ps) then r.val 0 else next))) ∧
    (operandsReady s n 1 3 [odst d 8, oadr t] = some (s1, r, next) →
      exec (.call n d t) s = .next ((r.put s1 n 0 next).commit n (r.val 1))) ∧
    (operandsReady s n 1 3 [osrc a 8] = some (s1, r, next) → exec (.ret n a) s = .next (s1.commit n (r.val 0))) ∧
    (operandsReady s n 1 3 [ormw d 8, oadr t] = some (s1, r, next) → r.val 0 < 2 ^ 64 →
      (r.val 0 = 1 → exec (.loop n d t) s = .next ((r.put s1 n 0 0).commit n next)) ∧
      (r.val 0 = 0 → exec (.loop n d t) s = .next ((r.put s1 n 0 (2 ^ 64 - 1)).commit n (r.val 1))) ∧
      (1 < r.val 0 → exec (.loop n d t) s = .next ((r.put s1 n 0 (r.val 0 - 1)).commit n (r.val 1)))) ∧
    (operandsReady s n 1 3 [osrc a 8, osrc b 8, oadr t] = some (s1, r, next) →
      exec (.bbs n a b t) s = .next (s1.commit n (if bitOf (r.val 0) (r.val 1 % 64) then r.val 2 else next)) ∧
      exec (.bbc n a b t) s = .next (s1.commit n (if bitOf (r.val 0) (r.val 1 % 64) then next else r.val 2)) ∧
      (r.val 0 < 2 ^ 64 → r.val 1 < 2 ^ 64 →
        exec (.cbcc n .eq a b t) s = .next (s1.commit n (if r.val 0 = r.val 1 then r.val 2 else next)) ∧
        exec (.cbcc n .ne a b t) s = .next (s1.commit n (if r.val 0 = r.val 1 then next else r.val 2)) ∧
        exec (.cbcc n .lo a b t) s = .next (s1.commit n (if r.val 0 < r.val 1 then r.val 2 else next)) ∧
        exec (.cbcc n .lt a b t) s = .next (s1.commit n (if signed (r.val 0) 64 < signed (r.val 1) 64 then r.val 2 else next)) ∧
        exec (.cbcc n .ge a b t) s = .next (s1.commit n (if signed (r.val 0) 64 < signed (r.val 1) 64 then next else r.val 2))) ∧
      (∀ (q : Nat) (mt : MemType) (s2 : State) (v : Nat), q = (r.val 2 + 8 * min (r.val 0) (r.val 1)) % 2 ^ 64 → q % 8 = 0 →
        (s1.lp n).check q 8 .read (s1.lp n).level = .ok mt → s1.load n q 8 mt = some (s2, v) →
        exec (.jtab n a b t) s = .next ((s2.dropRsv n).commit n v))) ∧
    (operandsReady s n 1 3 [odst d 1, osrc a 1] = some (s1, r, next) →
      exec (.scond n d a) s = .next (moved s1 r n next (if condHolds (r.val 1 % 16) (psFlags (s1.lp n).ps) then 1 else 0))) ∧
    (operandsReady s n 1 3 [] = some (s1, r, next) → exec (.nop n) s = .next (s1.commit n next))

/-- From 04 R116, 03 R94 and R95: SVC takes SYSCALL with the code as the fault address, BKPT takes BREAK, each with the next instruction's
address in the frame; VECTOR_ENTRY takes the pending event, or does nothing where there is none. -/
def Obligations.TrapInstructions : Prop :=
  ∀ (n : Nat) (a : Spec) (s s1 : State) (r : Ready) (next : Nat), n < 98 →
    (operandsReady s n 1 3 [osrc a 1] = some (s1, r, next) →
      exec (.svc n a) s = .next (s.trap n ⟨0x0F, 0, 0, r.val 0, false, some next⟩ next)) ∧
    (operandsReady s n 1 3 [] = some (s1, r, next) →
      exec (.bkpt n) s = .next (s.trap n ⟨0x15, 0, 0, 0, false, some next⟩ next)) ∧
    (s.canRun n = true → s.nextEvent n = none → exec (.vectorEntry n) s = .next s) ∧
    (∀ v lvl : Nat, s.canRun n = true → s.nextEvent n = some (.interrupt v lvl) → v ≠ 0x19 → ∃ u : State,
      exec (.vectorEntry n) s =
        .next ((u.takeEvent n (mkTrap v 0 0 0) (s.lp n).pc.toNat (s.lp n).ps.toNat (some lvl)).countLp n 5 1) ∧
      u.regs = s.regs ∧ u.mem = s.mem ∧ (u.lp n).ps = (s.lp n).ps ∧
      (v = 0x18 → (u.lp n).timer = false) ∧ (v = 0x1A → (u.lp n).lens = false) ∧ (v = 0x1B → (u.lp n).err = false))

/-- From 03 R95, R97, R98 and R99: entry to a vector. The 64 bytes of the frame are stored below the target level's TSP, TSP takes their
address, PS saves the level in prev_priv, takes the target level, clears ie and rpt, an interrupt gives ipl its level, MACHINE_CHECK clears
mce, NMI sets nmi_active, and PC goes to TVB + 64 × vector. The state entered from is the one before the trapping instruction, so its stores
are squashed; the stores in the buffer, which are older, stay, and only the frame comes behind them. -/
def Obligations.VectorEntryState : Prop :=
  ∀ (s : State) (n vec framePc framePs : Nat) (t : Trap) (target : Nat) (ipl : Option Nat) (mt : MemType), target ≤ 1 →
    (s.lp n).sb.length + 9 ≤ 32 →
    ∀ u : State, u = s.enter n vec t target framePc framePs ipl mt →
      ((u.lp n).pc.toNat = ((s.lp n).tvb.toNat + 64 * vec) % 2 ^ 52) ∧
      (psPriv (u.lp n).ps = target) ∧ (bits (u.lp n).ps.toNat 10 2 = psPriv (s.lp n).ps) ∧
      (bitOf (u.lp n).ps.toNat 8 = false) ∧ (bitOf (u.lp n).ps.toNat 18 = false) ∧
      (∀ l : Nat, ipl = some l → bits (u.lp n).ps.toNat 12 4 = l % 16) ∧
      (ipl = none → bits (u.lp n).ps.toNat 12 4 = bits (s.lp n).ps.toNat 12 4) ∧
      (vec = 1 → bitOf (u.lp n).ps.toNat 9 = false) ∧ (vec = 2 → bitOf (u.lp n).ps.toNat 19 = true) ∧
      (psFlags (u.lp n).ps = psFlags (s.lp n).ps) ∧
      (target = 1 → (u.lp n).tspK = (s.lp n).tspK - 64#64 ∧ (u.lp n).tspM = (s.lp n).tspM) ∧
      (target = 0 → (u.lp n).tspM = (s.lp n).tspM - 64#64 ∧ (u.lp n).tspK = (s.lp n).tspK) ∧
      ((u.lp n).rsv = none) ∧ u.mem = s.mem ∧
      (∃ fr : List SbEntry, (u.lp n).sb = (s.lp n).sb ++ fr ∧ ∀ e : SbEntry, e ∈ fr → (2 ^ 64 - 64 + (s.lp n).tsp target) % 2 ^ 64 ≤ e.addr) ∧
      (∀ k : Nat, k < 64 → some (u.readByte n ((2 ^ 64 - 64 + (s.lp n).tsp target) % 2 ^ 64 + k)) =
        (natBytes 8 framePc ++ natBytes 4 framePs ++
          natBytes 4 (t.vec + t.detail * 256 + t.opIdx * 65536 + bit01 t.imprecise * 2 ^ 20) ++ natBytes 8 t.fault ++
          natBytes 8 (s.lp n).cnt.toNat ++ natBytes 8 (s.lp n).srcp.toNat ++ natBytes 8 (s.lp n).dstp.toNat ++
          natBytes 8 (s.stampIn (lpIsland n)).ns ++ natBytes 8 (s.stampIn (lpIsland n)).frac)[k]?)

/-- From 03 R100: ERET restores PC, PS, CNT, SRCP and DSTP from the frame and steps TSP; a frame whose level is reserved or more privileged than
the current one raises PRIVILEGE. -/
def Obligations.ReturnFromException : Prop :=
  ∀ (n : Nat) (s s1 s2 : State) (r : Ready) (next : Nat) (fr : List Byte), n < 98 →
    operandsReady s n 1 1 [] = some (s1, r, next) → s1.eretFrame n = .ok (s2, fr) →
    ∀ lvl : Nat, lvl = bits (leNat ((fr.drop 8).take 4)) 4 2 →
      (lvl ≠ 3 ∧ (s2.lp n).level ≤ lvl → ∃ p : LP, exec (.eret n) s = .next ((s2.setLp n p).commit n (leNat (fr.take 8))) ∧
        psPriv p.ps = lvl ∧ psFlags p.ps = psFlags (BitVec.ofNat 32 (leNat ((fr.drop 8).take 4))) ∧
        p.cnt = BitVec.ofNat 64 (leNat ((fr.drop 0x18).take 8)) ∧ p.srcp = BitVec.ofNat 64 (leNat ((fr.drop 0x20).take 8)) ∧
        p.dstp = BitVec.ofNat 64 (leNat ((fr.drop 0x28).take 8)) ∧ p.rsv = none ∧
        ((s2.lp n).level = 0 → p.tspM = (s2.lp n).tspM + 64#64 ∧ p.tspK = (s2.lp n).tspK) ∧
        ((s2.lp n).level = 1 → p.tspK = (s2.lp n).tspK + 64#64 ∧ p.tspM = (s2.lp n).tspM ∧
          bitOf p.ps.toNat 9 = bitOf (s2.lp n).ps.toNat 9 ∧ bitOf p.ps.toNat 19 = bitOf (s2.lp n).ps.toNat 19)) ∧
      (lvl = 3 ∨ lvl < (s2.lp n).level → exec (.eret n) s = .next (trapped s n (mkTrap 0x05 0 0 0)))

/-- From 04 R116 and R129: WFI begins a wait, or ends at once where its end is there already; the wait's end takes the pending event; LPSTOP
halts; ISYNC empties the L1 instruction cache; PREF asks for a line and never traps on it. -/
def Obligations.WaitStopSync : Prop :=
  ∀ (n : Nat) (t : Spec) (s s1 : State) (r : Ready) (next : Nat), n < 98 →
    (operandsReady s n 1 1 [] = some (s1, r, next) →
      (s1.wfiEnds n = true → exec (.wfi n) s = .next (s1.commit n next)) ∧
      (s1.wfiEnds n = false → ∃ u : State, exec (.wfi n) s = .next (u.commit n next) ∧ (u.lp n).run = .waiting ∧ u.mem = s1.mem ∧
        u.regs = s1.regs)) ∧
    ((s.lp n).run = .waiting → s.wfiEnds n = true → ∃ u : State, (u.lp n).run = .running ∧ (u.lp n).pc = (s.lp n).pc ∧
      u.regs = s.regs ∧ u.mem = s.mem ∧
      exec (.wfiWake n) s = .next (u.takeNext n (s.lp n).pc.toNat (s.lp n).ps.toNat)) ∧
    (¬ ((s.lp n).run = .waiting ∧ s.wfiEnds n = true) → exec (.wfiWake n) s = .next s) ∧
    (operandsReady s n 2 0 [] = some (s1, r, next) → ∃ u : State, (u.lp n).run = .halted ∧ (u.lp n).rsv = none ∧
      exec (.lpstop n) s = .next ((u.event 2 (lpMaster n) 0 next (u.lpOwners n)).commit n next)) ∧
    (operandsReady s n 2 3 [] = some (s1, r, next) → ∃ u : State, (u.lp n).l1i = L1.empty ∧ (u.lp n).l1d = (s1.lp n).l1d ∧
      exec (.isync n) s = .next (u.commit n next)) ∧
    (operandsReady s n 2 3 [oadr t] = some (s1, r, next) →
      ((s1.lp n).check (r.val 0) 1 .read (s1.lp n).level = .ok .wb → s1.addrKind (r.val 0) = .dram ∨ s1.addrKind (r.val 0) = .host →
        exec (.pref n t) s = .next ((s1.askFill n (lineOf (r.val 0)) 2).commit n next)) ∧
      ((∀ u, (s1.lp n).check (r.val 0) 1 .read (s1.lp n).level = .ok u → u ≠ .wb) → exec (.pref n t) s = .next (s1.commit n next)))

/-- From 04 R117, 05 R142 and R143: every floating-point operation takes the value and the exceptions that the format's operation gives for the
operands' values in the rounding mode of FPCS: with none of the exceptions enabled the flags of FPCS take them and the result is written;
with one enabled the trap of the first in the order I, Z, O, U, X is taken and nothing is written. 04 R117, 05 R146 and R147: FCMP and FCMPS
set the flags by the order of the values, FCMP signalling invalid for a signalling NaN only; FCLASS writes its mask and signals nothing. -/
def Obligations.FloatingPoint : Prop :=
  (∀ (n : Nat) (ff : FFmt) (d a b : Spec) (s s1 : State) (r : Ready) (next : Nat), n < 98 →
      ∀ (f : Fmt) (rm : RMode) (uf : Bool), f = fmtOf ff → rm = s1.rmode n → uf = s1.ufEn n →
      ∀ done : Exc → Nat → Instr → Prop,
        (∀ e x i, done e x i ↔
          ((fpVector e (fpEnables (s1.lp n).fpcs) = none →
            exec i s = .next (moved (s1.onLp n fun p => { p with fpcs := p.fpcs ||| BitVec.ofNat 32 e.bits }) r n next x)) ∧
          (∀ v, fpVector e (fpEnables (s1.lp n).fpcs) = some v →
            exec i s = .next (trapped s n (mkTrap v (e.bits + 32 * bits (s1.lp n).fpcs.toNat 16 3) 0 0))))) →
      (operandsReady s n 1 3 [odst d f.bytes, osrc a f.bytes, osrc b f.bytes] = some (s1, r, next) →
        ∀ x y : FVal, x = f.source r 1 → y = f.source r 2 →
          done (f.add rm uf x y).2 (f.add rm uf x y).1 (.fadd n ff d a b) ∧
          done (f.sub rm uf x y).2 (f.sub rm uf x y).1 (.fsub n ff d a b) ∧
          done (f.mul rm uf x y).2 (f.mul rm uf x y).1 (.fmul n ff d a b) ∧
          done (f.div rm uf x y).2 (f.div rm uf x y).1 (.fdiv n ff d a b) ∧
          done (f.minmax false x y).2 (f.minmax false x y).1 (.fmin n ff d a b) ∧
          done (f.minmax true x y).2 (f.minmax true x y).1 (.fmax n ff d a b)) ∧
      (operandsReady s n 1 3 [ormw d f.bytes, osrc a f.bytes, osrc b f.bytes] = some (s1, r, next) →
        ∀ x : Nat × Exc, x = f.fma rm uf (f.source r 0) (f.source r 1) (f.source r 2) → done x.2 x.1 (.fma n ff d a b)) ∧
      (operandsReady s n 1 3 [odst d f.bytes, osrc a f.bytes] = some (s1, r, next) →
        done (f.sqrt rm uf (f.source r 1)).2 (f.sqrt rm uf (f.source r 1)).1 (.fsqrt n ff d a)) ∧
      (operandsReady s n 2 3 [odst d f.bytes, osrc a f.bytes] = some (s1, r, next) →
        done (f.frint rm (f.source r 1)).2 (f.frint rm (f.source r 1)).1 (.frint n ff d a)) ∧
      (operandsReady s n 2 3 [odst d 8, osrc a f.bytes] = some (s1, r, next) →
        done (cvtFi rm (f.source r 1)).2 (cvtFi rm (f.source r 1)).1 (.cvtfi n ff d a) ∧
        done (cvtFu rm (f.source r 1)).2 (cvtFu rm (f.source r 1)).1 (.cvtfu n ff d a)) ∧
      (operandsReady s n 2 3 [odst d f.bytes, osrc a 8] = some (s1, r, next) →
        done (f.ofInt rm (signed (r.val 1) 64)).2 (f.ofInt rm (signed (r.val 1) 64)).1 (.cvtif n ff d a) ∧
        done (f.ofInt rm (r.val 1 : Nat)).2 (f.ofInt rm (r.val 1 : Nat)).1 (.cvtuf n ff d a)) ∧
      (∀ (p : CvtPair) (src dst : Fmt), (dst, src) = cvtFmts p →
        operandsReady s n 2 3 [odst d dst.bytes, osrc a src.bytes] = some (s1, r, next) →
        ∀ x : Nat × Exc, x = fconvert src dst rm uf (src.source r 1) → done x.2 x.1 (.fcvt n p d a))) ∧
  (∀ (n : Nat) (ff : FFmt) (d a b : Spec) (s s1 : State) (r : Ready) (next : Nat), n < 98 →
      ∀ f : Fmt, f = fmtOf ff →
      (operandsReady s n 1 3 [osrc a f.bytes, osrc b f.bytes] = some (s1, r, next) →
        ∀ x y : FVal, x = f.source r 0 → y = f.source r 1 →
          (x.isSnan = false → y.isSnan = false →
            exec (.fcmp n ff a b) s = .next ((s1.setFlags n (fcmpFlags x y)).commit n next)) ∧
          (x.isSnan = true ∨ y.isSnan = true → bitOf (s1.lp n).fpcs.toNat 12 = true →
            exec (.fcmp n ff a b) s = .next (trapped s n (mkTrap 0x10 (16 + 32 * bits (s1.lp n).fpcs.toNat 16 3) 0 0))) ∧
          (x.isSnan = true ∨ y.isSnan = true → bitOf (s1.lp n).fpcs.toNat 12 = false →
            exec (.fcmp n ff a b) s =
              .next (((s1.onLp n fun p => { p with fpcs := p.fpcs ||| 16#32 }).setFlags n (fcmpFlags x y)).commit n next)) ∧
          (x.isNan = false → y.isNan = false →
            exec (.fcmps n ff a b) s = .next ((s1.setFlags n (fcmpFlags x y)).commit n next)) ∧
          (x.isNan = true ∨ y.isNan = true → bitOf (s1.lp n).fpcs.toNat 12 = true →
            exec (.fcmps n ff a b) s = .next (trapped s n (mkTrap 0x10 (16 + 32 * bits (s1.lp n).fpcs.toNat 16 3) 0 0)))) ∧
      (operandsReady s n (fclassOp ff) 3 [odst d 2, osrc a f.bytes] = some (s1, r, next) →
        exec (.fclass n ff d a) s = .next (moved s1 r n next (f.fclass (f.source r 1)))))

/-- From 04 R118 to R121: packed decimal. A valid packed value is read as its integer, the result is exact, n, z and v follow it, and a value
outside 31 digits (or the digits of the destination) raises DECIMAL_OVERFLOW with nothing written; a zero divisor raises INT_DIVIDE. 04
R117, 05 R142 and R148: the conversions between floating point and packed decimal; DECIMAL_DATA stands before any floating-point exception. -/
def Obligations.DecimalArithmetic : Prop :=
  (∀ (n : Nat) (d a b : Spec) (s s1 : State) (r : Ready) (next : Nat), n < 98 →
      ∀ done : Int → Nat → Instr → Prop,
        (∀ v l i, done v l i ↔
          (pdOver l v = false → exec i s = .next (written s1 r n next (pdEncode l v) (pdFlags v))) ∧
          (pdOver l v = true → exec i s = .next (trapped s n (mkTrap 0x0D 0 0 0)))) →
      (operandsReady s n 1 3 [opdst d 16, opsrc a 16, opsrc b 16] = some (s1, r, next) →
        ∀ x y : Int, r.packed s1 n 1 16 = .ok x → r.packed s1 n 2 16 = .ok y →
          done (x + y) 16 (.pdadd n d a b) ∧ done (x - y) 16 (.pdsub n d a b) ∧ done (x * y) 16 (.pdmul n d a b) ∧
          (y ≠ 0 → done (x.tdiv y) 16 (.pddiv n d a b) ∧ done (x.tmod y) 16 (.pdrem n d a b)) ∧
          (y = 0 → exec (.pddiv n d a b) s = .next (trapped s n (mkTrap 0x0A 0 0 0)) ∧
            exec (.pdrem n d a b) s = .next (trapped s n (mkTrap 0x0A 0 0 0)))) ∧
      (operandsReady s n 1 3 [opdst d 16, opsrc a 16, opsrc b 16] = some (s1, r, next) → pdValid (r.val 1) 16 = false →
        ∃ fault : Nat, exec (.pdadd n d a b) s = .next (trapped s n (mkTrap 0x0C 0 2 fault))) ∧
      (operandsReady s n 1 3 [opdst d 16, opsrc a 16] = some (s1, r, next) →
        ∀ x : Int, r.packed s1 n 1 16 = .ok x → done (-x) 16 (.pdneg n d a) ∧ done (x.natAbs : Int) 16 (.pdabs n d a)) ∧
      (operandsReady s n 1 3 [opdst d 16, opsrc a 16, osrc b 1] = some (s1, r, next) →
        ∀ x : Int, r.packed s1 n 1 16 = .ok x →
          done (x * 10 ^ r.val 2) 16 (.pdshl n d a b) ∧
          (∃ q : Int, done q 16 (.pdshr n d a b) ∧ 2 * (q.natAbs * 10 ^ r.val 2) ≤ 2 * x.natAbs + 10 ^ r.val 2 ∧
            2 * x.natAbs + 10 ^ r.val 2 < 2 * (q.natAbs * 10 ^ r.val 2) + 2 * 10 ^ r.val 2 ∧ (0 < q → 0 < x) ∧ (q < 0 → x < 0))) ∧
      (∀ k : Nat, k = s.peekK n 3 b → operandsReady s n 1 3 [opdst d (k / 16 + 1), opsrc a (k % 16 + 1), osrc b 1] = some (s1, r, next) →
        ∀ x : Int, r.packed s1 n 1 (k % 16 + 1) = .ok x → done x (k / 16 + 1) (.pdmov n d a b)) ∧
      (operandsReady s n 1 3 [opsrc a 16, opsrc b 16] = some (s1, r, next) →
        ∀ x y : Int, r.packed s1 n 0 16 = .ok x → r.packed s1 n 1 16 = .ok y →
          exec (.pdcmp n a b) s = .next ((s1.setFlags n ⟨decide (x < y), decide (x = y), false, false⟩).commit n next)) ∧
      (∀ k : Nat, k = s.peekK n 2 b % 16 + 1 → operandsReady s n 1 3 [opsrc a k, osrc b 1] = some (s1, r, next) →
        exec (.pdchk n a b) s = .next ((s1.setFlags n ⟨false, pdValid (r.val 0) k, false, false⟩).commit n next)) ∧
      (∀ sz : QSize, operandsReady s n 1 3 [odst d (qbytes sz), opsrc a 16] = some (s1, r, next) →
        ∀ x : Int, r.packed s1 n 1 16 = .ok x → ∀ w : Nat, w = 8 * qbytes sz →
          (-(2 ^ (w - 1) : Int) ≤ x → x < (2 ^ (w - 1) : Int) →
            exec (.cvtpb n sz d a) s = .next (written s1 r n next (wrapInt x w) (pdFlags x))) ∧
          (¬ (-(2 ^ (w - 1) : Int) ≤ x ∧ x < (2 ^ (w - 1) : Int)) →
            exec (.cvtpb n sz d a) s = .next (trapped s n (mkTrap 0x0D 0 0 0)))) ∧
      (∀ sz : QSize, operandsReady s n 1 3 [opdst d 16, osrc a (qbytes sz)] = some (s1, r, next) →
        done (signed (r.val 1) (8 * qbytes sz)) 16 (.cvtbp n sz d a))) ∧
  (∀ (n : Nat) (ff : FFmt) (d a : Spec) (s s1 : State) (r : Ready) (next : Nat), n < 98 →
      ∀ (f : Fmt), f = fmtOf ff →
      (operandsReady s n 2 3 [opdst d 16, osrc a f.bytes] = some (s1, r, next) →
        ∀ x : Int × Exc, x = cvtFp (s1.rmode n) (f.source r 1) → fpVector x.2 (fpEnables (s1.lp n).fpcs) = none →
          exec (.cvtfp n ff d a) s =
            .next (moved (s1.onLp n fun p => { p with fpcs := p.fpcs ||| BitVec.ofNat 32 x.2.bits }) r n next (pdEncode 16 x.1))) ∧
      (operandsReady s n 2 3 [odst d f.bytes, opsrc a 16] = some (s1, r, next) →
        (∀ (v : Int) (x : Nat × Exc), r.packed s1 n 1 16 = .ok v → x = f.ofInt (s1.rmode n) v →
          fpVector x.2 (fpEnables (s1.lp n).fpcs) = none →
          exec (.cvtpf n ff d a) s =
            .next (moved (s1.onLp n fun p => { p with fpcs := p.fpcs ||| BitVec.ofNat 32 x.2.bits }) r n next x.1)) ∧
        (∀ t : Trap, r.packed s1 n 1 16 = .error t → exec (.cvtpf n ff d a) s = .next (s.stop n t (t.resume.getD (s.lp n).pc.toNat)))))

/-- From 04 R123 and R124: a string instruction without a prefix performs exactly one element; a scan writes its first operand and the flags, an
accumulating one its m operand, the others neither; CNT is not touched by the runner. 04 R124: what one element does. SMOV copies a byte
from SRCP to DSTP, SFIL stores its byte, SSUM and SPOPC add, SSCN finds, and each steps its pointers.`strInstr` gives the constructor of
each: smov, smovr, scmp, sscn, sscnn, sfil, sxlt, scrc, ssum, sspn, sand, sor, sxor, spopc and sxch. -/
def Obligations.StringElements : Prop :=
  (∀ (n : Nat) (op : StrOp) (e : StrElem) (os : List Opd) (i : Instr) (s s1 s2 s3 : State) (r : Ready) (next v : Nat), n < 98 →
      strInstr n op = some i → strShape op = some (e, os) → operandsReady s n 1 3 os = some (s1, r, next) →
      (match e.table with
        | none => Except.ok s1
        | some k => s1.loadTable n os.length (r.val (os.length - 1)) k) = .ok s2 →
      s2.element n e (if e.scans then noMatch else r.val 0) (r.val (os.length - 1) % 256) (s2.lp n).strTable = .ok (s3, v) →
      ∃ u : State, u = (s3.dropRsv n) ∧
        (e.scans = true → exec i s = .next (((r.put u n 0 v).setFlags n ⟨false, v == noMatch, false, false⟩).commit n next)) ∧
        (e.scans = false → e.accumulates = true → exec i s = .next ((r.put u n 0 v).commit n next)) ∧
        (e.scans = false → e.accumulates = false → exec i s = .next (u.commit n next))) ∧
  (∀ (s s1 s2 : State) (n acc a x : Nat) (tbl : List Byte),
      (s.elemLoad n (s.lp n).srcp.toNat = .ok (s1, x) →
        (s1.elemStore n (s.lp n).dstp.toNat x = .ok s2 →
          s.element n .mov acc a tbl = .ok (s2.onLp n fun p => { p with srcp := p.srcp + 1#64, dstp := p.dstp + 1#64 }, acc)) ∧
        s.element n .popc acc a tbl =
          .ok (s1.onLp n fun p => { p with srcp := p.srcp + 1#64 }, (acc + popCount x 8) % 2 ^ 64) ∧
        (s.element n .sum acc a tbl = .ok (s1.onLp n fun p => { p with srcp := p.srcp + 1#64 },
          (acc + (if (s.lp n).srcp.toNat % 2 = 0 then 256 * x else x)) % 2 ^ 64)) ∧
        s.element n .crc acc a tbl = .ok (s1.onLp n fun p => { p with srcp := p.srcp + 1#64 }, crcStep acc x) ∧
        (acc = noMatch → x = a →
          s.element n (.scan true) acc a tbl = .ok (s1.onLp n fun p => { p with srcp := p.srcp + 1#64 }, (s.lp n).srcp.toNat)) ∧
        (acc = noMatch → x ≠ a →
          s.element n (.scan true) acc a tbl = .ok (s1.onLp n fun p => { p with srcp := p.srcp + 1#64 }, noMatch))) ∧
      (s.elemStore n (s.lp n).dstp.toNat a = .ok s1 →
        s.element n .fil acc a tbl = .ok (s1.onLp n fun p => { p with dstp := p.dstp + 1#64 }, acc)))

/-- From 04 R125 and R126: RPT sets PS.rpt, loads the table once, and repeats the element CNT times; with every element done it ends with the
flags of a scan, the deferred steps of the base registers, PS.rpt zero and the next instruction. A CNT of zero runs none. 04 R123: RPT
before a byte that begins no string instruction raises ILLEGAL_OPERAND with detail 0x07. -/
def Obligations.RepeatedStrings : Prop :=
  (∀ (n : Nat) (op : StrOp) (e : StrElem) (os : List Opd) (s s1 s2 s3 : State), n < 98 → strShape op = some (e, os) →
      mayBegin s n 2 3 os = true → (s.fetchFills n (instrLen 2 os)).rptStart n e os = .ok s1 → s1.rptTable n e os = .ok s2 →
      elementsDone s2 n e os (s2.lp n).cnt.toNat = some s3 →
      exec (.rpt n op) s = .next (s3.rptFinish n e os (((s.lp n).pc.toNat + instrLen 2 os) % 2 ^ 52))) ∧
  (∀ (n : Nat) (w : BitVec 8) (s : State), n < 98 → s.canRun n = true → s.fetchTrap n 2 = none →
      exec (.rpt n (.notString w)) s = .next (trapped s n (mkTrap 0x04 7 0 0)))

/-- From 04 R127 and R128, 06 R169: the atomic read-modify-writes. The former value of m goes to d (or, for a failed CAS, to m1), the new one to
m, with a full fence before and after, and CAS sets z by the comparison. 06 R170 and 04 R108: LDRES reads m and sets the reservation of its
line; STCOND stores and sets z where the reservation covers m, and else stores nothing and clears z; either way the reservation is gone. -/
def Obligations.AtomicsAndReservations : Prop :=
  (∀ (n : Nat) (d m a : Spec) (s s1 : State) (r : Ready) (next : Nat), n < 98 → s.canRun n = true →
      ∀ u : State, u = (if r.inMem 1 then s1.dropRsv n else s1) →
      (∀ sz : Sys2Proof.ISize,
        operandsReady (s.fenceLoads n) n 1 3 [odst d (isize sz), oatom m (isize sz), osrc a (isize sz)] = some (s1, r, next) →
        exec (.swp n sz d m a) s =
          .next (((r.put (r.put u n 0 (r.val 1)) n 1 (r.val 2 % 2 ^ (8 * isize sz))).fenceLoads n).commit n next) ∧
        exec (.ldadd n sz d m a) s =
          .next (((r.put (r.put u n 0 (r.val 1)) n 1 ((r.val 1 + r.val 2) % 2 ^ (8 * isize sz))).fenceLoads n).commit n next)) ∧
      (operandsReady (s.fenceLoads n) n 1 3 [odst d 8, oatom m 8, osrc a 8] = some (s1, r, next) →
        exec (.ldor n d m a) s = .next (((r.put (r.put u n 0 (r.val 1)) n 1 ((r.val 1 ||| r.val 2) % 2 ^ 64)).fenceLoads n).commit n next) ∧
        exec (.ldand n d m a) s =
          .next (((r.put (r.put u n 0 (r.val 1)) n 1 ((r.val 1 &&& r.val 2) % 2 ^ 64)).fenceLoads n).commit n next)) ∧
      (∀ sz : Sys2Proof.ISize,
        operandsReady (s.fenceLoads n) n 1 3 [ormw d (isize sz), oatom m (isize sz), osrc a (isize sz)] = some (s1, r, next) →
        (r.val 1 = r.val 0 →
          exec (.cas n sz d m a) s = .next ((((r.put u n 1 (r.val 2)).setZ n true).fenceLoads n).commit n next)) ∧
        (r.val 1 ≠ r.val 0 →
          exec (.cas n sz d m a) s = .next ((((r.put u n 0 (r.val 1)).setZ n false).fenceLoads n).commit n next)))) ∧
  (∀ (n : Nat) (d m a : Spec) (s s1 : State) (r : Ready) (next : Nat) (sz : Size), n < 98 →
      (operandsReady s n 1 3 [odst d (sizeBytes sz), olres m (sizeBytes sz)] = some (s1, r, next) →
        ∀ b : BitVec 4, d = .base b → r.inMem 1 = true → ∃ u : State,
          (u.lp n).rsv = some (lineOf (r.addr 1)) ∧ u.mem = s1.mem ∧
          exec (.ldres n sz d m) s = .next ((r.put u n 0 (r.val 1)).commit n next)) ∧
      (operandsReady s n 1 3 [odst d (sizeBytes sz), olres m (sizeBytes sz)] = some (s1, r, next) → ∃ u : State,
          u.mem = s1.mem ∧ exec (.ldres n sz d m) s = .next ((r.put u n 0 (r.val 1)).commit n next)) ∧
      (operandsReady s n 1 3 [oscond m (sizeBytes sz), osrc a (sizeBytes sz)] = some (s1, r, next) →
        (r.inMem 0 = true → (s1.lp n).rsv = some (lineOf (r.addr 0)) →
          exec (.stcond n sz m a) s = .next (((r.put (s1.dropRsv n) n 0 (r.val 1)).setZ n true).commit n next)) ∧
        (¬ (r.inMem 0 = true ∧ (s1.lp n).rsv = some (lineOf (r.addr 0))) →
          exec (.stcond n sz m a) s = .next ((((s1.dropRsv n).countLp n 13 1).setZ n false).commit n next))))

/-- From 06 R166: FENCE and FENCE.S complete once the store buffer is empty, FENCE and FENCE.L with the invalidation queue applied; the drain
engine and the invalidation queue move by themselves. -/
def Obligations.FencesAndDrain : Prop :=
  ∀ (n : Nat) (s s1 : State) (r : Ready) (next : Nat), n < 98 →
    (s.canRun n = true → ((s.drainAll n).lp n).sb = [] → operandsReady (s.drainAll n) n 1 3 [] = some (s1, r, next) →
      exec (.fence n) s = .next ((s1.fenceLoads n).commit n next) ∧ exec (.fenceS n) s = .next (s1.commit n next)) ∧
    (operandsReady s n 1 3 [] = some (s1, r, next) → exec (.fenceL n) s = .next ((s1.fenceLoads n).commit n next)) ∧
    (s.lpExists n = true → exec (.storeDrain n) s = .next (s.drainOne n).1) ∧
    ((s.lp n).invq.length ≤ 2 → ∃ u : State, exec (.l1InvalidationApply n) s = .next u ∧
      (u.lp n).invq = [] ∧ u.mem = s.mem ∧ (u.lp n).b = (s.lp n).b ∧ (u.lp n).sb = (s.lp n).sb)

/-- From 03 R70, R77: MFSR reads a system register by its number, MTSR writes one; a number that names none raises ILLEGAL_OPERAND with detail
0x06, and one that the level may not access raises PRIVILEGE. 03 R72, R73, R89 and R92: writes of PS, WP and the region table. PS takes a
value that changes only what its level may change; WP takes an address of a workspace that may be read and written as NORMAL-WB, and its 256
bytes; RTLO and RTHI write the entry that RTIDX selects. -/
def Obligations.SystemRegisterAccess : Prop :=
  (∀ (n : Nat) (d k a : Spec) (s s1 : State) (r : Ready) (next : Nat), n < 98 →
      (operandsReady s n 1 3 [odst d 8, osrc k 1] = some (s1, r, next) → ∀ num : Nat, num = r.val 1 % 256 →
        (srKnown num = true → srReads (s1.lp n).level num = true →
          exec (.mfsr n d k) s = .next (moved s1 r n next (s1.srValue n num))) ∧
        (srKnown num = false → exec (.mfsr n d k) s = .next (trapped s n (mkTrap 0x04 6 2 0))) ∧
        (srKnown num = true → srReads (s1.lp n).level num = false → exec (.mfsr n d k) s = .next (trapped s n (mkTrap 0x05 0 0 0)))) ∧
      (operandsReady s n 1 3 [osrc k 1, osrc a 8] = some (s1, r, next) → ∀ num : Nat, num = r.val 0 % 256 →
        (srKnown num = false → exec (.mtsr n k a) s = .next (trapped s n (mkTrap 0x04 6 1 0))) ∧
        (srKnown num = true → srWrites (s1.lp n).level num = false → exec (.mtsr n k a) s = .next (trapped s n (mkTrap 0x05 0 0 0))) ∧
        (srWrites (s1.lp n).level num = true →
          (num = 2 → ∃ u : State, exec (.mtsr n k a) s = .next (u.commit n next) ∧ (u.lp n).cnt = BitVec.ofNat 64 (r.val 1) ∧
            (u.lp n).srcp = (s1.lp n).srcp ∧ (u.lp n).dstp = (s1.lp n).dstp ∧ (u.lp n).ps = (s1.lp n).ps ∧ u.mem = s1.mem) ∧
          (num = 3 → ∃ u : State, exec (.mtsr n k a) s = .next (u.commit n next) ∧ (u.lp n).srcp = BitVec.ofNat 64 (r.val 1) ∧
            (u.lp n).cnt = (s1.lp n).cnt ∧ (u.lp n).dstp = (s1.lp n).dstp ∧ (u.lp n).ps = (s1.lp n).ps ∧ u.mem = s1.mem) ∧
          (num = 8 → ∃ u : State, exec (.mtsr n k a) s = .next (u.commit n next) ∧
            (u.lp n).tvb = BitVec.ofNat 64 (r.val 1 - r.val 1 % 4096) ∧ (u.lp n).tdel = (s1.lp n).tdel ∧ u.mem = s1.mem) ∧
          (num = 0xB → ∃ u : State, exec (.mtsr n k a) s = .next (u.commit n next) ∧
            (u.lp n).tspM = BitVec.ofNat 64 (r.val 1 - r.val 1 % 64) ∧ (u.lp n).tspK = (s1.lp n).tspK ∧ u.mem = s1.mem) ∧
          (num = 0xC → ∃ u : State, exec (.mtsr n k a) s = .next (u.commit n next) ∧
            (u.lp n).rtidx = BitVec.ofNat 64 (r.val 1 % 64) ∧ (u.lp n).rt = (s1.lp n).rt ∧ u.mem = s1.mem)))) ∧
  (∀ (n : Nat) (a : Spec) (s s1 : State) (r : Ready) (next : Nat), n < 98 →
      (operandsReady s n 1 3 [osrc (.lit 0) 1, osrc a 8] = some (s1, r, next) → r.val 0 = 0 →
        ∀ v lvl : Nat, v = r.val 1 % 2 ^ 32 → lvl = (s1.lp n).level →
        ((∀ i : Nat, i < 32 → bitOf (psWritable lvl) i = false → bitOf v i = bitOf (s1.lp n).ps.toNat i) → ¬ (lvl = 0 ∧ bits v 4 2 = 3) →
          ∃ u : State, exec (.psWrite n a) s = .next (u.commit n next) ∧ (u.lp n).ps = BitVec.ofNat 32 v ∧ u.mem = s1.mem ∧
            (u.lp n).b = (s1.lp n).b) ∧
        (∀ i : Nat, i < 32 → bitOf (psWritable lvl) i = false → bitOf v i ≠ bitOf (s1.lp n).ps.toNat i →
          exec (.psWrite n a) s = .next (trapped s n (mkTrap 0x05 0 0 0)))) ∧
      (operandsReady s n 1 3 [osrc (.lit 1) 1, osrc a 8] = some (s1, r, next) → r.val 0 = 1 →
        ∀ (w : Nat) (s2 : State) (bs : List Byte), w = r.val 1 - r.val 1 % 256 →
        ((s1.lp n).check w 256 .atomic (s1.lp n).level = .ok .wb → s1.tableBytes n w 256 .wb = some (s2, bs) →
          ∃ u : State, exec (.wpWrite n a) s = .next (u.commit n next) ∧ (u.lp n).wp = BitVec.ofNat 64 w ∧
            (u.lp n).wfile = memWriteBytes [] 0 bs ∧ u.mem = s2.mem) ∧
        (∀ mt : MemType, (s1.lp n).check w 256 .atomic (s1.lp n).level = .ok mt → mt ≠ .wb →
          exec (.wpWrite n a) s = .next (trapped s n (mkTrap 0x06 7 2 w)))) ∧
      (operandsReady s n 1 3 [osrc (.lit 0xD) 1, osrc a 8] = some (s1, r, next) → r.val 0 = 0xD → (s1.lp n).level = 0 →
        ∃ u : State, exec (.regionTableWrite n false a) s = .next (u.commit n next) ∧ u.mem = s1.mem ∧
          (∀ i : Nat, i < 64 → (u.lp n).region i = if i = bits (s1.lp n).rtidx.toNat 0 6
            then (BitVec.ofNat 64 (Nat.land (r.val 1) 0xFFFFFFFFFF00F), ((s1.lp n).region i).2) else (s1.lp n).region i)) ∧
      (operandsReady s n 1 3 [osrc (.lit 0xE) 1, osrc a 8] = some (s1, r, next) → r.val 0 = 0xE → (s1.lp n).level = 0 →
        ∃ u : State, exec (.regionTableWrite n true a) s = .next (u.commit n next) ∧ u.mem = s1.mem ∧
          (∀ i : Nat, i < 64 → (u.lp n).region i = if i = bits (s1.lp n).rtidx.toNat 0 6
            then (((s1.lp n).region i).1, BitVec.ofNat 64 (Nat.land (r.val 1) 0xFFFFFFFFFF1FF)) else (s1.lp n).region i)))

/-- From 07 R184, R185 and 11 R319: CLINE and PFLK pass the region check of their operation and put one entry into the store buffer (one without
effect where the control byte is refused); RDTIME writes DEVTIME of the island's copy. -/
def Obligations.LineInstructions : Prop :=
  ∀ (n : Nat) (d k t : Spec) (s s1 : State) (r : Ready) (next : Nat), n < 98 →
    (operandsReady s n 1 1 [osrc k 1, oadr t] = some (s1, r, next) → ∀ kv lvl line : Nat, kv = r.val 0 % 256 → lvl = (s1.lp n).level →
      line = lineOf (r.val 1) → ∀ i : Instr, i = .clineClean n k t ∨ i = .clineInval n k t ∨ i = .clineCleaninval n k t ∨
        i = .clineZero n k t ∨ i = .clineUnlock n k t →
      (4 < kv % 8 ∨ kv / 16 ≠ 0 → exec i s = .next ((s1.push n ⟨.noEffect, line, [], lvl, false⟩).commit n next)) ∧
      (kv % 8 ≤ 4 → kv / 16 = 0 →
        (s1.lp n).check (r.val 1) 1 (if kv % 8 = 0 ∨ kv % 8 = 4 then .read else .write) lvl = .ok .wb →
        exec i s = .next ((s1.push n ⟨.cline (kv % 8) (bitOf kv 3), line, [], lvl, false⟩).commit n next))) ∧
    (operandsReady s n 1 1 [osrc k 1, oadr t] = some (s1, r, next) → ∀ kv : Nat, kv = r.val 0 % 256 → kv / 32 = 0 →
      (s1.lp n).check (r.val 1) 1 .read (s1.lp n).level = .ok .wb →
      exec (.pflk n k t) s =
        .next ((s1.push n ⟨.pflk (kv % 16) (bitOf kv 4), lineOf (r.val 1), [], (s1.lp n).level, false⟩).commit n next)) ∧
    (operandsReady s n 1 3 [odst d 16] = some (s1, r, next) → ∃ c : Stamp, c = s1.stampIn (lpIsland n) ∧
      exec (.rdtime n d) s = .next (moved s1 r n next
        (c.ns / 10 ^ 9 * 2 ^ 80 + c.ns % 10 ^ 9 * 2 ^ 48 + c.frac * 2 ^ 32)))

/-- From 03 R87: an execution of a reserved encoding is confined. The next instruction follows by the encoding's length, memory keeps every
byte, and no other logical processor and no register changes; the values are free. -/
def Obligations.ReservedEncodingConfined : Prop :=
  ∀ (n : Nat) (bytes : List (BitVec 8)) (s : State), n < 98 → s.canRun n = true → s.fetchTrap n bytes.length = none →
    bytes.length ≤ 32 → ∃ u t : State, exec (.reservedOpcode n bytes) s = .next t ∧
      t = u.commit n ((s.lp n).pc.toNat + bytes.length) ∧ u.mem = s.mem ∧ u.regs = s.regs ∧ u.poison = s.poison ∧
      (∀ m : Nat, m ≠ n → u.lp m = s.lp m) ∧ psPriv (u.lp n).ps = psPriv (s.lp n).ps ∧ (u.lp n).sb = (s.lp n).sb ∧
      (u.lp n).tspK = (s.lp n).tspK ∧ (u.lp n).tspM = (s.lp n).tspM ∧ (u.lp n).rt = (s.lp n).rt ∧ (u.lp n).tvb = (s.lp n).tvb

/-- From 03 R73, R75 and R76, 04 R134: what the write of a destination does, which every instruction with a destination cites. A base register
takes the value zero-extended; a workspace slot takes its bytes in the file and in memory at WP plus its offset; a memory operand its bytes
at its effective address. Memory, as the logical processor reads it, changes in those bytes alone, and the other logical processors, the
registers of the window and the exception registers not at all. (The store buffer has room for the store, so nothing retires.) -/
def Obligations.DestinationWritten : Prop :=
  ∀ (s : State) (r : Ready) (n i v : Nat) (o : Opd) (pl : Place), r.os[i]? = some o → r.ps[i]? = some pl → o.size ≤ 16 →
    (s.lp n).sb.length + 3 ≤ 32 → ∀ u : State, u = r.put s n i v →
      (u.mem = s.mem ∧ u.regs = s.regs ∧ (∀ m : Nat, m ≠ n → u.lp m = s.lp m) ∧ (u.lp n).ps = (s.lp n).ps ∧ (u.lp n).pc = (s.lp n).pc ∧
        (u.lp n).tspK = (s.lp n).tspK ∧ (u.lp n).tspM = (s.lp n).tspM ∧ (u.lp n).tvb = (s.lp n).tvb ∧ (u.lp n).rt = (s.lp n).rt ∧
        (u.lp n).cnt = (s.lp n).cnt ∧ (u.lp n).fpcs = (s.lp n).fpcs) ∧
      (∀ b : Nat, pl = .breg b → o.size ≤ 8 → (u.lp n).breg b = v % 2 ^ (8 * o.size) ∧ (∀ k : Nat, k ≠ b → (u.lp n).breg k = (s.lp n).breg k) ∧
        ∀ a : Nat, u.readByte n a = s.readByte n a) ∧
      (∀ off : Nat, pl = .wslot off → off + o.size ≤ 256 → (u.lp n).b = (s.lp n).b ∧ (u.lp n).wread off o.size = v % 2 ^ (8 * o.size) ∧
        (∀ k : Nat, k < off ∨ off + o.size ≤ k → memGet (u.lp n).wfile k = memGet (s.lp n).wfile k) ∧
        (∀ a : Nat, a < (s.lp n).wp.toNat + off ∨ (s.lp n).wp.toNat + off + o.size ≤ a → u.readByte n a = s.readByte n a) ∧
        (∀ k : Nat, k < o.size → u.readByte n ((s.lp n).wp.toNat + off + k) = BitVec.ofNat 8 (v / 256 ^ k))) ∧
      (∀ (a : Nat) (mt : MemType), pl = .mem a → o.atomic = false → (s.lp n).check a o.size .write (s.lp n).level = .ok mt →
        (u.lp n).b = (s.lp n).b ∧
        (∀ x : Nat, x < a ∨ a + o.size ≤ x → u.readByte n x = s.readByte n x) ∧
        (∀ k : Nat, k < o.size → u.readByte n (a + k) = BitVec.ofNat 8 (v / 256 ^ k)))

/-- From 03 R71, R73, R83, R85, R94 and R107: what addressing and reading the operands, writing the flags and committing leave as it was, for
every instruction whose statement names these parts. With no store waiting and no DEVICE region, reading operands changes no byte of memory,
no register of the window, no other logical processor, and of its own only the base registers that an operand steps; the flags' write
changes only PS[3:0]; the commit moves PC, and clears the retries of the pair's boundary. -/
def Obligations.OperandsFlagsCommit : Prop :=
  (∀ (s s1 : State) (n opBytes lvl : Nat) (os : List Opd) (r : Ready) (next : Nat),
    operandsReady s n opBytes lvl os = some (s1, r, next) →
      r.os = os ∧ r.ps.length = os.length ∧ r.vs.length = os.length ∧ next = ((s.lp n).pc.toNat + instrLen opBytes os) % 2 ^ 52 ∧
      ((s.lp n).sb = [] → (∀ (a k : Nat) (acc : Access) (l : Nat), (s.lp n).check a k acc l ≠ .ok .device) →
        s1.mem = s.mem ∧ s1.regs = s.regs ∧ (∀ m : Nat, m ≠ n → s1.lp m = s.lp m) ∧ (s1.lp n).sb = [] ∧ (s1.lp n).pc = (s.lp n).pc ∧
        (s1.lp n).ps = (s.lp n).ps ∧ (s1.lp n).wp = (s.lp n).wp ∧ (s1.lp n).wfile = (s.lp n).wfile ∧ (s1.lp n).cnt = (s.lp n).cnt ∧
        (s1.lp n).srcp = (s.lp n).srcp ∧ (s1.lp n).dstp = (s.lp n).dstp ∧ (s1.lp n).fpcs = (s.lp n).fpcs ∧
        (s1.lp n).tspK = (s.lp n).tspK ∧ (s1.lp n).tspM = (s.lp n).tspM ∧ (s1.lp n).tvb = (s.lp n).tvb ∧
        (s1.lp n).tdel = (s.lp n).tdel ∧ (s1.lp n).rt = (s.lp n).rt ∧
        (∀ b : BitVec 4, (∀ o : Opd, o ∈ os → o.spec ≠ .postInc b ∧ o.spec ≠ .preDec b) →
          (s1.lp n).breg b.toNat = (s.lp n).breg b.toNat))) ∧
  (∀ (s : State) (n idx : Nat) (o : Opd) (p : LP), p = s.lp n →
    (∀ w : BitVec 5, o.spec = .slot w → s.place n idx o = .ok (s, .wslot (8 * w.toNat))) ∧
    (∀ b : BitVec 4, o.spec = .base b → s.place n idx o = .ok (s, .breg b.toNat)) ∧
    (∀ b : BitVec 4, o.spec = .ind b → s.place n idx o = .ok (s, .mem (p.breg b.toNat))) ∧
    (∀ (b : BitVec 4) (d : BitVec 8), o.spec = .ind8 b d → s.place n idx o = .ok (s, .mem (wrapInt (p.breg b.toNat + d.toInt) 64))) ∧
    (∀ (b x : BitVec 4) (sc : BitVec 2) (d : BitVec 8), o.spec = .index b x sc (.d8 d) →
      s.place n idx o = .ok (s, .mem (wrapInt ((p.breg b.toNat + p.breg x.toNat * 2 ^ sc.toNat : Nat) + d.toInt) 64))) ∧
    (∀ b : BitVec 4, o.spec = .postInc b → ∃ u : State, s.place n idx o = .ok (u, .mem (p.breg b.toNat)) ∧
      (u.lp n).breg b.toNat = (p.breg b.toNat + o.size) % 2 ^ 64 ∧ ∀ k : Nat, k ≠ b.toNat → (u.lp n).breg k = p.breg k) ∧
    (∀ b : BitVec 4, o.spec = .preDec b → ∃ (u : State) (a : Nat), a = wrapInt ((p.breg b.toNat : Int) - o.size) 64 ∧
      s.place n idx o = .ok (u, .mem a) ∧ (u.lp n).breg b.toNat = a ∧ ∀ k : Nat, k ≠ b.toNat → (u.lp n).breg k = p.breg k) ∧
    (∀ (i : BitVec 4) (d : BitVec 8), o.spec = .wpRel i d → s.place n idx o = .ok (s, .mem ((p.wp.toNat + 8 * d.toNat) % 2 ^ 64)))) ∧
  (∀ (s : State) (n : Nat) (f : Flags) (u : State), u = s.setFlags n f →
    psFlags (u.lp n).ps = f ∧ (∀ i : Nat, 4 ≤ i → bitOf (u.lp n).ps.toNat i = bitOf (s.lp n).ps.toNat i) ∧
    { u.lp n with ps := (s.lp n).ps } = s.lp n ∧ (∀ m : Nat, m ≠ n → u.lp m = s.lp m) ∧ u.mem = s.mem ∧ u.regs = s.regs) ∧
  (∀ (s : State) (n next : Nat) (u : State), u = s.commit n next →
    (u.lp n).pc.toNat = next % 2 ^ 52 ∧ (u.lp n).ps = (s.lp n).ps ∧ (u.lp n).b = (s.lp n).b ∧ (u.lp n).wfile = (s.lp n).wfile ∧
    (u.lp n).wp = (s.lp n).wp ∧ (u.lp n).sb = (s.lp n).sb ∧ (u.lp n).cnt = (s.lp n).cnt ∧ (u.lp n).srcp = (s.lp n).srcp ∧
    (u.lp n).dstp = (s.lp n).dstp ∧ (u.lp n).fpcs = (s.lp n).fpcs ∧ (u.lp n).tspK = (s.lp n).tspK ∧ (u.lp n).tspM = (s.lp n).tspM ∧
    (u.lp n).tvb = (s.lp n).tvb ∧ (u.lp n).tdel = (s.lp n).tdel ∧ (u.lp n).rt = (s.lp n).rt ∧ (∀ m : Nat, m ≠ n → u.lp m = s.lp m) ∧
    u.mem = s.mem ∧ (∀ off : Nat, off ≠ Off.cmpStat (n / 6) (n % 6) → off ≠ Off.cmpRetrycnt (n / 6) (n % 6) → u.reg off = s.reg off))

/-- A step takes the command at the front of the queue and is exactly its meaning on the state with the queue's rest. -/
def Obligations.StepRunsFront : Prop :=
  ∀ (c : Instr) (rest : List Instr) (s : State), step { s with pending := c :: rest } = exec c { s with pending := rest }

/-- The model's own choice (log 1): with no command waiting, a step is one nanosecond of the time clock, with the advance of the timebase by 11
R314 and the slew of R323, and, while no trip test runs, nothing else. -/
def Obligations.EmptyQueueTicks : Prop :=
  ∀ s : State, s.pending = [] → s.yaf.trip = none → ∃ t : State, step s = .next t ∧
    t.time.cycles = s.time.cycles + 1 ∧
    (s.time.slew = 0 → s.fld Off.timeFreq 0 32 = 0 → t.time.tb = s.time.tb + 2 ^ 48 ∧ t.time.slew = 0) ∧
    (0 < s.time.slew → s.time.slew ≤ slewUnit → s.fld Off.timeFreq 0 32 = 0 →
      (t.time.tb : Int) = s.time.tb + 2 ^ 48 + s.time.slew ∧ t.time.slew = 0) ∧
    (s.time.slew < 0 → -(slewUnit : Int) ≤ s.time.slew → s.fld Off.timeFreq 0 32 = 0 →
      (t.time.tb : Int) = s.time.tb + 2 ^ 48 + s.time.slew ∧ t.time.slew = 0) ∧
    t.pending = [] ∧ t.regs = s.regs ∧ t.mem = s.mem ∧ t.lps = s.lps ∧ t.chans = s.chans ∧ t.ports = s.ports ∧ t.links = s.links ∧
    t.tqs = s.tqs ∧ t.freeCount = s.freeCount

/-- The device right after the power-up of VDD_AON, which is a cold reset (18 R457): the values that the header lines of the registers and the
layout of PS give, READY low, nothing cached, no logical processor running, and no command waiting. That memory and the registers without a
reset value read as zero is the model's choice (logs 2 and 3). -/
def Obligations.ResetValues : Prop :=
  State.reset.pending = [] ∧ State.reset.ready = false ∧ State.reset.time.tb = 0 ∧ Memory.wf State.reset.mem = true ∧
  (∀ n : Nat, (State.reset.lp n).ps = 0x200#32 ∧ (State.reset.lp n).run = .empty ∧ (State.reset.lp n).sb = []) ∧
  (∀ n a : Nat, State.reset.readByte n a = 0) ∧
  State.reset.reg Off.rstStat = 1 ∧ State.reset.reg Off.devId = 0x104896B5 ∧ State.reset.reg (Off.cmpCtrl 0) = 0x1000 ∧
  State.reset.reg (Off.l2Errcfg 15) = 8 ∧ State.reset.reg Off.twCtrl = 0x40000 ∧ State.reset.reg (Off.tqCfg 4095) = 0 ∧
  State.reset.reg Off.nvjCfg = 0x1F4 ∧ State.reset.reg (Off.prpCfg 63) = 0x190 ∧ State.reset.reg Off.rtCtrl = 0x40 ∧
  State.reset.reg Off.timeCtrl = 0x10020 ∧ State.reset.reg Off.timeStat = 4 ∧ State.reset.reg Off.timeUtc = 0x25 ∧
  State.reset.reg Off.ppsCfg = 0x186A0 ∧ State.reset.reg (Off.dbMaskLp 0 0) = 0xFFFFFFFF ∧ State.reset.reg (Off.dbPendLp 0 0) = 0 ∧
  State.reset.reg (Off.mbxBind 4095) = 0 ∧ State.reset.reg (Off.lnkCfg 127) = 0 ∧ State.reset.reg (Off.keyStat 0) = 0 ∧
  State.reset.reg Off.hpStat = 0 ∧ State.reset.reg (Off.errSrc 767) = 0 ∧ State.reset.reg Off.bistStat = 0 ∧
  State.reset.reg Off.lensCtrl = 0

/-- Every command whose units, masters and causes this device has takes effect: the model meets no fault, and refuses exactly the commands that
name something that does not exist. -/
def Obligations.WellFormedCommandsRun : Prop :=
  ∀ (c : Instr) (s : State), (c.wellFormed = true → ∃ t : State, exec c s = .next t) ∧
    (c.wellFormed = false → exec c s = .refused .noSuchUnit)

/-- No command touches the queue, and the model's own counter of free values never goes back. -/
def Obligations.QueueLeftAlone : Prop :=
  ∀ (c : Instr) (s t : State), exec c s = .next t → t.pending = s.pending ∧ s.freeCount ≤ t.freeCount

/-- Memory keeps its canonical form (addresses strictly rising, no listed byte zero) over every step of the block: every command and the passing
of time. -/
def Obligations.MemoryFormKept : Prop :=
  ∀ s t : State, Memory.wf s.mem = true → step s = .next t → Memory.wf t.mem = true

/-- The canonical form holds right after reset. -/
def Obligations.MemoryFormAtReset : Prop := Memory.wf State.reset.mem = true

/-- From 01 R22 and R23, 00 R8 and R9: an access of the register window outside every block, or of another width or alignment than the
register's, is a bus error, a write of this kind without effect; an offset that is not assigned reads as zero and drops its writes; a load
or a store of an unmapped address, and one of the register window through a region that is not DEVICE, is a bus error and changes nothing. -/
def Obligations.WindowAccess : Prop :=
  ∀ (s : State) (master priv off size v : Nat),
    (inBlock off = false → readReg s master priv off size = none ∧ writeReg s master priv off size v = (s, false)) ∧
    (s.regTo off size = .bad → readReg s master priv off size = none ∧ writeReg s master priv off size v = (s, false)) ∧
    (s.regTo off size = .nothing → writeReg s master priv off size v = (s, true) ∧
      (off < 0x34000000 ∨ 0x35000000 ≤ off → readReg s master priv off size = some (s, 0))) ∧
    (∀ (d : RegDesc) (ix : List Nat), regAt off = some (d, ix) → d.width ≠ 8 * size → d.name.ofSlot = false → s.regTo off size = .bad) ∧
    (∀ (n a : Nat) (bs : List Byte) (t : MemType), s.rangeKind a bs.length = some .unmapped → s.performStore n t priv a bs = .busError s) ∧
    (∀ (n a : Nat) (bs : List Byte) (t : MemType), s.rangeKind a bs.length = some .regs → t ≠ .device →
      s.performStore n t priv a bs = .busError s) ∧
    (∀ (n a : Nat) (t : MemType), (s.lp n).sb = [] → 0 < size →
      s.rangeKind a size = some .unmapped ∨ s.rangeKind a size = some .regs ∧ t ≠ .device → s.load n a size t = none)

/-- From 00 R5 and R7: what a write does to the bits of one field by its access code. Bits outside the field stay; RO and RC bits stay; RW and
WO bits take the value written, RWL bits too unless the lock holds them (`keep`); W1C bits clear, W1S bits set, where 1 is written. -/
def Obligations.AccessCodes : Prop :=
  ∀ (v r hi lo i : Nat) (keep : Bool) (a : Acc), lo ≤ hi →
    (i < lo ∨ hi < i → bitOf (fieldWrite v keep r (hi, lo, a)) i = bitOf r i) ∧
    (lo ≤ i → i ≤ hi →
      (a = .ro ∨ a = .rc → bitOf (fieldWrite v keep r (hi, lo, a)) i = bitOf r i) ∧
      (a = .rw ∨ a = .wo → bitOf (fieldWrite v keep r (hi, lo, a)) i = bitOf v i) ∧
      (a = .rwl → bitOf (fieldWrite v keep r (hi, lo, a)) i = if keep then bitOf r i else bitOf v i) ∧
      (a = .w1c → bitOf (fieldWrite v keep r (hi, lo, a)) i = (bitOf r i && !bitOf v i)) ∧
      (a = .w1s → bitOf (fieldWrite v keep r (hi, lo, a)) i = (bitOf r i || bitOf v i)))

/-- From 00 R5 to R9, 01 R22 and R25, 03 R102: REGISTER_WRITE, LOCK_SET and INTC_SWI_RAISE. A write that reaches a register whose chapter has no
further rule changes that register alone, field by field; one that the chapter denies the master is a bus error without effect on it;
LOCK_SET sets the lock bit and keeps the other fields; INTC_SWI makes SWI pending at its slot. FIFO_DELIVERY has nothing left to do, since
every command carries its transfers to their ends (the model's choice, log 74). -/
def Obligations.RegisterWrites : Prop :=
  ∀ (s : State) (master off size : Nat) (value : BitVec 64) (d : RegDesc) (ix : List Nat),
    (masterExists master = true → s.masterPresent master = true → s.shutdown = false → size ∈ [1, 2, 4, 8] → off < 0x1000000000 →
      (s.regTo off size = .bad → exec (.registerWrite master off size value) s = .next (s.answer .busError)) ∧
      (s.regTo off size = .nothing → exec (.registerWrite master off size value) s = .next (s.answer .done)) ∧
      (s.regTo off size = .reg d ix → (s.writer d ix off).admits master (s.privOf master) = false → mbxChannel off = none →
        exec (.registerWrite master off size value) s = .next (s.answer .busError)) ∧
      (s.regTo off size = .reg d ix → (s.writer d ix off).admits master (s.privOf master) = true →
        d.name ∈ [.cmpCtrl, .intcLvl, .errLpen, .rmAddr, .rmCount, .hrmAddr, .hrmCount, .nvjCfg, .portTslat, .portRxring, .clsRule, .gseSub,
          .rtSelf, .rtMember, .rtDomain, .timeUtc, .keyData, .fprCtrl] →
        exec (.registerWrite master off size value) s =
          .next ((s.setReg off (s.fieldsWrite d off (value.toNat % 2 ^ (8 * size)))).answer .done))) ∧
    (∀ r : Nat, r = Off.fprCtrl ∨ r = Off.nvjCfg ∨ r = Off.rtCtrl → master = 0x200 ∨ master = 0x201 → s.shutdown = false →
      s.flag r 31 = false → 0 < s.fld r 0 8 ∨ r ≠ Off.rtCtrl → ∃ t : State, exec (.lockSet master r) s = .next (t.answer .done) ∧
        t.flag r 31 = true ∧ (∀ i : Nat, i < 31 → t.flag r i = s.flag r i) ∧ (∀ o : Nat, o ≠ r → t.reg o = s.reg o) ∧ t.mem = s.mem) ∧
    (∀ ch : Nat, ch < 4096 → lockOf (Off.mbxBind ch) = some (Off.mbxBind ch, 8, 63) → s.flag (Off.mbxBind ch) 63 = false →
      reaches s master (Off.mbxBind ch) 8 .mbxBind [ch] = true →
      exec (.lockSet master (Off.mbxBind ch)) s = .next ((s.setFlag (Off.mbxBind ch) 63 true).answer .done)) ∧
    (∀ c k : Nat, c < 16 → k < 6 → reaches s master (Off.intcSwi c k) 4 .intcSwi [c, k] = true →
      ∃ t : State, exec (.intcSwiRaise master c k) s = .next (t.answer .done) ∧ (t.lp (6 * c + k)).swi = true ∧
        (t.lp (6 * c + k)).pc = (s.lp (6 * c + k)).pc ∧ (∀ n : Nat, n ≠ 6 * c + k → t.lp n = s.lp n) ∧ t.mem = s.mem ∧
        (∀ o : Nat, o ≠ Off.intcSwi c k → t.reg o = s.reg o)) ∧
    (∀ src dst : Nat, exec (.fifoDelivery src dst) s = .next s)

/-- From 07 R182, R187, R188, R200 and R203: the register writes that act on the caches. LOCKEN is dropped whole above 12 ways, and a way no
longer enabled loses its locks and keeps its lines; DUR_i takes its fields, valid only for a size within the total of 64 MiB; a write of
RM_CTRL with start sets maint_refused while the engine is busy, ends at once with BAD_REQUEST for an empty range, and starts the walk
otherwise. 07 R181, R189 to R198: what the caches do by themselves. A fill arrives for the oldest request; the oldest eviction is written
back; a range operation ends with its code and its doorbell; a scrub counts what it corrects, poisons a dirty line that it cannot correct;
the counters of the ways fall by one each period; a retirement moves a way onto its spare. -/
def Obligations.CacheCommandsAndEvents : Prop :=
  (∀ (s : State) (m : Nat),
      (∀ (c : Nat) (v : BitVec 32), c < 16 → reaches s m (Off.l2Locken c) 4 .l2Locken [c] = true →
        (12 < popCount (v.toNat % 65536) 16 → exec (.lockenWrite m (.l2 c) v) s = .next (s.answer .done)) ∧
        (popCount (v.toNat % 65536) 16 ≤ 12 → ∃ t : State, exec (.lockenWrite m (.l2 c) v) s = .next (t.answer .done) ∧
          t.reg (Off.l2Locken c) = v.toNat % 65536 ∧ t.mem = s.mem ∧ (∀ d : Nat, d ≠ c → t.l2c d = s.l2c d) ∧
          (∀ k : Nat, ((t.l2c c).slot k).locked = (((s.l2c c).slot k).locked && bitOf (v.toNat % 65536) (k % 16)) ∧
            ((t.l2c c).slot k).valid = ((s.l2c c).slot k).valid ∧
            (((s.l2c c).slot k).valid = true → ((t.l2c c).slot k).line = ((s.l2c c).slot k).line ∧
              ((t.l2c c).slot k).dirty = ((s.l2c c).slot k).dirty)))) ∧
      (∀ (i : Nat) (v : BitVec 32), i < 32 → reaches s m (Off.scLocken i) 4 .scLocken [i] = true →
        (12 < popCount (v.toNat % 65536) 16 → exec (.lockenWrite m (.slice i) v) s = .next (s.answer .done)) ∧
        (popCount (v.toNat % 65536) 16 ≤ 12 → ∃ t : State, exec (.lockenWrite m (.slice i) v) s = .next (t.answer .done) ∧
          t.reg (Off.scLocken i) = v.toNat % 65536 ∧ t.l2 = s.l2 ∧
          (∀ k : Nat, ((t.scs i).slot k).locked = (((s.scs i).slot k).locked && bitOf (v.toNat % 65536) (k % 16)) ∧
            ((t.scs i).slot k).valid = ((s.scs i).slot k).valid))) ∧
      (∀ (i : Nat) (v : BitVec 64), i < 8 → reaches s m (Off.dur i) 8 .dur [i] = true → s.locked (Off.dur i) = false →
        ∃ t : State, exec (.durWrite m i v) s = .next (t.answer .done) ∧ t.fld (Off.dur i) 16 36 = bits v.toNat 16 36 ∧
          t.fld (Off.dur i) 4 11 = bits v.toNat 4 11 ∧ (∀ o : Nat, o ≠ Off.dur i → t.reg o = s.reg o) ∧ t.mem = s.mem ∧
          (t.flag (Off.dur i) 0 = true ↔ bitOf v.toNat 0 = true ∧ bits v.toNat 4 11 ≠ 0 ∧
            ((List.range 8).filter (· != i)).foldl (fun k j => k + s.durUnits j) 0 + bits v.toNat 4 11 ≤ 1024)) ∧
      (∀ (e : RangeEngine) (a : RmArgs) (op : Nat) (i : Instr), rmExists e = true →
        (∀ c : Nat, e = .cluster c → reaches s m (rmCtrl e) 8 .rmCtrl [c] = true) →
        (∀ h : Nat, e = .hub h → reaches s m (rmCtrl e) 8 .hrmCtrl [h] = true) →
        (op = 1 ∧ i = .rmClean m e a) ∨ (op = 2 ∧ i = .rmInval m e a) ∨ (op = 3 ∧ i = .rmCleaninval m e a) ∨
          (op = 4 ∧ i = .rmLockfill m e a) ∨ (op = 5 ∧ i = .rmUnlock m e a) ∨ (op = 6 ∧ i = .rmZero m e a) →
        ∃ u : State, u = s.setReg (rmCtrl e) (a.dbBit.toNat * 2 ^ 32 + bit01 a.dbEn * 2 ^ 28 + a.dbTarget.toNat * 2 ^ 16 +
          a.way.toNat * 256 + op) ∧
        (u.flag (rmStat e) 4 = true → exec i s = .next ((u.setFlag (rmBlockStat e) 1 true).answer .done)) ∧
        (u.flag (rmStat e) 4 = false → u.reg (rmCount e) = 0 →
          exec i s = .next (((u.setReg (rmStat e) 5).raise (rmSource e)).answer .done)) ∧
        (u.flag (rmStat e) 4 = false → u.reg (rmCount e) ≠ 0 → op ≠ 4 → u.reg (rmAddr e) + 64 * u.reg (rmCount e) ≤ 2 ^ 52 →
          (∀ h : Nat, e = .hub h → u.reg (rmAddr e) + 64 * u.reg (rmCount e) ≤ u.installed) →
          ∃ (t : State) (o : RangeOp), exec i s = .next (t.answer .done) ∧ t.flag (rmStat e) 4 = true ∧ t.fld (rmStat e) 0 4 = 1 ∧
            tblGet? t.rm (rmIndex e) = some o ∧ o.op = op ∧ o.line + 64 * o.lines = u.reg (rmAddr e) + 64 * u.reg (rmCount e) ∧
            o.doorbell = if a.dbEn then some (a.dbTarget.toNat, a.dbBit.toNat) else none))) ∧
  (∀ (s : State) (u : CacheUnit) (c : Nat), unitExists u = true → c < 16 →
      ((s.l2c c).fills = [] → exec (.cacheFill c) s = .next s) ∧
      (∀ (f : PendFill) (t : List PendFill), (s.l2c c).fills = f :: t → f.into = 0 →
        exec (.cacheFill c) s = .next (((s.onL2 c fun x => { x with fills := t }).l2Fill c f.line).onLp f.lp
          fun p => { p with l1d := p.l1d.fill 8 3 128 f.line })) ∧
      ((s.cache u).ebuf = [] → exec (.evictionDone u) s = .next s) ∧
      (∀ (l : Nat) (t : List Nat), (s.l2c c).ebuf = l :: t →
        exec (.evictionDone (.l2 c)) s = .next ((s.l2WriteBack l).onL2 c fun x => { x with ebuf := t })) ∧
      (∀ (i l : Nat) (t : List Nat), i < 32 → (s.scs i).ebuf = l :: t →
        exec (.evictionDone (.slice i)) s = .next ((s.scWriteBack l).onSc i fun x => { x with ebuf := t })) ∧
      (∀ (e : RangeEngine) (o : RangeOp), rmExists e = true → tblGet? s.rm (rmIndex e) = some o → o.lines = 0 → o.poison = false →
        ∃ w : State, w = { s with rm := tblErase s.rm (rmIndex e) }.setReg (rmStat e)
          (rmStatWord (s.fld (rmStat e) 32 32) o.skipped false (if o.skipped = 0 then 2 else 3)) ∧
        (o.skipped = 0 → o.doorbell = none → exec (.rmDone e) s = .next w) ∧
        (o.skipped = 0 → ∀ t b : Nat, o.doorbell = some (t, b) → exec (.rmDone e) s = .next (w.ring t b)) ∧
        (o.skipped ≠ 0 → o.doorbell = none → exec (.rmDone e) s = .next (w.raise (rmSource e)))) ∧
      (∀ (set way : Nat), exec (.scrub u set way .clean) s = .next s) ∧
      (∀ (set way j : Nat), s.logicalWay u way = some j →
        exec (.scrub u set way .correctableData) s =
          .next ((s.setWayCnt u way (min (s.wayCnt u way + 1) 255)).cacheEvent u 11 1 set way) ∧
        exec (.scrub u set way .correctableTag) s =
          .next ((s.setWayCnt u way (min (s.wayCnt u way + 1) 255)).cacheEvent u 11 2 set way) ∧
        (∀ l : Nat, ((s.cache u).slot (set * 16 + j)).valid = true → ((s.cache u).slot (set * 16 + j)).line = some l →
          ((s.cache u).slot (set * 16 + j)).dirty = true →
          exec (.scrub u set way .uncorrectableData) s = .next ((s.poisonLine l).cacheEvent u 12 4 set way) ∧
          (s.poisonLine l).poison.contains l = true)) ∧
      (∃ t : State, exec (.eccCounterDecay u) s = .next t ∧ t.mem = s.mem ∧ ∀ w : Nat, w < 18 → t.wayCnt u w = s.wayCnt u w - 1) ∧
      ((s.cache u).retiring = none → exec (.wayRetirement u) s = .next s) ∧
      (∀ j p q : Nat, (s.cache u).retiring = some (j, p, q) → (s.cache u).linesIn j = [] → (s.cache u).waiting = [] →
        exec (.wayRetirement u) s = .next (((((s.setReg (waymapOff u) (waymapAfter (s.reg (waymapOff u)) j p q)).onCache u
          fun y => { y with retiring := none, waiting := [] }).setFlag (cstatOff u) 2 false).cacheEvent u 13 8 0 p).condemn
            (wayKind u).1 (wayKind u).2 p (cacheSource u 13) true)))

/-- From 08 R206, R207, R210 to R214, R219, R220, R225 and R229: dispatch of the head descriptor of a queue. A descriptor that fails a check
completes with that check's status, one that must wait holds its queue, and one of each kind does its work: RECEIVE posts its buffer, COPY
copies and completes, SEND, EXCHANGE and TIMED_SEND take a number of their flow, write their COMMIT where the queue is durable, and go to
their target; a TIMED_SEND before its time is parked. A queue that may not dispatch does nothing. -/
def Obligations.Dispatch : Prop :=
  ∀ (q : Nat) (nv : Verifies) (s : State), q < 4096 → ∀ (kind : Nat) (i : Instr),
    (kind = 1 ∧ i = .send q nv) ∨ (kind = 2 ∧ i = .receive q ∧ nv = []) ∨ (kind = 3 ∧ i = .exchange q nv) ∨ (kind = 4 ∧ i = .copy q nv) ∨
      (kind = 6 ∧ i = .timedSend q nv) →
    (s.mayDispatch q = false → exec i s = .next s) ∧
    (s.mayDispatch q = true → s.inGroup q = false → s.headKind q = kind → ∀ (t : Txn) (st : Option TStat),
      s.checkDesc q (s.reg (Off.tqHead q)) = (t, st) →
      (∀ e : TStat, st = some e → exec i s = .next (((s.setHeld q none).headUp q 1).failDesc q t e)) ∧
      (∀ h : Hold, st = none → s.holdOf q t = some h → exec i s = .next (s.setHeld q (some h))) ∧
      (st = none → s.holdOf q t = none → t.kind = kind → ∀ u : State, u = ((s.setHeld q none).headUp q 1).countHub 0 0 1 →
        (kind = 2 → exec i s = .next (u.onTq q fun x => { x with recvs := x.recvs ++ [t] })) ∧
        (kind = 4 → t.durable = false → ∀ (v : State) (n : Nat), u.copyLines t.addr t.addr2 t.length 0 (t.length / 64 + 2) = (v, n) →
          exec i s = .next (v.txnDone q t (if n = t.length then .ok else .busFault) n)) ∧
        (kind ≠ 2 → kind ≠ 4 → u.withBuffer t = none → exec i s = .next (u.txnDone q t .busFault 0)) ∧
        (∀ (t1 t2 : Txn) (v : State), kind ≠ 2 → kind ≠ 4 → u.withBuffer t = some t1 → u.takeNumber q t1 = some (v, t2) →
          (t.durable = false → kind ≠ 6 → exec i s = .next ((v.txnOpen q t2).emitTxn q t2 nv)) ∧
          (t.durable = false → kind = 6 → t2.timeNs ≠ 0 → (v.txnOpen q t2).released t2 = false →
            exec i s = .next ((v.txnOpen q t2).onTxn q t2.count fun x => { x with stage := .parked })) ∧
          (t.durable = true → ∀ (w : State) (ok : Bool) (nv1 : Verifies),
            v.nvjWrite q (.commit t2.count t2.seq t2.dcrc t2.bcrc t2.flow t2.kind) nv = (w, ok, nv1) →
            (ok = false → exec i s = .next ((w.giveBack q t2).txnDone q t2 .journalFault 0)) ∧
            (ok = true → kind ≠ 6 → exec i s = .next (((w.countHub 0 1 1).txnOpen q t2).emitTxn q t2 nv1))))))

/-- From 08 R214, R215 and R216: the numbers of a flow. A dispatched transaction takes the flow's next count under the queue's incarnation; an
arrival that was delivered before is acknowledged again and delivers nothing; one beyond the window of 65,536 is an error of the flow. 08
R206, R207, R210, R215, R223, R224, R227 and R228: what happens to transactions after dispatch: groups, releases, holds that end, deadlines,
retransmission, timeouts, marks, and completions that waited for room. -/
def Obligations.FlowsAndTransactions : Prop :=
  (∀ (s : State) (q i : Nat) (f : Flow) (t : Txn), s.flowOf q t.target = some i → s.flow? q i = some f →
      (∃ (u : State) (t1 : Txn), s.takeNumber q t = some (u, t1) ∧ t1.seq = (s.tq q).inc * 2 ^ 48 + f.next % 2 ^ 48 ∧ t1.flow = i ∧
        u.flow? q i = some { f with next := f.next + 1 } ∧ u.mem = s.mem ∧ u.regs = s.regs) ∧
      (∀ (m : Inbound) (nv : Verifies), m.destQ = q → m.src = t.target → s.tqOn q = true → m.durable = s.tqDurable q → f.rxInc ≠ 0 →
        f.rxInc = seqInc m.seq →
        (seqCnt m.seq < f.low ∨ f.win.contains (seqCnt m.seq) = true → ∃ u : State, s.arrive m nv = (u, .ack (s.tq q).inc) ∧
          u.mem = s.mem ∧ (u.tq q).recvs = (s.tq q).recvs ∧ (u.tq q).waiting = (s.tq q).waiting) ∧
        (f.low + 65536 ≤ seqCnt m.seq → f.win.contains (seqCnt m.seq) = false → ∃ u : State, s.arrive m nv = (u, .silent) ∧
          u.mem = s.mem ∧ (u.tq q).recvs = (s.tq q).recvs))) ∧
  (∀ (q slot : Nat) (nv : List Verifies) (s : State), q < 4096 →
      (s.mayDispatch q = true → s.inGroup q = true → s.groupExpired (s.tq q).group = none →
        ∀ (ms : List Txn) (m : Txn) (n : Nat), ms = (s.tq q).group → ms.head? = some m → n = m.member / 16 + 1 →
        (ms.length ≠ n → cnt32 (s.reg (Off.tqTail q)) (s.reg (Off.tqHead q)) ≤ ms.length →
          exec (.group q nv) s = .next (s.setHeld q (some .group))) ∧
        (ms.length = n → ∀ h : Hold, s.groupHold q ms = some h → exec (.group q nv) s = .next (s.setHeld q (some h))) ∧
        (ms.length = n → s.groupHold q ms = none → exec (.group q nv) s = .next (s.groupRelease q ms nv))) ∧
      (∀ t : Txn, s.openTxn q slot = some t → t.stage = .parked → ∃ t1 : Txn, t1 = { t with late := t.late || s.released t } ∧
        exec (.timedSendRelease q slot) s = .next ((s.onTxn q slot fun _ => t1).emitTxn q t1 [])) ∧
      ((∀ t : Txn, t ∈ (s.tq q).opens → t.stage ≠ .returned) → (s.tq q).held ≠ none → s.mayDispatch q = true → s.inGroup q = false →
        ∀ t : Txn, s.checkDesc q (s.reg (Off.tqHead q)) = (t, none) →
        (∀ h : Hold, s.holdOf q t = some h → exec (.holdRelease q) s = .next (s.setHeld q (some h))) ∧
        (s.holdOf q t = none → exec (.holdRelease q) s =
          .next ((((s.setHeld q none).headUp q 1).countHub 0 0 1).runDesc q t []))) ∧
      ((s.tq q).held ≠ none → s.mayDispatch q = true → s.inGroup q = false → ∀ t : Txn,
        s.checkDesc q (s.reg (Off.tqHead q)) = (t, some .expired) →
        exec (.deadlineExpiry q) s = .next (((s.setHeld q none).headUp q 1).txnDone q t .expired 0)) ∧
      (∀ t : Txn, s.openTxn q slot = some t → t.stage = .sent → ∃ t1 : Txn, t1 = { t with interval := min (2 * t.interval) 1280 } ∧
        exec (.retransmit q slot) s = .next (((s.onTxn q slot fun _ => t1).countHub 0 2 1).attempt q t1 [])) ∧
      (∀ t : Txn, s.openTxn q slot = some t → t.stage = .sent → t.timeout ≠ 0 →
        (t.refusals = [] → exec (.ackTimeout q slot) s = .next (s.txnDone q t .timeout (t.value 0))) ∧
        (∀ rs : List Nat, t.refusals = 5 :: rs → (∀ r : Nat, r ∈ rs → r = 5) →
          exec (.ackTimeout q slot) s = .next (s.txnDone q t .noBuffer (t.value 0)))) ∧
      (∀ t : Txn, s.openTxn q slot = some t → t.timeout = 0 → exec (.ackTimeout q slot) s = .next s) ∧
      (s.flow? q slot = none → exec (.ackmarkWrite q slot) s = .next s) ∧
      (∀ (f : Flow) (u : State) (nv1 : Verifies), s.flow? q slot = some f → s.tqDurable q = true → f.rxInc = 0 →
        f.markTx ≠ s.txMark q slot f → s.nvjWrite q (.ackmark slot (s.txMark q slot f)) [] = (u, true, nv1) →
        exec (.ackmarkWrite q slot) s = .next (u.onFlow q slot fun x => { x with markTx := s.txMark q slot f })) ∧
      ((s.tq q).waiting = [] → exec (.completionDeferredWrite q) s = .next (s.setFlag (Off.tqStat q) 2 false)) ∧
      ((s.tq q).waiting ≠ [] → 2 ^ s.fld (Off.tqCq q) 0 5 ≤ cnt32 (s.reg (Off.tqCqtail q)) (s.reg (Off.tqCqhead q)) →
        exec (.completionDeferredWrite q) s = .next (s.setFlag (Off.tqStat q) 2 true)) ∧
      (∀ (count : Nat) (bs : List Byte), (s.tq q).waiting = [(count, bs, false)] →
        cnt32 (s.reg (Off.tqCqtail q)) (s.reg (Off.tqCqhead q)) < 2 ^ s.fld (Off.tqCq q) 0 5 →
        ∃ t : State, exec (.completionDeferredWrite q) s = .next t ∧ t.reg (Off.tqCqtail q) = (s.reg (Off.tqCqtail q) + 1) % 2 ^ 32 ∧
          (t.tq q).waiting = [] ∧ t.flag (Off.tqStat q) 2 = false))

/-- From 08 R204, R206, R214, R223, R225, R236 and R239: the registers of a queue, its engine and the journal's rows. The doorbell belongs to
the owner and holds at most a ring of descriptors; enabling gives the next incarnation and new flows; disabling takes the queue out of
service; an engine's third failure in a row starts its hand-over, which makes the spare ACTIVE and condemns the engine. -/
def Obligations.QueueRegistersAndEngines : Prop :=
  ∀ (s : State) (m q i logical : Nat), q < 4096 → i < 18 → logical < 16 →
    (∀ v : BitVec 32, reaches s m (Off.tqTail q) 4 .tqTail [q] = true →
      (m ≠ s.tqOwner q → exec (.queueDoorbell m q v) s = .next ((s.twErr q 2).answer .busError)) ∧
      (m = s.tqOwner q → s.tqSlots q < cnt32 v.toNat (s.reg (Off.tqRetire q)) →
        exec (.queueDoorbell m q v) s = .next (((s.setFlag (Off.tqStat q) 3 true).twErr q 3).answer .done)) ∧
      (m = s.tqOwner q → cnt32 v.toNat (s.reg (Off.tqRetire q)) ≤ s.tqSlots q →
        exec (.queueDoorbell m q v) s = .next ((s.setReg (Off.tqTail q) v.toNat).answer .done))) ∧
    (reaches s m (Off.tqCfg q) 8 .tqCfg [q] = true →
      (s.tqOn q = true → exec (.tqEnableWrite m q) s = .next (s.answer .done)) ∧
      (s.tqOn q = true → exec (.tqDisableWrite m q) s = .next ((s.queueDisable q).1.answer .done)) ∧
      (s.tqOn q = false → s.tqDurable q = false → (s.tq q).opens = [] → s.fld (Off.tqCfg q) 42 4 = 0 →
        4 ≤ s.fld (Off.tqRing q) 0 5 → s.fld (Off.tqRing q) 0 5 ≤ 16 → 4 ≤ s.fld (Off.tqCq q) 0 5 → s.fld (Off.tqCq q) 0 5 ≤ 16 →
        ∃ t : State, exec (.tqEnableWrite m q) s = .next (t.answer .done) ∧ t.tqOn q = true ∧
          (t.tq q).inc = (match tblGet? s.svc.incs q with | some k => nextInc k | none => 1) ∧ (t.tq q).flows = [] ∧
          (t.tq q).held = none ∧ t.mem = s.mem)) ∧
    (s.tqOn q = true → (s.tq q).recvs = [] → (s.tq q).group = [] → s.reg (Off.tqHead q) = s.reg (Off.tqTail q) →
      (s.queueDisable q).2 = 0) ∧
    (s.teState i ≠ 1 → ∀ b : Bool, exec (.engineRetry i b) s = .next s) ∧
    (s.teState i = 1 → exec (.engineRetry i true) s = .next { s with tengs := tblSet s.tengs i { s.teng i with tries := 0 } }) ∧
    (s.teState i = 1 → (s.teng i).tries < 2 →
      exec (.engineRetry i false) s = .next { s with tengs := tblSet s.tengs i { s.teng i with tries := (s.teng i).tries + 1 } }) ∧
    (s.teState i = 1 → 2 ≤ (s.teng i).tries → exec (.engineRetry i false) s = .next (s.teFail i)) ∧
    ((s.teng (s.tePhys logical)).dest = none → exec (.engineHandover logical) s = .next s) ∧
    (∀ d : Nat, (s.teng (s.tePhys logical)).dest = some d → ∃ u : State, u = ((((s.setFld (Off.twEngmap (logical / 8)) (8 * (logical % 8)) 5
        d).setFld (Off.teStat (s.tePhys logical)) 0 2 2).setFld (Off.teStat d) 0 2 1).setFld (Off.teStat d) 8 4 logical) ∧
      exec (.engineHandover logical) s =
        .next ({ u with tengs := tblSet u.tengs (s.tePhys logical) ⟨0, none⟩ }.raise (512 + s.tePhys logical))) ∧
    (∀ row : Nat, row < 16384 → s.nvj.degA = false → s.nvj.degB = false → exec (.nvjScrub row .clean .clean) s = .next s ∧
      exec (.nvjScrub row .correctable .clean) s = .next (s.raise 732) ∧
      exec (.nvjScrub row .uncorrectable .clean) s = .next (s.raise 733) ∧
      ((s.nvj.live.any fun r => r.slot / 32 % 16384 == row) = true → ∃ u : State,
        exec (.nvjScrub row .uncorrectable .uncorrectable) s = .next (u.raise 734) ∧ u.mem = s.mem ∧ u.regs = s.regs ∧
        u.nvj.live = s.nvj.live.map fun r => if r.slot / 32 % 16384 = row then { r with okA := false, okB := false } else r))

/-- From 09 R241, R244, R252 to R257, R264, R268 and R281: a received frame. A port that is not up receives nothing; a frame with a bad FCS, of
a length outside 64 to 9216, or of MAC control is counted and discarded; the others are counted by frames and bytes, a duplicate of the pair
is discarded, and the first matching rule of the group decides where the frame goes. -/
def Obligations.FrameReception : Prop :=
  ∀ (p : Nat) (f : Frame) (s u : State) (st : Stamp), p < 128 → u = (s.portCount p 0 1).portCount p 1 f.len → st = s.rxStamp p f.len →
    (s.usable p = false → exec (.frameReceive p f) s = .next s) ∧
    (s.usable p = true →
      (f.fcsOk = false → exec (.frameReceive p f) s = .next (s.portCount p 2 1)) ∧
      (f.fcsOk = true → (f.len < 64 ∨ 9216 < f.len) → exec (.frameReceive p f) s = .next (s.portCount p 6 1)) ∧
      (f.fcsOk = true → 64 ≤ f.len → f.len ≤ 9216 →
        (f.macControl = true → exec (.frameReceive p f) s = .next (u.portCount p 7 1)) ∧
        (f.macControl = false → u.flag (Off.msecCfg p) 63 = false → f.sec = none →
          (∀ t : RedTag, f.red = some t → u.redMode p = 1 → t.lanB = (p % 2 == 1) →
            ((u.ddtLive (p / 2)).any fun e => e.src == f.src && e.seq == t.seq) = true →
            exec (.frameReceive p f) s = .next (u.portCount p 11 1)) ∧
          (f.red = none → f.svlan = false →
            (u.classify p f = none → ∀ v : State, v = u.portCount p 14 1 →
              (v.flag (Off.clsDefault (p / 16)) 0 = false → exec (.frameReceive p f) s = .next v) ∧
              (v.flag (Off.clsDefault (p / 16)) 0 = true → exec (.frameReceive p f) s = .next (v.softRing p 0xFF f false st))) ∧
            (∀ r act idx : Nat, u.classify p f = some (r, act, idx) →
              (act = 0 ∨ act = 5 → exec (.frameReceive p f) s = .next u) ∧
              (act = 1 → exec (.frameReceive p f) s = .next (u.svDecode p (idx % 256) f st)) ∧
              (act = 2 → exec (.frameReceive p f) s = .next (u.gooseDecode p r (idx % 512) f false st)) ∧
              (act = 3 → exec (.frameReceive p f) s = .next (u.rsvDecode p (idx % 256) f st)) ∧
              (act = 4 → exec (.frameReceive p f) s = .next (u.rgooseDecode p r (idx % 512) f false st)) ∧
              (act = 6 → exec (.frameReceive p f) s = .next (u.softRing p r f false st)))))))

/-- From 09 R263: the extended sample number. The first ASDU of a stream lands at its smpCnt. After it, with the newest number Xn and d the
distance of smpCnt from that of Xn modulo the wrap, X is Xn + d where d is below half the wrap and Xn - (W - d) otherwise; an X that is half
a ring or more behind is late, and one that landed already is a duplicate. -/
def Obligations.SampleNumbers : Prop :=
  ∀ (s : State) (g n smp : Nat) (e : SvEntry) (xn x : Int) (w d : Nat), xn = s.reg (svOff g n + 0x30) → w = e.wrap → smp < w →
    d = (smp + w - (s.stream g n).smp % w) % w → x = (if d < w / 2 then xn + d else xn - (w - d : Nat)) →
    (s.flag (svOff g n + 0x38) 0 = false → s.landX g n e smp = .ok (smp : Int)) ∧
    (s.flag (svOff g n + 0x38) 0 = true →
      (x ≤ xn - (2 ^ (e.m - 1) : Nat) → s.landX g n e smp = .error 17) ∧
      (xn < x → s.landX g n e smp = .ok x) ∧
      (xn - (2 ^ (e.m - 1) : Nat) < x → x ≤ xn → s.present e (x % (2 ^ e.m : Nat)).toNat = false → s.landX g n e smp = .ok x) ∧
      (xn - (2 ^ (e.m - 1) : Nat) < x → x ≤ xn → s.present e (x % (2 ^ e.m : Nat)).toNat = true →
        leNat (s.agentRead (e.ring + (x % (2 ^ e.m : Nat)).toNat * 32 + 0x10) 8) = wrapInt x 64 → s.landX g n e smp = .error 18))

/-- From 09 R249, R251, R253, R258, R271 and R281, 13 R373: what a port sends. The next frame by the egress order leaves, counted by frames and
bytes; a frame that MACsec cannot protect is held; a repetition, a supervision frame and a PTP message are queued; an HSR frame for others
goes on to the other port of the pair, once. -/
def Obligations.FrameTransmission : Prop :=
  ∀ (p pub pair : Nat) (s : State), p < 128 → pub < 4096 → pair < 64 →
    (s.usable p = false → exec (.frameStart p) s = .next s) ∧
    (s.nextFrame p = none → exec (.frameStart p) s = .next s) ∧
    (∀ f : EgFrame, s.usable p = true → s.nextFrame p = some f →
      (s.flag (Off.msecCfg p) 63 = true → s.bypasses p (bodyEther f.body) = false → (s.port p).txAn = none →
        exec (.frameStart p) s = .next s) ∧
      (s.flag (Off.msecCfg p) 63 = false → exec (.frameStart p) s = .next (s.startFrame p f none)) ∧
      (s.flag (Off.msecCfg p) 63 = false → f.cls = .other → f.txn = none → f.body = .supervision → ∃ u : State,
        u = (s.onPort p fun x => { x with queue := x.queue.erase f }).emit (.frame p .supervision none f.red) ∧
        exec (.frameStart p) s = .next ((u.portCount p 24 1).portCount p 25 f.len))) ∧
    (tblGet? s.pubs pub = none → exec (.gooseRepetition pub) s = .next s) ∧
    (∀ (b : Pub) (x : PubPort), tblGet? s.pubs pub = some b → b.ports = [(p, x)] → x.stopped = false → s.usable p = true →
      (s.time.cycles < x.due → exec (.gooseRepetition pub) s = .next s) ∧
      (x.due ≤ s.time.cycles → exec (.gooseRepetition pub) s =
        .next (((s.pubSpdu pub).redSeq p).2.queueRep p pub (x.k + 1) x ((s.pubSpdu pub).redSeq p).1))) ∧
    (s.redMode (2 * pair) = 0 → exec (.prpSupervisionFrame pair) s = .next s) ∧
    (s.redMode (2 * pair) ≠ 0 → s.usable (2 * pair) = true → ∃ t : State, exec (.prpSupervisionFrame pair) s = .next t ∧
      t.regs = s.regs ∧ t.mem = s.mem ∧ (t.port (2 * pair)).queue = (s.port (2 * pair)).queue ++
        [⟨.other, s.time.cycles, none, 70, some (s.port (2 * pair)).pseq, .supervision⟩]) ∧
    (∀ msg : BitVec 8, (s.yaf.ptp.role ≠ 0 ∧ bitOf s.yaf.ptp.ports p = true ∧ s.usable p = true → s.redMode p = 0 →
        ∃ t : State, exec (.ptpMessageSend p msg) s = .next t ∧ t.regs = s.regs ∧ t.mem = s.mem ∧
          (t.port p).queue = (s.port p).queue ++ [⟨.other, s.time.cycles, none, if s.yaf.ptp.transport = 1 then 114 else 72, none,
            .ptp msg ⟨0, 0⟩⟩]) ∧
      (s.yaf.ptp.role = 0 ∨ bitOf s.yaf.ptp.ports p = false ∨ s.usable p = false → exec (.ptpMessageSend p msg) s = .next s)) ∧
    (∀ f : Frame, (f.red = none ∨ s.redMode p ≠ 2 ∨ f.src = Config.portMac (pairEven p) → exec (.hsrForward p f) s = .next s) ∧
      (∀ (t : RedTag) (o : Nat), o = (if p % 2 = 0 then p + 1 else p - 1) → f.red = some t → s.redMode p = 2 → s.usable p = true →
        s.usable o = true → s.verified p f = true → f.src ≠ Config.portMac (pairEven p) → f.src ≠ Config.portMac (pairEven p + 1) →
        f.dst ≠ Config.portMac (pairEven p) → f.dst ≠ Config.portMac (pairEven p + 1) →
        (s.seenHsr p f t = true → exec (.hsrForward p f) s = .next s) ∧
        (s.seenHsr p f t = false → ∃ u : State, exec (.hsrForward p f) s = .next u ∧ u.regs = s.regs ∧ u.mem = s.mem ∧
          (u.port o).queue = (s.port o).queue ++ [⟨.other, s.time.cycles, none, f.len, some t.seq.toNat, .forwarded f⟩] ∧
          u.seenHsr p f t = decide (0 < s.forgetNs (p / 2)))))

/-- From 09 R252, R265, R268, R276 and R279: what time and the board do at a port: duplicate entries are forgotten, streams and subscriptions go
stale once, an expander's bus that stays stuck raises each of its ports, a module's record ages by the hour, and a failing lane moves only
where the group has a switch. -/
def Obligations.PortEvents : Prop :=
  ∀ (s : State) (p pair g n bus : Nat), p < 128 → pair < 64 → g < 8 → bus < 16 →
    (∃ t : State, exec (.ddtEntryForget pair) s = .next t ∧ tblGetD t.ddts pair [] = s.ddtLive pair ∧ t.regs = s.regs ∧ t.mem = s.mem) ∧
    (∀ (e : SvEntry) (off : Nat), e = s.svEntry g n → off = svOff g n + 0x38 →
      (e.valid = false ∨ s.flag off 0 = false ∨ s.flag off 1 = true ∨ e.stale = 0 ∨
          s.time.cycles < (s.stream g n).landed + e.stale * 10000 → exec (.svStale g n) s = .next s) ∧
      (n < 256 → e.valid = true → s.flag off 0 = true → s.flag off 1 = false → e.stale ≠ 0 →
        (s.stream g n).landed + e.stale * 10000 ≤ s.time.cycles →
        (e.notify = false → exec (.svStale g n) s = .next ((s.setFlag off 1 true).portErr (s.stream g n).port 5 n false)) ∧
        (e.notify = true → exec (.svStale g n) s =
          .next (((s.setFlag off 1 true).ring e.target e.dbBit).portErr (s.stream g n).port 5 n false)))) ∧
    (∀ (e : List Byte) (a fl : Nat), e = s.entryBytes (subOff g n) 8 → a = fieldLE e 0x10 8 → fl = (memGet s.mem (a + 1)).toNat →
      (bitOf fl 0 = false ∨ bitOf fl 1 = true ∨ s.time.cycles < (s.sub g n).seen + (s.sub g n).tal * 1000000 →
        exec (.gooseStale g n) s = .next s) ∧
      (n < 512 → bitOf (fieldLE e 0 1) 0 = true → bitOf fl 0 = true → bitOf fl 1 = false →
        (s.sub g n).seen + (s.sub g n).tal * 1000000 ≤ s.time.cycles →
        exec (.gooseStale g n) s = .next ((((s.portWrite (a + 1) [BitVec.ofNat 8 (setBit fl 1 true)]).portCount (s.sub g n).port 22
          1).subNotify e).portErr (s.sub g n).port 6 n false))) ∧
    (exec (.expanderPoll bus [] false) s = .next s) ∧
    (∀ cages : List CageRead, exec (.expanderPoll bus cages true) s =
      .next ((List.range 8).foldl (fun u i => u.portErr (8 * bus + i) 3 0 false) s)) ∧
    (∀ c : CageRead, c.port / 8 = bus → exec (.expanderPoll bus [c] false) s = .next (s.cageRead c)) ∧
    ((s.cage p).ident = none → ∀ t b : Nat, exec (.moduleLifeUpdate p t b) s = .next s) ∧
    (∀ (id : BitVec 32 × BitVec 32) (t b : Nat) (r : LifeRec), (s.cage p).ident = some id → s.svc.lives = [r] →
      (r.part, r.serial) = id → r.worn = true → ∃ (u : State) (r1 : LifeRec), exec (.moduleLifeUpdate p t b) s = .next u ∧
        u.svc.lives = [r1] ∧ r1.powered = r.powered + 1 ∧ r1.laser = r.laser + bit01 (!s.flag (Off.portStat p) 3) ∧ r1.biasNow = b ∧
        r1.seen = s.now ∧ tblGetD r1.hist (min t 7) 0 = tblGetD r.hist (min t 7) 0 + 1 ∧ u.regs = s.regs ∧ u.mem = s.mem) ∧
    (bitOf s.yaf.mod.steer (p / 16) = false → s.linkOfPort p = none → ∀ ok : Bool, exec (.spareLaneMove p ok) s = .next s) ∧
    (bitOf s.yaf.mod.steer (p / 16) = true → s.flag (Off.portStat p) 5 = false → s.flag (Off.portStat p) 4 = false →
      s.flag (Off.portCfg p) 63 = true → s.laneTaken (p / 16) = true → ∀ (ok : Bool) (u : State),
      u = ((s.lockLost p).portCfgWrite p (setBit (s.reg (Off.portCfg p)) 63 false)) → (u.portErr p 2 0 false).linkOfPort p = none →
      exec (.spareLaneMove p ok) s = .next (u.portErr p 2 0 false))

/-- From 09 R242, R243, R246, R278, R280 and R283, 16 R421: a port enabled, disabled, protected, losing and gaining its lock, and its block
reset. Mode and FEC are kept while the port is enabled; disabling MACsec clears the keys. -/
def Obligations.PortControl : Prop :=
  ∀ (s : State) (m p : Nat) (v : BitVec 64), p < 128 →
    (reaches s m (Off.portCfg p) 8 .portCfg [p] = true → s.flag (Off.portStat p) 2 = false → s.flag (Off.portStat p) 1 = false →
      (∃ (t : State) (mode fec : Nat),
        mode = (if s.flag (Off.portCfg p) 63 then s.fld (Off.portCfg p) 8 3 else if 4 < bits v.toNat 8 3 then 0 else bits v.toNat 8 3) ∧
        fec = (if s.flag (Off.portCfg p) 63 then s.fld (Off.portCfg p) 4 2 else if bits v.toNat 4 2 = 3 then 0 else bits v.toNat 4 2) ∧
        t = ((s.setReg (Off.portCfg p) (2 ^ 63 + mode * 256 + fec * 16 + bits v.toNat 3 1 * 8)).setFlag (Off.portStat p) 0
          true).txDisableEval p ∧
        exec (.portEnableWrite m p v) s = .next (t.answer .done)) ∧
      (∀ t : State, t = (s.portCfgWrite p (setBit (s.reg (Off.portCfg p)) 63 false)) → t.linkOfPort p = none →
        exec (.portDisableWrite m p) s = .next (t.answer .done) ∧ t.flag (Off.portCfg p) 63 = false ∧ t.usable p = false)) ∧
    (reaches s m (Off.msecCfg p) 8 .msecCfg [p] = true → ∃ u : State,
      u = s.setReg (Off.msecCfg p) (bits v.toNat 58 6 * 2 ^ 58 + bits v.toNat 0 32) ∧
      (bitOf v.toNat 63 = true → exec (.msecCfgWrite m p v) s = .next (u.answer .done)) ∧
      (bitOf v.toNat 63 = false → exec (.msecCfgWrite m p v) s =
        .next ((u.onPort p fun x => { x with sas := [], txAn := none }).answer .done))) ∧
    (s.flag (Off.portStat p) 2 = false → s.linkOfPort p = none → exec (.blockLockLoss p) s = .next s) ∧
    (s.flag (Off.portStat p) 2 = true → s.flag (Off.portStat p) 1 = false → ∀ u : State,
      u = ((s.onPort p fun x => { x with lock := false }).setFlag (Off.portStat p) 2 false).portErr p 1 0 false →
      u.linkOfPort p = none → exec (.blockLockLoss p) s = .next u) ∧
    (s.flag (Off.portStat p) 5 = true → exec (.blockLockAcquired p) s = .next s) ∧
    (s.flag (Off.portStat p) 5 = false → s.flag (Off.portCfg p) 63 = false → s.flag (Off.portStat p) 1 = false → ∀ u : State,
      u = (s.onPort p fun x => { x with lock := true }).setFlag (Off.portStat p) 2 true → u.linkOfPort p = none →
      exec (.blockLockAcquired p) s = .next u) ∧
    (s.ready = false → exec (.portBlockReset p) s = .next s) ∧
    (s.ready = true → s.resetReqs.contains (.link p) = true →
      exec (.portBlockReset p) s = .next ((s.resetTaken (.link p)).linkDown p 1)) ∧
    (s.ready = true → s.resetReqs.contains (.link p) = false → s.flag (Off.portStat p) 2 = false →
      (s.resetTaken (.port p)).linkOfPort p = none → exec (.portBlockReset p) s = .next (s.resetTaken (.port p)))

/-- From 10 R285, R287, R290 to R293, R296 to R299 and R308: a Tradewind link. Enabled, it trains; INIT of the same width and rate, confirmed,
brings it up with full credits; a LACK releases the packets up to its sequence; the oldest packet that its channel's credits pay for goes
out, into the replay buffer; eight resends without progress, a lost lane of a narrow link and a disable take it down. -/
def Obligations.LinkProtocol : Prop :=
  ∀ (s : State) (l m : Nat), l < 128 →
    (s.linkOn l = true → s.lanesLocked l = true → s.linkState l = 1 → ∀ (w rate : Nat) (conf : Bool),
      (w ≠ s.lanesNow l ∨ rate ≠ s.fld (Off.lnkCfg l) 40 1 → exec (.initReceived l w rate conf) s = .next (s.linkErr l 4)) ∧
      (w = s.lanesNow l → rate = s.fld (Off.lnkCfg l) 40 1 → ∀ u : State,
        u = (s.onLink l fun x => { x with sentConf := true, gotConf := x.gotConf || conf }).linkWord l 0x69 (w + rate * 256 + 65536) →
        (conf = false → (s.link l).gotConf = false → exec (.initReceived l w rate conf) s = .next u) ∧
        (conf = true ∨ (s.link l).gotConf = true → exec (.initReceived l w rate conf) s = .next (((u.onLink l fun x => { x with
          txSeq := 0, rxSeq := 0, resends := 0, credits := (List.range 8).map fun v => (v, fullCredits v) }).setLinkState l 2).linkErr
            l 9)))) ∧
    (s.linkOn l = false → ∀ (w rate : Nat) (conf : Bool), exec (.initReceived l w rate conf) s = .next s) ∧
    (∀ lane : Nat, exec (.alignSend l lane) s =
      .next (if s.linkState l ≠ 0 ∧ lane < s.lanesNow l then s.emit (.linkWord l 0x33 (lane + s.lanesNow l * 256)) else s)) ∧
    (∀ (q : BitVec 8) (neg : Bool), s.linkUp l = false → exec (.lackReceived l q neg) s = .next s) ∧
    (∀ (q : BitVec 8) (i : Nat) (r : Replay), s.linkUp l = true → (s.link l).replay.findIdx? (fun r => r.seq == q.toNat) = some i →
      (s.link l).replay[i]? = some r → ∃ t : State, exec (.lackReceived l q false) s = .next t ∧
        (t.link l).replay = (s.link l).replay.drop (i + 1) ∧ (t.link l).resends = 0 ∧
        t = (s.onLink l fun y => { y with replay := y.replay.drop (i + 1), resends := 0 }).setFld (Off.lnkStat l) 12 20
          (min (s.time.cycles - r.sent) (2 ^ 20 - 1))) ∧
    (∀ q : BitVec 8, s.linkUp l = true → (s.link l).replay.findIdx? (fun r => r.seq == (q.toNat + 255) % 256) = none →
      (s.link l).replay.any (fun r => r.seq == q.toNat) = true →
      exec (.lackReceived l q true) s = exec (.replayTimeout l) s) ∧
    (∀ vc n : Nat, s.linkUp l = true → vc < 8 → ∃ t : State, exec (.creditReceived l vc n) s = .next t ∧ t.regs = s.regs ∧ t.mem = s.mem ∧
      tblGetD (t.link l).credits vc 0 = min (tblGetD (s.link l).credits vc 0 + n) (fullCredits vc)) ∧
    (s.linkUp l = true → (s.link l).replay = [] → exec (.replayTimeout l) s = .next s) ∧
    (s.linkUp l = true → (s.link l).replay ≠ [] →
      ((s.link l).resends = 7 → exec (.replayTimeout l) s = .next (s.linkDown l 3)) ∧
      (∀ (r : Replay) (u : State), (s.link l).replay = [r] → (s.link l).resends < 7 → u = (s.onLink l fun y => { y with
          resends := y.resends + 1, replay := y.replay.map fun r => { r with sent := s.time.cycles } }) →
        exec (.replayTimeout l) s = .next ((u.emit (.packet l r.pkt.pkt r.seq)).linkCount l 4 1))) ∧
    (s.linkUp l = false → exec (.packetSend l) s = .next s) ∧
    (∀ q : QPkt, s.linkUp l = true → (s.link l).replay.length < 255 → (s.link l).queue.all (fun q => (s.link l).affords q) = true →
      oldest s.hcNow ((s.link l).queue.filter fun q => (s.link l).affords q) = some q → ∀ (p : Packet) (u : State),
      p = { q.pkt with age := BitVec.ofNat 32 (elapsedHc q.stamp s.hcNow) } →
      u = (s.onLink l fun y => { y with
        queue := y.queue.erase q, txSeq := (y.txSeq + 1) % 256,
        replay := y.replay ++ [⟨y.txSeq, { q with pkt := p }, s.time.cycles⟩],
        credits := tblSet y.credits p.vc.toNat (tblGetD y.credits p.vc.toNat 0 - packetCost p) }) →
      exec (.packetSend l) s = .next ((u.linkCount l 0 1).emit (.packet l p (s.link l).txSeq))) ∧
    (s.linkUp l = true → (s.link l).lackDue = true → ∃ t : State, exec (.lackSend l) s = .next t ∧ (t.link l).lackDue = false ∧
      t.regs = s.regs ∧ t.out = s.out ++ [.linkWord l 0x4B (((s.link l).rxSeq + 255) % 256)]) ∧
    (s.linkUp l = true → (s.link l).discard = false → exec (.linkRxError l .crc) s =
      .next (((s.linkCount l 2 1).onLink l fun x => { x with discard := true }).emit (.linkWord l 0x4B ((s.link l).rxSeq + 256)))) ∧
    (s.linkUp l = true → (s.link l).discard = true → exec (.linkRxError l .sequence) s = .next (s.linkCount l 3 1)) ∧
    (∀ lane : Nat, s.linkOn l = true → lane < s.lanesCfg l → exec (.laneLoss l lane) s = .next
      (((s.onPort (l + lane) fun x => { x with lock := false }).setFlag (Off.portStat (l + lane)) 2 false).laneLost l lane)) ∧
    (s.linkOn l = false → ∀ lane : Nat, exec (.laneLoss l lane) s = .next s) ∧
    (∀ lane : Nat, ∀ u : State, u = s.setFlag (Off.lnkStat l) (4 + lane) false → (u.link l).base = lane → u.lanesNow l = 1 →
      2 ≤ u.linkState l → s.laneLost l lane = u.linkDown l 1) ∧
    (reaches s m (Off.lnkCfg l) 8 .lnkCfg [l] = true →
      (∀ v : BitVec 64, exec (.linkEnable m l v) s = .next ((s.lnkCfgWrite l (setBit v.toNat 63 true)).answer .done)) ∧
      (exec (.linkDisableWrite m l) s = .next ((s.lnkCfgWrite l (setBit (s.reg (Off.lnkCfg l)) 63 false)).answer .done)) ∧
      (s.linkOn l = true → ∀ v : Nat, bits v 63 1 = 1 → bits v 48 2 = 0 → s.fld (Off.lnkCfg l) 48 2 ≠ 0 → s.lnkCfgWrite l v = s))

/-- From 10 R288, R289, R298 and R300, 08 R215: a packet that an up link accepts. One of no valid type is recorded; one for another device goes
on with its age kept; a DATA packet completes its transaction or opens a context where there is room, bytes held already ignored; an
acknowledgement or a refusal goes to its transaction; a context not complete within 2 ms is discarded. -/
def Obligations.PacketReception : Prop :=
  ∀ (s : State) (l : Nat) (p : Packet) (nv : Verifies), l < 128 →
    (s.linkUp l = false → exec (.packetForward l p) s = .next s ∧ exec (.dataPacket l p nv) s = .next s ∧
      exec (.ackPacket l p) s = .next s ∧ exec (.refusePacket l p) s = .next s) ∧
    (s.linkUp l = true → ∀ u : State, u = s.linkAccept l p →
      ((p.typ.toNat = 0 ∨ 5 < p.typ.toNat) → exec (.packetForward l p) s = .next (u.linkErr l 8)) ∧
      (1 ≤ p.typ.toNat → p.typ.toNat ≤ 5 →
        (∀ o : Nat, u.route p = .out o → exec (.packetForward l p) s = .next (u.linkPush o p (u.hcNow - p.age.toNat))) ∧
        (u.route p = .hops → exec (.packetForward l p) s = .next ((u.linkCount l 6 1).linkErr l 5)) ∧
        (u.route p = .none → exec (.packetForward l p) s = .next (u.noRoute p l))) ∧
      (u.route p = .deliver →
        (p.typ.toNat = 2 → exec (.ackPacket l p) s = .next (u.ackIn p.destQ (peerTarget p.srcDev p.srcQ) p.seq.toNat p.inc.toNat)) ∧
        (p.typ.toNat = 3 → exec (.refusePacket l p) s =
          .next (u.refuseIn p.destQ (peerTarget p.srcDev p.srcQ) p.seq.toNat p.reason.toNat p.inc.toNat)) ∧
        (p.typ.toNat = 1 → u.context (u.tqEngine p.destQ) p = none →
          (1024 ≤ (u.reasm.filter fun r => r.eng == u.tqEngine p.destQ).length → exec (.dataPacket l p nv) s = .next u) ∧
          ((u.reasm.filter fun r => r.eng == u.tqEngine p.destQ).length < 1024 → ∀ r : Reasm,
            r = ⟨u.tqEngine p.destQ, p.srcDev, p.srcQ, p.destQ, p.seq.toNat, p.tlen, p.durable, p.reply, p.exch, p.exSeq.toNat,
              u.time.cycles, if p.tlen < p.offset + p.payload.length then [] else [(p.offset, p.payload)]⟩ →
            (r.held ≠ r.tlen → exec (.dataPacket l p nv) s = .next { u with reasm := u.reasm ++ [r] }) ∧
            (r.held = r.tlen → r.tlen ≠ 0 → exec (.dataPacket l p nv) s =
              .next ((u.arrive r.whole nv).1.answerPeer r.whole (u.arrive r.whole nv).2 l)))))) ∧
    (p.typ.toNat ≠ 1 → exec (.dataPacket l p nv) s = .next s) ∧
    (p.typ.toNat ≠ 2 → exec (.ackPacket l p) s = .next s) ∧
    (p.typ.toNat ≠ 3 → exec (.refusePacket l p) s = .next s) ∧
    (∀ e : Nat, e < 16 → exec (.reassemblyTimeout e) s =
      .next { s with reasm := s.reasm.filter fun r => r.eng != e || decide (s.time.cycles < r.at_ + 2000000) }) ∧
    (∀ r : Reasm, (tblGet? r.segs p.offset).isSome = true → r.put p = r)

/-- From 10 R302 to R307: the two-way time transfer and domain formation. A measurement begins with a new identity and ends, with its reply and
its TIME packet, in LNK_TT; the first FORM names the link's far end, and news of the domain are kept and flooded on; formation takes the
root of lowest priority and then lowest identity and writes no route for a member that no node holds. -/
def Obligations.TimeTransferAndFormation : Prop :=
  ∀ (s : State) (l : Nat), l < 128 →
    (s.linkUp l = false → exec (.tsyncSend l) s = .next s ∧ (∀ i : BitVec 8, exec (.tsyncRequestReceived l i) s = .next s ∧
      exec (.tsyncReplyReceived l i) s = .next s ∧ ∀ t2 t3 : Stamp, exec (.timePacket l i t2 t3) s = .next s) ∧
      ∀ n : FormNode, exec (.formPacket l n) s = .next s) ∧
    (s.linkUp l = true →
      (∃ (t : State) (id : Nat), id = ((s.link l).ident + 1) % 256 ∧ exec (.tsyncSend l) s = .next t ∧ (t.link l).ident = id ∧
        (t.link l).tsync = ((s.link l).tsync.filter fun m => m.ident != id) ++ [⟨id, s.linkTx l, none, none⟩] ∧
        t.out = s.out ++ [.linkWord l 0x66 id] ∧ t.regs = s.regs ∧ t.mem = s.mem) ∧
      (∀ i : BitVec 8, ∃ (t : State) (q : QPkt), exec (.tsyncRequestReceived l i) s = .next t ∧
        (t.link l).queue = (s.link l).queue ++ [q] ∧ q.pkt.typ = 5 ∧
        q.pkt.payload = s.tsBytes (0x10 + portGroup l) (s.linkRx l) ++ s.tsBytes (0x10 + portGroup l) (s.linkTx l) ∧
        t.out = s.out ++ [.linkWord l 0x66 (i.toNat + 256)]) ∧
      (∀ (i : BitVec 8) (x : Tsync), (s.link l).tsync.find? (fun m => m.ident == i.toNat) = some x →
        (∀ t2 t3 : Stamp, x.t23 = some (t2, t3) → exec (.tsyncReplyReceived l i) s =
          .next (s.measure l { x with t4 := some (s.linkRx l) } (s.linkRx l) t2 t3)) ∧
        (x.t23 = none → exec (.tsyncReplyReceived l i) s = .next (s.onLink l fun k => { k with
          tsync := k.tsync.map fun y => if y.ident = i.toNat then { x with t4 := some (s.linkRx l) } else y }))) ∧
      (∀ (i : BitVec 8) (t2 t3 : Stamp) (pk : Packet) (u : State), pk = { s.newPacket 5 0 s.selfDev 0 0 0 with payload := natBytes 32 0 } →
        u = s.linkAccept l pk → (u.link l).tsync.find? (fun m => m.ident == i.toNat) = none →
        exec (.timePacket l i t2 t3) s = .next u) ∧
      (∀ (n : FormNode) (u v : State), u = s.linkAccept l (s.newPacket 4 0 s.selfDev 0 0 0) → (u.link l).nbr = none →
        v = (((u.onLink l fun x => { x with nbr := some n.uid }).setFlag (Off.lnkStat l) 2 (n.domain != u.myDomain)).setFld
          (Off.lnkStat l) 32 18 (n.domain * 1024 + n.member.getD 0)) →
        (n.domain ≠ v.myDomain ∨ n.uid = myUid ∨ tblGet? v.form n.uid = some n → exec (.formPacket l n) s = .next v) ∧
        (n.domain = v.myDomain → n.uid ≠ myUid → tblGet? v.form n.uid ≠ some n → exec (.formPacket l n) s =
          .next (({ v with form := tblSet v.form n.uid n }).flood (some l) n)))) ∧
    (∀ (x : Tsync) (t2 t3 t4 : Stamp), (s.link l).meas = [] → ∃ r b : Int, r = stampUnits t2 - stampUnits x.t1 ∧
      b = stampUnits t4 - stampUnits t3 ∧ (s.measure l x t4 t2 t3).reg (Off.lnkTt l) =
        wrapInt ((r - b) / 2 / 1024 - signed (s.fld (Off.lnkCfg l) 16 16) 16) 32 * 2 ^ 32 + wrapInt ((r + b) / 2 / 1024) 32) ∧
    (∃ t : State, exec .formation s = .next t ∧ ∀ (ns part : List FormNode) (m : Nat),
      ns = (s.flood none s.myNode).formNodes → part = (ns.filter fun n => (tblGet? (hopsFrom ns myUid) n.uid).isSome) → m < 1024 →
      memberNode part m = none → formRoot part ≠ none → t.reg (Off.rtMember m) = 0) ∧
    (∀ (part : List FormNode) (r n : FormNode), formRoot part = some r → n ∈ part → r ∈ part ∧ (r.prio < n.prio ∨ (r.prio = n.prio ∧ r.uid ≤ n.uid)))

/-- From 11 R315, R317, R320, R322 to R325, R328, R330 and R332: the time clock's reference, the copies, the pins, the discipline and the
timers. A step moves the timebase at once, under the next epoch; a slew replaces the one in progress; a lost source turns LOCKED into
HOLDOVER and LOCKING into FREERUN; a sample within the threshold counts toward the lock. -/
def Obligations.TimeDiscipline : Prop :=
  ∀ s : State,
    (exec .referenceSwitch s = .next (if s.flag Off.timeCtrl 4 = true ∧ s.flag Off.timeStat 2 = false then s.refChange true else s)) ∧
    (exec .referenceReturn s = .next (if s.flag Off.timeCtrl 4 = true ∧ s.flag Off.timeStat 2 = true then s.refChange false else s)) ∧
    (∀ i : Nat, i < 0x1F → i ≠ 0x1B → ∃ t : State, exec (.timeCopyCorrection i) s = .next t ∧
      (t.copyOf i).2 = s.fld Off.timeStat 4 4 ∧ -(2 ^ 48 : Int) ≤ (t.copyOf i).1 ∧ (t.copyOf i).1 ≤ 2 ^ 48 ∧ t.time.tb = s.time.tb ∧
      (∀ j : Nat, j ≠ i → t.copyOf j = s.copyOf j) ∧ t.regs = s.regs ∧ t.mem = s.mem) ∧
    (s.flag Off.ppsCfg 29 = false → exec .ppsInEdge s = .next s) ∧
    (s.flag Off.ppsCfg 29 = true → s.ppsAccept = true → ∃ (t : State) (d : Int) (st : Stamp), exec .ppsInEdge s = .next t ∧
      -(2 ^ 48 : Int) ≤ d ∧ d ≤ 2 ^ 48 ∧ st = stampTb ((s.time.tb : Int) + d).toNat ∧ t.reg Off.ppsinNs = st.ns % 2 ^ 64 ∧
      t.yaf.disc.ppsAt = some s.time.cycles ∧ t.yaf.disc.ppsRej = 0 ∧ t.mem = s.mem) ∧
    (s.flag Off.ppsCfg 29 = true → s.ppsAccept = false → ∀ u : State,
      u = s.setFld Off.ppsinFr 24 8 (satAdd (s.fld Off.ppsinFr 24 8) 1 255) →
      exec .ppsInEdge s = .next ((u.onDisc fun x => { x with ppsRej := x.ppsRej + 1 }).raise 722)) ∧
    (s.flag Off.ppsCfg 31 = false → exec .ppsOutPulse s = .next s) ∧
    (s.flag Off.ppsCfg 31 = true → s.flag Off.ppsCfg 30 = true → s.fld Off.timeStat 0 2 < 2 → exec .ppsOutPulse s = .next s) ∧
    (s.flag Off.ppsCfg 31 = true → (s.flag Off.ppsCfg 30 = false ∨ 2 ≤ s.fld Off.timeStat 0 2) →
      exec .ppsOutPulse s = .next (s.emit (.pps s.now))) ∧
    (∀ (g off : Int) (u : State), s.sampleOf g = some off → u = (s.onDisc fun d => { d with offset := off, sampleAt := s.time.cycles }) →
      exec (.disciplineSample g) s = .next ((u.sampleState (s.fld Off.timeCtrl 0 3) off).correct (s.fld Off.timeCtrl 0 3) off)) ∧
    (∀ g : Int, s.sampleOf g = none → exec (.disciplineSample g) s = .next s) ∧
    (∀ (src : Nat) (off : Int), s.fld Off.timeStat 0 2 = 1 → off.natAbs ≤ lockThreshold src → s.yaf.disc.within < 15 →
      s.sampleState src off = s.onDisc fun d => { d with within := s.yaf.disc.within + 1 }) ∧
    (∀ (src : Nat) (off : Int), s.fld Off.timeStat 0 2 = 2 → off.natAbs ≤ 4 * lockThreshold src → s.sampleState src off = s) ∧
    (s.time.cycles < s.yaf.disc.sampleAt + lossTimeout (s.fld Off.timeCtrl 0 3) → exec .sourceLossTimeout s = .next s) ∧
    (s.yaf.disc.sampleAt + lossTimeout (s.fld Off.timeCtrl 0 3) ≤ s.time.cycles →
      (s.fld Off.timeStat 0 2 = 2 → exec .sourceLossTimeout s = .next s.enterHoldover) ∧
      (s.fld Off.timeStat 0 2 = 1 → exec .sourceLossTimeout s = .next (s.timeState 0)) ∧
      (s.fld Off.timeStat 0 2 = 0 ∨ s.fld Off.timeStat 0 2 = 3 → exec .sourceLossTimeout s = .next s)) ∧
    (s.time.slew = 0 → ∃ t : State, exec .slewComplete s = .next t ∧ t.flag Off.timeStat 3 = false ∧ t.mem = s.mem ∧ t.time = s.time) ∧
    (s.time.slew ≠ 0 → exec .slewComplete s = .next s) ∧
    (∀ c k : Nat, c < 16 → k < s.slots c → s.flag (Off.tmrCtrl c k) 63 = true → ∀ u : State,
      u = (s.onLp (6 * c + k) fun p => { p with timer := true }).setFlag (Off.tmrCtrl c k) 61 true →
      ((s.stampIn c).ns < s.reg (Off.tmrCmp c k) → exec (.timerFire c k) s = .next s) ∧
      (s.reg (Off.tmrCmp c k) ≤ (s.stampIn c).ns →
        (s.flag (Off.tmrCtrl c k) 62 = false → exec (.timerFire c k) s = .next (u.setFlag (Off.tmrCtrl c k) 63 false)) ∧
        (s.flag (Off.tmrCtrl c k) 62 = true → s.fld (Off.tmrCtrl c k) 0 32 ≠ 0 → exec (.timerFire c k) s = .next
          (u.setReg (Off.tmrCmp c k) (timerNext (s.reg (Off.tmrCmp c k)) (s.fld (Off.tmrCtrl c k) 0 32) (s.stampIn c).ns % 2 ^ 64))))) ∧
    (∀ (m : Nat) (a : BitVec 48), reaches s m Off.timeAdj 8 .timeAdj [] = true →
      exec (.timeStep m a) s = .next (((s.setReg Off.timeAdj (2 ^ 62 + a.toNat)).adjust true a.toInt).answer .done) ∧
      exec (.timeSlew m a) s = .next (((s.setReg Off.timeAdj a.toNat).adjust false a.toInt).answer .done)) ∧
    (∀ a : Int, (s.adjust false a).time.slew = a * 2 ^ 48 ∧ (s.adjust false a).time.tb = s.time.tb ∧
      (s.adjust false a).flag Off.timeStat 3 = decide (a ≠ 0)) ∧
    (∀ a : Int, 0 ≤ (s.time.tb : Int) + a * 2 ^ 48 → ∃ u : State, (u.time.tb : Int) = s.time.tb + a * 2 ^ 48 ∧ u.time.slew = s.time.slew ∧
      u.regs = s.regs ∧ s.adjust true a = (u.setFld Off.timeStat 4 4 (s.fld Off.timeStat 4 4 + 1)).raise 723) ∧
    (∀ (m : Nat) (src : BitVec 3) (v : Nat), v = setBits (setBit (s.reg Off.timeCtrl) 31 false) 0 3 src.toNat % 2 ^ 32 →
      reaches s m Off.timeCtrl 4 .timeCtrl [] = true →
      exec (.timeCtrlSrcWrite m src) s = .next ((s.timeCtrlWrite (s.locked Off.timeCtrl || bitOf v 31) v).answer .done))

/-- From 12 R335, R336, R340 to R342, R346, R349, R351, R353 and R357: the Prism and cipher engines. A free ACTIVE engine takes the job that a
condemned one left, else the oldest posted; a job of the engine's op goes on by a segment and ends with its record; a wrong tag destroys the
plaintext; a mismatch repeats the segment, and the fourth condemns the engine. -/
def Obligations.JobEngines : Prop :=
  ∀ (s : State) (e : Nat), e < 36 → s.shutdown = false →
    (∀ p : Pool,
      ((s.fld (eBase p e) 0 2 ≠ 1 ∨ (s.jEng p e).job.isSome = true) → exec (.jobDispatch p e) s = .next s) ∧
      (s.fld (eBase p e) 0 2 = 1 → (s.jEng p e).job = none →
        (∀ x : Nat × Job, s.pools.left.find? (fun x => x.1 == poolIx p) = some x →
          exec (.jobDispatch p e) s = .next ((s.onPools fun t => { t with left := t.left.erase x }).jTake p e x.2)) ∧
        (s.pools.left.find? (fun x => x.1 == poolIx p) = none →
          (s.jPick p = none → exec (.jobDispatch p e) s = .next s) ∧
          (∀ j h : Nat, ∀ u : State, s.jPick p = some j → h = s.reg (jHead p j) →
            u = ((s.setReg (jHead p j) ((h + 1) % 2 ^ 32)).onJRing p j fun r => { r with
              posts := r.posts.filter fun x => decide (1 < cnt32 x.1 h ∧ cnt32 x.1 h ≤ s.jSlots p j) }).onPools
                (fun x => { x with served := tblSet x.served (poolIx p) j }) →
            (u.dmaRead (s.jSlotAddr p j h) 64 = none → exec (.jobDispatch p e) s =
              .next (u.jComplete p j [] (jRecord p j [] 3 0 false false false 0 0 0 e))) ∧
            (∀ d : List Byte, u.dmaRead (s.jSlotAddr p j h) 64 = some d → ∀ st detail : Nat, u.jStart p j d = .over st detail →
              (st ≠ 1 → exec (.jobDispatch p e) s = .next (u.jComplete p j d (jRecord p j d st detail false false false 0 0 0 e))) ∧
              (st = 1 → exec (.jobDispatch p e) s =
                .next ((u.jEvent p j 1 h).jComplete p j d (jRecord p j d 1 detail false false false 0 0 0 e))))))) ∧
      (s.fld (eBase p e) 0 2 = 2 → exec (.engineMismatch p e) s = .next s) ∧
      (s.fld (eBase p e) 0 2 ≠ 2 → 3 ≤ (s.jEng p e).tries → exec (.engineMismatch p e) s = .next (s.jCondemn p e)) ∧
      (s.fld (eBase p e) 0 2 ≠ 2 → (s.jEng p e).tries < 3 → ∃ t : State, exec (.engineMismatch p e) s = .next t ∧
        t.jEng p e = ⟨(s.jEng p e).job.map Job.rewind, (s.jEng p e).tries + 1⟩ ∧ t.mem = s.mem ∧
        t.fld (eBase p e) 32 32 = min (s.fld (eBase p e) 32 32 + 1) 0xFFFFFFFF)) ∧
    ((s.jEng .prism e).job = none → exec (.compress e) s = .next s ∧ exec (.decompress e) s = .next s ∧ exec (.prismJobEnd e) s = .next s) ∧
    (∀ x : Job, (s.jEng .prism e).job = some x →
      (x.fin = none → exec (.prismJobEnd e) s = .next s ∧
        (descOp x.desc = 2 → exec (.decompress e) s = .next (s.decompress e x)) ∧
        (descOp x.desc = 1 → x.str.header = true → exec (.compress e) s = .next (s.compressN e [] 2 x)) ∧
        (descOp x.desc = 1 → x.str.header = true → x.srcLeft = 0 → x.final = false → exec (.compress e) s =
          .next ((s.onJob .prism e fun y => { y with str := x.str }).jobEnd .prism e ⟨5, 0, true, true, false⟩)) ∧
        (descOp x.desc = 1 → x.str.header = true → 0 < x.srcLeft → s.dmaRead x.srcAt (min 32768 x.srcLeft) = none → exec (.compress e) s =
          .next ((s.onJob .prism e fun y => { y with str := x.str }).jobEnd .prism e ⟨3, 0, false, false, false⟩))) ∧
      (∀ f : JobEnd, x.fin = some f → exec (.compress e) s = .next s ∧ exec (.decompress e) s = .next s ∧
        (f.status ≠ 0 → f.full = false → exec (.prismJobEnd e) s = .next (s.jobFinish .prism e x f)) ∧
        (f.status = 0 ∨ f.full = true → ∀ u : State, s.prismSave x f.full x.str = some u →
          exec (.prismJobEnd e) s = .next (u.jobFinish .prism e x f)) ∧
        (f.status = 0 ∨ f.full = true → s.prismSave x f.full x.str = none →
          exec (.prismJobEnd e) s = .next (s.jobFinish .prism e x ⟨3, 0, false, false, false⟩)))) ∧
    ((s.jEng .cipher e).job = none → exec (.encrypt e) s = .next s ∧ exec (.decrypt e) s = .next s ∧ exec (.hash e) s = .next s ∧
      exec (.hmacGen e) s = .next s ∧ exec (.hmacVerify e) s = .next s ∧ exec (.cipherJobEnd e) s = .next s) ∧
    (∀ x : Job, (s.jEng .cipher e).job = some x →
      (∀ f : JobEnd, x.fin = some f → exec (.cipherJobEnd e) s = .next (s.jobFinish .cipher e x f)) ∧
      (x.fin = none → exec (.cipherJobEnd e) s = .next s ∧
        (descOp x.desc = 1 → exec (.encrypt e) s = .next (s.crypt e x true)) ∧
        (descOp x.desc = 2 → exec (.decrypt e) s = .next (s.crypt e x false)) ∧
        (descOp x.desc = 3 → exec (.hash e) s = .next (s.digest e x)) ∧
        (descOp x.desc = 4 → exec (.hmacGen e) s = .next (s.digest e x)) ∧
        (descOp x.desc = 5 → exec (.hmacVerify e) s = .next (s.digest e x)) ∧
        (∀ (iv a d out m : List Byte) (g : CState × List Nat) (u : State), descOp x.desc = 2 → cMode x.desc = 1 →
          s.dmaRead (fieldLE x.desc 0x28 8) 12 = some iv → s.cipherInput x = some (vals a, vals d) → x.aadLeft ≤ a.length →
          x.inLeft ≤ d.length → g = gcmSegment x false (vals iv) (vals a) (vals d) → out = bytesOf g.2 →
          s.dmaWrite (fieldLE x.desc 0x10 8 + (x.ci.inn - x.base.2)) out = some u →
          u.dmaRead (fieldLE x.desc 0x30 8) (gcmTag x (vals iv) g.1).length = some m →
          (m = bytesOf (gcmTag x (vals iv) g.1) → exec (.decrypt e) s = .next (u.cipherDone e g.1 true)) ∧
          (m ≠ bytesOf (gcmTag x (vals iv) g.1) → ∀ v : State,
            u.dmaWrite (fieldLE x.desc 0x10 8) (List.replicate (cLen x.desc) 0) = some v →
            exec (.decrypt e) s = .next (v.cipherDone e g.1 false)))))

/-- From 12 R334, R355, R358, R360 and R361: doorbells, enable and disable of a job ring, and the key commands. A tail that another master
writes is a bus error and an event; one beyond the ring is dropped; the key commands leave KEY_DATA zero and their result in KEY_CMD, and a
locked slot is not cleared. -/
def Obligations.JobRingsAndKeys : Prop :=
  ∀ (s : State) (m j : Nat), j < 36 →
    (∀ (p : Pool) (nm : RegName) (v : BitVec 32), (p = .prism ∧ nm = .pjTail ∨ p = .cipher ∧ nm = .cjTail) →
      reaches s m (jTail p j) 4 nm [j] = true → ∀ r : Host.Outcome State Fault Refusal,
      r = (match p with | .prism => exec (.prismDoorbell m j v) s | .cipher => exec (.cipherDoorbell m j v) s) →
      (m ≠ s.jOwner p j → r = .next ((s.jEvent p j 2 0).answer .busError)) ∧
      (m = s.jOwner p j → s.jSlots p j < cnt32 v.toNat (s.reg (jHead p j)) →
        r = .next (((s.setFlag (jStat p j) 3 true).jEvent p j 3 v.toNat).answer .done)) ∧
      (m = s.jOwner p j → cnt32 v.toNat (s.reg (jHead p j)) ≤ s.jSlots p j → r = .next (((s.setReg (jTail p j) v.toNat).onJRing p j fun q =>
        { q with posts := q.posts ++ [(v.toNat, s.time.cycles)] }).answer .done))) ∧
    (∀ (p : Pool) (nm : RegName), (p = .prism ∧ nm = .pjCfg ∨ p = .cipher ∧ nm = .cjCfg) → reaches s m (jCfg p j) 8 nm [j] = true →
      (s.jOn p j = true → exec (.jobRingEnable m p j) s = .next (s.answer .done) ∧
        exec (.jobRingDisable m p j) s = .next ((s.jDisable p j).answer .done)) ∧
      (s.jOn p j = false → ∃ t : State, exec (.jobRingEnable m p j) s = .next (t.answer .done) ∧ t.jOn p j = true ∧
        t.jOwner p j = s.jOwner p j ∧ t.jWidth p j = s.jWidth p j ∧ t.mem = s.mem)) ∧
    (reaches s m Off.keyCmd 8 .keyCmd [] = true → ∀ slot : BitVec 10,
      (∀ (typ : BitVec 3) (len : BitVec 7) (owner : BitVec 12) (pu : Bool) (r : Nat) (u : State),
        u = s.setReg Off.keyCmd (2 ^ 60 + s.fld Off.keyCmd 48 3 * 2 ^ 48 + len.toNat * 2 ^ 40 + typ.toNat * 2 ^ 36 + bit01 pu * 2 ^ 33 +
          owner.toNat * 65536 + slot.toNat) →
        r = s.keyLoadResult slot.toNat typ.toNat len.toNat owner.toNat (s.keyData len.toNat) →
        exec (.keyCmdLoad m slot typ len owner pu) s = .next ((((if r = 0 then
          u.keyPut slot.toNat typ.toNat len.toNat owner.toNat pu (u.keyData len.toNat) else u).keyWipe).setReg Off.keyCmd
            (2 ^ 60 + len.toNat * 2 ^ 40 + typ.toNat * 2 ^ 36 + bit01 pu * 2 ^ 33 + owner.toNat * 65536 + slot.toNat +
              r * 2 ^ 48)).answer .done)) ∧
      (∃ t : State, exec (.keyCmdClear m slot) s = .next t ∧ t.mem = s.mem ∧ (∀ i : Nat, i < 8 → t.reg (Off.keyData i) = 0) ∧
        (s.flag (Off.keyStat slot.toNat) 30 = true → t.reg (Off.keyStat slot.toNat) = s.reg (Off.keyStat slot.toNat) ∧
          t.pools.keys = s.pools.keys ∧ t.fld Off.keyCmd 48 3 = 1) ∧
        (s.flag (Off.keyStat slot.toNat) 30 = false → t.reg (Off.keyStat slot.toNat) = 0 ∧
          t.pools.keys = tblErase s.pools.keys slot.toNat ∧ t.fld Off.keyCmd 48 3 = 0)) ∧
      (∃ t : State, exec (.keyCmdLock m slot) s = .next t ∧ t.mem = s.mem ∧ t.flag (Off.keyStat slot.toNat) 30 = true ∧
        (∀ i : Nat, i < 8 → t.reg (Off.keyData i) = 0) ∧ t.pools.keys = s.pools.keys))

/-- From 13 R370: a write to MBX_RING by the sender of a valid channel makes the channel's doorbell pending without placing a message; on a
channel with valid = 0 it has no effect. The ring field of the write is its bit 0; a channel whose receiver R363 excludes rings nothing. -/
def Obligations.DoorbellRing : Prop :=
  ∀ (s : State) (m ch : Nat) (v : BitVec 32), ch < 4096 → reaches s m (Off.mbxRing ch) 4 .mbxRing [ch] = true →
    (s.bindValid ch = false → exec (.mbxRingWrite m ch v) s = .next (s.answer .done)) ∧
    (∀ p k : Nat, s.bindValid ch = true → bitOf v.toNat 0 = true → s.dbReceiver (s.bindReceiver ch) = true →
      dbOffsets (s.bindReceiver ch) = some (p, k) → ∃ t : State, exec (.mbxRingWrite m ch v) s = .next t ∧
        t.flag p (s.bindBit ch) = true ∧ t.chans = s.chans ∧ t.mem = s.mem ∧ t.resp = .done)

/-- From 13 R363, R367, R368, R371 to R373 and R377, 14 R384: the mailboxes. A post whose eight words are not all written is INCOMPLETE, one too
long BAD_LENGTH, one to a channel not valid CLOSED; a full store gives FULL, or makes a blocking post wait, and it ends with TIMEOUT; a pop
removes the head that it names; a doorbell that a waiting message holds cannot be cleared; a locked binding stays. -/
def Obligations.Mailboxes : Prop :=
  ∀ (s : State) (m ch : Nat), ch < 4096 →
    (∀ (i : Nat) (v : BitVec 64), i < 8 → reaches s m (Off.mbxTx ch i) 8 .mbxTx [ch, i] = true → ∃ t : State,
      exec (.mbxTxWrite m ch i v) s = .next t ∧ tblGetD (t.chan ch).staging i 0 =
        BitVec.ofNat 64 (if i = 0 then v.toNat / 2 ^ 44 * 2 ^ 44 else v.toNat) ∧ (t.chan ch).store = (s.chan ch).store ∧
        t.regs = s.regs ∧ t.mem = s.mem) ∧
    (reaches s m (Off.mbxPost ch) 4 .mbxPost [ch] = true → ∀ u : State, u = s.onChan ch (fun c => { c with staging := [] }) →
      ((s.chan ch).staging.length < 8 → exec (.post m ch) s = .next ((u.postCode ch 3).answer .done) ∧
        ∀ w : BitVec 20, exec (.blockingPost m ch w) s = .next ((u.postCode ch 3).answer .done)) ∧
      (8 ≤ (s.chan ch).staging.length →
        (56 < bits ((s.chan ch).words.headD 0).toNat 44 6 → exec (.post m ch) s = .next ((u.postCode ch 4).answer .done)) ∧
        (bits ((s.chan ch).words.headD 0).toNat 44 6 ≤ 56 →
          (s.bindValid ch = false → exec (.post m ch) s = .next ((u.postCode ch 5).answer .done)) ∧
          (s.bindValid ch = true →
            ((s.chan ch).store.length < 8 → exec (.post m ch) s = .next ((u.chanPut ch (s.chan ch).words).answer .done) ∧
              ∀ w : BitVec 20, exec (.blockingPost m ch w) s = .next ((u.chanPut ch (s.chan ch).words).answer .done)) ∧
            (8 ≤ (s.chan ch).store.length → exec (.post m ch) s = .next (((u.postCode ch 1).countHub 2 1 1).answer .done) ∧
              ∀ w : BitVec 20, exec (.blockingPost m ch w) s =
                .next (((u.onChan ch fun c => { c with blocking := some (s.chan ch).words }).countHub 2 1 1).answer .done)))))) ∧
    ((s.chan ch).blocking = none → exec (.postTimeout ch) s = .next s) ∧
    ((s.chan ch).blocking ≠ none → ∃ t : State, exec (.postTimeout ch) s = .next t ∧ (t.chan ch).blocking = none ∧
      t.fld (Off.mbxPostStat ch) 0 4 = 2 ∧ (t.chan ch).store = (s.chan ch).store ∧ t.mem = s.mem) ∧
    (reaches s m (Off.mbxPop ch) 4 .mbxPop [ch] = true → ∀ v : BitVec 32,
      ((s.chan ch).store = [] → exec (.pop m ch v) s = .next ((s.mbxErrLog ch 2 m).answer .done)) ∧
      (∀ (x : Msg) (rest : List Msg), (s.chan ch).store = x :: rest →
        (x.seq ≠ v.toNat % 65536 → exec (.pop m ch v) s = .next ((s.mbxErrLog ch 2 m).answer .done)) ∧
        (x.seq = v.toNat % 65536 → (s.chan ch).blocking = none → exec (.pop m ch v) s =
          .next ((s.onChan ch fun c => { c with store := rest }).answer .done)) ∧
        (∀ ws : List (BitVec 64), x.seq = v.toNat % 65536 → (s.chan ch).blocking = some ws → exec (.pop m ch v) s =
          .next ((((s.onChan ch fun c => { c with store := rest }).onChan ch fun c => { c with blocking := none }).chanPut ch
            ws).answer .done)))) ∧
    (reaches s m (Off.mbxBind ch) 8 .mbxBind [ch] = true → ∀ v : BitVec 64,
      (s.flag (Off.mbxBind ch) 63 = true → exec (.bindWrite m ch v) s = .next (s.answer .done)) ∧
      (s.flag (Off.mbxBind ch) 63 = false → bitOf v.toNat 63 = true →
        exec (.bindWrite m ch v) s = .next ((s.setFlag (Off.mbxBind ch) 63 true).answer .done)) ∧
      (s.flag (Off.mbxBind ch) 63 = false → bitOf v.toNat 63 = false → ∃ t : State, exec (.bindWrite m ch v) s = .next t ∧
        t.bindValid ch = bitOf v.toNat 62 ∧ t.bindBit ch = bits v.toNat 32 5 ∧ t.mem = s.mem ∧
        ((s.chan ch).store = [] → t.bindSender ch = bits v.toNat 0 12 ∧ t.bindReceiver ch = bits v.toNat 16 12) ∧
        ((s.chan ch).store ≠ [] → t.bindSender ch = s.bindSender ch ∧ t.bindReceiver ch = s.bindReceiver ch))) ∧
    (∀ (f : Nat) (v : BitVec 32), f < 64 → reaches s m (Off.dbPendHf f) 4 .dbPendHf [f] = true →
      exec (.doorbellClear m (.host f) v) s = .next ((s.dbClear f v.toNat).answer .done)) ∧
    (∀ (f : Nat) (v : BitVec 32), f < 64 → reaches s m (Off.dbMaskHf f) 4 .dbMaskHf [f] = true →
      exec (.doorbellMaskWrite m (.host f) v) s = .next ((s.dbMaskSet f v.toNat).answer .done)) ∧
    (∀ (i : Nat) (v : BitVec 32), i < 2 → (reaches s m (Off.dbPendCp i) 4 .dbPendCp [i] = true →
        exec (.doorbellClear m (.cp i) v) s = .next ((s.dbClear (0x200 + i) v.toNat).answer .done)) ∧
      (reaches s m (Off.dbMaskCp i) 4 .dbMaskCp [i] = true →
        exec (.doorbellMaskWrite m (.cp i) v) s = .next ((s.dbMaskSet (0x200 + i) v.toNat).answer .done))) ∧
    (∀ (c k : Nat) (v : BitVec 32), c < 16 → k < 6 → (reaches s m (Off.dbPendLp c k) 4 .dbPendLp [c, k] = true →
        exec (.doorbellClear m (.slot c k) v) s = .next ((s.dbClear (0x100 + 6 * c + k) v.toNat).answer .done)) ∧
      (reaches s m (Off.dbMaskLp c k) 4 .dbMaskLp [c, k] = true →
        exec (.doorbellMaskWrite m (.slot c k) v) s = .next ((s.dbMaskSet (0x100 + 6 * c + k) v.toNat).answer .done))) ∧
    (∀ i v b : Nat, i < 2 → b < 32 → (s.dbClear (0x200 + i) v).flag (Off.dbPendCp i) b =
      (s.flag (Off.dbPendCp i) b && (!bitOf v b || s.msgWaits (0x200 + i) b))) ∧
    (∀ c k b : Nat, c < 16 → k < 6 → b < 32 →
      (s.dbReceiver (0x100 + 6 * c + k) = true → exec (.doorbellPacedDelivery (.slot c k) b) s = .next (s.dbDeliver (6 * c + k) b true)) ∧
      (s.dbReceiver (0x100 + 6 * c + k) = false → exec (.doorbellPacedDelivery (.slot c k) b) s = .next s) ∧
      (bitOf (tblGetD (s.dbDeliver (6 * c + k) b true).dbIn (6 * c + k) 0) b =
        (s.flag (Off.dbPendLp c k) b && !s.flag (Off.dbMaskLp c k) b))) ∧
    (∀ cp : Nat, cmdExists ⟨m, cp, 0, 0, 0, true⟩ = true →
      (s.yafAlive = false ∨ s.shutdown = true → exec (.completionPostRetry m cp) s = .next s) ∧
      (s.yafAlive = true → s.shutdown = false → (s.chan (complChannel m cp)).store.length < 8 →
        ∀ p : List Byte, (s.req m).comps = [(cp, p)] → ∀ u : State,
        u = (s.chanPut (complChannel m cp) (yafWords 2 p)).onReq m (fun r => { r with comps := [] }) →
        exec (.completionPostRetry m cp) s = .next (u.postHeld m 299)))

/-- From 02 R45 to R47, R50, R54, R55, R58, R59 and R63: detections, re-pairing and debug access of Mirror pairs. A detection within 4 cc of a
synchroniser's disagreement is a SKEW retry and leaves the budget alone; three retries of a boundary are made, and the next detection holds
the pair; a held pair goes onto the spare that its faults ask for, or is lost. -/
def Obligations.MirrorPairs : Prop :=
  ∀ (s : State) (c k : Nat), c < 16 → k < 3 →
    (s.isSplit c = true → ∀ ev : Detect, exec (.retry c k ev) s = .next s) ∧
    (s.isSplit c = false → (s.pair (pairNum c k)).cmpOff = false →
      ((s.lp (pairLp c k)).run = .repairing → ∀ ev : Detect, exec (.retry c k ev) s = .next (s.pairLost c k)) ∧
      ((s.lp (pairLp c k)).run = .running →
        (∀ lane d : Nat, d ≤ 4 → exec (.retry c k (.mismatch lane (some d))) s = .next (s.pairSkew c k lane) ∧
          ((s.pairSkew c k lane).pair (pairNum c k)).skewHold = true ∧
          ((s.pairSkew c k lane).pair (pairNum c k)).attempts = (s.pair (pairNum c k)).attempts) ∧
        (∀ lane d : Nat, 4 < d → exec (.retry c k (.mismatch lane (some d))) s = .next (s.pairFault c k 1 lane)) ∧
        (∀ lane : Nat, exec (.retry c k (.mismatch lane none)) s = .next (s.pairFault c k 1 lane) ∧
          exec (.retry c k (.comparatorFault lane)) s = .next (s.pairFault c k 3 lane)) ∧
        (exec (.retry c k .delayFault) s = .next (s.pairFault c k 4 noLane)))) ∧
    (∀ cause lane : Nat, s.fld (Off.cmpStat c k) 14 2 < 3 → ∃ t : State, t = s.pairFault c k cause lane ∧
      t.fld (Off.cmpStat c k) 14 2 = s.fld (Off.cmpStat c k) 14 2 + 1 ∧ t.fld (Off.cmpStat c k) 20 4 = cause % 16 ∧
      t.lps = s.lps ∧ t.mem = s.mem) ∧
    (∀ cause lane : Nat, s.fld (Off.cmpStat c k) 14 2 = 3 → ∃ u : State, (u.lp (pairLp c k)).run = .repairing ∧
      (u.lp (pairLp c k)).was = (s.lp (pairLp c k)).run ∧ u.flag (Off.cmpStat c k) 30 = true ∧
      u.fld (Off.cmpStat c k) 20 4 = 5 ∧ u.mem = s.mem ∧ s.pairFault c k cause lane = u.raise (16 * c + k)) ∧
    ((s.lp (pairLp c k)).run ≠ .repairing → ∀ v : RepairVerdict, exec (.repairSequence c k v) s = .next s) ∧
    ((s.lp (pairLp c k)).run = .repairing → ∀ (v : RepairVerdict) (p : RepairPath),
      p = repairPath (s.pair (pairNum c k)).attempts v →
      (v.further = true → exec (.repairSequence c k v) s = .next (s.pairLost c k)) ∧
      (v.further = false → p ≠ .none → s.spareState c p.spare = 0 → v.spareOk = true →
        exec (.repairSequence c k v) s = .next (s.pairSteer c k p)) ∧
      (v.further = false → p ≠ .none → s.spareState c p.spare ≠ 0 → exec (.repairSequence c k v) s =
        .next ((s.condemn (s.pathUnit c k p).1 c (s.pathUnit c k p).2 (16 * c + k) false).pairLost c k))) ∧
    (∀ (at_ : List Nat) (v : RepairVerdict), (3 ∈ at_ ∨ 4 ∈ at_ → repairPath at_ v = .slice) ∧
      (3 ∉ at_ → 4 ∉ at_ → (v.leadOk = true → v.trailOk = true → repairPath at_ v = .slice) ∧
        (v.leadOk = false → v.trailOk = true → repairPath at_ v = .lead) ∧
        (v.leadOk = true → v.trailOk = false → repairPath at_ v = .trail) ∧
        (v.leadOk = false → v.trailOk = false → repairPath at_ v = .none))) ∧
    (∀ v : RepairVerdict, (s.fld (Off.cmpCtrl c) 8 8 = 0 ∨ s.recentRetries c k < s.fld (Off.cmpCtrl c) 8 8 →
        exec (.proactiveRepair c k v) s = .next s) ∧
      (s.isSplit c = false → (s.lp (pairLp c k)).run = .running → s.fld (Off.cmpCtrl c) 8 8 ≠ 0 →
        s.fld (Off.cmpCtrl c) 8 8 ≤ s.recentRetries c k → exec (.proactiveRepair c k v) s = .next ((s.pairHold c k).pairRepair c k v))) ∧
    (∀ (i : Nat) (ok : Bool), i < 2 → ((s.lp (96 + i)).run = .lost → exec (.cpRepair i ok) s = .next s) ∧
      (∀ (src : Nat) (u : State), (s.lp (96 + i)).run ≠ .lost → src = 746 + i →
        (s.cpSpareFree = true → ok = true → u = ((s.raise src).condemn 8 0 (2 * i) src true).condemn 8 0 (2 * i + 1) src true →
          exec (.cpRepair i ok) s = .next (u.onLp (96 + i) fun p => { p with l1d := L1.empty, l1i := L1.empty, invq := [] })) ∧
        (s.cpSpareFree = false ∨ ok = false →
          u = (((s.raise src).condemn 8 0 (2 * i) src false).condemn 8 0 (2 * i + 1) src false).cpLost i →
          exec (.cpRepair i ok) s = .next (u.event 1 (lpMaster (96 + i)) 5 0 []))))

/-- From 02 R63 and R64: Tamler. It halts a logical processor, reads and writes its registers and memory only while it is halted, lets one
instruction run, and on exit lets it go on; an access to one core of a pair sets LOCKSTEP_BROKEN and switches comparison off. -/
def Obligations.DebugAccess : Prop :=
  ∀ (s : State) (n : Nat), n < 98 →
    ((s.lp n).run = .running ∨ (s.lp n).run = .waiting → ∃ t : State, exec (.tamlerHalt n) s = .next t ∧ (t.lp n).run = .debug ∧
      (t.lp n).was = (s.lp n).run ∧ (t.lp n).pc = (s.lp n).pc ∧ t.regs = s.regs ∧ t.mem = s.mem ∧ ∀ i : Nat, i ≠ n → t.lp i = s.lp i) ∧
    ((s.lp n).run ≠ .running → (s.lp n).run ≠ .waiting → exec (.tamlerHalt n) s = .next s) ∧
    ((s.lp n).run ≠ .debug → ∀ (it : TamlerItem) (w : Option (BitVec 64)), exec (.tamlerAccess n it w) s = .next (s.answer .busError)) ∧
    ((s.lp n).run = .debug →
      (∀ r : BitVec 4, exec (.tamlerAccess n (.baseReg r) none) s = .next (s.answer (.value (tblGetD (s.lp n).b r.toNat 0)))) ∧
      (∀ (r : BitVec 4) (v : BitVec 64), ∃ t : State, exec (.tamlerAccess n (.baseReg r) (some v)) s = .next t ∧
        tblGetD (t.lp n).b r.toNat 0 = v ∧ t.regs = s.regs ∧ t.mem = s.mem) ∧
      (exec (.tamlerAccess n .pc none) s = .next (s.answer (.value (s.lp n).pc))) ∧
      (∀ v : BitVec 64, ∃ t : State, exec (.tamlerAccess n .pc (some v)) s = .next t ∧ (t.lp n).pc.toNat = v.toNat % 2 ^ 52 ∧
        t.mem = s.mem) ∧
      (∀ (k : BitVec 8) (w : Option (BitVec 64)), srKnown k.toNat = false →
        exec (.tamlerAccess n (.sysReg k) w) s = .next (s.answer .busError)) ∧
      (∀ (a : Nat) (t : MemType), (s.lp n).check a 8 .read 0 = .ok t → exec (.tamlerAccess n (.memory a) none) s =
        .next (s.answer (.value (BitVec.ofNat 64 (leNat (s.readBytes n a 8)))))) ∧
      (∀ (a : Nat) (t : MemType) (v : BitVec 64), (s.lp n).check a 8 .write 0 = .ok t → exec (.tamlerAccess n (.memory a) (some v)) s =
        .next ((s.store n a t (natBytes 8 v.toNat)).answer .done))) ∧
    ((s.lp n).run = .debug → ∃ t : State, exec (.tamlerSingleStep n) s = .next t ∧ (t.lp n).run = .stepping ∧ t.mem = s.mem) ∧
    ((s.lp n).run ≠ .debug → exec (.tamlerSingleStep n) s = .next s) ∧
    (s.pairOf n = none → exec (.tamlerPerCoreAccess n) s = .next s) ∧
    (∀ c k : Nat, s.pairOf n = some (c, k) → ∃ u : State, u.flag (Off.cmpStat c k) 31 = true ∧ (u.pair (pairNum c k)).cmpOff = true ∧
      u.mem = s.mem ∧ exec (.tamlerPerCoreAccess n) s = .next (u.raise (16 * c + k))) ∧
    ((s.lp n).run ≠ .debug → (s.lp n).run ≠ .stepping → exec (.tamlerExit n) s = .next s) ∧
    ((s.lp n).run = .debug ∨ (s.lp n).run = .stepping → ∃ t : State, exec (.tamlerExit n) s = .next t ∧ (t.lp n).run = (s.lp n).was ∧
      t.regs = s.regs ∧ t.mem = s.mem ∧ (∀ c k : Nat, s.pairOf n = some (c, k) → s.flag (Off.cmpStat c k) 31 = true →
        (t.lp n).l1d = L1.empty ∧ (t.lp n).l1i = L1.empty ∧ (t.pair (pairNum c k)).cmpOff = false))

/-- From 16 R418, R419, R421, R422, R424, R427 to R431, R434, R435 and R437: event sources, ERR_N, and the supply and temperature monitors. A
raise sets the pending bit with the reaction that ERR_REACT then holds, or the overflow bit, and counts; a reserved source is never raised;
ERR_N stays low for 20 µs; SAG_WARN writes the durable lines back; SAG_RESET asks for a warm reset. -/
def Obligations.FaultBlock : Prop :=
  ∀ s : State,
    (∀ n : Nat, n < 768 → exec (.sourceRaise n) s = .next (s.raise n)) ∧
    (∀ n : Nat, sourceReserved n = true → s.raise n = s) ∧
    (∀ n : Nat, n < 768 → sourceReserved n = false → s.flag (Off.errSrc n) 31 = true → s.flag (Off.errFirst (n / 32)) 0 = true →
      (s.raise n).flag (Off.errSrc n) 31 = true ∧ (s.raise n).flag (Off.errSrc n) 30 = true ∧
      (s.raise n).fld (Off.errSrc n) 0 8 = min (s.fld (Off.errSrc n) 0 8 + 1) 255 ∧
      (s.raise n).flag (Off.errFirst (n / 32)) 1 = true ∧ (s.raise n).mem = s.mem ∧ (s.raise n).lps = s.lps) ∧
    (∀ n : Nat, n < 768 → sourceReserved n = false → s.ready = false → s.flag (Off.errSrc n) 31 = false →
      (s.raise n).flag (Off.errSrc n) 31 = true ∧ (s.raise n).fld (Off.errSrc n) 27 3 = s.react n ∧
      (s.raise n).heldReacts = s.heldReacts ++ [n] ∧ (s.raise n).mem = s.mem) ∧
    (∀ m n : Nat, n < 768 → reaches s m (Off.errSrc n) 4 .errSrc [n] = true → ∃ t : State, exec (.errSrcClear m n) s = .next t ∧
      t.flag (Off.errSrc n) 31 = false ∧ t.fld (Off.errSrc n) 27 3 = s.fld (Off.errSrc n) 27 3 ∧ t.mem = s.mem ∧
      (∀ off : Nat, off ≠ Off.errSrc n → t.reg off = s.reg off)) ∧
    (∀ m g : Nat, g < 24 → reaches s m (Off.errFirst g) 4 .errFirst [g] = true → s.flag (Off.errFirst g) 0 = true →
      ∃ t : State, exec (.errFirstClear m g) s = .next t ∧ t.reg (Off.errFirst g) = 0 ∧ t.reg (Off.errFirstNs g) = 0 ∧
        t.reg (Off.errFirstFr g) = 0 ∧ t.mem = s.mem) ∧
    (∀ (m g : Nat) (hi : Bool) (v : BitVec 64) (off : Nat) (nm : RegName), g < 24 → off = (if hi then Off.errReactHi g else Off.errReactLo g) →
      nm = (if hi then .errReactHi else .errReactLo) → reaches s m off 8 nm [g] = true →
      (s.flag Off.fprCtrl 31 = true → exec (.errReactWrite m g hi v) s = .next (s.answer .done)) ∧
      (s.flag Off.fprCtrl 31 = false → ∃ t : State, exec (.errReactWrite m g hi v) s = .next t ∧ ∀ j : Nat, j < 16 →
        t.fld off (4 * j) 3 = reactStored (32 * g + (if hi then 16 else 0) + j) (s.fld off (4 * j) 3) (bits v.toNat (4 * j) 3))) ∧
    (∀ m : Nat, reaches s m Off.errPin 4 .errPin [] = true → exec (.errPinForce m) s = .next ((s.assertErrN 0x3FF).answer .done) ∧
      (s.errPin.low = false ∨ s.shutdown = true → exec (.errPinRelease m) s = .next (s.answer .done)) ∧
      (s.errPin.low = true → s.shutdown = false →
        (s.errPin.since + 20000 ≤ s.time.cycles → exec (.errPinRelease m) s = .next (s.errNRelease.answer .done)) ∧
        (s.time.cycles < s.errPin.since + 20000 → ∃ t : State, exec (.errPinRelease m) s = .next t ∧ t.errPin.armed = true ∧
          t.errPin.low = true ∧ t.regs = s.regs))) ∧
    (s.errPin.low = true → s.errPin.armed = true → s.shutdown = false → ∃ t : State, exec .errNRelease s = .next t ∧
      t.errPin.low = false ∧ t.flag Off.errPin 31 = false ∧ t.mem = s.mem) ∧
    (s.errPin.armed = false → exec .errNRelease s = .next s) ∧
    (∀ rail : Nat, rail < 7 → s.shutdown = false →
      (s.flag Off.fprStat 0 = true → exec (.sagWarn rail) s = .next s) ∧
      (s.flag Off.fprStat 0 = false → exec (.sagWarn rail) s =
        .next ((((s.setFlag Off.fprStat 0 true).history 0).raise 736).flushDurable)) ∧
      (s.ready = true → exec (.sagReset rail) s = .next (((s.history 1).raise 737).askReset (.warm 737))) ∧
      (s.ready = false → exec (.sagReset rail) s = .next ((s.history 1).raise 737))) ∧
    (s.flag Off.fprStat 0 = true → s.shutdown = false → ∃ t : State, exec .sagWarnClear s = .next t ∧ t.flag Off.fprStat 0 = false ∧
      t.twStopped = s.chip.down ∧ t.mem = s.mem) ∧
    (∀ rail : Nat, rail < 10 → exec (.railOutOfWindow rail) s = .next (s.raise 740)) ∧
    (∀ ck : Nat, ck < 10 → exec (.refclkFault ck) s = .next (s.raise 741)) ∧
    (∀ d : Nat, d < 4 → exec (.d2dLinkFault d) s = .next (s.raise (742 + d))) ∧
    (exec .fabricBufferError s = .next (s.raise 751)) ∧
    (∀ r : Int, s.shutdown = false → s.flag Off.fprStat 3 = false → ∀ u : State, u = s.thermRead 0 r →
      (r < 960 → exec (.thermSample [r]) s = .next u) ∧
      (960 ≤ r → r < 1080 → exec (.thermSample [r]) s = .next ((u.setFlag Off.fprStat 3 true).raise 738)) ∧
      (1080 ≤ r → 1080 ≤ thermVal (s.fld (Off.therm 0) 0 16) → exec (.thermSample [r]) s =
        .next (((u.setFlag Off.fprStat 3 true).raise 738).thermShutdown r))) ∧
    (∀ n i c a : Nat, n < 98 → i < 3 → (tblGet? s.errHeld (4 * n + i) = none → exec (.errorInputPacedDelivery n i) s = .next s) ∧
      (tblGet? s.errHeld (4 * n + i) = some (c, a) → ∃ t : State, exec (.errorInputPacedDelivery n i) s = .next t ∧
        t.lp n = (s.lp n).takeInput i c a ∧ tblGet? t.errHeld (4 * n + i) = none ∧ t.regs = s.regs ∧ t.mem = s.mem))

/-- From 17 R439 to R442, R444, R445, R448, R450, 19 R472, R473, R476, R478, R482 and R484: DRAM errors, fuses, wear, self-test and Lens. A
scrub counts its line, and a corrected or an uncorrectable error goes to the rule of its kind; a device that fails in a half already marked
for another uses the channel up; a fuse is written whole, or cut short at a loss of power; a run of self-test needs its prerequisite; a
snapshot is taken at its instant. -/
def Obligations.LifeTestAndLens : Prop :=
  ∀ s : State,
    (∀ (ch a : Nat) (u : State), ch < 16 → u = s.count (Off.lensDrCnt ch 3) 1 →
      (exec (.patrolScrub ch a none 0 false) s = .next u) ∧
      (∀ d b : Nat, exec (.patrolScrub ch a (some d) b false) s = .next (u.dramCorrected ch a d b)) ∧
      (∀ d b : Nat, exec (.patrolScrub ch a (some d) b true) s = .next (u.dramUncorrectable ch a d))) ∧
    (∀ ch : Nat, ch < 16 → exec (.dramAlert ch true) s = .next (s.dramEvent ch 9 0 0 3) ∧
      exec (.dramAlert ch false) s = .next (s.dramEvent ch 8 0 0 3)) ∧
    (∀ ch p d e : Nat, tblGet? s.svc.marks (8 * ch + placeHalf p) = some e → (e = d → s.deviceFails ch p d = s) ∧
      (e ≠ d → s.deviceFails ch p d = (s.dramEvent ch 6 p d 2).spareGone 11 (616 + 4 * ch + 2))) ∧
    (∀ ok : Bool, s.fuseTask = none → exec (.fuseProgram ok) s = .next s) ∧
    (∀ (slot : Nat) (v : BitVec 32), s.fuseTask = some (slot, v) → exec (.fuseProgram true) s = .next (s.fuseWrite slot v) ∧
      ∃ t : State, exec (.fuseProgram false) s = .next t ∧ t.svc.fuseProg = some (slot, v) ∧ t.svc.map = s.svc.map ∧ t.mem = s.mem ∧
        t.reg (Off.spmapFuse slot) = ((BitVec.ofNat 32 (s.reg (Off.spmapFuse slot)) ||| Config.fuseCutShort slot v) &&& v).toNat) ∧
    (∀ c deg : Nat, c < 16 → ∃ t : State, exec (.ageMeasure c deg) s = .next t ∧ t.reg (Off.age c) = min deg 0xFFFF ∧ t.mem = s.mem ∧
      t.lps = s.lps) ∧
    (∀ hour : Bool, ∃ (t : State) (f : Nat), f = s.chip.lifeFrac + lifeGain s.hottest ∧ exec (.lifeUpdate hour) s = .next t ∧
      t.fld Off.life 0 32 = min (s.fld Off.life 0 32 + bit01 hour) (2 ^ 32 - 1) ∧
      t.fld Off.life 32 32 = min (s.fld Off.life 32 32 + f / 2 ^ 64) (2 ^ 32 - 1) ∧ t.chip.lifeFrac = f % 2 ^ 64 ∧ t.mem = s.mem) ∧
    (∀ (m : Nat) (sc un : BitVec 8) (k : Bool) (u : State), reaches s m Off.bistCtrl 4 .bistCtrl [] = true →
      u = s.setReg Off.bistCtrl (bits (s.reg Off.bistCtrl) 31 1 * 2 ^ 31 + un.toNat * 65536 + sc.toNat * 256 + bit01 k) →
      (s.chip.bist ≠ none ∨ bistExists sc.toNat un.toNat = false ∨ s.bistReady sc.toNat un.toNat = false →
        exec (.bistGo m sc un k) s = .next (u.answer .done)) ∧
      (s.chip.bist = none → bistExists sc.toNat un.toNat = true → s.bistReady sc.toNat un.toNat = true → ∃ t : State,
        exec (.bistGo m sc un k) s = .next t ∧ t.chip.bist = some (sc.toNat, un.toNat, bit01 k) ∧ t.flag Off.bistCtrl 31 = true ∧
        t.flag Off.bistStat 30 = true ∧ t.mem = s.mem)) ∧
    (s.chip.bist = none → ∀ f : BitVec 31, exec (.bistDone f) s = .next s) ∧
    (∀ (sc un k : Nat) (f : BitVec 31) (v : Nat) (u : State), s.chip.bist = some (sc, un, k) → v = s.bistCounts sc un f →
      u = (({ s with chip := { s.chip with bist := none } } : State).bistWipe sc un).bistShow (sc, un, k) v →
      (v = 0 → exec (.bistDone f) s = .next (u.engineBack sc un)) ∧
      (v ≠ 0 → 2 < sc → exec (.bistDone f) s = .next (u.engineCondemn sc un)) ∧
      (v ≠ 0 → sc ≤ 2 → s.clusterSpares un v = true → exec (.bistDone f) s = .next (u.clusterCondemn un v)) ∧
      (v ≠ 0 → sc ≤ 2 → s.clusterSpares un v = false → exec (.bistDone f) s = .next u)) ∧
    (s.flag Off.lensCtrl 31 = false → exec .lensSnapshot s = .next s) ∧
    (s.flag Off.lensCtrl 31 = true → (s.now < s.reg Off.lensSnapAt → exec .lensSnapshot s = .next s) ∧
      (s.reg Off.lensSnapAt ≤ s.now → exec .lensSnapshot s = .next (s.lensSnap ⟨s.reg Off.lensSnapAt, 0⟩))) ∧
    (s.chip.freezeOn = false ∨ s.now < s.reg Off.lensFreezeAt → exec .lensFreeze s = .next s) ∧
    (s.chip.freezeOn = true → s.reg Off.lensFreezeAt ≤ s.now → ∃ t : State, exec .lensFreeze s = .next t ∧
      t.flag Off.lensCtrl 29 = s.flag Off.lensCtrl 30 ∧ t.chip.freezeOn = false ∧ t.mem = s.mem) ∧
    (∀ m : Nat, reaches s m Off.lensCtrl 4 .lensCtrl [] = true →
      exec (.lensSnapArm m) s = .next ((s.lensCtrlWrite (2 ^ 31 + s.fld Off.lensCtrl 30 1 * 2 ^ 30)).answer .done) ∧
      (∀ fz : Bool, s.now < s.reg Off.lensFreezeAt → ∃ t : State, exec (.lensFreezeArm m fz) s = .next t ∧
        t.flag Off.lensCtrl 30 = fz ∧ t.flag Off.lensCtrl 29 = s.flag Off.lensCtrl 29 ∧ t.chip.freezeOn = true ∧ t.mem = s.mem)) ∧
    (∀ (page i g off : Nat) (d : RegDesc) (ix : List Nat), off = 0x34000000 + page * 4096 + i * 8 → regAt off = some (d, ix) →
      d.name ∈ [RegName.lensHubCnt, .lensClCnt, .lensScCnt, .lensDrCnt] → exec (.lensWrap page i g) s = .next (s.count off g))

/-- From 18 R456 to R458, R462, R463, R467 to R469 and R471, 11 R316, 13 R374: resets, boot and power. Before READY a warm reset is only
recorded; a cold boot whose images both fail ends in FAILED; a restart keeps the stores left in the drain domain; the timebase starts from 0
only where VDD_AON was down. -/
def Obligations.ResetsAndBoot : Prop :=
  ∀ s : State,
    (s.shutdown = false → (exec (.coldReset 1) s = .next (s.coldReset 1)) ∧ (exec (.coldReset 2) s = .next (s.coldReset 2)) ∧
      (s.resetReqs.contains (.cold 3) = true → exec (.coldReset 3) s = .next (s.coldReset 3)) ∧
      (s.resetReqs.contains (.cold 3) = false → exec (.coldReset 3) s = .next s) ∧ (exec (.coldReset 7) s = .next s)) ∧
    (s.shutdown = true → ∀ c : Nat, (c = 1 ∨ c = 2 ∨ c = 3 ∨ c = 7) →
      (((List.range 24).all fun i => decide (thermVal (s.fld (Off.therm i) 0 16) < 920)) = true →
        exec (.coldReset c) s = .next ((s.coldClear false).rstCold 7)) ∧
      (((List.range 24).all fun i => decide (thermVal (s.fld (Off.therm i) 0 16) < 920)) = false →
        exec (.coldReset c) s = .next (s.askReset (.cold 7)))) ∧
    (s.shutdown = false → s.ready = false → s.phase ≠ 0xF → ∀ c : Nat, s.coldReset c = (s.coldClear false).rstCold c) ∧
    (∀ c : Nat, ((s.coldClear false).rstCold c).fld Off.rstStat 0 4 = c % 16 ∧ ((s.coldClear false).rstCold c).fld Off.rstStat 8 10 = 0x3FF ∧
      ((s.coldClear false).rstCold c).fld Off.rstStat 32 16 = 0) ∧
    (∀ aon : Bool, (s.coldClear aon).ready = false ∧ (s.coldClear aon).lps = [] ∧ (s.coldClear aon).chans = [] ∧
      (s.coldClear aon).pending = s.pending ∧ (s.coldClear aon).nvj = s.nvj ∧ (s.coldClear aon).shutdown = false) ∧
    ((s.coldClear false).time.tb = s.time.tb ∧ (s.coldClear true).time.tb = 0) ∧
    (exec .vddAonPowerUp s = .next (s.coldClear true)) ∧
    (exec (.powerLoss true) s = .next (s.coldClear true)) ∧
    (∃ t : State, exec (.powerLoss false) s = .next t ∧ ∀ a : Nat, a < hostBase → memGet t.mem a = 0#8) ∧
    (∀ b : BootInput, (s.ready = true ∨ s.shutdown = true ∨ s.phase = 0xF → exec (.coldBoot b) s = .next s) ∧
      (s.ready = false → s.shutdown = false → s.phase ≠ 0xF → exec (.coldBoot b) s = .next (s.coldBoot b) ∧
        (b.imageA = false → b.imageB = false → ∀ u : State,
          u = (((s.bindChannels.bootStraps b).railsSet).mapMerge b.nvjCopyOk b.fuseReadOk).phaseSet 1 →
          exec (.coldBoot b) s = .next u.bootFail ∧ u.bootFail.fld Off.bootStat 4 4 = 0xF))) ∧
    (s.phase = 6 → s.flag Off.dramInit 63 = false → s.installed < 2 ^ 52 → ∃ t : State, exec .dramInitDone s = .next t ∧ t.flag Off.dramInit 63 = true ∧
      t.mem = s.mem) ∧
    (s.phase ≠ 6 ∨ s.flag Off.dramInit 63 = true → exec .dramInitDone s = .next s) ∧
    (s.shutdown = true → exec (.warmReset 4) s = .next s) ∧
    (s.shutdown = false → s.ready = false → exec (.warmReset 4) s = .next (s.setFlag Off.rstStat 18 true)) ∧
    (s.shutdown = false → s.ready = true → exec (.warmReset 4) s = .next (s.warmReset 4 0x3FF) ∧
      (∀ c : Nat, (c = 5 ∨ c = 6) → (s.warmAsked c = none → exec (.warmReset c) s = .next s) ∧
        (∀ n : Nat, s.warmAsked c = some n → exec (.warmReset c) s = .next (s.warmReset c n)))) ∧
    (∀ c : Nat, c < 16 → (s.ready = false ∨ s.underTest c = true → exec (.clusterReset c) s = .next s) ∧
      (s.ready = true → s.underTest c = false → exec (.clusterReset c) s = .next ((s.resetTaken (.cluster c)).clusterReset c))) ∧
    (∀ n : Nat, n < 98 → (s.lpExists n = false ∨ s.shutdown = true → exec (.lpRestart n) s = .next s) ∧
      (s.lpExists n = true → s.shutdown = false → exec (.lpRestart n) s = .next (s.lpRestart n))) ∧
    (∀ (p : LP) (alone : Bool), (p.restart alone).sb = p.sb ∧ (p.restart alone).pc = LP.reset.pc ∧ (p.restart alone).ps = LP.reset.ps ∧
      (p.restart alone).rsv = none ∧ (p.restart true).l1d = p.l1d ∧ (p.restart false).l1d = LP.reset.l1d ∧
      (p.run = .lost → (p.restart alone).run = .lost) ∧ (p.run = .running → (p.restart alone).run = .loaded))

/-- From 15 R395, R396, R398 to R403, R407, R409 and R414 to R416, 13 R374: the host port. Training shows mode, rate and width; a fall back to
PCIe is an event; a link that goes down loses the dirty host lines and breaks the dirty logs; a pending vector's message goes out when it is
unmasked; the HDM decoder maps CXL.mem; before READY a BAR read gives zero. -/
def Obligations.HostPort : Prop :=
  ∀ s : State,
    (∀ (sp : BitVec 2) (w : BitVec 3) (cxl : Bool) (u : State), sp ≠ 0 → 2 ≤ w.toNat → w.toNat ≤ 4 →
      u = ((s.setFlag Off.hpStat 1 cxl).setFld Off.hpStat 8 2 sp.toNat).setFld Off.hpStat 4 3 w.toNat →
      (u.flag Off.hpStat 1 = cxl ∧ u.fld Off.hpStat 8 2 = sp.toNat ∧ u.fld Off.hpStat 4 3 = w.toNat) ∧
      exec (.cxlLinkTraining cxl sp w) s = .next (if cxl then u.hostRises else (u.hpEvent 3 0 764).hostRises)) ∧
    (s.flag Off.hpStat 0 = false → exec .hostLinkDown s = .next s ∧
      exec .hostLinkUp s = .next (((s.setFlag Off.hpStat 0 true).hpEvent 1 0 764).msixFlushAll)) ∧
    (s.flag Off.hpStat 0 = true → exec .hostLinkUp s = .next s.msixFlushAll ∧
      exec .hostLinkDown s = .next ((((s.setFlag Off.hpStat 0 false).hpEvent 1 0 764).hostInvalidate).logsBreak)) ∧
    (∃ t : State, exec .conventionalReset s = .next t ∧ t.chip.hdm = none ∧ t.chip.hdmErr = false ∧ t.dlogs = [] ∧
      t.resetReqs.contains .hostPort = false ∧ (∀ i : Nat, i < 63 → t.fld (Off.hpDlog i) 0 2 = 0)) ∧
    (∀ f : Nat, 0 < f → f < 64 → ∃ t : State, exec (.functionLevelReset f) s = .next t ∧ (t.fn f).table = HostFn.reset.table ∧
      (t.fn f).pend = (s.fn f).pend ∧ t.epoch f = (s.epoch f + 1) % 16 ∧ t.fld (Off.hpDlog (f - 1)) 0 2 = 0 ∧ t.mem = s.mem) ∧
    (s.hostOk = false → ∀ (a n k w : Nat) (bs : List (BitVec 8)), exec (.hdmCommit a n k w) s = .next s ∧
      exec (.cxlMemRead a n) s = .next s ∧ exec (.cxlMemWrite a bs) s = .next s ∧ exec (.hostSnoop a true) s = .next s) ∧
    (s.hostOk = true → ∀ base size skip ways : Nat,
      (size % 0x10000000 = 0 → skip % 0x10000000 = 0 → size ≤ 2 ^ 40 → skip + size ≤ s.installed → ways = 1 → ∃ t : State,
        exec (.hdmCommit base size skip ways) s = .next t ∧ t.chip.hdm = some (base, size, skip) ∧ t.flag Off.hpStat 10 = true ∧
        t.mem = s.mem) ∧
      ((size % 0x10000000 ≠ 0 ∨ skip % 0x10000000 ≠ 0 ∨ 2 ^ 40 < size ∨ s.installed < skip + size ∨ ways ≠ 1) → ∃ t : State,
        exec (.hdmCommit base size skip ways) s = .next t ∧ t.chip.hdm = none ∧ t.chip.hdmErr = true)) ∧
    (s.hostOk = true → s.ready = true → ∀ (a n base size skip : Nat) (u v : State), s.chip.hdm = some (base, size, skip) → base ≤ a →
      a + n ≤ base + size → u = s.countHub 2 4 1 → v = s.countHub 2 5 1 →
      exec (.cxlMemRead a n) s = .next (u.answer (.bytes (u.agentRead (a - base + skip) n) (u.poisoned (a - base + skip) n))) ∧
      (∀ bs : List (BitVec 8), bs.length = n → exec (.cxlMemWrite a bs) s = .next ((v.agentWrite (a - base + skip) bs).answer .done))) ∧
    (s.hostOk = true → ∀ (a l : Nat) (u : State), l = lineOf (hostBase + a) → s.addrKind l = .host → s.holders l = [] →
      tblGet? s.underL2 l = none → u = (s.l2WriteBack l).l2Clean l → exec (.hostSnoop a false) s = .next (u.answer .done)) ∧
    (∀ f pg : Nat, f < 64 → (s.flag Off.hpStat 0 = true → exec (.atsInvalidation f pg) s = .next (s.answer .done)) ∧
      (s.flag Off.hpStat 0 = false → exec (.atsInvalidation f pg) s = .next s)) ∧
    (∀ f v : Nat, f < 64 → v < msixCount f → ∃ u : State, ((u.fn f).table = tblSet (s.fn f).table v { s.msixEntry f v with masked := false }) ∧
      (u.fn f).pend = (s.fn f).pend ∧ u.regs = s.regs ∧ u.mem = s.mem ∧ exec (.msixUnmask f v) s = .next (u.msixFlush f v) ∧
      ((u.fn f).pend.contains v = true → u.msixOpen f v = true → ((u.msixFlush f v).fn f).pend.contains v = false ∧
        (u.msixFlush f v).out = s.out ++ [.msix f v])) ∧
    (∀ (b : BarAddr) (size : Nat) (w : Option (BitVec 64)), barHas b = true →
      (s.flag Off.hpStat 0 = false → exec (.barAccess b size w) s = .next s) ∧
      (s.flag Off.hpStat 0 = true → b.fn ≤ s.fld Off.hpStat 16 6 →
        (s.ready = false → exec (.barAccess b size none) s = .next (s.answer (.value 0)) ∧
          ∀ x : BitVec 64, exec (.barAccess b size (some x)) s = .next (s.answer .done)) ∧
        (s.ready = true → ∀ off : Nat, s.barTo b.fn b.offset = .reg off →
          (∀ (u : State) (v : Nat), readReg s b.fn 0 off size = some (u, v) →
            exec (.barAccess b size none) s = .next (u.answer (.value (BitVec.ofNat 64 v)))) ∧
          (readReg s b.fn 0 off size = none → exec (.barAccess b size none) s =
            .next ((((s.accessRefused off size b.fn).hpEvent 8 b.fn 766)).answer .completerAbort)) ∧
          (∀ (u : State) (x : BitVec 64), writeReg s b.fn 0 off size (x.toNat % 2 ^ (8 * size)) = (u, true) →
            exec (.barAccess b size (some x)) s = .next (u.answer .done)))))

/-- From 14 R378, R379, R383 to R386, R389 and R392: what stands before a command of Yafolo. A command that Yafolo does not take changes
nothing; one whose epoch is stale, that comes before HELLO, whose tag is zero or whose class may not issue it is answered with its code and
has no effect; an opcode that is not assigned completes with BAD_OPCODE. -/
def Obligations.YafoloChecks : Prop :=
  ∀ (h : CmdHdr) (s u : State), cmdExists h = true → u = s.takeCmd h.master h.cp →
    (s.yafTakes h = false → exec (.timeStatus h) s = .next s ∧ ∀ op fl : BitVec 16, fl ≠ 1 → exec (.badOpcode h op fl) s = .next s) ∧
    (s.yafTakes h = true → (h.cp = 0 ∨ s.cp1Serves = true) →
      (h.epoch.toNat ≠ s.epoch h.master → exec (.timeStatus h) s = .next (yafNot h 0x0403 u .staleEpoch none)) ∧
      (h.epoch.toNat = s.epoch h.master →
        ((s.req h.master).hello = false → exec (.timeStatus h) s = .next (yafNot h 0x0403 u .badState (some 0x48))) ∧
        ((s.req h.master).hello = true →
          (h.tag = 0 → exec (.timeStatus h) s = .next (yafNot h 0x0403 u .badArg (some 0xFE))) ∧
          (h.tag ≠ 0 → h.length < 8 → exec (.timeStatus h) s = .next (yafNot h 0x0403 u .badLength none)) ∧
          (h.tag ≠ 0 → 9 ≤ h.length → h.padZero = true → h.master ≠ 0 →
            ∀ c : BitVec 8, exec (.vfEnable h c) s = .next (yafNot h 0x0901 u .notPermitted none)))) ∧
      (∀ op fl : BitVec 16, (fl ≠ 1 ∨ op.toNat ∉ opcodes) →
        exec (.badOpcode h op fl) s = .next (yafNot h op.toNat u .badOpcode none))) ∧
    (s.yafTakes h = true → h.cp = 1 → s.cp1Serves = false →
      exec (.timeStatus h) s = .next (yafNot h 0x0403 u .badState (some 0xC1)))

/-- From 14 R386, R390, R391 and R394, 10 R303, 18 R457: the device, partition and program commands of Yafolo: what each does to the state that
has popped its message, and its completion. -/
def Obligations.YafoloPrograms : Prop :=
  ∀ (h : CmdHdr) (s u : State), u = s.takeCmd h.master h.cp →
    (∀ v : BitVec 16, accepted h 1 [2] .any s = true → (v.toNat < 0x0100 → exec (.hello h v) s = .next (yafNot h 1 u .version none)) ∧
      (0x0100 ≤ v.toNat → ∃ res : List Byte, exec (.hello h v) s =
        .next (yafDone h 1 (u.onReq h.master fun r => { r with hello := true }) res) ∧ res.take 4 = natBytes 2 0x0100 ++ natBytes 2 h.master)) ∧
    (accepted h 2 [] .any s = true → ∃ res : List Byte, exec (.getInfo h) s = .next (yafDone h 2 u res) ∧
      res.take 4 = natBytes 2 u.clockMhz ++ natBytes 2 u.split) ∧
    (∀ (d p : BitVec 8) (m : BitVec 16) (v : BitVec 8), accepted h 3 [1, 1, 2, 1] .pf0 s = true →
      (1 < v.toNat ∨ 1023 < m.toNat → exec (.setIdentity h d p m v) s = .next (yafNot h 3 u .badArg none)) ∧
      (v.toNat ≤ 1 → m.toNat ≤ 1023 → u.selfValid = false → ∀ t : State,
        t = { u with svc := { u.svc with ident := some (d.toNat, p.toNat, m.toNat, v.toNat) } } → exec (.setIdentity h d p m v) s =
          .next (yafDone h 3 ((t.setReg Off.rtSelf (v.toNat * 2 ^ 31 + d.toNat * 1024 + m.toNat)).formNow) []))) ∧
    (∀ mk : BitVec 64, accepted h 4 [8] .fn s = true → exec (.eventMask h mk) s =
      .next (yafDone h 4 (u.onReq h.master fun r => { r with mask := mk.toNat }) [])) ∧
    (accepted h 5 [] .pf0 s = true → (lockBits.all (fun e => u.flag e.1 e.2) = true → exec (.lockConfig h) s =
        .next (yafNot h 5 u .badState none)) ∧
      (lockBits.all (fun e => u.flag e.1 e.2) = false → exec (.lockConfig h) s =
        .next (yafDone h 5 (lockBits.foldl (fun (t : State) e => t.setFlag e.1 e.2 true) u) []))) ∧
    (∀ (pt : BitVec 8) (ow : BitVec 16) (b z l0 : BitVec 64) (l1 : BitVec 32), accepted h 0x0101 [1, 2, 8, 8, 8, 4] .pf0 s = true →
      pt.toNat < 64 → u.fnExists ow.toNat = true → (lpMask l0 l1).any (fun n => !u.lpExists n) = false → b.toNat % 4096 = 0 →
      z.toNat % 4096 = 0 → b.toNat + z.toNat ≤ u.installed →
      (tblGet? u.parts pt.toNat ≠ none → exec (.partCreate h pt ow b z l0 l1) s = .next (yafNot h 0x0101 u .badState none)) ∧
      (tblGet? u.parts pt.toNat = none → (lpMask l0 l1).find? (fun n => (u.partOf n).isSome) = none →
        exec (.partCreate h pt ow b z l0 l1) s = .next (yafDone h 0x0101
          { u with parts := tblSet u.parts pt.toNat ⟨ow.toNat, b.toNat, z.toNat, lpMask l0 l1⟩ } []))) ∧
    (∀ (pt : BitVec 8) (p : Part), accepted h 0x0102 [1] .fn s = true → pt.toNat < 64 → tblGet? u.parts pt.toNat = some p →
      (u.mayPart h.master pt.toNat = false → exec (.partDestroy h pt) s = .next (yafNot h 0x0102 u .notOwner none)) ∧
      (u.mayPart h.master pt.toNat = true → p.lps.find? (fun n => (u.lp n).code == 2) = none → ∀ t : State,
        t = p.lps.foldl State.lpUnload u → exec (.partDestroy h pt) s =
          .next (yafDone h 0x0102 { t with parts := tblErase t.parts pt.toNat } []))) ∧
    (∀ (mid : BitVec 16) (im : BitVec 64) (len crc : BitVec 32) (i n : Nat) (bs : List Byte) (p : Part),
      accepted h 0x0103 [2, 8, 4, 4] .fn s = true → u.lpSlot mid.toNat = some n → u.mayLp h.master n = true →
      ((u.lp n).code ≠ 0 → (u.lp n).code ≠ 1 → exec (.progLoad h mid im len crc) s =
        .next (yafNot h 0x0103 u .badState (some (u.lp n).code))) ∧
      ((u.lp n).code = 0 ∨ (u.lp n).code = 1 → u.bufRead h.master im.toNat len.toNat = some bs → u.partOf n = some (i, p) →
        (∀ d : Nat, u.imageFault p bs crc.toNat = some d → exec (.progLoad h mid im len crc) s =
          .next (yafNot h 0x0103 u .imageInvalid (some d))) ∧
        (u.imageFault p bs crc.toNat = none → ∀ (r k : Nat) (t v : State), r = fieldLE bs 6 1 → k = fieldLE bs 7 1 →
          u.segsRead h.master im.toNat (imageSegs bs r k) = true → u.copySegs h.master im.toNat (imageSegs bs r k) = some t →
          v = t.onLp n (fun q => q.start (imageOf bs r) (t.imageWs (imageOf bs r)) .loaded) → exec (.progLoad h mid im len crc) s =
            .next (yafDone h 0x0103 { v with yaf := { v.yaf with images := tblSet v.yaf.images n (imageOf bs r) } }
              (packFields [(8, (imageOf bs r).pc), (1, r), (1, k)]))))) ∧
    (∀ (mid : BitVec 16) (n : Nat), u.lpSlot mid.toNat = some n → u.mayLp h.master n = true →
      (∀ im : Image, accepted h 0x0104 [2] .fn s = true → (u.lp n).code = 1 → bitOf u.chip.offline (n / 6) = false →
        tblGet? u.yaf.images n = some im → exec (.lpStart h mid) s =
          .next (yafDone h 0x0104 (u.onLp n fun q => q.start im (u.imageWs im) .running) [])) ∧
      (accepted h 0x0104 [2] .fn s = true → (u.lp n).code ≠ 1 → exec (.lpStart h mid) s =
        .next (yafNot h 0x0104 u .badState (some (u.lp n).code))) ∧
      (accepted h 0x0105 [2] .any s = true → (u.lp n).code ≠ 0 → (u.lp n).code ≠ 5 → exec (.lpStop h mid) s =
        .next (yafDone h 0x0105 ((u.lpRestart n).onLp n fun p => { p with run := .loaded }) [])) ∧
      (accepted h 0x0106 [2] .any s = true → u.isSplit (n / 6) = false → ∃ res : List Byte, exec (.lpStatus h mid) s =
        .next (yafDone h 0x0106 u res) ∧ res.take 1 = natBytes 1 (u.lp n).code)) ∧
    (∀ (sc cl way : BitVec 8) (a : BitVec 64) (k : BitVec 32), sc.toNat ≤ 1 → (sc.toNat = 0 → cl.toNat < 16) →
      u.mayRange h.master a.toNat k.toNat = true → a.toNat < 2 ^ 52 → (sc.toNat = 0 → u.underTest cl.toNat = false) →
      (u.freeEngine sc.toNat cl.toNat = none → accepted h 0x0108 [1, 1, 8, 4] .fn s = true → exec (.unlockRange h sc cl a k) s =
        .next (yafNot h 0x0108 u .busy none)) ∧
      (∀ e : RangeEngine, u.freeEngine sc.toNat cl.toNat = some e →
        (∀ t : State, accepted h 0x0108 [1, 1, 8, 4] .fn s = true → t = u.yafRange e 5 0 a.toNat k.toNat →
          (t.fld (rmStat e) 0 4 = 2 ∨ t.fld (rmStat e) 0 4 = 3) → exec (.unlockRange h sc cl a k) s =
            .next (yafDone h 0x0108 t (packFields [(4, t.fld (rmStat e) 32 32)]))) ∧
        (∀ v t : State, accepted h 0x0107 [1, 1, 1, 8, 4] .fn s = true → way.toNat < 16 →
          u.enableWay sc.toNat cl.toNat way.toNat = some v → t = v.yafRange e 4 way.toNat a.toNat k.toNat →
          (t.fld (rmStat e) 0 4 = 2 ∨ t.fld (rmStat e) 0 4 = 3) → exec (.lockRange h sc cl way a k) s =
            .next (yafDone h 0x0107 t (packFields [(4, t.fld (rmStat e) 32 32), (4, t.fld (rmStat e) 16 16)]))))) ∧
    (∀ (i : BitVec 8) (z : BitVec 16) (b : BitVec 64), accepted h 0x0109 [1, 2, 8] .pf0 s = true → i.toNat < 8 →
      (z = 0 ∨ (b.toNat % 65536 = 0 ∧ b.toNat + 65536 * z.toNat ≤ 2 ^ 52)) →
      (u.locked (Off.dur 0) = true → exec (.setDurable h i z b) s = .next (yafNot h 0x0109 u .locked none)) ∧
      (u.locked (Off.dur 0) = false →
        ((List.range 8).filter (· != i.toNat)).foldl (fun k m => k + u.durUnits m) 0 + z.toNat ≤ 1024 → exec (.setDurable h i z b) s =
          .next (yafDone h 0x0109 (u.durWrite i.toNat (b.toNat / 65536 % 2 ^ 36 * 65536 + z.toNat * 16 + bit01 (z.toNat != 0))) [])))

/-- From 14 R390, 08 R221, R222, 10 R310 and 15 R405: the Tradewind and routing commands of Yafolo. Rings and settings of a queue are kept until
it is enabled, and refused while it is; a ring outside DRAM is BAD_ARG with detail 0x22. -/
def Obligations.YafoloQueues : Prop :=
  ∀ (h : CmdHdr) (s u : State) (q : BitVec 16), u = s.takeCmd h.master h.cp →
    (q.toNat < 4096 → u.mayUse h.master 1 q.toNat (u.tqOwner q.toNat) = true →
      (∀ (k f : BitVec 8) (ring cq area lo hi : BitVec 64), accepted h 0x0201 [2, 1, 1, 8, 8, 8, 8, 8] .fn s = true → k.toNat ≤ 31 →
        f.toNat ≤ 15 → ring.toNat % 4096 = 0 → cq.toNat % 4096 = 0 → area.toNat % 4096 = 0 → ∀ ok : Bool,
        ok = (u.inDram ring.toNat (64 * 2 ^ k.toNat) && u.inDram cq.toNat (32 * 2 ^ k.toNat) &&
          u.inDram area.toNat (0x2040 * (f.toNat + 1)) && u.inDram lo.toNat 1 && u.inDram hi.toNat 1) →
        (ok = false → exec (.queueRings h q k f ring cq area lo hi) s = .next (yafNot h 0x0201 u .badArg (some 0x22))) ∧
        (ok = true → u.tqOn q.toNat = true → exec (.queueRings h q k f ring cq area lo hi) s = .next (yafNot h 0x0201 u .badState none)) ∧
        (ok = true → u.tqOn q.toNat = false → exec (.queueRings h q k f ring cq area lo hi) s = .next (yafDone h 0x0201
          { u with yaf := { u.yaf with rings := tblSet u.yaf.rings q.toNat ⟨k.toNat, f.toNat, ring.toNat, cq.toNat, area.toNat, lo.toNat, hi.toNat⟩ } } []))) ∧
      (∀ (ow : BitVec 16) (e du b en : BitVec 8) (tg : BitVec 16) (tm : BitVec 32) (df : BitVec 64),
        accepted h 0x0202 [2, 2, 1, 1, 1, 1, 2, 4, 8] .fn s = true → ow.toNat ≤ 4095 → e.toNat ≤ 15 → du.toNat ≤ 1 → b.toNat ≤ 31 →
        en.toNat ≤ 1 → tg.toNat ≤ 4095 → tm.toNat < 2 ^ 24 → u.tqOn q.toNat = false →
        exec (.queueParams h q ow e du b en tg tm df) s = .next (yafDone h 0x0202 { u with
          yaf := { u.yaf with
            params := tblSet u.yaf.params q.toNat ⟨paramsCfg ow.toNat e.toNat du.toNat b.toNat en.toNat tg.toNat tm.toNat, df.toNat⟩ } } [])) ∧
      (accepted h 0x0203 [2] .fn s = true → (u.tqOn q.toNat = true → exec (.queueEnable h q) s =
          .next (yafNot h 0x0203 u .badState none)) ∧
        (∀ t : State, u.tqOn q.toNat = false → (u.queueWrite q.toNat).queueEnable q.toNat = .done t → exec (.queueEnable h q) s =
          .next (yafDone h 0x0203 t (packFields [(2, (t.tq q.toNat).inc)])))) ∧
      (accepted h 0x0204 [2] .any s = true → (u.tqOn q.toNat = false → exec (.queueDisable h q) s =
          .next (yafNot h 0x0204 u .badState none)) ∧
        (u.tqOn q.toNat = true → exec (.queueDisable h q) s =
          .next (yafDone h 0x0204 (u.queueDisable q.toNat).1 (packFields [(4, (u.queueDisable q.toNat).2)])))) ∧
      (∀ tg : BitVec 64, accepted h 0x0205 [2, 8] .any s = true →
        (tg.toNat < 2 ^ 62 → exec (.queueRebind h q tg) s = .next (yafNot h 0x0205 u .badArg none)) ∧
        (2 ^ 62 ≤ tg.toNat → ∃ v : State, v.regs = u.regs ∧ v.tqs = u.tqs ∧ exec (.queueRebind h q tg) s =
          .next (yafDone h 0x0205 (v.setReg (Off.tqTarget q.toNat) tg.toNat) []))) ∧
      (accepted h 0x0206 [2] .any s = true → exec (.queueStatus h q) s = .next (yafDone h 0x0206 u
        (packFields [(4, u.reg (Off.tqStat q.toNat)), (4, u.reg (Off.tqHead q.toNat)), (4, u.reg (Off.tqRetire q.toNat)),
          (4, u.reg (Off.tqTail q.toNat)), (2, (u.tq q.toNat).inc)])))) ∧
    (4096 ≤ q.toNat → accepted h 0x0206 [2] .any s = true → exec (.queueStatus h q) s = .next (yafNot h 0x0206 u .noSuchObject none)) ∧
    (∀ e d : BitVec 8, accepted h 0x0207 [1, 1] .pf0 s = true → e.toNat < 16 → d.toNat < 18 → u.teState (u.tePhys e.toNat) ≠ 3 →
      (u.teState d.toNat ≠ 0 → exec (.teDisable h e d) s = .next (yafNot h 0x0207 u .badState (some (u.teState d.toNat)))) ∧
      (u.teState d.toNat = 0 → exec (.teDisable h e d) s = .next (yafDone h 0x0207 (u.teMove e.toNat d.toNat) []))) ∧
    (∀ (d v l : BitVec 8) (g : BitVec 16) (k : BitVec 64) (x : Nat), accepted h 0x0208 [1, 1, 1, 2, 8] .pf0 s = true → v.toNat ≤ 1 →
      l.toNat ≤ 1 → g.toNat ≤ 1023 → k.toNat < 2 ^ 34 → x = v.toNat * 2 ^ 63 + l.toNat * 2 ^ 62 + g.toNat * 2 ^ 52 + k.toNat →
      ∃ t : State, t.reg (Off.rtDomain d.toNat) = x ∧ tblGet? t.svc.domains d.toNat = some x ∧ t.mem = u.mem ∧
        exec (.domainSet h d v l g k) s = .next (yafDone h 0x0208 t [])) ∧
    (∀ i : BitVec 32, accepted h 0x0209 [4] .fn s = true → (u.svc.report.length ≤ i.toNat → exec (.resumeReport h i) s =
        .next (yafNot h 0x0209 u .badArg none)) ∧
      (i.toNat < u.svc.report.length → ∃ res : List Byte, exec (.resumeReport h i) s = .next (yafDone h 0x0209 u res) ∧
        res.take 4 = natBytes 4 u.svc.report.length))

/-- From 14 R390, 09 R242, R245, R246, R276 and R280, 10 R284, 11 R323, R327 and R332: the port and time commands of Yafolo. -/
def Obligations.YafoloPortsAndTime : Prop :=
  ∀ (h : CmdHdr) (s u : State), u = s.takeCmd h.master h.cp →
    (∀ p : BitVec 8, p.toNat < 128 → h.master = 0 → u.portTest p.toNat = false →
      (∀ (md fc fl : BitVec 8) (fg tx rx : BitVec 16) (rl rb rt : BitVec 8) (tg : BitVec 16) (rr : BitVec 64) (x : PortSet),
        accepted h 0x0301 [1, 1, 1, 1, 2, 2, 2, 1, 1, 1, 2, 8] .pf0 s = true → md.toNat ≤ 4 → fc.toNat ≤ 2 → fl.toNat ≤ 1 → rl = 0 →
        rb = 0 → rt.toNat ≤ 31 → tg.toNat ≤ 4095 → rr.toNat % 4096 = 0 → x = ⟨md.toNat, fc.toNat, fl.toNat % 2, tx.toNat, rx.toNat, 0, 0,
          rt.toNat, tg.toNat, rr.toNat⟩ → u.flag (Off.portCfg p.toNat) 63 = false → u.linkOfPort p.toNat = none →
        exec (.portUp h p md fc fl fg tx rx rl rb rt tg rr) s = .next (yafDone h 0x0301 (u.portSetUp x p.toNat) [])) ∧
      (accepted h 0x0302 [1] .pf0 s = true → exec (.portDown h p) s =
        .next (yafDone h 0x0302 (u.portCfgPut p.toNat (setBit (u.reg (Off.portCfg p.toNat)) 63 false)) [])) ∧
      (accepted h 0x0303 [1] .fn s = true → exec (.portStatus h p) s =
        .next (yafDone h 0x0303 u (packFields [(4, u.reg (Off.portStat p.toNat)), (8, u.reg (Off.portErr p.toNat))]))) ∧
      (∀ (sc an : BitVec 8) (ssci : BitVec 32) (sci key pn : BitVec 64) (cf wn : BitVec 32) (bs : List Byte) (v : State),
        accepted h 0x0306 [1, 1, 1, 1, 4, 8, 8, 8, 4, 4] .pf0 s = true → sc.toNat ≤ 7 → an.toNat ≤ 3 →
        u.bufRead h.master key.toNat 44 = some bs → v = (u.msecCfgWrite p.toNat (cf.toNat * 2 ^ 32 + wn.toNat)).onPort p.toNat (fun y =>
          { y with sas := tblSet y.sas (saKey sc.toNat an.toNat) ⟨sci, ssci.toNat, bs, pn.toNat, wn.toNat, false⟩, txAn := y.txAn }) →
        exec (.saLoad h p 1 sc an ssci sci key pn cf wn) s =
          .next (yafDone h 0x0306 (v.agentWrite key.toNat (List.replicate 44 0)) [])) ∧
      (∀ b : BitVec 64, accepted h 0x0307 [1, 8] .fn s = true → (u.flag (Off.portStat p.toNat) 6 = false →
          exec (.moduleInfo h p b) s = .next (yafNot h 0x0307 u .badState none)) ∧
        (u.flag (Off.portStat p.toNat) 6 = true → u.inReq h.master b.toNat 256 = true → ∃ (bs : List Byte) (v : State),
          bs.length ≤ 256 ∧ v.regs = u.regs ∧ v.mem = u.mem ∧ exec (.moduleInfo h p b) s =
            .next (yafDone h 0x0307 (v.agentWrite b.toNat bs) (packFields [(4, bs.length)])))) ∧
      (∀ (w r : BitVec 8) (a : BitVec 16) (t : State), accepted h 0x0309 [1, 1, 1, 2] .pf0 s = true → w = 0 → r.toNat ≤ 1 →
        t = (u.linkSetUp p.toNat 0 r.toNat a.toNat).linkAnswer p.toNat 0 r.toNat → t.linkUp p.toNat = true →
        exec (.linkUp h p w r a true) s = .next (yafDone h 0x0309 t (packFields [(1, t.linkState p.toNat)])))) ∧
    (∀ (g : BitVec 8) (i : BitVec 16) (e : BitVec 64) (bs : List Byte), accepted h 0x0304 [1, 1, 2, 8] .pf0 s = true → g.toNat < 8 →
      i.toNat < 256 → u.bufRead h.master e.toNat 32 = some bs → exec (.tableWrite h 1 g i e) s = .next (yafDone h 0x0304
        ((List.range 4).foldl (fun (t : State) j => t.setReg (Off.clsRule g.toNat (4 * i.toNat) + 8 * j) (fieldLE bs (8 * j) 8)) u) [])) ∧
    (∀ b : BitVec 64, accepted h 0x0305 [8] .pf0 s = true → b.toNat % 2 ^ 20 = 0 → b.toNat < 2 ^ 52 →
      (u.namesPub = true → exec (.pubTable h b) s = .next (yafNot h 0x0305 u .badState none)) ∧
      (u.namesPub = false → exec (.pubTable h b) s = .next (yafDone h 0x0305 (u.setReg Off.pubBase (b.toNat + bit01 (b.toNat != 0))) []))) ∧
    (∀ (w st : BitVec 8) (lk : BitVec 16) (pt ft : BitVec 32), accepted h 0x0308 [1, 1, 2, 4, 4] .pf0 s = true →
      (w.toNat < 50 ∨ 100 < w.toNat → exec (.moduleCfg h w st lk pt ft) s = .next (yafNot h 0x0308 u .badArg none)) ∧
      (50 ≤ w.toNat → w.toNat ≤ 100 → exec (.moduleCfg h w st lk pt ft) s = .next (yafDone h 0x0308 { u with yaf := { u.yaf with
        mod := ⟨w.toNat, tblSet u.yaf.mod.lifeKh pt.toNat lk.toNat, st.toNat, ft.toNat⟩ } } []))) ∧
    (∀ src tr al su : BitVec 8, accepted h 0x0401 [1, 1, 1, 1] .pf0 s = true → src.toNat ≤ 3 → tr.toNat ≤ 3 → al.toNat ≤ 1 →
      (u.locked Off.timeCtrl = true → exec (.timeSource h src tr al su) s = .next (yafNot h 0x0401 u .locked none)) ∧
      (u.locked Off.timeCtrl = false → exec (.timeSource h src tr al su) s = .next (yafDone h 0x0401 (u.timeCtrlWrite false
        (su.toNat * 65536 + al.toNat * 32 + bits tr.toNat 0 1 * 16 + bits tr.toNat 1 1 * 8 + src.toNat)) []))) ∧
    (∀ t : BitVec 64, accepted h 0x0402 [8] .pf0 s = true →
      (u.fld Off.timeStat 0 2 = 1 ∨ u.fld Off.timeStat 0 2 = 2 → exec (.timeSet h t) s =
        .next (yafNot h 0x0402 u .badState (some (u.fld Off.timeStat 0 2)))) ∧
      (u.fld Off.timeStat 0 2 = 0 ∨ u.fld Off.timeStat 0 2 = 3 → ∀ v : State, v = u.adjust true ((t.toNat : Int) - u.now) →
        exec (.timeSet h t) s = .next (yafDone h 0x0402 v (packFields [(1, v.fld Off.timeStat 4 4)])))) ∧
    (accepted h 0x0403 [] .any s = true → ∃ res : List Byte, exec (.timeStatus h) s = .next (yafDone h 0x0403 u res) ∧
      res.take 3 = natBytes 1 (u.fld Off.timeStat 0 2) ++ natBytes 1 (u.fld Off.timeStat 4 4) ++ natBytes 1 (u.fld Off.timeStat 2 1)) ∧
    (∀ (pf rl dm tp p1 p2 : BitVec 8) (a b : BitVec 64) (c : PtpCfg), accepted h 0x0404 [1, 1, 1, 1, 1, 1, 8, 8] .pf0 s = true →
      (pf.toNat = 1 ∨ pf.toNat = 2) → rl.toNat ≤ 3 → tp.toNat ≤ 1 →
      c = ⟨pf.toNat, rl.toNat, dm.toNat, tp.toNat, p1.toNat, p2.toNat, a.toNat + b.toNat * 2 ^ 64⟩ →
      ((List.range 128).any fun p => bitOf c.ports p && !u.flag (Off.portStat p) 0) = false →
      exec (.ptpConfig h pf rl dm tp p1 p2 a b) s = .next (yafDone h 0x0404 { u with yaf := { u.yaf with ptp := c } } [])) ∧
    (∀ (fl : BitVec 8) (w : BitVec 32), accepted h 0x0405 [1, 4] .pf0 s = true → fl.toNat ≤ 7 → exec (.ppsConfig h fl w) s =
      .next (yafDone h 0x0405 (u.ppsCfgWrite (bits fl.toNat 0 1 * 2 ^ 31 + bits fl.toNat 1 1 * 2 ^ 30 + bits fl.toNat 2 1 * 2 ^ 29 +
        min w.toNat 500000)) [])) ∧
    (∀ (o : BitVec 16) (lp : BitVec 8), accepted h 0x0406 [2, 1] .pf0 s = true → (2 < lp.toNat → exec (.utcSet h o lp) s =
        .next (yafNot h 0x0406 u .badArg none)) ∧
      (lp.toNat ≤ 2 → exec (.utcSet h o lp) s = .next (yafDone h 0x0406
        (u.setReg Off.timeUtc (bit01 (lp.toNat == 1) * 2 ^ 17 + bit01 (lp.toNat == 2) * 65536 + o.toNat)) [])))

/-- From 14 R390, 12 R355, R358 and R360, 13 R363: the job-ring, engine, key and mailbox commands of Yafolo. A ring is configured and enabled
only while it is disabled; a key result that is not OK is LOCKED or BAD_ARG with the result; an engine with a job completes its disable when
it has stopped; a locked binding is LOCKED. -/
def Obligations.YafoloEnginesAndChannels : Prop :=
  ∀ (h : CmdHdr) (s u : State), u = s.takeCmd h.master h.cp →
    (∀ (pl j : BitVec 8) (p : Pool), pl.toNat ≤ 1 → p = poolOf pl.toNat → j.toNat < 36 →
      (u.mayUse h.master (2 + pl.toNat) j.toNat (u.jOwner p j.toNat) = false → accepted h 0x0503 [1, 1] .any s = true →
        exec (.ringDisable h pl j) s = .next (yafNot h 0x0503 u .notOwner none)) ∧
      (u.mayUse h.master (2 + pl.toNat) j.toNat (u.jOwner p j.toNat) = true →
        (∀ (k w : BitVec 8) (ow : BitVec 16) (b en : BitVec 8) (tg : BitVec 16) (ra cq lo hi : BitVec 64) (t : State),
          accepted h 0x0501 [1, 1, 1, 1, 2, 1, 1, 2, 8, 8, 8, 8] .fn s = true → k.toNat ≤ 31 → w.toNat ≤ 15 → ow.toNat ≤ 4095 →
          b.toNat ≤ 31 → en.toNat ≤ 1 → tg.toNat ≤ 4095 → ra.toNat % 4096 = 0 → cq.toNat % 4096 = 0 →
          (u.inDram ra.toNat (64 * 2 ^ k.toNat) && u.inDram cq.toNat (32 * 2 ^ k.toNat) && u.inDram lo.toNat 1 &&
            u.inDram hi.toNat 1) = true → u.jOn p j.toNat = false →
          t = (((u.jRegWrite p j.toNat (jBase p j.toNat) (ra.toNat + k.toNat)).jRegWrite p j.toNat (jCq p j.toNat)
            (cq.toNat + k.toNat)).jRegWrite p j.toNat (jBuflo p j.toNat) lo.toNat).jRegWrite p j.toNat (jBufhi p j.toNat) hi.toNat →
          exec (.ringConfig h pl j k w ow b en tg ra cq lo hi) s = .next (yafDone h 0x0501 (t.jCfgWrite p j.toNat
            (ow.toNat * 2 ^ 50 + w.toNat * 2 ^ 46 + en.toNat * 2 ^ 41 + tg.toNat * 2 ^ 29 + b.toNat * 2 ^ 24)) [])) ∧
        (accepted h 0x0502 [1, 1] .fn s = true → u.ringSizes p j.toNat = true →
          (u.jOn p j.toNat = true → exec (.ringEnable h pl j) s = .next (yafNot h 0x0502 u .badState none)) ∧
          (u.jOn p j.toNat = false → exec (.ringEnable h pl j) s =
            .next (yafDone h 0x0502 (u.jCfgWrite p j.toNat (setBit (u.reg (jCfg p j.toNat)) 63 true)) []))) ∧
        (accepted h 0x0503 [1, 1] .any s = true →
          (u.jOn p j.toNat = false → exec (.ringDisable h pl j) s = .next (yafNot h 0x0503 u .badState none)) ∧
          (u.jOn p j.toNat = true → exec (.ringDisable h pl j) s = .next (yafDone h 0x0503 (u.jDisable p j.toNat) []))))) ∧
    (∀ sl : BitVec 16, sl.toNat < 1024 → (h.master = 0 ∨ u.vfHas h.master 7 sl.toNat = true) →
      (∀ (ty ln pu : BitVec 8) (ow : BitVec 16) (ky : BitVec 64) (bs : List Byte) (r : Nat),
        accepted h 0x0504 [2, 1, 1, 1, 2, 8] .fn s = true → pu.toNat ≤ 1 → ow.toNat ≤ 4095 →
        u.bufRead h.master ky.toNat ln.toNat = some bs → r = u.keyLoadResult sl.toNat ty.toNat ln.toNat ow.toNat bs →
        (r = 0 → exec (.keyLoad h sl ty ln pu ow ky) s = .next (yafDone h 0x0504 ((u.keyGive 1 sl.toNat ty.toNat ln.toNat ow.toNat pu.toNat
          bs).agentWrite ky.toNat (List.replicate ln.toNat 0)) [])) ∧
        (r = 1 → exec (.keyLoad h sl ty ln pu ow ky) s = .next (yafNot h 0x0504 u .locked none)) ∧
        (2 ≤ r → exec (.keyLoad h sl ty ln pu ow ky) s = .next (yafNot h 0x0504 u .badArg (some r)))) ∧
      (accepted h 0x0505 [2] .fn s = true →
        (u.flag (Off.keyStat sl.toNat) 30 = true → exec (.keyClear h sl) s = .next (yafNot h 0x0505 u .locked none)) ∧
        (u.flag (Off.keyStat sl.toNat) 30 = false → exec (.keyClear h sl) s =
          .next (yafDone h 0x0505 (u.keyGive 2 sl.toNat 0 0 0 0 []) []))) ∧
      (accepted h 0x0506 [2] .fn s = true → exec (.keyLock h sl) s = .next (yafDone h 0x0506 (u.keyGive 3 sl.toNat 0 0 0 0 []) []))) ∧
    (∀ (pl e : BitVec 8) (p : Pool) (t : State), accepted h 0x0507 [1, 1] .pf0 s = true → pl.toNat ≤ 1 → p = poolOf pl.toNat →
      e.toNat < 36 → t = u.jDisableEngine p e.toNat →
      (u.fld (eBase p e.toNat) 0 2 ≠ 1 → exec (.engineDisable h pl e) s =
        .next (yafNot h 0x0507 u .badState (some (u.fld (eBase p e.toNat) 0 2)))) ∧
      (u.fld (eBase p e.toNat) 0 2 = 1 →
        ((u.jEng p e.toNat).job = none → exec (.engineDisable h pl e) s = .next (yafDone h 0x0507 t [])) ∧
        ((u.jEng p e.toNat).job ≠ none → exec (.engineDisable h pl e) s = .next { t with yaf := { t.yaf with
          stops := t.yaf.stops ++ [⟨h.master, h.cp, h.tag.toNat, pl.toNat, e.toNat⟩] } }))) ∧
    (∀ (c sn rv : BitVec 16) (b l : BitVec 8), accepted h 0x0601 [2, 2, 2, 1, 1] .any s = true → 640 ≤ c.toNat → c.toNat < 4096 →
      u.chanMine h.master c.toNat = true → u.mayChan h.master c.toNat sn.toNat rv.toNat = true → sn.toNat < 0xFFF → rv.toNat < 0xFFF →
      b.toNat ≤ 31 → l.toNat ≤ 1 → (rv.toNat < 0x100 ∨ 0x160 ≤ rv.toNat ∨ b.toNat < 30) →
      (u.bindLocked c.toNat = true → exec (.chanBind h c sn rv b l) s = .next (yafNot h 0x0601 u .locked none)) ∧
      (u.bindLocked c.toNat = false → u.bindKept c.toNat sn.toNat rv.toNat = true → exec (.chanBind h c sn rv b l) s =
        .next (yafNot h 0x0601 u .badState none)) ∧
      (u.bindLocked c.toNat = false → u.bindKept c.toNat sn.toNat rv.toNat = false → ∀ t : State,
        t = u.mbxBindWrite c.toNat (2 ^ 62 + b.toNat * 2 ^ 32 + rv.toNat * 65536 + sn.toNat) → exec (.chanBind h c sn rv b l) s =
          .next (yafDone h 0x0601 (if l.toNat = 1 then t.setFlag (Off.mbxBind c.toNat) 63 true else t) []))) ∧
    (∀ c : BitVec 16, c.toNat < 4096 → u.chanMine h.master c.toNat = true →
      (accepted h 0x0602 [2] .any s = true →
        (u.bindLocked c.toNat = true → exec (.chanClose h c) s = .next (yafNot h 0x0602 u .locked none)) ∧
        (u.bindLocked c.toNat = false → exec (.chanClose h c) s =
          .next (yafDone h 0x0602 (u.mbxBindWrite c.toNat (setBit (u.reg (Off.mbxBind c.toNat)) 62 false)) []))) ∧
      (accepted h 0x0603 [2] .any s = true → ∃ res : List Byte, exec (.chanStatus h c) s = .next (yafDone h 0x0603 u res) ∧
        res.take 9 = natBytes 8 (u.reg (Off.mbxBind c.toNat)) ++ natBytes 1 (u.chan c.toNat).store.length))

/-- From 14 R390, 02 R55, 15 R408 to R412, 16 R422 and R427, 18 R457, 19 R472 to R478: the fault, test, virtual-function, power and firmware
commands of Yafolo. -/
def Obligations.YafoloSystem : Prop :=
  ∀ (h : CmdHdr) (s u : State), u = s.takeCmd h.master h.cp →
    (∀ (n : BitVec 16) (r : BitVec 8), accepted h 0x0701 [2, 1] .pf0 s = true →
      (768 ≤ n.toNat ∨ sourceReserved n.toNat = true ∨ n.toNat = 737 ∨ n.toNat = 739 ∨ 6 < r.toNat →
        exec (.errReactSet h n r) s = .next (yafNot h 0x0701 u .badArg none)) ∧
      (n.toNat < 768 → sourceReserved n.toNat = false → n.toNat ≠ 737 → n.toNat ≠ 739 → r.toNat ≤ 6 →
        (u.locked Off.fprCtrl = true → exec (.errReactSet h n r) s = .next (yafNot h 0x0701 u .locked none)) ∧
        (u.locked Off.fprCtrl = false → exec (.errReactSet h n r) s = .next (yafDone h 0x0701 (u.errReactSet (n.toNat / 32)
          (decide (16 ≤ n.toNat % 32)) (setBits (u.reactWordOf n.toNat) (4 * (n.toNat % 16)) 3 r.toNat)) [])))) ∧
    (∀ n : BitVec 16, n.toNat < 768 → (accepted h 0x0702 [2] .fn s = true → u.maySource h.master n.toNat = true →
        exec (.errStatus h n) s = .next (yafDone h 0x0702 u (packFields [(4, u.reg (Off.errSrc n.toNat)),
          (2, u.fld (Off.errFirst (n.toNat / 32)) 16 10), (8, u.reg (Off.errFirstNs (n.toNat / 32)))]))) ∧
      (accepted h 0x0703 [2, 1] .pf0 s = true → exec (.errClear h n 0) s = .next (yafDone h 0x0703 (u.errSrcW1c n.toNat) []) ∧
        exec (.errClear h n 1) s = .next (yafDone h 0x0703 (u.errSrcW1c n.toNat).errPinArm []))) ∧
    (accepted h 0x0704 [] .fn s = true → ∃ res : List Byte, exec (.spareStatus h) s = .next (yafDone h 0x0704 u res) ∧
      res.take 4 = natBytes 4 (u.fld Off.spareStat 0 6)) ∧
    (∀ (mid : BitVec 16) (v : RepairVerdict) (n : Nat) (p : RepairPath) (t : State), accepted h 0x0705 [2] .pf0 s = true →
      u.lpSlot mid.toNat = some n → u.mayLp h.master n = true → u.isSplit (n / 6) = false → ((u.lp n).code = 1 ∨ (u.lp n).code = 2) →
      p = repairPath (u.pair (pairNum (n / 6) (n % 6))).attempts v → t = (u.pairHold (n / 6) (n % 6)).pairRepair (n / 6) (n % 6) v →
      (p ≠ .none → v.further = false → u.spareState (n / 6) p.spare ≠ 0 → exec (.repairNow h mid v) s =
        .next (yafNot h 0x0705 u .noSpare none)) ∧
      (v.further = true ∨ p = .none ∨ u.spareState (n / 6) p.spare = 0 → exec (.repairNow h mid v) s =
        .next (yafDone h 0x0705 t (packFields [(4, t.reg (Off.cmpMap (n / 6) (n % 6)))])))) ∧
    (∀ (pr l2 sc : BitVec 8) (wn : BitVec 16) (t : State), accepted h 0x0706 [2, 1, 1, 1, 2] .pf0 s = true → l2 ≠ 0 → sc ≠ 0 →
      ((wearBlocks 0).any fun o => u.locked o) = false →
      t = (List.range 32).foldl (fun (t : State) i => t.setReg (Off.scErrcfg i) sc.toNat) u →
      exec (.wearCfg h 0 pr l2 sc wn) s = .next (yafDone h 0x0706 (t.setFld Off.nvjCfg 0 16 wn.toNat) [])) ∧
    (∀ c : BitVec 8, c.toNat < 16 → u.underTest c.toNat = false →
      (accepted h 0x0801 [1] .pf0 s = true →
        (∀ n : Nat, u.runningIn c.toNat = some n → exec (.clusterOffline h c) s =
          .next (yafNot h 0x0801 u .badState (some (u.lp n).code))) ∧
        (∀ a b t : State, u.runningIn c.toNat = none → a = u.fillAll c.toNat →
          b = (a.l2Lines c.toNat).eraseDups.foldl (fun (t : State) l => t.lineCleanInval c.toNat l) a →
          t = (b.lockenWrite (.l2 c.toNat) 0).clusterReset c.toNat → exec (.clusterOffline h c) s =
            .next (yafDone h 0x0801 { t with chip := { t.chip with offline := setBit t.chip.offline c.toNat true } } []))) ∧
      (accepted h 0x0802 [1] .pf0 s = true → u.offline c.toNat = false → ∀ (f : BitVec 4) (l : Nat) (b : BitVec 31),
        exec (.clusterOnline h c f l b) s = .next (yafDone h 0x0802 u [])) ∧
      (∀ t v : State, accepted h 0x0802 [1] .pf0 s = true → u.offline c.toNat = true → t = u.cmpTestShow c.toNat [] →
        t.bistEnd (1, c.toNat, 0) 0 = (v, .pass) → ∀ l : Nat, t.bistCounts 1 c.toNat 0 = 0 →
        exec (.clusterOnline h c 0 l 0) s = .next (yafDone h 0x0802 (v.goOnline c.toNat) [])) ∧
      (accepted h 0x0804 [1] .pf0 s = true → u.offline c.toNat = false → exec (.cmpTest h c 0 []) s =
        .next (yafNot h 0x0804 u .notOffline none)) ∧
      (∀ t : State, accepted h 0x0804 [1] .pf0 s = true → u.offline c.toNat = true → t = u.cmpTestRun c.toNat [] →
        exec (.cmpTest h c 0 []) s = .next (yafDone h 0x0804 t (packFields [(1, t.fld (Off.cmpTest c.toNat) 4 4)])))) ∧
    (∀ (sc un k : BitVec 8) (f : BitVec 31) (t : State × BistEnd), accepted h 0x0803 [1, 1, 1] .pf0 s = true → 1 ≤ sc.toNat →
      sc.toNat ≤ 5 → k.toNat ≤ 1 → bistExists sc.toNat un.toNat = true → u.chip.bist = none →
      (u.bistReady sc.toNat un.toNat = false → sc.toNat ≤ 2 → exec (.bistRun h sc un k f) s = .next (yafNot h 0x0803 u .notOffline none)) ∧
      (u.bistReady sc.toNat un.toNat = true → t = (u.bistCtrlWrite (2 ^ 31 + un.toNat * 65536 + sc.toNat * 256 + k.toNat)).bistEnd
        (sc.toNat, un.toNat, k.toNat) f → t.2 ≠ .failed → exec (.bistRun h sc un k f) s =
          .next (yafDone h 0x0803 t.1 (packFields [(8, t.1.reg Off.bistSig), (1, t.1.fld Off.bistStat 29 1)])))) ∧
    (∀ (p : BitVec 8) (pb n : BitVec 16) (pe : BitVec 32) (fr : BitVec 64) (tm : BitVec 32),
      accepted h 0x0805 [1, 1, 2, 2, 4, 8, 4] .pf0 s = true → p.toNat < 128 → u.pubExists pb.toNat = true → u.yaf.trip = none →
      u.flag (Off.portStat p.toNat) 0 = true → u.linkOfPort p.toNat = none → u.portMode p.toNat ≠ 4 →
      u.inReq h.master fr.toNat (2048 * n.toNat) = true → ∃ t : State, exec (.tripTest h p 1 pb n pe fr tm) s = .next t ∧
        t.yaf.trip = some ⟨h.master, h.cp, h.tag.toNat, p.toNat, true, pb.toNat, fr.toNat, n.toNat, [],
          u.time.cycles + tm.toNat * 1000⟩ ∧ t.yaf.muted = u.yaf.muted ∧ t.regs = u.regs ∧ t.mem = u.mem) ∧
    (∀ f : Frame, s.yaf.trip = none → exec (.tripTestFrameInject f) s = .next s) ∧
    (∀ (f : Frame) (t : Trip), s.yaf.trip = some t → (t.left = 0 → exec (.tripTestFrameInject f) s = .next s) ∧
      (t.left ≠ 0 → f.sec = none → s.usable t.port = true → s.slotFrame t f = true →
        exec (.tripTestFrameInject f) s = .next (s.tripInject t f))) ∧
    (∀ n : BitVec 8, accepted h 0x0901 [1] .pf0 s = true → (63 < n.toNat → exec (.vfEnable h n) s =
        .next (yafNot h 0x0901 u .badArg none)) ∧
      (n.toNat ≤ 63 → ((u.assigns.any fun a => decide (n.toNat < a.vf)) = true → exec (.vfEnable h n) s =
          .next (yafNot h 0x0901 u .badState none)) ∧
        ((u.assigns.any fun a => decide (n.toNat < a.vf)) = false → exec (.vfEnable h n) s =
          .next (yafDone h 0x0901 (u.setFld Off.hpStat 16 6 n.toNat) [])))) ∧
    (∀ (vf k : BitVec 8) (fi n : BitVec 16) (b z : BitVec 64) (a : Assign), accepted h 0x0902 [1, 1, 2, 2, 8, 8] .pf0 s = true →
      a = ⟨vf.toNat, k.toNat, fi.toNat, n.toNat, b.toNat, z.toNat⟩ → 0 < vf.toNat → vf.toNat ≤ u.fld Off.hpStat 16 6 → 1 ≤ k.toNat →
      k.toNat ≤ 7 → u.assignGood a = true → u.assigns.contains a = false →
      (k.toNat = 5 ∨ u.heldCount vf.toNat k.toNat + n.toNat ≤ windowSlots k.toNat) →
      ((u.assigns.any fun b => b.vf != a.vf && a.meets b) = true → exec (.vfAssign h vf k fi n b z) s =
        .next (yafNot h 0x0902 u .badState none)) ∧
      ((u.assigns.any fun b => b.vf != a.vf && a.meets b) = false → exec (.vfAssign h vf k fi n b z) s =
        .next (yafDone h 0x0902 { u with assigns := u.assigns ++ [a] } []))) ∧
    (∀ (vf : BitVec 8) (st : Nat), 0 < vf.toNat → vf.toNat ≤ u.fld Off.hpStat 16 6 → st = u.fld (Off.hpDlog (vf.toNat - 1)) 0 2 →
      (accepted h 0x0903 [1] .pf0 s = true →
        ((u.assigns.any fun a => a.vf == vf.toNat && u.assignOn a) = true → exec (.vfRelease h vf) s =
          .next (yafNot h 0x0903 u .badState none)) ∧
        ((u.assigns.any fun a => a.vf == vf.toNat && u.assignOn a) = false → exec (.vfRelease h vf) s =
          .next (yafDone h 0x0903 { u with assigns := u.assigns.filter fun a => a.vf != vf.toNat } []))) ∧
      (∀ (b p : BitVec 64) (t : State), accepted h 0x0904 [1, 8, 8] .pf0 s = true →
        t = { u with dlogs := tblSet u.dlogs vf.toNat ⟨b.toNat, p.toNat, []⟩ } →
        (st = 1 ∨ st = 2 → exec (.dirtyLogStart h vf b p) s = .next (yafNot h 0x0904 u .badState (some st))) ∧
        (st = 0 ∨ st = 3 → exec (.dirtyLogStart h vf b p) s =
          .next (yafDone h 0x0904 (t.setReg (Off.hpDlog (vf.toNat - 1)) 1) []))) ∧
      (∀ b : BitVec 64, accepted h 0x0905 [1, 8] .pf0 s = true →
        (st = 0 ∨ st = 3 → exec (.dirtyLogSwap h vf b) s = .next (yafNot h 0x0905 u .badState (some st))) ∧
        (st = 1 → ∃ (a t : State) (pg : Nat), a = u.bitmapWrite (tblGetD u.dlogs vf.toNat ⟨0, 0, []⟩) ∧
          t = { a.fresh.2 with dlogs := tblSet a.fresh.2.dlogs vf.toNat ⟨b.toNat, pg, pagesOf (a.fresh.2.dirtyHost vf.toNat)⟩ } ∧
          exec (.dirtyLogSwap h vf b) s = .next (yafDone h 0x0905 (t.setReg (Off.hpDlog (vf.toNat - 1))
            (u.fld (Off.hpDlog (vf.toNat - 1)) 24 40 * 2 ^ 24 + 1)) (packFields [(1, u.fld (Off.hpDlog (vf.toNat - 1)) 2 1)])))) ∧
      (accepted h 0x0906 [1] .pf0 s = true →
        (st = 0 ∨ st = 3 → exec (.dirtyLogStop h vf) s = .next (yafNot h 0x0906 u .badState (some st))) ∧
        (st = 1 ∨ st = 2 → u.dirtyHost vf.toNat = [] → ∀ (d : DirtyLog) (t : State), d = tblGetD u.dlogs vf.toNat ⟨0, 0, []⟩ →
          t = u.bitmapWrite { d with set := d.set.eraseDups } → exec (.dirtyLogStop h vf) s = .next (yafDone h 0x0906
            (({ t with dlogs := tblErase t.dlogs vf.toNat } : State).setFld (Off.hpDlog (vf.toNat - 1)) 0 2 0) [])))) ∧
    (∀ c : BitVec 8, accepted h 0x0A01 [1, 1] .pf0 s = true →
      exec (.reset h 1 c) s = .next (yafDone h 0x0A01 (u.askReset (.warm 0x3FF)) []) ∧
      exec (.reset h 2 c) s = .next (yafDone h 0x0A01 (u.askReset (.cold 3)) []) ∧
      exec (.reset h 4 c) s = .next (yafNot h 0x0A01 u .badArg none) ∧
      (c.toNat < 16 → u.underTest c.toNat = false → u.runningIn c.toNat = none → exec (.reset h 3 c) s =
        .next (yafDone h 0x0A01 ((u.resetTaken (.cluster c.toNat)).clusterReset c.toNat) []))) ∧
    (∀ t : State, accepted h 0x0A02 [] .pf0 s = true →
      t = ((({ u with twStopped := true } : State).writeBackAll fun _ => true).nvjEpoch 4).retain →
      exec (.powerDown h) s = .next (yafDone h 0x0A02 { t with chip := { t.chip with down := true } } [])) ∧
    (∀ (sl : BitVec 8) (im : BitVec 64) (ln vr : BitVec 32) (bs : List Byte), accepted h 0x0F01 [1, 8, 4] .pf0 s = true → sl.toNat ≤ 1 →
      sl.toNat ≠ u.chip.running → u.bufRead h.master im.toNat ln.toNat = some bs →
      (∀ rb : Bool, exec (.fwStage h sl im ln false rb vr) s = .next (yafNot h 0x0F01 u .imageInvalid (some 6))) ∧
      (exec (.fwStage h sl im ln true false vr) s = .next (yafNot h 0x0F01 u .imageInvalid (some 7))) ∧
      (exec (.fwStage h sl im ln true true vr) s = .next (yafDone h 0x0F01 { u with chip := { u.chip with
        valid := setBit u.chip.valid sl.toNat true, vers := tblSet u.chip.vers sl.toNat vr.toNat } } (packFields [(4, vr.toNat)])))) ∧
    (∀ sl : BitVec 8, accepted h 0x0F02 [1] .pf0 s = true → sl.toNat ≤ 1 →
      (bitOf u.chip.valid sl.toNat = false → exec (.fwActivate h sl) s = .next (yafNot h 0x0F02 u .badState none)) ∧
      (bitOf u.chip.valid sl.toNat = true → exec (.fwActivate h sl) s =
        .next (yafDone h 0x0F02 { u with chip := { u.chip with next := sl.toNat } } []))) ∧
    (accepted h 0x0F03 [] .fn s = true → exec (.fwStatus h) s = .next (yafDone h 0x0F03 u (packFields [(1, u.chip.running),
      (1, u.chip.next), (1, u.chip.valid), (4, u.slotVersion 0), (4, u.slotVersion 1)])))
end

