-- ==== Sys2Proof/Laws/Instructions.lean ====
section
/-! SUPPORT. What the two runners of the model do, said once: an instruction whose operands are ready, and a command of Yafolo that
is accepted. -/

namespace Sys2Proof.Machine

open Sys2Proof.Safety

/-- An instruction whose operands are ready and whose operation succeeds commits the operation's state; the store buffer may be
full only where no blocking post holds it, which `operandsReady` asks. -/
theorem execOn_ready {n opBytes maxLevel : Nat} {os : List Opd} {s s1 s2 : State} {r : Ready} {next nx : Nat}
    {f : State → Ready → Nat → Except Trap (State × Nat)}
    (h : operandsReady s n opBytes maxLevel os = some (s1, r, next)) (hf : f s1 r next = .ok (s2, nx)) :
    execOn n opBytes maxLevel os s f = s2.commit n nx := by
  unfold operandsReady at h
  split at h
  · rename_i hb
    simp only [mayBegin, Bool.and_eq_true, Bool.not_eq_true', decide_eq_true_eq, Option.isNone_iff_eq_none] at hb
    obtain ⟨⟨⟨⟨⟨hr, hs⟩, hft⟩, hl⟩, he⟩, hv⟩ := hb
    unfold execOn
    simp only [hr, hft, he, hv, hs, Bool.not_true, Bool.false_and, Bool.false_eq_true, if_false, Nat.not_lt.2 hl]
    cases hp : (s.fetchFills n (instrLen opBytes os)).places n 1 os with
    | mk u q =>
      obtain ⟨ps, late⟩ := q
      rw [hp] at h
      simp only at h ⊢
      cases hq : u.fetchOpds n late 1 os ps with
      | error t => rw [hq] at h; cases h
      | ok w =>
        obtain ⟨s2', vs⟩ := w
        rw [hq] at h
        simp only [Option.some.injEq, Prod.mk.injEq] at h
        obtain ⟨rfl, rfl, rfl⟩ := h
        simp only [hf]
  · cases h

/-- An instruction whose operands are ready and whose operation traps takes the trap, or waits, from the state before it. -/
theorem execOn_trap {n opBytes maxLevel : Nat} {os : List Opd} {s s1 : State} {r : Ready} {next : Nat} {t : Trap}
    {f : State → Ready → Nat → Except Trap (State × Nat)}
    (h : operandsReady s n opBytes maxLevel os = some (s1, r, next)) (hf : f s1 r next = .error t) :
    execOn n opBytes maxLevel os s f = s.stop n t (t.resume.getD (s.lp n).pc.toNat) := by
  unfold operandsReady at h
  split at h
  · rename_i hb
    simp only [mayBegin, Bool.and_eq_true, Bool.not_eq_true', decide_eq_true_eq, Option.isNone_iff_eq_none] at hb
    obtain ⟨⟨⟨⟨⟨hr, hs⟩, hft⟩, hl⟩, he⟩, hv⟩ := hb
    unfold execOn
    simp only [hr, hft, he, hv, Bool.not_true, Bool.false_eq_true, if_false, Nat.not_lt.2 hl]
    cases hp : (s.fetchFills n (instrLen opBytes os)).places n 1 os with
    | mk u q =>
      obtain ⟨ps, late⟩ := q
      rw [hp] at h
      simp only at h ⊢
      cases hq : u.fetchOpds n late 1 os ps with
      | error t => rw [hq] at h; cases h
      | ok w =>
        obtain ⟨s2', vs⟩ := w
        rw [hq] at h
        simp only [Option.some.injEq, Prod.mk.injEq] at h
        obtain ⟨rfl, rfl, rfl⟩ := h
        simp only [hf]
  · cases h

/-- An accepted command of Yafolo: what it does, and its completion. -/
theorem yafRun_accepted {h : CmdHdr} {opcode : Nat} {args : List Nat} {b : By} {s : State} {f : State → Ans}
    (ha : accepted h opcode args b s = true) :
    yafRun h opcode args b s f = .next (
      if (f (s.takeCmd h.master h.cp)).later then (f (s.takeCmd h.master h.cp)).st
      else (f (s.takeCmd h.master h.cp)).st.complete h.master h.cp h.tag.toNat opcode (f (s.takeCmd h.master h.cp)).code
        (f (s.takeCmd h.master h.cp)).detail (f (s.takeCmd h.master h.cp)).applied (f (s.takeCmd h.master h.cp)).res) := by
  simp only [accepted, Bool.and_eq_true, Option.isNone_iff_eq_none] at ha
  simp only [yafRun, ha, Bool.not_true, Bool.false_eq_true, if_false]

end Sys2Proof.Machine
end

