-- ==== Sys2Proof/Laws/Arithmetic.lean ====
section
/-! SUPPORT. What the shared shapes of the integer instructions do once their operands are ready, and what their flags say. -/

namespace Sys2Proof.Machine

open Sys2Proof.Safety

variable {n opBytes size : Nat} {ovf : Bool} {d a b : Spec} {s s1 : State} {r : Ready} {next : Nat}

theorem arith3_written {f : Flags → Nat → Nat → Nat × Flags}
    (h : operandsReady s n opBytes 3 [odst d size, osrc a size, osrc b size] = some (s1, r, next))
    (hv : ((f (s1.flagsOf n) (r.val 1) (r.val 2)).2.v && ovf && bitOf (s1.lp n).ps.toNat 16) = false) :
    arith3 n opBytes size ovf d a b s f =
      written s1 r n next (f (s1.flagsOf n) (r.val 1) (r.val 2)).1 (f (s1.flagsOf n) (r.val 1) (r.val 2)).2 :=
  execOn_ready h (by simp only [finish, hv, Bool.false_eq_true, if_false])

theorem arith3_overflow {f : Flags → Nat → Nat → Nat × Flags}
    (h : operandsReady s n opBytes 3 [odst d size, osrc a size, osrc b size] = some (s1, r, next))
    (hv : ((f (s1.flagsOf n) (r.val 1) (r.val 2)).2.v && ovf && bitOf (s1.lp n).ps.toNat 16) = true) :
    arith3 n opBytes size ovf d a b s f = trapped s n (mkTrap 0x0B 0 0 0) := by
  unfold arith3
  rw [execOn_trap (t := mkTrap 0x0B 0 0 0) h (by simp only [finish, hv, if_true])]
  rfl

theorem arithDiv_written {f : Nat → Nat → Nat × Flags}
    (h : operandsReady s n opBytes 3 [odst d size, osrc a size, osrc b size] = some (s1, r, next)) (h0 : r.val 2 ≠ 0)
    (hv : ((f (r.val 1) (r.val 2)).2.v && ovf && bitOf (s1.lp n).ps.toNat 16) = false) :
    arithDiv n opBytes size ovf d a b s f = written s1 r n next (f (r.val 1) (r.val 2)).1 (f (r.val 1) (r.val 2)).2 :=
  execOn_ready h (by simp only [finish, hv, h0, Bool.false_eq_true, if_false])

theorem arithDiv_overflow {f : Nat → Nat → Nat × Flags}
    (h : operandsReady s n opBytes 3 [odst d size, osrc a size, osrc b size] = some (s1, r, next)) (h0 : r.val 2 ≠ 0)
    (hv : ((f (r.val 1) (r.val 2)).2.v && ovf && bitOf (s1.lp n).ps.toNat 16) = true) :
    arithDiv n opBytes size ovf d a b s f = trapped s n (mkTrap 0x0B 0 0 0) := by
  unfold arithDiv
  rw [execOn_trap (t := mkTrap 0x0B 0 0 0) h (by simp only [finish, hv, h0, if_false, if_true])]
  rfl

theorem arithDiv_zero {f : Nat → Nat → Nat × Flags}
    (h : operandsReady s n opBytes 3 [odst d size, osrc a size, osrc b size] = some (s1, r, next)) (h0 : r.val 2 = 0) :
    arithDiv n opBytes size ovf d a b s f = trapped s n (mkTrap 0x0A 0 0 0) := by
  unfold arithDiv
  rw [execOn_trap (t := mkTrap 0x0A 0 0 0) h (by simp only [h0, if_true])]
  rfl

theorem flags2_ready {f : Nat → Nat → Flags}
    (h : operandsReady s n 1 3 [osrc a size, osrc b size] = some (s1, r, next)) :
    flags2 n size a b s f = (s1.setFlags n (f (r.val 0) (r.val 1))).commit n next := execOn_ready h rfl

theorem move2_ready {dsize asize : Nat} {f : Nat → Nat}
    (h : operandsReady s n opBytes 3 [odst d dsize, osrc a asize] = some (s1, r, next)) :
    move2 n opBytes dsize asize d a s f = moved s1 r n next (f (r.val 1)) := execOn_ready h rfl

theorem count2_ready {f : Nat → Nat} (h : operandsReady s n 1 3 [odst d 8, osrc a 8] = some (s1, r, next)) :
    count2 n d a s f = written s1 r n next (f (r.val 1)) ⟨false, f (r.val 1) == 0, false, false⟩ := execOn_ready h rfl

theorem forLp_next {f : State → State} (h : n < 98) : forLp n s f = .next (f s) := by
  simp only [forLp, h, if_true]

/-- The sign of a value of `w` bits is its top bit. -/
theorem sgn_iff {w x : Nat} (hw : 0 < w) (hx : x < 2 ^ w) : sgn w x = true ↔ 2 ^ (w - 1) ≤ x := by
  unfold sgn bitOf
  have hp : 0 < 2 ^ (w - 1) := Nat.two_pow_pos _
  have h2 : 2 ^ w = 2 * 2 ^ (w - 1) := by
    rw [← Nat.pow_succ', show (w - 1).succ = w by omega]
  rw [beq_iff_eq]
  constructor
  · intro h
    refine Nat.le_of_not_lt fun hc => ?_
    rw [Nat.div_eq_of_lt hc] at h
    omega
  · intro h
    have : x / 2 ^ (w - 1) = 1 := by
      apply Nat.div_eq_of_lt_le <;> omega
    rw [this]

theorem wrapInt_lt (i : Int) (w : Nat) : wrapInt i w < 2 ^ w := by
  unfold wrapInt
  have hp : (0 : Int) < ((2 ^ w : Nat) : Int) := by exact_mod_cast Nat.two_pow_pos w
  have h1 := Int.emod_lt_of_pos i hp
  have h2 := Int.emod_nonneg i (Int.ne_of_gt hp)
  omega

end Sys2Proof.Machine
end

