-- ==== Sys2Proof/Laws/Memory.lean ====
section
/-! SUPPORT. The laws of the two containers: a table's read after a write, memory's read after a write, and the canonical form
of memory, which every operation on it keeps. -/

namespace Sys2Proof.Machine

@[simp] theorem tblGet?_tblSet_same {α : Type} (t : Tbl α) (n : Nat) (x : α) : tblGet? (tblSet t n x) n = some x := by
  induction t with
  | nil => simp [tblSet, tblGet?]
  | cons e t ih =>
    obtain ⟨k, v⟩ := e
    simp only [tblSet]
    repeat' split
    all_goals simp_all [tblGet?]

theorem tblGet?_tblSet_other {α : Type} (t : Tbl α) {n m : Nat} (x : α) (h : n ≠ m) :
    tblGet? (tblSet t n x) m = tblGet? t m := by
  induction t with
  | nil => simp [tblSet, tblGet?, h]
  | cons e t ih =>
    obtain ⟨k, v⟩ := e
    simp only [tblSet]
    repeat' split
    all_goals simp_all [tblGet?]

@[simp] theorem tblGetD_tblSet_same {α : Type} (t : Tbl α) (n : Nat) (x d : α) : tblGetD (tblSet t n x) n d = x := by
  simp [tblGetD]

theorem tblGetD_tblSet_other {α : Type} (t : Tbl α) {n m : Nat} (x d : α) (h : n ≠ m) :
    tblGetD (tblSet t n x) m d = tblGetD t m d := by
  simp [tblGetD, tblGet?_tblSet_other t x h]

theorem tblGet?_tblErase_same {α : Type} (t : Tbl α) (n : Nat) : tblGet? (tblErase t n) n = none := by
  induction t with
  | nil => rfl
  | cons e t ih =>
    obtain ⟨k, v⟩ := e
    by_cases h : k = n
    · simpa [tblErase, List.filter_cons, h] using ih
    · simpa [tblErase, List.filter_cons, h, tblGet?] using ih

/-- A cell may stand before every cell of a memory. -/
def cellBefore (c : Host.Cell) (m : Mem) : Prop := ∀ d ∈ m, c.1 < d.1

theorem Memory.wf_cons (c : Host.Cell) (m : Mem) : Memory.wf (c :: m) = true ↔ c.2 ≠ 0 ∧ cellBefore c m ∧ Memory.wf m = true := by
  induction m generalizing c with
  | nil => simp [Memory.wf, cellBefore]
  | cons d t ih =>
    rw [Memory.wf]
    simp only [Bool.and_eq_true, decide_eq_true_eq, bne_iff_ne]
    constructor
    · rintro ⟨⟨h0, hd⟩, hw⟩
      refine ⟨h0, ?_, hw⟩
      intro e he
      rcases List.mem_cons.1 he with rfl | he
      · exact hd
      · exact Nat.lt_trans hd (((ih d).1 hw).2.1 e he)
    · rintro ⟨h0, hb, hw⟩
      exact ⟨⟨h0, hb d (List.mem_cons_self ..)⟩, hw⟩

theorem filter_wf {m : Mem} {p : Host.Cell → Bool} (h : Memory.wf m = true) : Memory.wf (m.filter p) = true := by
  induction m with
  | nil => exact h
  | cons c t ih =>
    have hc := (Memory.wf_cons c t).1 h
    rw [List.filter_cons]
    split
    · exact (Memory.wf_cons _ _).2 ⟨hc.1, fun d hd => hc.2.1 d (List.mem_filter.1 hd).1, ih hc.2.2⟩
    · exact ih hc.2.2

theorem memErase_wf {m : Mem} {a : Nat} (h : Memory.wf m = true) : Memory.wf (memErase m a) = true := filter_wf h

theorem mem_memPut {m : Mem} {a : Nat} {b : Byte} {d : Host.Cell} : d ∈ memPut m a b ↔ d = (a, b) ∨ d ∈ m := by
  induction m with
  | nil => simp [memPut]
  | cons c t ih =>
    obtain ⟨k, v⟩ := c
    simp only [memPut]
    split
    · simp
    · simp only [List.mem_cons, ih]
      constructor
      · rintro (h | h | h) <;> simp [h]
      · rintro (h | h | h) <;> simp [h]

theorem memPut_wf {m : Mem} {a : Nat} {b : Byte} (hb : b ≠ 0) (hn : ∀ d ∈ m, d.1 ≠ a) (h : Memory.wf m = true) :
    Memory.wf (memPut m a b) = true := by
  induction m with
  | nil => simpa [memPut, Memory.wf] using hb
  | cons c t ih =>
    obtain ⟨k, v⟩ := c
    have hc := (Memory.wf_cons (k, v) t).1 h
    simp only [memPut]
    split
    · rename_i hlt
      refine (Memory.wf_cons _ _).2 ⟨hb, ?_, h⟩
      intro d hd
      rcases List.mem_cons.1 hd with rfl | hd
      · exact hlt
      · exact Nat.lt_trans hlt (hc.2.1 d hd)
    · rename_i hge
      refine (Memory.wf_cons _ _).2 ⟨hc.1, ?_, ih (fun d hd => hn d (List.mem_cons_of_mem _ hd)) hc.2.2⟩
      intro d hd
      rcases mem_memPut.1 hd with rfl | hd
      · have := hn (k, v) (List.mem_cons_self ..)
        simp only at this ⊢
        omega
      · exact hc.2.1 d hd

/-- A byte written keeps the canonical form. -/
theorem memSet_wf {m : Mem} {a : Nat} {b : Byte} (h : Memory.wf m = true) : Memory.wf (memSet m a b) = true := by
  unfold memSet
  split
  · exact memErase_wf h
  · refine memPut_wf ‹_› ?_ (memErase_wf h)
    intro d hd
    have := (List.mem_filter.1 hd).2
    simpa using this

/-- Bytes written keep the canonical form. -/
theorem memWriteBytes_wf {m : Mem} {a : Nat} {bs : List Byte} (h : Memory.wf m = true) :
    Memory.wf (memWriteBytes m a bs) = true := by
  induction bs generalizing m a with
  | nil => exact h
  | cons b t ih => exact ih (memSet_wf h)

theorem memGet_memErase_same (m : Mem) (a : Nat) : memGet (memErase m a) a = 0 := by
  induction m with
  | nil => rfl
  | cons c t ih =>
    obtain ⟨k, v⟩ := c
    by_cases h : k = a
    · simpa [memErase, List.filter_cons, h] using ih
    · simpa [memErase, List.filter_cons, h, memGet] using ih

theorem memGet_memErase_other (m : Mem) {a c : Nat} (h : a ≠ c) : memGet (memErase m a) c = memGet m c := by
  induction m with
  | nil => rfl
  | cons e t ih =>
    obtain ⟨k, v⟩ := e
    by_cases hk : k = a
    · have : k ≠ c := hk ▸ h
      simpa [memErase, List.filter_cons, hk, memGet, h] using ih
    · simp only [memErase, List.filter_cons] at ih ⊢
      simp only [bne_iff_ne, ne_eq, hk, not_false_eq_true, if_true, memGet]
      split
      · rfl
      · exact ih

theorem memGet_memPut_same (m : Mem) (a : Nat) (b : Byte) (hn : ∀ d ∈ m, d.1 ≠ a) : memGet (memPut m a b) a = b := by
  induction m with
  | nil => simp [memPut, memGet]
  | cons e t ih =>
    obtain ⟨k, v⟩ := e
    simp only [memPut]
    split
    · simp [memGet]
    · have hk : k ≠ a := hn (k, v) (List.mem_cons_self ..)
      simp only [memGet, hk, if_false]
      exact ih fun d hd => hn d (List.mem_cons_of_mem _ hd)

theorem memGet_memPut_other (m : Mem) {a c : Nat} (b : Byte) (h : a ≠ c) : memGet (memPut m a b) c = memGet m c := by
  induction m with
  | nil => simp [memPut, memGet, h]
  | cons e t ih =>
    obtain ⟨k, v⟩ := e
    simp only [memPut]
    split
    · simp [memGet, h]
    · simp only [memGet]
      split
      · rfl
      · exact ih

/-- What is written is read. -/
@[simp] theorem memGet_memSet_same (m : Mem) (a : Nat) (b : Byte) : memGet (memSet m a b) a = b := by
  unfold memSet
  split
  · rw [memGet_memErase_same]; exact Eq.symm ‹_›
  · refine memGet_memPut_same _ _ _ ?_
    intro d hd
    simpa using (List.mem_filter.1 hd).2

/-- A write leaves every other byte as it was. -/
theorem memGet_memSet_other (m : Mem) {a c : Nat} (b : Byte) (h : a ≠ c) : memGet (memSet m a b) c = memGet m c := by
  unfold memSet
  split
  · exact memGet_memErase_other m h
  · rw [memGet_memPut_other _ _ h, memGet_memErase_other m h]

/-- Bytes written leave every byte outside them as it was. -/
theorem memGet_memWriteBytes_other (m : Mem) (a : Nat) (bs : List Byte) {c : Nat} (h : c < a ∨ a + bs.length ≤ c) :
    memGet (memWriteBytes m a bs) c = memGet m c := by
  induction bs generalizing m a with
  | nil => rfl
  | cons b t ih =>
    have hl : (b :: t).length = t.length + 1 := rfl
    rw [memWriteBytes, ih _ _ (by omega), memGet_memSet_other _ _ (by omega)]

/-- Bytes written are read back. -/
theorem memGet_memWriteBytes_in (m : Mem) (a : Nat) (bs : List Byte) {i : Nat} (h : i < bs.length) :
    memGet (memWriteBytes m a bs) (a + i) = bs[i] := by
  induction bs generalizing m a i with
  | nil => exact absurd h (Nat.not_lt_zero _)
  | cons b t ih =>
    rw [memWriteBytes]
    cases i with
    | zero => rw [memGet_memWriteBytes_other _ _ _ (by omega)]; simp
    | succ j =>
      have := ih (memSet m a b) (a + 1) (i := j) (by simpa using h)
      rw [show a + (j + 1) = a + 1 + j by omega, this]
      simp

end Sys2Proof.Machine
end

