-- ==== Sys2Proof/Laws/Kept.lean ====
section
/-! SUPPORT. `Kept`: what no command may break (the queue is left alone, memory stays in its canonical form, free values are only
taken), for each shape of result that a definition of the model has. The files KeptMemory to KeptYafolo hold the one lemma of each
operation, in the order of the model's files. -/

namespace Sys2Proof.Machine

/-- What every command keeps of the state it starts from: the queue, the canonical form of memory, and the free values already
taken. -/
structure Kept (orig t : State) : Prop where
  pending : t.pending = orig.pending
  mem : Memory.wf orig.mem = true → Memory.wf t.mem = true
  free : orig.freeCount ≤ t.freeCount

/-- `Kept` of the state in a pair's first place. -/
structure KeptFst {α : Type} (orig : State) (p : State × α) : Prop where
  fst : Kept orig p.1
/-- `Kept` of the state in a pair's second place. -/
structure KeptSnd {α : Type} (orig : State) (p : α × State) : Prop where
  snd : Kept orig p.2
/-- `Kept` of a state that there may be. -/
structure KeptOpt (orig : State) (o : Option State) : Prop where
  of : ∀ {t}, o = some t → Kept orig t
/-- `Kept` of a state and value that there may be. -/
structure KeptOptFst {α : Type} (orig : State) (o : Option (State × α)) : Prop where
  of : ∀ {t a}, o = some (t, a) → Kept orig t
/-- `Kept` of a state or else a reason. -/
structure KeptExc {ε : Type} (orig : State) (o : Except ε State) : Prop where
  of : ∀ {t}, o = .ok t → Kept orig t
/-- `Kept` of a state and value, or else a reason. -/
structure KeptExcFst {ε α : Type} (orig : State) (o : Except ε (State × α)) : Prop where
  of : ∀ {t a}, o = .ok (t, a) → Kept orig t
/-- `Kept` of the next state of an outcome. -/
structure KeptOut (orig : State) (o : Host.Outcome State Fault Refusal) : Prop where
  of : ∀ {t}, o = .next t → Kept orig t

/-- `Kept` of the state that a command of Yafolo answers with. -/
structure KeptAns (orig : State) (a : Ans) : Prop where
  st : Kept orig a.st
/-- `Kept` of the state after a store-buffer entry. -/
inductive KeptPerf (orig : State) : Performed → Prop where
  | done {t : State} (h : Kept orig t) : KeptPerf orig (.done t)
  | held {t : State} (h : Kept orig t) : KeptPerf orig (.held t)
  | busError {t : State} (h : Kept orig t) : KeptPerf orig (.busError t)

variable {orig : State}

theorem via {p q : Prop} (h : p) (k : p → q) : q := k h
theorem Kept.refl (s : State) : Kept s s := ⟨rfl, id, Nat.le_refl _⟩
theorem KeptFst.mk' {α : Type} {t : State} {a : α} (h : Kept orig t) : KeptFst orig (t, a) := ⟨h⟩
theorem KeptSnd.mk' {α : Type} {t : State} {a : α} (h : Kept orig t) : KeptSnd orig (a, t) := ⟨h⟩
theorem KeptFst.of {α : Type} {p : State × α} {t : State} {a : α} (e : p = (t, a)) (k : KeptFst orig p) : Kept orig t := by
  subst e; exact k.1
theorem KeptSnd.of {α : Type} {p : α × State} {t : State} {a : α} (e : p = (a, t)) (k : KeptSnd orig p) : Kept orig t := by
  subst e; exact k.1
theorem KeptOpt.none : KeptOpt orig .none := ⟨fun e => nomatch e⟩
theorem KeptOpt.some {t : State} (h : Kept orig t) : KeptOpt orig (.some t) := ⟨fun e => Option.some.inj e ▸ h⟩
theorem KeptOptFst.none {α : Type} : KeptOptFst (α := α) orig .none := ⟨fun e => nomatch e⟩
theorem KeptOptFst.some {α : Type} {p : State × α} (h : KeptFst orig p) : KeptOptFst orig (.some p) :=
  ⟨fun e => KeptFst.of (Option.some.inj e) h⟩
theorem KeptOptFst.pair {α : Type} {o : Option (State × α)} {p : State × α} (e : o = .some p) (k : KeptOptFst orig o) : KeptFst orig p :=
  ⟨k.of (t := p.1) (a := p.2) e⟩
theorem KeptExcFst.pair {ε α : Type} {o : Except ε (State × α)} {p : State × α} (e : o = .ok p) (k : KeptExcFst orig o) :
    KeptFst orig p := ⟨k.of (t := p.1) (a := p.2) e⟩
theorem KeptExc.error {ε : Type} {e : ε} : KeptExc orig (.error e) := ⟨fun e => nomatch e⟩
theorem KeptExc.ok {ε : Type} {t : State} (h : Kept orig t) : KeptExc (ε := ε) orig (.ok t) := ⟨fun e => Except.ok.inj e ▸ h⟩
theorem KeptExcFst.error {ε α : Type} {e : ε} : KeptExcFst (α := α) orig (.error e) := ⟨fun e => nomatch e⟩
theorem KeptExcFst.ok {ε α : Type} {p : State × α} (h : KeptFst orig p) : KeptExcFst (ε := ε) orig (.ok p) :=
  ⟨fun e => KeptFst.of (Except.ok.inj e) h⟩
theorem KeptOut.next {t : State} (h : Kept orig t) : KeptOut orig (.next t) := ⟨fun e => by cases e; exact h⟩
theorem KeptOut.refused {r : Refusal} : KeptOut orig (.refused r) := ⟨fun e => nomatch e⟩

theorem List.foldl_kept {α : Type} {f : State → α → State} {s : State} {l : List α} (h : Kept orig s)
    (hf : ∀ t x, Kept orig t → Kept orig (f t x)) : Kept orig (l.foldl f s) := by
  induction l generalizing s with
  | nil => exact h
  | cons a l ih => exact ih (hf _ _ h)
theorem Option.getD_kept {o : Option State} {s : State} (h : Kept orig s) (ho : KeptOpt orig o) : Kept orig (o.getD s) := by
  cases o with
  | none => exact h
  | some t => exact ho.of rfl
theorem List.foldlFst_kept {α β : Type} {f : State × β → α → State × β} {p : State × β} {l : List α} (h : KeptFst orig p)
    (hf : ∀ t x, KeptFst orig t → KeptFst orig (f t x)) : KeptFst orig (l.foldl f p) := by
  induction l generalizing p with
  | nil => exact h
  | cons a l ih => exact ih (hf _ _ h)
theorem Option.map_kept {o : Option State} {f : State → State} (ho : KeptOpt orig o) (hf : ∀ t, Kept orig t → Kept orig (f t)) :
    KeptOpt orig (o.map f) := by
  cases o with
  | none => exact KeptOpt.none
  | some t => exact KeptOpt.some (hf _ (ho.of rfl))
theorem Except.toOption_kept {ε : Type} {o : Except ε State} (ho : KeptExc orig o) : KeptOpt orig o.toOption := by
  cases o with
  | error _ => exact KeptOpt.none
  | ok t => exact KeptOpt.some (ho.of rfl)
theorem KeptAns.mk' {t : State} {c : Code} {d : Option Nat} {b l : Bool} {r : List Byte} (h : Kept orig t) :
    KeptAns orig ⟨t, c, d, b, r, l⟩ := ⟨h⟩
theorem KeptPerf.of1 {p : Performed} {t : State} (k : KeptPerf orig p) (e : p = .done t) : Kept orig t := by
  subst e; cases k; assumption
theorem KeptPerf.of2 {p : Performed} {t : State} (k : KeptPerf orig p) (e : p = .held t) : Kept orig t := by
  subst e; cases k; assumption
theorem KeptPerf.of3 {p : Performed} {t : State} (k : KeptPerf orig p) (e : p = .busError t) : Kept orig t := by
  subst e; cases k; assumption
theorem kept_mk {s : State} (h : Kept orig s) {x2 x3 x5 x6 x7 x8 x9 x10 x11 x12 x13 x14 x15 x16 x17 x18 x19 x20 x21 x22 x23
    x24 x25 x26 x27 x28 x29 x30 x31 x32 x33 x34 x35 x36 x37 x38 x39 x40 x41 x42 x43 x44 x45 x46 x47 x48 x49 x50 x51 x52} :
    Kept orig (State.mk s.pending s.freeCount x2 x3 s.mem x5 x6 x7 x8 x9 x10 x11 x12 x13 x14 x15 x16 x17 x18 x19 x20 x21 x22
    x23 x24 x25 x26 x27 x28 x29 x30 x31 x32 x33 x34 x35 x36 x37 x38 x39 x40 x41 x42 x43 x44 x45 x46 x47 x48 x49 x50 x51 x52)
    := ⟨h.1, h.2, h.3⟩
theorem kept_mk_mem {s : State} {m : Mem} (h : Kept orig s) (hm : Memory.wf s.mem = true → Memory.wf m = true) {x2 x3 x5 x6 x7
    x8 x9 x10 x11 x12 x13 x14 x15 x16 x17 x18 x19 x20 x21 x22 x23 x24 x25 x26 x27 x28 x29 x30 x31 x32 x33 x34 x35 x36 x37 x38
    x39 x40 x41 x42 x43 x44 x45 x46 x47 x48 x49 x50 x51 x52} :
    Kept orig (State.mk s.pending s.freeCount x2 x3 m x5 x6 x7 x8 x9 x10 x11 x12 x13 x14 x15 x16 x17 x18 x19 x20 x21 x22 x23
    x24 x25 x26 x27 x28 x29 x30 x31 x32 x33 x34 x35 x36 x37 x38 x39 x40 x41 x42 x43 x44 x45 x46 x47 x48 x49 x50 x51 x52) :=
    ⟨h.1, fun w => hm (h.2 w), h.3⟩
theorem State.fresh_kept {s : State} (h : Kept orig s) : KeptSnd orig s.fresh :=
  ⟨⟨h.1, h.2, Nat.le_trans h.3 (Nat.le_add_right ..)⟩⟩
theorem State.freshBytes_kept {s : State} (h : Kept orig s) {n : Nat} : KeptSnd orig (s.freshBytes n) :=
  ⟨⟨h.1, h.2, Nat.le_trans h.3 (Nat.le_add_right ..)⟩⟩
theorem State.freshBit_kept {s : State} (h : Kept orig s) : KeptSnd orig s.freshBit :=
  ⟨⟨h.1, h.2, Nat.le_trans h.3 (Nat.le_add_right ..)⟩⟩

end Sys2Proof.Machine
end

