-- ==== Sys2Proof/Laws/KeptMemory.lean ====
section
/-! SUPPORT. `Kept` of the operations of notifications, time, caches, sparing, the maintenance of caches, the mailbox, Yafolo's core and the event sources. -/

namespace Sys2Proof.Machine

variable {orig : State}

theorem State.setReg_kept {s : State} (hk : Kept orig s) {off v : Nat} : Kept orig (State.setReg s off v) := by
  unfold State.setReg
  apply kept_mk
  assumption
theorem State.setFld_kept {s : State} (hk : Kept orig s) {off lo w v : Nat} : Kept orig (State.setFld s off lo w v) :=
  State.setReg_kept hk
theorem State.setFlag_kept {s : State} (hk : Kept orig s) {off i : Nat} {b : Bool} : Kept orig (State.setFlag s off i b) :=
  State.setReg_kept hk
theorem State.bumpReg_kept {s : State} (hk : Kept orig s) {off lim : Nat} : Kept orig (State.bumpReg s off lim) :=
  State.setReg_kept hk
theorem State.clearRegs_kept {s : State} (hk : Kept orig s) {p : RegDesc → List Nat → Bool} : Kept orig (State.clearRegs s p)
    := by
  unfold State.clearRegs
  apply kept_mk
  assumption
theorem State.setLp_kept {s : State} (hk : Kept orig s) {n : Nat} {p : LP} : Kept orig (State.setLp s n p) := by
  unfold State.setLp
  apply kept_mk
  assumption
theorem State.onLp_kept {s : State} (hk : Kept orig s) {n : Nat} {f : LP → LP} : Kept orig (State.onLp s n f) :=
  State.setLp_kept hk
theorem State.onPair_kept {s : State} (hk : Kept orig s) {n : Nat} {f : Pair → Pair} : Kept orig (State.onPair s n f) := by
  unfold State.onPair
  apply kept_mk
  assumption
theorem State.onL2_kept {s : State} (hk : Kept orig s) {c : Nat} {f : Cache → Cache} : Kept orig (State.onL2 s c f) := by
  unfold State.onL2
  apply kept_mk
  assumption
theorem State.onSc_kept {s : State} (hk : Kept orig s) {i : Nat} {f : Cache → Cache} : Kept orig (State.onSc s i f) := by
  unfold State.onSc
  apply kept_mk
  assumption
theorem State.count_kept {s : State} (hk : Kept orig s) {off n : Nat} : Kept orig (State.count s off n) := by
  unfold State.count
  split
  assumption
  lift_lets -underBinder
  intro v; try clear_value v
  intro c; try clear_value c
  apply kept_mk
  assumption
theorem State.countLp_kept {s : State} (hk : Kept orig s) {n i k : Nat} : Kept orig (State.countLp s n i k) := by
  unfold State.countLp
  split
  assumption
  lift_lets -underBinder
  intro off; try clear_value off
  intro s'; refine via (p := Kept orig s') ?_ fun hk => ?_; dsimp only [s']
  exact State.count_kept ‹_›
  clear_value s'
  split
  exact State.onLp_kept ‹_›
  assumption
theorem State.countCl_kept {s : State} (hk : Kept orig s) {c i k : Nat} : Kept orig (State.countCl s c i k) :=
  State.count_kept hk
theorem State.countSc_kept {s : State} (hk : Kept orig s) {c i k : Nat} : Kept orig (State.countSc s c i k) :=
  State.count_kept hk
theorem State.countHub_kept {s : State} (hk : Kept orig s) {p i k : Nat} : Kept orig (State.countHub s p i k) :=
  State.count_kept hk
theorem State.answer_kept {s : State} (hk : Kept orig s) {r : Resp} : Kept orig (State.answer s r) := by
  unfold State.answer
  apply kept_mk
  assumption
theorem forLp_kept {s : State} (hk : Kept orig s) {n : Nat} {f : State → State} (kept_f : ∀ y0, Kept orig y0 → Kept orig (f
    y0)) : KeptOut orig (forLp n s f) := by
  unfold forLp
  split
  refine KeptOut.next ?_
  apply kept_f
  assumption
  exact KeptOut.refused
theorem forUnit_kept {s : State} (hk : Kept orig s) {n count : Nat} {f : State → State} (kept_f : ∀ y0, Kept orig y0 → Kept
    orig (f y0)) : KeptOut orig (forUnit n count s f) := by
  unfold forUnit
  split
  refine KeptOut.next ?_
  apply kept_f
  assumption
  exact KeptOut.refused
theorem State.emit_kept {s : State} (hk : Kept orig s) {o : Out} : Kept orig (State.emit s o) := by
  unfold State.emit
  apply kept_mk
  assumption
theorem State.dbDeliver_kept {s : State} (hk : Kept orig s) {n b : Nat} {force : Bool} : Kept orig (State.dbDeliver s n b
    force) := by
  unfold State.dbDeliver
  lift_lets -underBinder
  intro lvl; try clear_value lvl
  intro cur; try clear_value cur
  intro key; try clear_value key
  intro last; try clear_value last
  intro pacedPair; try clear_value pacedPair
  split
  assumption
  split
  assumption
  apply kept_mk
  assumption
theorem State.msix_kept {s : State} (hk : Kept orig s) {f v : Nat} : Kept orig (State.msix s f v) := by
  unfold State.msix
  split
  exact State.countHub_kept (State.emit_kept ‹_›)
  split
  assumption
  apply kept_mk
  assumption
theorem State.dbFollow_kept {s : State} (hk : Kept orig s) {m b : Nat} {was : Bool} : Kept orig (State.dbFollow s m b was) :=
    by
  unfold State.dbFollow
  split
  split
  exact State.msix_kept ‹_›
  assumption
  split
  exact State.dbDeliver_kept ‹_›
  assumption
theorem State.ring_kept {s : State} (hk : Kept orig s) {m b : Nat} : Kept orig (State.ring s m b) := by
  unfold State.ring
  split
  assumption
  split
  exact State.dbFollow_kept (State.setFlag_kept ‹_›)
  assumption
theorem State.onChan_kept {s : State} (hk : Kept orig s) {ch : Nat} {f : Chan → Chan} : Kept orig (State.onChan s ch f) := by
  unfold State.onChan
  apply kept_mk
  assumption
theorem State.chanPut_kept {s : State} (hk : Kept orig s) {ch : Nat} {words : List (BitVec 64)} : Kept orig (State.chanPut s
    ch words) := by
  unfold State.chanPut
  lift_lets -underBinder
  intro c; try clear_value c
  intro q; try clear_value q
  intro snd; try clear_value snd
  intro w0; try clear_value w0
  intro m; try clear_value m
  intro s1; refine via (p := Kept orig s1) ?_ fun hk => ?_; dsimp only [s1]
  exact State.onChan_kept ‹_›
  clear_value s1
  exact State.ring_kept (State.countHub_kept (State.setReg_kept ‹_›))
theorem State.onReq_kept {s : State} (hk : Kept orig s) {m : Nat} {f : Requester → Requester} : Kept orig (State.onReq s m f)
    := by
  unfold State.onReq
  apply kept_mk
  assumption
theorem State.postHeld_kept {s : State} (hk : Kept orig s) {m k2 : Nat} : Kept orig (State.postHeld s m k2) := by
  induction k2 generalizing s m
  case' succ _ ih => unfold State.postHeld
  case' zero => unfold State.postHeld
  assumption
  lift_lets -underBinder
  intro r; try clear_value r
  split
  lift_lets -underBinder
  intro ch; try clear_value ch
  split
  apply ih
  exact State.onReq_kept (State.chanPut_kept ‹_›)
  assumption
  lift_lets -underBinder
  intro ch; try clear_value ch
  split
  assumption
  split
  apply ih
  exact State.onReq_kept (State.chanPut_kept ‹_›)
  split
  assumption
  exact State.onReq_kept (State.chanPut_kept ‹_›)
theorem State.eventTo_kept {s : State} (hk : Kept orig s) {m : Nat} {e : EventRec} : Kept orig (State.eventTo s m e) := by
  unfold State.eventTo
  split
  lift_lets -underBinder
  intro s1; refine via (p := Kept orig s1) ?_ fun hk => ?_; dsimp only [s1]
  exact State.onReq_kept ‹_›
  clear_value s1
  exact State.postHeld_kept ‹_›
  assumption
theorem State.event_kept {s : State} (hk : Kept orig s) {code object value value2 : Nat} {owners : List Nat} : Kept orig
    (State.event s code object value value2 owners) := by
  unfold State.event
  lift_lets -underBinder
  intro e; try clear_value e
  split
  refine List.foldl_kept ?_ ?_
  exact State.eventTo_kept ‹_›
  intro t u a
  exact State.eventTo_kept ‹_›
  assumption
theorem State.cpLost_kept {s : State} (hk : Kept orig s) {i : Nat} : Kept orig (State.cpLost s i) := by
  unfold State.cpLost
  lift_lets -underBinder
  intro s1; refine via (p := Kept orig s1) ?_ fun hk => ?_; dsimp only [s1]
  exact State.onLp_kept ‹_›
  clear_value s1
  intro s2; refine via (p := Kept orig s2) ?_ fun hk => ?_; dsimp only [s2]
  split
  refine List.foldl_kept ?_ ?_
  apply kept_mk
  assumption
  intro t u a
  exact State.eventTo_kept ‹_›
  assumption
  clear_value s2
  assumption
theorem State.errInput_kept {s : State} (hk : Kept orig s) {n input cause addr : Nat} : Kept orig (State.errInput s n input
    cause addr) := by
  unfold State.errInput
  lift_lets -underBinder
  intro key; try clear_value key
  intro last; try clear_value last
  intro u; refine via (p := Kept orig u) ?_ fun hk => ?_; dsimp only [u]
  exact State.onLp_kept ‹_›
  clear_value u
  split
  apply kept_mk
  assumption
  apply kept_mk
  assumption
theorem State.errDeliver_kept {s : State} (hk : Kept orig s) {n input : Nat} : Kept orig (State.errDeliver s n input) := by
  unfold State.errDeliver
  lift_lets -underBinder
  intro key; try clear_value key
  split
  assumption
  lift_lets -underBinder
  intro u; refine via (p := Kept orig u) ?_ fun hk => ?_; dsimp only [u]
  exact State.onLp_kept ‹_›
  clear_value u
  apply kept_mk
  assumption
theorem State.errInt_kept {s : State} (hk : Kept orig s) {n : Nat} : Kept orig (State.errInt s n) :=
  State.errInput_kept hk
theorem State.nmiAt_kept {s : State} (hk : Kept orig s) {n : Nat} : Kept orig (State.nmiAt s n) :=
  State.errInput_kept hk
theorem State.reactInt_kept {s : State} (hk : Kept orig s) {n : Nat} : Kept orig (State.reactInt s n) := by
  unfold State.reactInt
  lift_lets -underBinder
  intro s1; refine via (p := Kept orig s1) ?_ fun hk => ?_; dsimp only [s1]
  exact State.errInt_kept (State.errInt_kept ‹_›)
  clear_value s1
  split
  refine List.foldl_kept ?_ ?_
  assumption
  intro t u a
  split
  exact State.errInt_kept ‹_›
  assumption
  assumption
theorem State.reactNmi_kept {s : State} (hk : Kept orig s) {n : Nat} : Kept orig (State.reactNmi s n) := by
  unfold State.reactNmi
  lift_lets -underBinder
  intro s1; refine via (p := Kept orig s1) ?_ fun hk => ?_; dsimp only [s1]
  exact State.nmiAt_kept (State.nmiAt_kept ‹_›)
  clear_value s1
  split
  refine List.foldl_kept ?_ ?_
  assumption
  intro t u a
  split
  exact State.nmiAt_kept ‹_›
  assumption
  refine List.foldl_kept ?_ ?_
  assumption
  intro t u a
  split
  exact State.nmiAt_kept ‹_›
  assumption
theorem State.assertErrN_kept {s : State} (hk : Kept orig s) {src : Nat} : Kept orig (State.assertErrN s src) := by
  unfold State.assertErrN
  lift_lets -underBinder
  intro c; try clear_value c
  intro s1; refine via (p := Kept orig s1) ?_ fun hk => ?_; dsimp only [s1]
  exact State.setReg_kept ‹_›
  clear_value s1
  apply kept_mk
  assumption
theorem State.askReset_kept {s : State} (hk : Kept orig s) {r : ResetReq} : Kept orig (State.askReset s r) := by
  unfold State.askReset
  split
  assumption
  apply kept_mk
  assumption
theorem State.actReaction_kept {s : State} (hk : Kept orig s) {n r : Nat} {late : Bool} : Kept orig (State.actReaction s n r
    late) := by
  unfold State.actReaction
  split
  exact State.reactInt_kept ‹_›
  exact State.reactNmi_kept ‹_›
  lift_lets -underBinder
  intro s1; refine via (p := Kept orig s1) ?_ fun hk => ?_; dsimp only [s1]
  exact State.reactInt_kept ‹_›
  clear_value s1
  split
  assumption
  split
  exact State.askReset_kept ‹_›
  assumption
  split
  assumption
  exact State.askReset_kept ‹_›
  exact State.assertErrN_kept (State.errInt_kept (State.errInt_kept ‹_›))
  exact State.assertErrN_kept (State.reactInt_kept ‹_›)
  assumption
theorem State.raise_kept {s : State} (hk : Kept orig s) {n : Nat} : Kept orig (State.raise s n) := by
  unfold State.raise
  split
  assumption
  lift_lets -underBinder
  intro off; try clear_value off
  intro v; try clear_value v
  intro g; try clear_value g
  intro cnt; try clear_value cnt
  intro first; try clear_value first
  intro s1; refine via (p := Kept orig s1) ?_ fun hk => ?_; dsimp only [s1]
  split
  exact State.setReg_kept ‹_›
  exact State.setReg_kept ‹_›
  clear_value s1
  intro s2; refine via (p := Kept orig s2) ?_ fun hk => ?_; dsimp only [s2]
  split
  exact State.setReg_kept ‹_›
  exact State.setReg_kept (State.setReg_kept (State.setReg_kept ‹_›))
  clear_value s2
  intro s3; refine via (p := Kept orig s3) ?_ fun hk => ?_; dsimp only [s3]
  exact State.actReaction_kept ‹_›
  clear_value s3
  intro s3; refine via (p := Kept orig s3) ?_ fun hk => ?_; dsimp only [s3]
  apply kept_mk
  assumption
  clear_value s3
  split
  assumption
  split
  split
  assumption
  exact State.event_kept ‹_›
  split
  exact State.setFlag_kept ‹_›
  assumption
theorem State.actHeld_kept {s : State} (hk : Kept orig s) {warm : Bool} : Kept orig (State.actHeld s warm) := by
  unfold State.actHeld
  refine List.foldl_kept ?_ ?_
  apply kept_mk
  assumption
  intro t u a
  lift_lets -underBinder
  intro r; try clear_value r
  intro t1; refine via (p := Kept orig t1) ?_ fun hk => ?_; dsimp only [t1]
  split
  assumption
  exact State.actReaction_kept ‹_›
  clear_value t1
  split
  assumption
  exact State.event_kept ‹_›
theorem State.logCause_kept {s : State} (hk : Kept orig s) {off cause extra : Nat} : Kept orig (State.logCause s off cause
    extra) := by
  unfold State.logCause
  split
  exact State.setFlag_kept ‹_›
  exact State.setReg_kept ‹_›
theorem State.tick_kept {s : State} (hk : Kept orig s) : Kept orig (State.tick s) := by
  unfold State.tick
  lift_lets -underBinder
  intro t; try clear_value t
  intro rate; try clear_value rate
  intro d; try clear_value d
  apply kept_mk
  assumption
theorem State.timeState_kept {s : State} (hk : Kept orig s) {st : Nat} : Kept orig (State.timeState s st) := by
  unfold State.timeState
  split
  assumption
  lift_lets -underBinder
  intro s1; refine via (p := Kept orig s1) ?_ fun hk => ?_; dsimp only [s1]
  exact State.raise_kept (State.setFld_kept ‹_›)
  clear_value s1
  exact State.event_kept ‹_›
theorem State.onDisc_kept {s : State} (hk : Kept orig s) {f : Disc → Disc} : Kept orig (State.onDisc s f) := by
  unfold State.onDisc
  apply kept_mk
  assumption
theorem State.setRate_kept {s : State} (hk : Kept orig s) {r : Int} : Kept orig (State.setRate s r) := by
  unfold State.setRate
  lift_lets -underBinder
  intro c; try clear_value c
  intro s1; refine via (p := Kept orig s1) ?_ fun hk => ?_; dsimp only [s1]
  exact State.setReg_kept ‹_›
  clear_value s1
  split
  exact State.onDisc_kept ‹_›
  assumption
theorem State.enterHoldover_kept {s : State} (hk : Kept orig s) : Kept orig (State.enterHoldover s) := by
  unfold State.enterHoldover
  lift_lets -underBinder
  intro s1; refine via (p := Kept orig s1) ?_ fun hk => ?_; dsimp only [s1]
  exact State.setFlag_kept (State.setReg_kept ‹_›)
  clear_value s1
  intro u; try clear_value u
  apply State.timeState_kept
  apply kept_mk
  assumption
theorem State.sourceLost_kept {s : State} (hk : Kept orig s) : Kept orig (State.sourceLost s) := by
  unfold State.sourceLost
  split
  exact State.enterHoldover_kept ‹_›
  exact State.timeState_kept ‹_›
  assumption
theorem State.adjust_kept {s : State} (hk : Kept orig s) {step : Bool} {amount : Int} : Kept orig (State.adjust s step amount)
    := by
  unfold State.adjust
  split
  lift_lets -underBinder
  intro u; try clear_value u
  intro u; try clear_value u
  intro s1; refine via (p := Kept orig s1) ?_ fun hk => ?_; dsimp only [s1]
  apply kept_mk
  assumption
  clear_value s1
  exact State.raise_kept (State.setFld_kept ‹_›)
  apply State.setFlag_kept
  apply kept_mk
  assumption
theorem State.timeAdjWrite_kept {s : State} (hk : Kept orig s) {v : Nat} : Kept orig (State.timeAdjWrite s v) := by
  unfold State.timeAdjWrite
  lift_lets -underBinder
  intro s1; refine via (p := Kept orig s1) ?_ fun hk => ?_; dsimp only [s1]
  exact State.setReg_kept ‹_›
  clear_value s1
  split
  exact State.adjust_kept ‹_›
  assumption
theorem State.timeCtrlWrite_kept {s : State} (hk : Kept orig s) {keep : Bool} {v : Nat} : Kept orig (State.timeCtrlWrite s
    keep v) := by
  unfold State.timeCtrlWrite
  lift_lets -underBinder
  intro old; try clear_value old
  intro src; try clear_value src
  intro rwl; try clear_value rwl
  intro thr; try clear_value thr
  intro s1; refine via (p := Kept orig s1) ?_ fun hk => ?_; dsimp only [s1]
  exact State.setReg_kept ‹_›
  clear_value s1
  intro s2; refine via (p := Kept orig s2) ?_ fun hk => ?_; dsimp only [s2]
  split
  assumption
  exact State.setFlag_kept ‹_›
  clear_value s2
  split
  assumption
  exact State.sourceLost_kept (State.onDisc_kept ‹_›)
theorem State.ppsCfgWrite_kept {s : State} (hk : Kept orig s) {v : Nat} : Kept orig (State.ppsCfgWrite s v) := by
  unfold State.ppsCfgWrite
  lift_lets -underBinder
  intro w; try clear_value w
  intro width; try clear_value width
  intro s1; refine via (p := Kept orig s1) ?_ fun hk => ?_; dsimp only [s1]
  exact State.setReg_kept ‹_›
  clear_value s1
  split
  exact State.onDisc_kept ‹_›
  assumption
theorem State.freePhase_kept {s : State} (hk : Kept orig s) {n : Nat} : KeptSnd orig (State.freePhase s n) := by
  unfold State.freePhase
  split
  refine KeptSnd.mk' ?_
  refine KeptSnd.of ‹_› ?_
  exact State.fresh_kept ‹_›
theorem State.refChange_kept {s : State} (hk : Kept orig s) {ref : Bool} : Kept orig (State.refChange s ref) := by
  unfold State.refChange
  split
  apply State.raise_kept
  apply State.setFlag_kept
  apply kept_mk
  refine KeptSnd.of ‹_› ?_
  exact State.freePhase_kept ‹_›
theorem execReferenceSwitch_kept {s : State} (hk : Kept orig s) : KeptOut orig (execReferenceSwitch s) := by
  unfold execReferenceSwitch
  refine KeptOut.next ?_
  split
  exact State.refChange_kept ‹_›
  assumption
theorem execReferenceReturn_kept {s : State} (hk : Kept orig s) : KeptOut orig (execReferenceReturn s) := by
  unfold execReferenceReturn
  refine KeptOut.next ?_
  split
  exact State.refChange_kept ‹_›
  assumption
theorem execTimeCopyCorrection_kept {s : State} (hk : Kept orig s) {island : Nat} : KeptOut orig (execTimeCopyCorrection
    island s) := by
  unfold execTimeCopyCorrection
  apply forUnit_kept
  assumption
  intro y0 a
  split
  assumption
  split
  split
  lift_lets -underBinder
  intro now; try clear_value now
  intro off; try clear_value off
  intro u; try clear_value u
  apply kept_mk
  refine KeptSnd.of ‹_› ?_
  exact State.freePhase_kept ‹_›
theorem execPpsInEdge_kept {s : State} (hk : Kept orig s) : KeptOut orig (execPpsInEdge s) := by
  unfold execPpsInEdge
  refine KeptOut.next ?_
  split
  assumption
  split
  split
  lift_lets -underBinder
  intro st; try clear_value st
  intro s2; refine via (p := Kept orig s2) ?_ fun hk => ?_; dsimp only [s2]
  apply State.setReg_kept
  apply State.setReg_kept
  refine KeptSnd.of ‹_› ?_
  exact State.freePhase_kept ‹_›
  clear_value s2
  exact State.onDisc_kept ‹_›
  lift_lets -underBinder
  intro s1; refine via (p := Kept orig s1) ?_ fun hk => ?_; dsimp only [s1]
  exact State.setFld_kept ‹_›
  clear_value s1
  exact State.raise_kept (State.onDisc_kept ‹_›)
theorem execPpsOutPulse_kept {s : State} (hk : Kept orig s) : KeptOut orig (execPpsOutPulse s) := by
  unfold execPpsOutPulse
  refine KeptOut.next ?_
  split
  exact State.emit_kept ‹_›
  assumption
theorem State.correct_kept {s : State} (hk : Kept orig s) {src : Nat} {off : Int} : Kept orig (State.correct s src off) := by
  unfold State.correct
  lift_lets -underBinder
  intro rate; try clear_value rate
  intro phase; try clear_value phase
  intro s1; refine via (p := Kept orig s1) ?_ fun hk => ?_; dsimp only [s1]
  exact State.setRate_kept ‹_›
  clear_value s1
  split
  exact State.adjust_kept (State.setReg_kept ‹_›)
  exact State.adjust_kept (State.setReg_kept ‹_›)
theorem State.sampleState_kept {s : State} (hk : Kept orig s) {src : Nat} {off : Int} : Kept orig (State.sampleState s src
    off) := by
  unfold State.sampleState
  lift_lets -underBinder
  intro thr; try clear_value thr
  split
  split
  lift_lets -underBinder
  intro n; try clear_value n
  intro s1; refine via (p := Kept orig s1) ?_ fun hk => ?_; dsimp only [s1]
  exact State.timeState_kept (State.onDisc_kept ‹_›)
  clear_value s1
  split
  exact State.onDisc_kept ‹_›
  exact State.onDisc_kept ‹_›
  exact State.onDisc_kept ‹_›
  split
  exact State.timeState_kept (State.onDisc_kept ‹_›)
  assumption
  exact State.timeState_kept (State.onDisc_kept ‹_›)
theorem execDisciplineSample_kept {s : State} (hk : Kept orig s) {offset64 : Int} : KeptOut orig (execDisciplineSample
    offset64 s) := by
  unfold execDisciplineSample
  refine KeptOut.next ?_
  split
  assumption
  lift_lets -underBinder
  intro src; try clear_value src
  intro s1; refine via (p := Kept orig s1) ?_ fun hk => ?_; dsimp only [s1]
  exact State.onDisc_kept ‹_›
  clear_value s1
  exact State.correct_kept (State.sampleState_kept ‹_›)
theorem execSourceLossTimeout_kept {s : State} (hk : Kept orig s) : KeptOut orig (execSourceLossTimeout s) := by
  unfold execSourceLossTimeout
  refine KeptOut.next ?_
  split
  exact State.sourceLost_kept ‹_›
  assumption
theorem execSlewComplete_kept {s : State} (hk : Kept orig s) : KeptOut orig (execSlewComplete s) := by
  unfold execSlewComplete
  refine KeptOut.next ?_
  split
  exact State.setFlag_kept ‹_›
  assumption
theorem State.timerDue_kept {s : State} (hk : Kept orig s) {c k : Nat} : Kept orig (State.timerDue s c k) := by
  unfold State.timerDue
  lift_lets -underBinder
  intro ctl; try clear_value ctl
  intro cmp; try clear_value cmp
  intro now; try clear_value now
  intro s1; refine via (p := Kept orig s1) ?_ fun hk => ?_; dsimp only [s1]
  exact State.setFlag_kept (State.onLp_kept ‹_›)
  clear_value s1
  intro period; try clear_value period
  split
  split
  exact State.setReg_kept ‹_›
  exact State.setFlag_kept ‹_›
  assumption
theorem execTimerFire_kept {s : State} (hk : Kept orig s) {c k : Nat} : KeptOut orig (execTimerFire c k s) := by
  unfold execTimerFire
  apply forUnit_kept
  assumption
  intro y0 a
  exact State.timerDue_kept ‹_›
theorem State.clearRsv_kept {s : State} (hk : Kept orig s) {line : Nat} {p : Nat → Bool} : Kept orig (State.clearRsv s line p)
    := by
  unfold State.clearRsv
  apply kept_mk
  assumption
theorem State.countFull_kept {s : State} (hk : Kept orig s) {ns : List Nat} : Kept orig (State.countFull s ns) := by
  unfold State.countFull
  refine List.foldl_kept ?_ ?_
  assumption
  intro t n hk
  exact State.countLp_kept ‹_›
theorem State.snoops_kept {s : State} (hk : Kept orig s) {line : Nat} {cs : List Nat} : Kept orig (State.snoops s line cs) := by
  unfold State.snoops
  refine List.foldl_kept ?_ ?_
  assumption
  intro t c hk
  exact State.countSc_kept (State.countCl_kept ‹_›)
theorem State.l1Invalidate_kept {s : State} (hk : Kept orig s) {c line : Nat} : Kept orig (State.l1Invalidate s c line) := by
  unfold State.l1Invalidate
  lift_lets -underBinder
  intro content; try clear_value content
  intro t; refine via (p := Kept orig t) ?_ fun hk => ?_; dsimp only [t]
  exact State.countFull_kept ‹_›
  clear_value t
  apply kept_mk
  assumption
theorem State.noteL2_kept {s : State} (hk : Kept orig s) {line : Nat} : Kept orig (State.noteL2 s line) := by
  unfold State.noteL2
  split
  assumption
  apply kept_mk
  assumption
theorem State.noteSc_kept {s : State} (hk : Kept orig s) {line : Nat} : Kept orig (State.noteSc s line) := by
  unfold State.noteSc
  split
  assumption
  apply kept_mk
  assumption
theorem State.scFill_kept {s : State} (hk : Kept orig s) {line : Nat} : Kept orig (State.scFill s line) := by
  unfold State.scFill
  split
  assumption
  lift_lets -underBinder
  intro i; try clear_value i
  intro set; try clear_value set
  intro c; try clear_value c
  split
  exact State.countSc_kept (State.countSc_kept (State.onSc_kept ‹_›))
  lift_lets -underBinder
  intro fromBuf; try clear_value fromBuf
  intro w; try clear_value w
  intro old; try clear_value old
  intro evict; try clear_value evict
  intro full; try clear_value full
  intro wb; try clear_value wb
  intro s1; refine via (p := Kept orig s1) ?_ fun hk => ?_; dsimp only [s1]
  split
  apply kept_mk
  assumption
  assumption
  clear_value s1
  intro buf; try clear_value buf
  intro c1; try clear_value c1
  intro c2; try clear_value c2
  intro s2; refine via (p := Kept orig s2) ?_ fun hk => ?_; dsimp only [s2]
  exact State.countSc_kept (State.countSc_kept (State.onSc_kept ‹_›))
  clear_value s2
  split
  exact State.countSc_kept ‹_›
  assumption
theorem State.scDirty_kept {s : State} (hk : Kept orig s) {line : Nat} : Kept orig (State.scDirty s line) := by
  unfold State.scDirty
  lift_lets -underBinder
  intro s1; refine via (p := Kept orig s1) ?_ fun hk => ?_; dsimp only [s1]
  exact State.scFill_kept (State.noteSc_kept ‹_›)
  clear_value s1
  intro i; try clear_value i
  intro set; try clear_value set
  split
  exact State.onSc_kept ‹_›
  assumption
theorem State.l2WriteBack_kept {s : State} (hk : Kept orig s) {line : Nat} : Kept orig (State.l2WriteBack s line) := by
  unfold State.l2WriteBack
  split
  assumption
  lift_lets -underBinder
  intro s1; refine via (p := Kept orig s1) ?_ fun hk => ?_; dsimp only [s1]
  split
  exact State.scDirty_kept ‹_›
  assumption
  clear_value s1
  apply kept_mk
  assumption
theorem State.scWriteBack_kept {s : State} (hk : Kept orig s) {line : Nat} : Kept orig (State.scWriteBack s line) := by
  unfold State.scWriteBack
  apply kept_mk
  assumption
theorem State.l2Clean_kept {s : State} (hk : Kept orig s) {line : Nat} : Kept orig (State.l2Clean s line) := by
  unfold State.l2Clean
  apply kept_mk
  assumption
theorem State.l2Drop_kept {s : State} (hk : Kept orig s) {c line : Nat} : Kept orig (State.l2Drop s c line) := by
  unfold State.l2Drop
  lift_lets -underBinder
  intro set; try clear_value set
  split
  exact State.onL2_kept ‹_›
  lift_lets -underBinder
  intro old; try clear_value old
  exact State.countCl_kept (State.onL2_kept (State.l1Invalidate_kept ‹_›))
theorem State.ownBy_kept {s : State} (hk : Kept orig s) {c line : Nat} : Kept orig (State.ownBy s c line) := by
  unfold State.ownBy
  lift_lets -underBinder
  intro others; try clear_value others
  intro mine; try clear_value mine
  intro inBuf; try clear_value inBuf
  intro s1; refine via (p := Kept orig s1) ?_ fun hk => ?_; dsimp only [s1]
  split
  assumption
  exact State.l2Clean_kept (State.l2WriteBack_kept ‹_›)
  clear_value s1
  refine List.foldl_kept ?_ ?_
  exact State.snoops_kept ‹_›
  intro t u a
  exact State.l2Drop_kept ‹_›
theorem State.filterRoom_kept {s : State} (hk : Kept orig s) {line : Nat} : Kept orig (State.filterRoom s line) := by
  unfold State.filterRoom
  split
  assumption
  lift_lets -underBinder
  intro ls; try clear_value ls
  split
  assumption
  split
  split
  refine KeptSnd.of ‹_› ?_
  exact State.fresh_kept ‹_›
  apply State.clearRsv_kept
  refine List.foldl_kept ?_ ?_
  apply State.l2Clean_kept
  apply State.l2WriteBack_kept
  refine KeptSnd.of ‹_› ?_
  exact State.fresh_kept ‹_›
  intro t u a
  exact State.l2Drop_kept ‹_›
theorem State.l2Alloc_kept {s : State} (hk : Kept orig s) {c line : Nat} : Kept orig (State.l2Alloc s c line) := by
  unfold State.l2Alloc
  lift_lets -underBinder
  intro set; try clear_value set
  intro fromBuf; try clear_value fromBuf
  intro dirtyIn; try clear_value dirtyIn
  intro s0; refine via (p := Kept orig s0) ?_ fun hk => ?_; dsimp only [s0]
  split
  assumption
  exact State.scFill_kept (State.snoops_kept (State.l2Clean_kept (State.l2WriteBack_kept ‹_›)))
  intro u; try clear_value u
  intro w; try clear_value w
  intro old; try clear_value old
  intro s1; refine via (p := Kept orig s1) ?_ fun hk => ?_; dsimp only [s1]
  split
  exact State.clearRsv_kept (State.l1Invalidate_kept ‹_›)
  assumption
  intro evict; try clear_value evict
  intro full; try clear_value full
  intro s2; refine via (p := Kept orig s2) ?_ fun hk => ?_; dsimp only [s2]
  split
  exact State.onL2_kept (State.l2WriteBack_kept ‹_›)
  assumption
  clear_value s2
  intro s3; refine via (p := Kept orig s3) ?_ fun hk => ?_; dsimp only [s3]
  exact State.onL2_kept ‹_›
  clear_value s3
  intro s4; refine via (p := Kept orig s4) ?_ fun hk => ?_; dsimp only [s4]
  exact State.countHub_kept (State.countCl_kept (State.countCl_kept (State.countCl_kept ‹_›)))
  clear_value s4
  split
  exact State.countCl_kept ‹_›
  assumption
theorem State.l2Fill_kept {s : State} (hk : Kept orig s) {c line : Nat} : Kept orig (State.l2Fill s c line) := by
  unfold State.l2Fill
  lift_lets -underBinder
  intro s; refine via (p := Kept orig s) ?_ fun hk => ?_; dsimp only [s]
  exact State.filterRoom_kept ‹_›
  clear_value s
  split
  exact State.countCl_kept (State.countCl_kept (State.countCl_kept (State.onL2_kept ‹_›)))
  exact State.l2Alloc_kept ‹_›
theorem State.doFill_kept {s : State} (hk : Kept orig s) {c : Nat} {f : PendFill} : Kept orig (State.doFill s c f) := by
  unfold State.doFill
  lift_lets -underBinder
  intro s1; refine via (p := Kept orig s1) ?_ fun hk => ?_; dsimp only [s1]
  exact State.l2Fill_kept ‹_›
  clear_value s1
  split
  exact State.onLp_kept ‹_›
  exact State.onLp_kept ‹_›
  assumption
theorem State.fillNext_kept {s : State} (hk : Kept orig s) {c : Nat} : Kept orig (State.fillNext s c) := by
  unfold State.fillNext
  split
  assumption
  exact State.doFill_kept (State.onL2_kept ‹_›)
theorem State.fillAll_kept {s : State} (hk : Kept orig s) {c : Nat} : Kept orig (State.fillAll s c) := by
  unfold State.fillAll
  refine List.foldl_kept ?_ ?_
  exact State.onL2_kept ‹_›
  intro t u a
  exact State.doFill_kept ‹_›
theorem State.askFill_kept {s : State} (hk : Kept orig s) {n line into : Nat} : Kept orig (State.askFill s n line into) := by
  unfold State.askFill
  split
  assumption
  split
  assumption
  exact State.onL2_kept ‹_›
theorem State.lineWrite_kept {s : State} (hk : Kept orig s) {a : Nat} {bs : List Byte} : Kept orig (State.lineWrite s a bs) :=
    by
  unfold State.lineWrite
  lift_lets -underBinder
  intro line; try clear_value line
  intro s1; refine via (p := Kept orig s1) ?_ fun hk => ?_; dsimp only [s1]
  refine List.foldl_kept ?_ ?_
  exact State.snoops_kept (State.l2Clean_kept (State.l2WriteBack_kept ‹_›))
  intro t u a
  exact State.l2Drop_kept ‹_›
  clear_value s1
  intro s2; refine via (p := Kept orig s2) ?_ fun hk => ?_; dsimp only [s2]
  exact State.clearRsv_kept ‹_›
  clear_value s2
  intro i; try clear_value i
  intro held; try clear_value held
  intro s3; refine via (p := Kept orig s3) ?_ fun hk => ?_; dsimp only [s3]
  split
  split
  exact State.noteSc_kept ‹_›
  exact State.scDirty_kept ‹_›
  assumption
  clear_value s3
  intro s4; refine via (p := Kept orig s4) ?_ fun hk => ?_; dsimp only [s4]
  refine kept_mk_mem ?_ memWriteBytes_wf
  assumption
  clear_value s4
  split
  apply kept_mk
  assumption
  assumption
theorem State.agentWrite_kept {s : State} (hk : Kept orig s) {a : Nat} {bs : List Byte} : Kept orig (State.agentWrite s a bs)
    := by
  unfold State.agentWrite
  refine List.foldl_kept ?_ ?_
  split
  assumption
  assumption
  intro t u a
  lift_lets -underBinder
  intro lo; try clear_value lo
  exact State.lineWrite_kept ‹_›
theorem State.spareTaken_kept {s : State} (hk : Kept orig s) {lo w : Nat} : Kept orig (State.spareTaken s lo w) :=
  State.setFld_kept hk
theorem State.spareUsed_kept {s : State} (hk : Kept orig s) {kind source : Nat} : Kept orig (State.spareUsed s kind source) :=
    by
  unfold State.spareUsed
  split
  lift_lets -underBinder
  intro s1; refine via (p := Kept orig s1) ?_ fun hk => ?_; dsimp only [s1]
  exact State.spareTaken_kept ‹_›
  clear_value s1
  exact State.event_kept ‹_›
theorem State.spareGone_kept {s : State} (hk : Kept orig s) {kind source : Nat} : Kept orig (State.spareGone s kind source) :=
  State.event_kept hk
theorem State.condemn_kept {s : State} (hk : Kept orig s) {kind group unit source : Nat} {spare : Bool} : Kept orig
    (State.condemn s kind group unit source spare) := by
  unfold State.condemn
  split
  assumption
  lift_lets -underBinder
  intro ent; try clear_value ent
  intro u; try clear_value u
  intro s1; refine via (p := Kept orig s1) ?_ fun hk => ?_; dsimp only [s1]
  apply kept_mk
  assumption
  clear_value s1
  split
  exact State.spareUsed_kept ‹_›
  exact State.spareGone_kept ‹_›
theorem State.l2Empty_kept {s : State} (hk : Kept orig s) {c line : Nat} : Kept orig (State.l2Empty s c line) := by
  unfold State.l2Empty
  lift_lets -underBinder
  intro set; try clear_value set
  split
  assumption
  exact State.onL2_kept (State.l1Invalidate_kept ‹_›)
theorem State.scEmpty_kept {s : State} (hk : Kept orig s) {line : Nat} : Kept orig (State.scEmpty s line) := by
  unfold State.scEmpty
  lift_lets -underBinder
  intro i; try clear_value i
  intro set; try clear_value set
  intro s1; refine via (p := Kept orig s1) ?_ fun hk => ?_; dsimp only [s1]
  exact State.onSc_kept ‹_›
  clear_value s1
  split
  assumption
  exact State.onSc_kept ‹_›
theorem State.l2Discard_kept {s : State} (hk : Kept orig s) {line : Nat} : Kept orig (State.l2Discard s line) := by
  unfold State.l2Discard
  split
  refine kept_mk_mem ?_ memWriteBytes_wf
  assumption
  assumption
theorem State.allDiscard_kept {s : State} (hk : Kept orig s) {line : Nat} : Kept orig (State.allDiscard s line) := by
  unfold State.allDiscard
  split
  refine kept_mk_mem ?_ memWriteBytes_wf
  assumption
  refine kept_mk_mem ?_ memWriteBytes_wf
  assumption
  assumption
theorem State.l2Dirty_kept {s : State} (hk : Kept orig s) {c line : Nat} : Kept orig (State.l2Dirty s c line) := by
  unfold State.l2Dirty
  split
  exact State.onL2_kept ‹_›
  assumption
theorem State.l1Siblings_kept {s : State} (hk : Kept orig s) {n line : Nat} : Kept orig (State.l1Siblings s n line) := by
  unfold State.l1Siblings
  lift_lets -underBinder
  intro content; try clear_value content
  intro t; refine via (p := Kept orig t) ?_ fun hk => ?_; dsimp only [t]
  exact State.countFull_kept ‹_›
  clear_value t
  apply kept_mk
  assumption
theorem State.l2Own_kept {s : State} (hk : Kept orig s) {c line : Nat} : Kept orig (State.l2Own s c line) :=
  State.l2Dirty_kept (State.noteL2_kept (State.l2Fill_kept (State.ownBy_kept hk)))
theorem State.lineClean_kept {s : State} (hk : Kept orig s) {c line : Nat} : Kept orig (State.lineClean s c line) := by
  unfold State.lineClean
  split
  exact State.l2Clean_kept (State.l2WriteBack_kept ‹_›)
  assumption
theorem State.lineInval_kept {s : State} (hk : Kept orig s) {c line : Nat} : Kept orig (State.lineInval s c line) := by
  unfold State.lineInval
  lift_lets -underBinder
  intro dirty; try clear_value dirty
  intro s1; refine via (p := Kept orig s1) ?_ fun hk => ?_; dsimp only [s1]
  exact State.clearRsv_kept (State.l2Empty_kept ‹_›)
  clear_value s1
  intro s2; refine via (p := Kept orig s2) ?_ fun hk => ?_; dsimp only [s2]
  split
  exact State.l2Discard_kept ‹_›
  assumption
  clear_value s2
  apply kept_mk
  assumption
theorem State.lineCleanInval_kept {s : State} (hk : Kept orig s) {c line : Nat} : Kept orig (State.lineCleanInval s c line) :=
  State.clearRsv_kept (State.l2Empty_kept (State.lineClean_kept hk))
theorem State.lineZero_kept {s : State} (hk : Kept orig s) {c line : Nat} : Kept orig (State.lineZero s c line) := by
  unfold State.lineZero
  lift_lets -underBinder
  intro s1; refine via (p := Kept orig s1) ?_ fun hk => ?_; dsimp only [s1]
  exact State.clearRsv_kept (State.l1Invalidate_kept (State.l2Own_kept ‹_›))
  clear_value s1
  refine kept_mk_mem ?_ memWriteBytes_wf
  assumption
theorem State.lineUnlock_kept {s : State} (hk : Kept orig s) {c line : Nat} : Kept orig (State.lineUnlock s c line) := by
  unfold State.lineUnlock
  split
  exact State.onL2_kept ‹_›
  assumption
theorem State.devClean_kept {s : State} (hk : Kept orig s) {line : Nat} : Kept orig (State.devClean s line) := by
  unfold State.devClean
  lift_lets -underBinder
  intro s1; refine via (p := Kept orig s1) ?_ fun hk => ?_; dsimp only [s1]
  exact State.l2Clean_kept (State.l2WriteBack_kept ‹_›)
  clear_value s1
  intro i; try clear_value i
  intro s2; refine via (p := Kept orig s2) ?_ fun hk => ?_; dsimp only [s2]
  exact State.onSc_kept ‹_›
  clear_value s2
  exact State.scWriteBack_kept ‹_›
theorem State.dropAll_kept {s : State} (hk : Kept orig s) {line : Nat} : Kept orig (State.dropAll s line) := by
  unfold State.dropAll
  lift_lets -underBinder
  intro s1; refine via (p := Kept orig s1) ?_ fun hk => ?_; dsimp only [s1]
  refine List.foldl_kept ?_ ?_
  assumption
  intro t u a
  exact State.l2Empty_kept ‹_›
  clear_value s1
  intro s2; refine via (p := Kept orig s2) ?_ fun hk => ?_; dsimp only [s2]
  apply kept_mk
  assumption
  clear_value s2
  exact State.clearRsv_kept (State.scEmpty_kept ‹_›)
theorem State.devInval_kept {s : State} (hk : Kept orig s) {line : Nat} : Kept orig (State.devInval s line) :=
  State.allDiscard_kept (State.dropAll_kept hk)
theorem State.devCleanInval_kept {s : State} (hk : Kept orig s) {line : Nat} : Kept orig (State.devCleanInval s line) :=
  State.dropAll_kept (State.devClean_kept hk)
theorem State.devZero_kept {s : State} (hk : Kept orig s) {line : Nat} : Kept orig (State.devZero s line) := by
  unfold State.devZero
  lift_lets -underBinder
  intro s1; refine via (p := Kept orig s1) ?_ fun hk => ?_; dsimp only [s1]
  refine List.foldl_kept ?_ ?_
  exact State.l2Discard_kept ‹_›
  intro t u a
  exact State.l2Empty_kept ‹_›
  clear_value s1
  intro s2; refine via (p := Kept orig s2) ?_ fun hk => ?_; dsimp only [s2]
  apply kept_mk
  assumption
  clear_value s2
  intro present; try clear_value present
  intro s3; refine via (p := Kept orig s3) ?_ fun hk => ?_; dsimp only [s3]
  split
  exact State.scDirty_kept ‹_›
  exact State.scWriteBack_kept (State.scEmpty_kept ‹_›)
  clear_value s3
  apply State.clearRsv_kept
  refine kept_mk_mem ?_ memWriteBytes_wf
  assumption
theorem State.devUnlock_kept {s : State} (hk : Kept orig s) {line : Nat} : Kept orig (State.devUnlock s line) := by
  unfold State.devUnlock
  lift_lets -underBinder
  intro i; try clear_value i
  split
  exact State.onSc_kept ‹_›
  assumption
theorem State.placeL2_kept {s : State} (hk : Kept orig s) {c w line : Nat} : KeptOpt orig (State.placeL2 s c w line) := by
  unfold State.placeL2
  lift_lets -underBinder
  intro set; try clear_value set
  split
  exact KeptOpt.none
  split
  lift_lets -underBinder
  intro u; try clear_value u
  intro t; try clear_value t
  intro s1; refine via (p := Kept orig s1) ?_ fun hk => ?_; dsimp only [s1]
  split
  exact State.clearRsv_kept (State.l1Invalidate_kept ‹_›)
  assumption
  clear_value s1
  split
  exact KeptOpt.some ‹_›
  split
  exact KeptOpt.some (State.onL2_kept ‹_›)
  split
  exact KeptOpt.none
  exact KeptOpt.some (State.onL2_kept ‹_›)
  lift_lets -underBinder
  intro t; try clear_value t
  intro fromBuf; try clear_value fromBuf
  intro s0; refine via (p := Kept orig s0) ?_ fun hk => ?_; dsimp only [s0]
  split
  assumption
  exact State.scFill_kept (State.l2Clean_kept (State.l2WriteBack_kept ‹_›))
  clear_value s0
  intro s1; refine via (p := Kept orig s1) ?_ fun hk => ?_; dsimp only [s1]
  split
  exact State.clearRsv_kept (State.l1Invalidate_kept ‹_›)
  assumption
  clear_value s1
  split
  exact KeptOpt.none
  exact KeptOpt.some (State.onL2_kept ‹_›)
theorem State.placeSc_kept {s : State} (hk : Kept orig s) {w line : Nat} : KeptOpt orig (State.placeSc s w line) := by
  unfold State.placeSc
  lift_lets -underBinder
  intro i; try clear_value i
  intro set; try clear_value set
  split
  exact KeptOpt.none
  split
  lift_lets -underBinder
  intro u; try clear_value u
  intro t; try clear_value t
  split
  exact KeptOpt.some ‹_›
  split
  exact KeptOpt.some (State.onSc_kept ‹_›)
  split
  exact KeptOpt.none
  exact KeptOpt.some (State.onSc_kept ‹_›)
  lift_lets -underBinder
  intro t; try clear_value t
  intro fromBuf; try clear_value fromBuf
  split
  exact KeptOpt.none
  exact KeptOpt.some (State.onSc_kept ‹_›)
theorem State.lineOp_kept {s : State} (hk : Kept orig s) {c op : Nat} {device : Bool} {line : Nat} : Kept orig (State.lineOp s
    c op device line) := by
  unfold State.lineOp
  split
  exact State.lineClean_kept ‹_›
  exact State.lineInval_kept ‹_›
  exact State.lineCleanInval_kept ‹_›
  exact State.lineZero_kept ‹_›
  exact State.lineUnlock_kept ‹_›
  exact State.devClean_kept ‹_›
  exact State.devInval_kept ‹_›
  exact State.devCleanInval_kept ‹_›
  exact State.devZero_kept ‹_›
  exact State.devUnlock_kept ‹_›
  assumption
theorem State.rangeLine_kept {s : State} (hk : Kept orig s) {e : RangeEngine} {o : RangeOp} {line : Nat} : KeptFst orig
    (State.rangeLine s e o line) := by
  unfold State.rangeLine
  lift_lets -underBinder
  intro o1; try clear_value o1
  intro s; refine via (p := Kept orig s) ?_ fun hk => ?_; dsimp only [s]
  split
  exact State.countCl_kept ‹_›
  assumption
  clear_value s
  split
  split
  refine KeptFst.mk' ?_
  refine KeptOpt.of ?_ ‹_›
  exact State.placeL2_kept ‹_›
  exact KeptFst.mk' ‹_›
  split
  refine KeptFst.mk' ?_
  refine KeptOpt.of ?_ ‹_›
  exact State.placeSc_kept ‹_›
  exact KeptFst.mk' ‹_›
  exact KeptFst.mk' (State.lineClean_kept ‹_›)
  exact KeptFst.mk' (State.lineInval_kept ‹_›)
  exact KeptFst.mk' (State.lineCleanInval_kept ‹_›)
  exact KeptFst.mk' (State.lineUnlock_kept ‹_›)
  exact KeptFst.mk' (State.lineZero_kept ‹_›)
  exact KeptFst.mk' (State.devClean_kept ‹_›)
  exact KeptFst.mk' (State.devInval_kept ‹_›)
  exact KeptFst.mk' (State.devCleanInval_kept ‹_›)
  exact KeptFst.mk' (State.devUnlock_kept ‹_›)
  exact KeptFst.mk' (State.devZero_kept ‹_›)
  exact KeptFst.mk' ‹_›
theorem State.rangeLines_kept {s : State} (hk : Kept orig s) {e : RangeEngine} {o : RangeOp} {k3 : Nat} : KeptFst orig
    (State.rangeLines s e o k3) := by
  induction k3 generalizing s e o
  case' succ _ ih => unfold State.rangeLines
  case' zero => unfold State.rangeLines
  exact KeptFst.mk' ‹_›
  split
  exact KeptFst.mk' ‹_›
  split
  apply ih
  refine KeptFst.of ‹_› ?_
  exact State.rangeLine_kept ‹_›
theorem State.rmStart_kept {s : State} (hk : Kept orig s) {e : RangeEngine} {op : Nat} {a : RmArgs} : Kept orig (State.rmStart
    s e op a) := by
  unfold State.rmStart
  lift_lets -underBinder
  intro s; refine via (p := Kept orig s) ?_ fun hk => ?_; dsimp only [s]
  exact State.setReg_kept ‹_›
  clear_value s
  intro line; try clear_value line
  intro n; try clear_value n
  intro w; try clear_value w
  intro bad; try clear_value bad
  intro s1; refine via (p := Kept orig s1) ?_ fun hk => ?_; dsimp only [s1]
  split
  exact State.fillAll_kept ‹_›
  refine List.foldl_kept ?_ ?_
  assumption
  intro t u a
  exact State.fillAll_kept ‹_›
  clear_value s1
  split
  exact State.setFlag_kept ‹_›
  split
  exact State.raise_kept (State.setReg_kept ‹_›)
  split
  lift_lets -underBinder
  intro o; try clear_value o
  split
  apply State.setReg_kept
  apply kept_mk
  refine KeptFst.of ‹_› ?_
  apply State.rangeLines_kept
  refine KeptSnd.of ‹_› ?_
  exact State.fresh_kept ‹_›
theorem State.rmFinish_kept {s : State} (hk : Kept orig s) {e : RangeEngine} : Kept orig (State.rmFinish s e) := by
  unfold State.rmFinish
  split
  assumption
  lift_lets -underBinder
  intro n; try clear_value n
  split
  lift_lets -underBinder
  intro code; try clear_value code
  intro s2; refine via (p := Kept orig s2) ?_ fun hk => ?_; dsimp only [s2]
  apply State.setReg_kept
  apply kept_mk
  refine KeptFst.of ‹_› ?_
  exact State.rangeLines_kept ‹_›
  clear_value s2
  intro s3; refine via (p := Kept orig s3) ?_ fun hk => ?_; dsimp only [s3]
  split
  assumption
  exact State.raise_kept ‹_›
  clear_value s3
  split
  exact State.ring_kept ‹_›
  assumption
theorem State.rmAbort_kept {s : State} (hk : Kept orig s) {e : RangeEngine} : Kept orig (State.rmAbort s e) := by
  unfold State.rmAbort
  split
  assumption
  apply State.raise_kept
  apply State.setReg_kept
  apply kept_mk
  assumption
theorem State.lockenWrite_kept {s : State} (hk : Kept orig s) {u : CacheUnit} {v : Nat} : Kept orig (State.lockenWrite s u v)
    := by
  unfold State.lockenWrite
  lift_lets -underBinder
  intro en; try clear_value en
  intro f; try clear_value f
  split
  assumption
  split
  exact State.onL2_kept (State.setReg_kept ‹_›)
  exact State.onSc_kept (State.setReg_kept ‹_›)
theorem State.machineCheck_kept {s : State} (hk : Kept orig s) {n cause addr : Nat} : Kept orig (State.machineCheck s n cause
    addr) := by
  unfold State.machineCheck
  lift_lets -underBinder
  intro s1; refine via (p := Kept orig s1) ?_ fun hk => ?_; dsimp only [s1]
  split
  exact State.logCause_kept ‹_›
  assumption
  clear_value s1
  exact State.errInput_kept ‹_›
theorem State.onCache_kept {s : State} (hk : Kept orig s) {u : CacheUnit} {f : Cache → Cache} : Kept orig (State.onCache s u
    f) := by
  unfold State.onCache
  split
  exact State.onL2_kept ‹_›
  exact State.onSc_kept ‹_›
theorem State.cacheEvent_kept {s : State} (hk : Kept orig s) {u : CacheUnit} {src cause set phys : Nat} : Kept orig
    (State.cacheEvent s u src cause set phys) := by
  unfold State.cacheEvent
  dsimp only
  apply State.raise_kept
  apply State.logCause_kept
  split
  exact State.countCl_kept ‹_›
  exact State.countSc_kept ‹_›
theorem State.retireWay_kept {s : State} (hk : Kept orig s) {u : CacheUnit} {phys : Nat} : Kept orig (State.retireWay s u
    phys) := by
  unfold State.retireWay
  lift_lets -underBinder
  intro u; try clear_value u
  split
  assumption
  split
  split
  assumption
  exact State.onCache_kept ‹_›
  split
  exact State.setFlag_kept (State.onCache_kept ‹_›)
  split
  assumption
  exact State.spareGone_kept (State.cacheEvent_kept (State.onCache_kept ‹_›))
theorem State.setWayCnt_kept {s : State} (hk : Kept orig s) {u : CacheUnit} {phys v : Nat} : Kept orig (State.setWayCnt s u
    phys v) := by
  unfold State.setWayCnt
  lift_lets -underBinder
  intro s1; refine via (p := Kept orig s1) ?_ fun hk => ?_; dsimp only [s1]
  exact State.setFld_kept ‹_›
  clear_value s1
  split
  exact State.retireWay_kept ‹_›
  assumption
theorem State.poisonLine_kept {s : State} (hk : Kept orig s) {line : Nat} : Kept orig (State.poisonLine s line) := by
  unfold State.poisonLine
  apply State.clearRsv_kept
  apply kept_mk
  assumption
theorem State.tagError_kept {s : State} (hk : Kept orig s) {u : CacheUnit} {set phys j : Nat} {trust : Bool} : Kept orig
    (State.tagError s u set phys j trust) := by
  unfold State.tagError
  lift_lets -underBinder
  intro k; try clear_value k
  intro u; try clear_value u
  intro s1; refine via (p := Kept orig s1) ?_ fun hk => ?_; dsimp only [s1]
  split
  split
  exact State.l2Discard_kept (State.onL2_kept (State.clearRsv_kept (State.l1Invalidate_kept ‹_›)))
  exact State.onL2_kept (State.clearRsv_kept (State.l1Invalidate_kept ‹_›))
  split
  exact State.allDiscard_kept (State.onSc_kept ‹_›)
  exact State.onSc_kept ‹_›
  assumption
  clear_value s1
  intro told; try clear_value told
  intro cause; try clear_value cause
  intro s2; refine via (p := Kept orig s2) ?_ fun hk => ?_; dsimp only [s2]
  refine List.foldl_kept ?_ ?_
  assumption
  intro t u a
  refine List.foldl_kept ?_ ?_
  assumption
  intro t u a
  exact State.machineCheck_kept ‹_›
  clear_value s2
  intro s3; refine via (p := Kept orig s3) ?_ fun hk => ?_; dsimp only [s3]
  exact State.setWayCnt_kept ‹_›
  clear_value s3
  exact State.cacheEvent_kept ‹_›
theorem State.eccRead_kept {s : State} (hk : Kept orig s) {u : CacheUnit} {set phys : Nat} {f : EccFind} : Kept orig
    (State.eccRead s u set phys f) := by
  unfold State.eccRead
  split
  assumption
  lift_lets -underBinder
  intro u; try clear_value u
  intro cnt; try clear_value cnt
  split
  assumption
  exact State.cacheEvent_kept (State.setWayCnt_kept ‹_›)
  exact State.cacheEvent_kept (State.setWayCnt_kept ‹_›)
  split
  split
  exact State.cacheEvent_kept (State.poisonLine_kept ‹_›)
  exact State.cacheEvent_kept (State.clearRsv_kept ‹_›)
  assumption
  exact State.tagError_kept ‹_›
theorem State.retireDone_kept {s : State} (hk : Kept orig s) {u : CacheUnit} : Kept orig (State.retireDone s u) := by
  unfold State.retireDone
  split
  assumption
  lift_lets -underBinder
  intro moved; try clear_value moved
  intro s1; refine via (p := Kept orig s1) ?_ fun hk => ?_; dsimp only [s1]
  refine List.foldl_kept ?_ ?_
  assumption
  intro t u a
  split
  exact State.clearRsv_kept (State.lineClean_kept ‹_›)
  exact State.onSc_kept (State.scWriteBack_kept ‹_›)
  clear_value s1
  intro m; try clear_value m
  intro s2; refine via (p := Kept orig s2) ?_ fun hk => ?_; dsimp only [s2]
  exact State.setReg_kept ‹_›
  clear_value s2
  intro next; try clear_value next
  intro s3; refine via (p := Kept orig s3) ?_ fun hk => ?_; dsimp only [s3]
  exact State.cacheEvent_kept (State.setFlag_kept (State.onCache_kept ‹_›))
  clear_value s3
  intro s4; refine via (p := Kept orig s4) ?_ fun hk => ?_; dsimp only [s4]
  exact State.condemn_kept ‹_›
  clear_value s4
  split
  assumption
  exact State.retireWay_kept ‹_›
theorem State.decayCounters_kept {s : State} (hk : Kept orig s) {u : CacheUnit} : Kept orig (State.decayCounters s u) := by
  unfold State.decayCounters
  refine List.foldl_kept ?_ ?_
  assumption
  intro t u a
  lift_lets -underBinder
  intro v; try clear_value v
  exact State.setFld_kept ‹_›
theorem State.evictNext_kept {s : State} (hk : Kept orig s) {u : CacheUnit} : Kept orig (State.evictNext s u) := by
  unfold State.evictNext
  split
  assumption
  split
  exact State.onL2_kept (State.l2WriteBack_kept ‹_›)
  exact State.onSc_kept (State.scWriteBack_kept ‹_›)
theorem State.durWrite_kept {s : State} (hk : Kept orig s) {i v : Nat} : Kept orig (State.durWrite s i v) := by
  unfold State.durWrite
  lift_lets -underBinder
  intro size; try clear_value size
  intro others; try clear_value others
  intro ok; try clear_value ok
  exact State.setReg_kept ‹_›
theorem State.writeBackAll_kept {s : State} (hk : Kept orig s) {p : Nat → Bool} : Kept orig (State.writeBackAll s p) := by
  unfold State.writeBackAll
  lift_lets -underBinder
  intro lines; try clear_value lines
  refine List.foldl_kept ?_ ?_
  assumption
  intro t u a
  exact State.devClean_kept ‹_›
theorem execCacheFill_kept {s : State} (hk : Kept orig s) {c : Nat} : KeptOut orig (execCacheFill c s) := by
  unfold execCacheFill
  apply forUnit_kept
  assumption
  intro y0 a
  exact State.fillNext_kept ‹_›
theorem forCache_kept {s : State} (hk : Kept orig s) {u : CacheUnit} {f : State → State} (kept_f : ∀ y0, Kept orig y0 → Kept
    orig (f y0)) : KeptOut orig (forCache u s f) := by
  unfold forCache
  split
  refine KeptOut.next ?_
  apply kept_f
  assumption
  exact KeptOut.refused
theorem execEvictionDone_kept {s : State} (hk : Kept orig s) {u : CacheUnit} : KeptOut orig (execEvictionDone u s) := by
  unfold execEvictionDone
  apply forCache_kept
  assumption
  intro y0 a
  exact State.evictNext_kept ‹_›
theorem execScrub_kept {s : State} (hk : Kept orig s) {u : CacheUnit} {set way : Nat} {f : EccFind} : KeptOut orig (execScrub
    u set way f s) := by
  unfold execScrub
  apply forCache_kept
  assumption
  intro y0 a
  exact State.eccRead_kept ‹_›
theorem execEccCounterDecay_kept {s : State} (hk : Kept orig s) {u : CacheUnit} : KeptOut orig (execEccCounterDecay u s) := by
  unfold execEccCounterDecay
  apply forCache_kept
  assumption
  intro y0 a
  exact State.decayCounters_kept ‹_›
theorem execWayRetirement_kept {s : State} (hk : Kept orig s) {u : CacheUnit} : KeptOut orig (execWayRetirement u s) := by
  unfold execWayRetirement
  apply forCache_kept
  assumption
  intro y0 a
  exact State.retireDone_kept ‹_›
theorem execRmDone_kept {s : State} (hk : Kept orig s) {e : RangeEngine} : KeptOut orig (execRmDone e s) := by
  unfold execRmDone
  split
  exact KeptOut.next (State.rmFinish_kept ‹_›)
  exact KeptOut.refused
theorem State.postCode_kept {s : State} (hk : Kept orig s) {ch code : Nat} : Kept orig (State.postCode s ch code) :=
  State.setReg_kept hk
theorem State.mbxTx_kept {s : State} (hk : Kept orig s) {ch i v : Nat} : Kept orig (State.mbxTx s ch i v) :=
  State.onChan_kept hk
theorem State.mbxPost_kept {s : State} (hk : Kept orig s) {ch : Nat} {block : Bool} : Kept orig (State.mbxPost s ch block) :=
    by
  unfold State.mbxPost
  lift_lets -underBinder
  intro c; try clear_value c
  intro ws; try clear_value ws
  intro s1; refine via (p := Kept orig s1) ?_ fun hk => ?_; dsimp only [s1]
  exact State.onChan_kept ‹_›
  clear_value s1
  split
  exact State.postCode_kept ‹_›
  split
  exact State.postCode_kept ‹_›
  split
  exact State.postCode_kept ‹_›
  split
  exact State.chanPut_kept ‹_›
  split
  exact State.countHub_kept (State.onChan_kept ‹_›)
  exact State.countHub_kept (State.postCode_kept ‹_›)
theorem State.mbxAbandon_kept {s : State} (hk : Kept orig s) {ch code : Nat} : Kept orig (State.mbxAbandon s ch code) := by
  unfold State.mbxAbandon
  split
  exact State.countHub_kept (State.postCode_kept (State.onChan_kept ‹_›))
  assumption
theorem State.mbxRingSet_kept {s : State} (hk : Kept orig s) {ch v : Nat} : Kept orig (State.mbxRingSet s ch v) := by
  unfold State.mbxRingSet
  split
  exact State.ring_kept ‹_›
  assumption
theorem State.mbxErrLog_kept {s : State} (hk : Kept orig s) {ch cause master : Nat} : Kept orig (State.mbxErrLog s ch cause
    master) :=
  State.logCause_kept hk
theorem State.mbxPopWith_kept {s : State} (hk : Kept orig s) {master ch v : Nat} : Kept orig (State.mbxPopWith s master ch v)
    := by
  unfold State.mbxPopWith
  split
  exact State.mbxErrLog_kept ‹_›
  split
  lift_lets -underBinder
  intro s1; refine via (p := Kept orig s1) ?_ fun hk => ?_; dsimp only [s1]
  exact State.onChan_kept ‹_›
  clear_value s1
  split
  exact State.chanPut_kept (State.onChan_kept ‹_›)
  assumption
  exact State.mbxErrLog_kept ‹_›
theorem State.mbxBindWrite_kept {s : State} (hk : Kept orig s) {ch v : Nat} : Kept orig (State.mbxBindWrite s ch v) := by
  unfold State.mbxBindWrite
  lift_lets -underBinder
  intro off; try clear_value off
  intro old; try clear_value old
  intro keep; try clear_value keep
  intro rcv; try clear_value rcv
  intro snd; try clear_value snd
  intro s1; refine via (p := Kept orig s1) ?_ fun hk => ?_; dsimp only [s1]
  exact State.setReg_kept ‹_›
  clear_value s1
  split
  assumption
  split
  exact State.setFlag_kept ‹_›
  split
  exact State.mbxAbandon_kept ‹_›
  assumption
theorem State.dbFollowAll_kept {s : State} (hk : Kept orig s) {m : Nat} {was : Nat → Bool} : Kept orig (State.dbFollowAll s m
    was) := by
  unfold State.dbFollowAll
  refine List.foldl_kept ?_ ?_
  assumption
  intro t u a
  exact State.dbFollow_kept ‹_›
theorem State.dbClear_kept {s : State} (hk : Kept orig s) {m v : Nat} : Kept orig (State.dbClear s m v) := by
  unfold State.dbClear
  split
  assumption
  lift_lets -underBinder
  intro s1; refine via (p := Kept orig s1) ?_ fun hk => ?_; dsimp only [s1]
  refine List.foldl_kept ?_ ?_
  assumption
  intro t u a
  split
  exact State.setFlag_kept ‹_›
  assumption
  clear_value s1
  exact State.dbFollowAll_kept ‹_›
theorem State.dbMaskSet_kept {s : State} (hk : Kept orig s) {m v : Nat} : Kept orig (State.dbMaskSet s m v) := by
  unfold State.dbMaskSet
  split
  assumption
  lift_lets -underBinder
  intro s1; refine via (p := Kept orig s1) ?_ fun hk => ?_; dsimp only [s1]
  exact State.setReg_kept ‹_›
  clear_value s1
  intro s2; refine via (p := Kept orig s2) ?_ fun hk => ?_; dsimp only [s2]
  refine List.foldl_kept ?_ ?_
  assumption
  intro t u a
  split
  exact State.setFlag_kept ‹_›
  assumption
  clear_value s2
  exact State.dbFollowAll_kept ‹_›
theorem State.bumpEpoch_kept {s : State} (hk : Kept orig s) {m : Nat} : Kept orig (State.bumpEpoch s m) := by
  unfold State.bumpEpoch
  apply kept_mk
  assumption
theorem State.senderReset_kept {s : State} (hk : Kept orig s) {m : Nat} : Kept orig (State.senderReset s m) := by
  unfold State.senderReset
  apply State.bumpEpoch_kept
  apply kept_mk
  assumption
theorem State.receiverReset_kept {s : State} (hk : Kept orig s) {m : Nat} : Kept orig (State.receiverReset s m) := by
  unfold State.receiverReset
  split
  assumption
  exact State.dbFollowAll_kept (State.setReg_kept (State.setReg_kept ‹_›))
theorem execPostTimeout_kept {s : State} (hk : Kept orig s) {ch : Nat} : KeptOut orig (execPostTimeout ch s) := by
  unfold execPostTimeout
  apply forUnit_kept
  assumption
  intro y0 a
  exact State.mbxAbandon_kept ‹_›
theorem execDoorbellPacedDelivery_kept {s : State} (hk : Kept orig s) {r : Receiver} {bit : Nat} : KeptOut orig
    (execDoorbellPacedDelivery r bit s) := by
  unfold execDoorbellPacedDelivery
  split
  exact KeptOut.refused
  split
  exact KeptOut.refused
  split
  refine KeptOut.next ?_
  split
  exact State.dbDeliver_kept ‹_›
  assumption
  exact KeptOut.next ‹_›
theorem Ans.ok_kept {s : State} (hk : Kept orig s) {res : List Byte} : KeptAns orig (Ans.ok s res) :=
  KeptAns.mk' hk
theorem Ans.no_kept {s : State} (hk : Kept orig s) {c : Code} {detail : Nat} : KeptAns orig (Ans.no s c detail) :=
  KeptAns.mk' hk
theorem Ans.un_kept {s : State} (hk : Kept orig s) {c : Code} : KeptAns orig (Ans.un s c) :=
  KeptAns.mk' hk
theorem Ans.wait_kept {s : State} (hk : Kept orig s) : KeptAns orig (Ans.wait s) :=
  KeptAns.mk' hk
theorem State.bindChannels_kept {s : State} (hk : Kept orig s) : Kept orig (State.bindChannels s) := by
  unfold State.bindChannels
  refine List.foldl_kept ?_ ?_
  assumption
  intro t u a
  lift_lets -underBinder
  intro b; try clear_value b
  exact State.setReg_kept (State.setReg_kept (State.setReg_kept (State.setReg_kept ‹_›)))
theorem State.detailOf_kept {s : State} (hk : Kept orig s) {k1 : Option Nat} : KeptSnd orig (State.detailOf s k1) := by
  unfold State.detailOf
  split
  exact KeptSnd.mk' ‹_›
  exact KeptSnd.mk' (KeptSnd.snd (State.fresh_kept ‹_›))
theorem State.complete_kept {s0 : State} (hk : Kept orig s0) {m cp tag opcode : Nat} {c : Code} {detail : Option Nat} {applied
    : Bool} {res : List Byte} : Kept orig (State.complete s0 m cp tag opcode c detail applied res) := by
  unfold State.complete
  split
  lift_lets -underBinder
  intro p; try clear_value p
  apply State.postHeld_kept
  apply State.onReq_kept
  refine KeptSnd.of ‹_› ?_
  exact State.detailOf_kept ‹_›
theorem State.takeCmd_kept {s : State} (hk : Kept orig s) {m cp : Nat} : Kept orig (State.takeCmd s m cp) := by
  unfold State.takeCmd
  lift_lets -underBinder
  intro ch; try clear_value ch
  split
  assumption
  exact State.dbClear_kept (State.mbxPopWith_kept ‹_›)
theorem yafRun_kept {s : State} (hk : Kept orig s) {h : CmdHdr} {opcode : Nat} {args : List Nat} {b : By} {f : State → Ans}
    (kept_f : ∀ y0, Kept orig y0 → KeptAns orig (f y0)) : KeptOut orig (yafRun h opcode args b s f) := by
  unfold yafRun
  split
  exact KeptOut.refused
  refine KeptOut.next ?_
  split
  assumption
  lift_lets -underBinder
  intro s1; refine via (p := Kept orig s1) ?_ fun hk => ?_; dsimp only [s1]
  exact State.takeCmd_kept ‹_›
  clear_value s1
  split
  exact State.complete_kept ‹_›
  lift_lets -underBinder
  intro a; refine via (p := KeptAns orig a) ?_ fun hk => ?_; dsimp only [a]
  apply kept_f
  assumption
  clear_value a
  split
  exact KeptAns.st ‹_›
  exact State.complete_kept (KeptAns.st ‹_›)
theorem State.tripAbort_kept {s : State} (hk : Kept orig s) : Kept orig (State.tripAbort s) := by
  unfold State.tripAbort
  split
  assumption
  lift_lets -underBinder
  intro u; try clear_value u
  intro s1; refine via (p := Kept orig s1) ?_ fun hk => ?_; dsimp only [s1]
  apply kept_mk
  assumption
  clear_value s1
  split
  exact State.complete_kept ‹_›
  assumption
theorem State.engStopped_kept {s : State} (hk : Kept orig s) {pool e : Nat} : Kept orig (State.engStopped s pool e) := by
  unfold State.engStopped
  lift_lets -underBinder
  intro mine; try clear_value mine
  intro u; try clear_value u
  intro s1; refine via (p := Kept orig s1) ?_ fun hk => ?_; dsimp only [s1]
  apply kept_mk
  assumption
  clear_value s1
  refine List.foldl_kept ?_ ?_
  assumption
  intro t u a
  exact State.complete_kept ‹_›
theorem State.yafAbort_kept {s : State} (hk : Kept orig s) : Kept orig (State.yafAbort s) := by
  unfold State.yafAbort
  lift_lets -underBinder
  intro u; try clear_value u
  intro s1; refine via (p := Kept orig s1) ?_ fun hk => ?_; dsimp only [s1]
  apply kept_mk
  assumption
  clear_value s1
  apply State.tripAbort_kept
  refine List.foldl_kept ?_ ?_
  assumption
  intro t u a
  split
  exact State.complete_kept ‹_›
  assumption
theorem execCompletionPostRetry_kept {s : State} (hk : Kept orig s) {master cp : Nat} : KeptOut orig (execCompletionPostRetry
    master cp s) := by
  unfold execCompletionPostRetry
  split
  refine KeptOut.next ?_
  split
  exact State.postHeld_kept ‹_›
  assumption
  exact KeptOut.refused
theorem State.errSrcW1c_kept {s : State} (hk : Kept orig s) {n : Nat} : Kept orig (State.errSrcW1c s n) := by
  unfold State.errSrcW1c
  lift_lets -underBinder
  intro off; try clear_value off
  split
  exact State.setReg_kept ‹_›
  assumption
theorem State.errStatusW1c_kept {s : State} (hk : Kept orig s) {g v : Nat} : Kept orig (State.errStatusW1c s g v) := by
  unfold State.errStatusW1c
  refine List.foldl_kept ?_ ?_
  assumption
  intro t u a
  split
  exact State.errSrcW1c_kept ‹_›
  assumption
theorem State.errFirstW1c_kept {s : State} (hk : Kept orig s) {g : Nat} : Kept orig (State.errFirstW1c s g) := by
  unfold State.errFirstW1c
  split
  exact State.setReg_kept (State.setReg_kept (State.setReg_kept ‹_›))
  assumption
theorem State.errReactSet_kept {s : State} (hk : Kept orig s) {g : Nat} {hi : Bool} {v : Nat} : Kept orig (State.errReactSet s
    g hi v) := by
  unfold State.errReactSet
  split
  assumption
  lift_lets -underBinder
  intro off; try clear_value off
  exact State.setReg_kept ‹_›
theorem State.errNRelease_kept {s : State} (hk : Kept orig s) : Kept orig (State.errNRelease s) := by
  unfold State.errNRelease
  lift_lets -underBinder
  intro u; refine via (p := Kept orig u) ?_ fun hk => ?_; dsimp only [u]
  exact State.setFlag_kept ‹_›
  clear_value u
  apply kept_mk
  assumption
theorem State.errPinArm_kept {s : State} (hk : Kept orig s) : Kept orig (State.errPinArm s) := by
  unfold State.errPinArm
  split
  assumption
  split
  exact State.errNRelease_kept ‹_›
  apply kept_mk
  assumption
theorem State.errPinWrite_kept {s : State} (hk : Kept orig s) {v : Nat} : Kept orig (State.errPinWrite s v) := by
  unfold State.errPinWrite
  lift_lets -underBinder
  intro s1; refine via (p := Kept orig s1) ?_ fun hk => ?_; dsimp only [s1]
  split
  exact State.errPinArm_kept ‹_›
  assumption
  clear_value s1
  split
  exact State.assertErrN_kept ‹_›
  assumption
theorem State.thermRead_kept {s : State} (hk : Kept orig s) {i : Nat} {r : Int} : Kept orig (State.thermRead s i r) := by
  unfold State.thermRead
  lift_lets -underBinder
  intro off; try clear_value off
  intro seen; try clear_value seen
  intro mx; try clear_value mx
  intro u; refine via (p := Kept orig u) ?_ fun hk => ?_; dsimp only [u]
  exact State.setReg_kept ‹_›
  clear_value u
  apply kept_mk
  assumption
theorem State.thermReads_kept {s : State} (hk : Kept orig s) {k1 : Nat} {k2 : List Int} : Kept orig (State.thermReads s k1 k2)
    := by
  induction k2 generalizing s k1
  case' cons _ _ ih => unfold State.thermReads
  case' nil => unfold State.thermReads
  assumption
  apply ih
  split
  exact State.thermRead_kept ‹_›
  assumption
theorem State.thermWarn_kept {s : State} (hk : Kept orig s) {rs : List Int} : Kept orig (State.thermWarn s rs) := by
  unfold State.thermWarn
  split
  split
  exact State.setFlag_kept ‹_›
  assumption
  split
  exact State.raise_kept (State.setFlag_kept ‹_›)
  assumption
theorem execSourceRaise_kept {s : State} (hk : Kept orig s) {n : Nat} : KeptOut orig (execSourceRaise n s) := by
  unfold execSourceRaise
  apply forUnit_kept
  assumption
  intro y0 a
  exact State.raise_kept ‹_›
theorem execErrNRelease_kept {s : State} (hk : Kept orig s) : KeptOut orig (execErrNRelease s) := by
  unfold execErrNRelease
  refine KeptOut.next ?_
  split
  exact State.errNRelease_kept ‹_›
  assumption
theorem execRailOutOfWindow_kept {s : State} (hk : Kept orig s) {rail : Nat} : KeptOut orig (execRailOutOfWindow rail s) := by
  unfold execRailOutOfWindow
  apply forUnit_kept
  assumption
  intro y0 a
  exact State.raise_kept ‹_›
theorem execRefclkFault_kept {s : State} (hk : Kept orig s) {clock : Nat} : KeptOut orig (execRefclkFault clock s) := by
  unfold execRefclkFault
  apply forUnit_kept
  assumption
  intro y0 a
  exact State.raise_kept ‹_›
theorem execD2dLinkFault_kept {s : State} (hk : Kept orig s) {d : Nat} : KeptOut orig (execD2dLinkFault d s) := by
  unfold execD2dLinkFault
  apply forUnit_kept
  assumption
  intro y0 a
  exact State.raise_kept ‹_›
theorem execFabricBufferError_kept {s : State} (hk : Kept orig s) : KeptOut orig (execFabricBufferError s) :=
  KeptOut.next (State.raise_kept hk)
theorem execErrorInputPacedDelivery_kept {s : State} (hk : Kept orig s) {lp input : Nat} : KeptOut orig
    (execErrorInputPacedDelivery lp input s) := by
  unfold execErrorInputPacedDelivery
  split
  apply forLp_kept
  assumption
  intro y0 a
  exact State.errDeliver_kept ‹_›
  exact KeptOut.refused

end Sys2Proof.Machine
end

