-- ==== Sys2Proof/Laws/KeptPorts.lean ====
section
/-! SUPPORT. `Kept` of the operations of the journal, the queues, and the ports. -/

namespace Sys2Proof.Machine

variable {orig : State}

theorem State.onNvj_kept {s : State} (hk : Kept orig s) {f : Nvj → Nvj} : Kept orig (State.onNvj s f) := by
  unfold State.onNvj
  lift_lets -underBinder
  intro n; try clear_value n
  intro lim; try clear_value lim
  intro s1; refine via (p := Kept orig s1) ?_ fun hk => ?_; dsimp only [s1]
  apply State.setFld_kept
  apply kept_mk
  assumption
  clear_value s1
  split
  exact State.raise_kept ‹_›
  assumption
theorem State.nvjEnd_kept {s : State} (hk : Kept orig s) {p : JRec → Bool} : Kept orig (State.nvjEnd s p) :=
  State.onNvj_kept hk
theorem State.nvjEndTxn_kept {s : State} (hk : Kept orig s) {q count : Nat} : Kept orig (State.nvjEndTxn s q count) :=
  State.nvjEnd_kept hk
theorem State.nvjHead_kept {s : State} (hk : Kept orig s) {h : Nat} : Kept orig (State.nvjHead s h) := by
  unfold State.nvjHead
  lift_lets -underBinder
  intro w; try clear_value w
  intro u; try clear_value u
  intro s1; refine via (p := Kept orig s1) ?_ fun hk => ?_; dsimp only [s1]
  apply State.setReg_kept
  apply kept_mk
  assumption
  clear_value s1
  intro warn; try clear_value warn
  intro u; try clear_value u
  split
  apply State.raise_kept
  apply kept_mk
  assumption
  assumption
theorem State.nvjCarry_kept {s : State} (hk : Kept orig s) {k1 : Nat} : Kept orig (State.nvjCarry s k1) := by
  induction k1 generalizing s
  case' succ _ ih => unfold State.nvjCarry
  case' zero => unfold State.nvjCarry
  assumption
  lift_lets -underBinder
  intro n; try clear_value n
  intro old; try clear_value old
  intro moved; try clear_value moved
  split
  assumption
  split
  assumption
  apply ih
  apply State.countHub_kept
  apply State.nvjHead_kept
  apply kept_mk
  assumption
theorem State.nvjTake_kept {s : State} (hk : Kept orig s) : Kept orig (State.nvjTake s) :=
  State.nvjCarry_kept (State.nvjHead_kept hk)
theorem State.nvjSpare_kept {s : State} (hk : Kept orig s) {bankB : Bool} : Kept orig (State.nvjSpare s bankB) := by
  unfold State.nvjSpare
  lift_lets -underBinder
  intro n; try clear_value n
  split
  split
  apply State.raise_kept
  apply State.spareUsed_kept
  apply kept_mk
  assumption
  apply State.raise_kept
  apply State.spareGone_kept
  apply kept_mk
  assumption
  split
  apply State.raise_kept
  apply State.spareUsed_kept
  apply kept_mk
  assumption
  apply State.raise_kept
  apply State.spareGone_kept
  apply kept_mk
  assumption
theorem State.nvjTry_kept {s : State} (hk : Kept orig s) {again : Bool} {nv : Verifies} {k3 : Nat} : KeptFst orig
    (State.nvjTry s again nv k3) := by
  induction k3 generalizing s again nv
  case' succ _ ih => unfold State.nvjTry
  case' zero => unfold State.nvjTry
  exact KeptFst.mk' ‹_›
  lift_lets -underBinder
  intro n; try clear_value n
  intro v; try clear_value v
  intro fa; try clear_value fa
  intro fb; try clear_value fb
  intro s1; refine via (p := Kept orig s1) ?_ fun hk => ?_; dsimp only [s1]
  exact State.nvjTake_kept ‹_›
  clear_value s1
  split
  exact KeptFst.mk' ‹_›
  split
  exact KeptFst.mk' ‹_›
  split
  split
  exact KeptFst.mk' ‹_›
  apply ih
  assumption
  apply ih
  exact State.nvjSpare_kept ‹_›
theorem State.nvjWrite_kept {s : State} (hk : Kept orig s) {q : Nat} {b : JBody} {nv : Verifies} : KeptFst orig
    (State.nvjWrite s q b nv) := by
  unfold State.nvjWrite
  split
  refine KeptFst.mk' ?_
  refine KeptFst.of ‹_› ?_
  exact State.nvjTry_kept ‹_›
  refine KeptFst.mk' ?_
  apply State.onNvj_kept
  apply State.countHub_kept
  refine KeptFst.of ‹_› ?_
  exact State.nvjTry_kept ‹_›
theorem State.nvjWriteAll_kept {s : State} (hk : Kept orig s) {q : Nat} {nv : Verifies} {k3 : List JBody} : KeptFst orig
    (State.nvjWriteAll s q nv k3) := by
  induction k3 generalizing s q nv
  case' cons _ _ ih => unfold State.nvjWriteAll
  case' nil => unfold State.nvjWriteAll
  exact KeptFst.mk' ‹_›
  split
  apply ih
  refine KeptFst.of ‹_› ?_
  exact State.nvjWrite_kept ‹_›
  exact State.nvjWrite_kept ‹_›
theorem State.nvjEpoch_kept {s : State} (hk : Kept orig s) {kind : Nat} : Kept orig (State.nvjEpoch s kind) :=
  KeptFst.fst (State.nvjWrite_kept hk)
theorem State.nvjScrubBank_kept {s : State} (hk : Kept orig s) {f other : NvjFind} : Kept orig (State.nvjScrubBank s f other)
    := by
  unfold State.nvjScrubBank
  split
  assumption
  exact State.raise_kept ‹_›
  assumption
  exact State.raise_kept ‹_›
theorem execNvjScrub_kept {s : State} (hk : Kept orig s) {row : Nat} {a b : NvjFind} : KeptOut orig (execNvjScrub row a b s)
    := by
  unfold execNvjScrub
  apply forUnit_kept
  assumption
  intro y0 a
  lift_lets -underBinder
  intro n; try clear_value n
  intro fa; try clear_value fa
  intro fb; try clear_value fb
  intro s1; refine via (p := Kept orig s1) ?_ fun hk => ?_; dsimp only [s1]
  split
  assumption
  exact State.nvjScrubBank_kept ‹_›
  clear_value s1
  intro s2; refine via (p := Kept orig s2) ?_ fun hk => ?_; dsimp only [s2]
  split
  assumption
  exact State.nvjScrubBank_kept ‹_›
  clear_value s2
  intro s3; refine via (p := Kept orig s3) ?_ fun hk => ?_; dsimp only [s3]
  apply kept_mk
  assumption
  clear_value s3
  split
  split
  exact State.raise_kept ‹_›
  assumption
  assumption
theorem State.onTq_kept {s : State} (hk : Kept orig s) {q : Nat} {f : TQueue → TQueue} : Kept orig (State.onTq s q f) := by
  unfold State.onTq
  apply kept_mk
  assumption
theorem State.twErr_kept {s : State} (hk : Kept orig s) {q cause : Nat} : Kept orig (State.twErr s q cause) := by
  unfold State.twErr
  lift_lets -underBinder
  intro s1; refine via (p := Kept orig s1) ?_ fun hk => ?_; dsimp only [s1]
  exact State.logCause_kept ‹_›
  clear_value s1
  split
  exact State.raise_kept ‹_›
  assumption
theorem State.dmaWrite_kept {s : State} (hk : Kept orig s) {a : Nat} {bs : List Byte} : KeptOpt orig (State.dmaWrite s a bs)
    := by
  unfold State.dmaWrite
  split
  exact KeptOpt.some (State.agentWrite_kept ‹_›)
  exact KeptOpt.none
theorem State.onFlow_kept {s : State} (hk : Kept orig s) {q i : Nat} {f : Flow → Flow} : Kept orig (State.onFlow s q i f) :=
    by
  unfold State.onFlow
  split
  exact State.onTq_kept ‹_›
  assumption
theorem State.flowOpen_kept {s : State} (hk : Kept orig s) {q target : Nat} : KeptOptFst orig (State.flowOpen s q target) :=
    by
  unfold State.flowOpen
  split
  exact KeptOptFst.some (KeptFst.mk' ‹_›)
  split
  exact KeptOptFst.some (KeptFst.mk' (State.onTq_kept ‹_›))
  exact KeptOptFst.none
theorem State.flowsClose_kept {s : State} (hk : Kept orig s) {q : Nat} : Kept orig (State.flowsClose s q) := by
  unfold State.flowsClose
  split
  assumption
  exact State.onTq_kept ‹_›
theorem State.twNotify_kept {s : State} (hk : Kept orig s) {owner target bit : Nat} : Kept orig (State.twNotify s owner target
    bit) := by
  unfold State.twNotify
  split
  split
  exact State.ring_kept ‹_›
  split
  exact State.msix_kept ‹_›
  exact State.raise_kept (State.logCause_kept ‹_›)
  exact State.ring_kept ‹_›
theorem State.tqRetireUp_kept {s : State} (hk : Kept orig s) {q k2 : Nat} : Kept orig (State.tqRetireUp s q k2) := by
  induction k2 generalizing s q
  case' succ _ ih => unfold State.tqRetireUp
  case' zero => unfold State.tqRetireUp
  assumption
  lift_lets -underBinder
  intro r; try clear_value r
  split
  apply ih
  exact State.onTq_kept (State.setReg_kept ‹_›)
  assumption
theorem State.tqWriteOne_kept {s : State} (hk : Kept orig s) {q : Nat} : KeptOpt orig (State.tqWriteOne s q) := by
  unfold State.tqWriteOne
  split
  exact KeptOpt.none
  lift_lets -underBinder
  intro n; try clear_value n
  intro tail; try clear_value tail
  intro a; try clear_value a
  intro s1; refine via (p := Kept orig s1) ?_ fun hk => ?_; dsimp only [s1]
  split
  apply State.devClean_kept
  refine KeptOpt.of ?_ ‹_›
  exact State.dmaWrite_kept ‹_›
  assumption
  clear_value s1
  intro ret; try clear_value ret
  intro posted; try clear_value posted
  intro s2; refine via (p := Kept orig s2) ?_ fun hk => ?_; dsimp only [s2]
  exact State.onTq_kept (State.setReg_kept ‹_›)
  clear_value s2
  intro s3; refine via (p := Kept orig s3) ?_ fun hk => ?_; dsimp only [s3]
  exact State.tqRetireUp_kept ‹_›
  clear_value s3
  split
  refine KeptOpt.some ?_
  split
  exact State.twNotify_kept ‹_›
  assumption
  exact KeptOpt.none
theorem State.tqFlush_kept {s : State} (hk : Kept orig s) {q k2 : Nat} : Kept orig (State.tqFlush s q k2) := by
  induction k2 generalizing s q
  case' succ _ ih => unfold State.tqFlush
  case' zero => unfold State.tqFlush
  exact State.setFlag_kept ‹_›
  split
  apply ih
  refine KeptOpt.of ?_ ‹_›
  exact State.tqWriteOne_kept ‹_›
  exact State.setFlag_kept ‹_›
theorem State.txnEnd_kept {s : State} (hk : Kept orig s) {q : Nat} {t : Txn} {st : TStat} {value : Nat} {stamp : List Byte}
    {exch : Bool} : Kept orig (State.txnEnd s q t st value stamp exch) := by
  unfold State.txnEnd
  lift_lets -underBinder
  intro s1; refine via (p := Kept orig s1) ?_ fun hk => ?_; dsimp only [s1]
  split
  exact State.nvjEndTxn_kept ‹_›
  assumption
  clear_value s1
  intro ntf; try clear_value ntf
  intro s2; refine via (p := Kept orig s2) ?_ fun hk => ?_; dsimp only [s2]
  exact State.onTq_kept ‹_›
  clear_value s2
  exact State.tqFlush_kept (State.flowsClose_kept ‹_›)
theorem State.txnDone_kept {s : State} (hk : Kept orig s) {q : Nat} {t : Txn} {st : TStat} {value : Nat} : Kept orig
    (State.txnDone s q t st value) :=
  State.txnEnd_kept hk
theorem State.onTxn_kept {s : State} (hk : Kept orig s) {q count : Nat} {f : Txn → Txn} : Kept orig (State.onTxn s q count f)
    :=
  State.onTq_kept hk
theorem State.txnOpen_kept {s : State} (hk : Kept orig s) {q : Nat} {t : Txn} : Kept orig (State.txnOpen s q t) :=
  State.onTq_kept hk
theorem State.setHeld_kept {s : State} (hk : Kept orig s) {q : Nat} {h : Option Hold} : Kept orig (State.setHeld s q h) := by
  unfold State.setHeld
  lift_lets -underBinder
  intro s1; refine via (p := Kept orig s1) ?_ fun hk => ?_; dsimp only [s1]
  exact State.setFlag_kept (State.onTq_kept ‹_›)
  clear_value s1
  exact State.setFlag_kept ‹_›
theorem execCompletionDeferredWrite_kept {s : State} (hk : Kept orig s) {q : Nat} : KeptOut orig (execCompletionDeferredWrite
    q s) := by
  unfold execCompletionDeferredWrite
  apply forUnit_kept
  assumption
  intro y0 a
  exact State.tqFlush_kept ‹_›
theorem State.onPort_kept {s : State} (hk : Kept orig s) {p : Nat} {f : Port → Port} : Kept orig (State.onPort s p f) := by
  unfold State.onPort
  apply kept_mk
  assumption
theorem State.portCount_kept {s : State} (hk : Kept orig s) {p i n : Nat} : Kept orig (State.portCount s p i n) := by
  unfold State.portCount
  lift_lets -underBinder
  intro off; try clear_value off
  exact State.setReg_kept ‹_›
theorem State.portErr_kept {s : State} (hk : Kept orig s) {p cause index : Nat} {log : Bool} : Kept orig (State.portErr s p
    cause index log) :=
  State.raise_kept (State.logCause_kept hk)
theorem State.redSeq_kept {s : State} (hk : Kept orig s) {p : Nat} : KeptSnd orig (State.redSeq s p) := by
  unfold State.redSeq
  split
  exact KeptSnd.mk' ‹_›
  lift_lets -underBinder
  intro n; try clear_value n
  exact KeptSnd.mk' (State.onPort_kept ‹_›)
theorem State.gooseQueue_kept {s : State} (hk : Kept orig s) {p i k : Nat} {cls : EgClass} {due : Nat} {txn : Option (Nat ×
    Nat)} {red : Option Nat} {atMax : Bool} : Kept orig (State.gooseQueue s p i k cls due txn red atMax) := by
  unfold State.gooseQueue
  split
  lift_lets -underBinder
  intro tal; try clear_value tal
  intro len; try clear_value len
  exact State.onPort_kept ‹_›
  assumption
theorem State.pubSlots_kept {s : State} (hk : Kept orig s) {e data : List Byte} : KeptSnd orig (State.pubSlots s e data) := by
  unfold State.pubSlots
  lift_lets -underBinder
  intro n; try clear_value n
  split
  refine KeptSnd.mk' ?_
  refine KeptSnd.of ‹_› ?_
  exact State.freshBytes_kept ‹_›
theorem State.sendPort_kept {s : State} (hk : Kept orig s) {q : Nat} {t : Txn} {cls : EgClass} : Kept orig (State.sendPort s q
    t cls) := by
  unfold State.sendPort
  lift_lets -underBinder
  intro i; try clear_value i
  intro ports; try clear_value ports
  intro up; try clear_value up
  split
  exact State.onTxn_kept ‹_›
  split
  exact State.onTxn_kept ‹_›
  split
  split
  lift_lets -underBinder
  intro old; try clear_value old
  intro k; try clear_value k
  intro spdu; try clear_value spdu
  intro pub; try clear_value pub
  intro s2; refine via (p := Kept orig s2) ?_ fun hk => ?_; dsimp only [s2]
  apply kept_mk
  refine KeptSnd.of ‹_› ?_
  exact State.pubSlots_kept ‹_›
  clear_value s2
  split
  lift_lets -underBinder
  intro s4; refine via (p := Kept orig s4) ?_ fun hk => ?_; dsimp only [s4]
  refine List.foldl_kept ?_ ?_
  refine KeptSnd.of ‹_› ?_
  exact State.redSeq_kept ‹_›
  intro t u a
  split
  exact State.gooseQueue_kept (State.onPort_kept ‹_›)
  exact State.portCount_kept ‹_›
  clear_value s4
  exact State.onTxn_kept ‹_›
theorem State.onLink_kept {s : State} (hk : Kept orig s) {l : Nat} {f : Link → Link} : Kept orig (State.onLink s l f) := by
  unfold State.onLink
  apply kept_mk
  assumption
theorem State.linkCount_kept {s : State} (hk : Kept orig s) {l i n : Nat} : Kept orig (State.linkCount s l i n) := by
  unfold State.linkCount
  lift_lets -underBinder
  intro off; try clear_value off
  exact State.setReg_kept ‹_›
theorem State.linkErr_kept {s : State} (hk : Kept orig s) {l cause : Nat} : Kept orig (State.linkErr s l cause) :=
  State.raise_kept (State.logCause_kept hk)
theorem State.linkPush_kept {s : State} (hk : Kept orig s) {l : Nat} {p : Packet} {stamp : Int} : Kept orig (State.linkPush s
    l p stamp) :=
  State.onLink_kept hk
theorem State.rxReject_kept {s : State} (hk : Kept orig s) {p counter cause index : Nat} : Kept orig (State.rxReject s p
    counter cause index) :=
  State.portErr_kept (State.portCount_kept hk)
theorem State.portWrite_kept {s : State} (hk : Kept orig s) {a : Nat} {bs : List Byte} : Kept orig (State.portWrite s a bs) :=
    by
  unfold State.portWrite
  apply Option.getD_kept
  assumption
  exact State.dmaWrite_kept ‹_›
theorem State.macsecRx_kept {s : State} (hk : Kept orig s) {p : Nat} {f : Frame} : KeptFst orig (State.macsecRx s p f) := by
  unfold State.macsecRx
  split
  split
  exact KeptFst.mk' ‹_›
  exact KeptFst.mk' ‹_›
  split
  split
  exact KeptFst.mk' (State.rxReject_kept ‹_›)
  exact KeptFst.mk' ‹_›
  split
  exact KeptFst.mk' (State.rxReject_kept ‹_›)
  split
  exact KeptFst.mk' (State.rxReject_kept ‹_›)
  split
  exact KeptFst.mk' (State.rxReject_kept ‹_›)
  exact KeptFst.mk' (State.onPort_kept ‹_›)
theorem State.redundancyRx_kept {s : State} (hk : Kept orig s) {p : Nat} {f : Frame} : KeptFst orig (State.redundancyRx s p f)
    := by
  unfold State.redundancyRx
  split
  exact KeptFst.mk' ‹_›
  exact KeptFst.mk' ‹_›
  lift_lets -underBinder
  intro k; try clear_value k
  intro s1; refine via (p := Kept orig s1) ?_ fun hk => ?_; dsimp only [s1]
  split
  exact State.portCount_kept ‹_›
  assumption
  clear_value s1
  intro live; try clear_value live
  intro full; try clear_value full
  intro s2; refine via (p := Kept orig s2) ?_ fun hk => ?_; dsimp only [s2]
  split
  exact State.rxReject_kept ‹_›
  assumption
  clear_value s2
  split
  exact KeptFst.mk' (State.portCount_kept ‹_›)
  refine KeptFst.mk' ?_
  apply kept_mk
  assumption
theorem State.softRing_kept {s : State} (hk : Kept orig s) {p rule : Nat} {f : Frame} {prot : Bool} {st : Stamp} : Kept orig
    (State.softRing s p rule f prot st) := by
  unfold State.softRing
  lift_lets -underBinder
  intro cfg; try clear_value cfg
  intro n; try clear_value n
  intro tail; try clear_value tail
  intro size; try clear_value size
  intro trunc; try clear_value trunc
  intro lanB; try clear_value lanB
  intro flags; try clear_value flags
  intro a; try clear_value a
  intro s1; refine via (p := Kept orig s1) ?_ fun hk => ?_; dsimp only [s1]
  exact State.portWrite_kept ‹_›
  clear_value s1
  intro s2; refine via (p := Kept orig s2) ?_ fun hk => ?_; dsimp only [s2]
  exact State.setReg_kept ‹_›
  clear_value s2
  split
  exact State.portCount_kept ‹_›
  split
  exact State.ring_kept ‹_›
  assumption
theorem State.setPresent_kept {s : State} (hk : Kept orig s) {e : SvEntry} {i : Nat} {b : Bool} : Kept orig (State.setPresent
    s e i b) := by
  unfold State.setPresent
  lift_lets -underBinder
  intro a; try clear_value a
  exact State.portWrite_kept ‹_›
theorem State.clearAhead_kept {s : State} (hk : Kept orig s) {e : SvEntry} {xn x : Int} : Kept orig (State.clearAhead s e xn
    x) := by
  unfold State.clearAhead
  lift_lets -underBinder
  intro n; try clear_value n
  refine List.foldl_kept ?_ ?_
  assumption
  intro t u a
  exact State.setPresent_kept ‹_›
theorem State.land_kept {s : State} (hk : Kept orig s) {p g n : Nat} {e : SvEntry} {f : Frame} {st : Stamp} {pos count : Nat}
    {a : Asdu} : KeptFst orig (State.land s p g n e f st pos count a) := by
  unfold State.land
  split
  exact KeptFst.mk' (State.portCount_kept ‹_›)
  lift_lets -underBinder
  intro off; try clear_value off
  intro run; try clear_value run
  intro xn; try clear_value xn
  intro s0; refine via (p := Kept orig s0) ?_ fun hk => ?_; dsimp only [s0]
  split
  assumption
  exact State.setFlag_kept (State.portWrite_kept ‹_›)
  clear_value s0
  intro i; try clear_value i
  intro lanB; try clear_value lanB
  intro flags; try clear_value flags
  intro head; try clear_value head
  intro s1; refine via (p := Kept orig s1) ?_ fun hk => ?_; dsimp only [s1]
  exact State.portWrite_kept (State.portWrite_kept (State.portWrite_kept ‹_›))
  clear_value s1
  intro key; try clear_value key
  intro old; try clear_value old
  intro t; refine via (p := Kept orig t) ?_ fun hk => ?_; dsimp only [t]
  exact State.setReg_kept (State.clearAhead_kept ‹_›)
  clear_value t
  intro s2; refine via (p := Kept orig s2) ?_ fun hk => ?_; dsimp only [s2]
  split
  apply kept_mk
  assumption
  assumption
  clear_value s2
  intro s3; refine via (p := Kept orig s3) ?_ fun hk => ?_; dsimp only [s3]
  exact State.setFlag_kept (State.setPresent_kept ‹_›)
  clear_value s3
  intro u; try clear_value u
  intro s4; refine via (p := Kept orig s4) ?_ fun hk => ?_; dsimp only [s4]
  apply kept_mk
  assumption
  clear_value s4
  exact KeptFst.mk' (State.portCount_kept ‹_›)
theorem State.landAll_kept {s : State} (hk : Kept orig s) {p g n : Nat} {e : SvEntry} {f : Frame} {st : Stamp} {count k8 :
    Nat} {k9 : Bool} {k10 : List Asdu} : KeptFst orig (State.landAll s p g n e f st count k8 k9 k10) := by
  induction k10 generalizing s p g n e f st count k8 k9
  case' cons _ _ ih => unfold State.landAll
  case' nil => unfold State.landAll
  exact KeptFst.mk' ‹_›
  split
  exact KeptFst.mk' (State.portErr_kept (State.portCount_kept ‹_›))
  split
  apply ih
  exact State.rxReject_kept ‹_›
  split
  apply ih
  refine KeptFst.of ‹_› ?_
  exact State.land_kept ‹_›
  apply ih
  refine KeptFst.of ‹_› ?_
  exact State.land_kept ‹_›
theorem State.svDecode_kept {s : State} (hk : Kept orig s) {p n : Nat} {f : Frame} {st : Stamp} : Kept orig (State.svDecode s
    p n f st) := by
  unfold State.svDecode
  lift_lets -underBinder
  intro g; try clear_value g
  intro e; try clear_value e
  split
  split
  exact State.portErr_kept (State.portCount_kept ‹_›)
  split
  split
  apply State.ring_kept
  refine KeptFst.of ‹_› ?_
  exact State.landAll_kept ‹_›
  refine KeptFst.of ‹_› ?_
  exact State.landAll_kept ‹_›
  exact State.rxReject_kept ‹_›
theorem State.authFail_kept {s : State} (hk : Kept orig s) {p n : Nat} : Kept orig (State.authFail s p n) :=
  State.rxReject_kept hk
theorem State.portAuthEvent_kept {s : State} (hk : Kept orig s) : Kept orig (State.portAuthEvent s) := by
  have hf := (State.fresh_kept hk).1
  unfold State.portAuthEvent
  dsimp only
  split
  exact State.raise_kept (State.logCause_kept hf)
  assumption
theorem State.rsvDecode_kept {s : State} (hk : Kept orig s) {p n : Nat} {f : Frame} {st : Stamp} : Kept orig (State.rsvDecode
    s p n f st) := by
  unfold State.rsvDecode
  lift_lets -underBinder
  intro g; try clear_value g
  intro key; try clear_value key
  split
  exact State.authFail_kept ‹_›
  split
  lift_lets -underBinder
  intro s0; refine via (p := Kept orig s0) ?_ fun hk => ?_; dsimp only [s0]
  exact State.countHub_kept ‹_›
  clear_value s0
  intro u; try clear_value u
  split
  apply State.svDecode_kept
  apply kept_mk
  assumption
  apply State.authFail_kept
  split
  exact State.portAuthEvent_kept ‹_›
  assumption
theorem State.subNotify_kept {s : State} (hk : Kept orig s) {e : List Byte} : Kept orig (State.subNotify s e) := by
  unfold State.subNotify
  split
  exact State.ring_kept ‹_›
  assumption
theorem State.gooseAccept_kept {s : State} (hk : Kept orig s) {p n : Nat} {e : List Byte} {m : GooseMsg} {st : Stamp} : Kept
    orig (State.gooseAccept s p n e m st) := by
  unfold State.gooseAccept
  lift_lets -underBinder
  intro g; try clear_value g
  intro a; try clear_value a
  intro cnt; try clear_value cnt
  intro h; try clear_value h
  intro fl; try clear_value fl
  intro key; try clear_value key
  intro s0; refine via (p := Kept orig s0) ?_ fun hk => ?_; dsimp only [s0]
  split
  exact State.portWrite_kept ‹_›
  assumption
  clear_value s0
  intro u; try clear_value u
  intro seen; try clear_value seen
  intro ts; try clear_value ts
  intro t; try clear_value t
  intro buf; try clear_value buf
  intro s1; refine via (p := Kept orig s1) ?_ fun hk => ?_; dsimp only [s1]
  exact State.portWrite_kept ‹_›
  clear_value s1
  intro s2; refine via (p := Kept orig s2) ?_ fun hk => ?_; dsimp only [s2]
  exact State.portWrite_kept ‹_›
  clear_value s2
  intro u; refine via (p := Kept orig u) ?_ fun hk => ?_; dsimp only [u]
  exact State.portCount_kept ‹_›
  clear_value u
  intro s1; refine via (p := Kept orig s1) ?_ fun hk => ?_; dsimp only [s1]
  exact State.portWrite_kept ‹_›
  clear_value s1
  intro u; refine via (p := Kept orig u) ?_ fun hk => ?_; dsimp only [u]
  exact State.portCount_kept ‹_›
  clear_value u
  split
  apply State.subNotify_kept
  apply kept_mk
  assumption
  split
  apply kept_mk
  assumption
  exact State.portCount_kept ‹_›
theorem State.gooseDecode_kept {s : State} (hk : Kept orig s) {p rule n : Nat} {f : Frame} {prot : Bool} {st : Stamp} : Kept
    orig (State.gooseDecode s p rule n f prot st) := by
  unfold State.gooseDecode
  lift_lets -underBinder
  intro g; try clear_value g
  intro e; try clear_value e
  split
  lift_lets -underBinder
  intro cnt; try clear_value cnt
  intro s1; refine via (p := Kept orig s1) ?_ fun hk => ?_; dsimp only [s1]
  exact State.rxReject_kept ‹_›
  clear_value s1
  split
  split
  exact State.softRing_kept ‹_›
  assumption
  split
  exact State.rxReject_kept ‹_›
  exact State.gooseAccept_kept ‹_›
  exact State.rxReject_kept ‹_›
theorem State.rgooseDecode_kept {s : State} (hk : Kept orig s) {p rule n : Nat} {f : Frame} {prot : Bool} {st : Stamp} : Kept
    orig (State.rgooseDecode s p rule n f prot st) := by
  unfold State.rgooseDecode
  lift_lets -underBinder
  intro g; try clear_value g
  intro key; try clear_value key
  split
  exact State.authFail_kept ‹_›
  split
  lift_lets -underBinder
  intro s0; refine via (p := Kept orig s0) ?_ fun hk => ?_; dsimp only [s0]
  exact State.countHub_kept ‹_›
  clear_value s0
  intro u; try clear_value u
  split
  apply State.gooseDecode_kept
  apply kept_mk
  assumption
  apply State.authFail_kept
  split
  exact State.portAuthEvent_kept ‹_›
  assumption
theorem State.frameIn_kept {s : State} (hk : Kept orig s) {p : Nat} {f0 : Frame} {prot : Bool} {st : Stamp} : Kept orig
    (State.frameIn s p f0 prot st) := by
  unfold State.frameIn
  lift_lets -underBinder
  intro f; try clear_value f
  split
  lift_lets -underBinder
  intro s1; refine via (p := Kept orig s1) ?_ fun hk => ?_; dsimp only [s1]
  exact State.portCount_kept ‹_›
  clear_value s1
  split
  exact State.softRing_kept ‹_›
  assumption
  split
  exact State.svDecode_kept ‹_›
  exact State.gooseDecode_kept ‹_›
  exact State.rsvDecode_kept ‹_›
  exact State.rgooseDecode_kept ‹_›
  exact State.softRing_kept ‹_›
  assumption
theorem State.frameRx_kept {s : State} (hk : Kept orig s) {p : Nat} {f : Frame} : Kept orig (State.frameRx s p f) := by
  unfold State.frameRx
  split
  assumption
  split
  exact State.portCount_kept ‹_›
  split
  exact State.portCount_kept ‹_›
  lift_lets -underBinder
  intro s1; refine via (p := Kept orig s1) ?_ fun hk => ?_; dsimp only [s1]
  exact State.portCount_kept (State.portCount_kept ‹_›)
  clear_value s1
  split
  exact State.portCount_kept ‹_›
  split
  refine KeptFst.of ‹_› ?_
  exact State.macsecRx_kept ‹_›
  split
  refine KeptFst.of ‹_› ?_
  apply State.redundancyRx_kept
  refine KeptFst.of ‹_› ?_
  exact State.macsecRx_kept ‹_›
  apply State.frameIn_kept
  refine KeptFst.of ‹_› ?_
  apply State.redundancyRx_kept
  refine KeptFst.of ‹_› ?_
  exact State.macsecRx_kept ‹_›
theorem execFrameReceive_kept {s : State} (hk : Kept orig s) {p : Nat} {f : Frame} : KeptOut orig (execFrameReceive p f s) :=
    by
  unfold execFrameReceive
  apply forUnit_kept
  assumption
  intro y0 a
  exact State.frameRx_kept ‹_›
theorem execDdtEntryForget_kept {s : State} (hk : Kept orig s) {pair : Nat} : KeptOut orig (execDdtEntryForget pair s) := by
  unfold execDdtEntryForget
  apply forUnit_kept
  assumption
  intro y0 a
  apply kept_mk
  assumption
theorem execSvStale_kept {s : State} (hk : Kept orig s) {g n : Nat} : KeptOut orig (execSvStale g n s) := by
  unfold execSvStale
  apply forUnit_kept
  assumption
  intro y0 a
  lift_lets -underBinder
  intro e; try clear_value e
  intro off; try clear_value off
  intro u; try clear_value u
  intro s1; refine via (p := Kept orig s1) ?_ fun hk => ?_; dsimp only [s1]
  exact State.setFlag_kept ‹_›
  clear_value s1
  split
  apply State.portErr_kept
  split
  exact State.ring_kept ‹_›
  assumption
  assumption
theorem execGooseStale_kept {s : State} (hk : Kept orig s) {g n : Nat} : KeptOut orig (execGooseStale g n s) := by
  unfold execGooseStale
  apply forUnit_kept
  assumption
  intro y0 a
  lift_lets -underBinder
  intro e; try clear_value e
  intro a; try clear_value a
  intro fl; try clear_value fl
  intro u; try clear_value u
  split
  exact State.portErr_kept (State.subNotify_kept (State.portCount_kept (State.portWrite_kept ‹_›)))
  assumption
theorem State.macsecTx_kept {s : State} (hk : Kept orig s) {p : Nat} {f : EgFrame} : KeptOptFst orig (State.macsecTx s p f) :=
    by
  unfold State.macsecTx
  split
  exact KeptOptFst.some (KeptFst.mk' ‹_›)
  split
  exact KeptOptFst.none
  split
  exact KeptOptFst.none
  split
  exact KeptOptFst.none
  lift_lets -underBinder
  intro warn; try clear_value warn
  intro s1; refine via (p := Kept orig s1) ?_ fun hk => ?_; dsimp only [s1]
  exact State.onPort_kept ‹_›
  clear_value s1
  refine KeptOptFst.some ?_
  refine KeptFst.mk' ?_
  split
  exact State.portErr_kept ‹_›
  assumption
theorem State.pubStart_kept {s : State} (hk : Kept orig s) {p i k : Nat} : Kept orig (State.pubStart s p i k) := by
  unfold State.pubStart
  split
  apply kept_mk
  assumption
  assumption
theorem State.pubMark_kept {s : State} (hk : Kept orig s) {i stNum sqNum : Nat} : Kept orig (State.pubMark s i stNum sqNum) :=
    by
  unfold State.pubMark
  split
  exact State.portWrite_kept ‹_›
  assumption
theorem State.txnSent_kept {s : State} (hk : Kept orig s) {p : Nat} {tx : Option (Nat × Nat)} : Kept orig (State.txnSent s p
    tx) := by
  unfold State.txnSent
  split
  assumption
  split
  exact State.txnEnd_kept ‹_›
  assumption
theorem State.tripEvent_kept {s : State} (hk : Kept orig s) {i stNum : Nat} {out : Stamp} : Kept orig (State.tripEvent s i
    stNum out) := by
  unfold State.tripEvent
  split
  assumption
  split
  assumption
  split
  lift_lets -underBinder
  intro tin; try clear_value tin
  intro lat; try clear_value lat
  intro index; try clear_value index
  intro u; try clear_value u
  intro s2; refine via (p := Kept orig s2) ?_ fun hk => ?_; dsimp only [s2]
  apply kept_mk
  refine KeptSnd.of ‹_› ?_
  split
  exact State.fresh_kept ‹_›
  exact KeptSnd.mk' ‹_›
  clear_value s2
  exact State.complete_kept ‹_›
theorem State.startFrame_kept {s : State} (hk : Kept orig s) {p : Nat} {f : EgFrame} {sa : Option Nat} : Kept orig
    (State.startFrame s p f sa) := by
  unfold State.startFrame
  lift_lets -underBinder
  intro body; try clear_value body
  intro mute; try clear_value mute
  intro s0; refine via (p := Kept orig s0) ?_ fun hk => ?_; dsimp only [s0]
  exact State.onPort_kept ‹_›
  clear_value s0
  intro s1; refine via (p := Kept orig s1) ?_ fun hk => ?_; dsimp only [s1]
  split
  assumption
  exact State.emit_kept ‹_›
  clear_value s1
  intro s2; refine via (p := Kept orig s2) ?_ fun hk => ?_; dsimp only [s2]
  exact State.portCount_kept (State.portCount_kept ‹_›)
  clear_value s2
  intro u; refine via (p := Kept orig u) ?_ fun hk => ?_; dsimp only [u]
  exact State.portCount_kept ‹_›
  clear_value u
  intro s3; refine via (p := Kept orig s3) ?_ fun hk => ?_; dsimp only [s3]
  split
  split
  exact State.portCount_kept ‹_›
  assumption
  assumption
  clear_value s3
  intro s4; refine via (p := Kept orig s4) ?_ fun hk => ?_; dsimp only [s4]
  split
  split
  exact State.pubMark_kept ‹_›
  exact State.tripEvent_kept (State.pubStart_kept (State.pubMark_kept ‹_›))
  assumption
  clear_value s4
  exact State.txnSent_kept ‹_›
theorem execFrameStart_kept {s : State} (hk : Kept orig s) {p : Nat} : KeptOut orig (execFrameStart p s) := by
  unfold execFrameStart
  apply forUnit_kept
  assumption
  intro y0 a
  split
  assumption
  split
  assumption
  split
  assumption
  apply State.startFrame_kept
  refine KeptOptFst.of ?_ ‹_›
  exact State.macsecTx_kept ‹_›
theorem State.queueRep_kept {s : State} (hk : Kept orig s) {p i k : Nat} {x : PubPort} {red : Option Nat} : Kept orig
    (State.queueRep s p i k x red) := by
  unfold State.queueRep
  split
  assumption
  lift_lets -underBinder
  intro s1; refine via (p := Kept orig s1) ?_ fun hk => ?_; dsimp only [s1]
  exact State.gooseQueue_kept ‹_›
  clear_value s1
  split
  apply kept_mk
  assumption
  assumption
theorem State.pubSpdu_kept {s : State} (hk : Kept orig s) {i : Nat} : Kept orig (State.pubSpdu s i) := by
  unfold State.pubSpdu
  split
  split
  apply kept_mk
  assumption
  assumption
  assumption
theorem State.repeatPub_kept {s : State} (hk : Kept orig s) {i : Nat} : Kept orig (State.repeatPub s i) := by
  unfold State.repeatPub
  split
  assumption
  lift_lets -underBinder
  intro run; try clear_value run
  split
  assumption
  lift_lets -underBinder
  intro same; try clear_value same
  split
  refine List.foldl_kept ?_ ?_
  refine KeptSnd.of ‹_› ?_
  exact State.redSeq_kept (State.pubSpdu_kept ‹_›)
  intro t u a
  exact State.queueRep_kept ‹_›
theorem execGooseRepetition_kept {s : State} (hk : Kept orig s) {pub : Nat} : KeptOut orig (execGooseRepetition pub s) := by
  unfold execGooseRepetition
  apply forUnit_kept
  assumption
  intro y0 a
  exact State.repeatPub_kept ‹_›
theorem State.handBack_kept {s : State} (hk : Kept orig s) {p : Nat} {f : EgFrame} : Kept orig (State.handBack s p f) := by
  unfold State.handBack
  split
  assumption
  split
  assumption
  split
  exact State.portCount_kept ‹_›
  exact State.onTxn_kept ‹_›
theorem State.pubsStop_kept {s : State} (hk : Kept orig s) {p : Nat} : Kept orig (State.pubsStop s p) := by
  unfold State.pubsStop
  apply kept_mk
  assumption
theorem State.portDrop_kept {s : State} (hk : Kept orig s) {p : Nat} : Kept orig (State.portDrop s p) := by
  unfold State.portDrop
  lift_lets -underBinder
  intro q; try clear_value q
  intro s1; refine via (p := Kept orig s1) ?_ fun hk => ?_; dsimp only [s1]
  exact State.pubsStop_kept (State.onPort_kept ‹_›)
  clear_value s1
  refine List.foldl_kept ?_ ?_
  assumption
  intro t u a
  exact State.handBack_kept ‹_›
theorem State.pubsResume_kept {s : State} (hk : Kept orig s) {p : Nat} : Kept orig (State.pubsResume s p) := by
  unfold State.pubsResume
  refine List.foldl_kept ?_ ?_
  assumption
  intro t u a
  split
  assumption
  split
  split
  split
  apply State.queueRep_kept
  refine KeptSnd.of ‹_› ?_
  exact State.redSeq_kept (State.pubSpdu_kept ‹_›)
  assumption
theorem execHsrForward_kept {s : State} (hk : Kept orig s) {p : Nat} {f : Frame} : KeptOut orig (execHsrForward p f s) := by
  unfold execHsrForward
  apply forUnit_kept
  assumption
  intro y0 a
  lift_lets -underBinder
  intro other; try clear_value other
  split
  assumption
  lift_lets -underBinder
  intro mine; try clear_value mine
  intro forMe; try clear_value forMe
  intro key; try clear_value key
  intro ent; try clear_value ent
  intro s1; refine via (p := Kept orig s1) ?_ fun hk => ?_; dsimp only [s1]
  apply kept_mk
  assumption
  clear_value s1
  intro fr; try clear_value fr
  split
  exact State.onPort_kept ‹_›
  assumption
theorem State.queueOther_kept {s : State} (hk : Kept orig s) {p len : Nat} {red : Option Nat} {b : TxBody} : Kept orig
    (State.queueOther s p len red b) :=
  State.onPort_kept hk
theorem execPrpSupervisionFrame_kept {s : State} (hk : Kept orig s) {pair : Nat} : KeptOut orig (execPrpSupervisionFrame pair
    s) := by
  unfold execPrpSupervisionFrame
  apply forUnit_kept
  assumption
  intro y0 a
  split
  assumption
  split
  refine List.foldl_kept ?_ ?_
  refine KeptSnd.of ‹_› ?_
  exact State.redSeq_kept ‹_›
  intro t u a
  split
  exact State.queueOther_kept ‹_›
  assumption
theorem State.txDisableEval_kept {s : State} (hk : Kept orig s) {p : Nat} : Kept orig (State.txDisableEval s p) :=
  State.setFlag_kept hk
theorem State.linkEval_kept {s : State} (hk : Kept orig s) {p : Nat} : Kept orig (State.linkEval s p) := by
  unfold State.linkEval
  lift_lets -underBinder
  intro st; try clear_value st
  intro up; try clear_value up
  intro s1; refine via (p := Kept orig s1) ?_ fun hk => ?_; dsimp only [s1]
  exact State.setFlag_kept ‹_›
  clear_value s1
  intro s2; refine via (p := Kept orig s2) ?_ fun hk => ?_; dsimp only [s2]
  split
  exact State.pubsResume_kept ‹_›
  exact State.portDrop_kept ‹_›
  clear_value s2
  split
  assumption
  exact State.event_kept (State.portErr_kept ‹_›)
theorem State.portCfgWrite_kept {s : State} (hk : Kept orig s) {p v : Nat} : Kept orig (State.portCfgWrite s p v) := by
  unfold State.portCfgWrite
  lift_lets -underBinder
  intro off; try clear_value off
  intro old; try clear_value old
  intro mode; try clear_value mode
  intro fec; try clear_value fec
  intro s1; refine via (p := Kept orig s1) ?_ fun hk => ?_; dsimp only [s1]
  exact State.setReg_kept ‹_›
  clear_value s1
  intro s2; refine via (p := Kept orig s2) ?_ fun hk => ?_; dsimp only [s2]
  exact State.txDisableEval_kept (State.setFlag_kept ‹_›)
  clear_value s2
  exact State.linkEval_kept ‹_›
theorem State.prpCfgWrite_kept {s : State} (hk : Kept orig s) {k v : Nat} : Kept orig (State.prpCfgWrite s k v) := by
  unfold State.prpCfgWrite
  lift_lets -underBinder
  intro off; try clear_value off
  intro old; try clear_value old
  intro busy; try clear_value busy
  intro mode; try clear_value mode
  intro fg; try clear_value fg
  intro ms; try clear_value ms
  exact State.setReg_kept ‹_›
theorem State.msecCfgWrite_kept {s : State} (hk : Kept orig s) {p v : Nat} : Kept orig (State.msecCfgWrite s p v) := by
  unfold State.msecCfgWrite
  lift_lets -underBinder
  intro s1; refine via (p := Kept orig s1) ?_ fun hk => ?_; dsimp only [s1]
  exact State.setReg_kept ‹_›
  clear_value s1
  split
  assumption
  exact State.onPort_kept ‹_›
theorem State.lockLost_kept {s : State} (hk : Kept orig s) {p : Nat} : Kept orig (State.lockLost s p) := by
  unfold State.lockLost
  split
  lift_lets -underBinder
  intro s1; refine via (p := Kept orig s1) ?_ fun hk => ?_; dsimp only [s1]
  exact State.setFlag_kept (State.onPort_kept ‹_›)
  clear_value s1
  split
  exact State.linkEval_kept ‹_›
  exact State.portErr_kept ‹_›
  assumption
theorem State.openLife_kept {s : State} (hk : Kept orig s) {part serial : BitVec 32} : Kept orig (State.openLife s part
    serial) := by
  unfold State.openLife
  lift_lets -underBinder
  intro ls; try clear_value ls
  intro absent; try clear_value absent
  intro drop; try clear_value drop
  intro kept; try clear_value kept
  intro new; try clear_value new
  intro u; try clear_value u
  split
  assumption
  apply kept_mk
  assumption
theorem State.onLife_kept {s : State} (hk : Kept orig s) {id : BitVec 32 × BitVec 32} {f : LifeRec → LifeRec} : Kept orig
    (State.onLife s id f) := by
  unfold State.onLife
  apply kept_mk
  assumption
theorem State.cageRead_kept {s : State} (hk : Kept orig s) {c : CageRead} : Kept orig (State.cageRead s c) := by
  unfold State.cageRead
  lift_lets -underBinder
  intro p; try clear_value p
  intro old; try clear_value old
  intro st; try clear_value st
  intro id; try clear_value id
  intro s0; refine via (p := Kept orig s0) ?_ fun hk => ?_; dsimp only [s0]
  apply kept_mk
  assumption
  clear_value s0
  intro s1; refine via (p := Kept orig s1) ?_ fun hk => ?_; dsimp only [s1]
  split
  split
  assumption
  exact State.event_kept (State.portErr_kept (State.lockLost_kept (State.setFlag_kept (State.onLife_kept ‹_›))))
  assumption
  clear_value s1
  intro s2; refine via (p := Kept orig s2) ?_ fun hk => ?_; dsimp only [s2]
  split
  split
  assumption
  exact State.event_kept (State.portErr_kept (State.setFlag_kept (State.openLife_kept ‹_›)))
  assumption
  clear_value s2
  intro s3; refine via (p := Kept orig s3) ?_ fun hk => ?_; dsimp only [s3]
  exact State.setFlag_kept ‹_›
  clear_value s3
  intro s4; refine via (p := Kept orig s4) ?_ fun hk => ?_; dsimp only [s4]
  split
  exact State.portErr_kept (State.lockLost_kept ‹_›)
  assumption
  clear_value s4
  intro s5; refine via (p := Kept orig s5) ?_ fun hk => ?_; dsimp only [s5]
  exact State.txDisableEval_kept (State.setFlag_kept ‹_›)
  clear_value s5
  intro s6; refine via (p := Kept orig s6) ?_ fun hk => ?_; dsimp only [s6]
  split
  exact State.portErr_kept ‹_›
  assumption
  clear_value s6
  exact State.linkEval_kept ‹_›
theorem execExpanderPoll_kept {s : State} (hk : Kept orig s) {bus : Nat} {cages : List CageRead} {stuck : Bool} : KeptOut orig
    (execExpanderPoll bus cages stuck s) := by
  unfold execExpanderPoll
  apply forUnit_kept
  assumption
  intro y0 a
  split
  refine List.foldl_kept ?_ ?_
  assumption
  intro t u a
  exact State.portErr_kept ‹_›
  refine List.foldl_kept ?_ ?_
  assumption
  intro t u a
  exact State.cageRead_kept ‹_›
theorem execModuleLifeUpdate_kept {s : State} (hk : Kept orig s) {p tempBin biasUa : Nat} : KeptOut orig (execModuleLifeUpdate
    p tempBin biasUa s) := by
  unfold execModuleLifeUpdate
  apply forUnit_kept
  assumption
  intro y0 a
  split
  assumption
  lift_lets -underBinder
  intro b; try clear_value b
  intro on; try clear_value on
  intro s1; refine via (p := Kept orig s1) ?_ fun hk => ?_; dsimp only [s1]
  exact State.onLife_kept ‹_›
  clear_value s1
  split
  assumption
  split
  exact State.event_kept (State.portErr_kept (State.onLife_kept ‹_›))
  assumption
theorem State.spareLane_kept {s : State} (hk : Kept orig s) {p : Nat} {ok : Bool} : Kept orig (State.spareLane s p ok) := by
  unfold State.spareLane
  lift_lets -underBinder
  intro g; try clear_value g
  intro st; try clear_value st
  intro v; try clear_value v
  intro s1; refine via (p := Kept orig s1) ?_ fun hk => ?_; dsimp only [s1]
  exact State.portCfgWrite_kept (State.lockLost_kept ‹_›)
  clear_value s1
  intro s2; refine via (p := Kept orig s2) ?_ fun hk => ?_; dsimp only [s2]
  exact State.setFlag_kept (State.condemn_kept ‹_›)
  clear_value s2
  intro s3; refine via (p := Kept orig s3) ?_ fun hk => ?_; dsimp only [s3]
  exact State.setFlag_kept (State.onPort_kept ‹_›)
  clear_value s3
  split
  assumption
  split
  exact State.portErr_kept ‹_›
  exact State.portErr_kept (State.portCfgWrite_kept ‹_›)
theorem execPtpMessageSend_kept {s : State} (hk : Kept orig s) {p : Nat} {msg : BitVec 8} : KeptOut orig (execPtpMessageSend p
    msg s) := by
  unfold execPtpMessageSend
  apply forUnit_kept
  assumption
  intro y0 a
  split
  split
  apply State.queueOther_kept
  refine KeptSnd.of ‹_› ?_
  exact State.redSeq_kept ‹_›
  assumption
theorem State.peerReset_kept {s : State} (hk : Kept orig s) {q flow inc : Nat} : Kept orig (State.peerReset s q flow inc) :=
    by
  unfold State.peerReset
  lift_lets -underBinder
  intro s1; refine via (p := Kept orig s1) ?_ fun hk => ?_; dsimp only [s1]
  exact State.onFlow_kept ‹_›
  clear_value s1
  refine List.foldl_kept ?_ ?_
  assumption
  intro t u a
  exact State.txnDone_kept ‹_›
theorem State.ackIn_kept {s : State} (hk : Kept orig s) {q target seq inc : Nat} : Kept orig (State.ackIn s q target seq inc)
    := by
  unfold State.ackIn
  lift_lets -underBinder
  intro s; refine via (p := Kept orig s) ?_ fun hk => ?_; dsimp only [s]
  exact State.countHub_kept ‹_›
  clear_value s
  split
  exact State.twErr_kept ‹_›
  split
  exact State.peerReset_kept ‹_›
  lift_lets -underBinder
  intro s1; refine via (p := Kept orig s1) ?_ fun hk => ?_; dsimp only [s1]
  split
  assumption
  exact State.onFlow_kept ‹_›
  clear_value s1
  split
  exact State.onTxn_kept ‹_›
  exact State.txnDone_kept ‹_›
theorem State.refuseIn_kept {s : State} (hk : Kept orig s) {q target seq reason inc : Nat} : Kept orig (State.refuseIn s q
    target seq reason inc) := by
  unfold State.refuseIn
  split
  assumption
  split
  exact State.peerReset_kept ‹_›
  apply State.onTxn_kept
  split
  assumption
  exact State.onFlow_kept ‹_›
theorem State.deliver_kept {s : State} (hk : Kept orig s) {fl : Nat} {m : Inbound} {nv : Verifies} : KeptFst orig
    (State.deliver s fl m nv) := by
  unfold State.deliver
  lift_lets -underBinder
  intro q; try clear_value q
  split
  exact KeptFst.mk' ‹_›
  lift_lets -underBinder
  intro part; try clear_value part
  intro stamp; try clear_value stamp
  split
  exact KeptFst.mk' (State.txnEnd_kept ‹_›)
  split
  split
  refine KeptFst.mk' ?_
  apply State.txnEnd_kept
  refine KeptFst.of ‹_› ?_
  split
  apply State.nvjWrite_kept
  refine KeptOpt.of ?_ ‹_›
  exact State.dmaWrite_kept ‹_›
  refine KeptFst.mk' ?_
  refine KeptOpt.of ?_ ‹_›
  exact State.dmaWrite_kept ‹_›
  lift_lets -underBinder
  intro s3; refine via (p := Kept orig s3) ?_ fun hk => ?_; dsimp only [s3]
  apply State.countHub_kept
  apply State.onFlow_kept
  refine KeptFst.of ‹_› ?_
  split
  apply State.nvjWrite_kept
  refine KeptOpt.of ?_ ‹_›
  exact State.dmaWrite_kept ‹_›
  refine KeptFst.mk' ?_
  refine KeptOpt.of ?_ ‹_›
  exact State.dmaWrite_kept ‹_›
  clear_value s3
  intro st; try clear_value st
  exact KeptFst.mk' (State.txnEnd_kept ‹_›)
theorem State.deliverReply_kept {s : State} (hk : Kept orig s) {fl : Nat} {m : Inbound} {nv : Verifies} : KeptFst orig
    (State.deliverReply s fl m nv) := by
  unfold State.deliverReply
  lift_lets -underBinder
  intro q; try clear_value q
  split
  exact KeptFst.mk' (State.twErr_kept (State.onFlow_kept ‹_›))
  lift_lets -underBinder
  intro part; try clear_value part
  intro stamp; try clear_value stamp
  split
  exact KeptFst.mk' (State.txnEnd_kept ‹_›)
  split
  split
  refine KeptFst.mk' ?_
  apply State.txnEnd_kept
  refine KeptFst.of ‹_› ?_
  split
  apply State.nvjWrite_kept
  refine KeptOpt.of ?_ ‹_›
  exact State.dmaWrite_kept ‹_›
  refine KeptFst.mk' ?_
  refine KeptOpt.of ?_ ‹_›
  exact State.dmaWrite_kept ‹_›
  lift_lets -underBinder
  intro s3; refine via (p := Kept orig s3) ?_ fun hk => ?_; dsimp only [s3]
  apply State.countHub_kept
  apply State.onFlow_kept
  refine KeptFst.of ‹_› ?_
  split
  apply State.nvjWrite_kept
  refine KeptOpt.of ?_ ‹_›
  exact State.dmaWrite_kept ‹_›
  refine KeptFst.mk' ?_
  refine KeptOpt.of ?_ ‹_›
  exact State.dmaWrite_kept ‹_›
  clear_value s3
  intro st; try clear_value st
  exact KeptFst.mk' (State.txnEnd_kept ‹_›)
theorem State.arrive_kept {s : State} (hk : Kept orig s) {m : Inbound} {nv : Verifies} : KeptFst orig (State.arrive s m nv) :=
    by
  unfold State.arrive
  lift_lets -underBinder
  intro q; try clear_value q
  intro inc; try clear_value inc
  split
  exact KeptFst.mk' ‹_›
  split
  exact KeptFst.mk' ‹_›
  split
  exact KeptFst.mk' ‹_›
  lift_lets -underBinder
  intro f0; try clear_value f0
  intro si; try clear_value si
  intro n; try clear_value n
  intro f; try clear_value f
  intro s2; refine via (p := Kept orig s2) ?_ fun hk => ?_; dsimp only [s2]
  apply State.onFlow_kept
  refine KeptOptFst.of ?_ ‹_›
  exact State.flowOpen_kept ‹_›
  clear_value s2
  split
  exact KeptFst.mk' (State.twErr_kept (State.onFlow_kept ‹_›))
  split
  exact KeptFst.mk' ‹_›
  split
  exact KeptFst.mk' (State.twErr_kept (State.onFlow_kept ‹_›))
  split
  exact State.deliverReply_kept ‹_›
  exact State.deliver_kept ‹_›
theorem State.sendControl_kept {s : State} (hk : Kept orig s) {p : Packet} {l : Nat} : Kept orig (State.sendControl s p l) :=
    by
  unfold State.sendControl
  split
  exact State.linkPush_kept ‹_›
  exact State.linkErr_kept (State.linkCount_kept ‹_›)
  exact State.linkErr_kept ‹_›
  lift_lets -underBinder
  intro tg; try clear_value tg
  split
  exact State.ackIn_kept ‹_›
  exact State.refuseIn_kept ‹_›
theorem State.answerPeer_kept {s : State} (hk : Kept orig s) {m : Inbound} {a : Answer} {l : Nat} : Kept orig
    (State.answerPeer s m a l) := by
  unfold State.answerPeer
  split
  assumption
  exact State.sendControl_kept ‹_›
  exact State.sendControl_kept ‹_›
theorem State.answerLocal_kept {s : State} (hk : Kept orig s) {m : Inbound} {target : Nat} {a : Answer} : Kept orig
    (State.answerLocal s m target a) := by
  unfold State.answerLocal
  split
  assumption
  exact State.ackIn_kept ‹_›
  exact State.refuseIn_kept ‹_›
theorem State.attempt_kept {s : State} (hk : Kept orig s) {q : Nat} {t : Txn} {nv : Verifies} : Kept orig (State.attempt s q t
    nv) := by
  unfold State.attempt
  split
  lift_lets -underBinder
  intro m; try clear_value m
  split
  apply State.answerLocal_kept
  refine KeptFst.of ‹_› ?_
  exact State.arrive_kept ‹_›
  lift_lets -underBinder
  intro dev; try clear_value dev
  intro dq; try clear_value dq
  intro ps; try clear_value ps
  split
  assumption
  split
  refine List.foldl_kept ?_ ?_
  assumption
  intro t u a
  exact State.linkPush_kept ‹_›
  lift_lets -underBinder
  intro m; try clear_value m
  split
  apply State.answerLocal_kept
  refine KeptFst.of ‹_› ?_
  exact State.arrive_kept ‹_›
  exact State.refuseIn_kept (State.linkErr_kept ‹_›)

end Sys2Proof.Machine
end

