-- ==== Sys2Proof/Laws/KeptEngines.lean ====
section
/-! SUPPORT. `Kept` of the operations of the links, the pools of engines and Tradewind. -/

namespace Sys2Proof.Machine

variable {orig : State}

theorem State.setLinkState_kept {s : State} (hk : Kept orig s) {l st : Nat} : Kept orig (State.setLinkState s l st) :=
  State.event_kept (State.setFld_kept hk)
theorem State.linkWord_kept {s : State} (hk : Kept orig s) {l kind value : Nat} : Kept orig (State.linkWord s l kind value) :=
  State.emit_kept hk
theorem State.linkTrain_kept {s : State} (hk : Kept orig s) {l : Nat} : Kept orig (State.linkTrain s l) := by
  unfold State.linkTrain
  lift_lets -underBinder
  intro s1; refine via (p := Kept orig s1) ?_ fun hk => ?_; dsimp only [s1]
  exact State.onLink_kept ‹_›
  clear_value s1
  split
  exact State.linkWord_kept ‹_›
  assumption
theorem State.noRoute_kept {s : State} (hk : Kept orig s) {p : Packet} {l : Nat} : Kept orig (State.noRoute s p l) := by
  unfold State.noRoute
  lift_lets -underBinder
  intro s1; refine via (p := Kept orig s1) ?_ fun hk => ?_; dsimp only [s1]
  exact State.linkErr_kept ‹_›
  clear_value s1
  intro u; try clear_value u
  split
  exact State.sendControl_kept ‹_›
  assumption
theorem State.reroute_kept {s : State} (hk : Kept orig s) {l : Nat} {q : QPkt} : Kept orig (State.reroute s l q) := by
  unfold State.reroute
  lift_lets -underBinder
  intro u; try clear_value u
  intro p; try clear_value p
  split
  exact State.linkPush_kept ‹_›
  exact State.noRoute_kept ‹_›
theorem State.linkVacate_kept {s : State} (hk : Kept orig s) {l : Nat} : Kept orig (State.linkVacate s l) := by
  unfold State.linkVacate
  lift_lets -underBinder
  intro u; try clear_value u
  intro s1; refine via (p := Kept orig s1) ?_ fun hk => ?_; dsimp only [s1]
  exact State.onLink_kept ‹_›
  clear_value s1
  refine List.foldl_kept ?_ ?_
  assumption
  intro t u a
  exact State.reroute_kept ‹_›
theorem State.parentLost_kept {s : State} (hk : Kept orig s) {l : Nat} : Kept orig (State.parentLost s l) := by
  unfold State.parentLost
  split
  lift_lets -underBinder
  intro s1; refine via (p := Kept orig s1) ?_ fun hk => ?_; dsimp only [s1]
  exact State.setFlag_kept ‹_›
  clear_value s1
  split
  exact State.sourceLost_kept ‹_›
  assumption
  assumption
theorem State.linkDown_kept {s : State} (hk : Kept orig s) {l cause : Nat} : Kept orig (State.linkDown s l cause) := by
  unfold State.linkDown
  split
  assumption
  lift_lets -underBinder
  intro was; try clear_value was
  intro s1; refine via (p := Kept orig s1) ?_ fun hk => ?_; dsimp only [s1]
  exact State.onLink_kept (State.setFld_kept ‹_›)
  clear_value s1
  intro s2; refine via (p := Kept orig s2) ?_ fun hk => ?_; dsimp only [s2]
  exact State.setLinkState_kept ‹_›
  clear_value s2
  intro s3; refine via (p := Kept orig s3) ?_ fun hk => ?_; dsimp only [s3]
  split
  exact State.linkErr_kept (State.linkCount_kept (State.linkVacate_kept ‹_›))
  exact State.linkVacate_kept ‹_›
  clear_value s3
  intro s4; refine via (p := Kept orig s4) ?_ fun hk => ?_; dsimp only [s4]
  exact State.parentLost_kept ‹_›
  clear_value s4
  split
  exact State.linkTrain_kept ‹_›
  assumption
theorem State.lnkCfgWrite_kept {s : State} (hk : Kept orig s) {l v : Nat} : Kept orig (State.lnkCfgWrite s l v) := by
  unfold State.lnkCfgWrite
  lift_lets -underBinder
  intro off; try clear_value off
  intro old; try clear_value old
  intro w0; try clear_value w0
  intro w; try clear_value w
  intro new; try clear_value new
  intro s1; refine via (p := Kept orig s1) ?_ fun hk => ?_; dsimp only [s1]
  exact State.setReg_kept ‹_›
  clear_value s1
  intro ok; try clear_value ok
  intro s2; refine via (p := Kept orig s2) ?_ fun hk => ?_; dsimp only [s2]
  exact State.onLink_kept (State.setFld_kept (State.setFld_kept ‹_›))
  clear_value s2
  split
  assumption
  split
  split
  exact State.linkTrain_kept (State.setLinkState_kept ‹_›)
  assumption
  split
  exact State.linkDown_kept ‹_›
  assumption
theorem State.portCfgPut_kept {s : State} (hk : Kept orig s) {p v : Nat} : Kept orig (State.portCfgPut s p v) := by
  unfold State.portCfgPut
  lift_lets -underBinder
  intro s1; refine via (p := Kept orig s1) ?_ fun hk => ?_; dsimp only [s1]
  exact State.portCfgWrite_kept ‹_›
  clear_value s1
  split
  split
  assumption
  exact State.linkDown_kept ‹_›
  assumption
theorem execInitReceived_kept {s : State} (hk : Kept orig s) {l width rate : Nat} {confirmed : Bool} : KeptOut orig
    (execInitReceived l width rate confirmed s) := by
  unfold execInitReceived
  apply forUnit_kept
  assumption
  intro y0 a
  lift_lets -underBinder
  intro st; try clear_value st
  intro s1; refine via (p := Kept orig s1) ?_ fun hk => ?_; dsimp only [s1]
  exact State.linkWord_kept (State.onLink_kept ‹_›)
  clear_value s1
  intro s2; refine via (p := Kept orig s2) ?_ fun hk => ?_; dsimp only [s2]
  exact State.onLink_kept ‹_›
  clear_value s2
  split
  assumption
  split
  exact State.linkErr_kept ‹_›
  split
  split
  exact State.linkErr_kept (State.setLinkState_kept ‹_›)
  exact State.linkErr_kept ‹_›
  assumption
theorem execAlignSend_kept {s : State} (hk : Kept orig s) {l lane : Nat} : KeptOut orig (execAlignSend l lane s) := by
  unfold execAlignSend
  apply forUnit_kept
  assumption
  intro y0 a
  split
  exact State.linkWord_kept ‹_›
  assumption
theorem State.resend_kept {s : State} (hk : Kept orig s) {l : Nat} : Kept orig (State.resend s l) := by
  unfold State.resend
  lift_lets -underBinder
  intro u; try clear_value u
  intro s1; refine via (p := Kept orig s1) ?_ fun hk => ?_; dsimp only [s1]
  exact State.onLink_kept ‹_›
  clear_value s1
  split
  assumption
  split
  exact State.linkDown_kept ‹_›
  refine List.foldl_kept ?_ ?_
  assumption
  intro t u a
  exact State.linkCount_kept (State.emit_kept ‹_›)
theorem State.ackLink_kept {s : State} (hk : Kept orig s) {l seq : Nat} : Kept orig (State.ackLink s l seq) := by
  unfold State.ackLink
  lift_lets -underBinder
  intro u; try clear_value u
  split
  assumption
  lift_lets -underBinder
  intro s1; refine via (p := Kept orig s1) ?_ fun hk => ?_; dsimp only [s1]
  exact State.onLink_kept ‹_›
  clear_value s1
  split
  exact State.setFld_kept ‹_›
  assumption
theorem execLackReceived_kept {s : State} (hk : Kept orig s) {l : Nat} {seq : BitVec 8} {negative : Bool} : KeptOut orig
    (execLackReceived l seq negative s) := by
  unfold execLackReceived
  apply forUnit_kept
  assumption
  intro y0 a
  split
  assumption
  split
  lift_lets -underBinder
  intro s1; refine via (p := Kept orig s1) ?_ fun hk => ?_; dsimp only [s1]
  exact State.ackLink_kept ‹_›
  clear_value s1
  split
  exact State.resend_kept ‹_›
  assumption
  exact State.ackLink_kept ‹_›
theorem execCreditReceived_kept {s : State} (hk : Kept orig s) {l vc n : Nat} : KeptOut orig (execCreditReceived l vc n s) :=
    by
  unfold execCreditReceived
  apply forUnit_kept
  assumption
  intro y0 a
  split
  exact State.onLink_kept ‹_›
  assumption
theorem execReplayTimeout_kept {s : State} (hk : Kept orig s) {l : Nat} : KeptOut orig (execReplayTimeout l s) := by
  unfold execReplayTimeout
  apply forUnit_kept
  assumption
  intro y0 a
  split
  exact State.resend_kept ‹_›
  assumption
theorem execPacketSend_kept {s : State} (hk : Kept orig s) {l : Nat} : KeptOut orig (execPacketSend l s) := by
  unfold execPacketSend
  apply forUnit_kept
  assumption
  intro y0 a
  lift_lets -underBinder
  intro u; try clear_value u
  intro s0; refine via (p := Kept orig s0) ?_ fun hk => ?_; dsimp only [s0]
  split
  assumption
  exact State.linkCount_kept ‹_›
  clear_value s0
  split
  assumption
  split
  assumption
  lift_lets -underBinder
  intro u; try clear_value u
  intro p; try clear_value p
  intro vc; try clear_value vc
  intro s1; refine via (p := Kept orig s1) ?_ fun hk => ?_; dsimp only [s1]
  exact State.onLink_kept ‹_›
  clear_value s1
  exact State.emit_kept (State.linkCount_kept ‹_›)
theorem execLackSend_kept {s : State} (hk : Kept orig s) {l : Nat} : KeptOut orig (execLackSend l s) := by
  unfold execLackSend
  apply forUnit_kept
  assumption
  intro y0 a
  split
  exact State.linkWord_kept (State.onLink_kept ‹_›)
  assumption
theorem execLinkRxError_kept {s : State} (hk : Kept orig s) {l : Nat} {e : RxError} : KeptOut orig (execLinkRxError l e s) :=
    by
  unfold execLinkRxError
  apply forUnit_kept
  assumption
  intro y0 a
  split
  assumption
  lift_lets -underBinder
  intro s1; refine via (p := Kept orig s1) ?_ fun hk => ?_; dsimp only [s1]
  split
  exact State.linkCount_kept ‹_›
  exact State.linkCount_kept ‹_›
  assumption
  clear_value s1
  split
  assumption
  exact State.linkWord_kept (State.onLink_kept ‹_›)
theorem State.linkAccept_kept {s : State} (hk : Kept orig s) {l : Nat} {p : Packet} : Kept orig (State.linkAccept s l p) := by
  unfold State.linkAccept
  lift_lets -underBinder
  intro s1; refine via (p := Kept orig s1) ?_ fun hk => ?_; dsimp only [s1]
  exact State.onLink_kept ‹_›
  clear_value s1
  exact State.linkWord_kept (State.linkCount_kept ‹_›)
theorem State.laneLost_kept {s : State} (hk : Kept orig s) {l lane : Nat} : Kept orig (State.laneLost s l lane) := by
  unfold State.laneLost
  lift_lets -underBinder
  intro s1; refine via (p := Kept orig s1) ?_ fun hk => ?_; dsimp only [s1]
  exact State.setFlag_kept ‹_›
  clear_value s1
  intro n; try clear_value n
  intro b; try clear_value b
  intro st; try clear_value st
  intro b'; try clear_value b'
  intro half; try clear_value half
  intro s2; refine via (p := Kept orig s2) ?_ fun hk => ?_; dsimp only [s2]
  exact State.setLinkState_kept (State.setFld_kept ‹_›)
  clear_value s2
  intro s3; refine via (p := Kept orig s3) ?_ fun hk => ?_; dsimp only [s3]
  exact State.parentLost_kept (State.linkErr_kept (State.linkVacate_kept (State.onLink_kept ‹_›)))
  clear_value s3
  split
  assumption
  split
  exact State.linkDown_kept ‹_›
  exact State.linkTrain_kept ‹_›
theorem execLaneLoss_kept {s : State} (hk : Kept orig s) {l lane : Nat} : KeptOut orig (execLaneLoss l lane s) := by
  unfold execLaneLoss
  apply forUnit_kept
  assumption
  intro y0 a
  split
  exact State.laneLost_kept (State.setFlag_kept (State.onPort_kept ‹_›))
  assumption
theorem State.laneUp_kept {s : State} (hk : Kept orig s) {l lane : Nat} : Kept orig (State.laneUp s l lane) := by
  unfold State.laneUp
  lift_lets -underBinder
  intro s1; refine via (p := Kept orig s1) ?_ fun hk => ?_; dsimp only [s1]
  exact State.setFlag_kept ‹_›
  clear_value s1
  split
  assumption
  exact State.linkTrain_kept ‹_›
theorem execBlockLockAcquired_kept {s : State} (hk : Kept orig s) {p : Nat} : KeptOut orig (execBlockLockAcquired p s) := by
  unfold execBlockLockAcquired
  apply forUnit_kept
  assumption
  intro y0 a
  split
  assumption
  lift_lets -underBinder
  intro s1; refine via (p := Kept orig s1) ?_ fun hk => ?_; dsimp only [s1]
  exact State.linkEval_kept (State.setFlag_kept (State.onPort_kept ‹_›))
  clear_value s1
  split
  exact State.laneUp_kept ‹_›
  assumption
theorem execBlockLockLoss_kept {s : State} (hk : Kept orig s) {p : Nat} : KeptOut orig (execBlockLockLoss p s) := by
  unfold execBlockLockLoss
  apply forUnit_kept
  assumption
  intro y0 a
  lift_lets -underBinder
  intro s1; refine via (p := Kept orig s1) ?_ fun hk => ?_; dsimp only [s1]
  exact State.lockLost_kept ‹_›
  clear_value s1
  split
  exact State.setFlag_kept ‹_›
  assumption
theorem execSpareLaneMove_kept {s : State} (hk : Kept orig s) {p : Nat} {ok : Bool} : KeptOut orig (execSpareLaneMove p ok s)
    := by
  unfold execSpareLaneMove
  apply forUnit_kept
  assumption
  intro y0 a
  lift_lets -underBinder
  intro s1; refine via (p := Kept orig s1) ?_ fun hk => ?_; dsimp only [s1]
  exact State.spareLane_kept ‹_›
  clear_value s1
  split
  split
  lift_lets -underBinder
  intro s2; refine via (p := Kept orig s2) ?_ fun hk => ?_; dsimp only [s2]
  exact State.setFlag_kept ‹_›
  clear_value s2
  split
  exact State.linkDown_kept ‹_›
  exact State.linkTrain_kept ‹_›
  assumption
  assumption
theorem State.forward_kept {s : State} (hk : Kept orig s) {l : Nat} {p : Packet} : Kept orig (State.forward s l p) := by
  unfold State.forward
  split
  exact State.linkPush_kept ‹_›
  exact State.linkErr_kept (State.linkCount_kept ‹_›)
  exact State.noRoute_kept ‹_›
  assumption
theorem State.assemble_kept {s : State} (hk : Kept orig s) {l : Nat} {r : Reasm} {nv : Verifies} : Kept orig (State.assemble s
    l r nv) := by
  unfold State.assemble
  split
  lift_lets -underBinder
  intro m; try clear_value m
  split
  apply State.answerPeer_kept
  refine KeptFst.of ‹_› ?_
  exact State.arrive_kept ‹_›
  apply kept_mk
  assumption
theorem State.dataIn_kept {s : State} (hk : Kept orig s) {l : Nat} {p : Packet} {nv : Verifies} : Kept orig (State.dataIn s l
    p nv) := by
  unfold State.dataIn
  lift_lets -underBinder
  intro e; try clear_value e
  intro fresh; try clear_value fresh
  split
  split
  assumption
  exact State.assemble_kept ‹_›
  apply State.assemble_kept
  apply kept_mk
  assumption
theorem State.controlIn_kept {s : State} (hk : Kept orig s) {p : Packet} : Kept orig (State.controlIn s p) := by
  unfold State.controlIn
  lift_lets -underBinder
  intro tg; try clear_value tg
  split
  exact State.ackIn_kept ‹_›
  exact State.refuseIn_kept ‹_›
theorem State.packetIn_kept {s : State} (hk : Kept orig s) {l : Nat} {p : Packet} {nv : Verifies} : Kept orig (State.packetIn
    s l p nv) := by
  unfold State.packetIn
  split
  assumption
  lift_lets -underBinder
  intro s1; refine via (p := Kept orig s1) ?_ fun hk => ?_; dsimp only [s1]
  exact State.linkAccept_kept ‹_›
  clear_value s1
  intro t; try clear_value t
  split
  exact State.linkErr_kept ‹_›
  split
  split
  exact State.dataIn_kept ‹_›
  split
  exact State.controlIn_kept ‹_›
  assumption
  exact State.forward_kept ‹_›
theorem execPacketForward_kept {s : State} (hk : Kept orig s) {l : Nat} {p : Packet} : KeptOut orig (execPacketForward l p s)
    := by
  unfold execPacketForward
  apply forUnit_kept
  assumption
  intro y0 a
  exact State.packetIn_kept ‹_›
theorem execDataPacket_kept {s : State} (hk : Kept orig s) {l : Nat} {p : Packet} {nv : Verifies} : KeptOut orig
    (execDataPacket l p nv s) := by
  unfold execDataPacket
  apply forUnit_kept
  assumption
  intro y0 a
  split
  exact State.packetIn_kept ‹_›
  assumption
theorem execAckPacket_kept {s : State} (hk : Kept orig s) {l : Nat} {p : Packet} : KeptOut orig (execAckPacket l p s) := by
  unfold execAckPacket
  apply forUnit_kept
  assumption
  intro y0 a
  split
  exact State.packetIn_kept ‹_›
  assumption
theorem execRefusePacket_kept {s : State} (hk : Kept orig s) {l : Nat} {p : Packet} : KeptOut orig (execRefusePacket l p s) :=
    by
  unfold execRefusePacket
  apply forUnit_kept
  assumption
  intro y0 a
  split
  exact State.packetIn_kept ‹_›
  assumption
theorem execReassemblyTimeout_kept {s : State} (hk : Kept orig s) {e : Nat} : KeptOut orig (execReassemblyTimeout e s) := by
  unfold execReassemblyTimeout
  apply forUnit_kept
  assumption
  intro y0 a
  apply kept_mk
  assumption
theorem execTsyncSend_kept {s : State} (hk : Kept orig s) {l : Nat} : KeptOut orig (execTsyncSend l s) := by
  unfold execTsyncSend
  apply forUnit_kept
  assumption
  intro y0 a
  split
  lift_lets -underBinder
  intro id; try clear_value id
  exact State.linkWord_kept (State.onLink_kept ‹_›)
  assumption
theorem execTsyncRequestReceived_kept {s : State} (hk : Kept orig s) {l : Nat} {ident : BitVec 8} : KeptOut orig
    (execTsyncRequestReceived l ident s) := by
  unfold execTsyncRequestReceived
  apply forUnit_kept
  assumption
  intro y0 a
  split
  lift_lets -underBinder
  intro isl; try clear_value isl
  intro u; try clear_value u
  intro p; try clear_value p
  exact State.onLink_kept (State.linkWord_kept ‹_›)
  assumption
theorem State.measure_kept {s : State} (hk : Kept orig s) {l : Nat} {m : Tsync} {t4 t2 t3 : Stamp} : Kept orig (State.measure
    s l m t4 t2 t3) := by
  unfold State.measure
  lift_lets -underBinder
  intro there; try clear_value there
  intro back; try clear_value back
  intro asym; try clear_value asym
  intro s1; refine via (p := Kept orig s1) ?_ fun hk => ?_; dsimp only [s1]
  exact State.onLink_kept ‹_›
  clear_value s1
  intro ms; try clear_value ms
  intro off; try clear_value off
  intro del; try clear_value del
  exact State.setReg_kept ‹_›
theorem State.onTsync_kept {s : State} (hk : Kept orig s) {l id : Nat} {f : Tsync → Tsync} : Kept orig (State.onTsync s l id
    f) := by
  unfold State.onTsync
  split
  assumption
  lift_lets -underBinder
  intro m1; try clear_value m1
  split
  exact State.measure_kept ‹_›
  exact State.onLink_kept ‹_›
theorem execTsyncReplyReceived_kept {s : State} (hk : Kept orig s) {l : Nat} {ident : BitVec 8} : KeptOut orig
    (execTsyncReplyReceived l ident s) := by
  unfold execTsyncReplyReceived
  apply forUnit_kept
  assumption
  intro y0 a
  split
  exact State.onTsync_kept ‹_›
  assumption
theorem execTimePacket_kept {s : State} (hk : Kept orig s) {l : Nat} {ident : BitVec 8} {t2 t3 : Stamp} : KeptOut orig
    (execTimePacket l ident t2 t3 s) := by
  unfold execTimePacket
  apply forUnit_kept
  assumption
  intro y0 a
  split
  lift_lets -underBinder
  intro u; try clear_value u
  intro p; try clear_value p
  exact State.onTsync_kept (State.linkAccept_kept ‹_›)
  assumption
theorem State.sendForm_kept {s : State} (hk : Kept orig s) {l : Nat} {n : FormNode} : Kept orig (State.sendForm s l n) := by
  unfold State.sendForm
  lift_lets -underBinder
  intro u; try clear_value u
  intro p; try clear_value p
  exact State.onLink_kept ‹_›
theorem State.flood_kept {s : State} (hk : Kept orig s) {but : Option Nat} {n : FormNode} : Kept orig (State.flood s but n) :=
    by
  unfold State.flood
  refine List.foldl_kept ?_ ?_
  assumption
  intro t u a
  exact State.sendForm_kept ‹_›
theorem execFormPacket_kept {s : State} (hk : Kept orig s) {l : Nat} {n : FormNode} : KeptOut orig (execFormPacket l n s) :=
    by
  unfold execFormPacket
  apply forUnit_kept
  assumption
  intro y0 a
  split
  assumption
  lift_lets -underBinder
  intro s1; refine via (p := Kept orig s1) ?_ fun hk => ?_; dsimp only [s1]
  exact State.linkAccept_kept ‹_›
  clear_value s1
  intro t; refine via (p := Kept orig t) ?_ fun hk => ?_; dsimp only [t]
  exact State.setFlag_kept (State.onLink_kept ‹_›)
  clear_value t
  intro s2; refine via (p := Kept orig s2) ?_ fun hk => ?_; dsimp only [s2]
  split
  assumption
  exact State.setFld_kept ‹_›
  clear_value s2
  split
  assumption
  apply State.flood_kept
  apply kept_mk
  assumption
theorem State.dupMember_kept {s : State} (hk : Kept orig s) {part : List FormNode} : Kept orig (State.dupMember s part) := by
  unfold State.dupMember
  split
  assumption
  split
  split
  assumption
  exact State.event_kept (State.linkErr_kept (State.setFlag_kept ‹_›))
  assumption
theorem State.writeMembers_kept {s : State} (hk : Kept orig s) {ns part : List FormNode} {dist : Tbl Nat} : Kept orig
    (State.writeMembers s ns part dist) := by
  unfold State.writeMembers
  lift_lets -underBinder
  intro ids; try clear_value ids
  refine List.foldl_kept ?_ ?_
  assumption
  intro t u a
  lift_lets -underBinder
  intro e; try clear_value e
  exact State.setReg_kept ‹_›
theorem State.setParent_kept {s : State} (hk : Kept orig s) {dist : Tbl Nat} : Kept orig (State.setParent s dist) := by
  unfold State.setParent
  lift_lets -underBinder
  intro d; try clear_value d
  intro up; try clear_value up
  intro p; try clear_value p
  refine List.foldl_kept ?_ ?_
  assumption
  intro t u a
  split
  assumption
  exact State.setFlag_kept ‹_›
theorem State.formNow_kept {s : State} (hk : Kept orig s) : Kept orig (State.formNow s) := by
  unfold State.formNow
  lift_lets -underBinder
  intro s1; refine via (p := Kept orig s1) ?_ fun hk => ?_; dsimp only [s1]
  exact State.flood_kept ‹_›
  clear_value s1
  intro ns; try clear_value ns
  intro reach; try clear_value reach
  intro part; try clear_value part
  intro s2; refine via (p := Kept orig s2) ?_ fun hk => ?_; dsimp only [s2]
  exact State.dupMember_kept ‹_›
  clear_value s2
  split
  assumption
  lift_lets -underBinder
  intro dist; try clear_value dist
  exact State.setParent_kept (State.writeMembers_kept ‹_›)
theorem execFormation_kept {s : State} (hk : Kept orig s) : KeptOut orig (execFormation s) :=
  KeptOut.next (State.formNow_kept hk)
theorem State.onPools_kept {s : State} (hk : Kept orig s) {f : Pools → Pools} : Kept orig (State.onPools s f) := by
  unfold State.onPools
  apply kept_mk
  assumption
theorem State.onJEng_kept {s : State} (hk : Kept orig s) {p : Pool} {e : Nat} {f : JEngine → JEngine} : Kept orig
    (State.onJEng s p e f) :=
  State.onPools_kept hk
theorem State.onJRing_kept {s : State} (hk : Kept orig s) {p : Pool} {j : Nat} {f : JRing → JRing} : Kept orig (State.onJRing
    s p j f) :=
  State.onPools_kept hk
theorem State.jEvent_kept {s : State} (hk : Kept orig s) {p : Pool} {i cause slot : Nat} : Kept orig (State.jEvent s p i cause
    slot) :=
  State.raise_kept (State.logCause_kept hk)
theorem State.jRunFlag_kept {s : State} (hk : Kept orig s) {p : Pool} {j : Nat} : Kept orig (State.jRunFlag s p j) :=
  State.setFlag_kept hk
theorem State.dmaThrough_kept {s : State} (hk : Kept orig s) {a : Nat} {bs : List Byte} : KeptOpt orig (State.dmaThrough s a
    bs) := by
  unfold State.dmaThrough
  refine Option.map_kept ?_ ?_
  exact State.dmaWrite_kept ‹_›
  intro t a
  refine List.foldl_kept ?_ ?_
  assumption
  intro t u a
  exact State.devClean_kept ‹_›
theorem State.jWriteOne_kept {s : State} (hk : Kept orig s) {p : Pool} {j : Nat} : KeptOpt orig (State.jWriteOne s p j) := by
  unfold State.jWriteOne
  split
  exact KeptOpt.none
  lift_lets -underBinder
  intro n; try clear_value n
  intro tail; try clear_value tail
  intro s1; refine via (p := Kept orig s1) ?_ fun hk => ?_; dsimp only [s1]
  apply Option.getD_kept
  assumption
  exact State.dmaThrough_kept ‹_›
  clear_value s1
  intro s2; refine via (p := Kept orig s2) ?_ fun hk => ?_; dsimp only [s2]
  exact State.onJRing_kept (State.setReg_kept ‹_›)
  clear_value s2
  split
  refine KeptOpt.some ?_
  split
  exact State.twNotify_kept ‹_›
  assumption
  exact KeptOpt.none
theorem State.jFlushN_kept {s : State} (hk : Kept orig s) {p : Pool} {j k3 : Nat} : Kept orig (State.jFlushN s p j k3) := by
  induction k3 generalizing s p j
  case' succ _ ih => unfold State.jFlushN
  case' zero => unfold State.jFlushN
  exact State.setFlag_kept ‹_›
  split
  apply ih
  refine KeptOpt.of ?_ ‹_›
  exact State.jWriteOne_kept ‹_›
  exact State.setFlag_kept ‹_›
theorem State.jFlush_kept {s : State} (hk : Kept orig s) {p : Pool} {j : Nat} : Kept orig (State.jFlush s p j) :=
  State.jFlushN_kept hk
theorem State.jComplete_kept {s : State} (hk : Kept orig s) {p : Pool} {j : Nat} {d record : List Byte} : Kept orig
    (State.jComplete s p j d record) :=
  State.jFlush_kept (State.onJRing_kept hk)
theorem State.jTailWrite_kept {s : State} (hk : Kept orig s) {p : Pool} {j master v : Nat} : KeptFst orig (State.jTailWrite s
    p j master v) := by
  unfold State.jTailWrite
  split
  exact KeptFst.mk' (State.jEvent_kept ‹_›)
  split
  exact KeptFst.mk' (State.jEvent_kept (State.setFlag_kept ‹_›))
  exact KeptFst.mk' (State.onJRing_kept (State.setReg_kept ‹_›))
theorem State.streamRecord_kept {s : State} (hk : Kept orig s) {op fmt : Nat} {saved : Bool} {st : Stream} : KeptSnd orig
    (State.streamRecord s op fmt saved st) := by
  unfold State.streamRecord
  split
  split
  lift_lets -underBinder
  intro bs; try clear_value bs
  refine KeptSnd.mk' ?_
  refine KeptSnd.of ‹_› ?_
  apply State.freshBytes_kept
  refine KeptSnd.of ‹_› ?_
  exact State.freshBytes_kept ‹_›
theorem State.jTake_kept {s : State} (hk : Kept orig s) {p : Pool} {e : Nat} {job : Job} : Kept orig (State.jTake s p e job)
    :=
  State.jRunFlag_kept (State.setFlag_kept (State.setFld_kept (State.onJEng_kept hk)))
theorem State.jFree_kept {s : State} (hk : Kept orig s) {p : Pool} {e ring : Nat} : Kept orig (State.jFree s p e ring) :=
  State.jRunFlag_kept (State.setFlag_kept (State.onJEng_kept hk))
theorem State.jDispatch_kept {s : State} (hk : Kept orig s) {p : Pool} {e j : Nat} : Kept orig (State.jDispatch s p e j) := by
  unfold State.jDispatch
  lift_lets -underBinder
  intro h; try clear_value h
  intro s1; refine via (p := Kept orig s1) ?_ fun hk => ?_; dsimp only [s1]
  exact State.onJRing_kept (State.setReg_kept ‹_›)
  clear_value s1
  intro s2; refine via (p := Kept orig s2) ?_ fun hk => ?_; dsimp only [s2]
  exact State.onPools_kept ‹_›
  clear_value s2
  split
  exact State.jComplete_kept ‹_›
  split
  lift_lets -underBinder
  intro s3; refine via (p := Kept orig s3) ?_ fun hk => ?_; dsimp only [s3]
  split
  exact State.jEvent_kept ‹_›
  assumption
  clear_value s3
  exact State.jComplete_kept ‹_›
  lift_lets -underBinder
  intro base; try clear_value base
  exact State.jTake_kept ‹_›
theorem State.jNext_kept {s : State} (hk : Kept orig s) {p : Pool} {e : Nat} : Kept orig (State.jNext s p e) := by
  unfold State.jNext
  split
  assumption
  split
  exact State.jTake_kept (State.onPools_kept ‹_›)
  split
  exact State.jDispatch_kept ‹_›
  assumption
theorem State.onJob_kept {s : State} (hk : Kept orig s) {p : Pool} {e : Nat} {f : Job → Job} : Kept orig (State.onJob s p e f)
    :=
  State.onJEng_kept hk
theorem State.jobEnd_kept {s : State} (hk : Kept orig s) {p : Pool} {e : Nat} {f : JobEnd} : Kept orig (State.jobEnd s p e f)
    :=
  State.onJob_kept hk
theorem State.jCount_kept {s : State} (hk : Kept orig s) {p : Pool} {x : Job} : Kept orig (State.jCount s p x) := by
  unfold State.jCount
  split
  exact State.countHub_kept (State.countHub_kept (State.countHub_kept ‹_›))
  exact State.countHub_kept (State.countHub_kept ‹_›)
theorem State.jobFinish_kept {s : State} (hk : Kept orig s) {p : Pool} {e : Nat} {x : Job} {f : JobEnd} : Kept orig
    (State.jobFinish s p e x f) := by
  unfold State.jobFinish
  split
  exact State.engStopped_kept (State.jComplete_kept (State.jCount_kept (State.jFree_kept ‹_›)))
theorem State.prismSave_kept {s : State} (hk : Kept orig s) {x : Job} {full : Bool} {st : Stream} : KeptOpt orig
    (State.prismSave s x full st) := by
  unfold State.prismSave
  lift_lets -underBinder
  intro a; try clear_value a
  split
  split
  exact KeptOpt.none
  split
  apply State.dmaThrough_kept
  refine KeptOpt.of ?_ ‹_›
  apply State.dmaThrough_kept
  refine KeptSnd.of ‹_› ?_
  exact State.streamRecord_kept ‹_›
  refine KeptOpt.some ?_
  refine KeptOpt.of ?_ ‹_›
  apply State.dmaThrough_kept
  refine KeptSnd.of ‹_› ?_
  exact State.streamRecord_kept ‹_›
theorem forEngine_kept {s : State} (hk : Kept orig s) {e : Nat} {f : State → State} (kept_f : ∀ y0, Kept orig y0 → Kept
    orig (f y0)) : KeptOut orig (forEngine e s f) := by
  unfold forEngine
  apply forUnit_kept hk
  intro y hy
  split
  assumption
  exact kept_f y hy
theorem execPrismJobEnd_kept {s : State} (hk : Kept orig s) {e : Nat} : KeptOut orig (execPrismJobEnd e s) := by
  unfold execPrismJobEnd
  apply forEngine_kept
  assumption
  intro y0 a
  split
  assumption
  split
  assumption
  split
  split
  apply State.jobFinish_kept
  refine KeptOpt.of ?_ ‹_›
  exact State.prismSave_kept ‹_›
  exact State.jobFinish_kept ‹_›
  exact State.jobFinish_kept ‹_›
theorem execCipherJobEnd_kept {s : State} (hk : Kept orig s) {e : Nat} : KeptOut orig (execCipherJobEnd e s) := by
  unfold execCipherJobEnd
  apply forEngine_kept
  assumption
  intro y0 a
  split
  assumption
  split
  assumption
  exact State.jobFinish_kept ‹_›
theorem execJobDispatch_kept {s : State} (hk : Kept orig s) {pool : Pool} {e : Nat} : KeptOut orig (execJobDispatch pool e s)
    := by
  unfold execJobDispatch
  apply forEngine_kept
  assumption
  intro y0 a
  exact State.jNext_kept ‹_›
theorem State.jCondemn_kept {s : State} (hk : Kept orig s) {p : Pool} {e : Nat} : Kept orig (State.jCondemn s p e) := by
  unfold State.jCondemn
  lift_lets -underBinder
  intro sp; try clear_value sp
  intro slot; try clear_value slot
  intro s1; refine via (p := Kept orig s1) ?_ fun hk => ?_; dsimp only [s1]
  exact State.jEvent_kept (State.condemn_kept (State.setFld_kept ‹_›))
  clear_value s1
  intro s2; refine via (p := Kept orig s2) ?_ fun hk => ?_; dsimp only [s2]
  split
  exact State.jEvent_kept (State.setFld_kept ‹_›)
  exact State.jEvent_kept ‹_›
  clear_value s2
  split
  assumption
  exact State.engStopped_kept (State.jRunFlag_kept (State.onPools_kept (State.jFree_kept ‹_›)))
theorem State.jMismatch_kept {s : State} (hk : Kept orig s) {p : Pool} {e : Nat} : Kept orig (State.jMismatch s p e) := by
  unfold State.jMismatch
  lift_lets -underBinder
  intro tries; try clear_value tries
  intro s1; refine via (p := Kept orig s1) ?_ fun hk => ?_; dsimp only [s1]
  exact State.setFld_kept ‹_›
  clear_value s1
  split
  exact State.jCondemn_kept ‹_›
  exact State.countHub_kept (State.onJEng_kept ‹_›)
theorem execEngineMismatch_kept {s : State} (hk : Kept orig s) {pool : Pool} {e : Nat} : KeptOut orig (execEngineMismatch pool
    e s) := by
  unfold execEngineMismatch
  apply forEngine_kept
  assumption
  intro y0 a
  split
  assumption
  exact State.jMismatch_kept ‹_›
theorem State.jDisableEngine_kept {s : State} (hk : Kept orig s) {p : Pool} {e : Nat} : Kept orig (State.jDisableEngine s p e)
    :=
  State.jEvent_kept (State.onJob_kept (State.setFld_kept hk))
theorem State.jCancelN_kept {s : State} (hk : Kept orig s) {p : Pool} {j k3 : Nat} : Kept orig (State.jCancelN s p j k3) := by
  induction k3 generalizing s p j
  case' succ _ ih => unfold State.jCancelN
  case' zero => unfold State.jCancelN
  assumption
  lift_lets -underBinder
  intro h; try clear_value h
  split
  assumption
  split
  lift_lets -underBinder
  intro d; try clear_value d
  apply ih
  apply State.jComplete_kept
  apply State.setReg_kept
  refine KeptSnd.of ‹_› ?_
  exact State.fresh_kept ‹_›
theorem State.jDisable_kept {s : State} (hk : Kept orig s) {p : Pool} {j : Nat} : Kept orig (State.jDisable s p j) := by
  unfold State.jDisable
  lift_lets -underBinder
  intro s1; refine via (p := Kept orig s1) ?_ fun hk => ?_; dsimp only [s1]
  exact State.jCancelN_kept (State.setFlag_kept ‹_›)
  clear_value s1
  intro s2; refine via (p := Kept orig s2) ?_ fun hk => ?_; dsimp only [s2]
  refine List.foldl_kept ?_ ?_
  assumption
  intro t u a
  exact State.onJEng_kept ‹_›
  clear_value s2
  exact State.onPools_kept (State.onJRing_kept ‹_›)
theorem State.jCfgWrite_kept {s : State} (hk : Kept orig s) {p : Pool} {j v : Nat} : Kept orig (State.jCfgWrite s p j v) := by
  unfold State.jCfgWrite
  split
  split
  assumption
  exact State.jDisable_kept ‹_›
  exact State.setReg_kept ‹_›
theorem State.jRegWrite_kept {s : State} (hk : Kept orig s) {p : Pool} {j off v : Nat} : Kept orig (State.jRegWrite s p j off
    v) := by
  unfold State.jRegWrite
  split
  assumption
  exact State.setReg_kept ‹_›
theorem State.jCqheadWrite_kept {s : State} (hk : Kept orig s) {p : Pool} {j v : Nat} : Kept orig (State.jCqheadWrite s p j v)
    :=
  State.jFlush_kept (State.setReg_kept hk)
theorem State.jAbort_kept {s : State} (hk : Kept orig s) {p : Pool} {e : Nat} {x0 : Job} : Kept orig (State.jAbort s p e x0)
    := by
  unfold State.jAbort
  lift_lets -underBinder
  intro u; try clear_value u
  intro has; try clear_value has
  intro s1; refine via (p := Kept orig s1) ?_ fun hk => ?_; dsimp only [s1]
  split
  apply Option.getD_kept
  assumption
  exact State.prismSave_kept ‹_›
  assumption
  clear_value s1
  split
  exact State.jComplete_kept (State.setFlag_kept ‹_›)
theorem State.poolsWarm_kept {s : State} (hk : Kept orig s) : Kept orig (State.poolsWarm s) := by
  unfold State.poolsWarm
  lift_lets -underBinder
  intro one s1; refine via (p := Kept orig s1) ?_ fun hk => ?_; dsimp only [s1]
  dsimp only [one]
  refine List.foldl_kept ?_ ?_
  refine List.foldl_kept ?_ ?_
  assumption
  intro t u a
  split
  exact State.jAbort_kept (State.jFree_kept ‹_›)
  assumption
  intro t u a
  split
  exact State.jAbort_kept (State.jFree_kept ‹_›)
  assumption
  clear_value s1
  refine List.foldl_kept ?_ ?_
  assumption
  intro t u a
  lift_lets -underBinder
  intro p; try clear_value p
  split
  apply State.jAbort_kept
  apply State.jRunFlag_kept
  apply State.onPools_kept
  refine KeptSnd.of ‹_› ?_
  exact State.fresh_kept ‹_›
theorem State.engineMap_kept {s : State} (hk : Kept orig s) {p : Pool} : Kept orig (State.engineMap s p) := by
  unfold State.engineMap
  lift_lets -underBinder
  intro ok; try clear_value ok
  intro act; try clear_value act
  refine List.foldl_kept ?_ ?_
  assumption
  intro t u a
  exact State.setFld_kept ‹_›
theorem State.poolsCold_kept {s : State} (hk : Kept orig s) : Kept orig (State.poolsCold s) := by
  unfold State.poolsCold
  apply State.engineMap_kept
  apply State.engineMap_kept
  apply kept_mk
  assumption
theorem State.prismSegment_kept {s : State} (hk : Kept orig s) {e : Nat} {x : Job} {st : Stream} : Kept orig
    (State.prismSegment s e x st) := by
  unfold State.prismSegment
  lift_lets -underBinder
  intro y; try clear_value y
  split
  exact State.jobEnd_kept (State.onJEng_kept ‹_›)
  lift_lets -underBinder
  intro s2; refine via (p := Kept orig s2) ?_ fun hk => ?_; dsimp only [s2]
  apply State.onJEng_kept
  refine KeptOpt.of ?_ ‹_›
  exact State.prismSave_kept ‹_›
  clear_value s2
  split
  exact State.jobEnd_kept ‹_›
  assumption
theorem State.prismOut_kept {s : State} (hk : Kept orig s) {e : Nat} {x : Job} {st : Stream} {out : List Byte} {k : State →
    State} (kept_k : ∀ y0, Kept orig y0 → Kept orig (k y0)) : Kept orig (State.prismOut s e x st out k) := by
  unfold State.prismOut
  split
  apply kept_k
  refine KeptOpt.of ?_ ‹_›
  exact State.dmaWrite_kept ‹_›
  lift_lets -underBinder
  intro n; try clear_value n
  intro s1; refine via (p := Kept orig s1) ?_ fun hk => ?_; dsimp only [s1]
  apply Option.getD_kept
  assumption
  exact State.dmaWrite_kept ‹_›
  clear_value s1
  exact State.jobEnd_kept (State.onJob_kept ‹_›)
theorem State.decompress_kept {s : State} (hk : Kept orig s) {e : Nat} {x : Job} : Kept orig (State.decompress s e x) := by
  unfold State.decompress
  lift_lets -underBinder
  intro view; try clear_value view
  split
  lift_lets -underBinder
  intro dict; try clear_value dict
  split
  lift_lets -underBinder
  intro out; try clear_value out
  intro st1; try clear_value st1
  apply State.prismOut_kept
  assumption
  intro y0 a
  lift_lets -underBinder
  intro fin
  split
  exact State.prismSegment_kept ‹_›
  dsimp only [fin]
  exact State.jobEnd_kept (State.onJob_kept ‹_›)
  dsimp only [fin]
  exact State.jobEnd_kept (State.onJob_kept ‹_›)
  split
  dsimp only [fin]
  exact State.jobEnd_kept (State.onJob_kept ‹_›)
  split
  dsimp only [fin]
  exact State.jobEnd_kept (State.onJob_kept ‹_›)
  dsimp only [fin]
  exact State.jobEnd_kept (State.onJob_kept ‹_›)
  dsimp only [fin]
  exact State.jobEnd_kept (State.onJob_kept ‹_›)
theorem execDecompress_kept {s : State} (hk : Kept orig s) {e : Nat} : KeptOut orig (execDecompress e s) := by
  unfold execDecompress
  apply forEngine_kept
  assumption
  intro y0 a
  split
  exact State.decompress_kept ‹_›
  assumption
theorem State.compressN_kept {s : State} (hk : Kept orig s) {e : Nat} {dict : List Byte} {k3 : Nat} {k4 : Job} : Kept orig
    (State.compressN s e dict k3 k4) := by
  induction k3 generalizing s e dict k4
  case' succ _ ih => unfold State.compressN
  case' zero => unfold State.compressN
  exact State.prismSegment_kept ‹_›
  lift_lets -underBinder
  intro fin
  split
  dsimp only [fin]
  exact State.jobEnd_kept (State.onJob_kept ‹_›)
  split
  dsimp only [fin]
  exact State.jobEnd_kept (State.onJob_kept ‹_›)
  split
  dsimp only [fin]
  exact State.jobEnd_kept (State.onJob_kept ‹_›)
  apply State.prismOut_kept
  assumption
  intro y0 a
  split
  exact State.jobEnd_kept (State.onJob_kept ‹_›)
  apply ih
  assumption
theorem execCompress_kept {s : State} (hk : Kept orig s) {e : Nat} : KeptOut orig (execCompress e s) := by
  unfold execCompress
  apply forEngine_kept
  assumption
  intro y0 a
  split
  lift_lets -underBinder
  intro dict; try clear_value dict
  exact State.compressN_kept ‹_›
  assumption
theorem State.sealWrite_kept {s : State} (hk : Kept orig s) {x : Job} {c : CState} : KeptOpt orig (State.sealWrite s x c) :=
    by
  unfold State.sealWrite
  lift_lets -underBinder
  intro r; try clear_value r
  intro bs; try clear_value bs
  intro ent; try clear_value ent
  refine Option.map_kept ?_ ?_
  exact State.dmaThrough_kept ‹_›
  intro t a
  exact State.onPools_kept ‹_›
theorem State.cipherFault_kept {s : State} (hk : Kept orig s) {e : Nat} : Kept orig (State.cipherFault s e) :=
  State.jobEnd_kept hk
theorem State.cipherSegment_kept {s : State} (hk : Kept orig s) {e : Nat} {x : Job} {c : CState} : Kept orig
    (State.cipherSegment s e x c) := by
  unfold State.cipherSegment
  lift_lets -underBinder
  intro has; try clear_value has
  split
  exact State.cipherFault_kept ‹_›
  lift_lets -underBinder
  intro y; try clear_value y
  intro s2; refine via (p := Kept orig s2) ?_ fun hk => ?_; dsimp only [s2]
  apply State.onJEng_kept
  refine KeptOpt.of ?_ ‹_›
  split
  exact State.sealWrite_kept ‹_›
  exact KeptOpt.some ‹_›
  clear_value s2
  split
  exact State.jobEnd_kept ‹_›
  assumption
theorem State.cipherDone_kept {s : State} (hk : Kept orig s) {e : Nat} {c : CState} {ok : Bool} : Kept orig (State.cipherDone
    s e c ok) :=
  State.jobEnd_kept (State.onJob_kept hk)
theorem State.crypt_kept {s : State} (hk : Kept orig s) {e : Nat} {x : Job} {enc : Bool} : Kept orig (State.crypt s e x enc)
    := by
  unfold State.crypt
  lift_lets -underBinder
  intro mode; try clear_value mode
  intro dst; try clear_value dst
  intro place; try clear_value place
  split
  lift_lets -underBinder
  intro iv; try clear_value iv
  split
  split
  exact State.cipherFault_kept ‹_›
  split
  apply State.cipherSegment_kept
  refine KeptOpt.of ?_ ‹_›
  exact State.dmaWrite_kept ‹_›
  split
  apply State.cipherDone_kept
  refine KeptOpt.of ?_ ‹_›
  exact State.dmaWrite_kept ‹_›
  lift_lets -underBinder
  intro tag; try clear_value tag
  intro mac; try clear_value mac
  split
  split
  apply State.cipherDone_kept
  refine KeptOpt.of ?_ ‹_›
  apply State.dmaWrite_kept
  refine KeptOpt.of ?_ ‹_›
  exact State.dmaWrite_kept ‹_›
  apply State.cipherFault_kept
  refine KeptOpt.of ?_ ‹_›
  exact State.dmaWrite_kept ‹_›
  split
  apply State.cipherFault_kept
  refine KeptOpt.of ?_ ‹_›
  exact State.dmaWrite_kept ‹_›
  split
  apply State.cipherDone_kept
  refine KeptOpt.of ?_ ‹_›
  exact State.dmaWrite_kept ‹_›
  apply State.cipherDone_kept
  apply Option.getD_kept
  refine KeptOpt.of ?_ ‹_›
  exact State.dmaWrite_kept ‹_›
  apply State.dmaWrite_kept
  refine KeptOpt.of ?_ ‹_›
  exact State.dmaWrite_kept ‹_›
  exact State.cipherFault_kept ‹_›
theorem State.digest_kept {s : State} (hk : Kept orig s) {e : Nat} {x : Job} : Kept orig (State.digest s e x) := by
  unfold State.digest
  lift_lets -underBinder
  intro k; try clear_value k
  intro hmac; try clear_value hmac
  split
  exact State.cipherFault_kept ‹_›
  lift_lets -underBinder
  intro h0; try clear_value h0
  intro data; try clear_value data
  split
  lift_lets -underBinder
  intro u; try clear_value u
  intro c; try clear_value c
  intro inner; try clear_value inner
  intro dig; try clear_value dig
  intro mac; try clear_value mac
  split
  exact State.cipherSegment_kept ‹_›
  split
  split
  exact State.cipherFault_kept ‹_›
  exact State.cipherDone_kept ‹_›
  split
  apply State.cipherDone_kept
  refine KeptOpt.of ?_ ‹_›
  exact State.dmaWrite_kept ‹_›
  exact State.cipherFault_kept ‹_›
theorem State.cipherRun_kept {s : State} (hk : Kept orig s) {e op : Nat} {f : Job → State} (kept_f : ∀ y0, Kept orig (f y0)) :
    Kept orig (State.cipherRun s e op f) := by
  unfold State.cipherRun
  split
  split
  apply kept_f
  assumption
  assumption
theorem execEncrypt_kept {s : State} (hk : Kept orig s) {e : Nat} : KeptOut orig (execEncrypt e s) := by
  unfold execEncrypt
  apply forEngine_kept
  assumption
  intro y0 a
  apply State.cipherRun_kept
  assumption
  intro y0
  exact State.crypt_kept ‹_›
theorem execDecrypt_kept {s : State} (hk : Kept orig s) {e : Nat} : KeptOut orig (execDecrypt e s) := by
  unfold execDecrypt
  apply forEngine_kept
  assumption
  intro y0 a
  apply State.cipherRun_kept
  assumption
  intro y0
  exact State.crypt_kept ‹_›
theorem execHash_kept {s : State} (hk : Kept orig s) {e : Nat} : KeptOut orig (execHash e s) := by
  unfold execHash
  apply forEngine_kept
  assumption
  intro y0 a
  apply State.cipherRun_kept
  assumption
  intro y0
  exact State.digest_kept ‹_›
theorem execHmacGen_kept {s : State} (hk : Kept orig s) {e : Nat} : KeptOut orig (execHmacGen e s) := by
  unfold execHmacGen
  apply forEngine_kept
  assumption
  intro y0 a
  apply State.cipherRun_kept
  assumption
  intro y0
  exact State.digest_kept ‹_›
theorem execHmacVerify_kept {s : State} (hk : Kept orig s) {e : Nat} : KeptOut orig (execHmacVerify e s) := by
  unfold execHmacVerify
  apply forEngine_kept
  assumption
  intro y0 a
  apply State.cipherRun_kept
  assumption
  intro y0
  exact State.digest_kept ‹_›
theorem State.keyPut_kept {s : State} (hk : Kept orig s) {slot typ len owner : Nat} {pu : Bool} {key : List Byte} : Kept orig
    (State.keyPut s slot typ len owner pu key) := by
  unfold State.keyPut
  lift_lets -underBinder
  intro lock; try clear_value lock
  exact State.onPools_kept (State.setReg_kept ‹_›)
theorem State.keyWipe_kept {s : State} (hk : Kept orig s) : Kept orig (State.keyWipe s) := by
  unfold State.keyWipe
  refine List.foldl_kept ?_ ?_
  assumption
  intro t u a
  exact State.setReg_kept ‹_›
theorem State.keyCommand_kept {s : State} (hk : Kept orig s) {v : Nat} : Kept orig (State.keyCommand s v) := by
  unfold State.keyCommand
  lift_lets -underBinder
  intro slot; try clear_value slot
  intro owner; try clear_value owner
  intro typ; try clear_value typ
  intro len; try clear_value len
  intro keep; try clear_value keep
  intro locked; try clear_value locked
  intro fin
  split
  lift_lets -underBinder
  intro key; try clear_value key
  intro r; try clear_value r
  dsimp only [fin]
  apply State.setReg_kept
  apply State.keyWipe_kept
  split
  exact State.keyPut_kept ‹_›
  assumption
  split
  dsimp only [fin]
  exact State.setReg_kept (State.keyWipe_kept ‹_›)
  dsimp only [fin]
  exact State.setReg_kept (State.keyWipe_kept (State.onPools_kept (State.setReg_kept ‹_›)))
  dsimp only [fin]
  exact State.setReg_kept (State.keyWipe_kept (State.setFlag_kept ‹_›))
  assumption
theorem State.keyCmdWrite_kept {s : State} (hk : Kept orig s) {v : Nat} : Kept orig (State.keyCmdWrite s v) := by
  unfold State.keyCmdWrite
  lift_lets -underBinder
  intro s1; refine via (p := Kept orig s1) ?_ fun hk => ?_; dsimp only [s1]
  exact State.setReg_kept ‹_›
  clear_value s1
  split
  exact State.keyCommand_kept ‹_›
  assumption
theorem State.headUp_kept {s : State} (hk : Kept orig s) {q n : Nat} : Kept orig (State.headUp s q n) :=
  State.setReg_kept hk
theorem State.failDesc_kept {s : State} (hk : Kept orig s) {q : Nat} {t : Txn} {st : TStat} : Kept orig (State.failDesc s q t
    st) := by
  unfold State.failDesc
  apply State.txnDone_kept
  split
  exact State.twErr_kept ‹_›
  assumption
theorem State.takeNumber_kept {s : State} (hk : Kept orig s) {q : Nat} {t : Txn} : KeptOptFst orig (State.takeNumber s q t) :=
    by
  unfold State.takeNumber
  split
  exact KeptOptFst.none
  lift_lets -underBinder
  intro n; try clear_value n
  refine KeptOptFst.some ?_
  refine KeptFst.mk' ?_
  apply State.onFlow_kept
  refine KeptOptFst.of ?_ ‹_›
  exact State.flowOpen_kept ‹_›
theorem State.giveBack_kept {s : State} (hk : Kept orig s) {q : Nat} {t : Txn} : Kept orig (State.giveBack s q t) := by
  unfold State.giveBack
  split
  assumption
  exact State.onFlow_kept ‹_›
theorem State.emitTxn_kept {s : State} (hk : Kept orig s) {q : Nat} {t : Txn} {nv : Verifies} : Kept orig (State.emitTxn s q t
    nv) := by
  unfold State.emitTxn
  split
  exact State.sendPort_kept ‹_›
  exact State.attempt_kept (State.onTxn_kept ‹_›)
theorem State.parkOrSend_kept {s : State} (hk : Kept orig s) {q : Nat} {t : Txn} {nv : Verifies} : Kept orig (State.parkOrSend
    s q t nv) := by
  unfold State.parkOrSend
  split
  exact State.emitTxn_kept ‹_›
  split
  exact State.emitTxn_kept (State.onTxn_kept ‹_›)
  exact State.onTxn_kept ‹_›
theorem State.sendDesc_kept {s : State} (hk : Kept orig s) {q : Nat} {t : Txn} {nv : Verifies} : Kept orig (State.sendDesc s q
    t nv) := by
  unfold State.sendDesc
  split
  exact State.txnDone_kept ‹_›
  split
  exact State.failDesc_kept ‹_›
  split
  split
  apply State.txnDone_kept
  apply State.giveBack_kept
  refine KeptFst.of ‹_› ?_
  split
  apply State.nvjWrite_kept
  refine KeptOptFst.of ?_ ‹_›
  exact State.takeNumber_kept ‹_›
  refine KeptFst.mk' ?_
  refine KeptOptFst.of ?_ ‹_›
  exact State.takeNumber_kept ‹_›
  lift_lets -underBinder
  intro s3; refine via (p := Kept orig s3) ?_ fun hk => ?_; dsimp only [s3]
  apply State.txnOpen_kept
  split
  apply State.countHub_kept
  refine KeptFst.of ‹_› ?_
  split
  apply State.nvjWrite_kept
  refine KeptOptFst.of ?_ ‹_›
  exact State.takeNumber_kept ‹_›
  apply State.nvjWrite_kept
  refine KeptOptFst.of ?_ ‹_›
  exact State.takeNumber_kept ‹_›
  refine KeptFst.of ‹_› ?_
  split
  apply State.nvjWrite_kept
  refine KeptOptFst.of ?_ ‹_›
  exact State.takeNumber_kept ‹_›
  refine KeptFst.mk' ?_
  refine KeptOptFst.of ?_ ‹_›
  exact State.takeNumber_kept ‹_›
  clear_value s3
  split
  exact State.parkOrSend_kept ‹_›
  exact State.emitTxn_kept ‹_›
theorem State.postReceive_kept {s : State} (hk : Kept orig s) {q : Nat} {t : Txn} : Kept orig (State.postReceive s q t) :=
  State.onTq_kept hk
theorem State.copyLines_kept {s : State} (hk : Kept orig s) {src dst n done k5 : Nat} : KeptFst orig (State.copyLines s src
    dst n done k5) := by
  induction k5 generalizing s src dst n done
  case' succ _ ih => unfold State.copyLines
  case' zero => unfold State.copyLines
  exact KeptFst.mk' ‹_›
  split
  exact KeptFst.mk' ‹_›
  lift_lets -underBinder
  intro a; try clear_value a
  intro k; try clear_value k
  split
  exact KeptFst.mk' ‹_›
  split
  exact KeptFst.mk' ‹_›
  apply ih
  refine KeptOpt.of ?_ ‹_›
  exact State.dmaWrite_kept ‹_›
theorem State.copyDesc_kept {s : State} (hk : Kept orig s) {q : Nat} {t : Txn} {nv : Verifies} : Kept orig (State.copyDesc s q
    t nv) := by
  unfold State.copyDesc
  split
  split
  apply State.txnDone_kept
  refine KeptFst.of ‹_› ?_
  split
  exact State.nvjWrite_kept ‹_›
  exact KeptFst.mk' ‹_›
  split
  apply State.txnDone_kept
  refine KeptFst.of ‹_› ?_
  apply State.copyLines_kept
  refine KeptFst.of ‹_› ?_
  split
  exact State.nvjWrite_kept ‹_›
  exact KeptFst.mk' ‹_›
theorem State.runDesc_kept {s : State} (hk : Kept orig s) {q : Nat} {t : Txn} {nv : Verifies} : Kept orig (State.runDesc s q t
    nv) := by
  unfold State.runDesc
  split
  exact State.postReceive_kept ‹_›
  exact State.copyDesc_kept ‹_›
  exact State.sendDesc_kept ‹_›
theorem State.dispatchOne_kept {s : State} (hk : Kept orig s) {q : Nat} {nv : Verifies} : Kept orig (State.dispatchOne s q nv)
    := by
  unfold State.dispatchOne
  split
  split
  exact State.failDesc_kept (State.headUp_kept (State.setHeld_kept ‹_›))
  split
  exact State.setHeld_kept ‹_›
  exact State.runDesc_kept (State.countHub_kept (State.headUp_kept (State.setHeld_kept ‹_›)))
theorem State.groupAbort_kept {s : State} (hk : Kept orig s) {q : Nat} {others : List Txn} {t : Txn} {st : TStat} : Kept orig
    (State.groupAbort s q others t st) := by
  unfold State.groupAbort
  lift_lets -underBinder
  intro s1; refine via (p := Kept orig s1) ?_ fun hk => ?_; dsimp only [s1]
  apply State.onTq_kept
  refine List.foldl_kept ?_ ?_
  exact State.giveBack_kept ‹_›
  intro t u a
  exact State.giveBack_kept ‹_›
  clear_value s1
  intro s2; refine via (p := Kept orig s2) ?_ fun hk => ?_; dsimp only [s2]
  exact State.failDesc_kept (State.headUp_kept (State.setHeld_kept ‹_›))
  clear_value s2
  refine List.foldl_kept ?_ ?_
  assumption
  intro t u a
  exact State.txnDone_kept ‹_›
theorem State.prepareMember_kept {s : State} (hk : Kept orig s) {q count i n : Nat} : KeptExcFst orig (State.prepareMember s q
    count i n) := by
  unfold State.prepareMember
  split
  exact KeptExcFst.error
  lift_lets -underBinder
  intro t; try clear_value t
  split
  exact KeptExcFst.error
  split
  exact KeptExcFst.error
  split
  exact KeptExcFst.error
  split
  exact KeptExcFst.error
  refine KeptExcFst.ok ?_
  refine KeptOptFst.pair ‹_› ?_
  exact State.takeNumber_kept ‹_›
theorem State.groupRelease_kept {s : State} (hk : Kept orig s) {q : Nat} {ms : List Txn} {nv : List Verifies} : Kept orig
    (State.groupRelease s q ms nv) := by
  unfold State.groupRelease
  lift_lets -underBinder
  intro n; try clear_value n
  intro write release
  split
  dsimp only [release]
  refine List.foldl_kept ?_ ?_
  refine List.foldl_kept ?_ ?_
  exact State.countHub_kept (State.headUp_kept (State.setHeld_kept (State.onTq_kept ‹_›)))
  intro t u a
  exact State.txnOpen_kept ‹_›
  intro t u a
  exact State.emitTxn_kept ‹_›
  split
  lift_lets -underBinder
  intro bad; try clear_value bad
  apply State.groupAbort_kept
  refine KeptFst.of ‹_› ?_
  refine List.foldlFst_kept ?_ ?_
  exact KeptFst.mk' ‹_›
  intro t u a
  dsimp only [write]
  split
  refine KeptFst.mk' ?_
  refine KeptFst.fst ?_
  apply State.nvjWrite_kept
  exact KeptFst.of rfl ‹_›
  assumption
  split
  split
  dsimp only [release]
  refine List.foldl_kept ?_ ?_
  refine List.foldl_kept ?_ ?_
  apply State.countHub_kept
  apply State.headUp_kept
  apply State.setHeld_kept
  apply State.onTq_kept
  apply State.countHub_kept
  refine KeptFst.of ‹_› ?_
  apply State.nvjWrite_kept
  refine KeptFst.of ‹_› ?_
  refine List.foldlFst_kept ?_ ?_
  exact KeptFst.mk' ‹_›
  intro t u a
  dsimp only [write]
  split
  refine KeptFst.mk' ?_
  refine KeptFst.fst ?_
  apply State.nvjWrite_kept
  exact KeptFst.of rfl ‹_›
  assumption
  intro t u a
  exact State.txnOpen_kept ‹_›
  intro t u a
  exact State.emitTxn_kept ‹_›
  lift_lets -underBinder
  intro t2; refine via (p := Kept orig t2) ?_ fun hk => ?_; dsimp only [t2]
  refine List.foldl_kept ?_ ?_
  refine KeptFst.of ‹_› ?_
  apply State.nvjWrite_kept
  refine KeptFst.of ‹_› ?_
  refine List.foldlFst_kept ?_ ?_
  exact KeptFst.mk' ‹_›
  intro t u a
  dsimp only [write]
  split
  refine KeptFst.mk' ?_
  refine KeptFst.fst ?_
  apply State.nvjWrite_kept
  exact KeptFst.of rfl ‹_›
  assumption
  intro t u a
  exact State.giveBack_kept ‹_›
  clear_value t2
  refine List.foldl_kept ?_ ?_
  exact State.headUp_kept (State.setHeld_kept (State.onTq_kept ‹_›))
  intro t u a
  exact State.txnDone_kept ‹_›
theorem State.groupStep_kept {s : State} (hk : Kept orig s) {q : Nat} {nv : List Verifies} {k3 : Nat} : Kept orig
    (State.groupStep s q nv k3) := by
  induction k3 generalizing s q nv
  case' succ _ ih => unfold State.groupStep
  case' zero => unfold State.groupStep
  assumption
  lift_lets -underBinder
  intro head; try clear_value head
  intro ms; try clear_value ms
  intro i; try clear_value i
  intro n; try clear_value n
  split
  exact State.groupAbort_kept ‹_›
  split
  split
  exact State.setHeld_kept ‹_›
  exact State.groupRelease_kept ‹_›
  split
  exact State.setHeld_kept ‹_›
  split
  lift_lets -underBinder
  intro broken; try clear_value broken
  exact State.groupAbort_kept ‹_›
  apply ih
  apply State.onTq_kept
  refine KeptExcFst.of ?_ ‹_›
  exact State.prepareMember_kept ‹_›
theorem dispatchKind_kept {s : State} (hk : Kept orig s) {q kind : Nat} {nv : Verifies} : Kept orig (dispatchKind q kind nv s)
    := by
  unfold dispatchKind
  split
  exact State.dispatchOne_kept ‹_›
  assumption
theorem State.resendReturned_kept {s : State} (hk : Kept orig s) {q : Nat} {nv : Verifies} : Kept orig (State.resendReturned s
    q nv) := by
  unfold State.resendReturned
  refine List.foldl_kept ?_ ?_
  assumption
  intro t u a
  lift_lets -underBinder
  intro tg; try clear_value tg
  split
  split
  exact State.txnDone_kept ‹_›
  split
  split
  apply State.emitTxn_kept
  apply State.onTxn_kept
  refine KeptFst.of ‹_› ?_
  split
  apply State.nvjWrite_kept
  apply State.nvjEndTxn_kept
  refine KeptOptFst.of ?_ ‹_›
  exact State.takeNumber_kept ‹_›
  refine KeptFst.mk' ?_
  refine KeptOptFst.of ?_ ‹_›
  exact State.takeNumber_kept ‹_›
  apply State.txnDone_kept
  apply State.giveBack_kept
  refine KeptFst.of ‹_› ?_
  split
  apply State.nvjWrite_kept
  apply State.nvjEndTxn_kept
  refine KeptOptFst.of ?_ ‹_›
  exact State.takeNumber_kept ‹_›
  refine KeptFst.mk' ?_
  refine KeptOptFst.of ?_ ‹_›
  exact State.takeNumber_kept ‹_›
  split
  exact State.sendPort_kept ‹_›
  assumption
theorem execSend_kept {s : State} (hk : Kept orig s) {q : Nat} {nv : Verifies} : KeptOut orig (execSend q nv s) := by
  unfold execSend
  apply forUnit_kept
  assumption
  intro y0 a
  exact dispatchKind_kept ‹_›
theorem execReceive_kept {s : State} (hk : Kept orig s) {q : Nat} : KeptOut orig (execReceive q s) := by
  unfold execReceive
  apply forUnit_kept
  assumption
  intro y0 a
  exact dispatchKind_kept ‹_›
theorem execExchange_kept {s : State} (hk : Kept orig s) {q : Nat} {nv : Verifies} : KeptOut orig (execExchange q nv s) := by
  unfold execExchange
  apply forUnit_kept
  assumption
  intro y0 a
  exact dispatchKind_kept ‹_›
theorem execCopy_kept {s : State} (hk : Kept orig s) {q : Nat} {nv : Verifies} : KeptOut orig (execCopy q nv s) := by
  unfold execCopy
  apply forUnit_kept
  assumption
  intro y0 a
  exact dispatchKind_kept ‹_›
theorem execTimedSend_kept {s : State} (hk : Kept orig s) {q : Nat} {nv : Verifies} : KeptOut orig (execTimedSend q nv s) :=
    by
  unfold execTimedSend
  apply forUnit_kept
  assumption
  intro y0 a
  exact dispatchKind_kept ‹_›
theorem execGroup_kept {s : State} (hk : Kept orig s) {q : Nat} {nv : List Verifies} : KeptOut orig (execGroup q nv s) := by
  unfold execGroup
  apply forUnit_kept
  assumption
  intro y0 a
  split
  exact State.groupStep_kept ‹_›
  assumption
theorem execTimedSendRelease_kept {s : State} (hk : Kept orig s) {q slot : Nat} : KeptOut orig (execTimedSendRelease q slot s)
    := by
  unfold execTimedSendRelease
  apply forUnit_kept
  assumption
  intro y0 a
  split
  split
  lift_lets -underBinder
  intro t1; try clear_value t1
  exact State.emitTxn_kept (State.onTxn_kept ‹_›)
  assumption
  assumption
theorem execHoldRelease_kept {s : State} (hk : Kept orig s) {q : Nat} : KeptOut orig (execHoldRelease q s) := by
  unfold execHoldRelease
  apply forUnit_kept
  assumption
  intro y0 a
  lift_lets -underBinder
  intro s1; refine via (p := Kept orig s1) ?_ fun hk => ?_; dsimp only [s1]
  exact State.resendReturned_kept ‹_›
  clear_value s1
  split
  split
  exact State.groupStep_kept ‹_›
  exact State.dispatchOne_kept ‹_›
  assumption
theorem execDeadlineExpiry_kept {s : State} (hk : Kept orig s) {q : Nat} : KeptOut orig (execDeadlineExpiry q s) := by
  unfold execDeadlineExpiry
  apply forUnit_kept
  assumption
  intro y0 a
  split
  split
  split
  exact State.groupStep_kept ‹_›
  assumption
  split
  exact State.failDesc_kept (State.headUp_kept (State.setHeld_kept ‹_›))
  assumption
  assumption
theorem execRetransmit_kept {s : State} (hk : Kept orig s) {q slot : Nat} : KeptOut orig (execRetransmit q slot s) := by
  unfold execRetransmit
  apply forUnit_kept
  assumption
  intro y0 a
  split
  split
  lift_lets -underBinder
  intro t1; try clear_value t1
  exact State.attempt_kept (State.countHub_kept (State.onTxn_kept ‹_›))
  assumption
  assumption
theorem execAckTimeout_kept {s : State} (hk : Kept orig s) {q slot : Nat} : KeptOut orig (execAckTimeout q slot s) := by
  unfold execAckTimeout
  apply forUnit_kept
  assumption
  intro y0 a
  split
  split
  exact State.txnDone_kept ‹_›
  assumption
  lift_lets -underBinder
  intro ms; try clear_value ms
  intro down; try clear_value down
  split
  split
  exact State.groupAbort_kept ‹_›
  assumption
  assumption
theorem State.ackmark_kept {s : State} (hk : Kept orig s) {q i : Nat} : Kept orig (State.ackmark s q i) := by
  unfold State.ackmark
  split
  assumption
  split
  assumption
  lift_lets -underBinder
  intro m; try clear_value m
  intro s1; refine via (p := Kept orig s1) ?_ fun hk => ?_; dsimp only [s1]
  split
  split
  exact State.onFlow_kept (KeptFst.fst (State.nvjWrite_kept ‹_›))
  exact KeptFst.fst (State.nvjWrite_kept ‹_›)
  assumption
  clear_value s1
  intro r; try clear_value r
  split
  split
  split
  apply State.onFlow_kept
  refine KeptFst.of ‹_› ?_
  exact State.nvjWrite_kept ‹_›
  refine KeptFst.of ‹_› ?_
  exact State.nvjWrite_kept ‹_›
  assumption
theorem execAckmarkWrite_kept {s : State} (hk : Kept orig s) {q flow : Nat} : KeptOut orig (execAckmarkWrite q flow s) := by
  unfold execAckmarkWrite
  apply forUnit_kept
  assumption
  intro y0 a
  exact State.ackmark_kept ‹_›
theorem State.tqTailWrite_kept {s : State} (hk : Kept orig s) {master q v : Nat} : KeptFst orig (State.tqTailWrite s master q
    v) := by
  unfold State.tqTailWrite
  split
  exact KeptFst.mk' (State.twErr_kept ‹_›)
  split
  exact KeptFst.mk' (State.twErr_kept (State.setFlag_kept ‹_›))
  exact KeptFst.mk' (State.setReg_kept ‹_›)
theorem State.queueEnable_kept {s t : State} (hk : Kept orig s) {q : Nat} (e : s.queueEnable q = .done t) : Kept orig t := by
  unfold State.queueEnable at e
  extract_lets k c base inc svc s1 s2 at e
  split at e
  · nomatch e
  split at e
  · nomatch e
  split at e
  · nomatch e
  split at e
  · nomatch e
  have h1 : Kept orig s1 := kept_mk hk
  have h2 : Kept orig s2 := State.onTq_kept (State.setFlag_kept h1)
  rw [← TqEnable.done.inj e]
  split
  · exact KeptFst.fst (State.nvjWriteAll_kept h2)
  · exact h2
theorem State.queueDisable_kept {s : State} (hk : Kept orig s) {q : Nat} : KeptFst orig (State.queueDisable s q) := by
  unfold State.queueDisable
  lift_lets -underBinder
  intro head; try clear_value head
  intro tail; try clear_value tail
  intro todo; try clear_value todo
  intro recvs; try clear_value recvs
  intro s0; refine via (p := Kept orig s0) ?_ fun hk => ?_; dsimp only [s0]
  refine List.foldl_kept ?_ ?_
  assumption
  intro t u a
  exact State.giveBack_kept ‹_›
  clear_value s0
  intro s1; refine via (p := Kept orig s1) ?_ fun hk => ?_; dsimp only [s1]
  exact State.setHeld_kept (State.setReg_kept (State.setFlag_kept ‹_›))
  clear_value s1
  intro s2; refine via (p := Kept orig s2) ?_ fun hk => ?_; dsimp only [s2]
  exact State.onTq_kept ‹_›
  clear_value s2
  intro s3; refine via (p := Kept orig s3) ?_ fun hk => ?_; dsimp only [s3]
  refine List.foldl_kept ?_ ?_
  assumption
  intro t u a
  exact State.txnDone_kept ‹_›
  clear_value s3
  intro s4; refine via (p := Kept orig s4) ?_ fun hk => ?_; dsimp only [s4]
  exact State.onNvj_kept ‹_›
  clear_value s4
  exact KeptFst.mk' (State.flowsClose_kept ‹_›)
theorem State.tqCfgWrite_kept {s : State} (hk : Kept orig s) {q v : Nat} : Kept orig (State.tqCfgWrite s q v) := by
  unfold State.tqCfgWrite
  extract_lets s1
  have h1 : Kept orig s1 := State.setReg_kept hk
  repeat' split
  · assumption
  · exact KeptFst.fst (State.queueDisable_kept hk)
  · exact State.queueEnable_kept h1 ‹_›
  · assumption
  · assumption
theorem State.teFail_kept {s : State} (hk : Kept orig s) {i : Nat} : Kept orig (State.teFail s i) := by
  unfold State.teFail
  lift_lets -underBinder
  intro s1; refine via (p := Kept orig s1) ?_ fun hk => ?_; dsimp only [s1]
  exact State.raise_kept (State.condemn_kept ‹_›)
  clear_value s1
  split
  lift_lets -underBinder
  intro s2; refine via (p := Kept orig s2) ?_ fun hk => ?_; dsimp only [s2]
  exact State.setFld_kept (State.setFld_kept ‹_›)
  clear_value s2
  apply kept_mk
  assumption
  exact State.setFld_kept ‹_›
theorem State.teHandover_kept {s : State} (hk : Kept orig s) {e : Nat} : Kept orig (State.teHandover s e) := by
  unfold State.teHandover
  lift_lets -underBinder
  intro i; try clear_value i
  split
  assumption
  lift_lets -underBinder
  intro s1; refine via (p := Kept orig s1) ?_ fun hk => ?_; dsimp only [s1]
  exact State.setFld_kept ‹_›
  clear_value s1
  intro s2; refine via (p := Kept orig s2) ?_ fun hk => ?_; dsimp only [s2]
  exact State.setFld_kept (State.setFld_kept (State.setFld_kept ‹_›))
  clear_value s2
  apply State.raise_kept
  apply kept_mk
  assumption
theorem execEngineRetry_kept {s : State} (hk : Kept orig s) {i : Nat} {succeeds : Bool} : KeptOut orig (execEngineRetry i
    succeeds s) := by
  unfold execEngineRetry
  apply forUnit_kept
  assumption
  intro y0 a
  lift_lets -underBinder
  intro t; try clear_value t
  split
  assumption
  split
  apply kept_mk
  assumption
  split
  apply kept_mk
  assumption
  exact State.teFail_kept ‹_›
theorem execEngineHandover_kept {s : State} (hk : Kept orig s) {logical : Nat} : KeptOut orig (execEngineHandover logical s)
    := by
  unfold execEngineHandover
  apply forUnit_kept
  assumption
  intro y0 a
  exact State.teHandover_kept ‹_›

end Sys2Proof.Machine
end

