-- ==== Sys2Proof/Laws/KeptRegisters.lean ====
section
/-! SUPPORT. `Kept` of the operations of life records, spare maps, self-test, Lens, the registers and the store buffer. -/

namespace Sys2Proof.Machine

variable {orig : State}

theorem State.dramEvent_kept {s : State} (hk : Kept orig s) {c cause place device src : Nat} : Kept orig (State.dramEvent s c
    cause place device src) :=
  State.raise_kept (State.logCause_kept hk)
theorem State.dramSpareShow_kept {s : State} (hk : Kept orig s) {c : Nat} : Kept orig (State.dramSpareShow s c) := by
  unfold State.dramSpareShow
  lift_lets -underBinder
  intro marked; try clear_value marked
  intro queued; try clear_value queued
  exact State.setReg_kept ‹_›
theorem State.rowQueue_kept {s : State} (hk : Kept orig s) {c place device : Nat} : Kept orig (State.rowQueue s c place
    device) := by
  unfold State.rowQueue
  split
  assumption
  lift_lets -underBinder
  intro u; try clear_value u
  intro s1; refine via (p := Kept orig s1) ?_ fun hk => ?_; dsimp only [s1]
  apply kept_mk
  assumption
  clear_value s1
  exact State.dramEvent_kept (State.dramSpareShow_kept ‹_›)
theorem State.deviceFails_kept {s : State} (hk : Kept orig s) {c place device : Nat} : Kept orig (State.deviceFails s c place
    device) := by
  unfold State.deviceFails
  lift_lets -underBinder
  intro h; try clear_value h
  split
  split
  assumption
  exact State.spareGone_kept (State.dramEvent_kept ‹_›)
  lift_lets -underBinder
  intro u; try clear_value u
  intro s1; refine via (p := Kept orig s1) ?_ fun hk => ?_; dsimp only [s1]
  apply kept_mk
  assumption
  clear_value s1
  exact State.spareUsed_kept (State.dramEvent_kept (State.dramSpareShow_kept ‹_›))
theorem State.dramCorrected_kept {s : State} (hk : Kept orig s) {c addr device nbits : Nat} : Kept orig (State.dramCorrected s
    c addr device nbits) := by
  unfold State.dramCorrected
  lift_lets -underBinder
  intro place; try clear_value place
  intro old; try clear_value old
  intro hits; try clear_value hits
  intro u; try clear_value u
  intro s1; refine via (p := Kept orig s1) ?_ fun hk => ?_; dsimp only [s1]
  apply kept_mk
  assumption
  clear_value s1
  intro s2; refine via (p := Kept orig s2) ?_ fun hk => ?_; dsimp only [s2]
  exact State.dramEvent_kept (State.count_kept ‹_›)
  clear_value s2
  intro mine; try clear_value mine
  intro s3; refine via (p := Kept orig s3) ?_ fun hk => ?_; dsimp only [s3]
  split
  exact State.deviceFails_kept ‹_›
  assumption
  clear_value s3
  split
  exact State.rowQueue_kept ‹_›
  assumption
theorem State.dramUncorrectable_kept {s : State} (hk : Kept orig s) {c addr device : Nat} : Kept orig (State.dramUncorrectable
    s c addr device) := by
  unfold State.dramUncorrectable
  lift_lets -underBinder
  intro place; try clear_value place
  intro line; try clear_value line
  intro newer; try clear_value newer
  intro s1; refine via (p := Kept orig s1) ?_ fun hk => ?_; dsimp only [s1]
  split
  assumption
  exact State.poisonLine_kept ‹_›
  clear_value s1
  exact State.rowQueue_kept (State.dramEvent_kept ‹_›)
theorem execPatrolScrub_kept {s : State} (hk : Kept orig s) {channel addr : Nat} {device : Option Nat} {nbits : Nat}
    {uncorrectable : Bool} : KeptOut orig (execPatrolScrub channel addr device nbits uncorrectable s) := by
  unfold execPatrolScrub
  apply forUnit_kept
  assumption
  intro y0 a
  lift_lets -underBinder
  intro s1; refine via (p := Kept orig s1) ?_ fun hk => ?_; dsimp only [s1]
  exact State.count_kept ‹_›
  clear_value s1
  split
  exact State.dramUncorrectable_kept ‹_›
  split
  assumption
  exact State.dramCorrected_kept ‹_›
theorem execDramAlert_kept {s : State} (hk : Kept orig s) {channel : Nat} {thermal : Bool} : KeptOut orig (execDramAlert
    channel thermal s) := by
  unfold execDramAlert
  apply forUnit_kept
  assumption
  intro y0 a
  exact State.dramEvent_kept ‹_›
theorem State.fuseMoved_kept {s : State} (hk : Kept orig s) {n : Nat} : Kept orig (State.fuseMoved s n) := by
  unfold State.fuseMoved
  lift_lets -underBinder
  intro s1; refine via (p := Kept orig s1) ?_ fun hk => ?_; dsimp only [s1]
  exact State.setFld_kept ‹_›
  clear_value s1
  split
  exact State.raise_kept (State.setFlag_kept ‹_›)
  assumption
theorem State.fuseWrite_kept {s : State} (hk : Kept orig s) {slot : Nat} {v : BitVec 32} : Kept orig (State.fuseWrite s slot
    v) := by
  unfold State.fuseWrite
  lift_lets -underBinder
  intro s1; refine via (p := Kept orig s1) ?_ fun hk => ?_; dsimp only [s1]
  exact State.setReg_kept ‹_›
  clear_value s1
  intro u; try clear_value u
  intro s2; refine via (p := Kept orig s2) ?_ fun hk => ?_; dsimp only [s2]
  apply kept_mk
  assumption
  clear_value s2
  exact State.fuseMoved_kept ‹_›
theorem execFuseProgram_kept {s : State} (hk : Kept orig s) {ok : Bool} : KeptOut orig (execFuseProgram ok s) := by
  unfold execFuseProgram
  refine KeptOut.next ?_
  split
  assumption
  split
  exact State.fuseWrite_kept ‹_›
  lift_lets -underBinder
  intro u; try clear_value u
  intro s1; refine via (p := Kept orig s1) ?_ fun hk => ?_; dsimp only [s1]
  apply kept_mk
  assumption
  clear_value s1
  exact State.setReg_kept ‹_›
theorem execAgeMeasure_kept {s : State} (hk : Kept orig s) {c deg : Nat} : KeptOut orig (execAgeMeasure c deg s) := by
  unfold execAgeMeasure
  apply forUnit_kept
  assumption
  intro y0 a
  exact State.setReg_kept ‹_›
theorem execLifeUpdate_kept {s : State} (hk : Kept orig s) {hour : Bool} : KeptOut orig (execLifeUpdate hour s) := by
  unfold execLifeUpdate
  refine KeptOut.next ?_
  lift_lets -underBinder
  intro f; try clear_value f
  intro eqv; try clear_value eqv
  intro pow; try clear_value pow
  intro u; refine via (p := Kept orig u) ?_ fun hk => ?_; dsimp only [u]
  exact State.setReg_kept ‹_›
  clear_value u
  intro u; try clear_value u
  apply kept_mk
  assumption
theorem State.cmpSpareSet_kept {s : State} (hk : Kept orig s) {c : Nat} {f : Spares} : Kept orig (State.cmpSpareSet s c f) :=
    by
  unfold State.cmpSpareSet
  lift_lets -underBinder
  intro g; try clear_value g
  exact State.setFld_kept ‹_›
theorem State.pairSet_kept {s : State} (hk : Kept orig s) {c k : Nat} {u : Option (Nat × Nat × Nat)} : Kept orig
    (State.pairSet s c k u) := by
  unfold State.pairSet
  lift_lets -underBinder
  intro n; try clear_value n
  intro gone; try clear_value gone
  split
  lift_lets -underBinder
  intro s1; refine via (p := Kept orig s1) ?_ fun hk => ?_; dsimp only [s1]
  exact State.setFld_kept (State.setReg_kept ‹_›)
  clear_value s1
  split
  exact State.onLp_kept ‹_›
  assumption
theorem State.clusterForm_kept {s : State} (hk : Kept orig s) {c : Nat} : Kept orig (State.clusterForm s c) := by
  unfold State.clusterForm
  split
  split
  lift_lets -underBinder
  intro s1; refine via (p := Kept orig s1) ?_ fun hk => ?_; dsimp only [s1]
  refine List.foldl_kept ?_ ?_
  assumption
  intro t u a
  exact State.setReg_kept ‹_›
  clear_value s1
  apply State.cmpSpareSet_kept
  refine List.foldl_kept ?_ ?_
  assumption
  intro t u a
  exact State.onLp_kept ‹_›
  lift_lets -underBinder
  intro r; refine via (p := KeptFst orig r) ?_ fun hk => ?_; dsimp only [r]
  refine List.foldlFst_kept ?_ ?_
  exact KeptFst.mk' ‹_›
  intro t u a
  exact KeptFst.mk' (State.pairSet_kept (KeptFst.fst ‹_›))
  clear_value r
  exact State.cmpSpareSet_kept (KeptFst.fst ‹_›)
theorem State.waymapsSet_kept {s : State} (hk : Kept orig s) : Kept orig (State.waymapsSet s) := by
  unfold State.waymapsSet
  lift_lets -underBinder
  intro s1; refine via (p := Kept orig s1) ?_ fun hk => ?_; dsimp only [s1]
  refine List.foldl_kept ?_ ?_
  assumption
  intro t u a
  exact State.setReg_kept ‹_›
  clear_value s1
  refine List.foldl_kept ?_ ?_
  assumption
  intro t u a
  exact State.setReg_kept ‹_›
theorem State.teMapSet_kept {s : State} (hk : Kept orig s) : Kept orig (State.teMapSet s) := by
  unfold State.teMapSet
  lift_lets -underBinder
  intro m; try clear_value m
  intro s1; refine via (p := Kept orig s1) ?_ fun hk => ?_; dsimp only [s1]
  refine List.foldl_kept ?_ ?_
  assumption
  intro t u a
  exact State.setReg_kept ‹_›
  clear_value s1
  refine List.foldl_kept ?_ ?_
  apply kept_mk
  assumption
  intro t u a
  lift_lets -underBinder
  intro i; try clear_value i
  intro t1; refine via (p := Kept orig t1) ?_ fun hk => ?_; dsimp only [t1]
  exact State.setFld_kept ‹_›
  clear_value t1
  split
  exact State.setFld_kept ‹_›
  exact State.setFld_kept (State.setFld_kept ‹_›)
theorem State.lanesSet_kept {s : State} (hk : Kept orig s) : Kept orig (State.lanesSet s) := by
  unfold State.lanesSet
  refine List.foldl_kept ?_ ?_
  assumption
  intro t u a
  exact State.setFlag_kept ‹_›
theorem State.spareStatSet_kept {s : State} (hk : Kept orig s) : Kept orig (State.spareStatSet s) := by
  unfold State.spareStatSet
  lift_lets -underBinder
  intro cores; try clear_value cores
  intro slices; try clear_value slices
  intro l2; try clear_value l2
  intro sc; try clear_value sc
  intro eng; try clear_value eng
  intro lanes; try clear_value lanes
  intro rows; try clear_value rows
  intro dram; try clear_value dram
  intro s1; refine via (p := Kept orig s1) ?_ fun hk => ?_; dsimp only [s1]
  exact State.setFld_kept (State.setFld_kept (State.setFld_kept (State.setFld_kept ‹_›)))
  clear_value s1
  exact State.setFld_kept (State.setFld_kept (State.setFld_kept (State.setFld_kept ‹_›)))
theorem State.mapApply_kept {s : State} (hk : Kept orig s) : Kept orig (State.mapApply s) := by
  unfold State.mapApply
  lift_lets -underBinder
  intro s1; refine via (p := Kept orig s1) ?_ fun hk => ?_; dsimp only [s1]
  refine List.foldl_kept ?_ ?_
  assumption
  intro t u a
  exact State.clusterForm_kept ‹_›
  clear_value s1
  intro s2; refine via (p := Kept orig s2) ?_ fun hk => ?_; dsimp only [s2]
  exact State.lanesSet_kept (State.engineMap_kept (State.engineMap_kept (State.teMapSet_kept (State.waymapsSet_kept ‹_›))))
  clear_value s2
  apply State.spareStatSet_kept
  refine List.foldl_kept ?_ ?_
  assumption
  intro t u a
  exact State.dramSpareShow_kept ‹_›
theorem State.mergeEntry_kept {s : State} (hk : Kept orig s) {e : SpareEnt} : Kept orig (State.mergeEntry s e) := by
  unfold State.mergeEntry
  split
  apply kept_mk
  assumption
  apply State.raise_kept
  apply kept_mk
  assumption
theorem State.mergeFuse_kept {s : State} (hk : Kept orig s) {k1 : Nat} : Kept orig (State.mergeFuse s k1) := by
  induction k1 generalizing s
  case' succ _ ih => unfold State.mergeFuse
  case' zero => unfold State.mergeFuse
  assumption
  split
  assumption
  apply ih
  exact State.raise_kept (State.fuseWrite_kept ‹_›)
theorem State.mapMerge_kept {s : State} (hk : Kept orig s) {nvjOk fuseOk : Bool} : Kept orig (State.mapMerge s nvjOk fuseOk)
    := by
  unfold State.mapMerge
  lift_lets -underBinder
  intro u; try clear_value u
  intro s0; refine via (p := Kept orig s0) ?_ fun hk => ?_; dsimp only [s0]
  split
  assumption
  apply State.raise_kept
  apply kept_mk
  assumption
  clear_value s0
  intro u; try clear_value u
  intro es; try clear_value es
  intro s1; refine via (p := Kept orig s1) ?_ fun hk => ?_; dsimp only [s1]
  refine List.foldl_kept ?_ ?_
  apply kept_mk
  assumption
  intro t u a
  split
  exact State.mergeEntry_kept ‹_›
  exact State.raise_kept ‹_›
  clear_value s1
  intro s2; refine via (p := Kept orig s2) ?_ fun hk => ?_; dsimp only [s2]
  exact State.fuseMoved_kept ‹_›
  clear_value s2
  split
  apply State.raise_kept
  apply kept_mk
  assumption
  exact State.mergeFuse_kept ‹_›
theorem State.spareOut_kept {s : State} (hk : Kept orig s) {kind group unit : Nat} : Kept orig (State.spareOut s kind group
    unit) := by
  unfold State.spareOut
  split
  assumption
  split
  apply State.spareTaken_kept
  apply kept_mk
  assumption
theorem State.clusterCondemn_kept {s : State} (hk : Kept orig s) {c v : Nat} : Kept orig (State.clusterCondemn s c v) := by
  unfold State.clusterCondemn
  lift_lets -underBinder
  intro s1; refine via (p := Kept orig s1) ?_ fun hk => ?_; dsimp only [s1]
  refine List.foldl_kept ?_ ?_
  assumption
  intro t u a
  exact State.condemn_kept ‹_›
  clear_value s1
  intro s2; refine via (p := Kept orig s2) ?_ fun hk => ?_; dsimp only [s2]
  refine List.foldl_kept ?_ ?_
  assumption
  intro t u a
  exact State.condemn_kept ‹_›
  clear_value s2
  refine List.foldl_kept ?_ ?_
  assumption
  intro t u a
  exact State.condemn_kept ‹_›
theorem State.engineCondemn_kept {s : State} (hk : Kept orig s) {scope unit : Nat} : Kept orig (State.engineCondemn s scope
    unit) := by
  unfold State.engineCondemn
  lift_lets -underBinder
  intro off; try clear_value off
  intro kind; try clear_value kind
  intro u; try clear_value u
  intro s1; refine via (p := Kept orig s1) ?_ fun hk => ?_; dsimp only [s1]
  split
  exact State.spareOut_kept ‹_›
  split
  assumption
  apply kept_mk
  assumption
  clear_value s1
  exact State.setFld_kept ‹_›
theorem State.engineBack_kept {s : State} (hk : Kept orig s) {scope unit : Nat} : Kept orig (State.engineBack s scope unit) :=
    by
  unfold State.engineBack
  lift_lets -underBinder
  intro off; try clear_value off
  split
  assumption
  exact State.setFld_kept (State.setFld_kept ‹_›)
theorem State.bistWipe_kept {s : State} (hk : Kept orig s) {scope unit : Nat} : Kept orig (State.bistWipe s scope unit) := by
  unfold State.bistWipe
  split
  lift_lets -underBinder
  intro s1; refine via (p := Kept orig s1) ?_ fun hk => ?_; dsimp only [s1]
  refine List.foldl_kept ?_ ?_
  assumption
  intro t u a
  exact State.onLp_kept ‹_›
  clear_value s1
  intro s2; refine via (p := Kept orig s2) ?_ fun hk => ?_; dsimp only [s2]
  refine List.foldl_kept ?_ ?_
  assumption
  intro t u a
  exact State.setReg_kept (State.setReg_kept (State.setReg_kept ‹_›))
  clear_value s2
  exact State.setReg_kept (State.onL2_kept ‹_›)
  assumption
theorem State.bistShow_kept {s : State} (hk : Kept orig s) {r : BistRun} {v : Nat} : Kept orig (State.bistShow s r v) := by
  unfold State.bistShow
  split
  lift_lets -underBinder
  intro s2; refine via (p := Kept orig s2) ?_ fun hk => ?_; dsimp only [s2]
  apply State.setReg_kept
  refine KeptSnd.of ‹_› ?_
  split
  exact KeptSnd.mk' ‹_›
  exact State.fresh_kept ‹_›
  clear_value s2
  exact State.setFlag_kept (State.setReg_kept (State.setReg_kept ‹_›))
theorem State.bistEnd_kept {s : State} (hk : Kept orig s) {r : BistRun} {fail : BitVec 31} : KeptFst orig (State.bistEnd s r
    fail) := by
  unfold State.bistEnd
  lift_lets -underBinder
  intro v; try clear_value v
  intro e; try clear_value e
  intro u; try clear_value u
  intro s1; refine via (p := Kept orig s1) ?_ fun hk => ?_; dsimp only [s1]
  apply State.bistShow_kept
  apply State.bistWipe_kept
  apply kept_mk
  assumption
  clear_value s1
  refine KeptFst.mk' ?_
  split
  exact State.engineBack_kept ‹_›
  split
  exact State.clusterCondemn_kept ‹_›
  exact State.engineCondemn_kept ‹_›
  assumption
theorem State.bistCtrlWrite_kept {s : State} (hk : Kept orig s) {v : Nat} : Kept orig (State.bistCtrlWrite s v) := by
  unfold State.bistCtrlWrite
  lift_lets -underBinder
  intro scope; try clear_value scope
  intro unit; try clear_value unit
  intro kind; try clear_value kind
  intro s1; refine via (p := Kept orig s1) ?_ fun hk => ?_; dsimp only [s1]
  exact State.setReg_kept ‹_›
  clear_value s1
  intro u; refine via (p := Kept orig u) ?_ fun hk => ?_; dsimp only [u]
  exact State.setFlag_kept ‹_›
  clear_value u
  intro u; try clear_value u
  split
  apply State.setFlag_kept
  apply kept_mk
  assumption
  assumption
theorem execBistDone_kept {s : State} (hk : Kept orig s) {fail : BitVec 31} : KeptOut orig (execBistDone fail s) := by
  unfold execBistDone
  refine KeptOut.next ?_
  split
  exact KeptFst.fst (State.bistEnd_kept ‹_›)
  assumption
theorem State.cmpTestShow_kept {s : State} (hk : Kept orig s) {c : Nat} {fails : List (Nat × Nat)} : Kept orig
    (State.cmpTestShow s c fails) := by
  unfold State.cmpTestShow
  lift_lets -underBinder
  intro lane; try clear_value lane
  intro mask; try clear_value mask
  intro s1; refine via (p := Kept orig s1) ?_ fun hk => ?_; dsimp only [s1]
  exact State.setReg_kept ‹_›
  clear_value s1
  exact State.setFld_kept ‹_›
theorem State.cmpTestRun_kept {s : State} (hk : Kept orig s) {c : Nat} {fails : List (Nat × Nat)} : Kept orig
    (State.cmpTestRun s c fails) := by
  unfold State.cmpTestRun
  lift_lets -underBinder
  intro bad; try clear_value bad
  intro s1; refine via (p := Kept orig s1) ?_ fun hk => ?_; dsimp only [s1]
  exact State.cmpTestShow_kept ‹_›
  clear_value s1
  intro s2; refine via (p := Kept orig s2) ?_ fun hk => ?_; dsimp only [s2]
  split
  exact State.spareOut_kept ‹_›
  assumption
  clear_value s2
  intro s3; refine via (p := Kept orig s3) ?_ fun hk => ?_; dsimp only [s3]
  refine List.foldl_kept ?_ ?_
  assumption
  intro t u a
  split
  assumption
  exact State.condemn_kept ‹_›
  clear_value s3
  split
  assumption
  exact State.raise_kept ‹_›
theorem State.lensSnapInt_kept {s : State} (hk : Kept orig s) : Kept orig (State.lensSnapInt s) := by
  unfold State.lensSnapInt
  refine List.foldl_kept ?_ ?_
  assumption
  intro t u a
  split
  exact State.onLp_kept ‹_›
  assumption
theorem State.lensSnap_kept {s : State} (hk : Kept orig s) {at_ : Stamp} : Kept orig (State.lensSnap s at_) := by
  unfold State.lensSnap
  lift_lets -underBinder
  intro live; try clear_value live
  intro s1; refine via (p := Kept orig s1) ?_ fun hk => ?_; dsimp only [s1]
  apply kept_mk
  assumption
  clear_value s1
  intro s2; refine via (p := Kept orig s2) ?_ fun hk => ?_; dsimp only [s2]
  exact State.setReg_kept (State.setReg_kept ‹_›)
  clear_value s2
  exact State.lensSnapInt_kept (State.setFlag_kept (State.setFlag_kept ‹_›))
theorem State.lensFreezeAct_kept {s : State} (hk : Kept orig s) : Kept orig (State.lensFreezeAct s) := by
  unfold State.lensFreezeAct
  lift_lets -underBinder
  intro u; refine via (p := Kept orig u) ?_ fun hk => ?_; dsimp only [u]
  exact State.setFlag_kept ‹_›
  clear_value u
  intro u; try clear_value u
  apply kept_mk
  assumption
theorem State.lensFreezeDue_kept {s : State} (hk : Kept orig s) : Kept orig (State.lensFreezeDue s) := by
  unfold State.lensFreezeDue
  split
  exact State.lensFreezeAct_kept ‹_›
  assumption
theorem State.lensCtrlWrite_kept {s : State} (hk : Kept orig s) {v : Nat} : Kept orig (State.lensCtrlWrite s v) := by
  unfold State.lensCtrlWrite
  lift_lets -underBinder
  intro s1; refine via (p := Kept orig s1) ?_ fun hk => ?_; dsimp only [s1]
  apply State.setFlag_kept
  split
  exact State.setFlag_kept ‹_›
  assumption
  clear_value s1
  intro u; try clear_value u
  intro s2; refine via (p := Kept orig s2) ?_ fun hk => ?_; dsimp only [s2]
  apply State.lensFreezeDue_kept
  apply kept_mk
  assumption
  clear_value s2
  intro s3; refine via (p := Kept orig s3) ?_ fun hk => ?_; dsimp only [s3]
  exact State.setFlag_kept ‹_›
  clear_value s3
  split
  split
  exact State.lensSnap_kept ‹_›
  assumption
  assumption
theorem execLensSnapshot_kept {s : State} (hk : Kept orig s) : KeptOut orig (execLensSnapshot s) := by
  unfold execLensSnapshot
  refine KeptOut.next ?_
  split
  exact State.lensSnap_kept ‹_›
  assumption
theorem execLensFreeze_kept {s : State} (hk : Kept orig s) : KeptOut orig (execLensFreeze s) :=
  KeptOut.next (State.lensFreezeDue_kept hk)
theorem State.lensGain_kept {s : State} (hk : Kept orig s) {off gain : Nat} : Kept orig (State.lensGain s off gain) := by
  unfold State.lensGain
  split
  split
  split
  exact State.countLp_kept ‹_›
  assumption
  split
  exact State.count_kept ‹_›
  assumption
  split
  exact State.count_kept ‹_›
  assumption
  exact State.count_kept ‹_›
  assumption
theorem execLensWrap_kept {s : State} (hk : Kept orig s) {page i gain : Nat} : KeptOut orig (execLensWrap page i gain s) := by
  unfold execLensWrap
  split
  exact KeptOut.next (State.lensGain_kept ‹_›)
  exact KeptOut.refused
theorem State.cmpStatW1c_kept {s : State} (hk : Kept orig s) {c k : Nat} : Kept orig (State.cmpStatW1c s c k) := by
  unfold State.cmpStatW1c
  lift_lets -underBinder
  intro off; try clear_value off
  exact State.setReg_kept (State.setReg_kept (State.setFld_kept (State.setFld_kept (State.setFlag_kept ‹_›))))
theorem State.accessRefused_kept {s : State} (hk : Kept orig s) {off size master : Nat} : Kept orig (State.accessRefused s off
    size master) := by
  unfold State.accessRefused
  split
  split
  assumption
  exact State.mbxErrLog_kept ‹_›
  assumption
theorem readReg_kept {s : State} (hk : Kept orig s) {master priv off size : Nat} : KeptOptFst orig (readReg s master priv off
    size) := by
  unfold readReg
  split
  exact KeptOptFst.none
  split
  exact KeptOptFst.none
  exact KeptOptFst.some (KeptFst.mk' ‹_›)
  split
  exact KeptOptFst.none
  split
  split
  refine KeptOptFst.some ?_
  refine KeptFst.mk' ?_
  refine KeptSnd.of ‹_› ?_
  exact State.fresh_kept ‹_›
  split
  exact KeptOptFst.none
  lift_lets -underBinder
  intro r; try clear_value r
  intro s1; refine via (p := Kept orig s1) ?_ fun hk => ?_; dsimp only [s1]
  split
  assumption
  exact State.setReg_kept ‹_›
  clear_value s1
  refine KeptOptFst.some ?_
  refine KeptFst.mk' ?_
  split
  apply kept_mk
  assumption
  assumption
theorem State.rmCtrlWrite_kept {s : State} (hk : Kept orig s) {e : RangeEngine} {d : RegDesc} {v : Nat} : Kept orig
    (State.rmCtrlWrite s e d v) := by
  unfold State.rmCtrlWrite
  split
  exact State.rmStart_kept ‹_›
  exact State.setReg_kept ‹_›
theorem State.regWrite_kept {s : State} (hk : Kept orig s) {d : RegDesc} {ix : List Nat} {master off v : Nat} : KeptFst orig
    (State.regWrite s d ix master off v) := by
  unfold State.regWrite
  lift_lets -underBinder
  intro plain; refine via (p := Kept orig plain) ?_ fun hk => ?_; dsimp only [plain]
  exact State.setReg_kept ‹_›
  clear_value plain
  intro ringReg
  split
  refine KeptFst.mk' ?_
  split
  exact State.cmpStatW1c_kept ‹_›
  assumption
  refine KeptFst.mk' ?_
  split
  exact State.onLp_kept ‹_›
  assumption
  exact KeptFst.mk' (State.timerDue_kept ‹_›)
  exact KeptFst.mk' (State.timerDue_kept ‹_›)
  exact KeptFst.mk' (State.lockenWrite_kept ‹_›)
  exact KeptFst.mk' (State.lockenWrite_kept ‹_›)
  refine KeptFst.mk' ?_
  split
  assumption
  assumption
  refine KeptFst.mk' ?_
  split
  assumption
  assumption
  exact KeptFst.mk' (State.rmCtrlWrite_kept ‹_›)
  exact KeptFst.mk' (State.rmCtrlWrite_kept ‹_›)
  refine KeptFst.mk' ?_
  split
  assumption
  exact State.durWrite_kept ‹_›
  lift_lets -underBinder
  intro r; try clear_value r
  refine KeptFst.mk' ?_
  split
  assumption
  exact State.setFld_kept ‹_›
  refine KeptFst.mk' ?_
  dsimp only [ringReg]
  split
  assumption
  assumption
  refine KeptFst.mk' ?_
  dsimp only [ringReg]
  split
  assumption
  assumption
  refine KeptFst.mk' ?_
  dsimp only [ringReg]
  split
  assumption
  assumption
  refine KeptFst.mk' ?_
  dsimp only [ringReg]
  split
  assumption
  assumption
  refine KeptFst.mk' ?_
  dsimp only [ringReg]
  split
  assumption
  assumption
  exact KeptFst.mk' (State.tqCfgWrite_kept ‹_›)
  exact State.tqTailWrite_kept ‹_›
  exact KeptFst.mk' (State.tqFlush_kept ‹_›)
  exact KeptFst.mk' (State.portCfgPut_kept ‹_›)
  exact KeptFst.mk' (State.prpCfgWrite_kept ‹_›)
  exact KeptFst.mk' (State.msecCfgWrite_kept ‹_›)
  refine KeptFst.mk' ?_
  split
  assumption
  assumption
  exact KeptFst.mk' (State.lnkCfgWrite_kept ‹_›)
  refine KeptFst.mk' ?_
  split
  exact State.setFld_kept ‹_›
  assumption
  exact KeptFst.mk' (State.timeCtrlWrite_kept ‹_›)
  exact KeptFst.mk' (State.setRate_kept ‹_›)
  exact KeptFst.mk' (State.timeAdjWrite_kept ‹_›)
  exact KeptFst.mk' (State.ppsCfgWrite_kept ‹_›)
  refine KeptFst.mk' ?_
  split
  assumption
  assumption
  refine KeptFst.mk' ?_
  split
  assumption
  assumption
  refine KeptFst.mk' ?_
  split
  assumption
  assumption
  refine KeptFst.mk' ?_
  split
  assumption
  assumption
  refine KeptFst.mk' ?_
  split
  assumption
  assumption
  refine KeptFst.mk' ?_
  split
  assumption
  assumption
  refine KeptFst.mk' ?_
  split
  assumption
  assumption
  refine KeptFst.mk' ?_
  split
  assumption
  assumption
  exact KeptFst.mk' (State.jCfgWrite_kept ‹_›)
  exact KeptFst.mk' (State.jCfgWrite_kept ‹_›)
  exact State.jTailWrite_kept ‹_›
  exact State.jTailWrite_kept ‹_›
  exact KeptFst.mk' (State.jCqheadWrite_kept ‹_›)
  exact KeptFst.mk' (State.jCqheadWrite_kept ‹_›)
  exact KeptFst.mk' (State.keyCmdWrite_kept ‹_›)
  exact KeptFst.mk' (State.mbxTx_kept ‹_›)
  exact KeptFst.mk' (State.mbxPost_kept ‹_›)
  exact KeptFst.mk' (State.mbxRingSet_kept ‹_›)
  exact KeptFst.mk' (State.mbxPopWith_kept ‹_›)
  exact KeptFst.mk' (State.mbxBindWrite_kept ‹_›)
  exact KeptFst.mk' (State.errPinWrite_kept ‹_›)
  exact KeptFst.mk' (State.errStatusW1c_kept ‹_›)
  refine KeptFst.mk' ?_
  split
  exact State.errFirstW1c_kept ‹_›
  assumption
  exact KeptFst.mk' (State.errReactSet_kept ‹_›)
  exact KeptFst.mk' (State.errReactSet_kept ‹_›)
  refine KeptFst.mk' ?_
  split
  exact State.errSrcW1c_kept ‹_›
  assumption
  exact KeptFst.mk' (State.bistCtrlWrite_kept ‹_›)
  exact KeptFst.mk' (State.setReg_kept ‹_›)
  exact KeptFst.mk' (State.setReg_kept ‹_›)
  exact KeptFst.mk' (State.lensCtrlWrite_kept ‹_›)
  exact KeptFst.mk' (State.dbClear_kept ‹_›)
  exact KeptFst.mk' (State.dbMaskSet_kept ‹_›)
  exact KeptFst.mk' (State.dbClear_kept ‹_›)
  exact KeptFst.mk' (State.dbMaskSet_kept ‹_›)
  exact KeptFst.mk' (State.dbClear_kept ‹_›)
  exact KeptFst.mk' (State.dbMaskSet_kept ‹_›)
  split
  refine KeptFst.mk' ?_
  split
  apply kept_mk
  assumption
  assumption
  split
  refine KeptFst.mk' ?_
  split
  exact State.setReg_kept ‹_›
  assumption
  exact KeptFst.mk' ‹_›
theorem writeReg_kept {s : State} (hk : Kept orig s) {master priv off size v : Nat} : KeptFst orig (writeReg s master priv off
    size v) := by
  unfold writeReg
  split
  exact KeptFst.mk' ‹_›
  exact KeptFst.mk' ‹_›
  split
  exact State.regWrite_kept ‹_›
  exact KeptFst.mk' (State.accessRefused_kept ‹_›)
theorem State.hostWriteLog_kept {s : State} (hk : Kept orig s) {n a : Nat} : KeptFst orig (State.hostWriteLog s n a) := by
  unfold State.hostWriteLog
  lift_lets -underBinder
  intro f; try clear_value f
  intro r; try clear_value r
  intro page; try clear_value page
  split
  exact KeptFst.mk' ‹_›
  split
  lift_lets -underBinder
  intro d; try clear_value d
  split
  refine KeptFst.mk' ?_
  apply kept_mk
  assumption
  exact KeptFst.mk' (State.raise_kept (State.logCause_kept (State.setReg_kept ‹_›)))
  exact KeptFst.mk' ‹_›
  exact KeptFst.mk' ‹_›
theorem State.storeWb_kept {s : State} (hk : Kept orig s) {n a : Nat} {bs : List Byte} : Kept orig (State.storeWb s n a bs) :=
    by
  unfold State.storeWb
  lift_lets -underBinder
  intro line; try clear_value line
  intro s1; refine via (p := Kept orig s1) ?_ fun hk => ?_; dsimp only [s1]
  split
  exact State.l1Siblings_kept (State.l2Own_kept ‹_›)
  assumption
  clear_value s1
  intro s2; refine via (p := Kept orig s2) ?_ fun hk => ?_; dsimp only [s2]
  exact State.onLp_kept (State.clearRsv_kept ‹_›)
  clear_value s2
  split
  refine kept_mk_mem ?_ memWriteBytes_wf
  assumption
  exact State.lineWrite_kept ‹_›
theorem State.performStore_kept {s : State} (hk : Kept orig s) {n : Nat} {t : MemType} {priv a : Nat} {bs : List Byte} :
    KeptPerf orig (State.performStore s n t priv a bs) := by
  unfold State.performStore
  split
  split
  exact KeptPerf.done (State.storeWb_kept ‹_›)
  exact KeptPerf.done (State.lineWrite_kept ‹_›)
  split
  split
  split
  split
  refine KeptPerf.done ?_
  apply State.storeWb_kept
  refine KeptFst.of ‹_› ?_
  exact State.hostWriteLog_kept ‹_›
  refine KeptPerf.done ?_
  apply State.countHub_kept
  apply State.clearRsv_kept
  refine kept_mk_mem ?_ memWriteBytes_wf
  refine KeptFst.of ‹_› ?_
  exact State.hostWriteLog_kept ‹_›
  refine KeptPerf.held ?_
  refine KeptFst.of ‹_› ?_
  exact State.hostWriteLog_kept ‹_›
  exact KeptPerf.busError ‹_›
  split
  split
  refine KeptPerf.done ?_
  refine KeptFst.of ‹_› ?_
  exact writeReg_kept ‹_›
  refine KeptPerf.busError ?_
  refine KeptFst.of ‹_› ?_
  exact writeReg_kept ‹_›
  exact KeptPerf.busError ‹_›
  exact KeptPerf.busError ‹_›
theorem State.maintRefused_kept {s : State} (hk : Kept orig s) {n : Nat} : Kept orig (State.maintRefused s n) := by
  unfold State.maintRefused
  split
  exact State.setFlag_kept ‹_›
  assumption
theorem State.clineAt_kept {s : State} (hk : Kept orig s) {n op : Nat} {device : Bool} {line : Nat} : Kept orig (State.clineAt
    s n op device line) := by
  unfold State.clineAt
  split
  exact State.lineOp_kept ‹_›
  split
  exact State.devZero_kept ‹_›
  assumption
theorem State.pflkAt_kept {s : State} (hk : Kept orig s) {n way : Nat} {sc : Bool} {line : Nat} : Kept orig (State.pflkAt s n
    way sc line) := by
  unfold State.pflkAt
  split
  refine KeptOpt.of ?_ ‹_›
  split
  exact State.placeSc_kept ‹_›
  split
  exact State.placeL2_kept ‹_›
  exact KeptOpt.none
  exact State.maintRefused_kept ‹_›
theorem State.performEntry_kept {s : State} (hk : Kept orig s) {n : Nat} {e : SbEntry} : KeptPerf orig (State.performEntry s n
    e) := by
  unfold State.performEntry
  split
  exact State.performStore_kept ‹_›
  exact KeptPerf.done (State.clineAt_kept ‹_›)
  exact KeptPerf.done (State.pflkAt_kept ‹_›)
  exact KeptPerf.done (State.maintRefused_kept ‹_›)
theorem State.drainOne_kept {s : State} (hk : Kept orig s) {n : Nat} : KeptFst orig (State.drainOne s n) := by
  unfold State.drainOne
  lift_lets -underBinder
  intro p; try clear_value p
  split
  split
  exact KeptFst.mk' ‹_›
  exact KeptFst.mk' (State.onLp_kept ‹_›)
  lift_lets -underBinder
  intro cand; try clear_value cand
  split
  exact KeptFst.mk' ‹_›
  split
  lift_lets -underBinder
  intro i; try clear_value i
  split
  exact KeptFst.mk' ‹_›
  lift_lets -underBinder
  intro mark
  split
  split
  split
  refine KeptFst.mk' ?_
  apply State.onLp_kept
  refine KeptPerf.of1 ?_ ‹_›
  apply State.performEntry_kept
  refine KeptSnd.of ‹_› ?_
  split
  exact KeptSnd.mk' ‹_›
  exact State.fresh_kept ‹_›
  refine KeptFst.mk' ?_
  dsimp only [mark]
  apply State.onLp_kept
  refine KeptPerf.of1 ?_ ‹_›
  apply State.performEntry_kept
  refine KeptSnd.of ‹_› ?_
  split
  exact KeptSnd.mk' ‹_›
  exact State.fresh_kept ‹_›
  refine KeptFst.mk' ?_
  dsimp only [mark]
  apply State.onLp_kept
  refine KeptPerf.of1 ?_ ‹_›
  apply State.performEntry_kept
  refine KeptSnd.of ‹_› ?_
  split
  exact KeptSnd.mk' ‹_›
  exact State.fresh_kept ‹_›
  refine KeptFst.mk' ?_
  dsimp only [mark]
  apply State.onLp_kept
  apply State.onLp_kept
  refine KeptPerf.of3 ?_ ‹_›
  apply State.performEntry_kept
  refine KeptSnd.of ‹_› ?_
  split
  exact KeptSnd.mk' ‹_›
  exact State.fresh_kept ‹_›
  refine KeptFst.mk' ?_
  refine KeptPerf.of2 ?_ ‹_›
  apply State.performEntry_kept
  refine KeptSnd.of ‹_› ?_
  split
  exact KeptSnd.mk' ‹_›
  exact State.fresh_kept ‹_›
theorem State.drainFor_kept {s : State} (hk : Kept orig s) {n k2 : Nat} : Kept orig (State.drainFor s n k2) := by
  induction k2 generalizing s n
  case' succ _ ih => unfold State.drainFor
  case' zero => unfold State.drainFor
  assumption
  split
  assumption
  split
  split
  apply ih
  refine KeptFst.of ‹_› ?_
  exact State.drainOne_kept ‹_›
  refine KeptFst.of ‹_› ?_
  exact State.drainOne_kept ‹_›
theorem State.drainAll_kept {s : State} (hk : Kept orig s) {n : Nat} : Kept orig (State.drainAll s n) :=
  State.drainFor_kept hk
theorem State.drainPast_kept {s : State} (hk : Kept orig s) {n a len k4 : Nat} : Kept orig (State.drainPast s n a len k4) :=
    by
  induction k4 generalizing s n a len
  case' succ _ ih => unfold State.drainPast
  case' zero => unfold State.drainPast
  assumption
  split
  split
  split
  apply ih
  refine KeptFst.of ‹_› ?_
  exact State.drainOne_kept ‹_›
  refine KeptFst.of ‹_› ?_
  exact State.drainOne_kept ‹_›
  assumption

end Sys2Proof.Machine
end

