-- ==== Sys2Proof/Laws/KeptProcessors.lean ====
section
/-! SUPPORT. `Kept` of the operations of the logical processors. -/

namespace Sys2Proof.Machine

variable {orig : State}

theorem State.missFills_kept {s : State} (hk : Kept orig s) {n a size : Nat} : Kept orig (State.missFills s n a size) := by
  unfold State.missFills
  refine List.foldl_kept ?_ ?_
  assumption
  intro t u a
  split
  exact State.onLp_kept ‹_›
  exact State.countLp_kept (State.askFill_kept ‹_›)
theorem State.load_kept {s : State} (hk : Kept orig s) {n a size : Nat} {t : MemType} : KeptOptFst orig (State.load s n a size
    t) := by
  unfold State.load
  split
  lift_lets -underBinder
  intro s1; refine via (p := Kept orig s1) ?_ fun hk => ?_; dsimp only [s1]
  exact State.drainAll_kept ‹_›
  clear_value s1
  split
  lift_lets -underBinder
  intro m; try clear_value m
  intro pr; try clear_value pr
  split
  split
  exact KeptOptFst.none
  split
  exact KeptOptFst.none
  refine KeptOptFst.some ?_
  refine KeptFst.mk' ?_
  refine KeptOptFst.of ?_ ‹_›
  apply readReg_kept
  refine KeptOptFst.of ?_ ‹_›
  exact readReg_kept ‹_›
  exact readReg_kept ‹_›
  split
  exact KeptOptFst.none
  exact KeptOptFst.some (KeptFst.mk' ‹_›)
  split
  exact KeptOptFst.some (KeptFst.mk' (State.countHub_kept ‹_›))
  exact KeptOptFst.none
  exact KeptOptFst.none
  lift_lets -underBinder
  intro held; try clear_value held
  intro s1; refine via (p := Kept orig s1) ?_ fun hk => ?_; dsimp only [s1]
  split
  exact State.countLp_kept ‹_›
  exact State.drainPast_kept ‹_›
  clear_value s1
  intro ok; try clear_value ok
  split
  exact KeptOptFst.some (KeptFst.mk' ‹_›)
  split
  exact KeptOptFst.none
  split
  exact KeptOptFst.some (KeptFst.mk' (State.missFills_kept ‹_›))
  exact KeptOptFst.some (KeptFst.mk' ‹_›)
theorem State.push_kept {s : State} (hk : Kept orig s) {n : Nat} {e : SbEntry} : Kept orig (State.push s n e) := by
  unfold State.push
  lift_lets -underBinder
  intro s1; refine via (p := Kept orig s1) ?_ fun hk => ?_; dsimp only [s1]
  split
  exact KeptFst.fst (State.drainOne_kept ‹_›)
  assumption
  clear_value s1
  exact State.onLp_kept ‹_›
theorem State.store_kept {s : State} (hk : Kept orig s) {n a : Nat} {t : MemType} {bs : List Byte} : Kept orig (State.store s
    n a t bs) := by
  unfold State.store
  lift_lets -underBinder
  intro s1; refine via (p := Kept orig s1) ?_ fun hk => ?_; dsimp only [s1]
  refine List.foldl_kept ?_ ?_
  assumption
  intro t u a
  exact State.push_kept ‹_›
  clear_value s1
  exact State.onLp_kept ‹_›
theorem State.wwrite_kept {s : State} (hk : Kept orig s) {n off size v : Nat} : Kept orig (State.wwrite s n off size v) :=
  State.store_kept hk
theorem State.halt_kept {s : State} (hk : Kept orig s) {n vec framePc : Nat} : Kept orig (State.halt s n vec framePc) := by
  unfold State.halt
  lift_lets -underBinder
  intro s1; refine via (p := Kept orig s1) ?_ fun hk => ?_; dsimp only [s1]
  exact State.onLp_kept ‹_›
  clear_value s1
  intro s2; refine via (p := Kept orig s2) ?_ fun hk => ?_; dsimp only [s2]
  split
  exact State.raise_kept ‹_›
  exact State.cpLost_kept (State.raise_kept ‹_›)
  clear_value s2
  exact State.event_kept ‹_›
theorem State.enter_kept {s : State} (hk : Kept orig s) {n vec : Nat} {t : Trap} {target framePc framePs : Nat} {ipl : Option
    Nat} {mt : MemType} : Kept orig (State.enter s n vec t target framePc framePs ipl mt) := by
  unfold State.enter
  lift_lets -underBinder
  intro p; try clear_value p
  intro tsp; try clear_value tsp
  intro s1; refine via (p := Kept orig s1) ?_ fun hk => ?_; dsimp only [s1]
  exact State.countLp_kept (State.onLp_kept ‹_›)
  clear_value s1
  intro s2; refine via (p := Kept orig s2) ?_ fun hk => ?_; dsimp only [s2]
  exact State.store_kept ‹_›
  clear_value s2
  exact State.onLp_kept ‹_›
theorem State.takeEvent_kept {s : State} (hk : Kept orig s) {n : Nat} {t : Trap} {framePc framePs : Nat} {ipl : Option Nat} :
    Kept orig (State.takeEvent s n t framePc framePs ipl) := by
  unfold State.takeEvent
  lift_lets -underBinder
  intro p; try clear_value p
  intro target; try clear_value target
  split
  exact State.enter_kept ‹_›
  split
  split
  exact State.enter_kept ‹_›
  exact State.halt_kept ‹_›
  exact State.halt_kept ‹_›
theorem State.trap_kept {s : State} (hk : Kept orig s) {n : Nat} {t : Trap} {framePc : Nat} : Kept orig (State.trap s n t
    framePc) := by
  unfold State.trap
  lift_lets -underBinder
  intro s1; refine via (p := Kept orig s1) ?_ fun hk => ?_; dsimp only [s1]
  split
  exact State.accessRefused_kept ‹_›
  assumption
  clear_value s1
  exact State.countLp_kept (State.takeEvent_kept ‹_›)
theorem State.stop_kept {s : State} (hk : Kept orig s) {n : Nat} {t : Trap} {framePc : Nat} : Kept orig (State.stop s n t
    framePc) := by
  unfold State.stop
  split
  assumption
  exact State.trap_kept ‹_›
theorem State.takeNext_kept {s : State} (hk : Kept orig s) {n framePc framePs : Nat} : Kept orig (State.takeNext s n framePc
    framePs) := by
  unfold State.takeNext
  split
  assumption
  exact State.halt_kept (State.onLp_kept ‹_›)
  exact State.takeEvent_kept (State.onLp_kept ‹_›)
  exact State.takeEvent_kept (State.onLp_kept ‹_›)
  exact State.takeEvent_kept (State.onLp_kept ‹_›)
  lift_lets -underBinder
  intro s1; refine via (p := Kept orig s1) ?_ fun hk => ?_; dsimp only [s1]
  exact State.onLp_kept ‹_›
  clear_value s1
  intro s2; refine via (p := Kept orig s2) ?_ fun hk => ?_; dsimp only [s2]
  split
  exact State.setReg_kept ‹_›
  assumption
  clear_value s2
  exact State.countLp_kept (State.takeEvent_kept ‹_›)
theorem State.commit_kept {s : State} (hk : Kept orig s) {n nextPc : Nat} : Kept orig (State.commit s n nextPc) := by
  unfold State.commit
  lift_lets -underBinder
  intro s1; refine via (p := Kept orig s1) ?_ fun hk => ?_; dsimp only [s1]
  exact State.onLp_kept ‹_›
  clear_value s1
  intro s2; refine via (p := Kept orig s2) ?_ fun hk => ?_; dsimp only [s2]
  exact State.countLp_kept ‹_›
  clear_value s2
  split
  exact State.onPair_kept (State.bumpReg_kept (State.countLp_kept (State.setFld_kept ‹_›)))
  assumption
theorem State.place_kept {s : State} (hk : Kept orig s) {n idx : Nat} {o : Opd} : KeptExcFst orig (State.place s n idx o) :=
    by
  unfold State.place
  lift_lets -underBinder
  intro p; try clear_value p
  intro step; try clear_value step
  split
  exact KeptExcFst.ok (KeptFst.mk' ‹_›)
  exact KeptExcFst.ok (KeptFst.mk' ‹_›)
  exact KeptExcFst.ok (KeptFst.mk' ‹_›)
  exact KeptExcFst.ok (KeptFst.mk' ‹_›)
  exact KeptExcFst.ok (KeptFst.mk' ‹_›)
  exact KeptExcFst.ok (KeptFst.mk' ‹_›)
  exact KeptExcFst.ok (KeptFst.mk' (State.onLp_kept ‹_›))
  lift_lets -underBinder
  intro a; try clear_value a
  exact KeptExcFst.ok (KeptFst.mk' (State.onLp_kept ‹_›))
  lift_lets -underBinder
  intro q; try clear_value q
  split
  exact KeptExcFst.error
  split
  exact KeptExcFst.error
  split
  exact KeptExcFst.error
  refine KeptExcFst.ok ?_
  refine KeptFst.mk' ?_
  refine KeptOptFst.of ?_ ‹_›
  exact State.load_kept ‹_›
  exact KeptExcFst.ok (KeptFst.mk' ‹_›)
  exact KeptExcFst.ok (KeptFst.mk' ‹_›)
  exact KeptExcFst.ok (KeptFst.mk' ‹_›)
  exact KeptExcFst.ok (KeptFst.mk' ‹_›)
  exact KeptExcFst.ok (KeptFst.mk' ‹_›)
  exact KeptExcFst.ok (KeptFst.mk' ‹_›)
theorem State.places_kept {s : State} (hk : Kept orig s) {n k2 : Nat} {k3 : List Opd} : KeptFst orig (State.places s n k2 k3)
    := by
  induction k3 generalizing s n k2
  case' cons _ _ ih => unfold State.places
  case' nil => unfold State.places
  exact KeptFst.mk' ‹_›
  split
  exact KeptFst.mk' ‹_›
  split
  refine KeptFst.mk' ?_
  refine KeptFst.of ‹_› ?_
  apply ih
  refine KeptExcFst.of ?_ ‹_›
  exact State.place_kept ‹_›
theorem State.fetchOpd_kept {s : State} (hk : Kept orig s) {n idx : Nat} {o : Opd} {pl : Place} : KeptExcFst orig
    (State.fetchOpd s n idx o pl) := by
  unfold State.fetchOpd
  lift_lets -underBinder
  intro p; try clear_value p
  intro reads; try clear_value reads
  split
  exact KeptExcFst.ok (KeptFst.mk' ‹_›)
  exact KeptExcFst.ok (KeptFst.mk' ‹_›)
  split
  exact KeptExcFst.error
  exact KeptExcFst.ok (KeptFst.mk' ‹_›)
  split
  exact KeptExcFst.ok (KeptFst.mk' ‹_›)
  split
  exact KeptExcFst.error
  split
  exact KeptExcFst.error
  split
  split
  exact KeptExcFst.error
  split
  exact KeptExcFst.error
  lift_lets -underBinder
  intro s0; refine via (p := Kept orig s0) ?_ fun hk => ?_; dsimp only [s0]
  exact State.drainAll_kept ‹_›
  clear_value s0
  intro ok; try clear_value ok
  split
  exact KeptExcFst.ok (KeptFst.mk' ‹_›)
  exact KeptExcFst.error
  split
  exact KeptExcFst.error
  split
  split
  exact KeptExcFst.error
  refine KeptExcFst.ok ?_
  refine KeptFst.mk' ?_
  refine KeptOptFst.of ?_ ‹_›
  exact State.load_kept ‹_›
  exact KeptExcFst.ok (KeptFst.mk' ‹_›)
theorem State.fetchOpds_kept {s : State} (hk : Kept orig s) {n : Nat} {late : Option Trap} {idx : Nat} {os : List Opd}
    {ps : List Place} : KeptExcFst orig (State.fetchOpds s n late idx os ps) := by
  have tail : ∀ {u : State}, Kept orig u →
      KeptExcFst orig (match late with | some t => Except.error t | none => Except.ok (u, ([] : List Nat))) := by
    intro u hu
    split
    · exact KeptExcFst.error
    · exact KeptExcFst.ok (KeptFst.mk' hu)
  induction os generalizing s idx ps with
  | nil => unfold State.fetchOpds; exact tail hk
  | cons o os ih =>
    cases ps with
    | nil => unfold State.fetchOpds; exact tail hk
    | cons pl ps =>
      unfold State.fetchOpds
      split
      · exact KeptExcFst.error
      · have h1 := (State.fetchOpd_kept (o := o) (pl := pl) (n := n) (idx := idx) hk).of ‹_›
        split
        · exact KeptExcFst.error
        · exact KeptExcFst.ok (KeptFst.mk' ((ih h1).of ‹_›))
theorem State.putOpd_kept {s : State} (hk : Kept orig s) {n : Nat} {o : Opd} {pl : Place} {v : Nat} : Kept orig (State.putOpd
    s n o pl v) := by
  unfold State.putOpd
  split
  assumption
  exact State.onLp_kept ‹_›
  exact State.wwrite_kept ‹_›
  lift_lets -underBinder
  intro p; try clear_value p
  split
  split
  exact State.storeWb_kept ‹_›
  exact State.store_kept ‹_›
  assumption
theorem Ready.put_kept {s : State} (hk : Kept orig s) {r : Ready} {n i v : Nat} : Kept orig (Ready.put r s n i v) := by
  unfold Ready.put
  split
  exact State.putOpd_kept ‹_›
  assumption
theorem State.fetchFills_kept {s : State} (hk : Kept orig s) {n len : Nat} : Kept orig (State.fetchFills s n len) := by
  unfold State.fetchFills
  refine List.foldl_kept ?_ ?_
  assumption
  intro t u a
  split
  exact State.onLp_kept ‹_›
  exact State.countLp_kept (State.askFill_kept ‹_›)
theorem State.reservedEffect_kept {s : State} (hk : Kept orig s) {n len : Nat} : Kept orig (State.reservedEffect s n len) :=
    by
  unfold State.reservedEffect
  split
  split
  split
  apply State.commit_kept
  apply State.onLp_kept
  refine KeptSnd.of ‹_› ?_
  apply State.fresh_kept
  refine KeptSnd.of ‹_› ?_
  apply State.fresh_kept
  refine KeptSnd.of ‹_› ?_
  exact State.fresh_kept ‹_›
theorem execOn_kept {s : State} (hk : Kept orig s) {n opBytes maxLevel : Nat} {os : List Opd} {f : State → Ready → Nat →
    Except Trap (State × Nat)} (kept_f : ∀ y0 y1 y2, Kept orig y0 → KeptExcFst orig (f y0 y1 y2)) : Kept orig (execOn n
    opBytes maxLevel os s f) := by
  unfold execOn
  split
  assumption
  lift_lets -underBinder
  intro len; try clear_value len
  intro pc; try clear_value pc
  split
  exact State.trap_kept ‹_›
  split
  exact State.trap_kept ‹_›
  split
  exact State.trap_kept ‹_›
  split
  exact State.reservedEffect_kept ‹_›
  lift_lets -underBinder
  intro s0; refine via (p := Kept orig s0) ?_ fun hk => ?_; dsimp only [s0]
  exact State.fetchFills_kept ‹_›
  clear_value s0
  split
  split
  exact State.stop_kept ‹_›
  lift_lets -underBinder
  intro s3; refine via (p := Kept orig s3) ?_ fun hk => ?_; dsimp only [s3]
  split
  apply State.onLp_kept
  refine KeptExcFst.of ?_ ‹_›
  apply State.fetchOpds_kept
  refine KeptFst.of ‹_› ?_
  exact State.places_kept ‹_›
  refine KeptExcFst.of ?_ ‹_›
  apply State.fetchOpds_kept
  refine KeptFst.of ‹_› ?_
  exact State.places_kept ‹_›
  clear_value s3
  split
  exact State.stop_kept ‹_›
  split
  assumption
  apply State.commit_kept
  refine KeptExcFst.of ?_ ‹_›
  apply kept_f
  assumption
theorem State.setFlags_kept {s : State} (hk : Kept orig s) {n : Nat} {f : Flags} : Kept orig (State.setFlags s n f) :=
  State.onLp_kept hk
theorem finish_kept {s : State} (hk : Kept orig s) {n : Nat} {ovf : Bool} {r : Ready} {next : Nat} {x : Nat × Flags} :
    KeptExcFst orig (finish n ovf s r next x) := by
  unfold finish
  split
  exact KeptExcFst.error
  exact KeptExcFst.ok (KeptFst.mk' (State.setFlags_kept (Ready.put_kept ‹_›)))
theorem arith3_kept {s : State} (hk : Kept orig s) {n opBytes size : Nat} {ovf : Bool} {d a b : Spec} {f : Flags → Nat → Nat →
    Nat × Flags} : Kept orig (arith3 n opBytes size ovf d a b s f) := by
  unfold arith3
  apply execOn_kept
  assumption
  intro y0 y1 y2 a
  exact finish_kept ‹_›
theorem arithDiv_kept {s : State} (hk : Kept orig s) {n opBytes size : Nat} {ovf : Bool} {d a b : Spec} {f : Nat → Nat → Nat ×
    Flags} : Kept orig (arithDiv n opBytes size ovf d a b s f) := by
  unfold arithDiv
  apply execOn_kept
  assumption
  intro y0 y1 y2 a
  split
  exact KeptExcFst.error
  exact finish_kept ‹_›
theorem flags2_kept {s : State} (hk : Kept orig s) {n size : Nat} {a b : Spec} {f : Nat → Nat → Flags} : Kept orig (flags2 n
    size a b s f) := by
  unfold flags2
  apply execOn_kept
  assumption
  intro y0 y1 y2 a
  exact KeptExcFst.ok (KeptFst.mk' (State.setFlags_kept ‹_›))
theorem move2_kept {s : State} (hk : Kept orig s) {n opBytes dsize asize : Nat} {d a : Spec} {f : Nat → Nat} : Kept orig
    (move2 n opBytes dsize asize d a s f) := by
  unfold move2
  apply execOn_kept
  assumption
  intro y0 y1 y2 a
  exact KeptExcFst.ok (KeptFst.mk' (Ready.put_kept ‹_›))
theorem count2_kept {s : State} (hk : Kept orig s) {n : Nat} {d a : Spec} {f : Nat → Nat} : Kept orig (count2 n d a s f) := by
  unfold count2
  apply execOn_kept
  assumption
  intro y0 y1 y2 a
  lift_lets -underBinder
  intro u; try clear_value u
  exact KeptExcFst.ok (KeptFst.mk' (State.setFlags_kept (Ready.put_kept ‹_›)))
theorem execAdc_kept {s : State} (hk : Kept orig s) {n : Nat} {sz : ISize} {d a b : Spec} : KeptOut orig (execAdc n sz d a b
    s) := by
  unfold execAdc
  apply forLp_kept
  assumption
  intro y0 a
  exact arith3_kept ‹_›
theorem execAdd_kept {s : State} (hk : Kept orig s) {n : Nat} {sz : Size} {d a b : Spec} : KeptOut orig (execAdd n sz d a b s)
    := by
  unfold execAdd
  apply forLp_kept
  assumption
  intro y0 a
  exact arith3_kept ‹_›
theorem execSub_kept {s : State} (hk : Kept orig s) {n : Nat} {sz : Size} {d a b : Spec} : KeptOut orig (execSub n sz d a b s)
    := by
  unfold execSub
  apply forLp_kept
  assumption
  intro y0 a
  exact arith3_kept ‹_›
theorem execSbc_kept {s : State} (hk : Kept orig s) {n : Nat} {sz : ISize} {d a b : Spec} : KeptOut orig (execSbc n sz d a b
    s) := by
  unfold execSbc
  apply forLp_kept
  assumption
  intro y0 a
  exact arith3_kept ‹_›
theorem execCmp_kept {s : State} (hk : Kept orig s) {n : Nat} {sz : Size} {a b : Spec} : KeptOut orig (execCmp n sz a b s) :=
    by
  unfold execCmp
  apply forLp_kept
  assumption
  intro y0 a
  exact flags2_kept ‹_›
theorem execTst_kept {s : State} (hk : Kept orig s) {n : Nat} {sz : ISize} {a b : Spec} : KeptOut orig (execTst n sz a b s) :=
    by
  unfold execTst
  apply forLp_kept
  assumption
  intro y0 a
  exact flags2_kept ‹_›
theorem execAnd_kept {s : State} (hk : Kept orig s) {n : Nat} {sz : Size} {d a b : Spec} : KeptOut orig (execAnd n sz d a b s)
    := by
  unfold execAnd
  apply forLp_kept
  assumption
  intro y0 a
  exact arith3_kept ‹_›
theorem execOr_kept {s : State} (hk : Kept orig s) {n : Nat} {sz : Size} {d a b : Spec} : KeptOut orig (execOr n sz d a b s)
    := by
  unfold execOr
  apply forLp_kept
  assumption
  intro y0 a
  exact arith3_kept ‹_›
theorem execXor_kept {s : State} (hk : Kept orig s) {n : Nat} {sz : Size} {d a b : Spec} : KeptOut orig (execXor n sz d a b s)
    := by
  unfold execXor
  apply forLp_kept
  assumption
  intro y0 a
  exact arith3_kept ‹_›
theorem execShl_kept {s : State} (hk : Kept orig s) {n : Nat} {sz : ISize} {d a b : Spec} : KeptOut orig (execShl n sz d a b
    s) := by
  unfold execShl
  apply forLp_kept
  assumption
  intro y0 a
  exact arith3_kept ‹_›
theorem execShr_kept {s : State} (hk : Kept orig s) {n : Nat} {sz : ISize} {d a b : Spec} : KeptOut orig (execShr n sz d a b
    s) := by
  unfold execShr
  apply forLp_kept
  assumption
  intro y0 a
  exact arith3_kept ‹_›
theorem execSar_kept {s : State} (hk : Kept orig s) {n : Nat} {sz : ISize} {d a b : Spec} : KeptOut orig (execSar n sz d a b
    s) := by
  unfold execSar
  apply forLp_kept
  assumption
  intro y0 a
  exact arith3_kept ‹_›
theorem execRot_kept {s : State} (hk : Kept orig s) {n : Nat} {sz : ISize} {d a b : Spec} : KeptOut orig (execRot n sz d a b
    s) := by
  unfold execRot
  apply forLp_kept
  assumption
  intro y0 a
  exact arith3_kept ‹_›
theorem execMul_kept {s : State} (hk : Kept orig s) {n : Nat} {sz : ISize} {d a b : Spec} : KeptOut orig (execMul n sz d a b
    s) := by
  unfold execMul
  apply forLp_kept
  assumption
  intro y0 a
  exact arith3_kept ‹_›
theorem execDiv_kept {s : State} (hk : Kept orig s) {n : Nat} {sz : ISize} {d a b : Spec} : KeptOut orig (execDiv n sz d a b
    s) := by
  unfold execDiv
  apply forLp_kept
  assumption
  intro y0 a
  exact arithDiv_kept ‹_›
theorem execDivu_kept {s : State} (hk : Kept orig s) {n : Nat} {sz : ISize} {d a b : Spec} : KeptOut orig (execDivu n sz d a b
    s) := by
  unfold execDivu
  apply forLp_kept
  assumption
  intro y0 a
  exact arithDiv_kept ‹_›
theorem execRem_kept {s : State} (hk : Kept orig s) {n : Nat} {d a b : Spec} : KeptOut orig (execRem n d a b s) := by
  unfold execRem
  apply forLp_kept
  assumption
  intro y0 a
  exact arithDiv_kept ‹_›
theorem execRemu_kept {s : State} (hk : Kept orig s) {n : Nat} {d a b : Spec} : KeptOut orig (execRemu n d a b s) := by
  unfold execRemu
  apply forLp_kept
  assumption
  intro y0 a
  exact arithDiv_kept ‹_›
theorem execMov_kept {s : State} (hk : Kept orig s) {n : Nat} {sz : Size} {d a : Spec} : KeptOut orig (execMov n sz d a s) :=
    by
  unfold execMov
  apply forLp_kept
  assumption
  intro y0 a
  exact move2_kept ‹_›
theorem execMova_kept {s : State} (hk : Kept orig s) {n : Nat} {d t : Spec} : KeptOut orig (execMova n d t s) := by
  unfold execMova
  apply forLp_kept
  assumption
  intro y0 a
  apply execOn_kept
  assumption
  intro y0 y1 y2 a
  exact KeptExcFst.ok (KeptFst.mk' (Ready.put_kept ‹_›))
theorem execMovz_kept {s : State} (hk : Kept orig s) {n : Nat} {sz : SSize} {d a : Spec} : KeptOut orig (execMovz n sz d a s)
    := by
  unfold execMovz
  apply forLp_kept
  assumption
  intro y0 a
  exact move2_kept ‹_›
theorem execMovs_kept {s : State} (hk : Kept orig s) {n : Nat} {sz : SSize} {d a : Spec} : KeptOut orig (execMovs n sz d a s)
    := by
  unfold execMovs
  apply forLp_kept
  assumption
  intro y0 a
  exact move2_kept ‹_›
theorem execExtu_kept {s : State} (hk : Kept orig s) {n : Nat} {d a f : Spec} : KeptOut orig (execExtu n d a f s) := by
  unfold execExtu
  apply forLp_kept
  assumption
  intro y0 a
  apply execOn_kept
  assumption
  intro y0 y1 y2 a
  exact KeptExcFst.ok (KeptFst.mk' (Ready.put_kept ‹_›))
theorem execExts_kept {s : State} (hk : Kept orig s) {n : Nat} {d a f : Spec} : KeptOut orig (execExts n d a f s) := by
  unfold execExts
  apply forLp_kept
  assumption
  intro y0 a
  apply execOn_kept
  assumption
  intro y0 y1 y2 a
  exact KeptExcFst.ok (KeptFst.mk' (Ready.put_kept ‹_›))
theorem execIns_kept {s : State} (hk : Kept orig s) {n : Nat} {m a f : Spec} : KeptOut orig (execIns n m a f s) := by
  unfold execIns
  apply forLp_kept
  assumption
  intro y0 a
  apply execOn_kept
  assumption
  intro y0 y1 y2 a
  exact KeptExcFst.ok (KeptFst.mk' (Ready.put_kept ‹_›))
theorem execPopc_kept {s : State} (hk : Kept orig s) {n : Nat} {d a : Spec} : KeptOut orig (execPopc n d a s) := by
  unfold execPopc
  apply forLp_kept
  assumption
  intro y0 a
  exact count2_kept ‹_›
theorem execClz_kept {s : State} (hk : Kept orig s) {n : Nat} {d a : Spec} : KeptOut orig (execClz n d a s) := by
  unfold execClz
  apply forLp_kept
  assumption
  intro y0 a
  exact count2_kept ‹_›
theorem execCtz_kept {s : State} (hk : Kept orig s) {n : Nat} {d a : Spec} : KeptOut orig (execCtz n d a s) := by
  unfold execCtz
  apply forLp_kept
  assumption
  intro y0 a
  exact count2_kept ‹_›
theorem execBswap_kept {s : State} (hk : Kept orig s) {n : Nat} {sz : HSize} {d a : Spec} : KeptOut orig (execBswap n sz d a
    s) := by
  unfold execBswap
  apply forLp_kept
  assumption
  intro y0 a
  exact move2_kept ‹_›
theorem execMulx_kept {s : State} (hk : Kept orig s) {n : Nat} {d a b : Spec} : KeptOut orig (execMulx n d a b s) := by
  unfold execMulx
  apply forLp_kept
  assumption
  intro y0 a
  apply execOn_kept
  assumption
  intro y0 y1 y2 a
  lift_lets -underBinder
  intro u; try clear_value u
  exact KeptExcFst.ok (KeptFst.mk' (State.setFlags_kept (Ready.put_kept ‹_›)))
theorem execMulxu_kept {s : State} (hk : Kept orig s) {n : Nat} {d a b : Spec} : KeptOut orig (execMulxu n d a b s) := by
  unfold execMulxu
  apply forLp_kept
  assumption
  intro y0 a
  apply execOn_kept
  assumption
  intro y0 y1 y2 a
  lift_lets -underBinder
  intro u; try clear_value u
  exact KeptExcFst.ok (KeptFst.mk' (State.setFlags_kept (Ready.put_kept ‹_›)))
theorem execSel_kept {s : State} (hk : Kept orig s) {n : Nat} {d a b : Spec} : KeptOut orig (execSel n d a b s) := by
  unfold execSel
  apply forLp_kept
  assumption
  intro y0 a
  apply execOn_kept
  assumption
  intro y0 y1 y2 a
  exact KeptExcFst.ok (KeptFst.mk' (Ready.put_kept ‹_›))
theorem execBcc_kept {s : State} (hk : Kept orig s) {n : Nat} {cond : BitVec 4} {t : Spec} : KeptOut orig (execBcc n cond t s)
    := by
  unfold execBcc
  apply forLp_kept
  assumption
  intro y0 a
  apply execOn_kept
  assumption
  intro y0 y1 y2 a
  exact KeptExcFst.ok (KeptFst.mk' ‹_›)
theorem execCall_kept {s : State} (hk : Kept orig s) {n : Nat} {d t : Spec} : KeptOut orig (execCall n d t s) := by
  unfold execCall
  apply forLp_kept
  assumption
  intro y0 a
  apply execOn_kept
  assumption
  intro y0 y1 y2 a
  exact KeptExcFst.ok (KeptFst.mk' (Ready.put_kept ‹_›))
theorem execRet_kept {s : State} (hk : Kept orig s) {n : Nat} {a : Spec} : KeptOut orig (execRet n a s) := by
  unfold execRet
  apply forLp_kept
  assumption
  intro y0 a
  apply execOn_kept
  assumption
  intro y0 y1 y2 a
  exact KeptExcFst.ok (KeptFst.mk' ‹_›)
theorem execLoop_kept {s : State} (hk : Kept orig s) {n : Nat} {m t : Spec} : KeptOut orig (execLoop n m t s) := by
  unfold execLoop
  apply forLp_kept
  assumption
  intro y0 a
  apply execOn_kept
  assumption
  intro y0 y1 y2 a
  lift_lets -underBinder
  intro u; try clear_value u
  exact KeptExcFst.ok (KeptFst.mk' (Ready.put_kept ‹_›))
theorem execBbs_kept {s : State} (hk : Kept orig s) {n : Nat} {a b t : Spec} : KeptOut orig (execBbs n a b t s) := by
  unfold execBbs
  apply forLp_kept
  assumption
  intro y0 a
  apply execOn_kept
  assumption
  intro y0 y1 y2 a
  exact KeptExcFst.ok (KeptFst.mk' ‹_›)
theorem execBbc_kept {s : State} (hk : Kept orig s) {n : Nat} {a b t : Spec} : KeptOut orig (execBbc n a b t s) := by
  unfold execBbc
  apply forLp_kept
  assumption
  intro y0 a
  apply execOn_kept
  assumption
  intro y0 y1 y2 a
  exact KeptExcFst.ok (KeptFst.mk' ‹_›)
theorem execJtab_kept {s : State} (hk : Kept orig s) {n : Nat} {a b t : Spec} : KeptOut orig (execJtab n a b t s) := by
  unfold execJtab
  apply forLp_kept
  assumption
  intro y0 a
  apply execOn_kept
  assumption
  intro y0 y1 y2 a
  lift_lets -underBinder
  intro j; try clear_value j
  intro q; try clear_value q
  split
  exact KeptExcFst.error
  split
  exact KeptExcFst.error
  split
  exact KeptExcFst.error
  refine KeptExcFst.ok ?_
  refine KeptFst.mk' ?_
  apply State.onLp_kept
  refine KeptOptFst.of ?_ ‹_›
  exact State.load_kept ‹_›
theorem execScond_kept {s : State} (hk : Kept orig s) {n : Nat} {d k : Spec} : KeptOut orig (execScond n d k s) := by
  unfold execScond
  apply forLp_kept
  assumption
  intro y0 a
  apply execOn_kept
  assumption
  intro y0 y1 y2 a
  exact KeptExcFst.ok (KeptFst.mk' (Ready.put_kept ‹_›))
theorem execSvc_kept {s : State} (hk : Kept orig s) {n : Nat} {a : Spec} : KeptOut orig (execSvc n a s) := by
  unfold execSvc
  apply forLp_kept
  assumption
  intro y0 a
  apply execOn_kept
  assumption
  intro y0 y1 y2 a
  exact KeptExcFst.error
theorem execBkpt_kept {s : State} (hk : Kept orig s) {n : Nat} : KeptOut orig (execBkpt n s) := by
  unfold execBkpt
  apply forLp_kept
  assumption
  intro y0 a
  apply execOn_kept
  assumption
  intro y0 y1 y2 a
  exact KeptExcFst.error
theorem State.eretFrame_kept {s : State} (hk : Kept orig s) {n : Nat} : KeptExcFst orig (State.eretFrame s n) := by
  unfold State.eretFrame
  lift_lets -underBinder
  intro p; try clear_value p
  intro a; try clear_value a
  split
  exact KeptExcFst.error
  lift_lets -underBinder
  intro s1; refine via (p := Kept orig s1) ?_ fun hk => ?_; dsimp only [s1]
  exact State.drainPast_kept ‹_›
  clear_value s1
  intro ok; try clear_value ok
  split
  refine KeptExcFst.ok ?_
  refine KeptFst.mk' ?_
  split
  exact State.missFills_kept ‹_›
  assumption
  exact KeptExcFst.error
theorem execEret_kept {s : State} (hk : Kept orig s) {n : Nat} : KeptOut orig (execEret n s) := by
  unfold execEret
  apply forLp_kept
  assumption
  intro y0 a
  apply execOn_kept
  assumption
  intro y0 y1 y2 a
  split
  exact KeptExcFst.error
  lift_lets -underBinder
  intro p; try clear_value p
  intro fps; try clear_value fps
  intro lvl; try clear_value lvl
  intro s2; refine via (p := Kept orig s2) ?_ fun hk => ?_; dsimp only [s2]
  apply State.onLp_kept
  refine KeptExcFst.of ?_ ‹_›
  exact State.eretFrame_kept ‹_›
  clear_value s2
  split
  exact KeptExcFst.error
  exact KeptExcFst.ok (KeptFst.mk' ‹_›)
theorem execNop_kept {s : State} (hk : Kept orig s) {n : Nat} : KeptOut orig (execNop n s) := by
  unfold execNop
  apply forLp_kept
  assumption
  intro y0 a
  apply execOn_kept
  assumption
  intro y0 y1 y2 a
  exact KeptExcFst.ok (KeptFst.mk' ‹_›)
theorem execWfi_kept {s : State} (hk : Kept orig s) {n : Nat} : KeptOut orig (execWfi n s) := by
  unfold execWfi
  apply forLp_kept
  assumption
  intro y0 a
  apply execOn_kept
  assumption
  intro y0 y1 y2 a
  refine KeptExcFst.ok ?_
  refine KeptFst.mk' ?_
  split
  assumption
  exact State.onLp_kept ‹_›
theorem execWfiWake_kept {s : State} (hk : Kept orig s) {n : Nat} : KeptOut orig (execWfiWake n s) := by
  unfold execWfiWake
  apply forLp_kept
  assumption
  intro y0 a
  split
  lift_lets -underBinder
  intro s1; refine via (p := Kept orig s1) ?_ fun hk => ?_; dsimp only [s1]
  exact State.onLp_kept ‹_›
  clear_value s1
  exact State.takeNext_kept ‹_›
  assumption
theorem execCbcc_kept {s : State} (hk : Kept orig s) {n : Nat} {c : CbCond} {a b t : Spec} : KeptOut orig (execCbcc n c a b t
    s) := by
  unfold execCbcc
  apply forLp_kept
  assumption
  intro y0 a
  apply execOn_kept
  assumption
  intro y0 y1 y2 a
  exact KeptExcFst.ok (KeptFst.mk' ‹_›)
theorem execVectorEntry_kept {s : State} (hk : Kept orig s) {n : Nat} : KeptOut orig (execVectorEntry n s) := by
  unfold execVectorEntry
  apply forLp_kept
  assumption
  intro y0 a
  split
  exact State.takeNext_kept ‹_›
  assumption
theorem fpFinish_kept {s : State} (hk : Kept orig s) {n : Nat} {e : Exc} {next : Nat} {write : State → State} (kept_write : ∀
    y0, Kept orig y0 → Kept orig (write y0)) : KeptExcFst orig (fpFinish n e s next write) := by
  unfold fpFinish
  lift_lets -underBinder
  intro fpcs; try clear_value fpcs
  split
  exact KeptExcFst.error
  refine KeptExcFst.ok ?_
  refine KeptFst.mk' ?_
  apply kept_write
  exact State.onLp_kept ‹_›
theorem fp3_kept {s : State} (hk : Kept orig s) {n : Nat} {ff : FFmt} {d a b : Spec} {g : Fmt → RMode → Bool → FVal → FVal →
    Nat × Exc} : Kept orig (fp3 n ff d a b s g) := by
  unfold fp3
  lift_lets -underBinder
  intro f; try clear_value f
  apply execOn_kept
  assumption
  intro y0 y1 y2 a
  lift_lets -underBinder
  intro u; try clear_value u
  apply fpFinish_kept
  assumption
  intro y0 a
  exact Ready.put_kept ‹_›
theorem fp2_kept {s : State} (hk : Kept orig s) {n opBytes dbytes : Nat} {f : Fmt} {d a : Spec} {g : RMode → Bool → FVal → Nat
    × Exc} : Kept orig (fp2 n opBytes dbytes f d a s g) := by
  unfold fp2
  apply execOn_kept
  assumption
  intro y0 y1 y2 a
  lift_lets -underBinder
  intro u; try clear_value u
  apply fpFinish_kept
  assumption
  intro y0 a
  exact Ready.put_kept ‹_›
theorem execFadd_kept {s : State} (hk : Kept orig s) {n : Nat} {f : FFmt} {d a b : Spec} : KeptOut orig (execFadd n f d a b s)
    := by
  unfold execFadd
  apply forLp_kept
  assumption
  intro y0 a
  exact fp3_kept ‹_›
theorem execFsub_kept {s : State} (hk : Kept orig s) {n : Nat} {f : FFmt} {d a b : Spec} : KeptOut orig (execFsub n f d a b s)
    := by
  unfold execFsub
  apply forLp_kept
  assumption
  intro y0 a
  exact fp3_kept ‹_›
theorem execFmul_kept {s : State} (hk : Kept orig s) {n : Nat} {f : FFmt} {d a b : Spec} : KeptOut orig (execFmul n f d a b s)
    := by
  unfold execFmul
  apply forLp_kept
  assumption
  intro y0 a
  exact fp3_kept ‹_›
theorem execFdiv_kept {s : State} (hk : Kept orig s) {n : Nat} {f : FFmt} {d a b : Spec} : KeptOut orig (execFdiv n f d a b s)
    := by
  unfold execFdiv
  apply forLp_kept
  assumption
  intro y0 a
  exact fp3_kept ‹_›
theorem execFsqrt_kept {s : State} (hk : Kept orig s) {n : Nat} {f : FFmt} {d a : Spec} : KeptOut orig (execFsqrt n f d a s)
    := by
  unfold execFsqrt
  apply forLp_kept
  assumption
  intro y0 a
  exact fp2_kept ‹_›
theorem execFma_kept {s : State} (hk : Kept orig s) {n : Nat} {f : FFmt} {m a b : Spec} : KeptOut orig (execFma n f m a b s)
    := by
  unfold execFma
  apply forLp_kept
  assumption
  intro y0 a
  lift_lets -underBinder
  intro k; try clear_value k
  apply execOn_kept
  assumption
  intro y0 y1 y2 a
  lift_lets -underBinder
  intro u; try clear_value u
  apply fpFinish_kept
  assumption
  intro y0 a
  exact Ready.put_kept ‹_›
theorem fpCompare_kept {s : State} (hk : Kept orig s) {n : Nat} {ff : FFmt} {quiet : Bool} {a b : Spec} : Kept orig (fpCompare
    n ff quiet a b s) := by
  unfold fpCompare
  lift_lets -underBinder
  intro f; try clear_value f
  apply execOn_kept
  assumption
  intro y0 y1 y2 a
  lift_lets -underBinder
  intro u; try clear_value u
  intro y; try clear_value y
  intro inv; try clear_value inv
  apply fpFinish_kept
  assumption
  intro y0 a
  exact State.setFlags_kept ‹_›
theorem execFcmp_kept {s : State} (hk : Kept orig s) {n : Nat} {f : FFmt} {a b : Spec} : KeptOut orig (execFcmp n f a b s) :=
    by
  unfold execFcmp
  apply forLp_kept
  assumption
  intro y0 a
  exact fpCompare_kept ‹_›
theorem execFcmps_kept {s : State} (hk : Kept orig s) {n : Nat} {f : FFmt} {a b : Spec} : KeptOut orig (execFcmps n f a b s)
    := by
  unfold execFcmps
  apply forLp_kept
  assumption
  intro y0 a
  exact fpCompare_kept ‹_›
theorem execFmin_kept {s : State} (hk : Kept orig s) {n : Nat} {f : FFmt} {d a b : Spec} : KeptOut orig (execFmin n f d a b s)
    := by
  unfold execFmin
  apply forLp_kept
  assumption
  intro y0 a
  exact fp3_kept ‹_›
theorem execFmax_kept {s : State} (hk : Kept orig s) {n : Nat} {f : FFmt} {d a b : Spec} : KeptOut orig (execFmax n f d a b s)
    := by
  unfold execFmax
  apply forLp_kept
  assumption
  intro y0 a
  exact fp3_kept ‹_›
theorem execFclass_kept {s : State} (hk : Kept orig s) {n : Nat} {f : FFmt} {d a : Spec} : KeptOut orig (execFclass n f d a s)
    := by
  unfold execFclass
  apply forLp_kept
  assumption
  intro y0 a
  exact fp2_kept ‹_›
theorem execCvtfi_kept {s : State} (hk : Kept orig s) {n : Nat} {f : FFmt} {d a : Spec} : KeptOut orig (execCvtfi n f d a s)
    := by
  unfold execCvtfi
  apply forLp_kept
  assumption
  intro y0 a
  exact fp2_kept ‹_›
theorem execCvtfu_kept {s : State} (hk : Kept orig s) {n : Nat} {f : FFmt} {d a : Spec} : KeptOut orig (execCvtfu n f d a s)
    := by
  unfold execCvtfu
  apply forLp_kept
  assumption
  intro y0 a
  exact fp2_kept ‹_›
theorem fpFromInt_kept {s : State} (hk : Kept orig s) {n : Nat} {f : Fmt} {d a : Spec} {value : Nat → Int} : Kept orig
    (fpFromInt n f d a s value) := by
  unfold fpFromInt
  apply execOn_kept
  assumption
  intro y0 y1 y2 a
  lift_lets -underBinder
  intro u; try clear_value u
  apply fpFinish_kept
  assumption
  intro y0 a
  exact Ready.put_kept ‹_›
theorem execCvtif_kept {s : State} (hk : Kept orig s) {n : Nat} {f : FFmt} {d a : Spec} : KeptOut orig (execCvtif n f d a s)
    := by
  unfold execCvtif
  apply forLp_kept
  assumption
  intro y0 a
  exact fpFromInt_kept ‹_›
theorem execCvtuf_kept {s : State} (hk : Kept orig s) {n : Nat} {f : FFmt} {d a : Spec} : KeptOut orig (execCvtuf n f d a s)
    := by
  unfold execCvtuf
  apply forLp_kept
  assumption
  intro y0 a
  exact fpFromInt_kept ‹_›
theorem execFrint_kept {s : State} (hk : Kept orig s) {n : Nat} {f : FFmt} {d a : Spec} : KeptOut orig (execFrint n f d a s)
    := by
  unfold execFrint
  apply forLp_kept
  assumption
  intro y0 a
  exact fp2_kept ‹_›
theorem execFcvt_kept {s : State} (hk : Kept orig s) {n : Nat} {p : CvtPair} {d a : Spec} : KeptOut orig (execFcvt n p d a s)
    := by
  unfold execFcvt
  apply forLp_kept
  assumption
  intro y0 a
  exact fp2_kept ‹_›
theorem pdWrite_kept {s : State} (hk : Kept orig s) {n l : Nat} {r : Ready} {next : Nat} {v : Int} : KeptExcFst orig (pdWrite
    n l s r next v) := by
  unfold pdWrite
  split
  exact KeptExcFst.error
  exact KeptExcFst.ok (KeptFst.mk' (State.setFlags_kept (Ready.put_kept ‹_›)))
theorem pd3_kept {s : State} (hk : Kept orig s) {n : Nat} {divides : Bool} {d a b : Spec} {f : Int → Int → Int} : Kept orig
    (pd3 n divides d a b s f) := by
  unfold pd3
  apply execOn_kept
  assumption
  intro y0 y1 y2 a
  split
  exact KeptExcFst.error
  exact KeptExcFst.error
  split
  exact KeptExcFst.error
  exact pdWrite_kept ‹_›
theorem pd2_kept {s : State} (hk : Kept orig s) {n : Nat} {d a : Spec} {f : Int → Int} : Kept orig (pd2 n d a s f) := by
  unfold pd2
  apply execOn_kept
  assumption
  intro y0 y1 y2 a
  split
  exact KeptExcFst.error
  exact pdWrite_kept ‹_›
theorem pdk_kept {s : State} (hk : Kept orig s) {n : Nat} {d a k : Spec} {f : Int → Nat → Int} : Kept orig (pdk n d a k s f)
    := by
  unfold pdk
  apply execOn_kept
  assumption
  intro y0 y1 y2 a
  split
  exact KeptExcFst.error
  exact pdWrite_kept ‹_›
theorem execPdadd_kept {s : State} (hk : Kept orig s) {n : Nat} {d a b : Spec} : KeptOut orig (execPdadd n d a b s) := by
  unfold execPdadd
  apply forLp_kept
  assumption
  intro y0 a
  exact pd3_kept ‹_›
theorem execPdsub_kept {s : State} (hk : Kept orig s) {n : Nat} {d a b : Spec} : KeptOut orig (execPdsub n d a b s) := by
  unfold execPdsub
  apply forLp_kept
  assumption
  intro y0 a
  exact pd3_kept ‹_›
theorem execPdmul_kept {s : State} (hk : Kept orig s) {n : Nat} {d a b : Spec} : KeptOut orig (execPdmul n d a b s) := by
  unfold execPdmul
  apply forLp_kept
  assumption
  intro y0 a
  exact pd3_kept ‹_›
theorem execPddiv_kept {s : State} (hk : Kept orig s) {n : Nat} {d a b : Spec} : KeptOut orig (execPddiv n d a b s) := by
  unfold execPddiv
  apply forLp_kept
  assumption
  intro y0 a
  exact pd3_kept ‹_›
theorem execPdrem_kept {s : State} (hk : Kept orig s) {n : Nat} {d a b : Spec} : KeptOut orig (execPdrem n d a b s) := by
  unfold execPdrem
  apply forLp_kept
  assumption
  intro y0 a
  exact pd3_kept ‹_›
theorem execPdcmp_kept {s : State} (hk : Kept orig s) {n : Nat} {a b : Spec} : KeptOut orig (execPdcmp n a b s) := by
  unfold execPdcmp
  apply forLp_kept
  assumption
  intro y0 a
  apply execOn_kept
  assumption
  intro y0 y1 y2 a
  split
  exact KeptExcFst.error
  exact KeptExcFst.error
  exact KeptExcFst.ok (KeptFst.mk' (State.setFlags_kept ‹_›))
theorem execPdchk_kept {s : State} (hk : Kept orig s) {n : Nat} {a k : Spec} : KeptOut orig (execPdchk n a k s) := by
  unfold execPdchk
  apply forLp_kept
  assumption
  intro y0 a
  lift_lets -underBinder
  intro l; try clear_value l
  apply execOn_kept
  assumption
  intro y0 y1 y2 a
  exact KeptExcFst.ok (KeptFst.mk' (State.setFlags_kept ‹_›))
theorem execPdmov_kept {s : State} (hk : Kept orig s) {n : Nat} {d a k : Spec} : KeptOut orig (execPdmov n d a k s) := by
  unfold execPdmov
  apply forLp_kept
  assumption
  intro y0 a
  lift_lets -underBinder
  intro kv; try clear_value kv
  intro la; try clear_value la
  intro ld; try clear_value ld
  apply execOn_kept
  assumption
  intro y0 y1 y2 a
  split
  exact KeptExcFst.error
  exact pdWrite_kept ‹_›
theorem execPdshl_kept {s : State} (hk : Kept orig s) {n : Nat} {d a k : Spec} : KeptOut orig (execPdshl n d a k s) := by
  unfold execPdshl
  apply forLp_kept
  assumption
  intro y0 a
  exact pdk_kept ‹_›
theorem execPdshr_kept {s : State} (hk : Kept orig s) {n : Nat} {d a k : Spec} : KeptOut orig (execPdshr n d a k s) := by
  unfold execPdshr
  apply forLp_kept
  assumption
  intro y0 a
  exact pdk_kept ‹_›
theorem execPdneg_kept {s : State} (hk : Kept orig s) {n : Nat} {d a : Spec} : KeptOut orig (execPdneg n d a s) := by
  unfold execPdneg
  apply forLp_kept
  assumption
  intro y0 a
  exact pd2_kept ‹_›
theorem execPdabs_kept {s : State} (hk : Kept orig s) {n : Nat} {d a : Spec} : KeptOut orig (execPdabs n d a s) := by
  unfold execPdabs
  apply forLp_kept
  assumption
  intro y0 a
  exact pd2_kept ‹_›
theorem execCvtpb_kept {s : State} (hk : Kept orig s) {n : Nat} {sz : QSize} {d a : Spec} : KeptOut orig (execCvtpb n sz d a
    s) := by
  unfold execCvtpb
  apply forLp_kept
  assumption
  intro y0 a
  apply execOn_kept
  assumption
  intro y0 y1 y2 a
  split
  exact KeptExcFst.error
  lift_lets -underBinder
  intro w; try clear_value w
  split
  exact KeptExcFst.error
  exact KeptExcFst.ok (KeptFst.mk' (State.setFlags_kept (Ready.put_kept ‹_›)))
theorem execCvtbp_kept {s : State} (hk : Kept orig s) {n : Nat} {sz : QSize} {d a : Spec} : KeptOut orig (execCvtbp n sz d a
    s) := by
  unfold execCvtbp
  apply forLp_kept
  assumption
  intro y0 a
  apply execOn_kept
  assumption
  intro y0 y1 y2 a
  exact pdWrite_kept ‹_›
theorem execCvtfp_kept {s : State} (hk : Kept orig s) {n : Nat} {f : FFmt} {d a : Spec} : KeptOut orig (execCvtfp n f d a s)
    := by
  unfold execCvtfp
  apply forLp_kept
  assumption
  intro y0 a
  apply execOn_kept
  assumption
  intro y0 y1 y2 a
  lift_lets -underBinder
  intro u; try clear_value u
  apply fpFinish_kept
  assumption
  intro y0 a
  exact Ready.put_kept ‹_›
theorem execCvtpf_kept {s : State} (hk : Kept orig s) {n : Nat} {f : FFmt} {d a : Spec} : KeptOut orig (execCvtpf n f d a s)
    := by
  unfold execCvtpf
  apply forLp_kept
  assumption
  intro y0 a
  apply execOn_kept
  assumption
  intro y0 y1 y2 a
  split
  exact KeptExcFst.error
  lift_lets -underBinder
  intro u; try clear_value u
  apply fpFinish_kept
  assumption
  intro y0 a
  exact Ready.put_kept ‹_›
theorem State.elemLoad_kept {s : State} (hk : Kept orig s) {n a : Nat} : KeptExcFst orig (State.elemLoad s n a) := by
  unfold State.elemLoad
  split
  exact KeptExcFst.error
  split
  exact KeptExcFst.error
  refine KeptExcFst.ok ?_
  refine KeptFst.mk' ?_
  refine KeptOptFst.of ?_ ‹_›
  exact State.load_kept ‹_›
theorem State.elemStore_kept {s : State} (hk : Kept orig s) {n a v : Nat} : KeptExc orig (State.elemStore s n a v) := by
  unfold State.elemStore
  split
  exact KeptExc.error
  exact KeptExc.ok (State.store_kept ‹_›)
theorem State.stepPtrs_kept {s : State} (hk : Kept orig s) {n : Nat} {src dst : Int} : Kept orig (State.stepPtrs s n src dst)
    :=
  State.onLp_kept hk
theorem State.elemBoth_kept {s : State} (hk : Kept orig s) {n : Nat} {f : Nat → Nat → Nat} : KeptExc orig (State.elemBoth s n
    f) := by
  unfold State.elemBoth
  lift_lets -underBinder
  intro p; try clear_value p
  split
  exact KeptExc.error
  split
  exact KeptExc.error
  split
  exact KeptExc.error
  refine KeptExc.ok ?_
  apply State.stepPtrs_kept
  refine KeptExc.of ?_ ‹_›
  apply State.elemStore_kept
  refine KeptExcFst.of ?_ ‹_›
  apply State.elemLoad_kept
  refine KeptExcFst.of ?_ ‹_›
  exact State.elemLoad_kept ‹_›
theorem State.elemSrc_kept {s : State} (hk : Kept orig s) {n : Nat} {f : Nat → Nat → Nat} : KeptExcFst orig (State.elemSrc s n
    f) := by
  unfold State.elemSrc
  lift_lets -underBinder
  intro a; try clear_value a
  split
  exact KeptExcFst.error
  refine KeptExcFst.ok ?_
  refine KeptFst.mk' ?_
  apply State.stepPtrs_kept
  refine KeptExcFst.of ?_ ‹_›
  exact State.elemLoad_kept ‹_›
theorem State.element_kept {s : State} (hk : Kept orig s) {n : Nat} {e : StrElem} {acc a : Nat} {tbl : List Byte} :
    KeptExcFst orig (State.element s n e acc a tbl) := by
  unfold State.element
  extract_lets p src dst keep
  have hkeep : ∀ {r : Except Trap State}, KeptExc orig r → KeptExcFst orig (keep r) := by
    intro r hr
    cases r with
    | error t => exact KeptExcFst.error
    | ok t => exact KeptExcFst.ok (KeptFst.mk' (hr.of rfl))
  clear_value keep
  cases e <;> dsimp only
  all_goals
    repeat' first
      | with_reducible assumption
      | with_reducible exact State.elemSrc_kept hk
      | with_reducible refine hkeep ?_
      | with_reducible exact State.elemBoth_kept hk
      | with_reducible exact KeptExc.error
      | with_reducible exact KeptExcFst.error
      | with_reducible refine KeptExc.ok (State.stepPtrs_kept ?_)
      | with_reducible refine KeptExcFst.ok (KeptFst.mk' (State.stepPtrs_kept ?_))
      | with_reducible refine KeptExc.of (State.elemStore_kept ?_) ‹_›
      | with_reducible refine KeptExcFst.of (State.elemLoad_kept ?_) ‹_›
      | split
theorem State.tableBytes_kept {s : State} (hk : Kept orig s) {n a size : Nat} {mt : MemType} : KeptOptFst orig
    (State.tableBytes s n a size mt) := by
  unfold State.tableBytes
  split
  lift_lets -underBinder
  intro s1; refine via (p := Kept orig s1) ?_ fun hk => ?_; dsimp only [s1]
  exact State.drainAll_kept ‹_›
  clear_value s1
  split
  split
  exact KeptOptFst.none
  exact KeptOptFst.some (KeptFst.mk' ‹_›)
  split
  exact KeptOptFst.some (KeptFst.mk' ‹_›)
  exact KeptOptFst.none
  exact KeptOptFst.none
  lift_lets -underBinder
  intro s1; refine via (p := Kept orig s1) ?_ fun hk => ?_; dsimp only [s1]
  exact State.drainPast_kept ‹_›
  clear_value s1
  intro ok; try clear_value ok
  split
  exact KeptOptFst.none
  split
  exact KeptOptFst.some (KeptFst.mk' (State.missFills_kept ‹_›))
  exact KeptOptFst.some (KeptFst.mk' ‹_›)
theorem State.loadTable_kept {s : State} (hk : Kept orig s) {n idx a size : Nat} : KeptExc orig (State.loadTable s n idx a
    size) := by
  unfold State.loadTable
  split
  exact KeptExc.error
  split
  exact KeptExc.error
  refine KeptExc.ok ?_
  apply State.onLp_kept
  refine KeptOptFst.of ?_ ‹_›
  exact State.tableBytes_kept ‹_›
theorem strOne_kept {s : State} (hk : Kept orig s) {n : Nat} {op : StrOp} : Kept orig (strOne n op s) := by
  unfold strOne
  split
  assumption
  apply execOn_kept
  assumption
  intro y0 y1 y2 a
  lift_lets -underBinder
  intro tab; refine via (p := KeptExc orig tab) ?_ fun hk => ?_; dsimp only [tab]
  split
  exact KeptExc.ok ‹_›
  exact State.loadTable_kept ‹_›
  clear_value tab
  split
  exact KeptExcFst.error
  lift_lets -underBinder
  intro acc; try clear_value acc
  intro a; try clear_value a
  split
  exact KeptExcFst.error
  lift_lets -underBinder
  intro s3; refine via (p := Kept orig s3) ?_ fun hk => ?_; dsimp only [s3]
  apply State.onLp_kept
  refine KeptExcFst.of ?_ ‹_›
  apply State.element_kept
  exact KeptExc.of ‹_› rfl
  clear_value s3
  split
  exact KeptExcFst.ok (KeptFst.mk' (State.setFlags_kept (Ready.put_kept ‹_›)))
  split
  exact KeptExcFst.ok (KeptFst.mk' (Ready.put_kept ‹_›))
  exact KeptExcFst.ok (KeptFst.mk' ‹_›)
theorem State.placeHeld_kept {s : State} (hk : Kept orig s) {n idx : Nat} {o : Opd} : KeptExcFst orig (State.placeHeld s n idx
    o) := by
  unfold State.placeHeld
  split
  exact KeptExcFst.ok (KeptFst.mk' ‹_›)
  exact KeptExcFst.ok (KeptFst.mk' ‹_›)
  exact State.place_kept ‹_›
theorem State.heldOpds_kept {s : State} (hk : Kept orig s) {n k2 : Nat} {k3 : List Opd} : KeptExcFst orig (State.heldOpds s n
    k2 k3) := by
  induction k3 generalizing s n k2
  case' cons _ _ ih => unfold State.heldOpds
  case' nil => unfold State.heldOpds
  exact KeptExcFst.ok (KeptFst.mk' ‹_›)
  split
  exact KeptExcFst.error
  split
  exact KeptExcFst.error
  split
  exact KeptExcFst.error
  refine KeptExcFst.ok ?_
  refine KeptFst.mk' ?_
  refine KeptExcFst.of ?_ ‹_›
  apply ih
  refine KeptExcFst.of ?_ ‹_›
  apply State.fetchOpd_kept
  refine KeptExcFst.of ?_ ‹_›
  exact State.placeHeld_kept ‹_›
theorem State.heldSteps_kept {s : State} (hk : Kept orig s) {n : Nat} {k2 : List Opd} : Kept orig (State.heldSteps s n k2) :=
    by
  induction k2 generalizing s n
  case' cons _ _ ih => unfold State.heldSteps
  case' nil => unfold State.heldSteps
  assumption
  lift_lets -underBinder
  intro s1; refine via (p := Kept orig s1) ?_ fun hk => ?_; dsimp only [s1]
  split
  exact State.onLp_kept ‹_›
  exact State.onLp_kept ‹_›
  assumption
  clear_value s1
  apply ih
  assumption
theorem State.rptStart_kept {s : State} (hk : Kept orig s) {n : Nat} {e : StrElem} {os : List Opd} : KeptExc orig
    (State.rptStart s n e os) := by
  unfold State.rptStart
  split
  exact KeptExc.ok ‹_›
  lift_lets -underBinder
  intro mark
  split
  split
  exact KeptExc.error
  refine KeptExc.ok ?_
  dsimp only [mark]
  apply State.onLp_kept
  apply Ready.put_kept
  refine KeptExcFst.of ?_ ‹_›
  exact State.heldOpds_kept ‹_›
  refine KeptExc.ok ?_
  dsimp only [mark]
  exact State.onLp_kept ‹_›
theorem State.rptTable_kept {s : State} (hk : Kept orig s) {n : Nat} {e : StrElem} {os : List Opd} : KeptExc orig
    (State.rptTable s n e os) := by
  unfold State.rptTable
  split
  split
  exact KeptExc.error
  split
  exact KeptExc.error
  apply State.loadTable_kept
  refine KeptExcFst.of ?_ ‹_›
  apply State.fetchOpd_kept
  refine KeptExcFst.of ?_ ‹_›
  exact State.placeHeld_kept ‹_›
  exact KeptExc.ok ‹_›
theorem State.rptElement_kept {s : State} (hk : Kept orig s) {n : Nat} {e : StrElem} {os : List Opd} : KeptExc orig
    (State.rptElement s n e os) := by
  unfold State.rptElement
  split
  exact KeptExc.error
  lift_lets -underBinder
  intro r; try clear_value r
  split
  exact KeptExc.error
  lift_lets -underBinder
  intro s3; refine via (p := Kept orig s3) ?_ fun hk => ?_; dsimp only [s3]
  split
  apply Ready.put_kept
  refine KeptExcFst.of ?_ ‹_›
  apply State.element_kept
  refine KeptExcFst.of ?_ ‹_›
  exact State.heldOpds_kept ‹_›
  refine KeptExcFst.of ?_ ‹_›
  apply State.element_kept
  refine KeptExcFst.of ?_ ‹_›
  exact State.heldOpds_kept ‹_›
  clear_value s3
  exact KeptExc.ok (State.countLp_kept (State.onLp_kept ‹_›))
theorem State.rptFinish_kept {s : State} (hk : Kept orig s) {n : Nat} {e : StrElem} {os : List Opd} {next : Nat} : Kept orig
    (State.rptFinish s n e os next) := by
  unfold State.rptFinish
  lift_lets -underBinder
  intro pc; try clear_value pc
  intro fl; refine via (p := KeptExc orig fl) ?_ fun hk => ?_; dsimp only [fl]
  split
  split
  exact KeptExc.error
  refine KeptExc.ok ?_
  apply State.setFlags_kept
  refine KeptExcFst.of ?_ ‹_›
  exact State.heldOpds_kept ‹_›
  exact KeptExc.ok ‹_›
  clear_value fl
  split
  exact State.stop_kept ‹_›
  apply State.commit_kept
  apply State.onLp_kept
  apply State.heldSteps_kept
  exact KeptExc.of ‹_› rfl
theorem State.rptLoop_kept {s : State} (hk : Kept orig s) {n : Nat} {e : StrElem} {os : List Opd} {next k5 : Nat} : Kept orig
    (State.rptLoop s n e os next k5) := by
  induction k5 generalizing s n e os next
  case' succ _ ih => unfold State.rptLoop
  case' zero => unfold State.rptLoop
  exact State.rptFinish_kept ‹_›
  split
  exact State.stop_kept ‹_›
  split
  apply State.takeNext_kept
  refine KeptExc.of ?_ ‹_›
  exact State.rptElement_kept ‹_›
  apply ih
  refine KeptExc.of ?_ ‹_›
  exact State.rptElement_kept ‹_›
theorem rptOn_kept {s : State} (hk : Kept orig s) {n : Nat} {op : StrOp} : Kept orig (rptOn n op s) := by
  unfold rptOn
  split
  assumption
  lift_lets -underBinder
  intro pc; try clear_value pc
  split
  split
  exact State.trap_kept ‹_›
  exact State.trap_kept ‹_›
  lift_lets -underBinder
  intro len; try clear_value len
  split
  exact State.trap_kept ‹_›
  split
  exact State.trap_kept ‹_›
  split
  exact State.reservedEffect_kept ‹_›
  lift_lets -underBinder
  intro s0; refine via (p := Kept orig s0) ?_ fun hk => ?_; dsimp only [s0]
  exact State.fetchFills_kept ‹_›
  clear_value s0
  split
  exact State.stop_kept ‹_›
  split
  apply State.stop_kept
  refine KeptExc.of ?_ ‹_›
  exact State.rptStart_kept ‹_›
  apply State.rptLoop_kept
  refine KeptExc.of ?_ ‹_›
  apply State.rptTable_kept
  refine KeptExc.of ?_ ‹_›
  exact State.rptStart_kept ‹_›
theorem execRpt_kept {s : State} (hk : Kept orig s) {n : Nat} {op : StrOp} : KeptOut orig (execRpt n op s) := by
  unfold execRpt
  apply forLp_kept
  assumption
  intro y0 a
  exact rptOn_kept ‹_›
theorem execSmov_kept {s : State} (hk : Kept orig s) {n : Nat} : KeptOut orig (execSmov n s) := by
  unfold execSmov
  apply forLp_kept
  assumption
  intro y0 a
  exact strOne_kept ‹_›
theorem execSmovr_kept {s : State} (hk : Kept orig s) {n : Nat} : KeptOut orig (execSmovr n s) := by
  unfold execSmovr
  apply forLp_kept
  assumption
  intro y0 a
  exact strOne_kept ‹_›
theorem execScmp_kept {s : State} (hk : Kept orig s) {n : Nat} {d : Spec} : KeptOut orig (execScmp n d s) := by
  unfold execScmp
  apply forLp_kept
  assumption
  intro y0 a
  exact strOne_kept ‹_›
theorem execSscn_kept {s : State} (hk : Kept orig s) {n : Nat} {d a : Spec} : KeptOut orig (execSscn n d a s) := by
  unfold execSscn
  apply forLp_kept
  assumption
  intro y0 a
  exact strOne_kept ‹_›
theorem execSscnn_kept {s : State} (hk : Kept orig s) {n : Nat} {d a : Spec} : KeptOut orig (execSscnn n d a s) := by
  unfold execSscnn
  apply forLp_kept
  assumption
  intro y0 a
  exact strOne_kept ‹_›
theorem execSfil_kept {s : State} (hk : Kept orig s) {n : Nat} {a : Spec} : KeptOut orig (execSfil n a s) := by
  unfold execSfil
  apply forLp_kept
  assumption
  intro y0 a
  exact strOne_kept ‹_›
theorem execSxlt_kept {s : State} (hk : Kept orig s) {n : Nat} {t : Spec} : KeptOut orig (execSxlt n t s) := by
  unfold execSxlt
  apply forLp_kept
  assumption
  intro y0 a
  exact strOne_kept ‹_›
theorem execScrc_kept {s : State} (hk : Kept orig s) {n : Nat} {m : Spec} : KeptOut orig (execScrc n m s) := by
  unfold execScrc
  apply forLp_kept
  assumption
  intro y0 a
  exact strOne_kept ‹_›
theorem execSsum_kept {s : State} (hk : Kept orig s) {n : Nat} {m : Spec} : KeptOut orig (execSsum n m s) := by
  unfold execSsum
  apply forLp_kept
  assumption
  intro y0 a
  exact strOne_kept ‹_›
theorem execSspn_kept {s : State} (hk : Kept orig s) {n : Nat} {d t : Spec} : KeptOut orig (execSspn n d t s) := by
  unfold execSspn
  apply forLp_kept
  assumption
  intro y0 a
  exact strOne_kept ‹_›
theorem execSand_kept {s : State} (hk : Kept orig s) {n : Nat} : KeptOut orig (execSand n s) := by
  unfold execSand
  apply forLp_kept
  assumption
  intro y0 a
  exact strOne_kept ‹_›
theorem execSor_kept {s : State} (hk : Kept orig s) {n : Nat} : KeptOut orig (execSor n s) := by
  unfold execSor
  apply forLp_kept
  assumption
  intro y0 a
  exact strOne_kept ‹_›
theorem execSxor_kept {s : State} (hk : Kept orig s) {n : Nat} : KeptOut orig (execSxor n s) := by
  unfold execSxor
  apply forLp_kept
  assumption
  intro y0 a
  exact strOne_kept ‹_›
theorem execSpopc_kept {s : State} (hk : Kept orig s) {n : Nat} {m : Spec} : KeptOut orig (execSpopc n m s) := by
  unfold execSpopc
  apply forLp_kept
  assumption
  intro y0 a
  exact strOne_kept ‹_›
theorem execSxch_kept {s : State} (hk : Kept orig s) {n : Nat} : KeptOut orig (execSxch n s) := by
  unfold execSxch
  apply forLp_kept
  assumption
  intro y0 a
  exact strOne_kept ‹_›
theorem State.dropRsv_kept {s : State} (hk : Kept orig s) {n : Nat} : Kept orig (State.dropRsv s n) :=
  State.onLp_kept hk
theorem State.fenceLoads_kept {s : State} (hk : Kept orig s) {n : Nat} : Kept orig (State.fenceLoads s n) :=
  State.countLp_kept (State.onLp_kept hk)
theorem State.setZ_kept {s : State} (hk : Kept orig s) {n : Nat} {z : Bool} : Kept orig (State.setZ s n z) :=
  State.setFlags_kept hk
theorem atomic3_kept {s : State} (hk : Kept orig s) {n size : Nat} {d m a : Spec} {f : Nat → Nat → Nat} : Kept orig (atomic3 n
    size d m a s f) := by
  unfold atomic3
  apply execOn_kept
  split
  exact State.fenceLoads_kept ‹_›
  assumption
  intro y0 y1 y2 a
  lift_lets -underBinder
  intro s1; refine via (p := Kept orig s1) ?_ fun hk => ?_; dsimp only [s1]
  split
  exact State.dropRsv_kept ‹_›
  assumption
  clear_value s1
  intro s2; refine via (p := Kept orig s2) ?_ fun hk => ?_; dsimp only [s2]
  exact Ready.put_kept ‹_›
  clear_value s2
  exact KeptExcFst.ok (KeptFst.mk' (State.fenceLoads_kept (Ready.put_kept ‹_›)))
theorem execSwp_kept {s : State} (hk : Kept orig s) {n : Nat} {sz : ISize} {d m a : Spec} : KeptOut orig (execSwp n sz d m a
    s) := by
  unfold execSwp
  apply forLp_kept
  assumption
  intro y0 a
  exact atomic3_kept ‹_›
theorem execLdadd_kept {s : State} (hk : Kept orig s) {n : Nat} {sz : ISize} {d m a : Spec} : KeptOut orig (execLdadd n sz d m
    a s) := by
  unfold execLdadd
  apply forLp_kept
  assumption
  intro y0 a
  exact atomic3_kept ‹_›
theorem execLdor_kept {s : State} (hk : Kept orig s) {n : Nat} {d m a : Spec} : KeptOut orig (execLdor n d m a s) := by
  unfold execLdor
  apply forLp_kept
  assumption
  intro y0 a
  exact atomic3_kept ‹_›
theorem execLdand_kept {s : State} (hk : Kept orig s) {n : Nat} {d m a : Spec} : KeptOut orig (execLdand n d m a s) := by
  unfold execLdand
  apply forLp_kept
  assumption
  intro y0 a
  exact atomic3_kept ‹_›
theorem execCas_kept {s : State} (hk : Kept orig s) {n : Nat} {sz : ISize} {m1 m2 a : Spec} : KeptOut orig (execCas n sz m1 m2
    a s) := by
  unfold execCas
  apply forLp_kept
  assumption
  intro y0 a
  apply execOn_kept
  split
  exact State.fenceLoads_kept ‹_›
  assumption
  intro y0 y1 y2 a
  lift_lets -underBinder
  intro s1; refine via (p := Kept orig s1) ?_ fun hk => ?_; dsimp only [s1]
  split
  exact State.dropRsv_kept ‹_›
  assumption
  clear_value s1
  split
  exact KeptExcFst.ok (KeptFst.mk' (State.fenceLoads_kept (State.setZ_kept (Ready.put_kept ‹_›))))
  exact KeptExcFst.ok (KeptFst.mk' (State.fenceLoads_kept (State.setZ_kept (Ready.put_kept ‹_›))))
theorem execLdres_kept {s : State} (hk : Kept orig s) {n : Nat} {sz : Size} {d m : Spec} : KeptOut orig (execLdres n sz d m s)
    := by
  unfold execLdres
  apply forLp_kept
  assumption
  intro y0 a
  apply execOn_kept
  assumption
  intro y0 y1 y2 a
  lift_lets -underBinder
  intro s1; refine via (p := Kept orig s1) ?_ fun hk => ?_; dsimp only [s1]
  split
  exact State.onLp_kept ‹_›
  assumption
  clear_value s1
  intro s2; refine via (p := Kept orig s2) ?_ fun hk => ?_; dsimp only [s2]
  split
  split
  exact State.dropRsv_kept ‹_›
  assumption
  assumption
  clear_value s2
  exact KeptExcFst.ok (KeptFst.mk' (Ready.put_kept ‹_›))
theorem execStcond_kept {s : State} (hk : Kept orig s) {n : Nat} {sz : Size} {m a : Spec} : KeptOut orig (execStcond n sz m a
    s) := by
  unfold execStcond
  apply forLp_kept
  assumption
  intro y0 a
  apply execOn_kept
  assumption
  intro y0 y1 y2 a
  lift_lets -underBinder
  intro ok; try clear_value ok
  intro s1; refine via (p := Kept orig s1) ?_ fun hk => ?_; dsimp only [s1]
  exact State.dropRsv_kept ‹_›
  clear_value s1
  refine KeptExcFst.ok ?_
  refine KeptFst.mk' ?_
  apply State.setZ_kept
  split
  exact Ready.put_kept ‹_›
  exact State.countLp_kept ‹_›
theorem fenceOn_kept {s : State} (hk : Kept orig s) {n : Nat} {loads : Bool} : Kept orig (fenceOn n loads s) := by
  unfold fenceOn
  split
  assumption
  lift_lets -underBinder
  intro s1; refine via (p := Kept orig s1) ?_ fun hk => ?_; dsimp only [s1]
  exact State.drainAll_kept ‹_›
  clear_value s1
  split
  assumption
  apply execOn_kept
  assumption
  intro y0 y1 y2 a
  refine KeptExcFst.ok ?_
  refine KeptFst.mk' ?_
  split
  exact State.fenceLoads_kept ‹_›
  assumption
theorem execFence_kept {s : State} (hk : Kept orig s) {n : Nat} : KeptOut orig (execFence n s) := by
  unfold execFence
  apply forLp_kept
  assumption
  intro y0 a
  exact fenceOn_kept ‹_›
theorem execFenceL_kept {s : State} (hk : Kept orig s) {n : Nat} : KeptOut orig (execFenceL n s) := by
  unfold execFenceL
  apply forLp_kept
  assumption
  intro y0 a
  apply execOn_kept
  assumption
  intro y0 y1 y2 a
  exact KeptExcFst.ok (KeptFst.mk' (State.fenceLoads_kept ‹_›))
theorem execFenceS_kept {s : State} (hk : Kept orig s) {n : Nat} : KeptOut orig (execFenceS n s) := by
  unfold execFenceS
  apply forLp_kept
  assumption
  intro y0 a
  exact fenceOn_kept ‹_›
theorem execMfsr_kept {s : State} (hk : Kept orig s) {n : Nat} {d k : Spec} : KeptOut orig (execMfsr n d k s) := by
  unfold execMfsr
  apply forLp_kept
  assumption
  intro y0 a
  apply execOn_kept
  assumption
  intro y0 y1 y2 a
  lift_lets -underBinder
  intro num; try clear_value num
  split
  exact KeptExcFst.error
  split
  exact KeptExcFst.error
  exact KeptExcFst.ok (KeptFst.mk' (Ready.put_kept ‹_›))
theorem State.writePs_kept {s : State} (hk : Kept orig s) {n v : Nat} : KeptExc orig (State.writePs s n v) := by
  unfold State.writePs
  lift_lets -underBinder
  intro p; try clear_value p
  intro lvl; try clear_value lvl
  intro diff; try clear_value diff
  split
  exact KeptExc.error
  split
  exact KeptExc.error
  exact KeptExc.ok (State.onLp_kept ‹_›)
theorem State.writeWp_kept {s : State} (hk : Kept orig s) {n v : Nat} : KeptExc orig (State.writeWp s n v) := by
  unfold State.writeWp
  lift_lets -underBinder
  intro a; try clear_value a
  intro p; try clear_value p
  split
  exact KeptExc.error
  split
  exact KeptExc.error
  split
  exact KeptExc.error
  refine KeptExc.ok ?_
  apply State.onLp_kept
  refine KeptOptFst.of ?_ ‹_›
  exact State.tableBytes_kept ‹_›
theorem State.writeRegion_kept {s : State} (hk : Kept orig s) {n : Nat} {hi : Bool} {v : Nat} : KeptExc orig
    (State.writeRegion s n hi v) := by
  unfold State.writeRegion
  lift_lets -underBinder
  intro p; try clear_value p
  intro i; try clear_value i
  intro old; try clear_value old
  intro w; try clear_value w
  intro new; try clear_value new
  split
  exact KeptExc.error
  exact KeptExc.ok (State.onLp_kept ‹_›)
theorem State.srWrite_kept {s : State} (hk : Kept orig s) {n k v : Nat} : KeptExc orig (State.srWrite s n k v) := by
  unfold State.srWrite
  lift_lets -underBinder
  intro set w; try clear_value w
  split
  exact State.writePs_kept ‹_›
  exact State.writeWp_kept ‹_›
  dsimp only [set]
  exact KeptExc.ok (State.onLp_kept ‹_›)
  dsimp only [set]
  exact KeptExc.ok (State.onLp_kept ‹_›)
  dsimp only [set]
  exact KeptExc.ok (State.onLp_kept ‹_›)
  dsimp only [set]
  exact KeptExc.ok (State.onLp_kept ‹_›)
  dsimp only [set]
  exact KeptExc.ok (State.onLp_kept ‹_›)
  dsimp only [set]
  exact KeptExc.ok (State.onLp_kept ‹_›)
  dsimp only [set]
  exact KeptExc.ok (State.onLp_kept ‹_›)
  dsimp only [set]
  exact KeptExc.ok (State.onLp_kept ‹_›)
  dsimp only [set]
  exact KeptExc.ok (State.onLp_kept ‹_›)
  exact State.writeRegion_kept ‹_›
  exact State.writeRegion_kept ‹_›
  exact KeptExc.ok ‹_›
theorem mtsrOn_kept {s : State} (hk : Kept orig s) {n : Nat} {k a : Spec} : Kept orig (mtsrOn n k a s) := by
  unfold mtsrOn
  apply execOn_kept
  assumption
  intro y0 y1 y2 a
  lift_lets -underBinder
  intro num; try clear_value num
  split
  exact KeptExcFst.error
  split
  exact KeptExcFst.error
  split
  exact KeptExcFst.error
  refine KeptExcFst.ok ?_
  refine KeptFst.mk' ?_
  refine KeptExc.of ?_ ‹_›
  exact State.srWrite_kept ‹_›
theorem execMtsr_kept {s : State} (hk : Kept orig s) {n : Nat} {k a : Spec} : KeptOut orig (execMtsr n k a s) := by
  unfold execMtsr
  apply forLp_kept
  assumption
  intro y0 a
  exact mtsrOn_kept ‹_›
theorem execPsWrite_kept {s : State} (hk : Kept orig s) {n : Nat} {a : Spec} : KeptOut orig (execPsWrite n a s) := by
  unfold execPsWrite
  apply forLp_kept
  assumption
  intro y0 a
  exact mtsrOn_kept ‹_›
theorem execWpWrite_kept {s : State} (hk : Kept orig s) {n : Nat} {a : Spec} : KeptOut orig (execWpWrite n a s) := by
  unfold execWpWrite
  apply forLp_kept
  assumption
  intro y0 a
  exact mtsrOn_kept ‹_›
theorem execRegionTableWrite_kept {s : State} (hk : Kept orig s) {n : Nat} {hi : Bool} {a : Spec} : KeptOut orig
    (execRegionTableWrite n hi a s) := by
  unfold execRegionTableWrite
  apply forLp_kept
  assumption
  intro y0 a
  exact mtsrOn_kept ‹_›
theorem execRdtime_kept {s : State} (hk : Kept orig s) {n : Nat} {d : Spec} : KeptOut orig (execRdtime n d s) := by
  unfold execRdtime
  apply forLp_kept
  assumption
  intro y0 a
  apply execOn_kept
  assumption
  intro y0 y1 y2 a
  exact KeptExcFst.ok (KeptFst.mk' (Ready.put_kept ‹_›))
theorem clineOn_kept {s : State} (hk : Kept orig s) {n : Nat} {k t : Spec} : Kept orig (clineOn n k t s) := by
  unfold clineOn
  apply execOn_kept
  assumption
  intro y0 y1 y2 a
  lift_lets -underBinder
  intro kv; try clear_value kv
  intro a; try clear_value a
  intro acc; try clear_value acc
  split
  exact KeptExcFst.ok (KeptFst.mk' (State.push_kept ‹_›))
  split
  exact KeptExcFst.error
  split
  exact KeptExcFst.error
  exact KeptExcFst.ok (KeptFst.mk' (State.push_kept ‹_›))
theorem execClineClean_kept {s : State} (hk : Kept orig s) {n : Nat} {k t : Spec} : KeptOut orig (execClineClean n k t s) :=
    by
  unfold execClineClean
  apply forLp_kept
  assumption
  intro y0 a
  exact clineOn_kept ‹_›
theorem execClineInval_kept {s : State} (hk : Kept orig s) {n : Nat} {k t : Spec} : KeptOut orig (execClineInval n k t s) :=
    by
  unfold execClineInval
  apply forLp_kept
  assumption
  intro y0 a
  exact clineOn_kept ‹_›
theorem execClineCleaninval_kept {s : State} (hk : Kept orig s) {n : Nat} {k t : Spec} : KeptOut orig (execClineCleaninval n k
    t s) := by
  unfold execClineCleaninval
  apply forLp_kept
  assumption
  intro y0 a
  exact clineOn_kept ‹_›
theorem execClineZero_kept {s : State} (hk : Kept orig s) {n : Nat} {k t : Spec} : KeptOut orig (execClineZero n k t s) := by
  unfold execClineZero
  apply forLp_kept
  assumption
  intro y0 a
  exact clineOn_kept ‹_›
theorem execClineUnlock_kept {s : State} (hk : Kept orig s) {n : Nat} {k t : Spec} : KeptOut orig (execClineUnlock n k t s) :=
    by
  unfold execClineUnlock
  apply forLp_kept
  assumption
  intro y0 a
  exact clineOn_kept ‹_›
theorem execPflk_kept {s : State} (hk : Kept orig s) {n : Nat} {k t : Spec} : KeptOut orig (execPflk n k t s) := by
  unfold execPflk
  apply forLp_kept
  assumption
  intro y0 a
  apply execOn_kept
  assumption
  intro y0 y1 y2 a
  lift_lets -underBinder
  intro kv; try clear_value kv
  intro a; try clear_value a
  split
  exact KeptExcFst.ok (KeptFst.mk' (State.push_kept ‹_›))
  split
  exact KeptExcFst.error
  split
  exact KeptExcFst.error
  exact KeptExcFst.ok (KeptFst.mk' (State.push_kept ‹_›))
theorem execPref_kept {s : State} (hk : Kept orig s) {n : Nat} {t : Spec} : KeptOut orig (execPref n t s) := by
  unfold execPref
  apply forLp_kept
  assumption
  intro y0 a
  apply execOn_kept
  assumption
  intro y0 y1 y2 a
  lift_lets -underBinder
  intro a; try clear_value a
  split
  split
  exact KeptExcFst.ok (KeptFst.mk' (State.askFill_kept ‹_›))
  exact KeptExcFst.ok (KeptFst.mk' ‹_›)
  exact KeptExcFst.ok (KeptFst.mk' ‹_›)
theorem execIsync_kept {s : State} (hk : Kept orig s) {n : Nat} : KeptOut orig (execIsync n s) := by
  unfold execIsync
  apply forLp_kept
  assumption
  intro y0 a
  apply execOn_kept
  assumption
  intro y0 y1 y2 a
  exact KeptExcFst.ok (KeptFst.mk' (State.onLp_kept ‹_›))
theorem execLpstop_kept {s : State} (hk : Kept orig s) {n : Nat} : KeptOut orig (execLpstop n s) := by
  unfold execLpstop
  apply forLp_kept
  assumption
  intro y0 a
  apply execOn_kept
  assumption
  intro y0 y1 y2 a
  lift_lets -underBinder
  intro s1; refine via (p := Kept orig s1) ?_ fun hk => ?_; dsimp only [s1]
  exact State.onLp_kept (State.drainAll_kept ‹_›)
  clear_value s1
  exact KeptExcFst.ok (KeptFst.mk' (State.event_kept ‹_›))
theorem execReservedOpcode_kept {s : State} (hk : Kept orig s) {n : Nat} {bytes : List (BitVec 8)} : KeptOut orig
    (execReservedOpcode n bytes s) := by
  unfold execReservedOpcode
  apply forLp_kept
  assumption
  intro y0 a
  split
  assumption
  lift_lets -underBinder
  intro pc; try clear_value pc
  split
  exact State.trap_kept ‹_›
  split
  exact State.trap_kept ‹_›
  exact State.reservedEffect_kept ‹_›
theorem execStoreDrain_kept {s : State} (hk : Kept orig s) {n : Nat} : KeptOut orig (execStoreDrain n s) := by
  unfold execStoreDrain
  apply forLp_kept
  assumption
  intro y0 a
  split
  exact KeptFst.fst (State.drainOne_kept ‹_›)
  assumption
theorem execL1InvalidationApply_kept {s : State} (hk : Kept orig s) {n : Nat} : KeptOut orig (execL1InvalidationApply n s) :=
    by
  unfold execL1InvalidationApply
  apply forLp_kept
  assumption
  intro y0 a
  split
  assumption
  exact State.countLp_kept (State.onLp_kept ‹_›)
theorem State.reportSlot_kept {s : State} (hk : Kept orig s) {q code first last : Nat} : Kept orig (State.reportSlot s q code
    first last) := by
  unfold State.reportSlot
  lift_lets -underBinder
  intro r; try clear_value r
  intro joined; try clear_value joined
  intro u; try clear_value u
  apply kept_mk
  assumption
theorem State.restoreQueue_kept {s : State} (hk : Kept orig s) {q : Nat} {w : List Nat} {warm kept : Bool} : Kept orig
    (State.restoreQueue s q w warm kept) := by
  unfold State.restoreQueue
  lift_lets -underBinder
  intro g; try clear_value g
  intro s1; refine via (p := Kept orig s1) ?_ fun hk => ?_; dsimp only [s1]
  split
  assumption
  exact State.setReg_kept (State.setReg_kept (State.setReg_kept (State.setReg_kept (State.setReg_kept (State.setReg_kept
    (State.setReg_kept ‹_›))))))
  clear_value s1
  exact State.onTq_kept ‹_›
theorem State.rebuildFlow_kept {s : State} (hk : Kept orig s) {q : Nat} {t : Txn} : Kept orig (State.rebuildFlow s q t) := by
  unfold State.rebuildFlow
  split
  assumption
  lift_lets -underBinder
  intro s1; refine via (p := Kept orig s1) ?_ fun hk => ?_; dsimp only [s1]
  split
  assumption
  exact State.onTq_kept ‹_›
  clear_value s1
  exact State.onFlow_kept ‹_›
theorem State.resumeOne_kept {s : State} (hk : Kept orig s) {kept : Bool} {r : JRec} : Kept orig (State.resumeOne s kept r) :=
    by
  unfold State.resumeOne
  lift_lets -underBinder
  intro q; try clear_value q
  intro rt; try clear_value rt
  split
  exact State.nvjEndTxn_kept (State.reportSlot_kept ‹_›)
  lift_lets -underBinder
  intro marked; refine via (p := Kept orig marked) ?_ fun hk => ?_; dsimp only [marked]
  exact State.setFlag_kept ‹_›
  clear_value marked
  intro lost; refine via (p := Kept orig lost) ?_ fun hk => ?_; dsimp only [lost]
  exact State.reportSlot_kept (State.txnDone_kept (State.rebuildFlow_kept ‹_›))
  clear_value lost
  intro dcrc; try clear_value dcrc
  intro bcrc; try clear_value bcrc
  split
  exact State.txnDone_kept (State.giveBack_kept ‹_›)
  split
  assumption
  split
  assumption
  lift_lets -underBinder
  intro u; try clear_value u
  intro t; try clear_value t
  split
  assumption
  split
  exact State.copyDesc_kept (State.txnOpen_kept ‹_›)
  split
  assumption
  split
  assumption
  split
  exact State.txnDone_kept (State.rebuildFlow_kept ‹_›)
  lift_lets -underBinder
  intro s1; refine via (p := Kept orig s1) ?_ fun hk => ?_; dsimp only [s1]
  exact State.txnOpen_kept (State.rebuildFlow_kept ‹_›)
  clear_value s1
  split
  exact State.parkOrSend_kept ‹_›
  exact State.emitTxn_kept ‹_›
theorem State.reportLost_kept {s : State} (hk : Kept orig s) {rs : List JRec} : Kept orig (State.reportLost s rs) := by
  unfold State.reportLost
  refine List.foldl_kept ?_ ?_
  assumption
  intro t u a
  exact State.reportSlot_kept ‹_›
theorem State.reportUnreadable_kept {s : State} (hk : Kept orig s) : Kept orig (State.reportUnreadable s) := by
  unfold State.reportUnreadable
  lift_lets -underBinder
  intro bad; try clear_value bad
  apply State.nvjEnd_kept
  refine List.foldl_kept ?_ ?_
  assumption
  intro t u a
  exact State.reportSlot_kept ‹_›
theorem State.endNonDurable_kept {s : State} (hk : Kept orig s) {q : Nat} : Kept orig (State.endNonDurable s q) := by
  unfold State.endNonDurable
  lift_lets -underBinder
  intro ret; try clear_value ret
  intro tail; try clear_value tail
  intro u; try clear_value u
  intro gone; try clear_value gone
  intro todo; try clear_value todo
  intro s1; refine via (p := Kept orig s1) ?_ fun hk => ?_; dsimp only [s1]
  refine List.foldl_kept ?_ ?_
  assumption
  intro t u a
  split
  exact State.txnDone_kept ‹_›
  split
  exact State.txnDone_kept ‹_›
  exact State.txnDone_kept ‹_›
  clear_value s1
  exact State.flowsClose_kept (State.onTq_kept (State.setHeld_kept (State.setFlag_kept (State.setReg_kept ‹_›))))
theorem State.endDurableGroup_kept {s : State} (hk : Kept orig s) {q : Nat} : Kept orig (State.endDurableGroup s q) := by
  unfold State.endDurableGroup
  lift_lets -underBinder
  intro ms; try clear_value ms
  intro s1; refine via (p := Kept orig s1) ?_ fun hk => ?_; dsimp only [s1]
  refine List.foldl_kept ?_ ?_
  exact State.headUp_kept (State.onTq_kept ‹_›)
  intro t u a
  exact State.giveBack_kept ‹_›
  clear_value s1
  split
  assumption
  refine List.foldl_kept ?_ ?_
  assumption
  intro t u a
  exact State.txnDone_kept ‹_›
theorem State.twStart_kept {s : State} (hk : Kept orig s) {warm kept : Bool} : Kept orig (State.twStart s warm kept) := by
  unfold State.twStart
  lift_lets -underBinder
  intro u; try clear_value u
  intro s0; refine via (p := Kept orig s0) ?_ fun hk => ?_; dsimp only [s0]
  apply State.setFlag_kept
  apply kept_mk
  assumption
  clear_value s0
  intro s1; refine via (p := Kept orig s1) ?_ fun hk => ?_; dsimp only [s1]
  exact State.reportUnreadable_kept ‹_›
  clear_value s1
  intro n; try clear_value n
  intro noResume; try clear_value noResume
  intro run fromSlot; try clear_value fromSlot
  intro old; try clear_value old
  intro s2; refine via (p := Kept orig s2) ?_ fun hk => ?_; dsimp only [s2]
  exact State.nvjEnd_kept (State.reportLost_kept ‹_›)
  clear_value s2
  intro marks_; try clear_value marks_
  intro s3; refine via (p := Kept orig s3) ?_ fun hk => ?_; dsimp only [s3]
  split
  assumption
  refine List.foldl_kept ?_ ?_
  assumption
  intro t u a
  split
  assumption
  exact State.reportSlot_kept ‹_›
  clear_value s3
  intro s4; refine via (p := Kept orig s4) ?_ fun hk => ?_; dsimp only [s4]
  exact State.nvjEnd_kept ‹_›
  clear_value s4
  intro qs; try clear_value qs
  intro s5; refine via (p := Kept orig s5) ?_ fun hk => ?_; dsimp only [s5]
  refine List.foldl_kept ?_ ?_
  assumption
  intro t u a
  split
  exact State.endDurableGroup_kept (State.restoreQueue_kept ‹_›)
  assumption
  clear_value s5
  intro s6; refine via (p := Kept orig s6) ?_ fun hk => ?_; dsimp only [s6]
  refine List.foldl_kept ?_ ?_
  assumption
  intro t u a
  exact State.resumeOne_kept ‹_›
  clear_value s6
  intro s7; refine via (p := Kept orig s7) ?_ fun hk => ?_; dsimp only [s7]
  split
  refine List.foldl_kept ?_ ?_
  assumption
  intro t u a
  exact State.endNonDurable_kept ‹_›
  assumption
  clear_value s7
  intro lost; try clear_value lost
  intro mem; try clear_value mem
  split
  dsimp only [run]
  apply State.event_kept
  apply kept_mk
  exact State.setFld_kept (State.onNvj_kept (State.reportLost_kept ‹_›))
  dsimp only [run]
  apply State.event_kept
  apply kept_mk
  apply State.setFld_kept
  split
  exact State.raise_kept ‹_›
  assumption
theorem State.twHalt_kept {s : State} (hk : Kept orig s) : Kept orig (State.twHalt s) := by
  unfold State.twHalt
  apply kept_mk
  assumption
theorem State.twCold_kept {s : State} (hk : Kept orig s) : Kept orig (State.twCold s) := by
  unfold State.twCold
  apply kept_mk
  assumption
theorem State.twSag_kept {s : State} (hk : Kept orig s) : Kept orig (State.twSag s) := by
  unfold State.twSag
  lift_lets -underBinder
  intro qs; try clear_value qs
  apply State.nvjEpoch_kept
  refine List.foldl_kept ?_ ?_
  apply kept_mk
  assumption
  intro t u a
  exact KeptFst.fst (State.nvjWrite_kept ‹_›)
theorem State.cmpEvent_kept {s : State} (hk : Kept orig s) {c k cause lane : Nat} : Kept orig (State.cmpEvent s c k cause
    lane) := by
  unfold State.cmpEvent
  lift_lets -underBinder
  intro off; try clear_value off
  intro s1; refine via (p := Kept orig s1) ?_ fun hk => ?_; dsimp only [s1]
  exact State.setFld_kept ‹_›
  clear_value s1
  intro t; try clear_value t
  split
  assumption
  exact State.setReg_kept (State.setReg_kept (State.setFlag_kept (State.setFld_kept (State.setFld_kept ‹_›))))
theorem State.pairHold_kept {s : State} (hk : Kept orig s) {c k : Nat} : Kept orig (State.pairHold s c k) :=
  State.setFlag_kept (State.onLp_kept hk)
theorem State.pairLost_kept {s : State} (hk : Kept orig s) {c k : Nat} : Kept orig (State.pairLost s c k) := by
  unfold State.pairLost
  lift_lets -underBinder
  intro n; try clear_value n
  intro cause; try clear_value cause
  intro s1; refine via (p := Kept orig s1) ?_ fun hk => ?_; dsimp only [s1]
  exact State.cmpEvent_kept (State.onLp_kept ‹_›)
  clear_value s1
  intro s2; refine via (p := Kept orig s2) ?_ fun hk => ?_; dsimp only [s2]
  exact State.raise_kept (State.setFld_kept (State.setFlag_kept ‹_›))
  clear_value s2
  exact State.event_kept ‹_›
theorem State.pairFault_kept {s : State} (hk : Kept orig s) {c k cause lane : Nat} : Kept orig (State.pairFault s c k cause
    lane) := by
  unfold State.pairFault
  lift_lets -underBinder
  intro off; try clear_value off
  intro depth; try clear_value depth
  intro s1; refine via (p := Kept orig s1) ?_ fun hk => ?_; dsimp only [s1]
  exact State.onPair_kept (State.cmpEvent_kept ‹_›)
  clear_value s1
  split
  exact State.setFld_kept ‹_›
  exact State.raise_kept (State.pairHold_kept (State.cmpEvent_kept ‹_›))
theorem State.pairSkew_kept {s : State} (hk : Kept orig s) {c k lane : Nat} : Kept orig (State.pairSkew s c k lane) :=
  State.onPair_kept (State.bumpReg_kept (State.countLp_kept (State.cmpEvent_kept hk)))
theorem State.pairDetect_kept {s : State} (hk : Kept orig s) {c k : Nat} {ev : Detect} : Kept orig (State.pairDetect s c k ev)
    := by
  unfold State.pairDetect
  split
  split
  exact State.pairSkew_kept ‹_›
  exact State.pairFault_kept ‹_›
  exact State.pairFault_kept ‹_›
  exact State.pairFault_kept ‹_›
  exact State.pairFault_kept ‹_›
  exact State.pairFault_kept (State.onLp_kept ‹_›)
theorem execRetry_kept {s : State} (hk : Kept orig s) {c k : Nat} {ev : Detect} : KeptOut orig (execRetry c k ev s) := by
  unfold execRetry
  split
  exact KeptOut.refused
  lift_lets -underBinder
  intro run; try clear_value run
  split
  exact KeptOut.next ‹_›
  split
  exact KeptOut.next (State.pairLost_kept ‹_›)
  exact KeptOut.next (State.pairDetect_kept ‹_›)
theorem State.spareFailed_kept {s : State} (hk : Kept orig s) {c i : Nat} : Kept orig (State.spareFailed s c i) := by
  unfold State.spareFailed
  lift_lets -underBinder
  intro kind; try clear_value kind
  intro unit; try clear_value unit
  intro ent; try clear_value ent
  split
  apply State.setFld_kept
  apply State.spareTaken_kept
  apply kept_mk
  assumption
theorem State.pairSteer_kept {s : State} (hk : Kept orig s) {c k : Nat} {path : RepairPath} : Kept orig (State.pairSteer s c k
    path) := by
  unfold State.pairSteer
  lift_lets -underBinder
  intro n; try clear_value n
  split
  lift_lets -underBinder
  intro s1; refine via (p := Kept orig s1) ?_ fun hk => ?_; dsimp only [s1]
  split
  assumption
  exact State.drainAll_kept ‹_›
  clear_value s1
  intro s2; refine via (p := Kept orig s2) ?_ fun hk => ?_; dsimp only [s2]
  exact State.onLp_kept ‹_›
  clear_value s2
  intro s3; refine via (p := Kept orig s3) ?_ fun hk => ?_; dsimp only [s3]
  split
  exact State.setFld_kept (State.setFld_kept ‹_›)
  exact State.setFld_kept ‹_›
  exact State.setFld_kept ‹_›
  clear_value s3
  intro s4; refine via (p := Kept orig s4) ?_ fun hk => ?_; dsimp only [s4]
  exact State.condemn_kept (State.setFld_kept ‹_›)
  clear_value s4
  intro s5; refine via (p := Kept orig s5) ?_ fun hk => ?_; dsimp only [s5]
  exact State.onPair_kept (State.setFld_kept (State.setFlag_kept ‹_›))
  clear_value s5
  split
  lift_lets -underBinder
  intro s7; refine via (p := Kept orig s7) ?_ fun hk => ?_; dsimp only [s7]
  apply State.raise_kept
  refine KeptSnd.of ‹_› ?_
  exact State.fresh_kept ‹_›
  clear_value s7
  exact State.event_kept ‹_›
theorem State.pairRepair_kept {s : State} (hk : Kept orig s) {c k : Nat} {v : RepairVerdict} : Kept orig (State.pairRepair s c
    k v) := by
  unfold State.pairRepair
  lift_lets -underBinder
  intro path; try clear_value path
  intro lead; try clear_value lead
  intro trail; try clear_value trail
  intro src; try clear_value src
  split
  exact State.pairLost_kept ‹_›
  split
  exact State.pairLost_kept (State.condemn_kept (State.condemn_kept ‹_›))
  split
  exact State.pairSteer_kept ‹_›
  lift_lets -underBinder
  intro s1; refine via (p := Kept orig s1) ?_ fun hk => ?_; dsimp only [s1]
  split
  exact State.spareFailed_kept ‹_›
  assumption
  clear_value s1
  split
  exact State.pairLost_kept (State.condemn_kept ‹_›)
theorem execRepairSequence_kept {s : State} (hk : Kept orig s) {c k : Nat} {v : RepairVerdict} : KeptOut orig
    (execRepairSequence c k v s) := by
  unfold execRepairSequence
  split
  exact KeptOut.refused
  split
  exact KeptOut.next (State.pairRepair_kept ‹_›)
  exact KeptOut.next ‹_›
theorem execProactiveRepair_kept {s : State} (hk : Kept orig s) {c k : Nat} {v : RepairVerdict} : KeptOut orig
    (execProactiveRepair c k v s) := by
  unfold execProactiveRepair
  split
  exact KeptOut.refused
  lift_lets -underBinder
  intro th; try clear_value th
  intro run; try clear_value run
  split
  exact KeptOut.next ‹_›
  exact KeptOut.next (State.pairRepair_kept (State.pairHold_kept ‹_›))
theorem execCpRepair_kept {s : State} (hk : Kept orig s) {i : Nat} {spareOk : Bool} : KeptOut orig (execCpRepair i spareOk s)
    := by
  unfold execCpRepair
  apply forUnit_kept
  assumption
  intro y0 a
  lift_lets -underBinder
  intro n; try clear_value n
  intro src; try clear_value src
  intro sp; try clear_value sp
  intro s1; refine via (p := Kept orig s1) ?_ fun hk => ?_; dsimp only [s1]
  exact State.condemn_kept (State.condemn_kept (State.raise_kept ‹_›))
  clear_value s1
  intro s2; refine via (p := Kept orig s2) ?_ fun hk => ?_; dsimp only [s2]
  exact State.cpLost_kept ‹_›
  clear_value s2
  split
  assumption
  split
  exact State.onLp_kept ‹_›
  exact State.event_kept ‹_›
theorem execTamlerHalt_kept {s : State} (hk : Kept orig s) {n : Nat} : KeptOut orig (execTamlerHalt n s) := by
  unfold execTamlerHalt
  apply forLp_kept
  assumption
  intro y0 a
  lift_lets -underBinder
  intro run; try clear_value run
  split
  exact State.onLp_kept ‹_›
  assumption
theorem State.tamlerWrite_kept {s : State} (hk : Kept orig s) {n : Nat} {item : TamlerItem} {v : Nat} : KeptOpt orig
    (State.tamlerWrite s n item v) := by
  unfold State.tamlerWrite
  split
  exact KeptOpt.some (State.onLp_kept ‹_›)
  split
  exact Except.toOption_kept (State.srWrite_kept ‹_›)
  exact KeptOpt.none
  exact KeptOpt.some (State.onLp_kept ‹_›)
  exact KeptOpt.some (State.wwrite_kept ‹_›)
  split
  exact KeptOpt.some (State.store_kept ‹_›)
  exact KeptOpt.none
theorem execTamlerAccess_kept {s : State} (hk : Kept orig s) {n : Nat} {item : TamlerItem} {w : Option (BitVec 64)} : KeptOut
    orig (execTamlerAccess n item w s) := by
  unfold execTamlerAccess
  apply forLp_kept
  assumption
  intro y0 a
  split
  exact State.answer_kept ‹_›
  split
  split
  exact State.answer_kept ‹_›
  exact State.answer_kept ‹_›
  split
  apply State.answer_kept
  refine KeptOpt.of ?_ ‹_›
  exact State.tamlerWrite_kept ‹_›
  exact State.answer_kept ‹_›
theorem execTamlerSingleStep_kept {s : State} (hk : Kept orig s) {n : Nat} : KeptOut orig (execTamlerSingleStep n s) := by
  unfold execTamlerSingleStep
  apply forLp_kept
  assumption
  intro y0 a
  split
  exact State.onLp_kept ‹_›
  assumption
theorem execTamlerPerCoreAccess_kept {s : State} (hk : Kept orig s) {n : Nat} : KeptOut orig (execTamlerPerCoreAccess n s) :=
    by
  unfold execTamlerPerCoreAccess
  apply forLp_kept
  assumption
  intro y0 a
  split
  assumption
  exact State.raise_kept (State.onPair_kept (State.setFlag_kept (State.cmpEvent_kept ‹_›)))
theorem execTamlerExit_kept {s : State} (hk : Kept orig s) {n : Nat} : KeptOut orig (execTamlerExit n s) := by
  unfold execTamlerExit
  apply forLp_kept
  assumption
  intro y0 a
  lift_lets -underBinder
  intro run; try clear_value run
  intro s1; refine via (p := Kept orig s1) ?_ fun hk => ?_; dsimp only [s1]
  exact State.onLp_kept ‹_›
  clear_value s1
  split
  assumption
  split
  assumption
  split
  exact State.onPair_kept (State.onLp_kept ‹_›)
  assumption

end Sys2Proof.Machine
end

