-- ==== Sys2Proof/Laws/KeptSystem.lean ====
section
/-! SUPPORT. `Kept` of the operations of supplies, resets, boot, the host and the register commands. -/

namespace Sys2Proof.Machine

variable {orig : State}

theorem State.history_kept {s : State} (hk : Kept orig s) {i : Nat} : Kept orig (State.history s i) :=
  State.setFlag_kept hk
theorem State.flushDurable_kept {s : State} (hk : Kept orig s) : Kept orig (State.flushDurable s) := by
  unfold State.flushDurable
  lift_lets -underBinder
  intro s1; refine via (p := Kept orig s1) ?_ fun hk => ?_; dsimp only [s1]
  exact State.setFlag_kept ‹_›
  clear_value s1
  intro s2; refine via (p := Kept orig s2) ?_ fun hk => ?_; dsimp only [s2]
  exact State.twSag_kept ‹_›
  clear_value s2
  intro s3; refine via (p := Kept orig s3) ?_ fun hk => ?_; dsimp only [s3]
  exact State.writeBackAll_kept ‹_›
  clear_value s3
  exact State.setFlag_kept (State.setFlag_kept ‹_›)
theorem State.sagWarn_kept {s : State} (hk : Kept orig s) : Kept orig (State.sagWarn s) := by
  unfold State.sagWarn
  split
  assumption
  exact State.flushDurable_kept (State.raise_kept (State.history_kept (State.setFlag_kept ‹_›)))
theorem State.retain_kept {s : State} (hk : Kept orig s) : Kept orig (State.retain s) := by
  unfold State.retain
  apply kept_mk
  assumption
theorem State.thermShutdown_kept {s : State} (hk : Kept orig s) {peak : Int} : Kept orig (State.thermShutdown s peak) := by
  unfold State.thermShutdown
  lift_lets -underBinder
  intro s0; refine via (p := Kept orig s0) ?_ fun hk => ?_; dsimp only [s0]
  exact State.raise_kept ‹_›
  clear_value s0
  intro s1; refine via (p := Kept orig s1) ?_ fun hk => ?_; dsimp only [s1]
  apply State.retain_kept
  apply State.flushDurable_kept
  split
  assumption
  exact State.assertErrN_kept ‹_›
  clear_value s1
  intro s2; refine via (p := Kept orig s2) ?_ fun hk => ?_; dsimp only [s2]
  exact State.history_kept (State.setFld_kept ‹_›)
  clear_value s2
  apply kept_mk
  assumption
theorem execSagWarn_kept {s : State} (hk : Kept orig s) {rail : Nat} : KeptOut orig (execSagWarn rail s) := by
  unfold execSagWarn
  apply forUnit_kept
  assumption
  intro y0 a
  split
  assumption
  exact State.sagWarn_kept ‹_›
theorem execSagWarnClear_kept {s : State} (hk : Kept orig s) : KeptOut orig (execSagWarnClear s) := by
  unfold execSagWarnClear
  refine KeptOut.next ?_
  split
  assumption
  lift_lets -underBinder
  intro u; refine via (p := Kept orig u) ?_ fun hk => ?_; dsimp only [u]
  exact State.setFlag_kept ‹_›
  clear_value u
  apply kept_mk
  assumption
theorem execSagReset_kept {s : State} (hk : Kept orig s) {rail : Nat} : KeptOut orig (execSagReset rail s) := by
  unfold execSagReset
  apply forUnit_kept
  assumption
  intro y0 a
  split
  assumption
  lift_lets -underBinder
  intro s1; refine via (p := Kept orig s1) ?_ fun hk => ?_; dsimp only [s1]
  exact State.raise_kept (State.history_kept ‹_›)
  clear_value s1
  split
  exact State.askReset_kept ‹_›
  assumption
theorem execThermSample_kept {s : State} (hk : Kept orig s) {readings : List Int} : KeptOut orig (execThermSample readings s)
    := by
  unfold execThermSample
  refine KeptOut.next ?_
  lift_lets -underBinder
  intro rs; try clear_value rs
  intro twice; try clear_value twice
  intro s1; refine via (p := Kept orig s1) ?_ fun hk => ?_; dsimp only [s1]
  exact State.thermReads_kept ‹_›
  clear_value s1
  intro s2; refine via (p := Kept orig s2) ?_ fun hk => ?_; dsimp only [s2]
  split
  assumption
  exact State.thermWarn_kept ‹_›
  clear_value s2
  split
  assumption
  split
  exact State.thermShutdown_kept ‹_›
  assumption
theorem State.lpReset_kept {s : State} (hk : Kept orig s) {n : Nat} {alone : Bool} : Kept orig (State.lpReset s n alone) := by
  unfold State.lpReset
  lift_lets -underBinder
  intro m; try clear_value m
  intro s1; refine via (p := Kept orig s1) ?_ fun hk => ?_; dsimp only [s1]
  exact State.drainAll_kept (State.onLp_kept (State.senderReset_kept ‹_›))
  clear_value s1
  intro s2; refine via (p := Kept orig s2) ?_ fun hk => ?_; dsimp only [s2]
  exact State.receiverReset_kept (State.onLp_kept ‹_›)
  clear_value s2
  apply kept_mk
  assumption
theorem State.lpRestart_kept {s : State} (hk : Kept orig s) {n : Nat} : Kept orig (State.lpRestart s n) := by
  unfold State.lpRestart
  lift_lets -underBinder
  intro s1; refine via (p := Kept orig s1) ?_ fun hk => ?_; dsimp only [s1]
  exact State.lpReset_kept ‹_›
  clear_value s1
  intro c; try clear_value c
  intro k; try clear_value k
  split
  assumption
  exact State.setFlag_kept (State.setReg_kept (State.setReg_kept ‹_›))
theorem execLpRestart_kept {s : State} (hk : Kept orig s) {lp : Nat} : KeptOut orig (execLpRestart lp s) := by
  unfold execLpRestart
  apply forLp_kept
  assumption
  intro y0 a
  split
  exact State.lpRestart_kept ‹_›
  assumption
theorem State.resetTaken_kept {s : State} (hk : Kept orig s) {r : ResetReq} : Kept orig (State.resetTaken s r) := by
  unfold State.resetTaken
  apply kept_mk
  assumption
theorem State.clusterReset_kept {s : State} (hk : Kept orig s) {c : Nat} : Kept orig (State.clusterReset s c) := by
  unfold State.clusterReset
  lift_lets -underBinder
  intro s1; refine via (p := Kept orig s1) ?_ fun hk => ?_; dsimp only [s1]
  exact State.rmAbort_kept ‹_›
  clear_value s1
  intro s2; refine via (p := Kept orig s2) ?_ fun hk => ?_; dsimp only [s2]
  refine List.foldl_kept ?_ ?_
  assumption
  intro t u a
  exact State.lpReset_kept ‹_›
  clear_value s2
  intro s3; refine via (p := Kept orig s3) ?_ fun hk => ?_; dsimp only [s3]
  exact State.clearRegs_kept ‹_›
  clear_value s3
  intro s4; refine via (p := Kept orig s4) ?_ fun hk => ?_; dsimp only [s4]
  refine List.foldl_kept ?_ ?_
  assumption
  intro t u a
  exact State.onPair_kept ‹_›
  clear_value s4
  exact State.clusterForm_kept ‹_›
theorem execClusterReset_kept {s : State} (hk : Kept orig s) {c : Nat} : KeptOut orig (execClusterReset c s) := by
  unfold execClusterReset
  apply forUnit_kept
  assumption
  intro y0 a
  split
  assumption
  exact State.clusterReset_kept (State.resetTaken_kept ‹_›)
theorem State.portBlockReset_kept {s : State} (hk : Kept orig s) {p : Nat} : Kept orig (State.portBlockReset s p) := by
  unfold State.portBlockReset
  lift_lets -underBinder
  intro s1; refine via (p := Kept orig s1) ?_ fun hk => ?_; dsimp only [s1]
  exact State.lockLost_kept ‹_›
  clear_value s1
  split
  exact State.setFlag_kept ‹_›
  assumption
theorem execPortBlockReset_kept {s : State} (hk : Kept orig s) {p : Nat} : KeptOut orig (execPortBlockReset p s) := by
  unfold execPortBlockReset
  apply forUnit_kept
  assumption
  intro y0 a
  split
  assumption
  split
  exact State.linkDown_kept (State.resetTaken_kept ‹_›)
  exact State.portBlockReset_kept (State.resetTaken_kept ‹_›)
theorem State.warmDrain_kept {s : State} (hk : Kept orig s) {n : Nat} : KeptFst orig (State.warmDrain s n) := by
  unfold State.warmDrain
  lift_lets -underBinder
  intro k; try clear_value k
  split
  lift_lets -underBinder
  intro s2; refine via (p := Kept orig s2) ?_ fun hk => ?_; dsimp only [s2]
  apply State.drainFor_kept
  refine KeptSnd.of ‹_› ?_
  exact State.fresh_kept ‹_›
  clear_value s2
  exact KeptFst.mk' ‹_›
theorem State.warmDrains_kept {s : State} (hk : Kept orig s) : KeptFst orig (State.warmDrains s) := by
  unfold State.warmDrains
  refine List.foldlFst_kept ?_ ?_
  exact KeptFst.mk' ‹_›
  intro t u a
  split
  refine KeptFst.mk' ?_
  refine KeptFst.of ‹_› ?_
  exact State.warmDrain_kept (KeptFst.fst ‹_›)
theorem State.cachesDrop_kept {s : State} (hk : Kept orig s) : Kept orig (State.cachesDrop s) := by
  unfold State.cachesDrop
  lift_lets -underBinder
  intro lines; try clear_value lines
  intro s1; refine via (p := Kept orig s1) ?_ fun hk => ?_; dsimp only [s1]
  refine List.foldl_kept ?_ ?_
  assumption
  intro t u a
  exact State.allDiscard_kept ‹_›
  clear_value s1
  apply kept_mk
  assumption
theorem State.rmAbortAll_kept {s : State} (hk : Kept orig s) : Kept orig (State.rmAbortAll s) := by
  unfold State.rmAbortAll
  lift_lets -underBinder
  intro s1; refine via (p := Kept orig s1) ?_ fun hk => ?_; dsimp only [s1]
  refine List.foldl_kept ?_ ?_
  assumption
  intro t u a
  exact State.rmAbort_kept ‹_›
  clear_value s1
  refine List.foldl_kept ?_ ?_
  assumption
  intro t u a
  exact State.rmAbort_kept ‹_›
theorem State.lpsWarm_kept {s : State} (hk : Kept orig s) : Kept orig (State.lpsWarm s) := by
  unfold State.lpsWarm
  apply kept_mk
  assumption
theorem State.mailWarm_kept {s : State} (hk : Kept orig s) : Kept orig (State.mailWarm s) := by
  unfold State.mailWarm
  apply kept_mk
  assumption
theorem State.identRestore_kept {s : State} (hk : Kept orig s) : Kept orig (State.identRestore s) := by
  unfold State.identRestore
  lift_lets -underBinder
  intro s1; refine via (p := Kept orig s1) ?_ fun hk => ?_; dsimp only [s1]
  split
  exact State.setReg_kept ‹_›
  assumption
  clear_value s1
  refine List.foldl_kept ?_ ?_
  assumption
  intro t u a
  exact State.setReg_kept ‹_›
theorem State.railsSet_kept {s : State} (hk : Kept orig s) : Kept orig (State.railsSet s) := by
  unfold State.railsSet
  refine List.foldl_kept ?_ ?_
  assumption
  intro t u a
  exact State.setFld_kept ‹_›
theorem State.rstWarm_kept {s : State} (hk : Kept orig s) {cause src lost : Nat} : Kept orig (State.rstWarm s cause src lost)
    := by
  unfold State.rstWarm
  lift_lets -underBinder
  intro n; try clear_value n
  exact State.setFld_kept (State.setFld_kept (State.setFld_kept (State.setFld_kept ‹_›)))
theorem State.warmClear_kept {s : State} (hk : Kept orig s) : Kept orig (State.warmClear s) := by
  unfold State.warmClear
  lift_lets -underBinder
  intro s1; refine via (p := Kept orig s1) ?_ fun hk => ?_; dsimp only [s1]
  exact State.clearRegs_kept ‹_›
  clear_value s1
  intro u; try clear_value u
  intro u; try clear_value u
  intro u; try clear_value u
  apply kept_mk
  assumption
theorem State.warmReset_kept {s : State} (hk : Kept orig s) {cause src : Nat} : Kept orig (State.warmReset s cause src) := by
  unfold State.warmReset
  lift_lets -underBinder
  intro s1; refine via (p := Kept orig s1) ?_ fun hk => ?_; dsimp only [s1]
  apply State.nvjEpoch_kept
  apply kept_mk
  assumption
  clear_value s1
  split
  lift_lets -underBinder
  intro s3; refine via (p := Kept orig s3) ?_ fun hk => ?_; dsimp only [s3]
  apply State.writeBackAll_kept
  refine KeptFst.of ‹_› ?_
  exact State.warmDrains_kept (State.twHalt_kept ‹_›)
  clear_value s3
  intro s4; refine via (p := Kept orig s4) ?_ fun hk => ?_; dsimp only [s4]
  exact State.mailWarm_kept (State.lpsWarm_kept (State.cachesDrop_kept (State.rmAbortAll_kept (State.retain_kept ‹_›))))
  clear_value s4
  intro s5; refine via (p := Kept orig s5) ?_ fun hk => ?_; dsimp only [s5]
  exact State.railsSet_kept (State.identRestore_kept (State.rstWarm_kept (State.warmClear_kept (State.poolsWarm_kept ‹_›))))
  clear_value s5
  intro s6; refine via (p := Kept orig s6) ?_ fun hk => ?_; dsimp only [s6]
  exact State.twStart_kept (State.mapApply_kept ‹_›)
  clear_value s6
  apply State.actHeld_kept
  apply State.yafAbort_kept
  apply kept_mk
  assumption
theorem execWarmReset_kept {s : State} (hk : Kept orig s) {cause : Nat} : KeptOut orig (execWarmReset cause s) := by
  unfold execWarmReset
  split
  exact KeptOut.refused
  refine KeptOut.next ?_
  lift_lets -underBinder
  intro src; try clear_value src
  split
  assumption
  split
  assumption
  split
  exact State.setFlag_kept ‹_›
  exact State.warmReset_kept ‹_›
theorem State.coldClear_kept {s : State} (hk : Kept orig s) {aon : Bool} : Kept orig (State.coldClear s aon) := by
  have hd : Kept orig s.cachesDrop := State.cachesDrop_kept hk
  exact ⟨hk.pending, hd.mem, hk.free⟩
theorem State.rstCold_kept {s : State} (hk : Kept orig s) {cause : Nat} : Kept orig (State.rstCold s cause) :=
  State.setFld_kept (State.setFld_kept (State.setFld_kept hk))
theorem State.coldReset_kept {s : State} (hk : Kept orig s) {cause : Nat} : Kept orig (State.coldReset s cause) := by
  unfold State.coldReset
  split
  exact State.rstCold_kept (State.coldClear_kept ‹_›)
  lift_lets -underBinder
  intro s1; refine via (p := Kept orig s1) ?_ fun hk => ?_; dsimp only [s1]
  split
  exact State.nvjEpoch_kept ‹_›
  assumption
  clear_value s1
  exact State.rstCold_kept (State.coldClear_kept ‹_›)
theorem execColdReset_kept {s : State} (hk : Kept orig s) {cause : Nat} : KeptOut orig (execColdReset cause s) := by
  unfold execColdReset
  split
  exact KeptOut.refused
  refine KeptOut.next ?_
  split
  split
  exact State.coldReset_kept ‹_›
  exact State.askReset_kept ‹_›
  split
  assumption
  exact State.coldReset_kept ‹_›
theorem State.bootStraps_kept {s : State} (hk : Kept orig s) {b : BootInput} : Kept orig (State.bootStraps s b) := by
  unfold State.bootStraps
  lift_lets -underBinder
  intro clk; try clear_value clk
  intro u; try clear_value u
  intro s1; refine via (p := Kept orig s1) ?_ fun hk => ?_; dsimp only [s1]
  apply State.setReg_kept
  apply kept_mk
  assumption
  clear_value s1
  split
  assumption
  exact State.raise_kept (State.setFlag_kept ‹_›)
theorem State.phaseSet_kept {s : State} (hk : Kept orig s) {p : Nat} : Kept orig (State.phaseSet s p) :=
  State.setFld_kept hk
theorem State.bootFail_kept {s : State} (hk : Kept orig s) : Kept orig (State.bootFail s) := by
  unfold State.bootFail
  split
  apply State.assertErrN_kept
  refine KeptSnd.of ‹_› ?_
  exact State.fresh_kept (State.phaseSet_kept ‹_›)
theorem State.bootImage_kept {s : State} (hk : Kept orig s) {b : BootInput} : KeptOpt orig (State.bootImage s b) := by
  unfold State.bootImage
  lift_lets -underBinder
  intro ok; try clear_value ok
  intro n; try clear_value n
  intro run
  split
  refine KeptOpt.some ?_
  dsimp only [run]
  apply State.setFlag_kept
  apply kept_mk
  assumption
  split
  refine KeptOpt.some ?_
  apply State.raise_kept
  apply State.setFlag_kept
  dsimp only [run]
  apply State.setFlag_kept
  apply kept_mk
  assumption
  exact KeptOpt.none
theorem State.bootCluster_kept {s : State} (hk : Kept orig s) {c : Nat} {fail : BitVec 31} : Kept orig (State.bootCluster s c
    fail) := by
  unfold State.bootCluster
  lift_lets -underBinder
  intro v; try clear_value v
  intro idle; try clear_value idle
  intro rest; try clear_value rest
  intro s1; refine via (p := Kept orig s1) ?_ fun hk => ?_; dsimp only [s1]
  refine List.foldl_kept ?_ ?_
  assumption
  intro t u a
  exact State.spareOut_kept ‹_›
  clear_value s1
  intro u; try clear_value u
  split
  exact State.clusterCondemn_kept ‹_›
  apply State.setFlag_kept
  apply kept_mk
  assumption
theorem State.bootEngine_kept {s : State} (hk : Kept orig s) {i : Nat} : Kept orig (State.bootEngine s i) := by
  unfold State.bootEngine
  split
  assumption
  lift_lets -underBinder
  intro kind; try clear_value kind
  intro unit; try clear_value unit
  intro serving; try clear_value serving
  intro total; try clear_value total
  intro left; try clear_value left
  intro source; try clear_value source
  split
  assumption
  split
  exact State.condemn_kept ‹_›
  exact State.spareOut_kept ‹_›
theorem State.bootTests_kept {s : State} (hk : Kept orig s) {b : BootInput} : Kept orig (State.bootTests s b) := by
  unfold State.bootTests
  lift_lets -underBinder
  intro s1; refine via (p := Kept orig s1) ?_ fun hk => ?_; dsimp only [s1]
  refine List.foldl_kept ?_ ?_
  assumption
  intro t u a
  split
  exact State.bootCluster_kept ‹_›
  assumption
  clear_value s1
  intro s2; refine via (p := Kept orig s2) ?_ fun hk => ?_; dsimp only [s2]
  refine List.foldl_kept ?_ ?_
  assumption
  intro t u a
  exact State.bootEngine_kept ‹_›
  clear_value s2
  refine List.foldl_kept ?_ ?_
  assumption
  intro t u a
  exact State.cmpTestRun_kept ‹_›
theorem State.rowRepair_kept {s : State} (hk : Kept orig s) {c place : Nat} : Kept orig (State.rowRepair s c place) := by
  unfold State.rowRepair
  lift_lets -underBinder
  intro key; try clear_value key
  intro u; try clear_value u
  intro u; try clear_value u
  intro s1; refine via (p := Kept orig s1) ?_ fun hk => ?_; dsimp only [s1]
  apply kept_mk
  assumption
  clear_value s1
  split
  exact State.spareGone_kept (State.dramEvent_kept ‹_›)
  exact State.dramEvent_kept (State.dramSpareShow_kept ‹_›)
theorem State.bootDram_kept {s : State} (hk : Kept orig s) {b : BootInput} {kept : Bool} : Kept orig (State.bootDram s b kept)
    := by
  unfold State.bootDram
  lift_lets -underBinder
  intro u; try clear_value u
  intro u; try clear_value u
  intro s1; refine via (p := Kept orig s1) ?_ fun hk => ?_; dsimp only [s1]
  split
  assumption
  apply kept_mk
  assumption
  clear_value s1
  intro s2; refine via (p := Kept orig s2) ?_ fun hk => ?_; dsimp only [s2]
  refine List.foldl_kept ?_ ?_
  apply kept_mk
  assumption
  intro t u a
  split
  exact State.dramEvent_kept ‹_›
  assumption
  clear_value s2
  intro s3; refine via (p := Kept orig s3) ?_ fun hk => ?_; dsimp only [s3]
  refine List.foldl_kept ?_ ?_
  assumption
  intro t u a
  exact State.rowRepair_kept ‹_›
  clear_value s3
  split
  exact State.setFlag_kept (State.setReg_kept ‹_›)
  refine kept_mk_mem ?_ filter_wf
  assumption
theorem State.bootReady_kept {s : State} (hk : Kept orig s) {kept : Bool} : Kept orig (State.bootReady s kept) := by
  unfold State.bootReady
  lift_lets -underBinder
  intro s1; refine via (p := Kept orig s1) ?_ fun hk => ?_; dsimp only [s1]
  exact State.twStart_kept (State.phaseSet_kept ‹_›)
  clear_value s1
  intro s2; refine via (p := Kept orig s2) ?_ fun hk => ?_; dsimp only [s2]
  exact State.phaseSet_kept (State.onLp_kept (State.onLp_kept ‹_›))
  clear_value s2
  intro u; try clear_value u
  apply State.actHeld_kept
  apply kept_mk
  assumption
theorem State.coldBoot_kept {s : State} (hk : Kept orig s) {b : BootInput} : Kept orig (State.coldBoot s b) := by
  unfold State.coldBoot
  lift_lets -underBinder
  intro s1; refine via (p := Kept orig s1) ?_ fun hk => ?_; dsimp only [s1]
  exact State.railsSet_kept (State.bootStraps_kept (State.bindChannels_kept ‹_›))
  clear_value s1
  intro s2; refine via (p := Kept orig s2) ?_ fun hk => ?_; dsimp only [s2]
  exact State.phaseSet_kept (State.mapMerge_kept ‹_›)
  clear_value s2
  split
  exact State.bootFail_kept ‹_›
  split
  apply State.bootFail_kept
  apply State.phaseSet_kept
  refine KeptOpt.of ?_ ‹_›
  exact State.bootImage_kept ‹_›
  lift_lets -underBinder
  intro kept; try clear_value kept
  intro s4; refine via (p := Kept orig s4) ?_ fun hk => ?_; dsimp only [s4]
  apply State.phaseSet_kept
  apply State.bootTests_kept
  apply State.phaseSet_kept
  refine KeptOpt.of ?_ ‹_›
  exact State.bootImage_kept ‹_›
  clear_value s4
  exact State.bootReady_kept (State.mapApply_kept (State.bootDram_kept ‹_›))
theorem execColdBoot_kept {s : State} (hk : Kept orig s) {b : BootInput} : KeptOut orig (execColdBoot b s) := by
  unfold execColdBoot
  refine KeptOut.next ?_
  split
  assumption
  exact State.coldBoot_kept ‹_›
theorem execDramInitDone_kept {s : State} (hk : Kept orig s) : KeptOut orig (execDramInitDone s) := by
  unfold execDramInitDone
  refine KeptOut.next ?_
  split
  exact State.setReg_kept ‹_›
  assumption
theorem execVddAonPowerUp_kept {s : State} (hk : Kept orig s) : KeptOut orig (execVddAonPowerUp s) :=
  KeptOut.next (State.coldClear_kept hk)
theorem execPowerLoss_kept {s : State} (hk : Kept orig s) {dramKept : Bool} : KeptOut orig (execPowerLoss dramKept s) := by
  unfold execPowerLoss
  refine KeptOut.next ?_
  lift_lets -underBinder
  intro s1; refine via (p := Kept orig s1) ?_ fun hk => ?_; dsimp only [s1]
  exact State.coldClear_kept ‹_›
  clear_value s1
  split
  assumption
  refine kept_mk_mem ?_ filter_wf
  assumption
theorem State.hpEvent_kept {s : State} (hk : Kept orig s) {cause fn src : Nat} : Kept orig (State.hpEvent s cause fn src) :=
  State.raise_kept (State.logCause_kept hk)
theorem State.msixFlush_kept {s : State} (hk : Kept orig s) {f v : Nat} : Kept orig (State.msixFlush s f v) := by
  unfold State.msixFlush
  split
  apply State.countHub_kept
  apply State.emit_kept
  apply kept_mk
  assumption
  assumption
theorem State.msixFlushAll_kept {s : State} (hk : Kept orig s) : Kept orig (State.msixFlushAll s) := by
  unfold State.msixFlushAll
  refine List.foldl_kept ?_ ?_
  assumption
  intro t u a
  refine List.foldl_kept ?_ ?_
  assumption
  intro t u a
  exact State.msixFlush_kept ‹_›
theorem State.hostRises_kept {s : State} (hk : Kept orig s) : Kept orig (State.hostRises s) := by
  unfold State.hostRises
  split
  exact State.msixFlushAll_kept ‹_›
  exact State.msixFlushAll_kept (State.hpEvent_kept (State.setFlag_kept ‹_›))
theorem execCxlLinkTraining_kept {s : State} (hk : Kept orig s) {cxl : Bool} {speed : BitVec 2} {width : BitVec 3} : KeptOut
    orig (execCxlLinkTraining cxl speed width s) := by
  unfold execCxlLinkTraining
  split
  exact KeptOut.refused
  refine KeptOut.next ?_
  lift_lets -underBinder
  intro s1; refine via (p := Kept orig s1) ?_ fun hk => ?_; dsimp only [s1]
  exact State.setFld_kept (State.setFld_kept (State.setFlag_kept ‹_›))
  clear_value s1
  apply State.hostRises_kept
  split
  assumption
  exact State.hpEvent_kept ‹_›
theorem State.hostInvalidate_kept {s : State} (hk : Kept orig s) : Kept orig (State.hostInvalidate s) := by
  unfold State.hostInvalidate
  lift_lets -underBinder
  intro lines; try clear_value lines
  intro dirty; try clear_value dirty
  intro s1; refine via (p := Kept orig s1) ?_ fun hk => ?_; dsimp only [s1]
  refine List.foldl_kept ?_ ?_
  assumption
  intro t u a
  apply State.clearRsv_kept
  refine List.foldl_kept ?_ ?_
  assumption
  intro t u a
  exact State.l2Drop_kept ‹_›
  clear_value s1
  intro s2; refine via (p := Kept orig s2) ?_ fun hk => ?_; dsimp only [s2]
  apply kept_mk
  assumption
  clear_value s2
  intro s3; refine via (p := Kept orig s3) ?_ fun hk => ?_; dsimp only [s3]
  refine List.foldl_kept ?_ ?_
  assumption
  intro t u a
  exact State.l2Discard_kept ‹_›
  clear_value s3
  split
  assumption
  exact State.hpEvent_kept (State.setReg_kept ‹_›)
theorem State.logsBreak_kept {s : State} (hk : Kept orig s) : Kept orig (State.logsBreak s) := by
  unfold State.logsBreak
  refine List.foldl_kept ?_ ?_
  assumption
  intro t u a
  lift_lets -underBinder
  intro st; try clear_value st
  split
  exact State.hpEvent_kept (State.setFld_kept ‹_›)
  assumption
theorem execHostLinkDown_kept {s : State} (hk : Kept orig s) : KeptOut orig (execHostLinkDown s) := by
  unfold execHostLinkDown
  refine KeptOut.next ?_
  split
  assumption
  exact State.logsBreak_kept (State.hostInvalidate_kept (State.hpEvent_kept (State.setFlag_kept ‹_›)))
theorem execHostLinkUp_kept {s : State} (hk : Kept orig s) : KeptOut orig (execHostLinkUp s) :=
  KeptOut.next (State.hostRises_kept hk)
theorem State.fnReset_kept {s : State} (hk : Kept orig s) {f : Nat} : Kept orig (State.fnReset s f) := by
  unfold State.fnReset
  apply kept_mk
  assumption
theorem execConventionalReset_kept {s : State} (hk : Kept orig s) : KeptOut orig (execConventionalReset s) := by
  unfold execConventionalReset
  refine KeptOut.next ?_
  lift_lets -underBinder
  intro s1; refine via (p := Kept orig s1) ?_ fun hk => ?_; dsimp only [s1]
  exact State.hostInvalidate_kept (State.hpEvent_kept ‹_›)
  clear_value s1
  intro s2; refine via (p := Kept orig s2) ?_ fun hk => ?_; dsimp only [s2]
  refine List.foldl_kept ?_ ?_
  assumption
  intro t u a
  exact State.fnReset_kept ‹_›
  clear_value s2
  intro s3; refine via (p := Kept orig s3) ?_ fun hk => ?_; dsimp only [s3]
  refine List.foldl_kept ?_ ?_
  exact State.setReg_kept ‹_›
  intro t u a
  exact State.setReg_kept ‹_›
  clear_value s3
  intro u; try clear_value u
  apply State.resetTaken_kept
  apply kept_mk
  assumption
theorem execFunctionLevelReset_kept {s : State} (hk : Kept orig s) {fn : Nat} : KeptOut orig (execFunctionLevelReset fn s) :=
    by
  unfold execFunctionLevelReset
  apply forUnit_kept
  assumption
  intro y0 a
  lift_lets -underBinder
  intro s1; refine via (p := Kept orig s1) ?_ fun hk => ?_; dsimp only [s1]
  exact State.senderReset_kept (State.fnReset_kept ‹_›)
  clear_value s1
  intro u; refine via (p := Kept orig u) ?_ fun hk => ?_; dsimp only [u]
  exact State.setFld_kept ‹_›
  clear_value u
  split
  assumption
  apply kept_mk
  assumption
theorem execHdmCommit_kept {s : State} (hk : Kept orig s) {base size skip ways : Nat} : KeptOut orig (execHdmCommit base size
    skip ways s) := by
  unfold execHdmCommit
  refine KeptOut.next ?_
  split
  assumption
  split
  lift_lets -underBinder
  intro u; refine via (p := Kept orig u) ?_ fun hk => ?_; dsimp only [u]
  exact State.setFlag_kept ‹_›
  clear_value u
  intro u; try clear_value u
  apply kept_mk
  assumption
  lift_lets -underBinder
  intro u; refine via (p := Kept orig u) ?_ fun hk => ?_; dsimp only [u]
  exact State.setFlag_kept ‹_›
  clear_value u
  intro u; try clear_value u
  apply kept_mk
  assumption
theorem execCxlMemRead_kept {s : State} (hk : Kept orig s) {addr len : Nat} : KeptOut orig (execCxlMemRead addr len s) := by
  unfold execCxlMemRead
  refine KeptOut.next ?_
  split
  assumption
  lift_lets -underBinder
  intro s1; refine via (p := Kept orig s1) ?_ fun hk => ?_; dsimp only [s1]
  exact State.countHub_kept ‹_›
  clear_value s1
  split
  exact State.answer_kept ‹_›
  exact State.answer_kept ‹_›
theorem execCxlMemWrite_kept {s : State} (hk : Kept orig s) {addr : Nat} {bytes : List (BitVec 8)} : KeptOut orig
    (execCxlMemWrite addr bytes s) := by
  unfold execCxlMemWrite
  refine KeptOut.next ?_
  split
  assumption
  lift_lets -underBinder
  intro s1; refine via (p := Kept orig s1) ?_ fun hk => ?_; dsimp only [s1]
  exact State.countHub_kept ‹_›
  clear_value s1
  split
  exact State.answer_kept (State.agentWrite_kept ‹_›)
  exact State.answer_kept ‹_›
theorem execHostSnoop_kept {s : State} (hk : Kept orig s) {addr : Nat} {invalidate : Bool} : KeptOut orig (execHostSnoop addr
    invalidate s) := by
  unfold execHostSnoop
  refine KeptOut.next ?_
  lift_lets -underBinder
  intro line; try clear_value line
  intro s1; refine via (p := Kept orig s1) ?_ fun hk => ?_; dsimp only [s1]
  refine List.foldl_kept ?_ ?_
  assumption
  intro t u a
  exact State.countCl_kept ‹_›
  clear_value s1
  intro r; try clear_value r
  intro s2; refine via (p := Kept orig s2) ?_ fun hk => ?_; dsimp only [s2]
  exact State.l2Clean_kept (State.l2WriteBack_kept ‹_›)
  clear_value s2
  split
  assumption
  apply State.answer_kept
  split
  apply State.clearRsv_kept
  refine List.foldl_kept ?_ ?_
  assumption
  intro t u a
  exact State.l2Drop_kept ‹_›
  assumption
theorem execAtsInvalidation_kept {s : State} (hk : Kept orig s) {fn _page : Nat} : KeptOut orig (execAtsInvalidation fn _page
    s) := by
  unfold execAtsInvalidation
  apply forUnit_kept
  assumption
  intro y0 a
  split
  exact State.answer_kept ‹_›
  assumption
theorem State.msixPut_kept {s : State} (hk : Kept orig s) {f v : Nat} {e : MsixVec} : Kept orig (State.msixPut s f v e) := by
  unfold State.msixPut
  apply State.msixFlush_kept
  apply kept_mk
  assumption
theorem execMsixUnmask_kept {s : State} (hk : Kept orig s) {fn vector : Nat} : KeptOut orig (execMsixUnmask fn vector s) := by
  unfold execMsixUnmask
  apply forUnit_kept
  assumption
  intro y0 a
  split
  exact State.msixPut_kept ‹_›
  assumption
theorem State.msixWrite_kept {s : State} (hk : Kept orig s) {f size v : Nat} {k4 : BarTo} : Kept orig (State.msixWrite s f
    size v k4) := by
  unfold State.msixWrite
  split
  lift_lets -underBinder
  intro bs; try clear_value bs
  intro o; try clear_value o
  exact State.msixPut_kept ‹_›
  assumption
theorem State.barRefused_kept {s : State} (hk : Kept orig s) {f : Nat} {write : Bool} : Kept orig (State.barRefused s f write)
    :=
  State.answer_kept (State.hpEvent_kept hk)
theorem execBarAccess_kept {s : State} (hk : Kept orig s) {bar : BarAddr} {size : Nat} {write : Option (BitVec 64)} : KeptOut
    orig (execBarAccess bar size write s) := by
  unfold execBarAccess
  split
  exact KeptOut.refused
  refine KeptOut.next ?_
  split
  assumption
  split
  exact State.answer_kept ‹_›
  lift_lets -underBinder
  intro tgt; try clear_value tgt
  split
  split
  apply State.answer_kept
  refine KeptOptFst.of ?_ ‹_›
  exact readReg_kept ‹_›
  exact State.barRefused_kept (State.accessRefused_kept ‹_›)
  split
  apply State.answer_kept
  refine KeptFst.of ‹_› ?_
  exact writeReg_kept ‹_›
  apply State.barRefused_kept
  refine KeptFst.of ‹_› ?_
  exact writeReg_kept ‹_›
  exact State.answer_kept ‹_›
  exact State.answer_kept (State.msixWrite_kept ‹_›)
theorem State.writeBy_kept {s : State} (hk : Kept orig s) {master off size v : Nat} : Kept orig (State.writeBy s master off
    size v) := by
  unfold State.writeBy
  split
  assumption
  split
  apply State.answer_kept
  refine KeptFst.of ‹_› ?_
  exact writeReg_kept ‹_›
theorem regCmd_kept {s : State} (hk : Kept orig s) {there : Bool} {master off size v : Nat} : KeptOut orig (regCmd there
    master off size v s) := by
  unfold regCmd
  split
  exact KeptOut.next (State.writeBy_kept ‹_›)
  exact KeptOut.refused
theorem execRegisterWrite_kept {s : State} (hk : Kept orig s) {master off size : Nat} {value : BitVec 64} : KeptOut orig
    (execRegisterWrite master off size value s) :=
  regCmd_kept hk
theorem execLockSet_kept {s : State} (hk : Kept orig s) {master off : Nat} : KeptOut orig (execLockSet master off s) := by
  unfold execLockSet
  split
  exact regCmd_kept ‹_›
  exact KeptOut.refused
theorem execFifoDelivery_kept {s : State} (hk : Kept orig s) {_src _dst : Nat} : KeptOut orig (execFifoDelivery _src _dst s)
    :=
  KeptOut.next hk
theorem execIntcSwiRaise_kept {s : State} (hk : Kept orig s) {master c k : Nat} : KeptOut orig (execIntcSwiRaise master c k s)
    :=
  regCmd_kept hk
theorem execLockenWrite_kept {s : State} (hk : Kept orig s) {master : Nat} {u : CacheUnit} {value : BitVec 32} : KeptOut orig
    (execLockenWrite master u value s) :=
  regCmd_kept hk
theorem rmCmd_kept {s : State} (hk : Kept orig s) {op master : Nat} {e : RangeEngine} {a : RmArgs} : KeptOut orig (rmCmd op
    master e a s) :=
  regCmd_kept hk
theorem execRmClean_kept {s : State} (hk : Kept orig s) {master : Nat} {e : RangeEngine} {args : RmArgs} : KeptOut orig
    (execRmClean master e args s) :=
  rmCmd_kept hk
theorem execRmInval_kept {s : State} (hk : Kept orig s) {master : Nat} {e : RangeEngine} {args : RmArgs} : KeptOut orig
    (execRmInval master e args s) :=
  rmCmd_kept hk
theorem execRmCleaninval_kept {s : State} (hk : Kept orig s) {master : Nat} {e : RangeEngine} {args : RmArgs} : KeptOut orig
    (execRmCleaninval master e args s) :=
  rmCmd_kept hk
theorem execRmLockfill_kept {s : State} (hk : Kept orig s) {master : Nat} {e : RangeEngine} {args : RmArgs} : KeptOut orig
    (execRmLockfill master e args s) :=
  rmCmd_kept hk
theorem execRmUnlock_kept {s : State} (hk : Kept orig s) {master : Nat} {e : RangeEngine} {args : RmArgs} : KeptOut orig
    (execRmUnlock master e args s) :=
  rmCmd_kept hk
theorem execRmZero_kept {s : State} (hk : Kept orig s) {master : Nat} {e : RangeEngine} {args : RmArgs} : KeptOut orig
    (execRmZero master e args s) :=
  rmCmd_kept hk
theorem execDurWrite_kept {s : State} (hk : Kept orig s) {master i : Nat} {value : BitVec 64} : KeptOut orig (execDurWrite
    master i value s) :=
  regCmd_kept hk
theorem execQueueDoorbell_kept {s : State} (hk : Kept orig s) {master q : Nat} {value : BitVec 32} : KeptOut orig
    (execQueueDoorbell master q value s) :=
  regCmd_kept hk
theorem execTqEnableWrite_kept {s : State} (hk : Kept orig s) {master q : Nat} : KeptOut orig (execTqEnableWrite master q s)
    :=
  regCmd_kept hk
theorem execTqDisableWrite_kept {s : State} (hk : Kept orig s) {master q : Nat} : KeptOut orig (execTqDisableWrite master q s)
    :=
  regCmd_kept hk
theorem execPortEnableWrite_kept {s : State} (hk : Kept orig s) {master p : Nat} {value : BitVec 64} : KeptOut orig
    (execPortEnableWrite master p value s) :=
  regCmd_kept hk
theorem execPortDisableWrite_kept {s : State} (hk : Kept orig s) {master p : Nat} : KeptOut orig (execPortDisableWrite master
    p s) :=
  regCmd_kept hk
theorem execMsecCfgWrite_kept {s : State} (hk : Kept orig s) {master p : Nat} {value : BitVec 64} : KeptOut orig
    (execMsecCfgWrite master p value s) :=
  regCmd_kept hk
theorem execLinkEnable_kept {s : State} (hk : Kept orig s) {master l : Nat} {value : BitVec 64} : KeptOut orig (execLinkEnable
    master l value s) :=
  regCmd_kept hk
theorem execLinkDisableWrite_kept {s : State} (hk : Kept orig s) {master l : Nat} : KeptOut orig (execLinkDisableWrite master
    l s) :=
  regCmd_kept hk
theorem execTimeStep_kept {s : State} (hk : Kept orig s) {master : Nat} {amount : BitVec 48} : KeptOut orig (execTimeStep
    master amount s) :=
  regCmd_kept hk
theorem execTimeSlew_kept {s : State} (hk : Kept orig s) {master : Nat} {amount : BitVec 48} : KeptOut orig (execTimeSlew
    master amount s) :=
  regCmd_kept hk
theorem execTimeCtrlSrcWrite_kept {s : State} (hk : Kept orig s) {master : Nat} {src : BitVec 3} : KeptOut orig
    (execTimeCtrlSrcWrite master src s) :=
  regCmd_kept hk
theorem execPrismDoorbell_kept {s : State} (hk : Kept orig s) {master j : Nat} {value : BitVec 32} : KeptOut orig
    (execPrismDoorbell master j value s) :=
  regCmd_kept hk
theorem execCipherDoorbell_kept {s : State} (hk : Kept orig s) {master j : Nat} {value : BitVec 32} : KeptOut orig
    (execCipherDoorbell master j value s) :=
  regCmd_kept hk
theorem execJobRingEnable_kept {s : State} (hk : Kept orig s) {master : Nat} {pool : Pool} {j : Nat} : KeptOut orig
    (execJobRingEnable master pool j s) :=
  regCmd_kept hk
theorem execJobRingDisable_kept {s : State} (hk : Kept orig s) {master : Nat} {pool : Pool} {j : Nat} : KeptOut orig
    (execJobRingDisable master pool j s) :=
  regCmd_kept hk
theorem execKeyCmdLoad_kept {s : State} (hk : Kept orig s) {master : Nat} {slot : BitVec 10} {typ : BitVec 3} {len : BitVec 7}
    {owner : BitVec 12} {portUse : Bool} : KeptOut orig (execKeyCmdLoad master slot typ len owner portUse s) :=
  regCmd_kept hk
theorem execKeyCmdClear_kept {s : State} (hk : Kept orig s) {master : Nat} {slot : BitVec 10} : KeptOut orig (execKeyCmdClear
    master slot s) :=
  regCmd_kept hk
theorem execKeyCmdLock_kept {s : State} (hk : Kept orig s) {master : Nat} {slot : BitVec 10} : KeptOut orig (execKeyCmdLock
    master slot s) :=
  regCmd_kept hk
theorem execMbxTxWrite_kept {s : State} (hk : Kept orig s) {master ch i : Nat} {value : BitVec 64} : KeptOut orig
    (execMbxTxWrite master ch i value s) :=
  regCmd_kept hk
theorem execPost_kept {s : State} (hk : Kept orig s) {master ch : Nat} : KeptOut orig (execPost master ch s) :=
  regCmd_kept hk
theorem execBlockingPost_kept {s : State} (hk : Kept orig s) {master ch : Nat} {timeout : BitVec 20} : KeptOut orig
    (execBlockingPost master ch timeout s) :=
  regCmd_kept hk
theorem execMbxRingWrite_kept {s : State} (hk : Kept orig s) {master ch : Nat} {value : BitVec 32} : KeptOut orig
    (execMbxRingWrite master ch value s) :=
  regCmd_kept hk
theorem execPop_kept {s : State} (hk : Kept orig s) {master ch : Nat} {value : BitVec 32} : KeptOut orig (execPop master ch
    value s) :=
  regCmd_kept hk
theorem execBindWrite_kept {s : State} (hk : Kept orig s) {master ch : Nat} {value : BitVec 64} : KeptOut orig (execBindWrite
    master ch value s) :=
  regCmd_kept hk
theorem execDoorbellClear_kept {s : State} (hk : Kept orig s) {master : Nat} {r : Receiver} {value : BitVec 32} : KeptOut orig
    (execDoorbellClear master r value s) := by
  unfold execDoorbellClear
  split
  exact regCmd_kept ‹_›
  exact KeptOut.refused
theorem execDoorbellMaskWrite_kept {s : State} (hk : Kept orig s) {master : Nat} {r : Receiver} {value : BitVec 32} : KeptOut
    orig (execDoorbellMaskWrite master r value s) := by
  unfold execDoorbellMaskWrite
  split
  exact regCmd_kept ‹_›
  exact KeptOut.refused
theorem execErrSrcClear_kept {s : State} (hk : Kept orig s) {master n : Nat} : KeptOut orig (execErrSrcClear master n s) :=
  regCmd_kept hk
theorem execErrFirstClear_kept {s : State} (hk : Kept orig s) {master g : Nat} : KeptOut orig (execErrFirstClear master g s)
    :=
  regCmd_kept hk
theorem execErrReactWrite_kept {s : State} (hk : Kept orig s) {master g : Nat} {hi : Bool} {value : BitVec 64} : KeptOut orig
    (execErrReactWrite master g hi value s) :=
  regCmd_kept hk
theorem execErrPinForce_kept {s : State} (hk : Kept orig s) {master : Nat} : KeptOut orig (execErrPinForce master s) :=
  regCmd_kept hk
theorem execErrPinRelease_kept {s : State} (hk : Kept orig s) {master : Nat} : KeptOut orig (execErrPinRelease master s) :=
  regCmd_kept hk
theorem execBistGo_kept {s : State} (hk : Kept orig s) {master : Nat} {scope unit : BitVec 8} {kind : Bool} : KeptOut orig
    (execBistGo master scope unit kind s) :=
  regCmd_kept hk
theorem execLensSnapArm_kept {s : State} (hk : Kept orig s) {master : Nat} : KeptOut orig (execLensSnapArm master s) :=
  regCmd_kept hk
theorem execLensFreezeArm_kept {s : State} (hk : Kept orig s) {master : Nat} {freeze : Bool} : KeptOut orig (execLensFreezeArm
    master freeze s) :=
  regCmd_kept hk

end Sys2Proof.Machine
end

