-- ==== Sys2Proof/Laws/KeptYafolo.lean ====
section
/-! SUPPORT. `Kept` of the operations of the commands of Yafolo, and time passing. -/

namespace Sys2Proof.Machine

variable {orig : State}

theorem State.onSlot_kept {s : State} (hk : Kept orig s) {m mid : Nat} {f : Nat → Ans} (kept_f : ∀ y0, KeptAns orig (f y0)) :
    KeptAns orig (State.onSlot s m mid f) := by
  unfold State.onSlot
  split
  exact Ans.un_kept ‹_›
  split
  exact Ans.un_kept ‹_›
  apply kept_f
theorem Ans.lpState_kept {s : State} (hk : Kept orig s) {n : Nat} : KeptAns orig (Ans.lpState s n) :=
  Ans.no_kept hk
theorem execBadOpcode_kept {s : State} (hk : Kept orig s) {h : CmdHdr} {opcode flags : BitVec 16} : KeptOut orig
    (execBadOpcode h opcode flags s) := by
  unfold execBadOpcode
  split
  exact KeptOut.refused
  refine KeptOut.next ?_
  split
  assumption
  split
  exact State.complete_kept (State.takeCmd_kept ‹_›)
theorem yafHello_kept {s : State} (hk : Kept orig s) {m version : Nat} : KeptAns orig (yafHello m version s) := by
  unfold yafHello
  split
  exact Ans.un_kept ‹_›
  exact Ans.ok_kept (State.onReq_kept ‹_›)
theorem execHello_kept {s : State} (hk : Kept orig s) {h : CmdHdr} {version : BitVec 16} : KeptOut orig (execHello h version
    s) := by
  unfold execHello
  apply yafRun_kept
  assumption
  intro y0 a
  exact yafHello_kept ‹_›
theorem yafGetInfo_kept {s : State} (hk : Kept orig s) : KeptAns orig (yafGetInfo s) := by
  unfold yafGetInfo
  lift_lets -underBinder
  intro lost; try clear_value lost
  intro cap; try clear_value cap
  exact Ans.ok_kept ‹_›
theorem execGetInfo_kept {s : State} (hk : Kept orig s) {h : CmdHdr} : KeptOut orig (execGetInfo h s) := by
  unfold execGetInfo
  apply yafRun_kept
  assumption
  intro y0 a
  exact yafGetInfo_kept ‹_›
theorem yafSetIdentity_kept {s : State} (hk : Kept orig s) {domain prio member valid : Nat} : KeptAns orig (yafSetIdentity
    domain prio member valid s) := by
  unfold yafSetIdentity
  split
  exact Ans.un_kept ‹_›
  split
  exact Ans.un_kept ‹_›
  lift_lets -underBinder
  intro u; try clear_value u
  intro s1; refine via (p := Kept orig s1) ?_ fun hk => ?_; dsimp only [s1]
  apply kept_mk
  assumption
  clear_value s1
  exact Ans.ok_kept (State.formNow_kept (State.setReg_kept ‹_›))
theorem execSetIdentity_kept {s : State} (hk : Kept orig s) {h : CmdHdr} {domain prio : BitVec 8} {member : BitVec 16} {valid
    : BitVec 8} : KeptOut orig (execSetIdentity h domain prio member valid s) := by
  unfold execSetIdentity
  apply yafRun_kept
  assumption
  intro y0 a
  exact yafSetIdentity_kept ‹_›
theorem execEventMask_kept {s : State} (hk : Kept orig s) {h : CmdHdr} {mask : BitVec 64} : KeptOut orig (execEventMask h mask
    s) := by
  unfold execEventMask
  apply yafRun_kept
  assumption
  intro y0 a
  exact Ans.ok_kept (State.onReq_kept ‹_›)
theorem yafLockConfig_kept {s : State} (hk : Kept orig s) : KeptAns orig (yafLockConfig s) := by
  unfold yafLockConfig
  split
  exact Ans.un_kept ‹_›
  apply Ans.ok_kept
  refine List.foldl_kept ?_ ?_
  assumption
  intro t u a
  exact State.setFlag_kept ‹_›
theorem execLockConfig_kept {s : State} (hk : Kept orig s) {h : CmdHdr} : KeptOut orig (execLockConfig h s) := by
  unfold execLockConfig
  apply yafRun_kept
  assumption
  intro y0 a
  exact yafLockConfig_kept ‹_›
theorem yafPartCreate_kept {s : State} (hk : Kept orig s) {part owner base size : Nat} {lps : List Nat} : KeptAns orig
    (yafPartCreate part owner base size lps s) := by
  unfold yafPartCreate
  split
  exact Ans.un_kept ‹_›
  split
  exact Ans.un_kept ‹_›
  split
  exact Ans.un_kept ‹_›
  split
  exact Ans.un_kept ‹_›
  split
  exact Ans.lpState_kept ‹_›
  apply Ans.ok_kept
  apply kept_mk
  assumption
theorem execPartCreate_kept {s : State} (hk : Kept orig s) {h : CmdHdr} {part : BitVec 8} {owner : BitVec 16} {base size lps0
    : BitVec 64} {lps1 : BitVec 32} : KeptOut orig (execPartCreate h part owner base size lps0 lps1 s) := by
  unfold execPartCreate
  apply yafRun_kept
  assumption
  intro y0 a
  exact yafPartCreate_kept ‹_›
theorem State.lpUnload_kept {s : State} (hk : Kept orig s) {n : Nat} : Kept orig (State.lpUnload s n) := by
  unfold State.lpUnload
  split
  lift_lets -underBinder
  intro s1; refine via (p := Kept orig s1) ?_ fun hk => ?_; dsimp only [s1]
  exact State.onLp_kept (State.lpRestart_kept ‹_›)
  clear_value s1
  intro u; try clear_value u
  apply kept_mk
  assumption
  assumption
theorem yafPartDestroy_kept {s : State} (hk : Kept orig s) {m part : Nat} : KeptAns orig (yafPartDestroy m part s) := by
  unfold yafPartDestroy
  split
  exact Ans.un_kept ‹_›
  split
  exact Ans.un_kept ‹_›
  split
  exact Ans.un_kept ‹_›
  split
  exact Ans.lpState_kept ‹_›
  lift_lets -underBinder
  intro s1; refine via (p := Kept orig s1) ?_ fun hk => ?_; dsimp only [s1]
  refine List.foldl_kept ?_ ?_
  assumption
  intro t u a
  exact State.lpUnload_kept ‹_›
  clear_value s1
  apply Ans.ok_kept
  apply kept_mk
  assumption
theorem execPartDestroy_kept {s : State} (hk : Kept orig s) {h : CmdHdr} {part : BitVec 8} : KeptOut orig (execPartDestroy h
    part s) := by
  unfold execPartDestroy
  apply yafRun_kept
  assumption
  intro y0 a
  exact yafPartDestroy_kept ‹_›
theorem State.copySegs_kept {s : State} (hk : Kept orig s) {m image : Nat} {k3 : List Segment} : KeptOpt orig (State.copySegs
    s m image k3) := by
  induction k3 generalizing s m image
  case' cons _ _ ih => unfold State.copySegs
  case' nil => unfold State.copySegs
  exact KeptOpt.some ‹_›
  split
  apply ih
  exact State.agentWrite_kept ‹_›
  split
  apply ih
  exact State.agentWrite_kept ‹_›
  exact KeptOpt.none
theorem yafProgLoad_kept {s : State} (hk : Kept orig s) {m mid image length crc : Nat} : KeptAns orig (yafProgLoad m mid image
    length crc s) := by
  unfold yafProgLoad
  apply State.onSlot_kept
  assumption
  intro y0
  split
  exact Ans.lpState_kept ‹_›
  split
  exact Ans.un_kept ‹_›
  lift_lets -underBinder
  intro p; try clear_value p
  split
  exact Ans.no_kept ‹_›
  lift_lets -underBinder
  intro r; try clear_value r
  intro k; try clear_value k
  intro im; try clear_value im
  intro gs; try clear_value gs
  intro s1; refine via (p := Kept orig s1) ?_ fun hk => ?_; dsimp only [s1]
  apply Option.getD_kept
  assumption
  exact State.copySegs_kept ‹_›
  clear_value s1
  intro s2; refine via (p := Kept orig s2) ?_ fun hk => ?_; dsimp only [s2]
  exact State.onLp_kept ‹_›
  clear_value s2
  intro u; try clear_value u
  split
  exact Ans.un_kept ‹_›
  apply Ans.ok_kept
  apply kept_mk
  assumption
theorem execProgLoad_kept {s : State} (hk : Kept orig s) {h : CmdHdr} {mid : BitVec 16} {image : BitVec 64} {length crc :
    BitVec 32} : KeptOut orig (execProgLoad h mid image length crc s) := by
  unfold execProgLoad
  apply yafRun_kept
  assumption
  intro y0 a
  exact yafProgLoad_kept ‹_›
theorem yafLpStart_kept {s : State} (hk : Kept orig s) {m mid : Nat} : KeptAns orig (yafLpStart m mid s) := by
  unfold yafLpStart
  apply State.onSlot_kept
  assumption
  intro y0
  split
  exact Ans.lpState_kept ‹_›
  split
  exact Ans.ok_kept (State.onLp_kept ‹_›)
  exact Ans.ok_kept (State.onLp_kept ‹_›)
theorem execLpStart_kept {s : State} (hk : Kept orig s) {h : CmdHdr} {mid : BitVec 16} : KeptOut orig (execLpStart h mid s) :=
    by
  unfold execLpStart
  apply yafRun_kept
  assumption
  intro y0 a
  exact yafLpStart_kept ‹_›
theorem yafLpStop_kept {s : State} (hk : Kept orig s) {m mid : Nat} : KeptAns orig (yafLpStop m mid s) := by
  unfold yafLpStop
  apply State.onSlot_kept
  assumption
  intro y0
  split
  exact Ans.lpState_kept ‹_›
  exact Ans.ok_kept (State.onLp_kept (State.lpRestart_kept ‹_›))
theorem execLpStop_kept {s : State} (hk : Kept orig s) {h : CmdHdr} {mid : BitVec 16} : KeptOut orig (execLpStop h mid s) :=
    by
  unfold execLpStop
  apply yafRun_kept
  assumption
  intro y0 a
  exact yafLpStop_kept ‹_›
theorem yafLpStatus_kept {s : State} (hk : Kept orig s) {m mid : Nat} : KeptAns orig (yafLpStatus m mid s) := by
  unfold yafLpStatus
  apply State.onSlot_kept
  assumption
  intro y0
  lift_lets -underBinder
  intro c; try clear_value c
  intro k; try clear_value k
  intro p; try clear_value p
  intro halt; try clear_value halt
  split
  split
  split
  apply Ans.ok_kept
  refine KeptSnd.of ‹_› ?_
  apply State.fresh_kept
  refine KeptSnd.of ‹_› ?_
  exact State.fresh_kept ‹_›
  exact Ans.ok_kept ‹_›
theorem execLpStatus_kept {s : State} (hk : Kept orig s) {h : CmdHdr} {mid : BitVec 16} : KeptOut orig (execLpStatus h mid s)
    := by
  unfold execLpStatus
  apply yafRun_kept
  assumption
  intro y0 a
  exact yafLpStatus_kept ‹_›
theorem State.yafRange_kept {s : State} (hk : Kept orig s) {e : RangeEngine} {op way addr lines : Nat} : Kept orig
    (State.yafRange s e op way addr lines) :=
  State.rmFinish_kept (State.rmStart_kept (State.setReg_kept (State.setReg_kept hk)))
theorem rangeAns_kept {s : State} (hk : Kept orig s) {e : RangeEngine} {moved skips : Bool} : KeptAns orig (rangeAns s e moved
    skips) := by
  unfold rangeAns
  lift_lets -underBinder
  intro code; try clear_value code
  intro n; try clear_value n
  intro res; try clear_value res
  split
  exact Ans.ok_kept ‹_›
  exact KeptAns.mk' ‹_›
theorem State.enableWay_kept {s : State} (hk : Kept orig s) {scope cluster way : Nat} : KeptOpt orig (State.enableWay s scope
    cluster way) := by
  unfold State.enableWay
  lift_lets -underBinder
  intro units; try clear_value units
  split
  exact KeptOpt.none
  refine KeptOpt.some ?_
  refine List.foldl_kept ?_ ?_
  assumption
  intro t u a
  split
  assumption
  exact State.lockenWrite_kept ‹_›
theorem State.rangeCheck_kept {s : State} (hk : Kept orig s) {m scope cluster addr lines : Nat} {f : RangeEngine → Ans}
    (kept_f : ∀ y0, KeptAns orig (f y0)) : KeptAns orig (State.rangeCheck s m scope cluster addr lines f) := by
  unfold State.rangeCheck
  split
  exact Ans.un_kept ‹_›
  split
  exact Ans.un_kept ‹_›
  split
  exact Ans.un_kept ‹_›
  split
  exact Ans.un_kept ‹_›
  split
  exact Ans.un_kept ‹_›
  split
  exact Ans.un_kept ‹_›
  apply kept_f
theorem yafLockRange_kept {s : State} (hk : Kept orig s) {m scope cluster way addr lines : Nat} : KeptAns orig (yafLockRange m
    scope cluster way addr lines s) := by
  unfold yafLockRange
  split
  exact Ans.un_kept ‹_›
  apply State.rangeCheck_kept
  assumption
  intro y0
  split
  exact Ans.un_kept ‹_›
  apply rangeAns_kept
  apply State.yafRange_kept
  refine KeptOpt.of ?_ ‹_›
  exact State.enableWay_kept ‹_›
theorem execLockRange_kept {s : State} (hk : Kept orig s) {h : CmdHdr} {scope cluster way : BitVec 8} {addr : BitVec 64}
    {lines : BitVec 32} : KeptOut orig (execLockRange h scope cluster way addr lines s) := by
  unfold execLockRange
  apply yafRun_kept
  assumption
  intro y0 a
  exact yafLockRange_kept ‹_›
theorem yafUnlockRange_kept {s : State} (hk : Kept orig s) {m scope cluster addr lines : Nat} : KeptAns orig (yafUnlockRange m
    scope cluster addr lines s) := by
  unfold yafUnlockRange
  apply State.rangeCheck_kept
  assumption
  intro y0
  exact rangeAns_kept (State.yafRange_kept ‹_›)
theorem execUnlockRange_kept {s : State} (hk : Kept orig s) {h : CmdHdr} {scope cluster : BitVec 8} {addr : BitVec 64} {lines
    : BitVec 32} : KeptOut orig (execUnlockRange h scope cluster addr lines s) := by
  unfold execUnlockRange
  apply yafRun_kept
  assumption
  intro y0 a
  exact yafUnlockRange_kept ‹_›
theorem yafSetDurable_kept {s : State} (hk : Kept orig s) {index size base : Nat} : KeptAns orig (yafSetDurable index size
    base s) := by
  unfold yafSetDurable
  lift_lets -underBinder
  intro others; try clear_value others
  split
  exact Ans.un_kept ‹_›
  split
  exact Ans.un_kept ‹_›
  split
  exact Ans.un_kept ‹_›
  exact Ans.ok_kept (State.durWrite_kept ‹_›)
theorem execSetDurable_kept {s : State} (hk : Kept orig s) {h : CmdHdr} {index : BitVec 8} {size : BitVec 16} {base : BitVec
    64} : KeptOut orig (execSetDurable h index size base s) := by
  unfold execSetDurable
  apply yafRun_kept
  assumption
  intro y0 a
  exact yafSetDurable_kept ‹_›
theorem State.onQueue_kept {s : State} (hk : Kept orig s) {m q : Nat} {f : Ans} (kept_f : KeptAns orig f) : KeptAns orig
    (State.onQueue s m q f) := by
  unfold State.onQueue
  split
  exact Ans.un_kept ‹_›
  split
  exact Ans.un_kept ‹_›
  assumption
theorem yafQueueRings_kept {s : State} (hk : Kept orig s) {m q : Nat} {r : QRings} : KeptAns orig (yafQueueRings m q r s) :=
    by
  unfold yafQueueRings
  apply State.onQueue_kept
  assumption
  split
  exact Ans.un_kept ‹_›
  split
  exact Ans.no_kept ‹_›
  split
  exact Ans.un_kept ‹_›
  apply Ans.ok_kept
  apply kept_mk
  assumption
theorem execQueueRings_kept {s : State} (hk : Kept orig s) {h : CmdHdr} {queue : BitVec 16} {k flows : BitVec 8} {ring cq
    state buflo bufhi : BitVec 64} : KeptOut orig (execQueueRings h queue k flows ring cq state buflo bufhi s) := by
  unfold execQueueRings
  apply yafRun_kept
  assumption
  intro y0 a
  exact yafQueueRings_kept ‹_›
theorem yafQueueParams_kept {s : State} (hk : Kept orig s) {m q owner engine durable bit en target timeout dflt : Nat} :
    KeptAns orig (yafQueueParams m q owner engine durable bit en target timeout dflt s) := by
  unfold yafQueueParams
  apply State.onQueue_kept
  assumption
  split
  exact Ans.un_kept ‹_›
  split
  exact Ans.un_kept ‹_›
  apply Ans.ok_kept
  apply kept_mk
  assumption
theorem execQueueParams_kept {s : State} (hk : Kept orig s) {h : CmdHdr} {queue owner : BitVec 16} {engine durable notifyBit
    notifyEn : BitVec 8} {notifyTarget : BitVec 16} {timeout : BitVec 32} {target : BitVec 64} : KeptOut orig (execQueueParams
    h queue owner engine durable notifyBit notifyEn notifyTarget timeout target s) := by
  unfold execQueueParams
  apply yafRun_kept
  assumption
  intro y0 a
  exact yafQueueParams_kept ‹_›
theorem State.queueWrite_kept {s : State} (hk : Kept orig s) {q : Nat} : Kept orig (State.queueWrite s q) := by
  unfold State.queueWrite
  lift_lets -underBinder
  intro s1; refine via (p := Kept orig s1) ?_ fun hk => ?_; dsimp only [s1]
  split
  exact State.setReg_kept (State.setReg_kept (State.setReg_kept (State.setReg_kept (State.setReg_kept ‹_›))))
  assumption
  clear_value s1
  split
  exact State.setReg_kept (State.setReg_kept ‹_›)
  assumption
theorem yafQueueEnable_kept {s : State} (hk : Kept orig s) {m q : Nat} : KeptAns orig (yafQueueEnable m q s) := by
  unfold yafQueueEnable
  apply State.onQueue_kept
  assumption
  split
  exact Ans.un_kept ‹_›
  split
  apply Ans.ok_kept
  refine State.queueEnable_kept ?_ ‹_›
  exact State.queueWrite_kept ‹_›
  exact Ans.un_kept ‹_›
  exact Ans.un_kept ‹_›
  exact Ans.no_kept ‹_›
  exact Ans.un_kept ‹_›
theorem execQueueEnable_kept {s : State} (hk : Kept orig s) {h : CmdHdr} {queue : BitVec 16} : KeptOut orig (execQueueEnable h
    queue s) := by
  unfold execQueueEnable
  apply yafRun_kept
  assumption
  intro y0 a
  exact yafQueueEnable_kept ‹_›
theorem yafQueueDisable_kept {s : State} (hk : Kept orig s) {m q : Nat} : KeptAns orig (yafQueueDisable m q s) := by
  unfold yafQueueDisable
  apply State.onQueue_kept
  assumption
  split
  exact Ans.un_kept ‹_›
  split
  apply Ans.ok_kept
  refine KeptFst.of ‹_› ?_
  exact State.queueDisable_kept ‹_›
theorem execQueueDisable_kept {s : State} (hk : Kept orig s) {h : CmdHdr} {queue : BitVec 16} : KeptOut orig (execQueueDisable
    h queue s) := by
  unfold execQueueDisable
  apply yafRun_kept
  assumption
  intro y0 a
  exact yafQueueDisable_kept ‹_›
theorem yafQueueRebind_kept {s : State} (hk : Kept orig s) {m q target : Nat} : KeptAns orig (yafQueueRebind m q target s) :=
    by
  unfold yafQueueRebind
  apply State.onQueue_kept
  assumption
  split
  exact Ans.un_kept ‹_›
  lift_lets -underBinder
  intro u; try clear_value u
  intro s1; refine via (p := Kept orig s1) ?_ fun hk => ?_; dsimp only [s1]
  apply kept_mk
  assumption
  clear_value s1
  exact Ans.ok_kept (State.setReg_kept ‹_›)
theorem execQueueRebind_kept {s : State} (hk : Kept orig s) {h : CmdHdr} {queue : BitVec 16} {target : BitVec 64} : KeptOut
    orig (execQueueRebind h queue target s) := by
  unfold execQueueRebind
  apply yafRun_kept
  assumption
  intro y0 a
  exact yafQueueRebind_kept ‹_›
theorem yafQueueStatus_kept {s : State} (hk : Kept orig s) {m q : Nat} : KeptAns orig (yafQueueStatus m q s) := by
  unfold yafQueueStatus
  apply State.onQueue_kept
  assumption
  exact Ans.ok_kept ‹_›
theorem execQueueStatus_kept {s : State} (hk : Kept orig s) {h : CmdHdr} {queue : BitVec 16} : KeptOut orig (execQueueStatus h
    queue s) := by
  unfold execQueueStatus
  apply yafRun_kept
  assumption
  intro y0 a
  exact yafQueueStatus_kept ‹_›
theorem State.teMove_kept {s : State} (hk : Kept orig s) {e d : Nat} : Kept orig (State.teMove s e d) := by
  unfold State.teMove
  lift_lets -underBinder
  intro i; try clear_value i
  intro s1; refine via (p := Kept orig s1) ?_ fun hk => ?_; dsimp only [s1]
  exact State.condemn_kept ‹_›
  clear_value s1
  apply State.teHandover_kept
  apply kept_mk
  assumption
theorem yafTeDisable_kept {s : State} (hk : Kept orig s) {e d : Nat} : KeptAns orig (yafTeDisable e d s) := by
  unfold yafTeDisable
  split
  exact Ans.un_kept ‹_›
  split
  exact Ans.un_kept ‹_›
  split
  exact Ans.no_kept ‹_›
  exact Ans.ok_kept (State.teMove_kept ‹_›)
theorem execTeDisable_kept {s : State} (hk : Kept orig s) {h : CmdHdr} {logical dest : BitVec 8} : KeptOut orig (execTeDisable
    h logical dest s) := by
  unfold execTeDisable
  apply yafRun_kept
  assumption
  intro y0 a
  exact yafTeDisable_kept ‹_›
theorem yafDomainSet_kept {s : State} (hk : Kept orig s) {domain valid isLocal gateway links : Nat} : KeptAns orig
    (yafDomainSet domain valid isLocal gateway links s) := by
  unfold yafDomainSet
  split
  exact Ans.un_kept ‹_›
  lift_lets -underBinder
  intro v; try clear_value v
  intro u; try clear_value u
  apply Ans.ok_kept
  apply State.setReg_kept
  apply kept_mk
  assumption
theorem execDomainSet_kept {s : State} (hk : Kept orig s) {h : CmdHdr} {domain valid isLocal : BitVec 8} {gateway : BitVec 16}
    {links : BitVec 64} : KeptOut orig (execDomainSet h domain valid isLocal gateway links s) := by
  unfold execDomainSet
  apply yafRun_kept
  assumption
  intro y0 a
  exact yafDomainSet_kept ‹_›
theorem yafResumeReport_kept {s : State} (hk : Kept orig s) {index : Nat} : KeptAns orig (yafResumeReport index s) := by
  unfold yafResumeReport
  lift_lets -underBinder
  intro r; try clear_value r
  split
  exact Ans.un_kept ‹_›
  exact Ans.ok_kept ‹_›
theorem execResumeReport_kept {s : State} (hk : Kept orig s) {h : CmdHdr} {index : BitVec 32} : KeptOut orig (execResumeReport
    h index s) := by
  unfold execResumeReport
  apply yafRun_kept
  assumption
  intro y0 a
  exact yafResumeReport_kept ‹_›
theorem nextOr_kept {s : State} (hk : Kept orig s) {o : Host.Outcome State Fault Refusal} (kept_o : KeptOut orig o) : Kept
    orig (nextOr s o) := by
  unfold nextOr
  split
  exact KeptOut.of ‹_› rfl
  assumption
theorem State.onPortCmd_kept {s : State} (hk : Kept orig s) {m p : Nat} {f : Ans} (kept_f : KeptAns orig f) : KeptAns orig
    (State.onPortCmd s m p f) := by
  unfold State.onPortCmd
  split
  exact Ans.un_kept ‹_›
  split
  exact Ans.un_kept ‹_›
  split
  exact Ans.un_kept ‹_›
  assumption
theorem State.portSetUp_kept {s : State} (hk : Kept orig s) {x : PortSet} {p : Nat} : Kept orig (State.portSetUp s x p) := by
  unfold State.portSetUp
  lift_lets -underBinder
  intro s1; refine via (p := Kept orig s1) ?_ fun hk => ?_; dsimp only [s1]
  exact State.setReg_kept (State.setReg_kept (State.setReg_kept ‹_›))
  clear_value s1
  exact State.portCfgPut_kept ‹_›
theorem yafPortUp_kept {s : State} (hk : Kept orig s) {m p flags forget : Nat} {x : PortSet} : KeptAns orig (yafPortUp m p
    flags forget x s) := by
  unfold yafPortUp
  lift_lets -underBinder
  intro pair; try clear_value pair
  intro ports; try clear_value ports
  intro s1; refine via (p := Kept orig s1) ?_ fun hk => ?_; dsimp only [s1]
  split
  exact State.prpCfgWrite_kept ‹_›
  assumption
  clear_value s1
  apply State.onPortCmd_kept
  assumption
  split
  exact Ans.un_kept ‹_›
  split
  exact Ans.un_kept ‹_›
  split
  exact Ans.un_kept ‹_›
  apply Ans.ok_kept
  refine List.foldl_kept ?_ ?_
  assumption
  intro t u a
  exact State.portSetUp_kept ‹_›
theorem execPortUp_kept {s : State} (hk : Kept orig s) {h : CmdHdr} {port mode fec flags : BitVec 8} {forget txLat rxLat :
    BitVec 16} {rxlog rxbig rxbit : BitVec 8} {rxtarget : BitVec 16} {rxring : BitVec 64} : KeptOut orig (execPortUp h port
    mode fec flags forget txLat rxLat rxlog rxbig rxbit rxtarget rxring s) := by
  unfold execPortUp
  apply yafRun_kept
  assumption
  intro y0 a
  exact yafPortUp_kept ‹_›
theorem yafPortDown_kept {s : State} (hk : Kept orig s) {m p : Nat} : KeptAns orig (yafPortDown m p s) := by
  unfold yafPortDown
  apply State.onPortCmd_kept
  assumption
  exact Ans.ok_kept (State.portCfgPut_kept ‹_›)
theorem execPortDown_kept {s : State} (hk : Kept orig s) {h : CmdHdr} {port : BitVec 8} : KeptOut orig (execPortDown h port s)
    := by
  unfold execPortDown
  apply yafRun_kept
  assumption
  intro y0 a
  exact yafPortDown_kept ‹_›
theorem yafPortStatus_kept {s : State} (hk : Kept orig s) {m p : Nat} : KeptAns orig (yafPortStatus m p s) := by
  unfold yafPortStatus
  apply State.onPortCmd_kept
  assumption
  exact Ans.ok_kept ‹_›
theorem execPortStatus_kept {s : State} (hk : Kept orig s) {h : CmdHdr} {port : BitVec 8} : KeptOut orig (execPortStatus h
    port s) := by
  unfold execPortStatus
  apply yafRun_kept
  assumption
  intro y0 a
  exact yafPortStatus_kept ‹_›
theorem yafTableWrite_kept {s : State} (hk : Kept orig s) {m kind g i entry : Nat} : KeptAns orig (yafTableWrite m kind g i
    entry s) := by
  unfold yafTableWrite
  split
  split
  exact Ans.un_kept ‹_›
  split
  exact Ans.un_kept ‹_›
  split
  exact Ans.un_kept ‹_›
  apply Ans.ok_kept
  refine List.foldl_kept ?_ ?_
  assumption
  intro t u a
  split
  assumption
  exact State.setReg_kept ‹_›
theorem execTableWrite_kept {s : State} (hk : Kept orig s) {h : CmdHdr} {kind group : BitVec 8} {index : BitVec 16} {entry :
    BitVec 64} : KeptOut orig (execTableWrite h kind group index entry s) := by
  unfold execTableWrite
  apply yafRun_kept
  assumption
  intro y0 a
  exact yafTableWrite_kept ‹_›
theorem yafPubTable_kept {s : State} (hk : Kept orig s) {base : Nat} : KeptAns orig (yafPubTable base s) := by
  unfold yafPubTable
  split
  exact Ans.un_kept ‹_›
  split
  exact Ans.un_kept ‹_›
  exact Ans.ok_kept (State.setReg_kept ‹_›)
theorem execPubTable_kept {s : State} (hk : Kept orig s) {h : CmdHdr} {base : BitVec 64} : KeptOut orig (execPubTable h base
    s) := by
  unfold execPubTable
  apply yafRun_kept
  assumption
  intro y0 a
  exact yafPubTable_kept ‹_›
theorem yafSaLoad_kept {s : State} (hk : Kept orig s) {m p dir sc an cfg window key : Nat} {f : List Byte → Sa} : KeptAns orig
    (yafSaLoad m p dir sc an cfg window key f s) := by
  unfold yafSaLoad
  apply State.onPortCmd_kept
  assumption
  split
  split
  exact Ans.un_kept ‹_›
  split
  exact Ans.un_kept ‹_›
  lift_lets -underBinder
  intro s1; refine via (p := Kept orig s1) ?_ fun hk => ?_; dsimp only [s1]
  exact State.onPort_kept (State.msecCfgWrite_kept ‹_›)
  clear_value s1
  exact Ans.ok_kept (State.agentWrite_kept ‹_›)
  split
  exact Ans.un_kept ‹_›
  split
  exact Ans.un_kept ‹_›
  lift_lets -underBinder
  intro s1; refine via (p := Kept orig s1) ?_ fun hk => ?_; dsimp only [s1]
  exact State.onPort_kept (State.msecCfgWrite_kept ‹_›)
  clear_value s1
  exact Ans.ok_kept (State.agentWrite_kept ‹_›)
theorem execSaLoad_kept {s : State} (hk : Kept orig s) {h : CmdHdr} {port dir sc an : BitVec 8} {ssci : BitVec 32} {sci key pn
    : BitVec 64} {cfg window : BitVec 32} : KeptOut orig (execSaLoad h port dir sc an ssci sci key pn cfg window s) := by
  unfold execSaLoad
  apply yafRun_kept
  assumption
  intro y0 a
  exact yafSaLoad_kept ‹_›
theorem yafModuleInfo_kept {s : State} (hk : Kept orig s) {m p buf : Nat} : KeptAns orig (yafModuleInfo m p buf s) := by
  unfold yafModuleInfo
  apply State.onPortCmd_kept
  assumption
  split
  exact Ans.un_kept ‹_›
  split
  split
  split
  exact Ans.un_kept ‹_›
  apply Ans.ok_kept
  apply State.agentWrite_kept
  refine KeptSnd.of ‹_› ?_
  apply State.freshBytes_kept
  refine KeptSnd.of ‹_› ?_
  exact State.fresh_kept ‹_›
theorem execModuleInfo_kept {s : State} (hk : Kept orig s) {h : CmdHdr} {port : BitVec 8} {buf : BitVec 64} : KeptOut orig
    (execModuleInfo h port buf s) := by
  unfold execModuleInfo
  apply yafRun_kept
  assumption
  intro y0 a
  exact yafModuleInfo_kept ‹_›
theorem yafModuleCfg_kept {s : State} (hk : Kept orig s) {wearPct steer lifeKh part fecThresh : Nat} : KeptAns orig
    (yafModuleCfg wearPct steer lifeKh part fecThresh s) := by
  unfold yafModuleCfg
  split
  exact Ans.un_kept ‹_›
  apply Ans.ok_kept
  apply kept_mk
  assumption
theorem execModuleCfg_kept {s : State} (hk : Kept orig s) {h : CmdHdr} {wearPct steer : BitVec 8} {lifeKh : BitVec 16} {part
    fecThresh : BitVec 32} : KeptOut orig (execModuleCfg h wearPct steer lifeKh part fecThresh s) := by
  unfold execModuleCfg
  apply yafRun_kept
  assumption
  intro y0 a
  exact yafModuleCfg_kept ‹_›
theorem State.linkSetUp_kept {s : State} (hk : Kept orig s) {l width rate asym : Nat} : Kept orig (State.linkSetUp s l width
    rate asym) := by
  unfold State.linkSetUp
  lift_lets -underBinder
  intro s1; refine via (p := Kept orig s1) ?_ fun hk => ?_; dsimp only [s1]
  refine List.foldl_kept ?_ ?_
  assumption
  intro t u a
  exact State.portCfgPut_kept ‹_›
  clear_value s1
  exact State.lnkCfgWrite_kept ‹_›
theorem State.linkAnswer_kept {s : State} (hk : Kept orig s) {l width rate : Nat} : Kept orig (State.linkAnswer s l width
    rate) := by
  unfold State.linkAnswer
  split
  assumption
  lift_lets -underBinder
  intro s1; refine via (p := Kept orig s1) ?_ fun hk => ?_; dsimp only [s1]
  refine List.foldl_kept ?_ ?_
  assumption
  intro t u a
  apply nextOr_kept
  assumption
  exact execBlockLockAcquired_kept ‹_›
  clear_value s1
  apply nextOr_kept
  assumption
  exact execInitReceived_kept ‹_›
theorem yafLinkUp_kept {s : State} (hk : Kept orig s) {m l width rate asym : Nat} {comesUp : Bool} : KeptAns orig (yafLinkUp m
    l width rate asym comesUp s) := by
  unfold yafLinkUp
  apply State.onPortCmd_kept
  assumption
  split
  exact Ans.un_kept ‹_›
  split
  exact Ans.un_kept ‹_›
  lift_lets -underBinder
  intro s1; refine via (p := Kept orig s1) ?_ fun hk => ?_; dsimp only [s1]
  exact State.linkSetUp_kept ‹_›
  clear_value s1
  intro s2; refine via (p := Kept orig s2) ?_ fun hk => ?_; dsimp only [s2]
  split
  exact State.linkAnswer_kept ‹_›
  assumption
  clear_value s2
  split
  exact Ans.ok_kept ‹_›
  exact Ans.un_kept ‹_›
theorem execLinkUp_kept {s : State} (hk : Kept orig s) {h : CmdHdr} {port width rate : BitVec 8} {asym : BitVec 16} {comesUp :
    Bool} : KeptOut orig (execLinkUp h port width rate asym comesUp s) := by
  unfold execLinkUp
  apply yafRun_kept
  assumption
  intro y0 a
  exact yafLinkUp_kept ‹_›
theorem yafTimeSource_kept {s : State} (hk : Kept orig s) {src tref allowStep stepUs : Nat} : KeptAns orig (yafTimeSource src
    tref allowStep stepUs s) := by
  unfold yafTimeSource
  split
  exact Ans.un_kept ‹_›
  split
  exact Ans.un_kept ‹_›
  exact Ans.ok_kept (State.timeCtrlWrite_kept ‹_›)
theorem execTimeSource_kept {s : State} (hk : Kept orig s) {h : CmdHdr} {src tref allowStep stepUs : BitVec 8} : KeptOut orig
    (execTimeSource h src tref allowStep stepUs s) := by
  unfold execTimeSource
  apply yafRun_kept
  assumption
  intro y0 a
  exact yafTimeSource_kept ‹_›
theorem yafTimeSet_kept {s : State} (hk : Kept orig s) {tai : Nat} : KeptAns orig (yafTimeSet tai s) := by
  unfold yafTimeSet
  lift_lets -underBinder
  intro st; try clear_value st
  intro s1; refine via (p := Kept orig s1) ?_ fun hk => ?_; dsimp only [s1]
  exact State.adjust_kept ‹_›
  clear_value s1
  split
  exact Ans.no_kept ‹_›
  exact Ans.ok_kept ‹_›
theorem execTimeSet_kept {s : State} (hk : Kept orig s) {h : CmdHdr} {taiNs : BitVec 64} : KeptOut orig (execTimeSet h taiNs
    s) := by
  unfold execTimeSet
  apply yafRun_kept
  assumption
  intro y0 a
  exact yafTimeSet_kept ‹_›
theorem yafTimeStatus_kept {s : State} (hk : Kept orig s) : KeptAns orig (yafTimeStatus s) :=
  Ans.ok_kept hk
theorem execTimeStatus_kept {s : State} (hk : Kept orig s) {h : CmdHdr} : KeptOut orig (execTimeStatus h s) := by
  unfold execTimeStatus
  apply yafRun_kept
  assumption
  intro y0 a
  exact yafTimeStatus_kept ‹_›
theorem yafPtpConfig_kept {s : State} (hk : Kept orig s) {c : PtpCfg} : KeptAns orig (yafPtpConfig c s) := by
  unfold yafPtpConfig
  split
  exact Ans.un_kept ‹_›
  split
  exact Ans.un_kept ‹_›
  apply Ans.ok_kept
  apply kept_mk
  assumption
theorem execPtpConfig_kept {s : State} (hk : Kept orig s) {h : CmdHdr} {profile role domain transport prio1 prio2 : BitVec 8}
    {ports0 ports1 : BitVec 64} : KeptOut orig (execPtpConfig h profile role domain transport prio1 prio2 ports0 ports1 s) :=
    by
  unfold execPtpConfig
  apply yafRun_kept
  assumption
  intro y0 a
  exact yafPtpConfig_kept ‹_›
theorem yafPpsConfig_kept {s : State} (hk : Kept orig s) {flags width : Nat} : KeptAns orig (yafPpsConfig flags width s) := by
  unfold yafPpsConfig
  split
  exact Ans.un_kept ‹_›
  exact Ans.ok_kept (State.ppsCfgWrite_kept ‹_›)
theorem execPpsConfig_kept {s : State} (hk : Kept orig s) {h : CmdHdr} {flags : BitVec 8} {width : BitVec 32} : KeptOut orig
    (execPpsConfig h flags width s) := by
  unfold execPpsConfig
  apply yafRun_kept
  assumption
  intro y0 a
  exact yafPpsConfig_kept ‹_›
theorem yafUtcSet_kept {s : State} (hk : Kept orig s) {offset leap : Nat} : KeptAns orig (yafUtcSet offset leap s) := by
  unfold yafUtcSet
  split
  exact Ans.un_kept ‹_›
  exact Ans.ok_kept (State.setReg_kept ‹_›)
theorem execUtcSet_kept {s : State} (hk : Kept orig s) {h : CmdHdr} {offset : BitVec 16} {leap : BitVec 8} : KeptOut orig
    (execUtcSet h offset leap s) := by
  unfold execUtcSet
  apply yafRun_kept
  assumption
  intro y0 a
  exact yafUtcSet_kept ‹_›
theorem State.onRing_kept {s : State} (hk : Kept orig s) {m pool j : Nat} {f : Pool → Ans} (kept_f : ∀ y0, KeptAns orig (f
    y0)) : KeptAns orig (State.onRing s m pool j f) := by
  unfold State.onRing
  split
  exact Ans.un_kept ‹_›
  split
  exact Ans.un_kept ‹_›
  split
  exact Ans.un_kept ‹_›
  apply kept_f
theorem yafRingConfig_kept {s : State} (hk : Kept orig s) {m pool j k width owner bit en target ring cq lo hi : Nat} : KeptAns
    orig (yafRingConfig m pool j k width owner bit en target ring cq lo hi s) := by
  unfold yafRingConfig
  apply State.onRing_kept
  assumption
  intro y0
  split
  exact Ans.un_kept ‹_›
  split
  exact Ans.no_kept ‹_›
  split
  exact Ans.un_kept ‹_›
  lift_lets -underBinder
  intro s1; refine via (p := Kept orig s1) ?_ fun hk => ?_; dsimp only [s1]
  exact State.jRegWrite_kept (State.jRegWrite_kept (State.jRegWrite_kept (State.jRegWrite_kept ‹_›)))
  clear_value s1
  exact Ans.ok_kept (State.jCfgWrite_kept ‹_›)
theorem execRingConfig_kept {s : State} (hk : Kept orig s) {h : CmdHdr} {pool ring k width : BitVec 8} {owner : BitVec 16}
    {notifyBit notifyEn : BitVec 8} {notifyTarget : BitVec 16} {ringA cq buflo bufhi : BitVec 64} : KeptOut orig
    (execRingConfig h pool ring k width owner notifyBit notifyEn notifyTarget ringA cq buflo bufhi s) := by
  unfold execRingConfig
  apply yafRun_kept
  assumption
  intro y0 a
  exact yafRingConfig_kept ‹_›
theorem yafRingEnable_kept {s : State} (hk : Kept orig s) {m pool j : Nat} : KeptAns orig (yafRingEnable m pool j s) := by
  unfold yafRingEnable
  apply State.onRing_kept
  assumption
  intro y0
  split
  exact Ans.un_kept ‹_›
  split
  exact Ans.un_kept ‹_›
  exact Ans.ok_kept (State.jCfgWrite_kept ‹_›)
theorem execRingEnable_kept {s : State} (hk : Kept orig s) {h : CmdHdr} {pool ring : BitVec 8} : KeptOut orig (execRingEnable
    h pool ring s) := by
  unfold execRingEnable
  apply yafRun_kept
  assumption
  intro y0 a
  exact yafRingEnable_kept ‹_›
theorem yafRingDisable_kept {s : State} (hk : Kept orig s) {m pool j : Nat} : KeptAns orig (yafRingDisable m pool j s) := by
  unfold yafRingDisable
  apply State.onRing_kept
  assumption
  intro y0
  split
  exact Ans.un_kept ‹_›
  exact Ans.ok_kept (State.jDisable_kept ‹_›)
theorem execRingDisable_kept {s : State} (hk : Kept orig s) {h : CmdHdr} {pool ring : BitVec 8} : KeptOut orig
    (execRingDisable h pool ring s) := by
  unfold execRingDisable
  apply yafRun_kept
  assumption
  intro y0 a
  exact yafRingDisable_kept ‹_›
theorem State.onKey_kept {s : State} (hk : Kept orig s) {m slot : Nat} {f : Ans} (kept_f : KeptAns orig f) : KeptAns orig
    (State.onKey s m slot f) := by
  unfold State.onKey
  split
  exact Ans.un_kept ‹_›
  split
  exact Ans.un_kept ‹_›
  assumption
theorem State.keyGive_kept {s : State} (hk : Kept orig s) {cmd slot typ len owner portUse : Nat} {key : List Byte} : Kept orig
    (State.keyGive s cmd slot typ len owner portUse key) := by
  unfold State.keyGive
  lift_lets -underBinder
  intro s1; refine via (p := Kept orig s1) ?_ fun hk => ?_; dsimp only [s1]
  refine List.foldl_kept ?_ ?_
  assumption
  intro t u a
  exact State.setReg_kept ‹_›
  clear_value s1
  exact State.keyCmdWrite_kept ‹_›
theorem yafKeyLoad_kept {s : State} (hk : Kept orig s) {m slot typ len portUse owner key : Nat} : KeptAns orig (yafKeyLoad m
    slot typ len portUse owner key s) := by
  unfold yafKeyLoad
  apply State.onKey_kept
  assumption
  split
  exact Ans.un_kept ‹_›
  split
  exact Ans.un_kept ‹_›
  split
  exact Ans.ok_kept (State.agentWrite_kept (State.keyGive_kept ‹_›))
  exact Ans.un_kept ‹_›
  exact Ans.no_kept ‹_›
theorem execKeyLoad_kept {s : State} (hk : Kept orig s) {h : CmdHdr} {slot : BitVec 16} {typ length portUse : BitVec 8} {owner
    : BitVec 16} {key : BitVec 64} : KeptOut orig (execKeyLoad h slot typ length portUse owner key s) := by
  unfold execKeyLoad
  apply yafRun_kept
  assumption
  intro y0 a
  exact yafKeyLoad_kept ‹_›
theorem yafKeyClear_kept {s : State} (hk : Kept orig s) {m slot : Nat} : KeptAns orig (yafKeyClear m slot s) := by
  unfold yafKeyClear
  apply State.onKey_kept
  assumption
  split
  exact Ans.un_kept ‹_›
  exact Ans.ok_kept (State.keyGive_kept ‹_›)
theorem execKeyClear_kept {s : State} (hk : Kept orig s) {h : CmdHdr} {slot : BitVec 16} : KeptOut orig (execKeyClear h slot
    s) := by
  unfold execKeyClear
  apply yafRun_kept
  assumption
  intro y0 a
  exact yafKeyClear_kept ‹_›
theorem yafKeyLock_kept {s : State} (hk : Kept orig s) {m slot : Nat} : KeptAns orig (yafKeyLock m slot s) := by
  unfold yafKeyLock
  apply State.onKey_kept
  assumption
  exact Ans.ok_kept (State.keyGive_kept ‹_›)
theorem execKeyLock_kept {s : State} (hk : Kept orig s) {h : CmdHdr} {slot : BitVec 16} : KeptOut orig (execKeyLock h slot s)
    := by
  unfold execKeyLock
  apply yafRun_kept
  assumption
  intro y0 a
  exact yafKeyLock_kept ‹_›
theorem yafEngineDisable_kept {s : State} (hk : Kept orig s) {h : CmdHdr} {pool e : Nat} : KeptAns orig (yafEngineDisable h
    pool e s) := by
  unfold yafEngineDisable
  lift_lets -underBinder
  intro p; try clear_value p
  intro s1; refine via (p := Kept orig s1) ?_ fun hk => ?_; dsimp only [s1]
  exact State.jDisableEngine_kept ‹_›
  clear_value s1
  intro u; try clear_value u
  split
  exact Ans.un_kept ‹_›
  split
  exact Ans.un_kept ‹_›
  split
  exact Ans.no_kept ‹_›
  split
  apply Ans.wait_kept
  apply kept_mk
  assumption
  exact Ans.ok_kept ‹_›
theorem execEngineDisable_kept {s : State} (hk : Kept orig s) {h : CmdHdr} {pool engine : BitVec 8} : KeptOut orig
    (execEngineDisable h pool engine s) := by
  unfold execEngineDisable
  apply yafRun_kept
  assumption
  intro y0 a
  exact yafEngineDisable_kept ‹_›
theorem yafChanBind_kept {s : State} (hk : Kept orig s) {m ch sender receiver bit lock : Nat} : KeptAns orig (yafChanBind m ch
    sender receiver bit lock s) := by
  unfold yafChanBind
  split
  exact Ans.un_kept ‹_›
  split
  exact Ans.un_kept ‹_›
  split
  exact Ans.un_kept ‹_›
  split
  exact Ans.un_kept ‹_›
  split
  exact Ans.un_kept ‹_›
  lift_lets -underBinder
  intro s1; refine via (p := Kept orig s1) ?_ fun hk => ?_; dsimp only [s1]
  exact State.mbxBindWrite_kept ‹_›
  clear_value s1
  apply Ans.ok_kept
  split
  exact State.setFlag_kept ‹_›
  assumption
theorem execChanBind_kept {s : State} (hk : Kept orig s) {h : CmdHdr} {ch sender receiver : BitVec 16} {dbBit lock : BitVec 8}
    : KeptOut orig (execChanBind h ch sender receiver dbBit lock s) := by
  unfold execChanBind
  apply yafRun_kept
  assumption
  intro y0 a
  exact yafChanBind_kept ‹_›
theorem State.onChanCmd_kept {s : State} (hk : Kept orig s) {m ch : Nat} {f : Ans} (kept_f : KeptAns orig f) : KeptAns orig
    (State.onChanCmd s m ch f) := by
  unfold State.onChanCmd
  split
  exact Ans.un_kept ‹_›
  split
  exact Ans.un_kept ‹_›
  assumption
theorem yafChanClose_kept {s : State} (hk : Kept orig s) {m ch : Nat} : KeptAns orig (yafChanClose m ch s) := by
  unfold yafChanClose
  apply State.onChanCmd_kept
  assumption
  split
  exact Ans.un_kept ‹_›
  exact Ans.ok_kept (State.mbxBindWrite_kept ‹_›)
theorem execChanClose_kept {s : State} (hk : Kept orig s) {h : CmdHdr} {ch : BitVec 16} : KeptOut orig (execChanClose h ch s)
    := by
  unfold execChanClose
  apply yafRun_kept
  assumption
  intro y0 a
  exact yafChanClose_kept ‹_›
theorem yafChanStatus_kept {s : State} (hk : Kept orig s) {m ch : Nat} : KeptAns orig (yafChanStatus m ch s) := by
  unfold yafChanStatus
  apply State.onChanCmd_kept
  assumption
  lift_lets -underBinder
  intro st; try clear_value st
  exact Ans.ok_kept ‹_›
theorem execChanStatus_kept {s : State} (hk : Kept orig s) {h : CmdHdr} {ch : BitVec 16} : KeptOut orig (execChanStatus h ch
    s) := by
  unfold execChanStatus
  apply yafRun_kept
  assumption
  intro y0 a
  exact yafChanStatus_kept ‹_›
theorem yafErrReactSet_kept {s : State} (hk : Kept orig s) {n react : Nat} : KeptAns orig (yafErrReactSet n react s) := by
  unfold yafErrReactSet
  split
  exact Ans.un_kept ‹_›
  split
  exact Ans.un_kept ‹_›
  exact Ans.ok_kept (State.errReactSet_kept ‹_›)
theorem execErrReactSet_kept {s : State} (hk : Kept orig s) {h : CmdHdr} {source : BitVec 16} {react : BitVec 8} : KeptOut
    orig (execErrReactSet h source react s) := by
  unfold execErrReactSet
  apply yafRun_kept
  assumption
  intro y0 a
  exact yafErrReactSet_kept ‹_›
theorem yafErrStatus_kept {s : State} (hk : Kept orig s) {m n : Nat} : KeptAns orig (yafErrStatus m n s) := by
  unfold yafErrStatus
  split
  exact Ans.un_kept ‹_›
  split
  exact Ans.un_kept ‹_›
  exact Ans.ok_kept ‹_›
theorem execErrStatus_kept {s : State} (hk : Kept orig s) {h : CmdHdr} {source : BitVec 16} : KeptOut orig (execErrStatus h
    source s) := by
  unfold execErrStatus
  apply yafRun_kept
  assumption
  intro y0 a
  exact yafErrStatus_kept ‹_›
theorem yafErrClear_kept {s : State} (hk : Kept orig s) {n release : Nat} : KeptAns orig (yafErrClear n release s) := by
  unfold yafErrClear
  split
  exact Ans.un_kept ‹_›
  lift_lets -underBinder
  intro s1; refine via (p := Kept orig s1) ?_ fun hk => ?_; dsimp only [s1]
  exact State.errSrcW1c_kept ‹_›
  clear_value s1
  apply Ans.ok_kept
  split
  exact State.errPinArm_kept ‹_›
  assumption
theorem execErrClear_kept {s : State} (hk : Kept orig s) {h : CmdHdr} {source : BitVec 16} {release : BitVec 8} : KeptOut orig
    (execErrClear h source release s) := by
  unfold execErrClear
  apply yafRun_kept
  assumption
  intro y0 a
  exact yafErrClear_kept ‹_›
theorem yafSpareStatus_kept {s : State} (hk : Kept orig s) : KeptAns orig (yafSpareStatus s) :=
  Ans.ok_kept hk
theorem execSpareStatus_kept {s : State} (hk : Kept orig s) {h : CmdHdr} : KeptOut orig (execSpareStatus h s) := by
  unfold execSpareStatus
  apply yafRun_kept
  assumption
  intro y0 a
  exact yafSpareStatus_kept ‹_›
theorem yafRepairNow_kept {s : State} (hk : Kept orig s) {m mid : Nat} {v : RepairVerdict} : KeptAns orig (yafRepairNow m mid
    v s) := by
  unfold yafRepairNow
  apply State.onSlot_kept
  assumption
  intro y0
  lift_lets -underBinder
  intro c; try clear_value c
  intro k; try clear_value k
  intro path; try clear_value path
  intro s1; refine via (p := Kept orig s1) ?_ fun hk => ?_; dsimp only [s1]
  exact State.pairRepair_kept (State.pairHold_kept ‹_›)
  clear_value s1
  split
  exact Ans.lpState_kept ‹_›
  split
  exact Ans.un_kept ‹_›
  exact Ans.ok_kept ‹_›
theorem execRepairNow_kept {s : State} (hk : Kept orig s) {h : CmdHdr} {mid : BitVec 16} {v : RepairVerdict} : KeptOut orig
    (execRepairNow h mid v s) := by
  unfold execRepairNow
  apply yafRun_kept
  assumption
  intro y0 a
  exact yafRepairNow_kept ‹_›
theorem yafWearCfg_kept {s : State} (hk : Kept orig s) {mask proactive l2 sc warn : Nat} : KeptAns orig (yafWearCfg mask
    proactive l2 sc warn s) := by
  unfold yafWearCfg
  split
  exact Ans.un_kept ‹_›
  split
  exact Ans.un_kept ‹_›
  lift_lets -underBinder
  intro s1; refine via (p := Kept orig s1) ?_ fun hk => ?_; dsimp only [s1]
  refine List.foldl_kept ?_ ?_
  assumption
  intro t u a
  exact State.setReg_kept (State.setFld_kept ‹_›)
  clear_value s1
  intro s2; refine via (p := Kept orig s2) ?_ fun hk => ?_; dsimp only [s2]
  refine List.foldl_kept ?_ ?_
  assumption
  intro t u a
  exact State.setReg_kept ‹_›
  clear_value s2
  exact Ans.ok_kept (State.setFld_kept ‹_›)
theorem execWearCfg_kept {s : State} (hk : Kept orig s) {h : CmdHdr} {clusters : BitVec 16} {proactive l2Thresh scThresh :
    BitVec 8} {nvjWarn : BitVec 16} : KeptOut orig (execWearCfg h clusters proactive l2Thresh scThresh nvjWarn s) := by
  unfold execWearCfg
  apply yafRun_kept
  assumption
  intro y0 a
  exact yafWearCfg_kept ‹_›
theorem State.onCluster_kept {s : State} (hk : Kept orig s) {c : Nat} {f : Ans} (kept_f : KeptAns orig f) : KeptAns orig
    (State.onCluster s c f) := by
  unfold State.onCluster
  split
  exact Ans.un_kept ‹_›
  split
  exact Ans.un_kept ‹_›
  assumption
theorem yafClusterOffline_kept {s : State} (hk : Kept orig s) {c : Nat} : KeptAns orig (yafClusterOffline c s) := by
  unfold yafClusterOffline
  apply State.onCluster_kept
  assumption
  split
  exact Ans.lpState_kept ‹_›
  lift_lets -underBinder
  intro s1; refine via (p := Kept orig s1) ?_ fun hk => ?_; dsimp only [s1]
  exact State.fillAll_kept ‹_›
  clear_value s1
  intro s2; refine via (p := Kept orig s2) ?_ fun hk => ?_; dsimp only [s2]
  refine List.foldl_kept ?_ ?_
  assumption
  intro t u a
  exact State.lineCleanInval_kept ‹_›
  clear_value s2
  intro s3; refine via (p := Kept orig s3) ?_ fun hk => ?_; dsimp only [s3]
  exact State.clusterReset_kept (State.lockenWrite_kept ‹_›)
  clear_value s3
  intro u; try clear_value u
  apply Ans.ok_kept
  apply kept_mk
  assumption
theorem execClusterOffline_kept {s : State} (hk : Kept orig s) {h : CmdHdr} {cluster : BitVec 8} : KeptOut orig
    (execClusterOffline h cluster s) := by
  unfold execClusterOffline
  apply yafRun_kept
  assumption
  intro y0 a
  exact yafClusterOffline_kept ‹_›
theorem Ans.bistFail_kept {s : State} (hk : Kept orig s) : KeptAns orig (Ans.bistFail s) :=
  KeptAns.mk' hk
theorem State.goOnline_kept {s : State} (hk : Kept orig s) {c : Nat} : Kept orig (State.goOnline s c) := by
  unfold State.goOnline
  lift_lets -underBinder
  intro s1; refine via (p := Kept orig s1) ?_ fun hk => ?_; dsimp only [s1]
  exact State.onL2_kept (State.clusterForm_kept ‹_›)
  clear_value s1
  intro s2; refine via (p := Kept orig s2) ?_ fun hk => ?_; dsimp only [s2]
  exact State.setReg_kept (State.setReg_kept ‹_›)
  clear_value s2
  intro u; try clear_value u
  apply kept_mk
  assumption
theorem yafClusterOnline_kept {s : State} (hk : Kept orig s) {c : Nat} {cmpFail : BitVec 4} {lane : Nat} {bistFail : BitVec
    31} : KeptAns orig (yafClusterOnline c cmpFail lane bistFail s) := by
  unfold yafClusterOnline
  apply State.onCluster_kept
  assumption
  split
  exact Ans.ok_kept ‹_›
  lift_lets -underBinder
  intro fails; try clear_value fails
  intro s1; refine via (p := Kept orig s1) ?_ fun hk => ?_; dsimp only [s1]
  exact State.cmpTestShow_kept ‹_›
  clear_value s1
  intro v; try clear_value v
  intro s2; refine via (p := Kept orig s2) ?_ fun hk => ?_; dsimp only [s2]
  split
  assumption
  exact State.clusterCondemn_kept ‹_›
  clear_value s2
  split
  exact Ans.bistFail_kept ‹_›
  split
  apply Ans.bistFail_kept
  refine KeptFst.of ‹_› ?_
  exact State.bistEnd_kept ‹_›
  apply Ans.ok_kept
  apply State.goOnline_kept
  refine KeptFst.of ‹_› ?_
  exact State.bistEnd_kept ‹_›
theorem execClusterOnline_kept {s : State} (hk : Kept orig s) {h : CmdHdr} {cluster : BitVec 8} {cmpFail : BitVec 4} {lane :
    Nat} {bistFail : BitVec 31} : KeptOut orig (execClusterOnline h cluster cmpFail lane bistFail s) := by
  unfold execClusterOnline
  apply yafRun_kept
  assumption
  intro y0 a
  exact yafClusterOnline_kept ‹_›
theorem yafBistRun_kept {s : State} (hk : Kept orig s) {scope unit kind : Nat} {fail : BitVec 31} : KeptAns orig (yafBistRun
    scope unit kind fail s) := by
  unfold yafBistRun
  split
  exact Ans.un_kept ‹_›
  split
  exact Ans.un_kept ‹_›
  split
  exact Ans.un_kept ‹_›
  split
  split
  exact Ans.un_kept ‹_›
  exact Ans.no_kept ‹_›
  split
  lift_lets -underBinder
  intro res; try clear_value res
  split
  refine KeptAns.mk' ?_
  refine KeptFst.of ‹_› ?_
  exact State.bistEnd_kept (State.bistCtrlWrite_kept ‹_›)
  apply Ans.ok_kept
  refine KeptFst.of ‹_› ?_
  exact State.bistEnd_kept (State.bistCtrlWrite_kept ‹_›)
theorem execBistRun_kept {s : State} (hk : Kept orig s) {h : CmdHdr} {scope unit kind : BitVec 8} {fail : BitVec 31} : KeptOut
    orig (execBistRun h scope unit kind fail s) := by
  unfold execBistRun
  apply yafRun_kept
  assumption
  intro y0 a
  exact yafBistRun_kept ‹_›
theorem yafCmpTest_kept {s : State} (hk : Kept orig s) {c : Nat} {fail : BitVec 4} {lanes : List Nat} : KeptAns orig
    (yafCmpTest c fail lanes s) := by
  unfold yafCmpTest
  apply State.onCluster_kept
  assumption
  split
  exact Ans.un_kept ‹_›
  lift_lets -underBinder
  intro s1; refine via (p := Kept orig s1) ?_ fun hk => ?_; dsimp only [s1]
  exact State.cmpTestRun_kept ‹_›
  clear_value s1
  exact Ans.ok_kept ‹_›
theorem execCmpTest_kept {s : State} (hk : Kept orig s) {h : CmdHdr} {cluster : BitVec 8} {fail : BitVec 4} {lanes : List Nat}
    : KeptOut orig (execCmpTest h cluster fail lanes s) := by
  unfold execCmpTest
  apply yafRun_kept
  assumption
  intro y0 a
  exact yafCmpTest_kept ‹_›
theorem yafTripTest_kept {s : State} (hk : Kept orig s) {h : CmdHdr} {port wire pub count frames timeout : Nat} : KeptAns orig
    (yafTripTest h port wire pub count frames timeout s) := by
  unfold yafTripTest
  split
  exact Ans.un_kept ‹_›
  split
  exact Ans.un_kept ‹_›
  split
  exact Ans.un_kept ‹_›
  split
  exact Ans.un_kept ‹_›
  split
  exact Ans.un_kept ‹_›
  split
  exact Ans.un_kept ‹_›
  lift_lets -underBinder
  intro now; try clear_value now
  intro u; try clear_value u
  apply Ans.wait_kept
  apply kept_mk
  assumption
theorem execTripTest_kept {s : State} (hk : Kept orig s) {h : CmdHdr} {port wire : BitVec 8} {pub count : BitVec 16} {_period
    : BitVec 32} {frames : BitVec 64} {timeout : BitVec 32} : KeptOut orig (execTripTest h port wire pub count _period frames
    timeout s) := by
  unfold execTripTest
  apply yafRun_kept
  assumption
  intro y0 a
  exact yafTripTest_kept ‹_›
theorem State.tripInject_kept {s : State} (hk : Kept orig s) {t : Trip} {f : Frame} : Kept orig (State.tripInject s t f) := by
  unfold State.tripInject
  lift_lets -underBinder
  intro p; try clear_value p
  intro last; try clear_value last
  intro u; try clear_value u
  intro s1; refine via (p := Kept orig s1) ?_ fun hk => ?_; dsimp only [s1]
  apply kept_mk
  assumption
  clear_value s1
  split
  refine KeptFst.of ‹_› ?_
  exact State.redundancyRx_kept ‹_›
  apply State.frameIn_kept
  refine KeptFst.of ‹_› ?_
  exact State.redundancyRx_kept ‹_›
theorem execTripTestFrameInject_kept {s : State} (hk : Kept orig s) {f : Frame} : KeptOut orig (execTripTestFrameInject f s)
    := by
  unfold execTripTestFrameInject
  refine KeptOut.next ?_
  split
  split
  exact State.tripInject_kept ‹_›
  assumption
  assumption
theorem State.tripTimeout_kept {s : State} (hk : Kept orig s) : Kept orig (State.tripTimeout s) := by
  unfold State.tripTimeout
  split
  split
  apply State.complete_kept
  apply kept_mk
  assumption
  assumption
  assumption
theorem yafVfEnable_kept {s : State} (hk : Kept orig s) {count : Nat} : KeptAns orig (yafVfEnable count s) := by
  unfold yafVfEnable
  split
  exact Ans.un_kept ‹_›
  split
  exact Ans.un_kept ‹_›
  exact Ans.ok_kept (State.setFld_kept ‹_›)
theorem execVfEnable_kept {s : State} (hk : Kept orig s) {h : CmdHdr} {count : BitVec 8} : KeptOut orig (execVfEnable h count
    s) := by
  unfold execVfEnable
  apply yafRun_kept
  assumption
  intro y0 a
  exact yafVfEnable_kept ‹_›
theorem yafVfAssign_kept {s : State} (hk : Kept orig s) {a : Assign} : KeptAns orig (yafVfAssign a s) := by
  unfold yafVfAssign
  split
  exact Ans.un_kept ‹_›
  split
  exact Ans.un_kept ‹_›
  split
  exact Ans.un_kept ‹_›
  split
  exact Ans.ok_kept ‹_›
  split
  exact Ans.un_kept ‹_›
  split
  exact Ans.un_kept ‹_›
  apply Ans.ok_kept
  apply kept_mk
  assumption
theorem execVfAssign_kept {s : State} (hk : Kept orig s) {h : CmdHdr} {vf kind : BitVec 8} {first count : BitVec 16} {base
    size : BitVec 64} : KeptOut orig (execVfAssign h vf kind first count base size s) := by
  unfold execVfAssign
  apply yafRun_kept
  assumption
  intro y0 a
  exact yafVfAssign_kept ‹_›
theorem yafVfRelease_kept {s : State} (hk : Kept orig s) {vf : Nat} : KeptAns orig (yafVfRelease vf s) := by
  unfold yafVfRelease
  split
  exact Ans.un_kept ‹_›
  split
  exact Ans.un_kept ‹_›
  apply Ans.ok_kept
  apply kept_mk
  assumption
theorem execVfRelease_kept {s : State} (hk : Kept orig s) {h : CmdHdr} {vf : BitVec 8} : KeptOut orig (execVfRelease h vf s)
    := by
  unfold execVfRelease
  apply yafRun_kept
  assumption
  intro y0 a
  exact yafVfRelease_kept ‹_›
theorem State.onDlog_kept {s : State} (hk : Kept orig s) {vf : Nat} {f : Nat → Ans} (kept_f : ∀ y0, KeptAns orig (f y0)) :
    KeptAns orig (State.onDlog s vf f) := by
  unfold State.onDlog
  split
  exact Ans.un_kept ‹_›
  apply kept_f
theorem yafDirtyLogStart_kept {s : State} (hk : Kept orig s) {vf bitmap pages : Nat} : KeptAns orig (yafDirtyLogStart vf
    bitmap pages s) := by
  unfold yafDirtyLogStart
  apply State.onDlog_kept
  assumption
  intro y0
  split
  exact Ans.no_kept ‹_›
  apply Ans.ok_kept
  apply State.setReg_kept
  apply kept_mk
  assumption
theorem execDirtyLogStart_kept {s : State} (hk : Kept orig s) {h : CmdHdr} {vf : BitVec 8} {bitmap pages : BitVec 64} :
    KeptOut orig (execDirtyLogStart h vf bitmap pages s) := by
  unfold execDirtyLogStart
  apply yafRun_kept
  assumption
  intro y0 a
  exact yafDirtyLogStart_kept ‹_›
theorem State.bitmapWrite_kept {s : State} (hk : Kept orig s) {d : DirtyLog} : Kept orig (State.bitmapWrite s d) := by
  unfold State.bitmapWrite
  refine List.foldl_kept ?_ ?_
  assumption
  intro t u a
  lift_lets -underBinder
  intro a; try clear_value a
  exact State.agentWrite_kept ‹_›
theorem yafDirtyLogSwap_kept {s : State} (hk : Kept orig s) {vf bitmap : Nat} : KeptAns orig (yafDirtyLogSwap vf bitmap s) :=
    by
  unfold yafDirtyLogSwap
  apply State.onDlog_kept
  assumption
  intro y0
  split
  exact Ans.no_kept ‹_›
  lift_lets -underBinder
  intro r; try clear_value r
  intro full; try clear_value full
  intro s1; refine via (p := Kept orig s1) ?_ fun hk => ?_; dsimp only [s1]
  exact State.bitmapWrite_kept ‹_›
  clear_value s1
  split
  lift_lets -underBinder
  intro s3; refine via (p := Kept orig s3) ?_ fun hk => ?_; dsimp only [s3]
  apply kept_mk
  refine KeptSnd.of ‹_› ?_
  exact State.fresh_kept ‹_›
  clear_value s3
  intro again; try clear_value again
  exact Ans.ok_kept (State.setReg_kept ‹_›)
theorem execDirtyLogSwap_kept {s : State} (hk : Kept orig s) {h : CmdHdr} {vf : BitVec 8} {bitmap : BitVec 64} : KeptOut orig
    (execDirtyLogSwap h vf bitmap s) := by
  unfold execDirtyLogSwap
  apply yafRun_kept
  assumption
  intro y0 a
  exact yafDirtyLogSwap_kept ‹_›
theorem yafDirtyLogStop_kept {s : State} (hk : Kept orig s) {vf : Nat} : KeptAns orig (yafDirtyLogStop vf s) := by
  unfold yafDirtyLogStop
  apply State.onDlog_kept
  assumption
  intro y0
  split
  exact Ans.no_kept ‹_›
  lift_lets -underBinder
  intro ls; try clear_value ls
  intro d; try clear_value d
  intro s1; refine via (p := Kept orig s1) ?_ fun hk => ?_; dsimp only [s1]
  refine List.foldl_kept ?_ ?_
  assumption
  intro t u a
  exact State.l2Clean_kept (State.l2WriteBack_kept ‹_›)
  clear_value s1
  intro s2; refine via (p := Kept orig s2) ?_ fun hk => ?_; dsimp only [s2]
  exact State.bitmapWrite_kept ‹_›
  clear_value s2
  apply Ans.ok_kept
  apply State.setFld_kept
  apply kept_mk
  assumption
theorem execDirtyLogStop_kept {s : State} (hk : Kept orig s) {h : CmdHdr} {vf : BitVec 8} : KeptOut orig (execDirtyLogStop h
    vf s) := by
  unfold execDirtyLogStop
  apply yafRun_kept
  assumption
  intro y0 a
  exact yafDirtyLogStop_kept ‹_›
theorem yafReset_kept {s : State} (hk : Kept orig s) {kind c : Nat} : KeptAns orig (yafReset kind c s) := by
  unfold yafReset
  split
  exact Ans.ok_kept (State.askReset_kept ‹_›)
  exact Ans.ok_kept (State.askReset_kept ‹_›)
  apply State.onCluster_kept
  assumption
  split
  exact Ans.lpState_kept ‹_›
  exact Ans.ok_kept (State.clusterReset_kept (State.resetTaken_kept ‹_›))
  exact Ans.un_kept ‹_›
theorem execReset_kept {s : State} (hk : Kept orig s) {h : CmdHdr} {kind cluster : BitVec 8} : KeptOut orig (execReset h kind
    cluster s) := by
  unfold execReset
  apply yafRun_kept
  assumption
  intro y0 a
  exact yafReset_kept ‹_›
theorem yafPowerDown_kept {s : State} (hk : Kept orig s) : KeptAns orig (yafPowerDown s) := by
  unfold yafPowerDown
  lift_lets -underBinder
  intro s1; refine via (p := Kept orig s1) ?_ fun hk => ?_; dsimp only [s1]
  apply State.nvjEpoch_kept
  apply State.writeBackAll_kept
  apply kept_mk
  assumption
  clear_value s1
  intro s2; refine via (p := Kept orig s2) ?_ fun hk => ?_; dsimp only [s2]
  exact State.retain_kept ‹_›
  clear_value s2
  intro u; try clear_value u
  apply Ans.ok_kept
  apply kept_mk
  assumption
theorem execPowerDown_kept {s : State} (hk : Kept orig s) {h : CmdHdr} : KeptOut orig (execPowerDown h s) := by
  unfold execPowerDown
  apply yafRun_kept
  assumption
  intro y0 a
  exact yafPowerDown_kept ‹_›
theorem yafFwStage_kept {s : State} (hk : Kept orig s) {m slot image length : Nat} {sigOk readbackOk : Bool} {version : Nat} :
    KeptAns orig (yafFwStage m slot image length sigOk readbackOk version s) := by
  unfold yafFwStage
  split
  exact Ans.un_kept ‹_›
  split
  exact Ans.un_kept ‹_›
  split
  exact Ans.un_kept ‹_›
  split
  exact Ans.no_kept ‹_›
  split
  exact Ans.no_kept ‹_›
  apply Ans.ok_kept
  apply kept_mk
  assumption
theorem execFwStage_kept {s : State} (hk : Kept orig s) {h : CmdHdr} {slot : BitVec 8} {image : BitVec 64} {length : BitVec
    32} {sigOk readbackOk : Bool} {version : BitVec 32} : KeptOut orig (execFwStage h slot image length sigOk readbackOk
    version s) := by
  unfold execFwStage
  apply yafRun_kept
  assumption
  intro y0 a
  exact yafFwStage_kept ‹_›
theorem yafFwActivate_kept {s : State} (hk : Kept orig s) {slot : Nat} : KeptAns orig (yafFwActivate slot s) := by
  unfold yafFwActivate
  split
  exact Ans.un_kept ‹_›
  split
  exact Ans.un_kept ‹_›
  apply Ans.ok_kept
  apply kept_mk
  assumption
theorem execFwActivate_kept {s : State} (hk : Kept orig s) {h : CmdHdr} {slot : BitVec 8} : KeptOut orig (execFwActivate h
    slot s) := by
  unfold execFwActivate
  apply yafRun_kept
  assumption
  intro y0 a
  exact yafFwActivate_kept ‹_›
theorem yafFwStatus_kept {s : State} (hk : Kept orig s) : KeptAns orig (yafFwStatus s) :=
  Ans.ok_kept hk
theorem execFwStatus_kept {s : State} (hk : Kept orig s) {h : CmdHdr} : KeptOut orig (execFwStatus h s) := by
  unfold execFwStatus
  apply yafRun_kept
  assumption
  intro y0 a
  exact yafFwStatus_kept ‹_›
theorem State.idle_kept {s : State} (hk : Kept orig s) : Kept orig (State.idle s) :=
  State.tripTimeout_kept (State.tick_kept hk)

end Sys2Proof.Machine
end

