-- ==== Sys2Proof/Laws/RegBounds.lean ====
section
/-! SUPPORT. Every register holds a value of 64 bits, its reset value included. -/

namespace Sys2Proof.Machine

theorem findReg_mem : ∀ {T : List RegDesc} {off : Nat} {d : RegDesc} {ix : List Nat},
    findReg T off = some (d, ix) → d ∈ T ∧ dimIdx d.dims (off - d.base) = some ix
  | [], _, _, _, h => by cases h
  | c :: t, off, d, ix, h => by
    unfold findReg at h
    split at h
    · split at h
      · cases h; exact ⟨List.mem_cons_self, by assumption⟩
      · exact ⟨List.mem_cons_of_mem _ (findReg_mem h).1, (findReg_mem h).2⟩
    · exact ⟨List.mem_cons_of_mem _ (findReg_mem h).1, (findReg_mem h).2⟩

theorem dimIdx_lt : ∀ {ds : List (Nat × Nat)} {r : Nat} {ix : List Nat}, dimIdx ds r = some ix →
    ix.length = ds.length ∧ ∀ i v : Nat, ix[i]? = some v → ∃ e : Nat × Nat, ds[i]? = some e ∧ v < e.1
  | [], r, ix, h => by
    unfold dimIdx at h; split at h
    · cases h; simp
    · cases h
  | (n, st) :: ds, r, ix, h => by
    unfold dimIdx at h; split at h
    · rename_i hlt
      cases hd : dimIdx ds (r % st) with
      | none => rw [hd] at h; cases h
      | some jx =>
        rw [hd] at h; cases h
        obtain ⟨h1, h2⟩ := dimIdx_lt hd
        refine ⟨by simp [h1], ?_⟩
        intro i v hv
        cases i with
        | zero => simp at hv; subst hv; exact ⟨(n, st), rfl, hlt⟩
        | succ i => simpa using h2 i v (by simpa using hv)
    · cases h

theorem ite_lt_of {c : Prop} [Decidable c] {a b m : Nat} (ha : a < m) (hb : b < m) : (if c then a else b) < m := by
  split
  · exact ha
  · exact hb

theorem defaultReact_lt (n : Nat) : defaultReact n < 16 := by
  unfold defaultReact
  refine ite_lt_of ?_ ?_
  · split <;> decide
  · repeat' first | decide | apply ite_lt_of

theorem reactWord_lt (n : Nat) : ∀ k, reactWord n k < 16 ^ k
  | 0 => by simp [reactWord]
  | k + 1 => by
    have h1 := reactWord_lt n k
    have h2 := defaultReact_lt (n + k)
    have h3 : defaultReact (n + k) * 16 ^ k ≤ 15 * 16 ^ k := Nat.mul_le_mul_right _ (by omega)
    unfold reactWord
    rw [Nat.pow_succ]; omega

theorem railNominal_lt (i : Nat) : railNominal i ≤ 1800 := by
  unfold railNominal
  repeat' split
  all_goals omega

/-- Where an instance number enters a reset value, the register has few instances. -/
theorem table_dims : ∀ d ∈ regTable, d.reset < 2 ^ 64 ∧ d.dims.all (fun e => e.1 ≤ 4096) = true := by
  intro d h
  unfold regTable at h
  simp only [List.mem_append] at h
  rcases h with ((((((h | h) | h) | h) | h) | h) | h) | h <;> revert d
  · decide
  · decide
  · decide
  · decide
  · decide
  · decide
  · decide
  · decide

/-- Every reset value has 64 bits. -/
theorem regResetAt_lt (off : Nat) : regResetAt off < 2 ^ 64 := by
  unfold regResetAt
  split
  · rename_i d ix h
    obtain ⟨hm, hi⟩ := findReg_mem h
    obtain ⟨hr, hd⟩ := table_dims d hm
    obtain ⟨-, hx⟩ := dimIdx_lt hi
    have hb : ∀ i v : Nat, ix[i]? = some v → v < 4096 := by
      intro i v hv
      obtain ⟨e, he, hlt⟩ := hx i v hv
      have := List.all_eq_true.mp hd e (List.mem_of_getElem? he)
      simp at this; omega
    unfold regReset
    have p : (16 : Nat) ^ 16 = 2 ^ 64 := by decide
    split
    · have := hb 1 _ rfl; omega
    · split <;> decide
    · split <;> decide
    · have := hb 0 _ rfl; split <;> omega
    · have := hb 1 _ rfl; omega
    · decide
    · split <;> decide
    · rw [← p]; exact reactWord_lt _ _
    · rw [← p]; exact reactWord_lt _ _
    · exact Nat.lt_of_le_of_lt (Nat.mul_le_mul_right _ (railNominal_lt _)) (by decide)
    · decide
    · decide
    · exact hr
  · decide

/-- A register holds 64 bits. -/
theorem State.reg_lt (s : State) (off : Nat) : s.reg off < 2 ^ 64 := by
  unfold State.reg
  split
  · exact BitVec.isLt _
  · exact regResetAt_lt off

end Sys2Proof.Machine
end

