-- ==== Sys2Proof/Laws/State.lean ====
section
/-! SUPPORT. What each named update of the state leaves as it was, one lemma per field and per accessor, and what it writes, so that no
proof unfolds a record update. -/

namespace Sys2Proof.Machine

variable (s : State)

/-! ### setReg -/
@[simp] theorem State.setReg_pending (o v : Nat) : (s.setReg o v).pending = s.pending := rfl
@[simp] theorem State.setReg_freeCount (o v : Nat) : (s.setReg o v).freeCount = s.freeCount := rfl
@[simp] theorem State.setReg_resp (o v : Nat) : (s.setReg o v).resp = s.resp := rfl
@[simp] theorem State.setReg_mem (o v : Nat) : (s.setReg o v).mem = s.mem := rfl
@[simp] theorem State.setReg_installed (o v : Nat) : (s.setReg o v).installed = s.installed := rfl
@[simp] theorem State.setReg_underL2 (o v : Nat) : (s.setReg o v).underL2 = s.underL2 := rfl
@[simp] theorem State.setReg_underSc (o v : Nat) : (s.setReg o v).underSc = s.underSc := rfl
@[simp] theorem State.setReg_poison (o v : Nat) : (s.setReg o v).poison = s.poison := rfl
@[simp] theorem State.setReg_lps (o v : Nat) : (s.setReg o v).lps = s.lps := rfl
@[simp] theorem State.setReg_pairs (o v : Nat) : (s.setReg o v).pairs = s.pairs := rfl
@[simp] theorem State.setReg_l2 (o v : Nat) : (s.setReg o v).l2 = s.l2 := rfl
@[simp] theorem State.setReg_sc (o v : Nat) : (s.setReg o v).sc = s.sc := rfl
@[simp] theorem State.setReg_rm (o v : Nat) : (s.setReg o v).rm = s.rm := rfl
@[simp] theorem State.setReg_lens (o v : Nat) : (s.setReg o v).lens = s.lens := rfl
@[simp] theorem State.setReg_time (o v : Nat) : (s.setReg o v).time = s.time := rfl
@[simp] theorem State.setReg_split (o v : Nat) : (s.setReg o v).split = s.split := rfl
@[simp] theorem State.setReg_ready (o v : Nat) : (s.setReg o v).ready = s.ready := rfl
@[simp] theorem State.setReg_chans (o v : Nat) : (s.setReg o v).chans = s.chans := rfl
@[simp] theorem State.setReg_epochs (o v : Nat) : (s.setReg o v).epochs = s.epochs := rfl
@[simp] theorem State.setReg_dbIn (o v : Nat) : (s.setReg o v).dbIn = s.dbIn := rfl
@[simp] theorem State.setReg_dbAt (o v : Nat) : (s.setReg o v).dbAt = s.dbAt := rfl
@[simp] theorem State.setReg_fns (o v : Nat) : (s.setReg o v).fns = s.fns := rfl
@[simp] theorem State.setReg_reqs (o v : Nat) : (s.setReg o v).reqs = s.reqs := rfl
@[simp] theorem State.setReg_cp1Serves (o v : Nat) : (s.setReg o v).cp1Serves = s.cp1Serves := rfl
@[simp] theorem State.setReg_parts (o v : Nat) : (s.setReg o v).parts = s.parts := rfl
@[simp] theorem State.setReg_assigns (o v : Nat) : (s.setReg o v).assigns = s.assigns := rfl
@[simp] theorem State.setReg_dlogs (o v : Nat) : (s.setReg o v).dlogs = s.dlogs := rfl
@[simp] theorem State.setReg_resetReqs (o v : Nat) : (s.setReg o v).resetReqs = s.resetReqs := rfl
@[simp] theorem State.setReg_heldReacts (o v : Nat) : (s.setReg o v).heldReacts = s.heldReacts := rfl
@[simp] theorem State.setReg_errPin (o v : Nat) : (s.setReg o v).errPin = s.errPin := rfl
@[simp] theorem State.setReg_errAt (o v : Nat) : (s.setReg o v).errAt = s.errAt := rfl
@[simp] theorem State.setReg_errHeld (o v : Nat) : (s.setReg o v).errHeld = s.errHeld := rfl
@[simp] theorem State.setReg_shutdown (o v : Nat) : (s.setReg o v).shutdown = s.shutdown := rfl
@[simp] theorem State.setReg_thermSeen (o v : Nat) : (s.setReg o v).thermSeen = s.thermSeen := rfl
@[simp] theorem State.setReg_tqs (o v : Nat) : (s.setReg o v).tqs = s.tqs := rfl
@[simp] theorem State.setReg_nvj (o v : Nat) : (s.setReg o v).nvj = s.nvj := rfl
@[simp] theorem State.setReg_svc (o v : Nat) : (s.setReg o v).svc = s.svc := rfl
@[simp] theorem State.setReg_twStopped (o v : Nat) : (s.setReg o v).twStopped = s.twStopped := rfl
@[simp] theorem State.setReg_tengs (o v : Nat) : (s.setReg o v).tengs = s.tengs := rfl
@[simp] theorem State.setReg_reasm (o v : Nat) : (s.setReg o v).reasm = s.reasm := rfl
@[simp] theorem State.setReg_ports (o v : Nat) : (s.setReg o v).ports = s.ports := rfl
@[simp] theorem State.setReg_ddts (o v : Nat) : (s.setReg o v).ddts = s.ddts := rfl
@[simp] theorem State.setReg_streams (o v : Nat) : (s.setReg o v).streams = s.streams := rfl
@[simp] theorem State.setReg_subs (o v : Nat) : (s.setReg o v).subs = s.subs := rfl
@[simp] theorem State.setReg_pubs (o v : Nat) : (s.setReg o v).pubs = s.pubs := rfl
@[simp] theorem State.setReg_cages (o v : Nat) : (s.setReg o v).cages = s.cages := rfl
@[simp] theorem State.setReg_links (o v : Nat) : (s.setReg o v).links = s.links := rfl
@[simp] theorem State.setReg_form (o v : Nat) : (s.setReg o v).form = s.form := rfl
@[simp] theorem State.setReg_pools (o v : Nat) : (s.setReg o v).pools = s.pools := rfl
@[simp] theorem State.setReg_yaf (o v : Nat) : (s.setReg o v).yaf = s.yaf := rfl
@[simp] theorem State.setReg_chip (o v : Nat) : (s.setReg o v).chip = s.chip := rfl
@[simp] theorem State.setReg_out (o v : Nat) : (s.setReg o v).out = s.out := rfl
@[simp] theorem State.setReg_lp (o v : Nat) (m1 : Nat) : (s.setReg o v).lp m1 = s.lp m1 := rfl
@[simp] theorem State.setReg_pair (o v : Nat) (m1 : Nat) : (s.setReg o v).pair m1 = s.pair m1 := rfl
@[simp] theorem State.setReg_l2c (o v : Nat) (m1 : Nat) : (s.setReg o v).l2c m1 = s.l2c m1 := rfl
@[simp] theorem State.setReg_scs (o v : Nat) (m1 : Nat) : (s.setReg o v).scs m1 = s.scs m1 := rfl
@[simp] theorem State.setReg_tq (o v : Nat) (m1 : Nat) : (s.setReg o v).tq m1 = s.tq m1 := rfl
@[simp] theorem State.setReg_port (o v : Nat) (m1 : Nat) : (s.setReg o v).port m1 = s.port m1 := rfl
@[simp] theorem State.setReg_link (o v : Nat) (m1 : Nat) : (s.setReg o v).link m1 = s.link m1 := rfl
@[simp] theorem State.setReg_chan (o v : Nat) (m1 : Nat) : (s.setReg o v).chan m1 = s.chan m1 := rfl
@[simp] theorem State.setReg_req (o v : Nat) (m1 : Nat) : (s.setReg o v).req m1 = s.req m1 := rfl
@[simp] theorem State.setReg_now (o v : Nat) : (s.setReg o v).now = s.now := rfl
@[simp] theorem State.setReg_isSplit (o v : Nat) (m1 : Nat) : (s.setReg o v).isSplit m1 = s.isSplit m1 := rfl

/-! ### setFld -/
@[simp] theorem State.setFld_pending (o lo w v : Nat) : (s.setFld o lo w v).pending = s.pending := rfl
@[simp] theorem State.setFld_freeCount (o lo w v : Nat) : (s.setFld o lo w v).freeCount = s.freeCount := rfl
@[simp] theorem State.setFld_resp (o lo w v : Nat) : (s.setFld o lo w v).resp = s.resp := rfl
@[simp] theorem State.setFld_mem (o lo w v : Nat) : (s.setFld o lo w v).mem = s.mem := rfl
@[simp] theorem State.setFld_installed (o lo w v : Nat) : (s.setFld o lo w v).installed = s.installed := rfl
@[simp] theorem State.setFld_underL2 (o lo w v : Nat) : (s.setFld o lo w v).underL2 = s.underL2 := rfl
@[simp] theorem State.setFld_underSc (o lo w v : Nat) : (s.setFld o lo w v).underSc = s.underSc := rfl
@[simp] theorem State.setFld_poison (o lo w v : Nat) : (s.setFld o lo w v).poison = s.poison := rfl
@[simp] theorem State.setFld_lps (o lo w v : Nat) : (s.setFld o lo w v).lps = s.lps := rfl
@[simp] theorem State.setFld_pairs (o lo w v : Nat) : (s.setFld o lo w v).pairs = s.pairs := rfl
@[simp] theorem State.setFld_l2 (o lo w v : Nat) : (s.setFld o lo w v).l2 = s.l2 := rfl
@[simp] theorem State.setFld_sc (o lo w v : Nat) : (s.setFld o lo w v).sc = s.sc := rfl
@[simp] theorem State.setFld_rm (o lo w v : Nat) : (s.setFld o lo w v).rm = s.rm := rfl
@[simp] theorem State.setFld_lens (o lo w v : Nat) : (s.setFld o lo w v).lens = s.lens := rfl
@[simp] theorem State.setFld_time (o lo w v : Nat) : (s.setFld o lo w v).time = s.time := rfl
@[simp] theorem State.setFld_split (o lo w v : Nat) : (s.setFld o lo w v).split = s.split := rfl
@[simp] theorem State.setFld_ready (o lo w v : Nat) : (s.setFld o lo w v).ready = s.ready := rfl
@[simp] theorem State.setFld_chans (o lo w v : Nat) : (s.setFld o lo w v).chans = s.chans := rfl
@[simp] theorem State.setFld_epochs (o lo w v : Nat) : (s.setFld o lo w v).epochs = s.epochs := rfl
@[simp] theorem State.setFld_dbIn (o lo w v : Nat) : (s.setFld o lo w v).dbIn = s.dbIn := rfl
@[simp] theorem State.setFld_dbAt (o lo w v : Nat) : (s.setFld o lo w v).dbAt = s.dbAt := rfl
@[simp] theorem State.setFld_fns (o lo w v : Nat) : (s.setFld o lo w v).fns = s.fns := rfl
@[simp] theorem State.setFld_reqs (o lo w v : Nat) : (s.setFld o lo w v).reqs = s.reqs := rfl
@[simp] theorem State.setFld_cp1Serves (o lo w v : Nat) : (s.setFld o lo w v).cp1Serves = s.cp1Serves := rfl
@[simp] theorem State.setFld_parts (o lo w v : Nat) : (s.setFld o lo w v).parts = s.parts := rfl
@[simp] theorem State.setFld_assigns (o lo w v : Nat) : (s.setFld o lo w v).assigns = s.assigns := rfl
@[simp] theorem State.setFld_dlogs (o lo w v : Nat) : (s.setFld o lo w v).dlogs = s.dlogs := rfl
@[simp] theorem State.setFld_resetReqs (o lo w v : Nat) : (s.setFld o lo w v).resetReqs = s.resetReqs := rfl
@[simp] theorem State.setFld_heldReacts (o lo w v : Nat) : (s.setFld o lo w v).heldReacts = s.heldReacts := rfl
@[simp] theorem State.setFld_errPin (o lo w v : Nat) : (s.setFld o lo w v).errPin = s.errPin := rfl
@[simp] theorem State.setFld_errAt (o lo w v : Nat) : (s.setFld o lo w v).errAt = s.errAt := rfl
@[simp] theorem State.setFld_errHeld (o lo w v : Nat) : (s.setFld o lo w v).errHeld = s.errHeld := rfl
@[simp] theorem State.setFld_shutdown (o lo w v : Nat) : (s.setFld o lo w v).shutdown = s.shutdown := rfl
@[simp] theorem State.setFld_thermSeen (o lo w v : Nat) : (s.setFld o lo w v).thermSeen = s.thermSeen := rfl
@[simp] theorem State.setFld_tqs (o lo w v : Nat) : (s.setFld o lo w v).tqs = s.tqs := rfl
@[simp] theorem State.setFld_nvj (o lo w v : Nat) : (s.setFld o lo w v).nvj = s.nvj := rfl
@[simp] theorem State.setFld_svc (o lo w v : Nat) : (s.setFld o lo w v).svc = s.svc := rfl
@[simp] theorem State.setFld_twStopped (o lo w v : Nat) : (s.setFld o lo w v).twStopped = s.twStopped := rfl
@[simp] theorem State.setFld_tengs (o lo w v : Nat) : (s.setFld o lo w v).tengs = s.tengs := rfl
@[simp] theorem State.setFld_reasm (o lo w v : Nat) : (s.setFld o lo w v).reasm = s.reasm := rfl
@[simp] theorem State.setFld_ports (o lo w v : Nat) : (s.setFld o lo w v).ports = s.ports := rfl
@[simp] theorem State.setFld_ddts (o lo w v : Nat) : (s.setFld o lo w v).ddts = s.ddts := rfl
@[simp] theorem State.setFld_streams (o lo w v : Nat) : (s.setFld o lo w v).streams = s.streams := rfl
@[simp] theorem State.setFld_subs (o lo w v : Nat) : (s.setFld o lo w v).subs = s.subs := rfl
@[simp] theorem State.setFld_pubs (o lo w v : Nat) : (s.setFld o lo w v).pubs = s.pubs := rfl
@[simp] theorem State.setFld_cages (o lo w v : Nat) : (s.setFld o lo w v).cages = s.cages := rfl
@[simp] theorem State.setFld_links (o lo w v : Nat) : (s.setFld o lo w v).links = s.links := rfl
@[simp] theorem State.setFld_form (o lo w v : Nat) : (s.setFld o lo w v).form = s.form := rfl
@[simp] theorem State.setFld_pools (o lo w v : Nat) : (s.setFld o lo w v).pools = s.pools := rfl
@[simp] theorem State.setFld_yaf (o lo w v : Nat) : (s.setFld o lo w v).yaf = s.yaf := rfl
@[simp] theorem State.setFld_chip (o lo w v : Nat) : (s.setFld o lo w v).chip = s.chip := rfl
@[simp] theorem State.setFld_out (o lo w v : Nat) : (s.setFld o lo w v).out = s.out := rfl
@[simp] theorem State.setFld_lp (o lo w v : Nat) (m1 : Nat) : (s.setFld o lo w v).lp m1 = s.lp m1 := rfl
@[simp] theorem State.setFld_pair (o lo w v : Nat) (m1 : Nat) : (s.setFld o lo w v).pair m1 = s.pair m1 := rfl
@[simp] theorem State.setFld_l2c (o lo w v : Nat) (m1 : Nat) : (s.setFld o lo w v).l2c m1 = s.l2c m1 := rfl
@[simp] theorem State.setFld_scs (o lo w v : Nat) (m1 : Nat) : (s.setFld o lo w v).scs m1 = s.scs m1 := rfl
@[simp] theorem State.setFld_tq (o lo w v : Nat) (m1 : Nat) : (s.setFld o lo w v).tq m1 = s.tq m1 := rfl
@[simp] theorem State.setFld_port (o lo w v : Nat) (m1 : Nat) : (s.setFld o lo w v).port m1 = s.port m1 := rfl
@[simp] theorem State.setFld_link (o lo w v : Nat) (m1 : Nat) : (s.setFld o lo w v).link m1 = s.link m1 := rfl
@[simp] theorem State.setFld_chan (o lo w v : Nat) (m1 : Nat) : (s.setFld o lo w v).chan m1 = s.chan m1 := rfl
@[simp] theorem State.setFld_req (o lo w v : Nat) (m1 : Nat) : (s.setFld o lo w v).req m1 = s.req m1 := rfl
@[simp] theorem State.setFld_now (o lo w v : Nat) : (s.setFld o lo w v).now = s.now := rfl
@[simp] theorem State.setFld_isSplit (o lo w v : Nat) (m1 : Nat) : (s.setFld o lo w v).isSplit m1 = s.isSplit m1 := rfl

/-! ### setFlag -/
@[simp] theorem State.setFlag_pending (o i : Nat) (b : Bool) : (s.setFlag o i b).pending = s.pending := rfl
@[simp] theorem State.setFlag_freeCount (o i : Nat) (b : Bool) : (s.setFlag o i b).freeCount = s.freeCount := rfl
@[simp] theorem State.setFlag_resp (o i : Nat) (b : Bool) : (s.setFlag o i b).resp = s.resp := rfl
@[simp] theorem State.setFlag_mem (o i : Nat) (b : Bool) : (s.setFlag o i b).mem = s.mem := rfl
@[simp] theorem State.setFlag_installed (o i : Nat) (b : Bool) : (s.setFlag o i b).installed = s.installed := rfl
@[simp] theorem State.setFlag_underL2 (o i : Nat) (b : Bool) : (s.setFlag o i b).underL2 = s.underL2 := rfl
@[simp] theorem State.setFlag_underSc (o i : Nat) (b : Bool) : (s.setFlag o i b).underSc = s.underSc := rfl
@[simp] theorem State.setFlag_poison (o i : Nat) (b : Bool) : (s.setFlag o i b).poison = s.poison := rfl
@[simp] theorem State.setFlag_lps (o i : Nat) (b : Bool) : (s.setFlag o i b).lps = s.lps := rfl
@[simp] theorem State.setFlag_pairs (o i : Nat) (b : Bool) : (s.setFlag o i b).pairs = s.pairs := rfl
@[simp] theorem State.setFlag_l2 (o i : Nat) (b : Bool) : (s.setFlag o i b).l2 = s.l2 := rfl
@[simp] theorem State.setFlag_sc (o i : Nat) (b : Bool) : (s.setFlag o i b).sc = s.sc := rfl
@[simp] theorem State.setFlag_rm (o i : Nat) (b : Bool) : (s.setFlag o i b).rm = s.rm := rfl
@[simp] theorem State.setFlag_lens (o i : Nat) (b : Bool) : (s.setFlag o i b).lens = s.lens := rfl
@[simp] theorem State.setFlag_time (o i : Nat) (b : Bool) : (s.setFlag o i b).time = s.time := rfl
@[simp] theorem State.setFlag_split (o i : Nat) (b : Bool) : (s.setFlag o i b).split = s.split := rfl
@[simp] theorem State.setFlag_ready (o i : Nat) (b : Bool) : (s.setFlag o i b).ready = s.ready := rfl
@[simp] theorem State.setFlag_chans (o i : Nat) (b : Bool) : (s.setFlag o i b).chans = s.chans := rfl
@[simp] theorem State.setFlag_epochs (o i : Nat) (b : Bool) : (s.setFlag o i b).epochs = s.epochs := rfl
@[simp] theorem State.setFlag_dbIn (o i : Nat) (b : Bool) : (s.setFlag o i b).dbIn = s.dbIn := rfl
@[simp] theorem State.setFlag_dbAt (o i : Nat) (b : Bool) : (s.setFlag o i b).dbAt = s.dbAt := rfl
@[simp] theorem State.setFlag_fns (o i : Nat) (b : Bool) : (s.setFlag o i b).fns = s.fns := rfl
@[simp] theorem State.setFlag_reqs (o i : Nat) (b : Bool) : (s.setFlag o i b).reqs = s.reqs := rfl
@[simp] theorem State.setFlag_cp1Serves (o i : Nat) (b : Bool) : (s.setFlag o i b).cp1Serves = s.cp1Serves := rfl
@[simp] theorem State.setFlag_parts (o i : Nat) (b : Bool) : (s.setFlag o i b).parts = s.parts := rfl
@[simp] theorem State.setFlag_assigns (o i : Nat) (b : Bool) : (s.setFlag o i b).assigns = s.assigns := rfl
@[simp] theorem State.setFlag_dlogs (o i : Nat) (b : Bool) : (s.setFlag o i b).dlogs = s.dlogs := rfl
@[simp] theorem State.setFlag_resetReqs (o i : Nat) (b : Bool) : (s.setFlag o i b).resetReqs = s.resetReqs := rfl
@[simp] theorem State.setFlag_heldReacts (o i : Nat) (b : Bool) : (s.setFlag o i b).heldReacts = s.heldReacts := rfl
@[simp] theorem State.setFlag_errPin (o i : Nat) (b : Bool) : (s.setFlag o i b).errPin = s.errPin := rfl
@[simp] theorem State.setFlag_errAt (o i : Nat) (b : Bool) : (s.setFlag o i b).errAt = s.errAt := rfl
@[simp] theorem State.setFlag_errHeld (o i : Nat) (b : Bool) : (s.setFlag o i b).errHeld = s.errHeld := rfl
@[simp] theorem State.setFlag_shutdown (o i : Nat) (b : Bool) : (s.setFlag o i b).shutdown = s.shutdown := rfl
@[simp] theorem State.setFlag_thermSeen (o i : Nat) (b : Bool) : (s.setFlag o i b).thermSeen = s.thermSeen := rfl
@[simp] theorem State.setFlag_tqs (o i : Nat) (b : Bool) : (s.setFlag o i b).tqs = s.tqs := rfl
@[simp] theorem State.setFlag_nvj (o i : Nat) (b : Bool) : (s.setFlag o i b).nvj = s.nvj := rfl
@[simp] theorem State.setFlag_svc (o i : Nat) (b : Bool) : (s.setFlag o i b).svc = s.svc := rfl
@[simp] theorem State.setFlag_twStopped (o i : Nat) (b : Bool) : (s.setFlag o i b).twStopped = s.twStopped := rfl
@[simp] theorem State.setFlag_tengs (o i : Nat) (b : Bool) : (s.setFlag o i b).tengs = s.tengs := rfl
@[simp] theorem State.setFlag_reasm (o i : Nat) (b : Bool) : (s.setFlag o i b).reasm = s.reasm := rfl
@[simp] theorem State.setFlag_ports (o i : Nat) (b : Bool) : (s.setFlag o i b).ports = s.ports := rfl
@[simp] theorem State.setFlag_ddts (o i : Nat) (b : Bool) : (s.setFlag o i b).ddts = s.ddts := rfl
@[simp] theorem State.setFlag_streams (o i : Nat) (b : Bool) : (s.setFlag o i b).streams = s.streams := rfl
@[simp] theorem State.setFlag_subs (o i : Nat) (b : Bool) : (s.setFlag o i b).subs = s.subs := rfl
@[simp] theorem State.setFlag_pubs (o i : Nat) (b : Bool) : (s.setFlag o i b).pubs = s.pubs := rfl
@[simp] theorem State.setFlag_cages (o i : Nat) (b : Bool) : (s.setFlag o i b).cages = s.cages := rfl
@[simp] theorem State.setFlag_links (o i : Nat) (b : Bool) : (s.setFlag o i b).links = s.links := rfl
@[simp] theorem State.setFlag_form (o i : Nat) (b : Bool) : (s.setFlag o i b).form = s.form := rfl
@[simp] theorem State.setFlag_pools (o i : Nat) (b : Bool) : (s.setFlag o i b).pools = s.pools := rfl
@[simp] theorem State.setFlag_yaf (o i : Nat) (b : Bool) : (s.setFlag o i b).yaf = s.yaf := rfl
@[simp] theorem State.setFlag_chip (o i : Nat) (b : Bool) : (s.setFlag o i b).chip = s.chip := rfl
@[simp] theorem State.setFlag_out (o i : Nat) (b : Bool) : (s.setFlag o i b).out = s.out := rfl
@[simp] theorem State.setFlag_lp (o i : Nat) (b : Bool) (m1 : Nat) : (s.setFlag o i b).lp m1 = s.lp m1 := rfl
@[simp] theorem State.setFlag_pair (o i : Nat) (b : Bool) (m1 : Nat) : (s.setFlag o i b).pair m1 = s.pair m1 := rfl
@[simp] theorem State.setFlag_l2c (o i : Nat) (b : Bool) (m1 : Nat) : (s.setFlag o i b).l2c m1 = s.l2c m1 := rfl
@[simp] theorem State.setFlag_scs (o i : Nat) (b : Bool) (m1 : Nat) : (s.setFlag o i b).scs m1 = s.scs m1 := rfl
@[simp] theorem State.setFlag_tq (o i : Nat) (b : Bool) (m1 : Nat) : (s.setFlag o i b).tq m1 = s.tq m1 := rfl
@[simp] theorem State.setFlag_port (o i : Nat) (b : Bool) (m1 : Nat) : (s.setFlag o i b).port m1 = s.port m1 := rfl
@[simp] theorem State.setFlag_link (o i : Nat) (b : Bool) (m1 : Nat) : (s.setFlag o i b).link m1 = s.link m1 := rfl
@[simp] theorem State.setFlag_chan (o i : Nat) (b : Bool) (m1 : Nat) : (s.setFlag o i b).chan m1 = s.chan m1 := rfl
@[simp] theorem State.setFlag_req (o i : Nat) (b : Bool) (m1 : Nat) : (s.setFlag o i b).req m1 = s.req m1 := rfl
@[simp] theorem State.setFlag_now (o i : Nat) (b : Bool) : (s.setFlag o i b).now = s.now := rfl
@[simp] theorem State.setFlag_isSplit (o i : Nat) (b : Bool) (m1 : Nat) : (s.setFlag o i b).isSplit m1 = s.isSplit m1 := rfl

/-! ### setLp -/
@[simp] theorem State.setLp_pending (n : Nat) (p : LP) : (s.setLp n p).pending = s.pending := rfl
@[simp] theorem State.setLp_freeCount (n : Nat) (p : LP) : (s.setLp n p).freeCount = s.freeCount := rfl
@[simp] theorem State.setLp_resp (n : Nat) (p : LP) : (s.setLp n p).resp = s.resp := rfl
@[simp] theorem State.setLp_regs (n : Nat) (p : LP) : (s.setLp n p).regs = s.regs := rfl
@[simp] theorem State.setLp_mem (n : Nat) (p : LP) : (s.setLp n p).mem = s.mem := rfl
@[simp] theorem State.setLp_installed (n : Nat) (p : LP) : (s.setLp n p).installed = s.installed := rfl
@[simp] theorem State.setLp_underL2 (n : Nat) (p : LP) : (s.setLp n p).underL2 = s.underL2 := rfl
@[simp] theorem State.setLp_underSc (n : Nat) (p : LP) : (s.setLp n p).underSc = s.underSc := rfl
@[simp] theorem State.setLp_poison (n : Nat) (p : LP) : (s.setLp n p).poison = s.poison := rfl
@[simp] theorem State.setLp_pairs (n : Nat) (p : LP) : (s.setLp n p).pairs = s.pairs := rfl
@[simp] theorem State.setLp_l2 (n : Nat) (p : LP) : (s.setLp n p).l2 = s.l2 := rfl
@[simp] theorem State.setLp_sc (n : Nat) (p : LP) : (s.setLp n p).sc = s.sc := rfl
@[simp] theorem State.setLp_rm (n : Nat) (p : LP) : (s.setLp n p).rm = s.rm := rfl
@[simp] theorem State.setLp_lens (n : Nat) (p : LP) : (s.setLp n p).lens = s.lens := rfl
@[simp] theorem State.setLp_time (n : Nat) (p : LP) : (s.setLp n p).time = s.time := rfl
@[simp] theorem State.setLp_split (n : Nat) (p : LP) : (s.setLp n p).split = s.split := rfl
@[simp] theorem State.setLp_ready (n : Nat) (p : LP) : (s.setLp n p).ready = s.ready := rfl
@[simp] theorem State.setLp_chans (n : Nat) (p : LP) : (s.setLp n p).chans = s.chans := rfl
@[simp] theorem State.setLp_epochs (n : Nat) (p : LP) : (s.setLp n p).epochs = s.epochs := rfl
@[simp] theorem State.setLp_dbIn (n : Nat) (p : LP) : (s.setLp n p).dbIn = s.dbIn := rfl
@[simp] theorem State.setLp_dbAt (n : Nat) (p : LP) : (s.setLp n p).dbAt = s.dbAt := rfl
@[simp] theorem State.setLp_fns (n : Nat) (p : LP) : (s.setLp n p).fns = s.fns := rfl
@[simp] theorem State.setLp_reqs (n : Nat) (p : LP) : (s.setLp n p).reqs = s.reqs := rfl
@[simp] theorem State.setLp_cp1Serves (n : Nat) (p : LP) : (s.setLp n p).cp1Serves = s.cp1Serves := rfl
@[simp] theorem State.setLp_parts (n : Nat) (p : LP) : (s.setLp n p).parts = s.parts := rfl
@[simp] theorem State.setLp_assigns (n : Nat) (p : LP) : (s.setLp n p).assigns = s.assigns := rfl
@[simp] theorem State.setLp_dlogs (n : Nat) (p : LP) : (s.setLp n p).dlogs = s.dlogs := rfl
@[simp] theorem State.setLp_resetReqs (n : Nat) (p : LP) : (s.setLp n p).resetReqs = s.resetReqs := rfl
@[simp] theorem State.setLp_heldReacts (n : Nat) (p : LP) : (s.setLp n p).heldReacts = s.heldReacts := rfl
@[simp] theorem State.setLp_errPin (n : Nat) (p : LP) : (s.setLp n p).errPin = s.errPin := rfl
@[simp] theorem State.setLp_errAt (n : Nat) (p : LP) : (s.setLp n p).errAt = s.errAt := rfl
@[simp] theorem State.setLp_errHeld (n : Nat) (p : LP) : (s.setLp n p).errHeld = s.errHeld := rfl
@[simp] theorem State.setLp_shutdown (n : Nat) (p : LP) : (s.setLp n p).shutdown = s.shutdown := rfl
@[simp] theorem State.setLp_thermSeen (n : Nat) (p : LP) : (s.setLp n p).thermSeen = s.thermSeen := rfl
@[simp] theorem State.setLp_tqs (n : Nat) (p : LP) : (s.setLp n p).tqs = s.tqs := rfl
@[simp] theorem State.setLp_nvj (n : Nat) (p : LP) : (s.setLp n p).nvj = s.nvj := rfl
@[simp] theorem State.setLp_svc (n : Nat) (p : LP) : (s.setLp n p).svc = s.svc := rfl
@[simp] theorem State.setLp_twStopped (n : Nat) (p : LP) : (s.setLp n p).twStopped = s.twStopped := rfl
@[simp] theorem State.setLp_tengs (n : Nat) (p : LP) : (s.setLp n p).tengs = s.tengs := rfl
@[simp] theorem State.setLp_reasm (n : Nat) (p : LP) : (s.setLp n p).reasm = s.reasm := rfl
@[simp] theorem State.setLp_ports (n : Nat) (p : LP) : (s.setLp n p).ports = s.ports := rfl
@[simp] theorem State.setLp_ddts (n : Nat) (p : LP) : (s.setLp n p).ddts = s.ddts := rfl
@[simp] theorem State.setLp_streams (n : Nat) (p : LP) : (s.setLp n p).streams = s.streams := rfl
@[simp] theorem State.setLp_subs (n : Nat) (p : LP) : (s.setLp n p).subs = s.subs := rfl
@[simp] theorem State.setLp_pubs (n : Nat) (p : LP) : (s.setLp n p).pubs = s.pubs := rfl
@[simp] theorem State.setLp_cages (n : Nat) (p : LP) : (s.setLp n p).cages = s.cages := rfl
@[simp] theorem State.setLp_links (n : Nat) (p : LP) : (s.setLp n p).links = s.links := rfl
@[simp] theorem State.setLp_form (n : Nat) (p : LP) : (s.setLp n p).form = s.form := rfl
@[simp] theorem State.setLp_pools (n : Nat) (p : LP) : (s.setLp n p).pools = s.pools := rfl
@[simp] theorem State.setLp_yaf (n : Nat) (p : LP) : (s.setLp n p).yaf = s.yaf := rfl
@[simp] theorem State.setLp_chip (n : Nat) (p : LP) : (s.setLp n p).chip = s.chip := rfl
@[simp] theorem State.setLp_out (n : Nat) (p : LP) : (s.setLp n p).out = s.out := rfl
@[simp] theorem State.setLp_reg (n : Nat) (p : LP) (a : Nat) : (s.setLp n p).reg a = s.reg a := rfl
@[simp] theorem State.setLp_fld (n : Nat) (p : LP) (a lo1 w1 : Nat) : (s.setLp n p).fld a lo1 w1 = s.fld a lo1 w1 := rfl
@[simp] theorem State.setLp_flag (n : Nat) (p : LP) (a j : Nat) : (s.setLp n p).flag a j = s.flag a j := rfl
@[simp] theorem State.setLp_pair (n : Nat) (p : LP) (m1 : Nat) : (s.setLp n p).pair m1 = s.pair m1 := rfl
@[simp] theorem State.setLp_l2c (n : Nat) (p : LP) (m1 : Nat) : (s.setLp n p).l2c m1 = s.l2c m1 := rfl
@[simp] theorem State.setLp_scs (n : Nat) (p : LP) (m1 : Nat) : (s.setLp n p).scs m1 = s.scs m1 := rfl
@[simp] theorem State.setLp_tq (n : Nat) (p : LP) (m1 : Nat) : (s.setLp n p).tq m1 = s.tq m1 := rfl
@[simp] theorem State.setLp_port (n : Nat) (p : LP) (m1 : Nat) : (s.setLp n p).port m1 = s.port m1 := rfl
@[simp] theorem State.setLp_link (n : Nat) (p : LP) (m1 : Nat) : (s.setLp n p).link m1 = s.link m1 := rfl
@[simp] theorem State.setLp_chan (n : Nat) (p : LP) (m1 : Nat) : (s.setLp n p).chan m1 = s.chan m1 := rfl
@[simp] theorem State.setLp_req (n : Nat) (p : LP) (m1 : Nat) : (s.setLp n p).req m1 = s.req m1 := rfl
@[simp] theorem State.setLp_now (n : Nat) (p : LP) : (s.setLp n p).now = s.now := rfl
@[simp] theorem State.setLp_isSplit (n : Nat) (p : LP) (m1 : Nat) : (s.setLp n p).isSplit m1 = s.isSplit m1 := rfl

/-! ### onLp -/
@[simp] theorem State.onLp_pending (n : Nat) (f : LP → LP) : (s.onLp n f).pending = s.pending := rfl
@[simp] theorem State.onLp_freeCount (n : Nat) (f : LP → LP) : (s.onLp n f).freeCount = s.freeCount := rfl
@[simp] theorem State.onLp_resp (n : Nat) (f : LP → LP) : (s.onLp n f).resp = s.resp := rfl
@[simp] theorem State.onLp_regs (n : Nat) (f : LP → LP) : (s.onLp n f).regs = s.regs := rfl
@[simp] theorem State.onLp_mem (n : Nat) (f : LP → LP) : (s.onLp n f).mem = s.mem := rfl
@[simp] theorem State.onLp_installed (n : Nat) (f : LP → LP) : (s.onLp n f).installed = s.installed := rfl
@[simp] theorem State.onLp_underL2 (n : Nat) (f : LP → LP) : (s.onLp n f).underL2 = s.underL2 := rfl
@[simp] theorem State.onLp_underSc (n : Nat) (f : LP → LP) : (s.onLp n f).underSc = s.underSc := rfl
@[simp] theorem State.onLp_poison (n : Nat) (f : LP → LP) : (s.onLp n f).poison = s.poison := rfl
@[simp] theorem State.onLp_pairs (n : Nat) (f : LP → LP) : (s.onLp n f).pairs = s.pairs := rfl
@[simp] theorem State.onLp_l2 (n : Nat) (f : LP → LP) : (s.onLp n f).l2 = s.l2 := rfl
@[simp] theorem State.onLp_sc (n : Nat) (f : LP → LP) : (s.onLp n f).sc = s.sc := rfl
@[simp] theorem State.onLp_rm (n : Nat) (f : LP → LP) : (s.onLp n f).rm = s.rm := rfl
@[simp] theorem State.onLp_lens (n : Nat) (f : LP → LP) : (s.onLp n f).lens = s.lens := rfl
@[simp] theorem State.onLp_time (n : Nat) (f : LP → LP) : (s.onLp n f).time = s.time := rfl
@[simp] theorem State.onLp_split (n : Nat) (f : LP → LP) : (s.onLp n f).split = s.split := rfl
@[simp] theorem State.onLp_ready (n : Nat) (f : LP → LP) : (s.onLp n f).ready = s.ready := rfl
@[simp] theorem State.onLp_chans (n : Nat) (f : LP → LP) : (s.onLp n f).chans = s.chans := rfl
@[simp] theorem State.onLp_epochs (n : Nat) (f : LP → LP) : (s.onLp n f).epochs = s.epochs := rfl
@[simp] theorem State.onLp_dbIn (n : Nat) (f : LP → LP) : (s.onLp n f).dbIn = s.dbIn := rfl
@[simp] theorem State.onLp_dbAt (n : Nat) (f : LP → LP) : (s.onLp n f).dbAt = s.dbAt := rfl
@[simp] theorem State.onLp_fns (n : Nat) (f : LP → LP) : (s.onLp n f).fns = s.fns := rfl
@[simp] theorem State.onLp_reqs (n : Nat) (f : LP → LP) : (s.onLp n f).reqs = s.reqs := rfl
@[simp] theorem State.onLp_cp1Serves (n : Nat) (f : LP → LP) : (s.onLp n f).cp1Serves = s.cp1Serves := rfl
@[simp] theorem State.onLp_parts (n : Nat) (f : LP → LP) : (s.onLp n f).parts = s.parts := rfl
@[simp] theorem State.onLp_assigns (n : Nat) (f : LP → LP) : (s.onLp n f).assigns = s.assigns := rfl
@[simp] theorem State.onLp_dlogs (n : Nat) (f : LP → LP) : (s.onLp n f).dlogs = s.dlogs := rfl
@[simp] theorem State.onLp_resetReqs (n : Nat) (f : LP → LP) : (s.onLp n f).resetReqs = s.resetReqs := rfl
@[simp] theorem State.onLp_heldReacts (n : Nat) (f : LP → LP) : (s.onLp n f).heldReacts = s.heldReacts := rfl
@[simp] theorem State.onLp_errPin (n : Nat) (f : LP → LP) : (s.onLp n f).errPin = s.errPin := rfl
@[simp] theorem State.onLp_errAt (n : Nat) (f : LP → LP) : (s.onLp n f).errAt = s.errAt := rfl
@[simp] theorem State.onLp_errHeld (n : Nat) (f : LP → LP) : (s.onLp n f).errHeld = s.errHeld := rfl
@[simp] theorem State.onLp_shutdown (n : Nat) (f : LP → LP) : (s.onLp n f).shutdown = s.shutdown := rfl
@[simp] theorem State.onLp_thermSeen (n : Nat) (f : LP → LP) : (s.onLp n f).thermSeen = s.thermSeen := rfl
@[simp] theorem State.onLp_tqs (n : Nat) (f : LP → LP) : (s.onLp n f).tqs = s.tqs := rfl
@[simp] theorem State.onLp_nvj (n : Nat) (f : LP → LP) : (s.onLp n f).nvj = s.nvj := rfl
@[simp] theorem State.onLp_svc (n : Nat) (f : LP → LP) : (s.onLp n f).svc = s.svc := rfl
@[simp] theorem State.onLp_twStopped (n : Nat) (f : LP → LP) : (s.onLp n f).twStopped = s.twStopped := rfl
@[simp] theorem State.onLp_tengs (n : Nat) (f : LP → LP) : (s.onLp n f).tengs = s.tengs := rfl
@[simp] theorem State.onLp_reasm (n : Nat) (f : LP → LP) : (s.onLp n f).reasm = s.reasm := rfl
@[simp] theorem State.onLp_ports (n : Nat) (f : LP → LP) : (s.onLp n f).ports = s.ports := rfl
@[simp] theorem State.onLp_ddts (n : Nat) (f : LP → LP) : (s.onLp n f).ddts = s.ddts := rfl
@[simp] theorem State.onLp_streams (n : Nat) (f : LP → LP) : (s.onLp n f).streams = s.streams := rfl
@[simp] theorem State.onLp_subs (n : Nat) (f : LP → LP) : (s.onLp n f).subs = s.subs := rfl
@[simp] theorem State.onLp_pubs (n : Nat) (f : LP → LP) : (s.onLp n f).pubs = s.pubs := rfl
@[simp] theorem State.onLp_cages (n : Nat) (f : LP → LP) : (s.onLp n f).cages = s.cages := rfl
@[simp] theorem State.onLp_links (n : Nat) (f : LP → LP) : (s.onLp n f).links = s.links := rfl
@[simp] theorem State.onLp_form (n : Nat) (f : LP → LP) : (s.onLp n f).form = s.form := rfl
@[simp] theorem State.onLp_pools (n : Nat) (f : LP → LP) : (s.onLp n f).pools = s.pools := rfl
@[simp] theorem State.onLp_yaf (n : Nat) (f : LP → LP) : (s.onLp n f).yaf = s.yaf := rfl
@[simp] theorem State.onLp_chip (n : Nat) (f : LP → LP) : (s.onLp n f).chip = s.chip := rfl
@[simp] theorem State.onLp_out (n : Nat) (f : LP → LP) : (s.onLp n f).out = s.out := rfl
@[simp] theorem State.onLp_reg (n : Nat) (f : LP → LP) (a : Nat) : (s.onLp n f).reg a = s.reg a := rfl
@[simp] theorem State.onLp_fld (n : Nat) (f : LP → LP) (a lo1 w1 : Nat) : (s.onLp n f).fld a lo1 w1 = s.fld a lo1 w1 := rfl
@[simp] theorem State.onLp_flag (n : Nat) (f : LP → LP) (a j : Nat) : (s.onLp n f).flag a j = s.flag a j := rfl
@[simp] theorem State.onLp_pair (n : Nat) (f : LP → LP) (m1 : Nat) : (s.onLp n f).pair m1 = s.pair m1 := rfl
@[simp] theorem State.onLp_l2c (n : Nat) (f : LP → LP) (m1 : Nat) : (s.onLp n f).l2c m1 = s.l2c m1 := rfl
@[simp] theorem State.onLp_scs (n : Nat) (f : LP → LP) (m1 : Nat) : (s.onLp n f).scs m1 = s.scs m1 := rfl
@[simp] theorem State.onLp_tq (n : Nat) (f : LP → LP) (m1 : Nat) : (s.onLp n f).tq m1 = s.tq m1 := rfl
@[simp] theorem State.onLp_port (n : Nat) (f : LP → LP) (m1 : Nat) : (s.onLp n f).port m1 = s.port m1 := rfl
@[simp] theorem State.onLp_link (n : Nat) (f : LP → LP) (m1 : Nat) : (s.onLp n f).link m1 = s.link m1 := rfl
@[simp] theorem State.onLp_chan (n : Nat) (f : LP → LP) (m1 : Nat) : (s.onLp n f).chan m1 = s.chan m1 := rfl
@[simp] theorem State.onLp_req (n : Nat) (f : LP → LP) (m1 : Nat) : (s.onLp n f).req m1 = s.req m1 := rfl
@[simp] theorem State.onLp_now (n : Nat) (f : LP → LP) : (s.onLp n f).now = s.now := rfl
@[simp] theorem State.onLp_isSplit (n : Nat) (f : LP → LP) (m1 : Nat) : (s.onLp n f).isSplit m1 = s.isSplit m1 := rfl

/-! ### onPair -/
@[simp] theorem State.onPair_pending (n : Nat) (f : Pair → Pair) : (s.onPair n f).pending = s.pending := rfl
@[simp] theorem State.onPair_freeCount (n : Nat) (f : Pair → Pair) : (s.onPair n f).freeCount = s.freeCount := rfl
@[simp] theorem State.onPair_resp (n : Nat) (f : Pair → Pair) : (s.onPair n f).resp = s.resp := rfl
@[simp] theorem State.onPair_regs (n : Nat) (f : Pair → Pair) : (s.onPair n f).regs = s.regs := rfl
@[simp] theorem State.onPair_mem (n : Nat) (f : Pair → Pair) : (s.onPair n f).mem = s.mem := rfl
@[simp] theorem State.onPair_installed (n : Nat) (f : Pair → Pair) : (s.onPair n f).installed = s.installed := rfl
@[simp] theorem State.onPair_underL2 (n : Nat) (f : Pair → Pair) : (s.onPair n f).underL2 = s.underL2 := rfl
@[simp] theorem State.onPair_underSc (n : Nat) (f : Pair → Pair) : (s.onPair n f).underSc = s.underSc := rfl
@[simp] theorem State.onPair_poison (n : Nat) (f : Pair → Pair) : (s.onPair n f).poison = s.poison := rfl
@[simp] theorem State.onPair_lps (n : Nat) (f : Pair → Pair) : (s.onPair n f).lps = s.lps := rfl
@[simp] theorem State.onPair_l2 (n : Nat) (f : Pair → Pair) : (s.onPair n f).l2 = s.l2 := rfl
@[simp] theorem State.onPair_sc (n : Nat) (f : Pair → Pair) : (s.onPair n f).sc = s.sc := rfl
@[simp] theorem State.onPair_rm (n : Nat) (f : Pair → Pair) : (s.onPair n f).rm = s.rm := rfl
@[simp] theorem State.onPair_lens (n : Nat) (f : Pair → Pair) : (s.onPair n f).lens = s.lens := rfl
@[simp] theorem State.onPair_time (n : Nat) (f : Pair → Pair) : (s.onPair n f).time = s.time := rfl
@[simp] theorem State.onPair_split (n : Nat) (f : Pair → Pair) : (s.onPair n f).split = s.split := rfl
@[simp] theorem State.onPair_ready (n : Nat) (f : Pair → Pair) : (s.onPair n f).ready = s.ready := rfl
@[simp] theorem State.onPair_chans (n : Nat) (f : Pair → Pair) : (s.onPair n f).chans = s.chans := rfl
@[simp] theorem State.onPair_epochs (n : Nat) (f : Pair → Pair) : (s.onPair n f).epochs = s.epochs := rfl
@[simp] theorem State.onPair_dbIn (n : Nat) (f : Pair → Pair) : (s.onPair n f).dbIn = s.dbIn := rfl
@[simp] theorem State.onPair_dbAt (n : Nat) (f : Pair → Pair) : (s.onPair n f).dbAt = s.dbAt := rfl
@[simp] theorem State.onPair_fns (n : Nat) (f : Pair → Pair) : (s.onPair n f).fns = s.fns := rfl
@[simp] theorem State.onPair_reqs (n : Nat) (f : Pair → Pair) : (s.onPair n f).reqs = s.reqs := rfl
@[simp] theorem State.onPair_cp1Serves (n : Nat) (f : Pair → Pair) : (s.onPair n f).cp1Serves = s.cp1Serves := rfl
@[simp] theorem State.onPair_parts (n : Nat) (f : Pair → Pair) : (s.onPair n f).parts = s.parts := rfl
@[simp] theorem State.onPair_assigns (n : Nat) (f : Pair → Pair) : (s.onPair n f).assigns = s.assigns := rfl
@[simp] theorem State.onPair_dlogs (n : Nat) (f : Pair → Pair) : (s.onPair n f).dlogs = s.dlogs := rfl
@[simp] theorem State.onPair_resetReqs (n : Nat) (f : Pair → Pair) : (s.onPair n f).resetReqs = s.resetReqs := rfl
@[simp] theorem State.onPair_heldReacts (n : Nat) (f : Pair → Pair) : (s.onPair n f).heldReacts = s.heldReacts := rfl
@[simp] theorem State.onPair_errPin (n : Nat) (f : Pair → Pair) : (s.onPair n f).errPin = s.errPin := rfl
@[simp] theorem State.onPair_errAt (n : Nat) (f : Pair → Pair) : (s.onPair n f).errAt = s.errAt := rfl
@[simp] theorem State.onPair_errHeld (n : Nat) (f : Pair → Pair) : (s.onPair n f).errHeld = s.errHeld := rfl
@[simp] theorem State.onPair_shutdown (n : Nat) (f : Pair → Pair) : (s.onPair n f).shutdown = s.shutdown := rfl
@[simp] theorem State.onPair_thermSeen (n : Nat) (f : Pair → Pair) : (s.onPair n f).thermSeen = s.thermSeen := rfl
@[simp] theorem State.onPair_tqs (n : Nat) (f : Pair → Pair) : (s.onPair n f).tqs = s.tqs := rfl
@[simp] theorem State.onPair_nvj (n : Nat) (f : Pair → Pair) : (s.onPair n f).nvj = s.nvj := rfl
@[simp] theorem State.onPair_svc (n : Nat) (f : Pair → Pair) : (s.onPair n f).svc = s.svc := rfl
@[simp] theorem State.onPair_twStopped (n : Nat) (f : Pair → Pair) : (s.onPair n f).twStopped = s.twStopped := rfl
@[simp] theorem State.onPair_tengs (n : Nat) (f : Pair → Pair) : (s.onPair n f).tengs = s.tengs := rfl
@[simp] theorem State.onPair_reasm (n : Nat) (f : Pair → Pair) : (s.onPair n f).reasm = s.reasm := rfl
@[simp] theorem State.onPair_ports (n : Nat) (f : Pair → Pair) : (s.onPair n f).ports = s.ports := rfl
@[simp] theorem State.onPair_ddts (n : Nat) (f : Pair → Pair) : (s.onPair n f).ddts = s.ddts := rfl
@[simp] theorem State.onPair_streams (n : Nat) (f : Pair → Pair) : (s.onPair n f).streams = s.streams := rfl
@[simp] theorem State.onPair_subs (n : Nat) (f : Pair → Pair) : (s.onPair n f).subs = s.subs := rfl
@[simp] theorem State.onPair_pubs (n : Nat) (f : Pair → Pair) : (s.onPair n f).pubs = s.pubs := rfl
@[simp] theorem State.onPair_cages (n : Nat) (f : Pair → Pair) : (s.onPair n f).cages = s.cages := rfl
@[simp] theorem State.onPair_links (n : Nat) (f : Pair → Pair) : (s.onPair n f).links = s.links := rfl
@[simp] theorem State.onPair_form (n : Nat) (f : Pair → Pair) : (s.onPair n f).form = s.form := rfl
@[simp] theorem State.onPair_pools (n : Nat) (f : Pair → Pair) : (s.onPair n f).pools = s.pools := rfl
@[simp] theorem State.onPair_yaf (n : Nat) (f : Pair → Pair) : (s.onPair n f).yaf = s.yaf := rfl
@[simp] theorem State.onPair_chip (n : Nat) (f : Pair → Pair) : (s.onPair n f).chip = s.chip := rfl
@[simp] theorem State.onPair_out (n : Nat) (f : Pair → Pair) : (s.onPair n f).out = s.out := rfl
@[simp] theorem State.onPair_reg (n : Nat) (f : Pair → Pair) (a : Nat) : (s.onPair n f).reg a = s.reg a := rfl
@[simp] theorem State.onPair_fld (n : Nat) (f : Pair → Pair) (a lo1 w1 : Nat) : (s.onPair n f).fld a lo1 w1 = s.fld a lo1 w1 := rfl
@[simp] theorem State.onPair_flag (n : Nat) (f : Pair → Pair) (a j : Nat) : (s.onPair n f).flag a j = s.flag a j := rfl
@[simp] theorem State.onPair_lp (n : Nat) (f : Pair → Pair) (m1 : Nat) : (s.onPair n f).lp m1 = s.lp m1 := rfl
@[simp] theorem State.onPair_l2c (n : Nat) (f : Pair → Pair) (m1 : Nat) : (s.onPair n f).l2c m1 = s.l2c m1 := rfl
@[simp] theorem State.onPair_scs (n : Nat) (f : Pair → Pair) (m1 : Nat) : (s.onPair n f).scs m1 = s.scs m1 := rfl
@[simp] theorem State.onPair_tq (n : Nat) (f : Pair → Pair) (m1 : Nat) : (s.onPair n f).tq m1 = s.tq m1 := rfl
@[simp] theorem State.onPair_port (n : Nat) (f : Pair → Pair) (m1 : Nat) : (s.onPair n f).port m1 = s.port m1 := rfl
@[simp] theorem State.onPair_link (n : Nat) (f : Pair → Pair) (m1 : Nat) : (s.onPair n f).link m1 = s.link m1 := rfl
@[simp] theorem State.onPair_chan (n : Nat) (f : Pair → Pair) (m1 : Nat) : (s.onPair n f).chan m1 = s.chan m1 := rfl
@[simp] theorem State.onPair_req (n : Nat) (f : Pair → Pair) (m1 : Nat) : (s.onPair n f).req m1 = s.req m1 := rfl
@[simp] theorem State.onPair_now (n : Nat) (f : Pair → Pair) : (s.onPair n f).now = s.now := rfl
@[simp] theorem State.onPair_isSplit (n : Nat) (f : Pair → Pair) (m1 : Nat) : (s.onPair n f).isSplit m1 = s.isSplit m1 := rfl

/-! ### onL2 -/
@[simp] theorem State.onL2_pending (c : Nat) (f : Cache → Cache) : (s.onL2 c f).pending = s.pending := rfl
@[simp] theorem State.onL2_freeCount (c : Nat) (f : Cache → Cache) : (s.onL2 c f).freeCount = s.freeCount := rfl
@[simp] theorem State.onL2_resp (c : Nat) (f : Cache → Cache) : (s.onL2 c f).resp = s.resp := rfl
@[simp] theorem State.onL2_regs (c : Nat) (f : Cache → Cache) : (s.onL2 c f).regs = s.regs := rfl
@[simp] theorem State.onL2_mem (c : Nat) (f : Cache → Cache) : (s.onL2 c f).mem = s.mem := rfl
@[simp] theorem State.onL2_installed (c : Nat) (f : Cache → Cache) : (s.onL2 c f).installed = s.installed := rfl
@[simp] theorem State.onL2_underL2 (c : Nat) (f : Cache → Cache) : (s.onL2 c f).underL2 = s.underL2 := rfl
@[simp] theorem State.onL2_underSc (c : Nat) (f : Cache → Cache) : (s.onL2 c f).underSc = s.underSc := rfl
@[simp] theorem State.onL2_poison (c : Nat) (f : Cache → Cache) : (s.onL2 c f).poison = s.poison := rfl
@[simp] theorem State.onL2_lps (c : Nat) (f : Cache → Cache) : (s.onL2 c f).lps = s.lps := rfl
@[simp] theorem State.onL2_pairs (c : Nat) (f : Cache → Cache) : (s.onL2 c f).pairs = s.pairs := rfl
@[simp] theorem State.onL2_sc (c : Nat) (f : Cache → Cache) : (s.onL2 c f).sc = s.sc := rfl
@[simp] theorem State.onL2_rm (c : Nat) (f : Cache → Cache) : (s.onL2 c f).rm = s.rm := rfl
@[simp] theorem State.onL2_lens (c : Nat) (f : Cache → Cache) : (s.onL2 c f).lens = s.lens := rfl
@[simp] theorem State.onL2_time (c : Nat) (f : Cache → Cache) : (s.onL2 c f).time = s.time := rfl
@[simp] theorem State.onL2_split (c : Nat) (f : Cache → Cache) : (s.onL2 c f).split = s.split := rfl
@[simp] theorem State.onL2_ready (c : Nat) (f : Cache → Cache) : (s.onL2 c f).ready = s.ready := rfl
@[simp] theorem State.onL2_chans (c : Nat) (f : Cache → Cache) : (s.onL2 c f).chans = s.chans := rfl
@[simp] theorem State.onL2_epochs (c : Nat) (f : Cache → Cache) : (s.onL2 c f).epochs = s.epochs := rfl
@[simp] theorem State.onL2_dbIn (c : Nat) (f : Cache → Cache) : (s.onL2 c f).dbIn = s.dbIn := rfl
@[simp] theorem State.onL2_dbAt (c : Nat) (f : Cache → Cache) : (s.onL2 c f).dbAt = s.dbAt := rfl
@[simp] theorem State.onL2_fns (c : Nat) (f : Cache → Cache) : (s.onL2 c f).fns = s.fns := rfl
@[simp] theorem State.onL2_reqs (c : Nat) (f : Cache → Cache) : (s.onL2 c f).reqs = s.reqs := rfl
@[simp] theorem State.onL2_cp1Serves (c : Nat) (f : Cache → Cache) : (s.onL2 c f).cp1Serves = s.cp1Serves := rfl
@[simp] theorem State.onL2_parts (c : Nat) (f : Cache → Cache) : (s.onL2 c f).parts = s.parts := rfl
@[simp] theorem State.onL2_assigns (c : Nat) (f : Cache → Cache) : (s.onL2 c f).assigns = s.assigns := rfl
@[simp] theorem State.onL2_dlogs (c : Nat) (f : Cache → Cache) : (s.onL2 c f).dlogs = s.dlogs := rfl
@[simp] theorem State.onL2_resetReqs (c : Nat) (f : Cache → Cache) : (s.onL2 c f).resetReqs = s.resetReqs := rfl
@[simp] theorem State.onL2_heldReacts (c : Nat) (f : Cache → Cache) : (s.onL2 c f).heldReacts = s.heldReacts := rfl
@[simp] theorem State.onL2_errPin (c : Nat) (f : Cache → Cache) : (s.onL2 c f).errPin = s.errPin := rfl
@[simp] theorem State.onL2_errAt (c : Nat) (f : Cache → Cache) : (s.onL2 c f).errAt = s.errAt := rfl
@[simp] theorem State.onL2_errHeld (c : Nat) (f : Cache → Cache) : (s.onL2 c f).errHeld = s.errHeld := rfl
@[simp] theorem State.onL2_shutdown (c : Nat) (f : Cache → Cache) : (s.onL2 c f).shutdown = s.shutdown := rfl
@[simp] theorem State.onL2_thermSeen (c : Nat) (f : Cache → Cache) : (s.onL2 c f).thermSeen = s.thermSeen := rfl
@[simp] theorem State.onL2_tqs (c : Nat) (f : Cache → Cache) : (s.onL2 c f).tqs = s.tqs := rfl
@[simp] theorem State.onL2_nvj (c : Nat) (f : Cache → Cache) : (s.onL2 c f).nvj = s.nvj := rfl
@[simp] theorem State.onL2_svc (c : Nat) (f : Cache → Cache) : (s.onL2 c f).svc = s.svc := rfl
@[simp] theorem State.onL2_twStopped (c : Nat) (f : Cache → Cache) : (s.onL2 c f).twStopped = s.twStopped := rfl
@[simp] theorem State.onL2_tengs (c : Nat) (f : Cache → Cache) : (s.onL2 c f).tengs = s.tengs := rfl
@[simp] theorem State.onL2_reasm (c : Nat) (f : Cache → Cache) : (s.onL2 c f).reasm = s.reasm := rfl
@[simp] theorem State.onL2_ports (c : Nat) (f : Cache → Cache) : (s.onL2 c f).ports = s.ports := rfl
@[simp] theorem State.onL2_ddts (c : Nat) (f : Cache → Cache) : (s.onL2 c f).ddts = s.ddts := rfl
@[simp] theorem State.onL2_streams (c : Nat) (f : Cache → Cache) : (s.onL2 c f).streams = s.streams := rfl
@[simp] theorem State.onL2_subs (c : Nat) (f : Cache → Cache) : (s.onL2 c f).subs = s.subs := rfl
@[simp] theorem State.onL2_pubs (c : Nat) (f : Cache → Cache) : (s.onL2 c f).pubs = s.pubs := rfl
@[simp] theorem State.onL2_cages (c : Nat) (f : Cache → Cache) : (s.onL2 c f).cages = s.cages := rfl
@[simp] theorem State.onL2_links (c : Nat) (f : Cache → Cache) : (s.onL2 c f).links = s.links := rfl
@[simp] theorem State.onL2_form (c : Nat) (f : Cache → Cache) : (s.onL2 c f).form = s.form := rfl
@[simp] theorem State.onL2_pools (c : Nat) (f : Cache → Cache) : (s.onL2 c f).pools = s.pools := rfl
@[simp] theorem State.onL2_yaf (c : Nat) (f : Cache → Cache) : (s.onL2 c f).yaf = s.yaf := rfl
@[simp] theorem State.onL2_chip (c : Nat) (f : Cache → Cache) : (s.onL2 c f).chip = s.chip := rfl
@[simp] theorem State.onL2_out (c : Nat) (f : Cache → Cache) : (s.onL2 c f).out = s.out := rfl
@[simp] theorem State.onL2_reg (c : Nat) (f : Cache → Cache) (a : Nat) : (s.onL2 c f).reg a = s.reg a := rfl
@[simp] theorem State.onL2_fld (c : Nat) (f : Cache → Cache) (a lo1 w1 : Nat) : (s.onL2 c f).fld a lo1 w1 = s.fld a lo1 w1 := rfl
@[simp] theorem State.onL2_flag (c : Nat) (f : Cache → Cache) (a j : Nat) : (s.onL2 c f).flag a j = s.flag a j := rfl
@[simp] theorem State.onL2_lp (c : Nat) (f : Cache → Cache) (m1 : Nat) : (s.onL2 c f).lp m1 = s.lp m1 := rfl
@[simp] theorem State.onL2_pair (c : Nat) (f : Cache → Cache) (m1 : Nat) : (s.onL2 c f).pair m1 = s.pair m1 := rfl
@[simp] theorem State.onL2_scs (c : Nat) (f : Cache → Cache) (m1 : Nat) : (s.onL2 c f).scs m1 = s.scs m1 := rfl
@[simp] theorem State.onL2_tq (c : Nat) (f : Cache → Cache) (m1 : Nat) : (s.onL2 c f).tq m1 = s.tq m1 := rfl
@[simp] theorem State.onL2_port (c : Nat) (f : Cache → Cache) (m1 : Nat) : (s.onL2 c f).port m1 = s.port m1 := rfl
@[simp] theorem State.onL2_link (c : Nat) (f : Cache → Cache) (m1 : Nat) : (s.onL2 c f).link m1 = s.link m1 := rfl
@[simp] theorem State.onL2_chan (c : Nat) (f : Cache → Cache) (m1 : Nat) : (s.onL2 c f).chan m1 = s.chan m1 := rfl
@[simp] theorem State.onL2_req (c : Nat) (f : Cache → Cache) (m1 : Nat) : (s.onL2 c f).req m1 = s.req m1 := rfl
@[simp] theorem State.onL2_now (c : Nat) (f : Cache → Cache) : (s.onL2 c f).now = s.now := rfl
@[simp] theorem State.onL2_isSplit (c : Nat) (f : Cache → Cache) (m1 : Nat) : (s.onL2 c f).isSplit m1 = s.isSplit m1 := rfl

/-! ### onSc -/
@[simp] theorem State.onSc_pending (c : Nat) (f : Cache → Cache) : (s.onSc c f).pending = s.pending := rfl
@[simp] theorem State.onSc_freeCount (c : Nat) (f : Cache → Cache) : (s.onSc c f).freeCount = s.freeCount := rfl
@[simp] theorem State.onSc_resp (c : Nat) (f : Cache → Cache) : (s.onSc c f).resp = s.resp := rfl
@[simp] theorem State.onSc_regs (c : Nat) (f : Cache → Cache) : (s.onSc c f).regs = s.regs := rfl
@[simp] theorem State.onSc_mem (c : Nat) (f : Cache → Cache) : (s.onSc c f).mem = s.mem := rfl
@[simp] theorem State.onSc_installed (c : Nat) (f : Cache → Cache) : (s.onSc c f).installed = s.installed := rfl
@[simp] theorem State.onSc_underL2 (c : Nat) (f : Cache → Cache) : (s.onSc c f).underL2 = s.underL2 := rfl
@[simp] theorem State.onSc_underSc (c : Nat) (f : Cache → Cache) : (s.onSc c f).underSc = s.underSc := rfl
@[simp] theorem State.onSc_poison (c : Nat) (f : Cache → Cache) : (s.onSc c f).poison = s.poison := rfl
@[simp] theorem State.onSc_lps (c : Nat) (f : Cache → Cache) : (s.onSc c f).lps = s.lps := rfl
@[simp] theorem State.onSc_pairs (c : Nat) (f : Cache → Cache) : (s.onSc c f).pairs = s.pairs := rfl
@[simp] theorem State.onSc_l2 (c : Nat) (f : Cache → Cache) : (s.onSc c f).l2 = s.l2 := rfl
@[simp] theorem State.onSc_rm (c : Nat) (f : Cache → Cache) : (s.onSc c f).rm = s.rm := rfl
@[simp] theorem State.onSc_lens (c : Nat) (f : Cache → Cache) : (s.onSc c f).lens = s.lens := rfl
@[simp] theorem State.onSc_time (c : Nat) (f : Cache → Cache) : (s.onSc c f).time = s.time := rfl
@[simp] theorem State.onSc_split (c : Nat) (f : Cache → Cache) : (s.onSc c f).split = s.split := rfl
@[simp] theorem State.onSc_ready (c : Nat) (f : Cache → Cache) : (s.onSc c f).ready = s.ready := rfl
@[simp] theorem State.onSc_chans (c : Nat) (f : Cache → Cache) : (s.onSc c f).chans = s.chans := rfl
@[simp] theorem State.onSc_epochs (c : Nat) (f : Cache → Cache) : (s.onSc c f).epochs = s.epochs := rfl
@[simp] theorem State.onSc_dbIn (c : Nat) (f : Cache → Cache) : (s.onSc c f).dbIn = s.dbIn := rfl
@[simp] theorem State.onSc_dbAt (c : Nat) (f : Cache → Cache) : (s.onSc c f).dbAt = s.dbAt := rfl
@[simp] theorem State.onSc_fns (c : Nat) (f : Cache → Cache) : (s.onSc c f).fns = s.fns := rfl
@[simp] theorem State.onSc_reqs (c : Nat) (f : Cache → Cache) : (s.onSc c f).reqs = s.reqs := rfl
@[simp] theorem State.onSc_cp1Serves (c : Nat) (f : Cache → Cache) : (s.onSc c f).cp1Serves = s.cp1Serves := rfl
@[simp] theorem State.onSc_parts (c : Nat) (f : Cache → Cache) : (s.onSc c f).parts = s.parts := rfl
@[simp] theorem State.onSc_assigns (c : Nat) (f : Cache → Cache) : (s.onSc c f).assigns = s.assigns := rfl
@[simp] theorem State.onSc_dlogs (c : Nat) (f : Cache → Cache) : (s.onSc c f).dlogs = s.dlogs := rfl
@[simp] theorem State.onSc_resetReqs (c : Nat) (f : Cache → Cache) : (s.onSc c f).resetReqs = s.resetReqs := rfl
@[simp] theorem State.onSc_heldReacts (c : Nat) (f : Cache → Cache) : (s.onSc c f).heldReacts = s.heldReacts := rfl
@[simp] theorem State.onSc_errPin (c : Nat) (f : Cache → Cache) : (s.onSc c f).errPin = s.errPin := rfl
@[simp] theorem State.onSc_errAt (c : Nat) (f : Cache → Cache) : (s.onSc c f).errAt = s.errAt := rfl
@[simp] theorem State.onSc_errHeld (c : Nat) (f : Cache → Cache) : (s.onSc c f).errHeld = s.errHeld := rfl
@[simp] theorem State.onSc_shutdown (c : Nat) (f : Cache → Cache) : (s.onSc c f).shutdown = s.shutdown := rfl
@[simp] theorem State.onSc_thermSeen (c : Nat) (f : Cache → Cache) : (s.onSc c f).thermSeen = s.thermSeen := rfl
@[simp] theorem State.onSc_tqs (c : Nat) (f : Cache → Cache) : (s.onSc c f).tqs = s.tqs := rfl
@[simp] theorem State.onSc_nvj (c : Nat) (f : Cache → Cache) : (s.onSc c f).nvj = s.nvj := rfl
@[simp] theorem State.onSc_svc (c : Nat) (f : Cache → Cache) : (s.onSc c f).svc = s.svc := rfl
@[simp] theorem State.onSc_twStopped (c : Nat) (f : Cache → Cache) : (s.onSc c f).twStopped = s.twStopped := rfl
@[simp] theorem State.onSc_tengs (c : Nat) (f : Cache → Cache) : (s.onSc c f).tengs = s.tengs := rfl
@[simp] theorem State.onSc_reasm (c : Nat) (f : Cache → Cache) : (s.onSc c f).reasm = s.reasm := rfl
@[simp] theorem State.onSc_ports (c : Nat) (f : Cache → Cache) : (s.onSc c f).ports = s.ports := rfl
@[simp] theorem State.onSc_ddts (c : Nat) (f : Cache → Cache) : (s.onSc c f).ddts = s.ddts := rfl
@[simp] theorem State.onSc_streams (c : Nat) (f : Cache → Cache) : (s.onSc c f).streams = s.streams := rfl
@[simp] theorem State.onSc_subs (c : Nat) (f : Cache → Cache) : (s.onSc c f).subs = s.subs := rfl
@[simp] theorem State.onSc_pubs (c : Nat) (f : Cache → Cache) : (s.onSc c f).pubs = s.pubs := rfl
@[simp] theorem State.onSc_cages (c : Nat) (f : Cache → Cache) : (s.onSc c f).cages = s.cages := rfl
@[simp] theorem State.onSc_links (c : Nat) (f : Cache → Cache) : (s.onSc c f).links = s.links := rfl
@[simp] theorem State.onSc_form (c : Nat) (f : Cache → Cache) : (s.onSc c f).form = s.form := rfl
@[simp] theorem State.onSc_pools (c : Nat) (f : Cache → Cache) : (s.onSc c f).pools = s.pools := rfl
@[simp] theorem State.onSc_yaf (c : Nat) (f : Cache → Cache) : (s.onSc c f).yaf = s.yaf := rfl
@[simp] theorem State.onSc_chip (c : Nat) (f : Cache → Cache) : (s.onSc c f).chip = s.chip := rfl
@[simp] theorem State.onSc_out (c : Nat) (f : Cache → Cache) : (s.onSc c f).out = s.out := rfl
@[simp] theorem State.onSc_reg (c : Nat) (f : Cache → Cache) (a : Nat) : (s.onSc c f).reg a = s.reg a := rfl
@[simp] theorem State.onSc_fld (c : Nat) (f : Cache → Cache) (a lo1 w1 : Nat) : (s.onSc c f).fld a lo1 w1 = s.fld a lo1 w1 := rfl
@[simp] theorem State.onSc_flag (c : Nat) (f : Cache → Cache) (a j : Nat) : (s.onSc c f).flag a j = s.flag a j := rfl
@[simp] theorem State.onSc_lp (c : Nat) (f : Cache → Cache) (m1 : Nat) : (s.onSc c f).lp m1 = s.lp m1 := rfl
@[simp] theorem State.onSc_pair (c : Nat) (f : Cache → Cache) (m1 : Nat) : (s.onSc c f).pair m1 = s.pair m1 := rfl
@[simp] theorem State.onSc_l2c (c : Nat) (f : Cache → Cache) (m1 : Nat) : (s.onSc c f).l2c m1 = s.l2c m1 := rfl
@[simp] theorem State.onSc_tq (c : Nat) (f : Cache → Cache) (m1 : Nat) : (s.onSc c f).tq m1 = s.tq m1 := rfl
@[simp] theorem State.onSc_port (c : Nat) (f : Cache → Cache) (m1 : Nat) : (s.onSc c f).port m1 = s.port m1 := rfl
@[simp] theorem State.onSc_link (c : Nat) (f : Cache → Cache) (m1 : Nat) : (s.onSc c f).link m1 = s.link m1 := rfl
@[simp] theorem State.onSc_chan (c : Nat) (f : Cache → Cache) (m1 : Nat) : (s.onSc c f).chan m1 = s.chan m1 := rfl
@[simp] theorem State.onSc_req (c : Nat) (f : Cache → Cache) (m1 : Nat) : (s.onSc c f).req m1 = s.req m1 := rfl
@[simp] theorem State.onSc_now (c : Nat) (f : Cache → Cache) : (s.onSc c f).now = s.now := rfl
@[simp] theorem State.onSc_isSplit (c : Nat) (f : Cache → Cache) (m1 : Nat) : (s.onSc c f).isSplit m1 = s.isSplit m1 := rfl

/-! ### onTq -/
@[simp] theorem State.onTq_pending (q : Nat) (f : TQueue → TQueue) : (s.onTq q f).pending = s.pending := rfl
@[simp] theorem State.onTq_freeCount (q : Nat) (f : TQueue → TQueue) : (s.onTq q f).freeCount = s.freeCount := rfl
@[simp] theorem State.onTq_resp (q : Nat) (f : TQueue → TQueue) : (s.onTq q f).resp = s.resp := rfl
@[simp] theorem State.onTq_regs (q : Nat) (f : TQueue → TQueue) : (s.onTq q f).regs = s.regs := rfl
@[simp] theorem State.onTq_mem (q : Nat) (f : TQueue → TQueue) : (s.onTq q f).mem = s.mem := rfl
@[simp] theorem State.onTq_installed (q : Nat) (f : TQueue → TQueue) : (s.onTq q f).installed = s.installed := rfl
@[simp] theorem State.onTq_underL2 (q : Nat) (f : TQueue → TQueue) : (s.onTq q f).underL2 = s.underL2 := rfl
@[simp] theorem State.onTq_underSc (q : Nat) (f : TQueue → TQueue) : (s.onTq q f).underSc = s.underSc := rfl
@[simp] theorem State.onTq_poison (q : Nat) (f : TQueue → TQueue) : (s.onTq q f).poison = s.poison := rfl
@[simp] theorem State.onTq_lps (q : Nat) (f : TQueue → TQueue) : (s.onTq q f).lps = s.lps := rfl
@[simp] theorem State.onTq_pairs (q : Nat) (f : TQueue → TQueue) : (s.onTq q f).pairs = s.pairs := rfl
@[simp] theorem State.onTq_l2 (q : Nat) (f : TQueue → TQueue) : (s.onTq q f).l2 = s.l2 := rfl
@[simp] theorem State.onTq_sc (q : Nat) (f : TQueue → TQueue) : (s.onTq q f).sc = s.sc := rfl
@[simp] theorem State.onTq_rm (q : Nat) (f : TQueue → TQueue) : (s.onTq q f).rm = s.rm := rfl
@[simp] theorem State.onTq_lens (q : Nat) (f : TQueue → TQueue) : (s.onTq q f).lens = s.lens := rfl
@[simp] theorem State.onTq_time (q : Nat) (f : TQueue → TQueue) : (s.onTq q f).time = s.time := rfl
@[simp] theorem State.onTq_split (q : Nat) (f : TQueue → TQueue) : (s.onTq q f).split = s.split := rfl
@[simp] theorem State.onTq_ready (q : Nat) (f : TQueue → TQueue) : (s.onTq q f).ready = s.ready := rfl
@[simp] theorem State.onTq_chans (q : Nat) (f : TQueue → TQueue) : (s.onTq q f).chans = s.chans := rfl
@[simp] theorem State.onTq_epochs (q : Nat) (f : TQueue → TQueue) : (s.onTq q f).epochs = s.epochs := rfl
@[simp] theorem State.onTq_dbIn (q : Nat) (f : TQueue → TQueue) : (s.onTq q f).dbIn = s.dbIn := rfl
@[simp] theorem State.onTq_dbAt (q : Nat) (f : TQueue → TQueue) : (s.onTq q f).dbAt = s.dbAt := rfl
@[simp] theorem State.onTq_fns (q : Nat) (f : TQueue → TQueue) : (s.onTq q f).fns = s.fns := rfl
@[simp] theorem State.onTq_reqs (q : Nat) (f : TQueue → TQueue) : (s.onTq q f).reqs = s.reqs := rfl
@[simp] theorem State.onTq_cp1Serves (q : Nat) (f : TQueue → TQueue) : (s.onTq q f).cp1Serves = s.cp1Serves := rfl
@[simp] theorem State.onTq_parts (q : Nat) (f : TQueue → TQueue) : (s.onTq q f).parts = s.parts := rfl
@[simp] theorem State.onTq_assigns (q : Nat) (f : TQueue → TQueue) : (s.onTq q f).assigns = s.assigns := rfl
@[simp] theorem State.onTq_dlogs (q : Nat) (f : TQueue → TQueue) : (s.onTq q f).dlogs = s.dlogs := rfl
@[simp] theorem State.onTq_resetReqs (q : Nat) (f : TQueue → TQueue) : (s.onTq q f).resetReqs = s.resetReqs := rfl
@[simp] theorem State.onTq_heldReacts (q : Nat) (f : TQueue → TQueue) : (s.onTq q f).heldReacts = s.heldReacts := rfl
@[simp] theorem State.onTq_errPin (q : Nat) (f : TQueue → TQueue) : (s.onTq q f).errPin = s.errPin := rfl
@[simp] theorem State.onTq_errAt (q : Nat) (f : TQueue → TQueue) : (s.onTq q f).errAt = s.errAt := rfl
@[simp] theorem State.onTq_errHeld (q : Nat) (f : TQueue → TQueue) : (s.onTq q f).errHeld = s.errHeld := rfl
@[simp] theorem State.onTq_shutdown (q : Nat) (f : TQueue → TQueue) : (s.onTq q f).shutdown = s.shutdown := rfl
@[simp] theorem State.onTq_thermSeen (q : Nat) (f : TQueue → TQueue) : (s.onTq q f).thermSeen = s.thermSeen := rfl
@[simp] theorem State.onTq_nvj (q : Nat) (f : TQueue → TQueue) : (s.onTq q f).nvj = s.nvj := rfl
@[simp] theorem State.onTq_svc (q : Nat) (f : TQueue → TQueue) : (s.onTq q f).svc = s.svc := rfl
@[simp] theorem State.onTq_twStopped (q : Nat) (f : TQueue → TQueue) : (s.onTq q f).twStopped = s.twStopped := rfl
@[simp] theorem State.onTq_tengs (q : Nat) (f : TQueue → TQueue) : (s.onTq q f).tengs = s.tengs := rfl
@[simp] theorem State.onTq_reasm (q : Nat) (f : TQueue → TQueue) : (s.onTq q f).reasm = s.reasm := rfl
@[simp] theorem State.onTq_ports (q : Nat) (f : TQueue → TQueue) : (s.onTq q f).ports = s.ports := rfl
@[simp] theorem State.onTq_ddts (q : Nat) (f : TQueue → TQueue) : (s.onTq q f).ddts = s.ddts := rfl
@[simp] theorem State.onTq_streams (q : Nat) (f : TQueue → TQueue) : (s.onTq q f).streams = s.streams := rfl
@[simp] theorem State.onTq_subs (q : Nat) (f : TQueue → TQueue) : (s.onTq q f).subs = s.subs := rfl
@[simp] theorem State.onTq_pubs (q : Nat) (f : TQueue → TQueue) : (s.onTq q f).pubs = s.pubs := rfl
@[simp] theorem State.onTq_cages (q : Nat) (f : TQueue → TQueue) : (s.onTq q f).cages = s.cages := rfl
@[simp] theorem State.onTq_links (q : Nat) (f : TQueue → TQueue) : (s.onTq q f).links = s.links := rfl
@[simp] theorem State.onTq_form (q : Nat) (f : TQueue → TQueue) : (s.onTq q f).form = s.form := rfl
@[simp] theorem State.onTq_pools (q : Nat) (f : TQueue → TQueue) : (s.onTq q f).pools = s.pools := rfl
@[simp] theorem State.onTq_yaf (q : Nat) (f : TQueue → TQueue) : (s.onTq q f).yaf = s.yaf := rfl
@[simp] theorem State.onTq_chip (q : Nat) (f : TQueue → TQueue) : (s.onTq q f).chip = s.chip := rfl
@[simp] theorem State.onTq_out (q : Nat) (f : TQueue → TQueue) : (s.onTq q f).out = s.out := rfl
@[simp] theorem State.onTq_reg (q : Nat) (f : TQueue → TQueue) (a : Nat) : (s.onTq q f).reg a = s.reg a := rfl
@[simp] theorem State.onTq_fld (q : Nat) (f : TQueue → TQueue) (a lo1 w1 : Nat) : (s.onTq q f).fld a lo1 w1 = s.fld a lo1 w1 := rfl
@[simp] theorem State.onTq_flag (q : Nat) (f : TQueue → TQueue) (a j : Nat) : (s.onTq q f).flag a j = s.flag a j := rfl
@[simp] theorem State.onTq_lp (q : Nat) (f : TQueue → TQueue) (m1 : Nat) : (s.onTq q f).lp m1 = s.lp m1 := rfl
@[simp] theorem State.onTq_pair (q : Nat) (f : TQueue → TQueue) (m1 : Nat) : (s.onTq q f).pair m1 = s.pair m1 := rfl
@[simp] theorem State.onTq_l2c (q : Nat) (f : TQueue → TQueue) (m1 : Nat) : (s.onTq q f).l2c m1 = s.l2c m1 := rfl
@[simp] theorem State.onTq_scs (q : Nat) (f : TQueue → TQueue) (m1 : Nat) : (s.onTq q f).scs m1 = s.scs m1 := rfl
@[simp] theorem State.onTq_port (q : Nat) (f : TQueue → TQueue) (m1 : Nat) : (s.onTq q f).port m1 = s.port m1 := rfl
@[simp] theorem State.onTq_link (q : Nat) (f : TQueue → TQueue) (m1 : Nat) : (s.onTq q f).link m1 = s.link m1 := rfl
@[simp] theorem State.onTq_chan (q : Nat) (f : TQueue → TQueue) (m1 : Nat) : (s.onTq q f).chan m1 = s.chan m1 := rfl
@[simp] theorem State.onTq_req (q : Nat) (f : TQueue → TQueue) (m1 : Nat) : (s.onTq q f).req m1 = s.req m1 := rfl
@[simp] theorem State.onTq_now (q : Nat) (f : TQueue → TQueue) : (s.onTq q f).now = s.now := rfl
@[simp] theorem State.onTq_isSplit (q : Nat) (f : TQueue → TQueue) (m1 : Nat) : (s.onTq q f).isSplit m1 = s.isSplit m1 := rfl

/-! ### onPort -/
@[simp] theorem State.onPort_pending (p : Nat) (f : Port → Port) : (s.onPort p f).pending = s.pending := rfl
@[simp] theorem State.onPort_freeCount (p : Nat) (f : Port → Port) : (s.onPort p f).freeCount = s.freeCount := rfl
@[simp] theorem State.onPort_resp (p : Nat) (f : Port → Port) : (s.onPort p f).resp = s.resp := rfl
@[simp] theorem State.onPort_regs (p : Nat) (f : Port → Port) : (s.onPort p f).regs = s.regs := rfl
@[simp] theorem State.onPort_mem (p : Nat) (f : Port → Port) : (s.onPort p f).mem = s.mem := rfl
@[simp] theorem State.onPort_installed (p : Nat) (f : Port → Port) : (s.onPort p f).installed = s.installed := rfl
@[simp] theorem State.onPort_underL2 (p : Nat) (f : Port → Port) : (s.onPort p f).underL2 = s.underL2 := rfl
@[simp] theorem State.onPort_underSc (p : Nat) (f : Port → Port) : (s.onPort p f).underSc = s.underSc := rfl
@[simp] theorem State.onPort_poison (p : Nat) (f : Port → Port) : (s.onPort p f).poison = s.poison := rfl
@[simp] theorem State.onPort_lps (p : Nat) (f : Port → Port) : (s.onPort p f).lps = s.lps := rfl
@[simp] theorem State.onPort_pairs (p : Nat) (f : Port → Port) : (s.onPort p f).pairs = s.pairs := rfl
@[simp] theorem State.onPort_l2 (p : Nat) (f : Port → Port) : (s.onPort p f).l2 = s.l2 := rfl
@[simp] theorem State.onPort_sc (p : Nat) (f : Port → Port) : (s.onPort p f).sc = s.sc := rfl
@[simp] theorem State.onPort_rm (p : Nat) (f : Port → Port) : (s.onPort p f).rm = s.rm := rfl
@[simp] theorem State.onPort_lens (p : Nat) (f : Port → Port) : (s.onPort p f).lens = s.lens := rfl
@[simp] theorem State.onPort_time (p : Nat) (f : Port → Port) : (s.onPort p f).time = s.time := rfl
@[simp] theorem State.onPort_split (p : Nat) (f : Port → Port) : (s.onPort p f).split = s.split := rfl
@[simp] theorem State.onPort_ready (p : Nat) (f : Port → Port) : (s.onPort p f).ready = s.ready := rfl
@[simp] theorem State.onPort_chans (p : Nat) (f : Port → Port) : (s.onPort p f).chans = s.chans := rfl
@[simp] theorem State.onPort_epochs (p : Nat) (f : Port → Port) : (s.onPort p f).epochs = s.epochs := rfl
@[simp] theorem State.onPort_dbIn (p : Nat) (f : Port → Port) : (s.onPort p f).dbIn = s.dbIn := rfl
@[simp] theorem State.onPort_dbAt (p : Nat) (f : Port → Port) : (s.onPort p f).dbAt = s.dbAt := rfl
@[simp] theorem State.onPort_fns (p : Nat) (f : Port → Port) : (s.onPort p f).fns = s.fns := rfl
@[simp] theorem State.onPort_reqs (p : Nat) (f : Port → Port) : (s.onPort p f).reqs = s.reqs := rfl
@[simp] theorem State.onPort_cp1Serves (p : Nat) (f : Port → Port) : (s.onPort p f).cp1Serves = s.cp1Serves := rfl
@[simp] theorem State.onPort_parts (p : Nat) (f : Port → Port) : (s.onPort p f).parts = s.parts := rfl
@[simp] theorem State.onPort_assigns (p : Nat) (f : Port → Port) : (s.onPort p f).assigns = s.assigns := rfl
@[simp] theorem State.onPort_dlogs (p : Nat) (f : Port → Port) : (s.onPort p f).dlogs = s.dlogs := rfl
@[simp] theorem State.onPort_resetReqs (p : Nat) (f : Port → Port) : (s.onPort p f).resetReqs = s.resetReqs := rfl
@[simp] theorem State.onPort_heldReacts (p : Nat) (f : Port → Port) : (s.onPort p f).heldReacts = s.heldReacts := rfl
@[simp] theorem State.onPort_errPin (p : Nat) (f : Port → Port) : (s.onPort p f).errPin = s.errPin := rfl
@[simp] theorem State.onPort_errAt (p : Nat) (f : Port → Port) : (s.onPort p f).errAt = s.errAt := rfl
@[simp] theorem State.onPort_errHeld (p : Nat) (f : Port → Port) : (s.onPort p f).errHeld = s.errHeld := rfl
@[simp] theorem State.onPort_shutdown (p : Nat) (f : Port → Port) : (s.onPort p f).shutdown = s.shutdown := rfl
@[simp] theorem State.onPort_thermSeen (p : Nat) (f : Port → Port) : (s.onPort p f).thermSeen = s.thermSeen := rfl
@[simp] theorem State.onPort_tqs (p : Nat) (f : Port → Port) : (s.onPort p f).tqs = s.tqs := rfl
@[simp] theorem State.onPort_nvj (p : Nat) (f : Port → Port) : (s.onPort p f).nvj = s.nvj := rfl
@[simp] theorem State.onPort_svc (p : Nat) (f : Port → Port) : (s.onPort p f).svc = s.svc := rfl
@[simp] theorem State.onPort_twStopped (p : Nat) (f : Port → Port) : (s.onPort p f).twStopped = s.twStopped := rfl
@[simp] theorem State.onPort_tengs (p : Nat) (f : Port → Port) : (s.onPort p f).tengs = s.tengs := rfl
@[simp] theorem State.onPort_reasm (p : Nat) (f : Port → Port) : (s.onPort p f).reasm = s.reasm := rfl
@[simp] theorem State.onPort_ddts (p : Nat) (f : Port → Port) : (s.onPort p f).ddts = s.ddts := rfl
@[simp] theorem State.onPort_streams (p : Nat) (f : Port → Port) : (s.onPort p f).streams = s.streams := rfl
@[simp] theorem State.onPort_subs (p : Nat) (f : Port → Port) : (s.onPort p f).subs = s.subs := rfl
@[simp] theorem State.onPort_pubs (p : Nat) (f : Port → Port) : (s.onPort p f).pubs = s.pubs := rfl
@[simp] theorem State.onPort_cages (p : Nat) (f : Port → Port) : (s.onPort p f).cages = s.cages := rfl
@[simp] theorem State.onPort_links (p : Nat) (f : Port → Port) : (s.onPort p f).links = s.links := rfl
@[simp] theorem State.onPort_form (p : Nat) (f : Port → Port) : (s.onPort p f).form = s.form := rfl
@[simp] theorem State.onPort_pools (p : Nat) (f : Port → Port) : (s.onPort p f).pools = s.pools := rfl
@[simp] theorem State.onPort_yaf (p : Nat) (f : Port → Port) : (s.onPort p f).yaf = s.yaf := rfl
@[simp] theorem State.onPort_chip (p : Nat) (f : Port → Port) : (s.onPort p f).chip = s.chip := rfl
@[simp] theorem State.onPort_out (p : Nat) (f : Port → Port) : (s.onPort p f).out = s.out := rfl
@[simp] theorem State.onPort_reg (p : Nat) (f : Port → Port) (a : Nat) : (s.onPort p f).reg a = s.reg a := rfl
@[simp] theorem State.onPort_fld (p : Nat) (f : Port → Port) (a lo1 w1 : Nat) : (s.onPort p f).fld a lo1 w1 = s.fld a lo1 w1 := rfl
@[simp] theorem State.onPort_flag (p : Nat) (f : Port → Port) (a j : Nat) : (s.onPort p f).flag a j = s.flag a j := rfl
@[simp] theorem State.onPort_lp (p : Nat) (f : Port → Port) (m1 : Nat) : (s.onPort p f).lp m1 = s.lp m1 := rfl
@[simp] theorem State.onPort_pair (p : Nat) (f : Port → Port) (m1 : Nat) : (s.onPort p f).pair m1 = s.pair m1 := rfl
@[simp] theorem State.onPort_l2c (p : Nat) (f : Port → Port) (m1 : Nat) : (s.onPort p f).l2c m1 = s.l2c m1 := rfl
@[simp] theorem State.onPort_scs (p : Nat) (f : Port → Port) (m1 : Nat) : (s.onPort p f).scs m1 = s.scs m1 := rfl
@[simp] theorem State.onPort_tq (p : Nat) (f : Port → Port) (m1 : Nat) : (s.onPort p f).tq m1 = s.tq m1 := rfl
@[simp] theorem State.onPort_link (p : Nat) (f : Port → Port) (m1 : Nat) : (s.onPort p f).link m1 = s.link m1 := rfl
@[simp] theorem State.onPort_chan (p : Nat) (f : Port → Port) (m1 : Nat) : (s.onPort p f).chan m1 = s.chan m1 := rfl
@[simp] theorem State.onPort_req (p : Nat) (f : Port → Port) (m1 : Nat) : (s.onPort p f).req m1 = s.req m1 := rfl
@[simp] theorem State.onPort_now (p : Nat) (f : Port → Port) : (s.onPort p f).now = s.now := rfl
@[simp] theorem State.onPort_isSplit (p : Nat) (f : Port → Port) (m1 : Nat) : (s.onPort p f).isSplit m1 = s.isSplit m1 := rfl

/-! ### onLink -/
@[simp] theorem State.onLink_pending (l : Nat) (f : Link → Link) : (s.onLink l f).pending = s.pending := rfl
@[simp] theorem State.onLink_freeCount (l : Nat) (f : Link → Link) : (s.onLink l f).freeCount = s.freeCount := rfl
@[simp] theorem State.onLink_resp (l : Nat) (f : Link → Link) : (s.onLink l f).resp = s.resp := rfl
@[simp] theorem State.onLink_regs (l : Nat) (f : Link → Link) : (s.onLink l f).regs = s.regs := rfl
@[simp] theorem State.onLink_mem (l : Nat) (f : Link → Link) : (s.onLink l f).mem = s.mem := rfl
@[simp] theorem State.onLink_installed (l : Nat) (f : Link → Link) : (s.onLink l f).installed = s.installed := rfl
@[simp] theorem State.onLink_underL2 (l : Nat) (f : Link → Link) : (s.onLink l f).underL2 = s.underL2 := rfl
@[simp] theorem State.onLink_underSc (l : Nat) (f : Link → Link) : (s.onLink l f).underSc = s.underSc := rfl
@[simp] theorem State.onLink_poison (l : Nat) (f : Link → Link) : (s.onLink l f).poison = s.poison := rfl
@[simp] theorem State.onLink_lps (l : Nat) (f : Link → Link) : (s.onLink l f).lps = s.lps := rfl
@[simp] theorem State.onLink_pairs (l : Nat) (f : Link → Link) : (s.onLink l f).pairs = s.pairs := rfl
@[simp] theorem State.onLink_l2 (l : Nat) (f : Link → Link) : (s.onLink l f).l2 = s.l2 := rfl
@[simp] theorem State.onLink_sc (l : Nat) (f : Link → Link) : (s.onLink l f).sc = s.sc := rfl
@[simp] theorem State.onLink_rm (l : Nat) (f : Link → Link) : (s.onLink l f).rm = s.rm := rfl
@[simp] theorem State.onLink_lens (l : Nat) (f : Link → Link) : (s.onLink l f).lens = s.lens := rfl
@[simp] theorem State.onLink_time (l : Nat) (f : Link → Link) : (s.onLink l f).time = s.time := rfl
@[simp] theorem State.onLink_split (l : Nat) (f : Link → Link) : (s.onLink l f).split = s.split := rfl
@[simp] theorem State.onLink_ready (l : Nat) (f : Link → Link) : (s.onLink l f).ready = s.ready := rfl
@[simp] theorem State.onLink_chans (l : Nat) (f : Link → Link) : (s.onLink l f).chans = s.chans := rfl
@[simp] theorem State.onLink_epochs (l : Nat) (f : Link → Link) : (s.onLink l f).epochs = s.epochs := rfl
@[simp] theorem State.onLink_dbIn (l : Nat) (f : Link → Link) : (s.onLink l f).dbIn = s.dbIn := rfl
@[simp] theorem State.onLink_dbAt (l : Nat) (f : Link → Link) : (s.onLink l f).dbAt = s.dbAt := rfl
@[simp] theorem State.onLink_fns (l : Nat) (f : Link → Link) : (s.onLink l f).fns = s.fns := rfl
@[simp] theorem State.onLink_reqs (l : Nat) (f : Link → Link) : (s.onLink l f).reqs = s.reqs := rfl
@[simp] theorem State.onLink_cp1Serves (l : Nat) (f : Link → Link) : (s.onLink l f).cp1Serves = s.cp1Serves := rfl
@[simp] theorem State.onLink_parts (l : Nat) (f : Link → Link) : (s.onLink l f).parts = s.parts := rfl
@[simp] theorem State.onLink_assigns (l : Nat) (f : Link → Link) : (s.onLink l f).assigns = s.assigns := rfl
@[simp] theorem State.onLink_dlogs (l : Nat) (f : Link → Link) : (s.onLink l f).dlogs = s.dlogs := rfl
@[simp] theorem State.onLink_resetReqs (l : Nat) (f : Link → Link) : (s.onLink l f).resetReqs = s.resetReqs := rfl
@[simp] theorem State.onLink_heldReacts (l : Nat) (f : Link → Link) : (s.onLink l f).heldReacts = s.heldReacts := rfl
@[simp] theorem State.onLink_errPin (l : Nat) (f : Link → Link) : (s.onLink l f).errPin = s.errPin := rfl
@[simp] theorem State.onLink_errAt (l : Nat) (f : Link → Link) : (s.onLink l f).errAt = s.errAt := rfl
@[simp] theorem State.onLink_errHeld (l : Nat) (f : Link → Link) : (s.onLink l f).errHeld = s.errHeld := rfl
@[simp] theorem State.onLink_shutdown (l : Nat) (f : Link → Link) : (s.onLink l f).shutdown = s.shutdown := rfl
@[simp] theorem State.onLink_thermSeen (l : Nat) (f : Link → Link) : (s.onLink l f).thermSeen = s.thermSeen := rfl
@[simp] theorem State.onLink_tqs (l : Nat) (f : Link → Link) : (s.onLink l f).tqs = s.tqs := rfl
@[simp] theorem State.onLink_nvj (l : Nat) (f : Link → Link) : (s.onLink l f).nvj = s.nvj := rfl
@[simp] theorem State.onLink_svc (l : Nat) (f : Link → Link) : (s.onLink l f).svc = s.svc := rfl
@[simp] theorem State.onLink_twStopped (l : Nat) (f : Link → Link) : (s.onLink l f).twStopped = s.twStopped := rfl
@[simp] theorem State.onLink_tengs (l : Nat) (f : Link → Link) : (s.onLink l f).tengs = s.tengs := rfl
@[simp] theorem State.onLink_reasm (l : Nat) (f : Link → Link) : (s.onLink l f).reasm = s.reasm := rfl
@[simp] theorem State.onLink_ports (l : Nat) (f : Link → Link) : (s.onLink l f).ports = s.ports := rfl
@[simp] theorem State.onLink_ddts (l : Nat) (f : Link → Link) : (s.onLink l f).ddts = s.ddts := rfl
@[simp] theorem State.onLink_streams (l : Nat) (f : Link → Link) : (s.onLink l f).streams = s.streams := rfl
@[simp] theorem State.onLink_subs (l : Nat) (f : Link → Link) : (s.onLink l f).subs = s.subs := rfl
@[simp] theorem State.onLink_pubs (l : Nat) (f : Link → Link) : (s.onLink l f).pubs = s.pubs := rfl
@[simp] theorem State.onLink_cages (l : Nat) (f : Link → Link) : (s.onLink l f).cages = s.cages := rfl
@[simp] theorem State.onLink_form (l : Nat) (f : Link → Link) : (s.onLink l f).form = s.form := rfl
@[simp] theorem State.onLink_pools (l : Nat) (f : Link → Link) : (s.onLink l f).pools = s.pools := rfl
@[simp] theorem State.onLink_yaf (l : Nat) (f : Link → Link) : (s.onLink l f).yaf = s.yaf := rfl
@[simp] theorem State.onLink_chip (l : Nat) (f : Link → Link) : (s.onLink l f).chip = s.chip := rfl
@[simp] theorem State.onLink_out (l : Nat) (f : Link → Link) : (s.onLink l f).out = s.out := rfl
@[simp] theorem State.onLink_reg (l : Nat) (f : Link → Link) (a : Nat) : (s.onLink l f).reg a = s.reg a := rfl
@[simp] theorem State.onLink_fld (l : Nat) (f : Link → Link) (a lo1 w1 : Nat) : (s.onLink l f).fld a lo1 w1 = s.fld a lo1 w1 := rfl
@[simp] theorem State.onLink_flag (l : Nat) (f : Link → Link) (a j : Nat) : (s.onLink l f).flag a j = s.flag a j := rfl
@[simp] theorem State.onLink_lp (l : Nat) (f : Link → Link) (m1 : Nat) : (s.onLink l f).lp m1 = s.lp m1 := rfl
@[simp] theorem State.onLink_pair (l : Nat) (f : Link → Link) (m1 : Nat) : (s.onLink l f).pair m1 = s.pair m1 := rfl
@[simp] theorem State.onLink_l2c (l : Nat) (f : Link → Link) (m1 : Nat) : (s.onLink l f).l2c m1 = s.l2c m1 := rfl
@[simp] theorem State.onLink_scs (l : Nat) (f : Link → Link) (m1 : Nat) : (s.onLink l f).scs m1 = s.scs m1 := rfl
@[simp] theorem State.onLink_tq (l : Nat) (f : Link → Link) (m1 : Nat) : (s.onLink l f).tq m1 = s.tq m1 := rfl
@[simp] theorem State.onLink_port (l : Nat) (f : Link → Link) (m1 : Nat) : (s.onLink l f).port m1 = s.port m1 := rfl
@[simp] theorem State.onLink_chan (l : Nat) (f : Link → Link) (m1 : Nat) : (s.onLink l f).chan m1 = s.chan m1 := rfl
@[simp] theorem State.onLink_req (l : Nat) (f : Link → Link) (m1 : Nat) : (s.onLink l f).req m1 = s.req m1 := rfl
@[simp] theorem State.onLink_now (l : Nat) (f : Link → Link) : (s.onLink l f).now = s.now := rfl
@[simp] theorem State.onLink_isSplit (l : Nat) (f : Link → Link) (m1 : Nat) : (s.onLink l f).isSplit m1 = s.isSplit m1 := rfl

/-! ### onChan -/
@[simp] theorem State.onChan_pending (c : Nat) (f : Chan → Chan) : (s.onChan c f).pending = s.pending := rfl
@[simp] theorem State.onChan_freeCount (c : Nat) (f : Chan → Chan) : (s.onChan c f).freeCount = s.freeCount := rfl
@[simp] theorem State.onChan_resp (c : Nat) (f : Chan → Chan) : (s.onChan c f).resp = s.resp := rfl
@[simp] theorem State.onChan_regs (c : Nat) (f : Chan → Chan) : (s.onChan c f).regs = s.regs := rfl
@[simp] theorem State.onChan_mem (c : Nat) (f : Chan → Chan) : (s.onChan c f).mem = s.mem := rfl
@[simp] theorem State.onChan_installed (c : Nat) (f : Chan → Chan) : (s.onChan c f).installed = s.installed := rfl
@[simp] theorem State.onChan_underL2 (c : Nat) (f : Chan → Chan) : (s.onChan c f).underL2 = s.underL2 := rfl
@[simp] theorem State.onChan_underSc (c : Nat) (f : Chan → Chan) : (s.onChan c f).underSc = s.underSc := rfl
@[simp] theorem State.onChan_poison (c : Nat) (f : Chan → Chan) : (s.onChan c f).poison = s.poison := rfl
@[simp] theorem State.onChan_lps (c : Nat) (f : Chan → Chan) : (s.onChan c f).lps = s.lps := rfl
@[simp] theorem State.onChan_pairs (c : Nat) (f : Chan → Chan) : (s.onChan c f).pairs = s.pairs := rfl
@[simp] theorem State.onChan_l2 (c : Nat) (f : Chan → Chan) : (s.onChan c f).l2 = s.l2 := rfl
@[simp] theorem State.onChan_sc (c : Nat) (f : Chan → Chan) : (s.onChan c f).sc = s.sc := rfl
@[simp] theorem State.onChan_rm (c : Nat) (f : Chan → Chan) : (s.onChan c f).rm = s.rm := rfl
@[simp] theorem State.onChan_lens (c : Nat) (f : Chan → Chan) : (s.onChan c f).lens = s.lens := rfl
@[simp] theorem State.onChan_time (c : Nat) (f : Chan → Chan) : (s.onChan c f).time = s.time := rfl
@[simp] theorem State.onChan_split (c : Nat) (f : Chan → Chan) : (s.onChan c f).split = s.split := rfl
@[simp] theorem State.onChan_ready (c : Nat) (f : Chan → Chan) : (s.onChan c f).ready = s.ready := rfl
@[simp] theorem State.onChan_epochs (c : Nat) (f : Chan → Chan) : (s.onChan c f).epochs = s.epochs := rfl
@[simp] theorem State.onChan_dbIn (c : Nat) (f : Chan → Chan) : (s.onChan c f).dbIn = s.dbIn := rfl
@[simp] theorem State.onChan_dbAt (c : Nat) (f : Chan → Chan) : (s.onChan c f).dbAt = s.dbAt := rfl
@[simp] theorem State.onChan_fns (c : Nat) (f : Chan → Chan) : (s.onChan c f).fns = s.fns := rfl
@[simp] theorem State.onChan_reqs (c : Nat) (f : Chan → Chan) : (s.onChan c f).reqs = s.reqs := rfl
@[simp] theorem State.onChan_cp1Serves (c : Nat) (f : Chan → Chan) : (s.onChan c f).cp1Serves = s.cp1Serves := rfl
@[simp] theorem State.onChan_parts (c : Nat) (f : Chan → Chan) : (s.onChan c f).parts = s.parts := rfl
@[simp] theorem State.onChan_assigns (c : Nat) (f : Chan → Chan) : (s.onChan c f).assigns = s.assigns := rfl
@[simp] theorem State.onChan_dlogs (c : Nat) (f : Chan → Chan) : (s.onChan c f).dlogs = s.dlogs := rfl
@[simp] theorem State.onChan_resetReqs (c : Nat) (f : Chan → Chan) : (s.onChan c f).resetReqs = s.resetReqs := rfl
@[simp] theorem State.onChan_heldReacts (c : Nat) (f : Chan → Chan) : (s.onChan c f).heldReacts = s.heldReacts := rfl
@[simp] theorem State.onChan_errPin (c : Nat) (f : Chan → Chan) : (s.onChan c f).errPin = s.errPin := rfl
@[simp] theorem State.onChan_errAt (c : Nat) (f : Chan → Chan) : (s.onChan c f).errAt = s.errAt := rfl
@[simp] theorem State.onChan_errHeld (c : Nat) (f : Chan → Chan) : (s.onChan c f).errHeld = s.errHeld := rfl
@[simp] theorem State.onChan_shutdown (c : Nat) (f : Chan → Chan) : (s.onChan c f).shutdown = s.shutdown := rfl
@[simp] theorem State.onChan_thermSeen (c : Nat) (f : Chan → Chan) : (s.onChan c f).thermSeen = s.thermSeen := rfl
@[simp] theorem State.onChan_tqs (c : Nat) (f : Chan → Chan) : (s.onChan c f).tqs = s.tqs := rfl
@[simp] theorem State.onChan_nvj (c : Nat) (f : Chan → Chan) : (s.onChan c f).nvj = s.nvj := rfl
@[simp] theorem State.onChan_svc (c : Nat) (f : Chan → Chan) : (s.onChan c f).svc = s.svc := rfl
@[simp] theorem State.onChan_twStopped (c : Nat) (f : Chan → Chan) : (s.onChan c f).twStopped = s.twStopped := rfl
@[simp] theorem State.onChan_tengs (c : Nat) (f : Chan → Chan) : (s.onChan c f).tengs = s.tengs := rfl
@[simp] theorem State.onChan_reasm (c : Nat) (f : Chan → Chan) : (s.onChan c f).reasm = s.reasm := rfl
@[simp] theorem State.onChan_ports (c : Nat) (f : Chan → Chan) : (s.onChan c f).ports = s.ports := rfl
@[simp] theorem State.onChan_ddts (c : Nat) (f : Chan → Chan) : (s.onChan c f).ddts = s.ddts := rfl
@[simp] theorem State.onChan_streams (c : Nat) (f : Chan → Chan) : (s.onChan c f).streams = s.streams := rfl
@[simp] theorem State.onChan_subs (c : Nat) (f : Chan → Chan) : (s.onChan c f).subs = s.subs := rfl
@[simp] theorem State.onChan_pubs (c : Nat) (f : Chan → Chan) : (s.onChan c f).pubs = s.pubs := rfl
@[simp] theorem State.onChan_cages (c : Nat) (f : Chan → Chan) : (s.onChan c f).cages = s.cages := rfl
@[simp] theorem State.onChan_links (c : Nat) (f : Chan → Chan) : (s.onChan c f).links = s.links := rfl
@[simp] theorem State.onChan_form (c : Nat) (f : Chan → Chan) : (s.onChan c f).form = s.form := rfl
@[simp] theorem State.onChan_pools (c : Nat) (f : Chan → Chan) : (s.onChan c f).pools = s.pools := rfl
@[simp] theorem State.onChan_yaf (c : Nat) (f : Chan → Chan) : (s.onChan c f).yaf = s.yaf := rfl
@[simp] theorem State.onChan_chip (c : Nat) (f : Chan → Chan) : (s.onChan c f).chip = s.chip := rfl
@[simp] theorem State.onChan_out (c : Nat) (f : Chan → Chan) : (s.onChan c f).out = s.out := rfl
@[simp] theorem State.onChan_reg (c : Nat) (f : Chan → Chan) (a : Nat) : (s.onChan c f).reg a = s.reg a := rfl
@[simp] theorem State.onChan_fld (c : Nat) (f : Chan → Chan) (a lo1 w1 : Nat) : (s.onChan c f).fld a lo1 w1 = s.fld a lo1 w1 := rfl
@[simp] theorem State.onChan_flag (c : Nat) (f : Chan → Chan) (a j : Nat) : (s.onChan c f).flag a j = s.flag a j := rfl
@[simp] theorem State.onChan_lp (c : Nat) (f : Chan → Chan) (m1 : Nat) : (s.onChan c f).lp m1 = s.lp m1 := rfl
@[simp] theorem State.onChan_pair (c : Nat) (f : Chan → Chan) (m1 : Nat) : (s.onChan c f).pair m1 = s.pair m1 := rfl
@[simp] theorem State.onChan_l2c (c : Nat) (f : Chan → Chan) (m1 : Nat) : (s.onChan c f).l2c m1 = s.l2c m1 := rfl
@[simp] theorem State.onChan_scs (c : Nat) (f : Chan → Chan) (m1 : Nat) : (s.onChan c f).scs m1 = s.scs m1 := rfl
@[simp] theorem State.onChan_tq (c : Nat) (f : Chan → Chan) (m1 : Nat) : (s.onChan c f).tq m1 = s.tq m1 := rfl
@[simp] theorem State.onChan_port (c : Nat) (f : Chan → Chan) (m1 : Nat) : (s.onChan c f).port m1 = s.port m1 := rfl
@[simp] theorem State.onChan_link (c : Nat) (f : Chan → Chan) (m1 : Nat) : (s.onChan c f).link m1 = s.link m1 := rfl
@[simp] theorem State.onChan_req (c : Nat) (f : Chan → Chan) (m1 : Nat) : (s.onChan c f).req m1 = s.req m1 := rfl
@[simp] theorem State.onChan_now (c : Nat) (f : Chan → Chan) : (s.onChan c f).now = s.now := rfl
@[simp] theorem State.onChan_isSplit (c : Nat) (f : Chan → Chan) (m1 : Nat) : (s.onChan c f).isSplit m1 = s.isSplit m1 := rfl

/-! ### onReq -/
@[simp] theorem State.onReq_pending (m : Nat) (f : Requester → Requester) : (s.onReq m f).pending = s.pending := rfl
@[simp] theorem State.onReq_freeCount (m : Nat) (f : Requester → Requester) : (s.onReq m f).freeCount = s.freeCount := rfl
@[simp] theorem State.onReq_resp (m : Nat) (f : Requester → Requester) : (s.onReq m f).resp = s.resp := rfl
@[simp] theorem State.onReq_regs (m : Nat) (f : Requester → Requester) : (s.onReq m f).regs = s.regs := rfl
@[simp] theorem State.onReq_mem (m : Nat) (f : Requester → Requester) : (s.onReq m f).mem = s.mem := rfl
@[simp] theorem State.onReq_installed (m : Nat) (f : Requester → Requester) : (s.onReq m f).installed = s.installed := rfl
@[simp] theorem State.onReq_underL2 (m : Nat) (f : Requester → Requester) : (s.onReq m f).underL2 = s.underL2 := rfl
@[simp] theorem State.onReq_underSc (m : Nat) (f : Requester → Requester) : (s.onReq m f).underSc = s.underSc := rfl
@[simp] theorem State.onReq_poison (m : Nat) (f : Requester → Requester) : (s.onReq m f).poison = s.poison := rfl
@[simp] theorem State.onReq_lps (m : Nat) (f : Requester → Requester) : (s.onReq m f).lps = s.lps := rfl
@[simp] theorem State.onReq_pairs (m : Nat) (f : Requester → Requester) : (s.onReq m f).pairs = s.pairs := rfl
@[simp] theorem State.onReq_l2 (m : Nat) (f : Requester → Requester) : (s.onReq m f).l2 = s.l2 := rfl
@[simp] theorem State.onReq_sc (m : Nat) (f : Requester → Requester) : (s.onReq m f).sc = s.sc := rfl
@[simp] theorem State.onReq_rm (m : Nat) (f : Requester → Requester) : (s.onReq m f).rm = s.rm := rfl
@[simp] theorem State.onReq_lens (m : Nat) (f : Requester → Requester) : (s.onReq m f).lens = s.lens := rfl
@[simp] theorem State.onReq_time (m : Nat) (f : Requester → Requester) : (s.onReq m f).time = s.time := rfl
@[simp] theorem State.onReq_split (m : Nat) (f : Requester → Requester) : (s.onReq m f).split = s.split := rfl
@[simp] theorem State.onReq_ready (m : Nat) (f : Requester → Requester) : (s.onReq m f).ready = s.ready := rfl
@[simp] theorem State.onReq_chans (m : Nat) (f : Requester → Requester) : (s.onReq m f).chans = s.chans := rfl
@[simp] theorem State.onReq_epochs (m : Nat) (f : Requester → Requester) : (s.onReq m f).epochs = s.epochs := rfl
@[simp] theorem State.onReq_dbIn (m : Nat) (f : Requester → Requester) : (s.onReq m f).dbIn = s.dbIn := rfl
@[simp] theorem State.onReq_dbAt (m : Nat) (f : Requester → Requester) : (s.onReq m f).dbAt = s.dbAt := rfl
@[simp] theorem State.onReq_fns (m : Nat) (f : Requester → Requester) : (s.onReq m f).fns = s.fns := rfl
@[simp] theorem State.onReq_cp1Serves (m : Nat) (f : Requester → Requester) : (s.onReq m f).cp1Serves = s.cp1Serves := rfl
@[simp] theorem State.onReq_parts (m : Nat) (f : Requester → Requester) : (s.onReq m f).parts = s.parts := rfl
@[simp] theorem State.onReq_assigns (m : Nat) (f : Requester → Requester) : (s.onReq m f).assigns = s.assigns := rfl
@[simp] theorem State.onReq_dlogs (m : Nat) (f : Requester → Requester) : (s.onReq m f).dlogs = s.dlogs := rfl
@[simp] theorem State.onReq_resetReqs (m : Nat) (f : Requester → Requester) : (s.onReq m f).resetReqs = s.resetReqs := rfl
@[simp] theorem State.onReq_heldReacts (m : Nat) (f : Requester → Requester) : (s.onReq m f).heldReacts = s.heldReacts := rfl
@[simp] theorem State.onReq_errPin (m : Nat) (f : Requester → Requester) : (s.onReq m f).errPin = s.errPin := rfl
@[simp] theorem State.onReq_errAt (m : Nat) (f : Requester → Requester) : (s.onReq m f).errAt = s.errAt := rfl
@[simp] theorem State.onReq_errHeld (m : Nat) (f : Requester → Requester) : (s.onReq m f).errHeld = s.errHeld := rfl
@[simp] theorem State.onReq_shutdown (m : Nat) (f : Requester → Requester) : (s.onReq m f).shutdown = s.shutdown := rfl
@[simp] theorem State.onReq_thermSeen (m : Nat) (f : Requester → Requester) : (s.onReq m f).thermSeen = s.thermSeen := rfl
@[simp] theorem State.onReq_tqs (m : Nat) (f : Requester → Requester) : (s.onReq m f).tqs = s.tqs := rfl
@[simp] theorem State.onReq_nvj (m : Nat) (f : Requester → Requester) : (s.onReq m f).nvj = s.nvj := rfl
@[simp] theorem State.onReq_svc (m : Nat) (f : Requester → Requester) : (s.onReq m f).svc = s.svc := rfl
@[simp] theorem State.onReq_twStopped (m : Nat) (f : Requester → Requester) : (s.onReq m f).twStopped = s.twStopped := rfl
@[simp] theorem State.onReq_tengs (m : Nat) (f : Requester → Requester) : (s.onReq m f).tengs = s.tengs := rfl
@[simp] theorem State.onReq_reasm (m : Nat) (f : Requester → Requester) : (s.onReq m f).reasm = s.reasm := rfl
@[simp] theorem State.onReq_ports (m : Nat) (f : Requester → Requester) : (s.onReq m f).ports = s.ports := rfl
@[simp] theorem State.onReq_ddts (m : Nat) (f : Requester → Requester) : (s.onReq m f).ddts = s.ddts := rfl
@[simp] theorem State.onReq_streams (m : Nat) (f : Requester → Requester) : (s.onReq m f).streams = s.streams := rfl
@[simp] theorem State.onReq_subs (m : Nat) (f : Requester → Requester) : (s.onReq m f).subs = s.subs := rfl
@[simp] theorem State.onReq_pubs (m : Nat) (f : Requester → Requester) : (s.onReq m f).pubs = s.pubs := rfl
@[simp] theorem State.onReq_cages (m : Nat) (f : Requester → Requester) : (s.onReq m f).cages = s.cages := rfl
@[simp] theorem State.onReq_links (m : Nat) (f : Requester → Requester) : (s.onReq m f).links = s.links := rfl
@[simp] theorem State.onReq_form (m : Nat) (f : Requester → Requester) : (s.onReq m f).form = s.form := rfl
@[simp] theorem State.onReq_pools (m : Nat) (f : Requester → Requester) : (s.onReq m f).pools = s.pools := rfl
@[simp] theorem State.onReq_yaf (m : Nat) (f : Requester → Requester) : (s.onReq m f).yaf = s.yaf := rfl
@[simp] theorem State.onReq_chip (m : Nat) (f : Requester → Requester) : (s.onReq m f).chip = s.chip := rfl
@[simp] theorem State.onReq_out (m : Nat) (f : Requester → Requester) : (s.onReq m f).out = s.out := rfl
@[simp] theorem State.onReq_reg (m : Nat) (f : Requester → Requester) (a : Nat) : (s.onReq m f).reg a = s.reg a := rfl
@[simp] theorem State.onReq_fld (m : Nat) (f : Requester → Requester) (a lo1 w1 : Nat) : (s.onReq m f).fld a lo1 w1 = s.fld a lo1 w1 := rfl
@[simp] theorem State.onReq_flag (m : Nat) (f : Requester → Requester) (a j : Nat) : (s.onReq m f).flag a j = s.flag a j := rfl
@[simp] theorem State.onReq_lp (m : Nat) (f : Requester → Requester) (m1 : Nat) : (s.onReq m f).lp m1 = s.lp m1 := rfl
@[simp] theorem State.onReq_pair (m : Nat) (f : Requester → Requester) (m1 : Nat) : (s.onReq m f).pair m1 = s.pair m1 := rfl
@[simp] theorem State.onReq_l2c (m : Nat) (f : Requester → Requester) (m1 : Nat) : (s.onReq m f).l2c m1 = s.l2c m1 := rfl
@[simp] theorem State.onReq_scs (m : Nat) (f : Requester → Requester) (m1 : Nat) : (s.onReq m f).scs m1 = s.scs m1 := rfl
@[simp] theorem State.onReq_tq (m : Nat) (f : Requester → Requester) (m1 : Nat) : (s.onReq m f).tq m1 = s.tq m1 := rfl
@[simp] theorem State.onReq_port (m : Nat) (f : Requester → Requester) (m1 : Nat) : (s.onReq m f).port m1 = s.port m1 := rfl
@[simp] theorem State.onReq_link (m : Nat) (f : Requester → Requester) (m1 : Nat) : (s.onReq m f).link m1 = s.link m1 := rfl
@[simp] theorem State.onReq_chan (m : Nat) (f : Requester → Requester) (m1 : Nat) : (s.onReq m f).chan m1 = s.chan m1 := rfl
@[simp] theorem State.onReq_now (m : Nat) (f : Requester → Requester) : (s.onReq m f).now = s.now := rfl
@[simp] theorem State.onReq_isSplit (m : Nat) (f : Requester → Requester) (m1 : Nat) : (s.onReq m f).isSplit m1 = s.isSplit m1 := rfl

/-! ### onPools -/
@[simp] theorem State.onPools_pending (f : Pools → Pools) : (s.onPools f).pending = s.pending := rfl
@[simp] theorem State.onPools_freeCount (f : Pools → Pools) : (s.onPools f).freeCount = s.freeCount := rfl
@[simp] theorem State.onPools_resp (f : Pools → Pools) : (s.onPools f).resp = s.resp := rfl
@[simp] theorem State.onPools_regs (f : Pools → Pools) : (s.onPools f).regs = s.regs := rfl
@[simp] theorem State.onPools_mem (f : Pools → Pools) : (s.onPools f).mem = s.mem := rfl
@[simp] theorem State.onPools_installed (f : Pools → Pools) : (s.onPools f).installed = s.installed := rfl
@[simp] theorem State.onPools_underL2 (f : Pools → Pools) : (s.onPools f).underL2 = s.underL2 := rfl
@[simp] theorem State.onPools_underSc (f : Pools → Pools) : (s.onPools f).underSc = s.underSc := rfl
@[simp] theorem State.onPools_poison (f : Pools → Pools) : (s.onPools f).poison = s.poison := rfl
@[simp] theorem State.onPools_lps (f : Pools → Pools) : (s.onPools f).lps = s.lps := rfl
@[simp] theorem State.onPools_pairs (f : Pools → Pools) : (s.onPools f).pairs = s.pairs := rfl
@[simp] theorem State.onPools_l2 (f : Pools → Pools) : (s.onPools f).l2 = s.l2 := rfl
@[simp] theorem State.onPools_sc (f : Pools → Pools) : (s.onPools f).sc = s.sc := rfl
@[simp] theorem State.onPools_rm (f : Pools → Pools) : (s.onPools f).rm = s.rm := rfl
@[simp] theorem State.onPools_lens (f : Pools → Pools) : (s.onPools f).lens = s.lens := rfl
@[simp] theorem State.onPools_time (f : Pools → Pools) : (s.onPools f).time = s.time := rfl
@[simp] theorem State.onPools_split (f : Pools → Pools) : (s.onPools f).split = s.split := rfl
@[simp] theorem State.onPools_ready (f : Pools → Pools) : (s.onPools f).ready = s.ready := rfl
@[simp] theorem State.onPools_chans (f : Pools → Pools) : (s.onPools f).chans = s.chans := rfl
@[simp] theorem State.onPools_epochs (f : Pools → Pools) : (s.onPools f).epochs = s.epochs := rfl
@[simp] theorem State.onPools_dbIn (f : Pools → Pools) : (s.onPools f).dbIn = s.dbIn := rfl
@[simp] theorem State.onPools_dbAt (f : Pools → Pools) : (s.onPools f).dbAt = s.dbAt := rfl
@[simp] theorem State.onPools_fns (f : Pools → Pools) : (s.onPools f).fns = s.fns := rfl
@[simp] theorem State.onPools_reqs (f : Pools → Pools) : (s.onPools f).reqs = s.reqs := rfl
@[simp] theorem State.onPools_cp1Serves (f : Pools → Pools) : (s.onPools f).cp1Serves = s.cp1Serves := rfl
@[simp] theorem State.onPools_parts (f : Pools → Pools) : (s.onPools f).parts = s.parts := rfl
@[simp] theorem State.onPools_assigns (f : Pools → Pools) : (s.onPools f).assigns = s.assigns := rfl
@[simp] theorem State.onPools_dlogs (f : Pools → Pools) : (s.onPools f).dlogs = s.dlogs := rfl
@[simp] theorem State.onPools_resetReqs (f : Pools → Pools) : (s.onPools f).resetReqs = s.resetReqs := rfl
@[simp] theorem State.onPools_heldReacts (f : Pools → Pools) : (s.onPools f).heldReacts = s.heldReacts := rfl
@[simp] theorem State.onPools_errPin (f : Pools → Pools) : (s.onPools f).errPin = s.errPin := rfl
@[simp] theorem State.onPools_errAt (f : Pools → Pools) : (s.onPools f).errAt = s.errAt := rfl
@[simp] theorem State.onPools_errHeld (f : Pools → Pools) : (s.onPools f).errHeld = s.errHeld := rfl
@[simp] theorem State.onPools_shutdown (f : Pools → Pools) : (s.onPools f).shutdown = s.shutdown := rfl
@[simp] theorem State.onPools_thermSeen (f : Pools → Pools) : (s.onPools f).thermSeen = s.thermSeen := rfl
@[simp] theorem State.onPools_tqs (f : Pools → Pools) : (s.onPools f).tqs = s.tqs := rfl
@[simp] theorem State.onPools_nvj (f : Pools → Pools) : (s.onPools f).nvj = s.nvj := rfl
@[simp] theorem State.onPools_svc (f : Pools → Pools) : (s.onPools f).svc = s.svc := rfl
@[simp] theorem State.onPools_twStopped (f : Pools → Pools) : (s.onPools f).twStopped = s.twStopped := rfl
@[simp] theorem State.onPools_tengs (f : Pools → Pools) : (s.onPools f).tengs = s.tengs := rfl
@[simp] theorem State.onPools_reasm (f : Pools → Pools) : (s.onPools f).reasm = s.reasm := rfl
@[simp] theorem State.onPools_ports (f : Pools → Pools) : (s.onPools f).ports = s.ports := rfl
@[simp] theorem State.onPools_ddts (f : Pools → Pools) : (s.onPools f).ddts = s.ddts := rfl
@[simp] theorem State.onPools_streams (f : Pools → Pools) : (s.onPools f).streams = s.streams := rfl
@[simp] theorem State.onPools_subs (f : Pools → Pools) : (s.onPools f).subs = s.subs := rfl
@[simp] theorem State.onPools_pubs (f : Pools → Pools) : (s.onPools f).pubs = s.pubs := rfl
@[simp] theorem State.onPools_cages (f : Pools → Pools) : (s.onPools f).cages = s.cages := rfl
@[simp] theorem State.onPools_links (f : Pools → Pools) : (s.onPools f).links = s.links := rfl
@[simp] theorem State.onPools_form (f : Pools → Pools) : (s.onPools f).form = s.form := rfl
@[simp] theorem State.onPools_yaf (f : Pools → Pools) : (s.onPools f).yaf = s.yaf := rfl
@[simp] theorem State.onPools_chip (f : Pools → Pools) : (s.onPools f).chip = s.chip := rfl
@[simp] theorem State.onPools_out (f : Pools → Pools) : (s.onPools f).out = s.out := rfl
@[simp] theorem State.onPools_reg (f : Pools → Pools) (a : Nat) : (s.onPools f).reg a = s.reg a := rfl
@[simp] theorem State.onPools_fld (f : Pools → Pools) (a lo1 w1 : Nat) : (s.onPools f).fld a lo1 w1 = s.fld a lo1 w1 := rfl
@[simp] theorem State.onPools_flag (f : Pools → Pools) (a j : Nat) : (s.onPools f).flag a j = s.flag a j := rfl
@[simp] theorem State.onPools_lp (f : Pools → Pools) (m1 : Nat) : (s.onPools f).lp m1 = s.lp m1 := rfl
@[simp] theorem State.onPools_pair (f : Pools → Pools) (m1 : Nat) : (s.onPools f).pair m1 = s.pair m1 := rfl
@[simp] theorem State.onPools_l2c (f : Pools → Pools) (m1 : Nat) : (s.onPools f).l2c m1 = s.l2c m1 := rfl
@[simp] theorem State.onPools_scs (f : Pools → Pools) (m1 : Nat) : (s.onPools f).scs m1 = s.scs m1 := rfl
@[simp] theorem State.onPools_tq (f : Pools → Pools) (m1 : Nat) : (s.onPools f).tq m1 = s.tq m1 := rfl
@[simp] theorem State.onPools_port (f : Pools → Pools) (m1 : Nat) : (s.onPools f).port m1 = s.port m1 := rfl
@[simp] theorem State.onPools_link (f : Pools → Pools) (m1 : Nat) : (s.onPools f).link m1 = s.link m1 := rfl
@[simp] theorem State.onPools_chan (f : Pools → Pools) (m1 : Nat) : (s.onPools f).chan m1 = s.chan m1 := rfl
@[simp] theorem State.onPools_req (f : Pools → Pools) (m1 : Nat) : (s.onPools f).req m1 = s.req m1 := rfl
@[simp] theorem State.onPools_now (f : Pools → Pools) : (s.onPools f).now = s.now := rfl
@[simp] theorem State.onPools_isSplit (f : Pools → Pools) (m1 : Nat) : (s.onPools f).isSplit m1 = s.isSplit m1 := rfl

/-! ### onDisc -/
@[simp] theorem State.onDisc_pending (f : Disc → Disc) : (s.onDisc f).pending = s.pending := rfl
@[simp] theorem State.onDisc_freeCount (f : Disc → Disc) : (s.onDisc f).freeCount = s.freeCount := rfl
@[simp] theorem State.onDisc_resp (f : Disc → Disc) : (s.onDisc f).resp = s.resp := rfl
@[simp] theorem State.onDisc_regs (f : Disc → Disc) : (s.onDisc f).regs = s.regs := rfl
@[simp] theorem State.onDisc_mem (f : Disc → Disc) : (s.onDisc f).mem = s.mem := rfl
@[simp] theorem State.onDisc_installed (f : Disc → Disc) : (s.onDisc f).installed = s.installed := rfl
@[simp] theorem State.onDisc_underL2 (f : Disc → Disc) : (s.onDisc f).underL2 = s.underL2 := rfl
@[simp] theorem State.onDisc_underSc (f : Disc → Disc) : (s.onDisc f).underSc = s.underSc := rfl
@[simp] theorem State.onDisc_poison (f : Disc → Disc) : (s.onDisc f).poison = s.poison := rfl
@[simp] theorem State.onDisc_lps (f : Disc → Disc) : (s.onDisc f).lps = s.lps := rfl
@[simp] theorem State.onDisc_pairs (f : Disc → Disc) : (s.onDisc f).pairs = s.pairs := rfl
@[simp] theorem State.onDisc_l2 (f : Disc → Disc) : (s.onDisc f).l2 = s.l2 := rfl
@[simp] theorem State.onDisc_sc (f : Disc → Disc) : (s.onDisc f).sc = s.sc := rfl
@[simp] theorem State.onDisc_rm (f : Disc → Disc) : (s.onDisc f).rm = s.rm := rfl
@[simp] theorem State.onDisc_lens (f : Disc → Disc) : (s.onDisc f).lens = s.lens := rfl
@[simp] theorem State.onDisc_time (f : Disc → Disc) : (s.onDisc f).time = s.time := rfl
@[simp] theorem State.onDisc_split (f : Disc → Disc) : (s.onDisc f).split = s.split := rfl
@[simp] theorem State.onDisc_ready (f : Disc → Disc) : (s.onDisc f).ready = s.ready := rfl
@[simp] theorem State.onDisc_chans (f : Disc → Disc) : (s.onDisc f).chans = s.chans := rfl
@[simp] theorem State.onDisc_epochs (f : Disc → Disc) : (s.onDisc f).epochs = s.epochs := rfl
@[simp] theorem State.onDisc_dbIn (f : Disc → Disc) : (s.onDisc f).dbIn = s.dbIn := rfl
@[simp] theorem State.onDisc_dbAt (f : Disc → Disc) : (s.onDisc f).dbAt = s.dbAt := rfl
@[simp] theorem State.onDisc_fns (f : Disc → Disc) : (s.onDisc f).fns = s.fns := rfl
@[simp] theorem State.onDisc_reqs (f : Disc → Disc) : (s.onDisc f).reqs = s.reqs := rfl
@[simp] theorem State.onDisc_cp1Serves (f : Disc → Disc) : (s.onDisc f).cp1Serves = s.cp1Serves := rfl
@[simp] theorem State.onDisc_parts (f : Disc → Disc) : (s.onDisc f).parts = s.parts := rfl
@[simp] theorem State.onDisc_assigns (f : Disc → Disc) : (s.onDisc f).assigns = s.assigns := rfl
@[simp] theorem State.onDisc_dlogs (f : Disc → Disc) : (s.onDisc f).dlogs = s.dlogs := rfl
@[simp] theorem State.onDisc_resetReqs (f : Disc → Disc) : (s.onDisc f).resetReqs = s.resetReqs := rfl
@[simp] theorem State.onDisc_heldReacts (f : Disc → Disc) : (s.onDisc f).heldReacts = s.heldReacts := rfl
@[simp] theorem State.onDisc_errPin (f : Disc → Disc) : (s.onDisc f).errPin = s.errPin := rfl
@[simp] theorem State.onDisc_errAt (f : Disc → Disc) : (s.onDisc f).errAt = s.errAt := rfl
@[simp] theorem State.onDisc_errHeld (f : Disc → Disc) : (s.onDisc f).errHeld = s.errHeld := rfl
@[simp] theorem State.onDisc_shutdown (f : Disc → Disc) : (s.onDisc f).shutdown = s.shutdown := rfl
@[simp] theorem State.onDisc_thermSeen (f : Disc → Disc) : (s.onDisc f).thermSeen = s.thermSeen := rfl
@[simp] theorem State.onDisc_tqs (f : Disc → Disc) : (s.onDisc f).tqs = s.tqs := rfl
@[simp] theorem State.onDisc_nvj (f : Disc → Disc) : (s.onDisc f).nvj = s.nvj := rfl
@[simp] theorem State.onDisc_svc (f : Disc → Disc) : (s.onDisc f).svc = s.svc := rfl
@[simp] theorem State.onDisc_twStopped (f : Disc → Disc) : (s.onDisc f).twStopped = s.twStopped := rfl
@[simp] theorem State.onDisc_tengs (f : Disc → Disc) : (s.onDisc f).tengs = s.tengs := rfl
@[simp] theorem State.onDisc_reasm (f : Disc → Disc) : (s.onDisc f).reasm = s.reasm := rfl
@[simp] theorem State.onDisc_ports (f : Disc → Disc) : (s.onDisc f).ports = s.ports := rfl
@[simp] theorem State.onDisc_ddts (f : Disc → Disc) : (s.onDisc f).ddts = s.ddts := rfl
@[simp] theorem State.onDisc_streams (f : Disc → Disc) : (s.onDisc f).streams = s.streams := rfl
@[simp] theorem State.onDisc_subs (f : Disc → Disc) : (s.onDisc f).subs = s.subs := rfl
@[simp] theorem State.onDisc_pubs (f : Disc → Disc) : (s.onDisc f).pubs = s.pubs := rfl
@[simp] theorem State.onDisc_cages (f : Disc → Disc) : (s.onDisc f).cages = s.cages := rfl
@[simp] theorem State.onDisc_links (f : Disc → Disc) : (s.onDisc f).links = s.links := rfl
@[simp] theorem State.onDisc_form (f : Disc → Disc) : (s.onDisc f).form = s.form := rfl
@[simp] theorem State.onDisc_pools (f : Disc → Disc) : (s.onDisc f).pools = s.pools := rfl
@[simp] theorem State.onDisc_chip (f : Disc → Disc) : (s.onDisc f).chip = s.chip := rfl
@[simp] theorem State.onDisc_out (f : Disc → Disc) : (s.onDisc f).out = s.out := rfl
@[simp] theorem State.onDisc_reg (f : Disc → Disc) (a : Nat) : (s.onDisc f).reg a = s.reg a := rfl
@[simp] theorem State.onDisc_fld (f : Disc → Disc) (a lo1 w1 : Nat) : (s.onDisc f).fld a lo1 w1 = s.fld a lo1 w1 := rfl
@[simp] theorem State.onDisc_flag (f : Disc → Disc) (a j : Nat) : (s.onDisc f).flag a j = s.flag a j := rfl
@[simp] theorem State.onDisc_lp (f : Disc → Disc) (m1 : Nat) : (s.onDisc f).lp m1 = s.lp m1 := rfl
@[simp] theorem State.onDisc_pair (f : Disc → Disc) (m1 : Nat) : (s.onDisc f).pair m1 = s.pair m1 := rfl
@[simp] theorem State.onDisc_l2c (f : Disc → Disc) (m1 : Nat) : (s.onDisc f).l2c m1 = s.l2c m1 := rfl
@[simp] theorem State.onDisc_scs (f : Disc → Disc) (m1 : Nat) : (s.onDisc f).scs m1 = s.scs m1 := rfl
@[simp] theorem State.onDisc_tq (f : Disc → Disc) (m1 : Nat) : (s.onDisc f).tq m1 = s.tq m1 := rfl
@[simp] theorem State.onDisc_port (f : Disc → Disc) (m1 : Nat) : (s.onDisc f).port m1 = s.port m1 := rfl
@[simp] theorem State.onDisc_link (f : Disc → Disc) (m1 : Nat) : (s.onDisc f).link m1 = s.link m1 := rfl
@[simp] theorem State.onDisc_chan (f : Disc → Disc) (m1 : Nat) : (s.onDisc f).chan m1 = s.chan m1 := rfl
@[simp] theorem State.onDisc_req (f : Disc → Disc) (m1 : Nat) : (s.onDisc f).req m1 = s.req m1 := rfl
@[simp] theorem State.onDisc_now (f : Disc → Disc) : (s.onDisc f).now = s.now := rfl
@[simp] theorem State.onDisc_isSplit (f : Disc → Disc) (m1 : Nat) : (s.onDisc f).isSplit m1 = s.isSplit m1 := rfl

/-! ### emit -/
@[simp] theorem State.emit_pending (o : Out) : (s.emit o).pending = s.pending := rfl
@[simp] theorem State.emit_freeCount (o : Out) : (s.emit o).freeCount = s.freeCount := rfl
@[simp] theorem State.emit_resp (o : Out) : (s.emit o).resp = s.resp := rfl
@[simp] theorem State.emit_regs (o : Out) : (s.emit o).regs = s.regs := rfl
@[simp] theorem State.emit_mem (o : Out) : (s.emit o).mem = s.mem := rfl
@[simp] theorem State.emit_installed (o : Out) : (s.emit o).installed = s.installed := rfl
@[simp] theorem State.emit_underL2 (o : Out) : (s.emit o).underL2 = s.underL2 := rfl
@[simp] theorem State.emit_underSc (o : Out) : (s.emit o).underSc = s.underSc := rfl
@[simp] theorem State.emit_poison (o : Out) : (s.emit o).poison = s.poison := rfl
@[simp] theorem State.emit_lps (o : Out) : (s.emit o).lps = s.lps := rfl
@[simp] theorem State.emit_pairs (o : Out) : (s.emit o).pairs = s.pairs := rfl
@[simp] theorem State.emit_l2 (o : Out) : (s.emit o).l2 = s.l2 := rfl
@[simp] theorem State.emit_sc (o : Out) : (s.emit o).sc = s.sc := rfl
@[simp] theorem State.emit_rm (o : Out) : (s.emit o).rm = s.rm := rfl
@[simp] theorem State.emit_lens (o : Out) : (s.emit o).lens = s.lens := rfl
@[simp] theorem State.emit_time (o : Out) : (s.emit o).time = s.time := rfl
@[simp] theorem State.emit_split (o : Out) : (s.emit o).split = s.split := rfl
@[simp] theorem State.emit_ready (o : Out) : (s.emit o).ready = s.ready := rfl
@[simp] theorem State.emit_chans (o : Out) : (s.emit o).chans = s.chans := rfl
@[simp] theorem State.emit_epochs (o : Out) : (s.emit o).epochs = s.epochs := rfl
@[simp] theorem State.emit_dbIn (o : Out) : (s.emit o).dbIn = s.dbIn := rfl
@[simp] theorem State.emit_dbAt (o : Out) : (s.emit o).dbAt = s.dbAt := rfl
@[simp] theorem State.emit_fns (o : Out) : (s.emit o).fns = s.fns := rfl
@[simp] theorem State.emit_reqs (o : Out) : (s.emit o).reqs = s.reqs := rfl
@[simp] theorem State.emit_cp1Serves (o : Out) : (s.emit o).cp1Serves = s.cp1Serves := rfl
@[simp] theorem State.emit_parts (o : Out) : (s.emit o).parts = s.parts := rfl
@[simp] theorem State.emit_assigns (o : Out) : (s.emit o).assigns = s.assigns := rfl
@[simp] theorem State.emit_dlogs (o : Out) : (s.emit o).dlogs = s.dlogs := rfl
@[simp] theorem State.emit_resetReqs (o : Out) : (s.emit o).resetReqs = s.resetReqs := rfl
@[simp] theorem State.emit_heldReacts (o : Out) : (s.emit o).heldReacts = s.heldReacts := rfl
@[simp] theorem State.emit_errPin (o : Out) : (s.emit o).errPin = s.errPin := rfl
@[simp] theorem State.emit_errAt (o : Out) : (s.emit o).errAt = s.errAt := rfl
@[simp] theorem State.emit_errHeld (o : Out) : (s.emit o).errHeld = s.errHeld := rfl
@[simp] theorem State.emit_shutdown (o : Out) : (s.emit o).shutdown = s.shutdown := rfl
@[simp] theorem State.emit_thermSeen (o : Out) : (s.emit o).thermSeen = s.thermSeen := rfl
@[simp] theorem State.emit_tqs (o : Out) : (s.emit o).tqs = s.tqs := rfl
@[simp] theorem State.emit_nvj (o : Out) : (s.emit o).nvj = s.nvj := rfl
@[simp] theorem State.emit_svc (o : Out) : (s.emit o).svc = s.svc := rfl
@[simp] theorem State.emit_twStopped (o : Out) : (s.emit o).twStopped = s.twStopped := rfl
@[simp] theorem State.emit_tengs (o : Out) : (s.emit o).tengs = s.tengs := rfl
@[simp] theorem State.emit_reasm (o : Out) : (s.emit o).reasm = s.reasm := rfl
@[simp] theorem State.emit_ports (o : Out) : (s.emit o).ports = s.ports := rfl
@[simp] theorem State.emit_ddts (o : Out) : (s.emit o).ddts = s.ddts := rfl
@[simp] theorem State.emit_streams (o : Out) : (s.emit o).streams = s.streams := rfl
@[simp] theorem State.emit_subs (o : Out) : (s.emit o).subs = s.subs := rfl
@[simp] theorem State.emit_pubs (o : Out) : (s.emit o).pubs = s.pubs := rfl
@[simp] theorem State.emit_cages (o : Out) : (s.emit o).cages = s.cages := rfl
@[simp] theorem State.emit_links (o : Out) : (s.emit o).links = s.links := rfl
@[simp] theorem State.emit_form (o : Out) : (s.emit o).form = s.form := rfl
@[simp] theorem State.emit_pools (o : Out) : (s.emit o).pools = s.pools := rfl
@[simp] theorem State.emit_yaf (o : Out) : (s.emit o).yaf = s.yaf := rfl
@[simp] theorem State.emit_chip (o : Out) : (s.emit o).chip = s.chip := rfl
@[simp] theorem State.emit_reg (o : Out) (a : Nat) : (s.emit o).reg a = s.reg a := rfl
@[simp] theorem State.emit_fld (o : Out) (a lo1 w1 : Nat) : (s.emit o).fld a lo1 w1 = s.fld a lo1 w1 := rfl
@[simp] theorem State.emit_flag (o : Out) (a j : Nat) : (s.emit o).flag a j = s.flag a j := rfl
@[simp] theorem State.emit_lp (o : Out) (m1 : Nat) : (s.emit o).lp m1 = s.lp m1 := rfl
@[simp] theorem State.emit_pair (o : Out) (m1 : Nat) : (s.emit o).pair m1 = s.pair m1 := rfl
@[simp] theorem State.emit_l2c (o : Out) (m1 : Nat) : (s.emit o).l2c m1 = s.l2c m1 := rfl
@[simp] theorem State.emit_scs (o : Out) (m1 : Nat) : (s.emit o).scs m1 = s.scs m1 := rfl
@[simp] theorem State.emit_tq (o : Out) (m1 : Nat) : (s.emit o).tq m1 = s.tq m1 := rfl
@[simp] theorem State.emit_port (o : Out) (m1 : Nat) : (s.emit o).port m1 = s.port m1 := rfl
@[simp] theorem State.emit_link (o : Out) (m1 : Nat) : (s.emit o).link m1 = s.link m1 := rfl
@[simp] theorem State.emit_chan (o : Out) (m1 : Nat) : (s.emit o).chan m1 = s.chan m1 := rfl
@[simp] theorem State.emit_req (o : Out) (m1 : Nat) : (s.emit o).req m1 = s.req m1 := rfl
@[simp] theorem State.emit_now (o : Out) : (s.emit o).now = s.now := rfl
@[simp] theorem State.emit_isSplit (o : Out) (m1 : Nat) : (s.emit o).isSplit m1 = s.isSplit m1 := rfl

/-! ### answer -/
@[simp] theorem State.answer_pending (r : Resp) : (s.answer r).pending = s.pending := rfl
@[simp] theorem State.answer_freeCount (r : Resp) : (s.answer r).freeCount = s.freeCount := rfl
@[simp] theorem State.answer_regs (r : Resp) : (s.answer r).regs = s.regs := rfl
@[simp] theorem State.answer_mem (r : Resp) : (s.answer r).mem = s.mem := rfl
@[simp] theorem State.answer_installed (r : Resp) : (s.answer r).installed = s.installed := rfl
@[simp] theorem State.answer_underL2 (r : Resp) : (s.answer r).underL2 = s.underL2 := rfl
@[simp] theorem State.answer_underSc (r : Resp) : (s.answer r).underSc = s.underSc := rfl
@[simp] theorem State.answer_poison (r : Resp) : (s.answer r).poison = s.poison := rfl
@[simp] theorem State.answer_lps (r : Resp) : (s.answer r).lps = s.lps := rfl
@[simp] theorem State.answer_pairs (r : Resp) : (s.answer r).pairs = s.pairs := rfl
@[simp] theorem State.answer_l2 (r : Resp) : (s.answer r).l2 = s.l2 := rfl
@[simp] theorem State.answer_sc (r : Resp) : (s.answer r).sc = s.sc := rfl
@[simp] theorem State.answer_rm (r : Resp) : (s.answer r).rm = s.rm := rfl
@[simp] theorem State.answer_lens (r : Resp) : (s.answer r).lens = s.lens := rfl
@[simp] theorem State.answer_time (r : Resp) : (s.answer r).time = s.time := rfl
@[simp] theorem State.answer_split (r : Resp) : (s.answer r).split = s.split := rfl
@[simp] theorem State.answer_ready (r : Resp) : (s.answer r).ready = s.ready := rfl
@[simp] theorem State.answer_chans (r : Resp) : (s.answer r).chans = s.chans := rfl
@[simp] theorem State.answer_epochs (r : Resp) : (s.answer r).epochs = s.epochs := rfl
@[simp] theorem State.answer_dbIn (r : Resp) : (s.answer r).dbIn = s.dbIn := rfl
@[simp] theorem State.answer_dbAt (r : Resp) : (s.answer r).dbAt = s.dbAt := rfl
@[simp] theorem State.answer_fns (r : Resp) : (s.answer r).fns = s.fns := rfl
@[simp] theorem State.answer_reqs (r : Resp) : (s.answer r).reqs = s.reqs := rfl
@[simp] theorem State.answer_cp1Serves (r : Resp) : (s.answer r).cp1Serves = s.cp1Serves := rfl
@[simp] theorem State.answer_parts (r : Resp) : (s.answer r).parts = s.parts := rfl
@[simp] theorem State.answer_assigns (r : Resp) : (s.answer r).assigns = s.assigns := rfl
@[simp] theorem State.answer_dlogs (r : Resp) : (s.answer r).dlogs = s.dlogs := rfl
@[simp] theorem State.answer_resetReqs (r : Resp) : (s.answer r).resetReqs = s.resetReqs := rfl
@[simp] theorem State.answer_heldReacts (r : Resp) : (s.answer r).heldReacts = s.heldReacts := rfl
@[simp] theorem State.answer_errPin (r : Resp) : (s.answer r).errPin = s.errPin := rfl
@[simp] theorem State.answer_errAt (r : Resp) : (s.answer r).errAt = s.errAt := rfl
@[simp] theorem State.answer_errHeld (r : Resp) : (s.answer r).errHeld = s.errHeld := rfl
@[simp] theorem State.answer_shutdown (r : Resp) : (s.answer r).shutdown = s.shutdown := rfl
@[simp] theorem State.answer_thermSeen (r : Resp) : (s.answer r).thermSeen = s.thermSeen := rfl
@[simp] theorem State.answer_tqs (r : Resp) : (s.answer r).tqs = s.tqs := rfl
@[simp] theorem State.answer_nvj (r : Resp) : (s.answer r).nvj = s.nvj := rfl
@[simp] theorem State.answer_svc (r : Resp) : (s.answer r).svc = s.svc := rfl
@[simp] theorem State.answer_twStopped (r : Resp) : (s.answer r).twStopped = s.twStopped := rfl
@[simp] theorem State.answer_tengs (r : Resp) : (s.answer r).tengs = s.tengs := rfl
@[simp] theorem State.answer_reasm (r : Resp) : (s.answer r).reasm = s.reasm := rfl
@[simp] theorem State.answer_ports (r : Resp) : (s.answer r).ports = s.ports := rfl
@[simp] theorem State.answer_ddts (r : Resp) : (s.answer r).ddts = s.ddts := rfl
@[simp] theorem State.answer_streams (r : Resp) : (s.answer r).streams = s.streams := rfl
@[simp] theorem State.answer_subs (r : Resp) : (s.answer r).subs = s.subs := rfl
@[simp] theorem State.answer_pubs (r : Resp) : (s.answer r).pubs = s.pubs := rfl
@[simp] theorem State.answer_cages (r : Resp) : (s.answer r).cages = s.cages := rfl
@[simp] theorem State.answer_links (r : Resp) : (s.answer r).links = s.links := rfl
@[simp] theorem State.answer_form (r : Resp) : (s.answer r).form = s.form := rfl
@[simp] theorem State.answer_pools (r : Resp) : (s.answer r).pools = s.pools := rfl
@[simp] theorem State.answer_yaf (r : Resp) : (s.answer r).yaf = s.yaf := rfl
@[simp] theorem State.answer_chip (r : Resp) : (s.answer r).chip = s.chip := rfl
@[simp] theorem State.answer_out (r : Resp) : (s.answer r).out = s.out := rfl
@[simp] theorem State.answer_reg (r : Resp) (a : Nat) : (s.answer r).reg a = s.reg a := rfl
@[simp] theorem State.answer_fld (r : Resp) (a lo1 w1 : Nat) : (s.answer r).fld a lo1 w1 = s.fld a lo1 w1 := rfl
@[simp] theorem State.answer_flag (r : Resp) (a j : Nat) : (s.answer r).flag a j = s.flag a j := rfl
@[simp] theorem State.answer_lp (r : Resp) (m1 : Nat) : (s.answer r).lp m1 = s.lp m1 := rfl
@[simp] theorem State.answer_pair (r : Resp) (m1 : Nat) : (s.answer r).pair m1 = s.pair m1 := rfl
@[simp] theorem State.answer_l2c (r : Resp) (m1 : Nat) : (s.answer r).l2c m1 = s.l2c m1 := rfl
@[simp] theorem State.answer_scs (r : Resp) (m1 : Nat) : (s.answer r).scs m1 = s.scs m1 := rfl
@[simp] theorem State.answer_tq (r : Resp) (m1 : Nat) : (s.answer r).tq m1 = s.tq m1 := rfl
@[simp] theorem State.answer_port (r : Resp) (m1 : Nat) : (s.answer r).port m1 = s.port m1 := rfl
@[simp] theorem State.answer_link (r : Resp) (m1 : Nat) : (s.answer r).link m1 = s.link m1 := rfl
@[simp] theorem State.answer_chan (r : Resp) (m1 : Nat) : (s.answer r).chan m1 = s.chan m1 := rfl
@[simp] theorem State.answer_req (r : Resp) (m1 : Nat) : (s.answer r).req m1 = s.req m1 := rfl
@[simp] theorem State.answer_now (r : Resp) : (s.answer r).now = s.now := rfl
@[simp] theorem State.answer_isSplit (r : Resp) (m1 : Nat) : (s.answer r).isSplit m1 = s.isSplit m1 := rfl

/-! ### What the updates write -/
@[simp] theorem State.onLp_lp_same (n : Nat) (f : LP → LP) : (s.onLp n f).lp n = f (s.lp n) := tblGetD_tblSet_same _ _ _ _
theorem State.onLp_lp_other {n m : Nat} (f : LP → LP) (h : n ≠ m) : (s.onLp n f).lp m = s.lp m := tblGetD_tblSet_other _ _ _ h
@[simp] theorem State.onPair_pair_same (n : Nat) (f : Pair → Pair) : (s.onPair n f).pair n = f (s.pair n) := tblGetD_tblSet_same _ _ _ _
theorem State.onPair_pair_other {n m : Nat} (f : Pair → Pair) (h : n ≠ m) : (s.onPair n f).pair m = s.pair m := tblGetD_tblSet_other _ _ _ h
@[simp] theorem State.onL2_l2c_same (n : Nat) (f : Cache → Cache) : (s.onL2 n f).l2c n = f (s.l2c n) := tblGetD_tblSet_same _ _ _ _
theorem State.onL2_l2c_other {n m : Nat} (f : Cache → Cache) (h : n ≠ m) : (s.onL2 n f).l2c m = s.l2c m := tblGetD_tblSet_other _ _ _ h
@[simp] theorem State.onSc_scs_same (n : Nat) (f : Cache → Cache) : (s.onSc n f).scs n = f (s.scs n) := tblGetD_tblSet_same _ _ _ _
theorem State.onSc_scs_other {n m : Nat} (f : Cache → Cache) (h : n ≠ m) : (s.onSc n f).scs m = s.scs m := tblGetD_tblSet_other _ _ _ h
@[simp] theorem State.onTq_tq_same (n : Nat) (f : TQueue → TQueue) : (s.onTq n f).tq n = f (s.tq n) := tblGetD_tblSet_same _ _ _ _
theorem State.onTq_tq_other {n m : Nat} (f : TQueue → TQueue) (h : n ≠ m) : (s.onTq n f).tq m = s.tq m := tblGetD_tblSet_other _ _ _ h
@[simp] theorem State.onPort_port_same (n : Nat) (f : Port → Port) : (s.onPort n f).port n = f (s.port n) := tblGetD_tblSet_same _ _ _ _
theorem State.onPort_port_other {n m : Nat} (f : Port → Port) (h : n ≠ m) : (s.onPort n f).port m = s.port m := tblGetD_tblSet_other _ _ _ h
@[simp] theorem State.onLink_link_same (n : Nat) (f : Link → Link) : (s.onLink n f).link n = f (s.link n) := tblGetD_tblSet_same _ _ _ _
theorem State.onLink_link_other {n m : Nat} (f : Link → Link) (h : n ≠ m) : (s.onLink n f).link m = s.link m := tblGetD_tblSet_other _ _ _ h
@[simp] theorem State.onChan_chan_same (n : Nat) (f : Chan → Chan) : (s.onChan n f).chan n = f (s.chan n) := tblGetD_tblSet_same _ _ _ _
theorem State.onChan_chan_other {n m : Nat} (f : Chan → Chan) (h : n ≠ m) : (s.onChan n f).chan m = s.chan m := tblGetD_tblSet_other _ _ _ h
@[simp] theorem State.onReq_req_same (n : Nat) (f : Requester → Requester) : (s.onReq n f).req n = f (s.req n) := tblGetD_tblSet_same _ _ _ _
theorem State.onReq_req_other {n m : Nat} (f : Requester → Requester) (h : n ≠ m) : (s.onReq n f).req m = s.req m := tblGetD_tblSet_other _ _ _ h
@[simp] theorem State.setLp_lp_same (n : Nat) (p : LP) : (s.setLp n p).lp n = p := tblGetD_tblSet_same _ _ _ _
theorem State.setLp_lp_other {n m : Nat} (p : LP) (h : n ≠ m) : (s.setLp n p).lp m = s.lp m := tblGetD_tblSet_other _ _ _ h
@[simp] theorem State.onPools_pools (f : Pools → Pools) : (s.onPools f).pools = f s.pools := rfl
@[simp] theorem State.emit_out (o : Out) : (s.emit o).out = s.out ++ [o] := rfl
@[simp] theorem State.answer_resp (r : Resp) : (s.answer r).resp = r := rfl
theorem State.setReg_reg_same (o v : Nat) : (s.setReg o v).reg o = v % 2 ^ 64 := by simp [State.setReg, State.reg]
theorem State.setReg_reg_other {o a : Nat} (v : Nat) (h : o ≠ a) : (s.setReg o v).reg a = s.reg a := by
  simp [State.setReg, State.reg, tblGet?_tblSet_other _ _ h]
theorem State.setFld_reg_other {o a : Nat} (lo w v : Nat) (h : o ≠ a) : (s.setFld o lo w v).reg a = s.reg a :=
  s.setReg_reg_other _ h
theorem State.setFlag_reg_other {o a : Nat} (i : Nat) (b : Bool) (h : o ≠ a) : (s.setFlag o i b).reg a = s.reg a :=
  s.setReg_reg_other _ h

/-! ### Fields and bits -/

theorem bits_lt (v lo w : Nat) : bits v lo w < 2 ^ w := Nat.mod_lt _ (Nat.two_pow_pos w)

/-- A bit of a number is its bit. -/
theorem bitOf_eq_testBit (v i : Nat) : bitOf v i = v.testBit i := by
  rw [bitOf, Nat.testBit_eq_decide_div_mod_eq]; rfl
/-- A field replaced, as the three parts of the number. -/
theorem setBits_eq (v lo w x : Nat) :
    setBits v lo w x = 2 ^ lo * (2 ^ w * (v / 2 ^ lo / 2 ^ w) + x % 2 ^ w) + v % 2 ^ lo := by
  have h1 : 2 ^ lo * (v / 2 ^ lo) + v % 2 ^ lo = v := Nat.div_add_mod v _
  have h2 : 2 ^ w * (v / 2 ^ lo / 2 ^ w) + v / 2 ^ lo % 2 ^ w = v / 2 ^ lo := Nat.div_add_mod _ _
  simp only [setBits, bits]
  generalize v / 2 ^ lo % 2 ^ w = m at *
  generalize x % 2 ^ w = y at *
  generalize 2 ^ w * (v / 2 ^ lo / 2 ^ w) = hi at *
  generalize v % 2 ^ lo = low at *
  generalize v / 2 ^ lo = q at *
  subst h2
  rw [Nat.mul_comm m, Nat.mul_comm y, Nat.mul_add, ← h1, Nat.mul_add]
  omega
/-- A field replaced, bit by bit. -/
theorem bitOf_setBits (v lo w x i : Nat) :
    bitOf (setBits v lo w x) i = if lo ≤ i ∧ i < lo + w then bitOf x (i - lo) else bitOf v i := by
  have hm : v % 2 ^ lo < 2 ^ lo := Nat.mod_lt _ (Nat.two_pow_pos lo)
  have hx : x % 2 ^ w < 2 ^ w := Nat.mod_lt _ (Nat.two_pow_pos w)
  simp only [bitOf_eq_testBit, setBits_eq, Nat.testBit_two_pow_mul_add _ hm, Nat.testBit_two_pow_mul_add _ hx]
  by_cases h1 : i < lo
  · rw [if_pos h1, if_neg (by omega), Nat.testBit_mod_two_pow]; simp [h1]
  · by_cases h2 : i - lo < w
    · rw [if_neg h1, if_pos h2, if_pos (by omega), Nat.testBit_mod_two_pow]; simp [h2]
    · rw [if_neg h1, if_neg h2, if_neg (by omega), Nat.testBit_div_two_pow, Nat.testBit_div_two_pow]
      congr 1; omega
/-- A bit written, bit by bit. -/
theorem bitOf_setBit (v i j : Nat) (b : Bool) : bitOf (setBit v i b) j = if j = i then b else bitOf v j := by
  rw [setBit, bitOf_setBits]
  by_cases h : j = i
  · subst h; rw [if_pos (by omega), if_pos rfl]; cases b <;> simp [bitOf, bit01]
  · rw [if_neg (by omega), if_neg h]
/-- The field that was replaced. -/
theorem bits_setBits_same (v lo w x : Nat) : bits (setBits v lo w x) lo w = x % 2 ^ w := by
  have hm : v % 2 ^ lo < 2 ^ lo := Nat.mod_lt _ (Nat.two_pow_pos lo)
  rw [bits, setBits_eq, Nat.mul_add_div (Nat.two_pow_pos lo), Nat.div_eq_of_lt hm, Nat.add_zero, Nat.mul_add_mod, Nat.mod_mod]
/-- A field that does not meet the one replaced. -/
theorem bits_setBits_other (v lo w x lo' w' : Nat) (h : lo' + w' ≤ lo ∨ lo + w ≤ lo') :
    bits (setBits v lo w x) lo' w' = bits v lo' w' := by
  apply Nat.eq_of_testBit_eq
  intro i
  have key : ∀ j : Nat, (bits j lo' w').testBit i = (decide (i < w') && bitOf j (lo' + i)) := by
    intro j; simp [bits, Nat.testBit_mod_two_pow, Nat.testBit_div_two_pow, bitOf_eq_testBit, Nat.add_comm]
  rw [key, key, bitOf_setBits]
  by_cases hi : i < w'
  · rw [if_neg (by omega)]
  · simp [hi]
/-- A field replaced keeps the width. -/
theorem setBits_lt {v lo w x k : Nat} (hv : v < 2 ^ k) (h : lo + w ≤ k) : setBits v lo w x < 2 ^ k := by
  apply Nat.lt_pow_two_of_testBit
  intro i hi
  rw [← bitOf_eq_testBit, bitOf_setBits, if_neg (by omega), bitOf_eq_testBit]
  exact Nat.testBit_lt_two_pow (Nat.lt_of_lt_of_le hv (Nat.pow_le_pow_right (by omega) hi))
/-- Bits and fields of a register after a write of one of its bits or fields, and of the others. -/
theorem State.setFld_reg_same (s : State) (o : Nat) {lo w : Nat} (v : Nat) (h : lo + w ≤ 64) :
    (s.setFld o lo w v).reg o = setBits (s.reg o) lo w v := by
  rw [State.setFld, State.setReg_reg_same, Nat.mod_eq_of_lt (setBits_lt (s.reg_lt o) h)]
theorem State.setFld_fld_same (s : State) (o : Nat) {lo w : Nat} (v : Nat) (h : lo + w ≤ 64) :
    (s.setFld o lo w v).fld o lo w = v % 2 ^ w := by
  rw [State.fld, s.setFld_reg_same o v h, bits_setBits_same]
theorem State.setFld_fld_apart (s : State) (o : Nat) {lo w lo1 w1 : Nat} (v : Nat) (h : lo + w ≤ 64)
    (a : lo1 + w1 ≤ lo ∨ lo + w ≤ lo1) : (s.setFld o lo w v).fld o lo1 w1 = s.fld o lo1 w1 := by
  rw [State.fld, s.setFld_reg_same o v h, bits_setBits_other _ _ _ _ _ _ a, State.fld]
theorem State.setFld_flag (s : State) (o : Nat) {lo w : Nat} (v i : Nat) (h : lo + w ≤ 64) :
    (s.setFld o lo w v).flag o i = if lo ≤ i ∧ i < lo + w then bitOf v (i - lo) else s.flag o i := by
  rw [State.flag, s.setFld_reg_same o v h, bitOf_setBits, State.flag]
theorem State.setFlag_reg_same (s : State) (o : Nat) {i : Nat} (b : Bool) (h : i < 64) :
    (s.setFlag o i b).reg o = setBit (s.reg o) i b := by
  rw [State.setFlag, State.setReg_reg_same, setBit, Nat.mod_eq_of_lt (setBits_lt (s.reg_lt o) (by omega))]
theorem State.setFlag_flag (s : State) (o : Nat) {i : Nat} (j : Nat) (b : Bool) (h : i < 64) :
    (s.setFlag o i b).flag o j = if j = i then b else s.flag o j := by
  rw [State.flag, s.setFlag_reg_same o b h, bitOf_setBit, State.flag]
theorem State.setFlag_fld_apart (s : State) (o : Nat) {i lo w : Nat} (b : Bool) (h : i < 64) (a : lo + w ≤ i ∨ i + 1 ≤ lo) :
    (s.setFlag o i b).fld o lo w = s.fld o lo w := by
  rw [State.fld, s.setFlag_reg_same o b h, setBit, bits_setBits_other _ _ _ _ _ _ a, State.fld]
theorem State.setFld_fld_off (s : State) {o a : Nat} (lo w v lo1 w1 : Nat) (h : o ≠ a) :
    (s.setFld o lo w v).fld a lo1 w1 = s.fld a lo1 w1 := by rw [State.fld, s.setFld_reg_other lo w v h, State.fld]
theorem State.setFlag_flag_off (s : State) {o a : Nat} (i j : Nat) (b : Bool) (h : o ≠ a) :
    (s.setFlag o i b).flag a j = s.flag a j := by rw [State.flag, s.setFlag_reg_other i b h, State.flag]

end Sys2Proof.Machine
end

