-- ==== Sys2Proof/Laws/Ops.lean ====
section
/-! SUPPORT. What the shared operations of a logical processor do, said once: stores put into the store buffer, counters, fills and loads. -/

namespace Sys2Proof.Machine

/-- With room in the store buffer, an entry is put behind the others, and nothing else changes. -/
theorem State.push_room {s : State} {n : Nat} (e : SbEntry) (h : (s.lp n).sb.length < 32) :
    s.push n e = s.onLp n fun p => { p with sb := p.sb ++ [e] } := by
  rw [State.push, if_neg (by omega)]

/-- The pieces of a store are at most one for each 8 bytes and one more, none below its address. -/
theorem cutStore_length : ∀ (k a : Nat) (bs : List Byte), (cutStore a bs k).length ≤ (bs.length + a % 8 + 7) / 8
  | 0, a, bs => by simp [cutStore]
  | k + 1, a, bs => by
    rw [cutStore]
    split
    · simp
    · rename_i h
      have hl : 0 < bs.length := by cases bs <;> simp_all
      have ih := cutStore_length k (a + (8 - a % 8)) (bs.drop (8 - a % 8))
      have ha : (a + (8 - a % 8)) % 8 = 0 := by omega
      simp only [List.length_cons, List.length_drop, ha] at ih ⊢
      omega

theorem cutStore_addr : ∀ (k a : Nat) (bs : List Byte), ∀ e ∈ cutStore a bs k, a ≤ e.1
  | 0, _, _, e, h => by simp [cutStore] at h
  | k + 1, a, bs, e, h => by
    rw [cutStore] at h
    split at h
    · simp at h
    · rcases List.mem_cons.1 h with rfl | h
      · simp
      · have := cutStore_addr k _ _ e h; omega

theorem tblSet_tblSet_same {α : Type} : ∀ (t : Tbl α) (n : Nat) (x y : α), tblSet (tblSet t n x) n y = tblSet t n y
  | [], n, x, y => by simp [tblSet]
  | (k, v) :: t, n, x, y => by
    simp only [tblSet]
    split
    · simp [tblSet]
    · split
      · simp [tblSet]
      · simp only [tblSet]
        rw [if_neg ‹_›, if_neg ‹_›, tblSet_tblSet_same t]

/-- Two changes of one logical processor are one. -/
theorem State.onLp_onLp (s : State) (n : Nat) (f g : LP → LP) : (s.onLp n f).onLp n g = s.onLp n fun p => g (f p) := by
  simp only [State.onLp, State.setLp, State.lp, tblGetD_tblSet_same, tblSet_tblSet_same]

/-- What a list of pieces put into a store buffer with room leaves. -/
theorem State.push_all {n : Nat} {t : MemType} : ∀ (l : List (Nat × List Byte)) (s : State), (s.lp n).sb.length + l.length ≤ 32 → l ≠ [] →
    l.foldl (fun (u : State) e => u.push n ⟨.store t, e.1, e.2, (u.lp n).level, false⟩) s =
      s.onLp n fun p => { p with sb := p.sb ++ l.map fun e => (⟨.store t, e.1, e.2, p.level, false⟩ : SbEntry) }
  | [], _, _, h => absurd rfl h
  | [e], s, h, _ => by
    simp only [List.length_cons, List.length_nil] at h
    rw [List.foldl_cons, State.push_room _ (by omega)]
    rfl
  | e :: e1 :: l, s, h, _ => by
    simp only [List.length_cons] at h
    rw [List.foldl_cons, State.push_room _ (by omega), State.push_all (e1 :: l) _ (by simp; omega) (by simp), State.onLp_onLp]
    simp only [State.onLp, List.map_cons, List.append_assoc, List.cons_append, List.nil_append, LP.level]

/-- A store of some bytes into a store buffer with room (02 R40, 04 R134). -/
theorem State.store_room {s : State} {n a : Nat} {t : MemType} {bs : List Byte} (hb : bs ≠ [])
    (h : (s.lp n).sb.length + (bs.length + a % 8 + 7) / 8 ≤ 32) :
    s.store n a t bs = s.onLp n fun p => LP.mirror { p with
      sb := p.sb ++ (cutStore a bs bs.length).map fun e => (⟨.store t, e.1, e.2, p.level, false⟩ : SbEntry) } a bs := by
  have hl := cutStore_length bs.length a bs
  have hn : cutStore a bs bs.length ≠ [] := by
    cases bs with
    | nil => exact absurd rfl hb
    | cons x xs => simp [cutStore]
  rw [State.store, State.push_all _ _ (by omega) hn, State.onLp_onLp]

/-- The workspace's copy of a store changes nothing but the workspace file. -/
theorem LP.mirror_eq : ∀ (bs : List Byte) (p : LP) (a : Nat), ∃ m : Mem, p.mirror a bs = { p with wfile := m }
  | [], p, _ => ⟨p.wfile, rfl⟩
  | b :: t, p, a => by
    rw [LP.mirror]
    split
    · obtain ⟨m, h⟩ := LP.mirror_eq t { p with wfile := memSet p.wfile (a - p.wp.toNat) b } (a + 1)
      exact ⟨m, h⟩
    · exact LP.mirror_eq t p (a + 1)


/-- A counter's advance touches the counters, and the Lens interrupt bit of the slot. -/
theorem State.countLp_eq (s : State) (n i k : Nat) : ∃ (l : Tbl Nat) (u : State), u = { s with lens := l } ∧
    (s.countLp n i k = u ∨ s.countLp n i k = u.onLp n fun p => { p with lens := true }) := by
  by_cases h : 96 ≤ n
  · exact ⟨s.lens, s, rfl, .inl (if_pos h)⟩
  · have hc : ∃ l : Tbl Nat, s.count (Off.lensSlotCnt (n / 6) (n % 6) i) k = { s with lens := l } := by
      unfold State.count
      split
      · exact ⟨s.lens, rfl⟩
      · exact ⟨_, rfl⟩
    obtain ⟨l, hl⟩ := hc
    refine ⟨l, _, rfl, ?_⟩
    simp only [State.countLp, if_neg h, hl]
    split
    · exact .inr rfl
    · exact .inl rfl

/-- What a step of a logical processor's front end and counters may change: counters, the caches' fills, and the L1s and the Lens bit of
that logical processor. -/
structure Quiet (n : Nat) (s t : State) : Prop where
  mem : t.mem = s.mem
  regs : t.regs = s.regs
  poison : t.poison = s.poison
  time : t.time = s.time
  split : t.split = s.split
  others : ∀ m : Nat, m ≠ n → t.lp m = s.lp m
  own : { t.lp n with l1d := (s.lp n).l1d, l1i := (s.lp n).l1i, lens := (s.lp n).lens } = s.lp n

theorem Quiet.refl (n : Nat) (s : State) : Quiet n s s := ⟨rfl, rfl, rfl, rfl, rfl, fun _ _ => rfl, rfl⟩
theorem Quiet.trans {n : Nat} {s t u : State} (h : Quiet n s t) (k : Quiet n t u) : Quiet n s u := by
  refine ⟨k.mem.trans h.mem, k.regs.trans h.regs, k.poison.trans h.poison, k.time.trans h.time, k.split.trans h.split,
    fun m hm => (k.others m hm).trans (h.others m hm), ?_⟩
  have h1 := h.own; have h2 := k.own
  rw [← h1, ← h2]
theorem Quiet.onLp {n : Nat} {s : State} {f : LP → LP}
    (h : ∀ p, { f p with l1d := p.l1d, l1i := p.l1i, lens := p.lens } = p) : Quiet n s (s.onLp n f) :=
  ⟨rfl, rfl, rfl, rfl, rfl, fun _ hm => State.onLp_lp_other s f (Ne.symm hm), by rw [State.onLp_lp_same]; exact h _⟩
theorem State.countLp_quiet (s : State) (n i k : Nat) : Quiet n s (s.countLp n i k) := by
  obtain ⟨l, u, hu, h | h⟩ := s.countLp_eq n i k
  · rw [h, hu]; exact ⟨rfl, rfl, rfl, rfl, rfl, fun _ _ => rfl, rfl⟩
  · have h0 : Quiet n s u := by rw [hu]; exact ⟨rfl, rfl, rfl, rfl, rfl, fun _ _ => rfl, rfl⟩
    rw [h]; exact h0.trans (Quiet.onLp fun _ => rfl)
theorem State.askFill_quiet (s : State) (n line into : Nat) : Quiet n s (s.askFill n line into) := by
  unfold State.askFill
  split
  · exact Quiet.refl n s
  · split
    · exact Quiet.refl n s
    · exact ⟨rfl, rfl, rfl, rfl, rfl, fun _ _ => rfl, rfl⟩
theorem foldl_quiet {α : Type} {n : Nat} (f : State → α → State) (h : ∀ s x, Quiet n s (f s x)) :
    ∀ (l : List α) (s : State), Quiet n s (l.foldl f s)
  | [], s => Quiet.refl n s
  | x :: l, s => (h s x).trans (foldl_quiet f h l (f s x))
theorem State.missFills_quiet (s : State) (n a size : Nat) : Quiet n s (s.missFills n a size) := by
  refine foldl_quiet _ (fun t l => ?_) _ _
  split
  · exact Quiet.onLp fun _ => rfl
  · exact (t.askFill_quiet n l 0).trans (State.countLp_quiet _ _ _ _)
theorem State.fetchFills_quiet (s : State) (n len : Nat) : Quiet n s (s.fetchFills n len) := by
  refine foldl_quiet _ (fun t l => ?_) _ _
  split
  · exact Quiet.onLp fun _ => rfl
  · exact (t.askFill_quiet n l 1).trans (State.countLp_quiet _ _ _ _)

/-- A load of normal memory with nothing in the store buffer. -/
theorem State.load_quiet {s t : State} {n a size v : Nat} {mt : MemType} (hs : (s.lp n).sb = []) (hm : mt ≠ .device)
    (h : s.load n a size mt = some (t, v)) : Quiet n s t := by
  have key : Quiet n s (s.countLp n 11 1) := s.countLp_quiet n 11 1
  have hd : s.drainPast n a size (2 * (s.lp n).sb.length) = s := by rw [hs]; rfl
  cases mt with
  | device => exact absurd rfl hm
  | wb =>
    rw [State.load] at h
    by_cases hh : sbHolds (s.lp n).sb a size = true
    · simp only [hh, if_true] at h
      injection h with h; injection h with h1 h2
      rw [← h1]; exact key
    · simp only [hh, hd, if_neg (show ¬ (false = true) by decide)] at h
      simp at h
      rw [← h.2.1]; exact State.missFills_quiet _ _ _ _
  | nc =>
    rw [State.load] at h
    rotate_left
    · exact nofun
    · exact nofun
    by_cases hh : sbHolds (s.lp n).sb a size = true
    · simp only [hh, if_true] at h
      injection h with h; injection h with h1 h2
      rw [← h1]; exact key
    · simp only [hh, hd, if_neg (show ¬ (false = true) by decide)] at h
      simp at h
      rw [← h.2.1]; exact Quiet.refl n s

/-- The youngest entry that holds a byte gives it. -/
theorem sbByte_append (sb : List SbEntry) (e : SbEntry) (x : Nat) :
    sbByte (sb ++ [e]) x = if e.overlaps x 1 then e.bytes[x - e.addr]? else sbByte sb x := by
  simp only [sbByte, List.reverse_append, List.reverse_cons, List.reverse_nil, List.nil_append, List.singleton_append,
    List.find?_cons]
  cases e.overlaps x 1 <;> rfl

/-- A byte through the store buffer after the pieces of a store: the store's byte in its range, else what was there. -/
theorem sbByte_cut (t : MemType) (pr : Nat) : ∀ (fuel a : Nat) (bs : List Byte) (sb : List SbEntry) (x : Nat), bs.length ≤ fuel →
    sbByte (sb ++ (cutStore a bs fuel).map fun e => (⟨.store t, e.1, e.2, pr, false⟩ : SbEntry)) x =
      if a ≤ x ∧ x < a + bs.length then bs[x - a]? else sbByte sb x
  | 0, a, bs, sb, x, h => by
    have : bs = [] := by cases bs <;> simp_all
    subst this; first | (simp [cutStore]; done) | (simp [cutStore]; intro _ _; omega)
  | k + 1, a, bs, sb, x, h => by
    rw [cutStore]
    split
    · rename_i hb
      have : bs = [] := by cases bs <;> simp_all
      subst this; first | (simp; done) | (simp; intro _ _; omega)
    · rename_i hb
      have hl : 0 < bs.length := by cases bs <;> simp_all
      have ih := sbByte_cut t pr k (a + (8 - a % 8)) (bs.drop (8 - a % 8))
        (sb ++ [⟨.store t, a, bs.take (8 - a % 8), pr, false⟩]) x (by simp; omega)
      rw [List.map_cons, List.append_cons, ih, sbByte_append]
      simp only [SbEntry.overlaps, List.length_drop, List.length_take, List.getElem?_drop, List.getElem?_take]
      generalize hk : 8 - a % 8 = j
      have hj : 0 < j := by omega
      by_cases h1 : a + j ≤ x ∧ x < a + j + (bs.length - j)
      · rw [if_pos h1, if_pos (by omega)]; congr 1; omega
      · rw [if_neg h1]
        by_cases h2 : a ≤ x ∧ x < a + min j bs.length
        · rw [if_pos (by simp; omega), if_pos (by omega), if_pos (by omega)]
        · rw [if_neg (by simp; omega), if_neg (by omega)]

/-- A byte read after a store into a store buffer with room (06 R159). -/
theorem State.readByte_store {s : State} {n a : Nat} {t : MemType} {bs : List Byte} (hb : bs ≠ [])
    (h : (s.lp n).sb.length + (bs.length + a % 8 + 7) / 8 ≤ 32) (x : Nat) :
    (s.store n a t bs).readByte n x = if a ≤ x ∧ x < a + bs.length then (bs[x - a]?).getD 0 else s.readByte n x := by
  rw [State.store_room hb h, State.readByte, State.onLp_lp_same]
  obtain ⟨m, hm⟩ := LP.mirror_eq bs { s.lp n with
    sb := (s.lp n).sb ++ (cutStore a bs bs.length).map fun e => (⟨.store t, e.1, e.2, (s.lp n).level, false⟩ : SbEntry) } a
  rw [hm]
  simp only [sbByte_cut t _ bs.length a bs (s.lp n).sb x (Nat.le_refl _)]
  by_cases hx : a ≤ x ∧ x < a + bs.length
  · rw [if_pos hx, if_pos hx, List.getElem?_eq_getElem (by omega)]; rfl
  · rw [if_neg hx, if_neg hx]; rfl
end Sys2Proof.Machine
end

