-- ==== Sys2Proof/Laws/RegWrites.lean ====
section
/-! SUPPORT. What a command that is one write of a register does, said once: the write that its register's own rule gives. -/

namespace Sys2Proof.Machine

open Sys2Proof.Safety

/-- A write that reaches its register does what the register's own rule gives, and is answered. -/
theorem regCmd_reaches {s : State} {there : Bool} {master off size v : Nat} {nm : RegName} {ix : List Nat}
    (ht : there = true) (h : reaches s master off size nm ix = true) : ∃ d : RegDesc, s.regTo off size = .reg d ix ∧ d.name = nm ∧
      regCmd there master off size v s = .next ((s.regWrite d ix master off (v % 2 ^ (8 * size))).1.answer
        (if (s.regWrite d ix master off (v % 2 ^ (8 * size))).2 then .done else .busError)) := by
  unfold reaches at h
  simp only [Bool.and_eq_true, Bool.not_eq_true'] at h
  obtain ⟨⟨⟨hs, hp⟩, hm⟩, hr⟩ := h
  cases hg : s.regTo off size with
  | nothing => rw [hg] at hr; cases hr
  | bad => rw [hg] at hr; cases hr
  | reg d i =>
    rw [hg] at hr
    simp only [Bool.and_eq_true, beq_iff_eq] at hr
    obtain ⟨⟨hn, hi⟩, ha⟩ := hr
    subst hi
    refine ⟨d, rfl, hn, ?_⟩
    simp only [regCmd, ht, hm, Bool.and_self, if_true, State.writeBy, hs, hp, Bool.not_true, Bool.or_self, writeReg, hg, ha,
      Bool.false_eq_true, if_false]

end Sys2Proof.Machine
end

