-- ==== Sys2Proof/Tests/Slice0.lean ====
section
/-! SUPPORT. Tests of the model's author: worked examples of the manual and results worked out by hand from its tables, commands that name
what this device does not have, and, for each statement with hypotheses, a state that meets them. -/

open Sys2Proof Sys2Proof.Machine Sys2Proof.Safety

namespace Sys2Proof.Tests

-- One theorem at a time: each of them waits for the kernel, and a thread for each at once would ask for too much memory.
set_option Elab.async false

/-! ### A small device: one logical processor, running at machine level in a region of 16 MiB that everyone may use. -/

/-- The logical processor of the tests. -/
def lp0 : LP := { LP.reset with
  run := .running, pc := 0x1000, wp := 0x2000, tspM := 0x8000, tspK := 0x9000, cnt := 2, srcp := 0x5000, dstp := 0x6000
  rt := [(0, (1, 0xFFF1FF))], b := [(1, 0xFFFFFFFFFFFFFFFF), (2, 1), (3, 0x4000), (4, 0xF9), (5, 2)] }

/-- A device that holds `p` as its first logical processor, with 16 MiB of DRAM that holds `m`. -/
def dev (p : LP) (m : Mem) : State := { State.reset with ready := true, installed := 0x1000000, mem := m, lps := [(0, p)] }

/-- The device of the tests. -/
def demo : State := dev lp0 [(0x5000, 0x41), (0x5001, 0x42), (0x6000, 0x03)]

/-- The state after a command, or the state before it where there is none. -/
def after (i : Instr) (s : State) : State :=
  match exec i s with
  | .next t => t
  | _ => s

/-- A base register after an instruction of the tests' processor. -/
def br (i : Instr) (k : Nat) : Nat := ((after i demo).lp 0).breg k
/-- Its flags. -/
def fl (i : Instr) : Flags := psFlags ((after i demo).lp 0).ps
/-- Its PC. -/
def pcAfter (i : Instr) : Nat := ((after i demo).lp 0).pc.toNat
/-- A base register, and an immediate, as an operand. -/
def b (n : BitVec 4) : Spec := .base n
def im (v : BitVec 128) : Spec := .imm 0 v

/-! ### Instructions: results worked out by hand from the tables of 04 and 05 -/

theorem test_add : br (.add 0 .q (b 6) (b 1) (b 2)) 6 = 0 ∧ fl (.add 0 .q (b 6) (b 1) (b 2)) = ⟨false, true, false, true⟩ := by
  decide +kernel
theorem test_adc_sbc : br (.adc 0 .b (b 6) (im 0x7F) (im 1)) 6 = 0x80 ∧ fl (.adc 0 .b (b 6) (im 0x7F) (im 1)) = ⟨true, false, true, false⟩ ∧
    br (.sbc 0 .h (b 6) (im 0) (im 1)) 6 = 0xFFFF ∧ fl (.sbc 0 .h (b 6) (im 0) (im 1)) = ⟨true, false, false, true⟩ := by decide +kernel
theorem test_sub_cmp : br (.sub 0 .w (b 6) (im 0x80000000) (im 1)) 6 = 0x7FFFFFFF ∧
    fl (.sub 0 .w (b 6) (im 0x80000000) (im 1)) = ⟨false, false, true, false⟩ ∧
    fl (.cmp 0 .o (.lit 3) (.lit 5)) = ⟨true, false, false, true⟩ := by decide +kernel
theorem test_logic : br (.and 0 .q (b 6) (im 12) (im 10)) 6 = 8 ∧ br (.or 0 .q (b 6) (im 12) (im 10)) 6 = 14 ∧
    br (.xor 0 .q (b 6) (im 12) (im 10)) 6 = 6 ∧ fl (.tst 0 .b (im 0x80) (im 0xFF)) = ⟨true, false, false, false⟩ := by decide +kernel
theorem test_shift : br (.shl 0 .b (b 6) (im 0x81) (im 1)) 6 = 2 ∧ fl (.shl 0 .b (b 6) (im 0x81) (im 1)) = ⟨false, false, false, true⟩ ∧
    br (.shr 0 .b (b 6) (im 0x81) (im 8)) 6 = 0 ∧ fl (.shr 0 .b (b 6) (im 0x81) (im 8)) = ⟨false, true, false, true⟩ := by decide +kernel
theorem test_shift_more : br (.sar 0 .b (b 6) (im 0x80) (im 9)) 6 = 0xFF ∧ fl (.sar 0 .b (b 6) (im 0x80) (im 9)) = ⟨true, false, false, true⟩ ∧
    br (.rot 0 .h (b 6) (im 0x8001) (im 17)) 6 = 3 ∧ fl (.rot 0 .h (b 6) (im 0x8001) (im 16)) = ⟨true, false, false, false⟩ := by
  decide +kernel
theorem test_mul_div : br (.mul 0 .b (b 6) (im 0xF0) (im 9)) 6 = 0x70 ∧ fl (.mul 0 .b (b 6) (im 0xF0) (im 9)) = ⟨false, false, true, true⟩ ∧
    br (.div 0 .b (b 6) (b 4) (b 5)) 6 = 0xFD ∧ br (.divu 0 .b (b 6) (b 4) (b 5)) 6 = 124 := by decide +kernel
theorem test_rem : br (.rem 0 (b 6) (im 0xFFFFFFFFFFFFFFF9) (im 2)) 6 = 0xFFFFFFFFFFFFFFFF ∧ br (.remu 0 (b 6) (im 7) (im 4)) 6 = 3 ∧
    br (.rem 0 (b 6) (im 0x8000000000000000) (b 1)) 6 = 0 := by decide +kernel
theorem test_div_corner : br (.div 0 .q (b 6) (im 0x8000000000000000) (b 1)) 6 = 0x8000000000000000 ∧
    fl (.div 0 .q (b 6) (im 0x8000000000000000) (b 1)) = ⟨true, false, true, false⟩ ∧
    pcAfter (.divu 0 .q (b 6) (b 1) (im 0)) = 64 * 0x0A := by decide +kernel
theorem test_moves : br (.mov 0 .b (b 1) (im 0x12)) 1 = 0x12 ∧ br (.movs 0 .b (b 6) (b 4)) 6 = 0xFFFFFFFFFFFFFFF9 ∧
    br (.movz 0 .h (b 6) (b 1)) 6 = 0xFFFF ∧ br (.mova 0 (b 6) (.ind8 3 0xF8)) 6 = 0x3FF8 := by decide +kernel
theorem test_fields : br (.extu 0 (b 6) (im 0xABCD) (im 0x0704)) 6 = 0xBC ∧ br (.exts 0 (b 6) (im 0xABCD) (im 0x0704)) 6 = 0xFFFFFFFFFFFFFFBC ∧
    br (.ins 0 (b 3) (im 0xF) (im 0x0304)) 3 = 0x40F0 ∧ br (.popc 0 (b 6) (b 4)) 6 = 6 := by decide +kernel
theorem test_counts : br (.clz 0 (b 6) (b 4)) 6 = 56 ∧ br (.ctz 0 (b 6) (b 3)) 6 = 14 ∧ br (.clz 0 (b 6) (im 0)) 6 = 64 ∧
    br (.bswap 0 .w (b 6) (im 0x11223344)) 6 = 0x44332211 := by decide +kernel
theorem test_wide : ((after (.mulx 0 (.slot 0) (b 1) (b 5)) demo).lp 0).wread 0 16 = 0xFFFFFFFFFFFFFFFFFFFFFFFFFFFFFFFE ∧
    ((after (.mulxu 0 (.slot 0) (b 1) (b 5)) demo).lp 0).wread 0 16 = 0x1FFFFFFFFFFFFFFFE ∧ br (.sel 0 (b 6) (im 1) (im 2)) 6 = 2 := by
  decide +kernel
theorem test_branches : pcAfter (.bcc 0 2 (.ind 3)) = 0x4000 ∧ pcAfter (.bcc 0 15 (.ind 3)) = 0x1002 ∧
    pcAfter (.cbcc 0 .lt (b 1) (b 2) (.ind 3)) = 0x4000 ∧ pcAfter (.cbcc 0 .lo (b 1) (b 2) (.ind 3)) = 0x1004 := by decide +kernel
theorem test_call_loop : pcAfter (.call 0 (b 6) (.ind 3)) = 0x4000 ∧ br (.call 0 (b 6) (.ind 3)) 6 = 0x1003 ∧ pcAfter (.ret 0 (b 3)) = 0x4000 ∧
    pcAfter (.loop 0 (b 5) (.ind 3)) = 0x4000 ∧ br (.loop 0 (b 5) (.ind 3)) 5 = 1 ∧ pcAfter (.loop 0 (b 2) (.ind 3)) = 0x1003 := by
  decide +kernel
theorem test_bit_branches : pcAfter (.bbs 0 (b 2) (.lit 0) (.ind 3)) = 0x4000 ∧ pcAfter (.bbc 0 (b 2) (im 64) (.ind 3)) = 0x1000 + 4 + 8 ∧
    br (.scond 0 (b 6) (.lit 2)) 6 = 1 ∧ pcAfter (.nop 0) = 0x1001 := by decide +kernel
theorem test_traps : pcAfter (.svc 0 (.lit 9)) = 64 * 0x0F ∧ pcAfter (.bkpt 0) = 64 * 0x15 ∧
    ((after (.svc 0 (.lit 9)) demo).lp 0).tspM = 0x7FC0 ∧ (after (.svc 0 (.lit 9)) demo).readByte 0 0x7FC0 = 0x02 ∧
    (after (.svc 0 (.lit 9)) demo).readByte 0 0x7FCC = 0x0F ∧ (after (.svc 0 (.lit 9)) demo).readByte 0 0x7FD0 = 9 := by decide +kernel
theorem test_eret_wfi : pcAfter (.eret 0) = 0 ∧ ((after (.eret 0) demo).lp 0).tspM = 0x8040 ∧ ((after (.wfi 0) demo).lp 0).run = .waiting ∧
    ((after (.lpstop 0) demo).lp 0).run = .halted := by decide +kernel
theorem test_float : br (.fadd 0 .q (b 6) (im 0x3FF8000000000000) (im 0x4002000000000000)) 6 = 0x400E000000000000 ∧
    br (.fsub 0 .w (b 6) (im 0x3F800000) (im 0x40000000)) 6 = 0xBF800000 ∧
    br (.fmul 0 .q (b 6) (im 0x4008000000000000) (im 0xC000000000000000)) 6 = 0xC018000000000000 ∧
    br (.fdiv 0 .q (b 6) (im 0x3FF0000000000000) (im 0x4008000000000000)) 6 = 0x3FD5555555555555 := by decide +kernel
theorem test_float_more : br (.fsqrt 0 .q (b 6) (im 0x4000000000000000)) 6 = 0x3FF6A09E667F3BCD ∧
    br (.fdiv 0 .w (b 6) (im 0x3F800000) (im 0)) 6 = 0x7F800000 ∧
    ((after (.fdiv 0 .w (b 6) (im 0x3F800000) (im 0)) demo).lp 0).fpcs = 0x08 ∧
    br (.fmin 0 .q (b 6) (im 0x8000000000000000) (im 0)) 6 = 0x8000000000000000 := by decide +kernel
theorem test_float_convert : br (.cvtfi 0 .q (b 6) (im 0xC004000000000000)) 6 = 0xFFFFFFFFFFFFFFFE ∧
    br (.cvtif 0 .w (b 6) (b 1)) 6 = 0xBF800000 ∧ br (.fcvt 0 .wq (b 6) (im 0x3FF8000000000000)) 6 = 0x3FC00000 ∧
    br (.frint 0 .q (b 6) (im 0x4004000000000000)) 6 = 0x4000000000000000 := by decide +kernel
theorem test_float_compare : fl (.fcmp 0 .q (im 0x3FF0000000000000) (im 0x4000000000000000)) = ⟨true, false, false, false⟩ ∧
    fl (.fcmps 0 .w (im 0) (im 0x80000000)) = ⟨false, true, false, false⟩ ∧
    br (.fclass 0 .q (b 6) (im 0xFFF0000000000000)) 6 = 1 ∧ br (.fmax 0 .w (b 6) (im 0x80000000) (im 0)) 6 = 0 := by decide +kernel

/-- The bytes of a word in the workspace file. -/
def wf (slot v : Nat) (m : Mem) : Mem := memWriteBytes m (8 * slot) (natBytes 8 v)

/-- The three steps of the example of 05 "Edge results": FMA.W w2, w4, w5. -/
def fmaDev (fpcs : BitVec 32) : State :=
  dev { lp0 with fpcs := fpcs, wfile := wf 2 0x00800000 (wf 4 1 (wf 5 0xBF000000 [])) } []
def fma : Instr := .fma 0 .w (.slot 2) (.slot 4) (.slot 5)
theorem test_fma_example : ((after fma (fmaDev 0)).lp 0).fpcs = 3 ∧ ((after fma (fmaDev 0)).lp 0).wread 16 4 = 0x00800000 ∧
    ((after fma (fmaDev 0x10000)).lp 0).fpcs = 0x10003 ∧ ((after fma (fmaDev 0x10000)).lp 0).wread 16 4 = 0x007FFFFF := by decide +kernel
theorem test_fma_trap_example : ((after fma (fmaDev 0x10200)).lp 0).pc = 64 * 0x13 ∧ ((after fma (fmaDev 0x10200)).lp 0).wread 16 4 = 0x00800000 ∧
    leNat ((after fma (fmaDev 0x10200)).readBytes 0 0x7FCC 4) = 0x2313 ∧ ((after fma (fmaDev 0x10200)).lp 0).fpcs = 0x10200 := by decide +kernel

/-- The examples of 03 "Decoding examples" and of 04 R121, in a region that covers them. -/
def exDev (bs : List (Nat × BitVec 64)) (w : Mem) (m : Mem) : State :=
  dev { lp0 with b := bs, wfile := w, rt := [(0, (1, 0xFFF1FF))] } m
def addEx : State := exDev [(2, 0x400000)] (wf 17 5 []) [(0x400010, 7)]
theorem test_add_example : ((after (.add 0 .q (.slot 3) (.slot 17) (.ind8 2 0x10)) addEx).lp 0).wread 24 8 = 12 ∧
    (after (.add 0 .q (.slot 3) (.slot 17) (.ind8 2 0x10)) addEx).readByte 0 (0x2000 + 24) = 12 ∧
    ((after (.add 0 .q (.slot 3) (.slot 17) (.ind8 2 0x10)) addEx).lp 0).pc = 0x1005 := by decide +kernel
def movEx : State := exDev [(4, 0x102000), (7, 3)] [] []
theorem test_mov_example : (after (.mov 0 .w (.index 4 7 2 (.d8 0xF8)) (im 0x12345)) movEx).readBytes 0 0x102004 4 = [0x45, 0x23, 1, 0] ∧
    ((after (.mov 0 .w (.index 4 7 2 (.d8 0xF8)) (im 0x12345)) movEx).lp 0).pc = 0x1009 := by decide +kernel
def subEx (ptr : Nat) : State := exDev [(1, 0x200000), (15, 0x800000)] [] (memWriteBytes [(0x300040, 3)] 0x200100 (natBytes 8 ptr))
def subI : Instr := .sub 0 .h (.preDec 15) (.deref 1 0x100) (.lit 5)
theorem test_sub_example : (after subI (subEx 0x300040)).readBytes 0 0x7FFFFE 2 = [0xFE, 0xFF] ∧
    ((after subI (subEx 0x300040)).lp 0).breg 15 = 0x7FFFFE ∧ psFlags ((after subI (subEx 0x300040)).lp 0).ps = ⟨true, false, false, true⟩ ∧
    ((after subI (subEx 0x300040)).lp 0).pc = 0x1008 := by decide +kernel
theorem test_sub_example_trap : ((after subI (subEx 0x1900000)).lp 0).pc = 64 * 6 ∧ ((after subI (subEx 0x1900000)).lp 0).breg 15 = 0x800000 ∧
    (after subI (subEx 0x1900000)).readBytes 0 0x7FCC 4 = [6, 1, 2, 0] ∧
    (after subI (subEx 0x1900000)).readBytes 0 0x7FD0 4 = [0, 0, 0x90, 1] := by decide +kernel
def pdEx : State := exDev [(3, 0x4000), (4, 0x5000)] [] [(0x4000, 0x3C), (0x4001, 0x12), (0x5000, 0x7D), (0x5001, 0x56), (0x5002, 0x04)]
theorem test_pdadd_example : ((after (.pdadd 0 (.slot 8) (.ind 3) (.ind 4)) pdEx).lp 0).wread 64 16 = 0x4444D ∧
    psFlags ((after (.pdadd 0 (.slot 8) (.ind 3) (.ind 4)) pdEx).lp 0).ps = ⟨true, false, false, false⟩ := by decide +kernel
theorem test_decimal : ((after (.pdmul 0 (.slot 8) (.ind 3) (.ind 4)) pdEx).lp 0).wread 64 16 = 0x561741D ∧
    ((after (.pddiv 0 (.slot 8) (.ind 4) (.ind 3)) pdEx).lp 0).wread 64 16 = 0x37D ∧
    ((after (.pdrem 0 (.slot 8) (.ind 4) (.ind 3)) pdEx).lp 0).wread 64 16 = 0x16D ∧
    ((after (.pdshr 0 (.slot 8) (.ind 4) (.lit 1)) pdEx).lp 0).wread 64 16 = 0x457D := by decide +kernel
theorem test_decimal_more : ((after (.cvtpb 0 .q (.base 6) (.ind 4)) pdEx).lp 0).breg 6 = 0xFFFFFFFFFFFFEE29 ∧
    ((after (.cvtbp 0 .q (.slot 8) (b 4)) pdEx).lp 0).wread 64 16 = 0x20480C ∧
    psFlags ((after (.pdcmp 0 (.ind 3) (.ind 4)) pdEx).lp 0).ps = ⟨false, false, false, false⟩ ∧
    ((after (.pdadd 0 (.slot 8) (b 3) (.ind 4)) pdEx).lp 0).pc = 64 * 4 := by decide +kernel

/-- The tables of 05 R152: the smallest subnormal S, the largest finite M, the smallest normal N, and their neighbours. -/
def fS (_ : Fmt) : Nat := 1
def fN (f : Fmt) : Nat := 2 ^ f.frac
def fM (f : Fmt) : Nat := (2 ^ f.expBits - 2) * 2 ^ f.frac + (2 ^ f.frac - 1)
def fI (f : Fmt) : Nat := fM f + 1
def neg (f : Fmt) (x : Nat) : Nat := 2 ^ (f.width - 1) + x
/-- An operation in the five modes of the tables, in their order. -/
def modes (g : RMode → Nat × Exc) : List (Nat × Exc) := [g .rne, g .rna, g .rtz, g .rup, g .rdn]
def all5 (x : Nat) (e : Exc) : List (Nat × Exc) := List.replicate 5 (x, e)
def ox : Exc := ⟨false, false, true, false, true⟩
def ux : Exc := ⟨false, false, false, true, true⟩
def nx : Exc := ⟨false, false, false, false, true⟩
def edge (f : Fmt) : Bool :=
  let d := f.decode
  let add := fun x y => modes fun rm => f.add rm false (d x) (d y)
  let sub := fun x y => modes fun rm => f.sub rm false (d x) (d y)
  let mul := fun x y => modes fun rm => f.mul rm false (d x) (d y)
  let div := fun x y => modes fun rm => f.div rm false (d x) (d y)
  let fma := fun a b m => modes fun rm => f.fma rm false (d m) (d a) (d b)
  let S := fS f; let M := fM f; let N := fN f; let I := fI f
  let half := (2 ^ (f.expBits - 1) - 2) * 2 ^ f.frac
  let one := (2 ^ (f.expBits - 1) - 1) * 2 ^ f.frac
  let two := 2 ^ (f.expBits - 1) * 2 ^ f.frac
  let ends := [I, I, M, I, M].map fun x => (x, ox)
  let tiny := [0, 0, 0, S, 0].map fun x => (x, ux)
  add S S == all5 2 Exc.none && sub S S == [0, 0, 0, 0, neg f 0].map (fun x => (x, Exc.none)) && add M M == ends &&
  add M S == [(M, nx), (M, nx), (M, nx), (I, ox), (M, nx)] && sub M S == [M, M, M - 1, M, M - 1].map (fun x => (x, nx)) &&
  sub (neg f M) M == [neg f I, neg f I, neg f M, neg f M, neg f I].map (fun x => (x, ox)) && sub N S == all5 (N - S) Exc.none &&
  mul S S == tiny && mul S half == [0, S, 0, S, 0].map (fun x => (x, ux)) && mul M M == ends && div S M == tiny && div M S == ends &&
  div S S == all5 one Exc.none && div M M == all5 one Exc.none && div S 0 == all5 I ⟨false, true, false, false, false⟩ &&
  mul M 0 == all5 0 Exc.none && fma M two (neg f M) == all5 M Exc.none && fma M M (neg f I) == all5 (neg f I) Exc.none &&
  fma S S 0 == tiny && fma S (neg f half) N == [N, N, N - S, N, N - S].map (fun x => (x, ux)) &&
  fma M 0 (neg f S) == all5 (neg f S) Exc.none &&
  (modes fun rm => f.sqrt rm false (d (neg f S))).all (fun x => x.2 == ⟨true, false, false, false, false⟩)
theorem test_edge_results : edge fmt32 = true ∧ edge fmt64 = true := by decide +kernel
theorem test_edge_sqrt :
    (modes fun rm => fmt32.sqrt rm false (fmt32.decode 1)) = [0x1A3504F3, 0x1A3504F3, 0x1A3504F3, 0x1A3504F4, 0x1A3504F3].map (fun x => (x, nx)) ∧
    (modes fun rm => fmt64.sqrt rm false (fmt64.decode 1)) = all5 0x1E60000000000000 Exc.none ∧
    (modes fun rm => fmt32.mul rm false (fmt32.decode (fM fmt32)) (fmt32.decode 1)) = all5 0x34FFFFFF Exc.none ∧
    (modes fun rm => fmt64.sqrt rm false (fmt64.decode (fM fmt64))) =
      [0x5FEFFFFFFFFFFFFF, 0x5FEFFFFFFFFFFFFF, 0x5FEFFFFFFFFFFFFF, 0x5FF0000000000000, 0x5FEFFFFFFFFFFFFF].map (fun x => (x, nx)) := by
  decide +kernel
theorem test_edge_conversions :
    (modes fun rm => fconvert fmt64 fmt32 rm false (fmt64.decode (fM fmt64))) =
      [0x7F800000, 0x7F800000, 0x7F7FFFFF, 0x7F800000, 0x7F7FFFFF].map (fun x => (x, ox)) ∧
    (modes fun rm => fconvert fmt64 fmt32 rm false (fmt64.decode 1)) = [0, 0, 0, 1, 0].map (fun x => (x, ux)) ∧
    (modes fun rm => fconvert fmt32 fmt64 rm false (fmt32.decode 1)) = all5 0x36A0000000000000 Exc.none ∧
    (modes fun rm => cvtFi rm (fmt64.decode 1)) = [0, 0, 0, 1, 0].map (fun x => (x, nx)) ∧
    (modes fun rm => cvtFu rm (fmt64.decode (neg fmt64 1))) =
      [(0, nx), (0, nx), (0, nx), (0, nx), (0, ⟨true, false, false, false, false⟩)] ∧
    cvtFp .rtz (fmt64.decode (fM fmt64)) = (10 ^ 31 - 1, ⟨true, false, false, false, false⟩) ∧ cvtFp .rup (fmt64.decode 1) = (1, nx) := by decide +kernel

theorem test_strings : (after (.smov 0) demo).readByte 0 0x6000 = 0x41 ∧ ((after (.smov 0) demo).lp 0).srcp = 0x5001 ∧
    ((after (.smov 0) demo).lp 0).cnt = 2 ∧ br (.sscn 0 (b 6) (im 0x41)) 6 = 0x5000 ∧ fl (.sscn 0 (b 6) (im 0x42)) = ⟨false, true, false, false⟩ := by
  decide +kernel
theorem test_strings_more : br (.ssum 0 (b 6)) 6 = 0x4100 ∧ br (.spopc 0 (b 6)) 6 = 2 ∧ (after (.sand 0) demo).readByte 0 0x6000 = 1 ∧
    (after (.sfil 0 (im 9)) demo).readByte 0 0x6000 = 9 := by decide +kernel
theorem test_rpt : (after (.rpt 0 .smov) demo).readBytes 0 0x6000 2 = [0x41, 0x42] ∧ ((after (.rpt 0 .smov) demo).lp 0).cnt = 0 ∧
    pcAfter (.rpt 0 .smov) = 0x1002 ∧ br (.rpt 0 (.sscn (b 6) (im 0x42))) 6 = 0x5001 ∧ pcAfter (.rpt 0 (.notString 7)) = 64 * 4 := by
  decide +kernel
theorem test_atomics : br (.swp 0 .q (b 6) (.ind 3) (im 9)) 6 = 0 ∧ (after (.swp 0 .q (b 6) (.ind 3) (im 9)) demo).readByte 0 0x4000 = 9 ∧
    fl (.cas 0 .q (b 6) (.ind 3) (im 9)) = ⟨false, true, false, false⟩ ∧ br (.cas 0 .q (b 2) (.ind 3) (im 9)) 2 = 0 := by decide +kernel
theorem test_reservation : ((after (.ldres 0 .q (b 6) (.ind 3)) demo).lp 0).rsv = some 0x4000 ∧
    psFlags ((after (.stcond 0 .q (.ind 3) (im 9)) (after (.ldres 0 .q (b 6) (.ind 3)) demo)).lp 0).ps = ⟨false, true, false, false⟩ ∧
    fl (.stcond 0 .q (.ind 3) (im 9)) = ⟨false, false, false, false⟩ := by decide +kernel
theorem test_system : br (.mfsr 0 (b 6) (.lit 3)) 6 = 0x5000 ∧ ((after (.mtsr 0 (im 8) (im 0x12345)) demo).lp 0).tvb = 0x12000 ∧
    pcAfter (.mfsr 0 (b 6) (.lit 7)) = 64 * 4 ∧ ((after (.psWrite 0 (im 0x10200)) demo).lp 0).ps = 0x10200 := by decide +kernel
theorem test_drain : (after (.storeDrain 0) (after (.mov 0 .q (.ind 3) (im 9)) demo)).mem = memSet demo.mem 0x4000 9 ∧
    ((after (.fence 0) (after (.mov 0 .q (.ind 3) (im 9)) demo)).lp 0).sb = [] := by decide +kernel

/-! ### Well-formed commands: for each check, terms just outside it, which it refuses, beside terms just inside it -/

def hdr (m cp : Nat) : CmdHdr := ⟨m, cp, 1, 8, 0, true⟩
def noArgs : RmArgs := ⟨0, false, 0, 0⟩

theorem test_ill_formed_instructions :
    [Instr.add 98 .b (b 6) (b 1) (b 2), .nop 98, .fence 98, .rpt 98 .smov, .swp 98 .q (b 6) (b 1) (b 2), .pdabs 98 (b 6) (b 1), .eret 98,
      .fadd 98 .q (b 6) (b 1) (b 2), .mfsr 98 (b 6) (b 1), .reservedOpcode 98 [], .vectorEntry 98, .storeDrain 98, .tamlerHalt 98,
      .lpRestart 98, .retry 16 0 .delayFault, .retry 0 3 .delayFault, .cpRepair 2 true, .intcSwiRaise 0x200 16 0, .intcSwiRaise 0x200 0 6,
      .errorInputPacedDelivery 98 0, .errorInputPacedDelivery 0 3].all (fun i => !i.wellFormed) = true ∧
    [Instr.add 97 .b (b 6) (b 1) (b 2), .nop 97, .retry 15 2 .delayFault, .cpRepair 1 true, .intcSwiRaise 0x200 15 5,
      .errorInputPacedDelivery 97 2].all Instr.wellFormed = true := by decide +kernel
theorem test_ill_formed_memory :
    [Instr.registerWrite 0x40 0 8 0, .registerWrite 0x200 0 3 0, .registerWrite 0x200 0x1000000000 8 0, .lockSet 0x200 0, .cacheFill 16,
      .evictionDone (.l2 16), .scrub (.slice 32) 0 0 .clean, .lockenWrite 0x40 (.l2 0) 0, .lockenWrite 0x200 (.slice 32) 0,
      .rmClean 0x200 (.hub 4) noArgs, .rmZero 0x40 (.cluster 0) noArgs, .rmDone (.cluster 16), .durWrite 0x200 8 0].all
      (fun i => !i.wellFormed) = true ∧
    [Instr.registerWrite 0x3F 0 8 0, .registerWrite 0x447 0xFFFFFFFFF 1 0, .lockSet 0x200 (Off.mbxBind 4095), .cacheFill 15,
      .evictionDone (.l2 15), .scrub (.slice 31) 0 0 .clean, .rmClean 0x311 (.hub 3) noArgs, .rmDone (.cluster 15),
      .durWrite 0x201 7 0].all Instr.wellFormed = true := by decide +kernel
theorem test_ill_formed_ports_and_links :
    [Instr.queueDoorbell 0x200 4096 0, .tqEnableWrite 0x40 0, .send 4096 [], .nvjScrub 16384 .clean .clean, .engineRetry 18 true,
      .engineHandover 16, .frameStart 128, .gooseRepetition 4096, .svStale 8 0, .ddtEntryForget 64, .portEnableWrite 0x200 128 0,
      .portDisableWrite 0x160 0, .expanderPoll 16 [] false, .linkEnable 0x200 128 0, .packetSend 128, .reassemblyTimeout 16,
      .timeCopyCorrection 0x1F, .timeStep 0x202 0, .timerFire 16 0].all (fun i => !i.wellFormed) = true ∧
    [Instr.queueDoorbell 0x200 4095 0, .send 4095 [], .nvjScrub 16383 .clean .clean, .engineRetry 17 true, .engineHandover 15, .frameStart 127,
      .gooseRepetition 4095, .svStale 7 0, .ddtEntryForget 63, .portDisableWrite 0x15F 127, .expanderPoll 15 [] false, .packetSend 127,
      .reassemblyTimeout 15, .timeCopyCorrection 0x1E, .timeStep 0x201 0, .timerFire 15 0].all Instr.wellFormed = true := by decide +kernel
theorem test_ill_formed_control :
    [Instr.prismDoorbell 0x200 36 0, .jobDispatch .cipher 36, .compress 36, .mbxTxWrite 0x200 4096 0 0, .mbxTxWrite 0x200 0 8 0,
      .post 0x40 0, .pop 0x200 4096 0, .postTimeout 4096, .doorbellClear 0x200 (.slot 16 0) 0, .doorbellMaskWrite 0x200 (.host 0x40) 0,
      .doorbellPacedDelivery (.cp 2) 0, .doorbellPacedDelivery (.cp 1) 32, .keyCmdClear 0x40 0, .hello (hdr 0x40 0) 0x100,
      .powerDown (hdr 0 2), .badOpcode (hdr 0 0) 1 1, .completionPostRetry 0x160 0, .cxlLinkTraining true 0 4, .cxlLinkTraining true 1 1,
      .cxlLinkTraining true 1 5, .functionLevelReset 64, .msixUnmask 64 0, .barAccess ⟨1, 0x100000⟩ 8 none, .sourceRaise 768,
      .errSrcClear 0x200 768, .errFirstClear 0x200 24, .errPinForce 0x202, .sagWarn 7, .railOutOfWindow 10, .refclkFault 10,
      .d2dLinkFault 4, .patrolScrub 16 0 none 0 false, .coldReset 4, .warmReset 7, .clusterReset 16, .lensWrap 0x1FFFF 0 1].all
      (fun i => !i.wellFormed) = true ∧
    [Instr.prismDoorbell 0x200 35 0, .jobDispatch .cipher 35, .mbxTxWrite 0x200 4095 7 0, .doorbellClear 0x200 (.slot 15 5) 0,
      .doorbellMaskWrite 0x200 (.host 0x3F) 0, .doorbellPacedDelivery (.cp 1) 31, .powerDown (hdr 0x3F 1), .hello (hdr 0x15F 0) 0x100,
      .badOpcode (hdr 0 0) 1 0, .badOpcode (hdr 0 0) 0xFFFF 1, .cxlLinkTraining true 1 2, .functionLevelReset 63,
      .barAccess ⟨1, 0xFFFFF⟩ 8 none, .sourceRaise 767, .errFirstClear 0x200 23, .sagWarn 6, .railOutOfWindow 9, .d2dLinkFault 3,
      .patrolScrub 15 0 none 0 false, .coldReset 7, .warmReset 6, .clusterReset 15].all Instr.wellFormed = true := by decide +kernel
theorem test_ill_formed_refused : exec (.nop 98) demo = .refused .noSuchUnit ∧ exec (.cacheFill 16) demo = .refused .noSuchUnit ∧
    exec (.coldReset 4) demo = .refused .noSuchUnit ∧ exec (.hello (hdr 0 2) 0) demo = .refused .noSuchUnit := by
  refine ⟨?_, ?_, ?_, ?_⟩ <;> rfl

/-! ### States that meet the hypotheses of the statements: instructions -/

/-- Whether the operands of an instruction are ready, with what a clause asks of them. -/
def okw (s : State) (n op lvl : Nat) (os : List Opd) (p : State → Ready → Bool) : Bool :=
  match operandsReady s n op lvl os with
  | some (s1, r, _) => p s1 r
  | none => false
def ok (os : List Opd) : Bool := okw demo 0 1 3 os fun _ _ => true
/-- The same device with its last processor, the second control processor, in place of the first logical processor. -/
def demoLast : State := { demo with lps := [(97, lp0)] }
/-- The processor with integer overflow enabled (PS.iov). -/
def demoIov : State := dev { lp0 with ps := 0x10200 } []
/-- Whether a load of some bytes passes the region check with a memory type. -/
def checksAs (p : LP) (a k : Nat) (t : MemType) : Bool :=
  match p.check a k .read p.level with
  | .ok m => m == t
  | .error _ => false
def sizes : List Size := [.b, .h, .w, .q, .o]
def isizes : List Sys2Proof.ISize := [.b, .h, .w, .q]
/-- Three operands of one size: a destination and two sources. -/
def dab (k : Nat) (v w : BitVec 128) : List Opd := [odst (if k = 16 then .slot 0 else b 6) k, osrc (im v) k, osrc (if k = 16 then .lit w.toNat else im w) k]

theorem witness_AddSubtract : sizes.all (fun z => ok (dab (sizeBytes z) 0x7F 1)) = true ∧ isizes.all (fun z => ok (dab (isize z) 0 0)) = true ∧
    okw demoLast 97 1 3 (dab 1 0x7F 1) (fun _ _ => true) = true ∧ okw demoIov 0 1 3 (dab 1 0x7F 1) (fun s1 _ => bitOf (s1.lp 0).ps.toNat 16) = true ∧
    ((after (.add 0 .b (b 6) (im 0x7F) (im 1)) demoIov).lp 0).pc = 64 * 0x0B ∧
    ((after (.sbc 0 .b (b 6) (im 0x80) (im 1)) demoIov).lp 0).pc = 64 * 0x0B ∧
    br (.sub 0 .b (b 6) (im 0x80) (im 1)) 6 = 0x7F := by decide +kernel
theorem witness_ShiftsMultiplyDivide : [0, 1, 7, 8, 9, 255].all (fun k => okw demo 0 1 3 (dab 1 0x81 k) fun _ r => r.val 1 < 2 ^ 8) = true ∧
    isizes.all (fun z => ok (dab (isize z) 1 0) && ok (dab (isize z) 1 1)) = true ∧ ok (dab 8 0x8000000000000000 0) = true ∧
    ((after (.mul 0 .b (b 6) (im 0x40) (im 2)) demoIov).lp 0).pc = 64 * 0x0B ∧
    ((after (.div 0 .b (b 6) (im 0x80) (im 0xFF)) demoIov).lp 0).pc = 64 * 0x0B ∧ pcAfter (.rem 0 (b 6) (im 1) (im 0)) = 64 * 0x0A := by
  decide +kernel
theorem witness_CompareTest : sizes.all (fun z => ok [osrc (.lit 3) (sizeBytes z), osrc (.lit 5) (sizeBytes z)]) = true ∧
    isizes.all (fun z => ok [osrc (im 1) (isize z), osrc (im 1) (isize z)]) = true := by decide +kernel
theorem witness_MovesAndFields : sizes.all (fun z => ok [odst (.slot 0) (sizeBytes z), osrc (.lit 5) (sizeBytes z)]) = true ∧
    ok [odst (b 6) 8, oadr (.ind 3)] = true ∧
    [SSize.b, .h, .w].all (fun z => ok [odst (b 6) 8, osrc (b 1) (ssize z)]) = true ∧ ok [odst (b 6) 8, osrc (b 1) 8, osrc (im 0x3F3F) 2] = true ∧
    okw demo 0 1 3 [ormw (b 3) 8, osrc (b 1) 8, osrc (im 0x3F3F) 2] (fun _ r => r.val 0 < 2 ^ 64) = true ∧ ok [odst (b 6) 8, osrc (b 2) 8] = true ∧
    [HSize.h, .w, .q].all (fun z => ok [odst (b 6) (hsize z), osrc (b 1) (hsize z)]) = true ∧ ok [odst (.slot 0) 16, osrc (b 1) 8, osrc (b 2) 8] = true ∧
    ok (dab 8 1 2) = true := by decide +kernel
theorem witness_ConditionNumbers : ok [oadr (.ind 3)] = true ∧ okw demo 0 1 3 [odst (b 6) 1, osrc (.lit 15) 1] (fun _ r => r.val 1 == 15) = true := by
  decide +kernel
theorem witness_ControlTransfers : ok [oadr (.ind 3)] = true ∧ ok [odst (b 6) 8, oadr (.ind 3)] = true ∧ ok [osrc (b 3) 8] = true ∧
    [0, 1, 2].all (fun v => okw (dev { lp0 with b := [(2, v)] } []) 0 1 3 [ormw (b 2) 8, oadr (.ind 3)] fun _ r => r.val 0 == v.toNat) = true ∧
    ok [osrc (b 2) 8, osrc (im 63) 8, oadr (.ind 3)] = true ∧ ok [odst (b 6) 1, osrc (.lit 15) 1] = true ∧ ok [] = true ∧
    okw demo 0 1 3 [osrc (b 5) 8, osrc (b 2) 8, oadr (.ind 3)] (fun s1 r => (r.val 2 + 8 * min (r.val 0) (r.val 1)) % 8 == 0 &&
      checksAs (s1.lp 0) 0x4008 8 .wb && (s1.load 0 0x4008 8 .wb).isSome) = true := by decide +kernel

/-- The processor at machine level with interrupts on, its timer pending at level 5. -/
def demoTimer : State := (dev { lp0 with ps := 0x300, timer := true } []).setReg (Off.intcLvl 0 0 0) 5
theorem witness_TrapInstructions : okw demo 0 1 3 [osrc (.lit 9) 1] (fun _ _ => true) = true ∧ demo.canRun 0 = true ∧ demo.nextEvent 0 = none ∧
    demoTimer.canRun 0 = true ∧ demoTimer.nextEvent 0 = some (.interrupt 0x18 5) ∧
    ((after (.vectorEntry 0) demoTimer).lp 0).pc = 64 * 0x18 ∧ bits ((after (.vectorEntry 0) demoTimer).lp 0).ps.toNat 12 4 = 5 := by
  decide +kernel
theorem witness_VectorEntryState : (demo.lp 0).sb.length + 9 ≤ 32 ∧
    ((demo.enter 0 0x0F (mkTrap 0x0F 0 0 9) 1 0x1001 0x200 none .wb).lp 0).tspK = 0x8FC0 ∧
    ((demo.enter 0 2 (mkTrap 2 0 0 0) 0 0x1001 0x200 (some 15) .wb).lp 0).tspM = 0x7FC0 := by decide +kernel

/-- A frame in memory at the kernel's stack that returns to the level in the saved status. -/
def eretDev (lvl ps : BitVec 32) : State :=
  dev { lp0 with ps := lvl } (memWriteBytes [] 0x8000 (natBytes 8 0x1234 ++ natBytes 4 ps.toNat))
def frameOk (s : State) (lvl : Nat) : Bool :=
  okw s 0 1 1 [] fun s1 _ => match s1.eretFrame 0 with
    | .ok (_, fr) => bits (leNat ((fr.drop 8).take 4)) 4 2 == lvl
    | .error _ => false
theorem witness_ReturnFromException : frameOk (eretDev 0x200 0x20F) 0 = true ∧ frameOk (eretDev 0x200 0x22F) 2 = true ∧
    frameOk (eretDev 0x200 0x230) 3 = true ∧ ((after (.eret 0) (eretDev 0x200 0x22F)).lp 0).pc = 0x1234 ∧
    (psFlags ((after (.eret 0) (eretDev 0x200 0x22F)).lp 0).ps).z = true ∧ ((after (.eret 0) (eretDev 0x200 0x230)).lp 0).pc = 64 * 5 ∧
    okw (dev { lp0 with ps := 0x210 } []) 0 1 1 [] (fun s1 _ => (s1.eretFrame 0).toOption.isSome && (s1.lp 0).level == 1) = true := by
  decide +kernel
theorem witness_WaitStopSync : okw demo 0 1 1 [] (fun s1 _ => !s1.wfiEnds 0) = true ∧ okw demoTimer 0 1 1 [] (fun s1 _ => s1.wfiEnds 0) = true ∧
    ((demoTimer.onLp 0 fun p => { p with run := .waiting }).wfiEnds 0) = true ∧ okw demo 0 2 0 [] (fun _ _ => true) = true ∧
    okw demo 0 2 3 [] (fun _ _ => true) = true ∧ okw demo 0 2 3 [oadr (.ind 3)] (fun s1 r =>
      checksAs (s1.lp 0) (r.val 0) 1 .wb && s1.addrKind (r.val 0) == .dram) = true ∧
    okw demo 0 2 3 [oadr (b 1)] (fun s1 r => !checksAs (s1.lp 0) (r.val 0) 1 .wb) = true := by decide +kernel

/-! ### Floating point, packed decimal, strings, atomics, system registers -/

def fmts : List FFmt := [.w, .q, .o]
def fdst (f : Fmt) : Opd := odst (.slot 8) f.bytes
def fsrc (f : Fmt) : Opd := osrc (.slot 10) f.bytes
theorem witness_FloatingPoint :
    fmts.all (fun ff => let f := fmtOf ff
      ok [fdst f, fsrc f, fsrc f] && ok [ormw (.slot 8) f.bytes, fsrc f, fsrc f] && ok [fdst f, fsrc f] && okw demo 0 2 3 [fdst f, fsrc f] (fun _ _ => true) &&
      okw demo 0 2 3 [odst (b 6) 8, fsrc f] (fun _ _ => true) && okw demo 0 2 3 [fdst f, osrc (b 1) 8] (fun _ _ => true) &&
      ok [fsrc f, fsrc f] && okw demo 0 (fclassOp ff) 3 [odst (.slot 8) 2, fsrc f] (fun _ _ => true)) = true ∧
    [CvtPair.qw, .ow, .wq, .oq, .wo, .qo].all (fun p => okw demo 0 2 3 [fdst (cvtFmts p).1, fsrc (cvtFmts p).2] fun _ _ => true) = true ∧
    ((after (.fsqrt 0 .q (b 6) (im 0xBFF0000000000000)) (dev { lp0 with fpcs := 0x1000 } [])).lp 0).pc = 64 * 0x10 ∧
    ((after (.fcmp 0 .w (im 0x7F800001) (im 0)) (dev { lp0 with fpcs := 0x1000 } [])).lp 0).pc = 64 * 0x10 ∧
    ((after (.fcmps 0 .w (im 0x7FC00000) (im 0)) (dev { lp0 with fpcs := 0x1000 } [])).lp 0).pc = 64 * 0x10 ∧
    ((after (.fcmp 0 .w (im 0x7F800001) (im 0)) demo).lp 0).fpcs = 16 := by decide +kernel

def pk (o : Except Trap Int) (v : Int) : Bool := match o with | .ok x => x == v | .error _ => false
theorem witness_DecimalArithmetic :
    okw pdEx 0 1 3 [opdst (.slot 8) 16, opsrc (.ind 3) 16, opsrc (.ind 4) 16] (fun s1 r => pk (r.packed s1 0 1 16) 123 && pk (r.packed s1 0 2 16) (-4567)) = true ∧
    okw pdEx 0 1 3 [opdst (.slot 8) 16, opsrc (b 3) 16, opsrc (.ind 4) 16] (fun _ _ => true) = false ∧
    okw pdEx 0 1 3 [opdst (.slot 8) 16, opsrc (.ind 15) 16, opsrc (.ind 4) 16] (fun _ r => !pdValid (r.val 1) 16) = true ∧
    okw pdEx 0 1 3 [opdst (.slot 8) 16, opsrc (.ind 3) 16] (fun s1 r => pk (r.packed s1 0 1 16) 123) = true ∧
    okw pdEx 0 1 3 [opdst (.slot 8) 16, opsrc (.ind 3) 16, osrc (.lit 2) 1] (fun s1 r => pk (r.packed s1 0 1 16) 123) = true ∧
    okw pdEx 0 1 3 [opdst (.slot 8) 2, opsrc (.ind 3) 2, osrc (im 0x11) 1] (fun s1 r => pk (r.packed s1 0 1 2) 123 && pdEx.peekK 0 3 (im 0x11) == 0x11) = true ∧
    okw pdEx 0 1 3 [opsrc (.ind 3) 16, opsrc (.ind 4) 16] (fun s1 r => pk (r.packed s1 0 0 16) 123 && pk (r.packed s1 0 1 16) (-4567)) = true ∧
    okw pdEx 0 1 3 [opsrc (.ind 3) 2, osrc (.lit 1) 1] (fun _ _ => pdEx.peekK 0 2 (.lit 1) % 16 == 1) = true ∧
    okw pdEx 0 1 3 [odst (b 6) 8, opsrc (.ind 3) 16] (fun s1 r => pk (r.packed s1 0 1 16) 123) = true ∧
    okw pdEx 0 1 3 [opdst (.slot 8) 16, osrc (b 4) 8] (fun _ _ => true) = true ∧
    fmts.all (fun ff => okw pdEx 0 2 3 [opdst (.slot 8) 16, fsrc (fmtOf ff)] (fun _ _ => true) &&
      okw pdEx 0 2 3 [fdst (fmtOf ff), opsrc (.ind 3) 16] (fun s1 r => pk (r.packed s1 0 1 16) 123)) = true ∧
    ((after (.pddiv 0 (.slot 8) (.ind 3) (.slot 12)) (exDev [(3, 0x4000)] (wf 12 0x0C []) [(0x4000, 0x3C)])).lp 0).pc = 64 * 0x0A ∧
    ((after (.pdshl 0 (.slot 8) (.ind 3) (im 31)) pdEx).lp 0).pc = 64 * 0x0D := by decide +kernel

/-- Whether one element of a string operation is done. -/
def strOk (s : State) (op : StrOp) : Bool :=
  match strShape op with
  | none => false
  | some (e, os) => (strInstr 0 op).isSome && okw s 0 1 3 os fun s1 r =>
    match (match e.table with | none => Except.ok s1 | some k => s1.loadTable 0 os.length (r.val (os.length - 1)) k : Except Trap State) with
    | .error _ => false
    | .ok s2 => (s2.element 0 e (if e.scans then noMatch else r.val 0) (r.val (os.length - 1) % 256) (s2.lp 0).strTable).toOption.isSome
/-- Whether RPT runs its elements to their end. -/
def rptOk (s : State) (op : StrOp) : Bool :=
  match strShape op with
  | none => false
  | some (e, os) => mayBegin s 0 2 3 os &&
    match (s.fetchFills 0 (instrLen 2 os)).rptStart 0 e os with
    | .error _ => false
    | .ok s1 => match s1.rptTable 0 e os with
      | .error _ => false
      | .ok s2 => (elementsDone s2 0 e os (s2.lp 0).cnt.toNat).isSome
def strOps : List StrOp := [.smov, .smovr, .scmp (b 6), .sscn (b 6) (im 0x42), .sscnn (b 6) (im 0x41), .sfil (im 9), .sxlt (.ind 3), .scrc (b 6),
  .ssum (b 6), .sspn (b 6) (.ind 3), .sand, .sor, .sxor, .spopc (b 6), .sxch]
theorem witness_StringElements : strOps.all (strOk demo) = true := by decide +kernel
theorem witness_RepeatedStrings : strOps.all (rptOk demo) = true ∧ rptOk (dev { lp0 with cnt := 0 } []) .smov = true ∧
    demo.canRun 0 = true ∧ demo.fetchTrap 0 2 = none := by decide +kernel

def rsvDev : State := dev { lp0 with rsv := some 0x4000 } []
theorem witness_AtomicsAndReservations : demo.canRun 0 = true ∧
    isizes.all (fun z => okw (demo.fenceLoads 0) 0 1 3 [odst (b 6) (isize z), oatom (.ind 3) (isize z), osrc (im 9) (isize z)] fun _ r => r.inMem 1) = true ∧
    okw (demo.fenceLoads 0) 0 1 3 [ormw (b 6) 8, oatom (.ind 3) 8, osrc (im 9) 8] (fun _ r => r.val 1 == r.val 0) = true ∧
    okw (demo.fenceLoads 0) 0 1 3 [ormw (b 2) 8, oatom (.ind 3) 8, osrc (im 9) 8] (fun _ r => r.val 1 != r.val 0) = true ∧
    okw (demo.fenceLoads 0) 0 1 3 [odst (b 6) 8, oatom (b 3) 8, osrc (im 9) 8] (fun _ r => !r.inMem 1) = true ∧
    okw demo 0 1 3 [odst (b 6) 8, olres (.ind 3) 8] (fun _ r => r.inMem 1) = true ∧
    okw demo 0 1 3 [oscond (.ind 3) 8, osrc (im 9) 8] (fun _ _ => true) = true ∧
    okw rsvDev 0 1 3 [oscond (.ind 3) 8, osrc (im 9) 8] (fun s1 r => r.inMem 0 && (s1.lp 0).rsv == some (lineOf (r.addr 0))) = true := by
  decide +kernel
theorem witness_FencesAndDrain : demo.canRun 0 = true ∧ ((demo.drainAll 0).lp 0).sb = [] ∧ okw (demo.drainAll 0) 0 1 3 [] (fun _ _ => true) = true ∧
    ok [] = true ∧ demo.lpExists 0 = true ∧ (demo.lp 0).invq.length ≤ 2 ∧
    ((after (.storeDrain 0) (after (.mov 0 .q (.ind 3) (im 9)) demo)).lp 0).sb = [] := by decide +kernel

/-- A second region behind the first, of type NORMAL-NC. -/
def ncDev : State := dev { lp0 with rt := [(0, (1, 0xFFF1FF)), (1, (0x1000003, 0x1FFF1FF))] } []
theorem witness_SystemRegisterAccess :
    okw demo 0 1 3 [odst (b 6) 8, osrc (.lit 3) 1] (fun s1 r => srKnown (r.val 1) && srReads (s1.lp 0).level (r.val 1)) = true ∧
    okw demo 0 1 3 [odst (b 6) 8, osrc (im 0xFF) 1] (fun _ r => !srKnown (r.val 1)) = true ∧
    okw (dev { lp0 with ps := 0x220 } []) 0 1 3 [odst (b 6) 8, osrc (.lit 8) 1] (fun s1 r => srKnown (r.val 1) && !srReads (s1.lp 0).level (r.val 1)) = true ∧
    [2, 3, 8, 0xB, 0xC].all (fun k => okw demo 0 1 3 [osrc (im k) 1, osrc (im 0x12345) 8] fun s1 r => srWrites (s1.lp 0).level (r.val 0)) = true ∧
    okw (dev { lp0 with ps := 0x220 } []) 0 1 3 [osrc (.lit 8) 1, osrc (im 0) 8] (fun s1 r => srKnown (r.val 0) && !srWrites (s1.lp 0).level (r.val 0)) = true ∧
    okw demo 0 1 3 [osrc (.lit 0) 1, osrc (im 0x10200) 8] (fun s1 r => r.val 0 == 0 &&
      (List.range 32).all fun i => bitOf (psWritable (s1.lp 0).level) i || bitOf (r.val 1) i == bitOf (s1.lp 0).ps.toNat i) = true ∧
    okw demo 0 1 3 [osrc (.lit 0) 1, osrc (im 0x80000200) 8] (fun s1 r => !bitOf (psWritable (s1.lp 0).level) 31 &&
      bitOf (r.val 1) 31 != bitOf (s1.lp 0).ps.toNat 31) = true ∧
    okw demo 0 1 3 [osrc (.lit 1) 1, osrc (im 0x3000) 8] (fun s1 r => r.val 0 == 1 && (s1.tableBytes 0 0x3000 256 .wb).isSome) = true ∧
    ((after (.wpWrite 0 (im 0x3000)) demo).lp 0).wp = 0x3000 ∧ checksAs (ncDev.lp 0) 0x1000000 256 .nc = true ∧
    okw ncDev 0 1 3 [osrc (.lit 1) 1, osrc (im 0x1000000) 8] (fun _ r => r.val 0 == 1) = true ∧
    ((after (.wpWrite 0 (im 0x1000000)) ncDev).lp 0).pc = 64 * 6 ∧
    okw demo 0 1 3 [osrc (.lit 0xD) 1, osrc (im 0) 8] (fun s1 r => r.val 0 == 0xD && (s1.lp 0).level == 0) = true ∧
    okw demo 0 1 3 [osrc (.lit 0xE) 1, osrc (im 0) 8] (fun s1 r => r.val 0 == 0xE && (s1.lp 0).level == 0) = true := by decide +kernel
theorem witness_LineInstructions :
    [0, 1, 2, 3, 4, 8, 12, 5, 0x10].all (fun k => okw demo 0 1 1 [osrc (im k) 1, oadr (.ind 3)] fun s1 r => r.val 0 == k.toNat && checksAs (s1.lp 0) (r.val 1) 1 .wb) = true ∧
    [0, 0x1F].all (fun k => okw demo 0 1 1 [osrc (im k) 1, oadr (.ind 3)] fun _ r => r.val 0 / 32 == 0) = true ∧
    ok [odst (.slot 4) 16] = true := by decide +kernel
theorem witness_ReservedEncodingConfined : demo.canRun 0 = true ∧ demo.fetchTrap 0 32 = none ∧ demo.fetchTrap 0 1 = none := by decide +kernel
theorem witness_DestinationWritten :
    okw demo 0 1 3 (dab 8 1 2) (fun s1 r => r.ps[0]? == some (.breg 6) && (s1.lp 0).sb.length ≤ 29) = true ∧
    okw demo 0 1 3 [odst (.slot 31) 8, osrc (b 1) 8] (fun _ r => r.ps[0]? == some (.wslot 248)) = true ∧
    okw demo 0 1 3 [odst (.slot 30) 16, osrc (.lit 1) 16] (fun _ r => r.ps[0]? == some (.wslot 240)) = true ∧
    okw demo 0 1 3 [odst (.ind 3) 16, osrc (.lit 1) 16] (fun s1 r => r.ps[0]? == some (.mem 0x4000) &&
      (match (s1.lp 0).check 0x4000 16 .write (s1.lp 0).level with | .ok _ => true | .error _ => false)) = true := by decide +kernel
theorem witness_OperandsFlagsCommit : ok [odst (.postInc 3) 8, osrc (.preDec 3) 8] = true ∧ (demo.lp 0).sb = [] ∧
    br (.mov 0 .q (.postInc 3) (b 1)) 3 = 0x4008 ∧ br (.mov 0 .q (.postInc 3) (b 1)) 4 = 0xF9 := by decide +kernel

/-! ### Transaction queues -/

/-- The 64 bytes of a descriptor (08 R208). -/
def desc (kind member len addr addr2 len2 time target : Nat) : List Byte :=
  natBytes 2 kind ++ natBytes 2 member ++ natBytes 4 len ++ natBytes 8 addr ++ natBytes 8 addr2 ++ natBytes 4 len2 ++ natBytes 4 7 ++ natBytes 8 time ++
    natBytes 8 0 ++ natBytes 8 target ++ natBytes 8 0
/-- Queue 4095 of owner 0x100 on logical engine 15, enabled with two descriptors posted; the first MiB is durable. -/
def qdev (durable : Bool) (d : List Byte) : State :=
  let q := 4095
  let regs := [(Off.tqCfg q, 2 ^ 63 + bit01 durable * 2 ^ 62 + 0x100 * 2 ^ 50 + 15 * 2 ^ 46), (Off.tqRing q, 0x10004), (Off.tqCq q, 0x12004), (Off.tqState q, 0x14000),
    (Off.tqBufhi q, 0xFFFFF), (Off.tqTail q, 1), (Off.twStat, 3), (Off.teStat 3, 1), (Off.twEngmap 1, 3 * 2 ^ 56), (Off.dur 0, 16 * 16 + 1)]
  regs.foldl (fun s e => s.setReg e.1 e.2) { demo with mem := memWriteBytes demo.mem 0x10000 d }
def peer : Nat := 3 * 2 ^ 62 + 9
def sends : State := qdev false (desc 1 0 4 0x5000 0 0 0 peer)
/-- What a dispatched descriptor meets: its status, its hold, and whether its buffer is read and its number taken. -/
def meets (s : State) : Option TStat × Option Hold × Bool × Bool :=
  let x := s.checkDesc 4095 (s.reg (Off.tqHead 4095))
  let u := ((s.setHeld 4095 none).headUp 4095 1).countHub 0 0 1
  (x.2, s.holdOf 4095 x.1, (u.withBuffer x.1).isSome, (u.takeNumber 4095 x.1).isSome)
def goes (s : State) (kind : Nat) : Bool := s.mayDispatch 4095 && !s.inGroup 4095 && s.headKind 4095 == kind

/-- The same with publication 5 in its table, which the queue may send, its GOOSE APPID and ports as zeros. -/
def pubs (s : State) : State := { s.setReg Off.pubBase 0x100001 with mem := memWriteBytes s.mem 0x100500 (natBytes 0x1A 1 ++ natBytes 2 4095) }
theorem witness_Dispatch : demo.mayDispatch 4095 = false ∧
    goes sends 1 = true ∧ meets sends = (none, none, true, true) ∧
    (let s := qdev false (desc 1 0 0 0x5000 0 0 0 peer); goes s 1 = true ∧ (meets s).1 = some .badDescriptor) ∧
    (let s := pubs (qdev false (desc 1 0 4 0x5000 0 0 0 (2 ^ 62 + 5 * 256))); goes s 1 = true ∧ meets s = (none, some .port, true, true)) ∧
    (let s := qdev false (desc 2 0 4 0x5000 0 0 0 0); goes s 2 = true ∧ (meets s).1 = none ∧ (meets s).2.1 = none) ∧
    (let s := qdev false (desc 3 0 4 0x5000 0x6000 4 0 peer); goes s 3 = true ∧ meets s = (none, none, true, true)) ∧
    (let s := qdev false (desc 4 0 4 0x5000 0x6000 0 0 0); goes s 4 = true ∧ (meets s).1 = none ∧ (meets s).2.1 = none ∧
      (after (.copy 4095 []) s).agentRead 0x6000 2 = [0x41, 0x42]) ∧
    (let s := qdev false (desc 6 0 4 0x5000 0 0 9 peer); goes s 6 = true ∧ meets s = (none, none, true, true) ∧
      (s.released (s.checkDesc 4095 0).1) = false) := by decide +kernel
theorem witness_Dispatch_durable :
    (let s := { sends with poison := [0x5000] }; goes s 1 = true ∧ (meets s).1 = none ∧ (meets s).2.2.1 = false) ∧
    (let s := qdev true (desc 1 0 4 0x5000 0 0 0 peer); goes s 1 = true ∧ meets s = (none, none, true, true) ∧ (s.checkDesc 4095 0).1.durable = true ∧
      (s.nvjWrite 4095 (.commit 0 1 0 0 0 1) []).2.1 = true ∧
      (s.nvjWrite 4095 (.commit 0 1 0 0 0 1) [(false, false), (false, false), (false, false), (false, false)]).2.1 = false) := by decide +kernel

/-- An open transaction to the peer, and the queue with a flow to it. -/
def txn (stage : Stage) : Txn := { sends.blankDesc 4095 7 with kind := 1, target := peer, timeout := 9, stage, seq := 2 ^ 48 + 1, timeNs := 9, length := 4 }
def flow : Flow := ⟨peer, 1, 1, 1, [3], 0, 0, 0, 0⟩
def qst (s : State) (f : TQueue → TQueue) : State := s.onTq 4095 fun x => f { x with inc := 1, flows := [(0, flow)] }
def inb (n : Nat) : Inbound := ⟨0, 9, peer, 4095, 2 ^ 48 + n, false, false, false, 0, [1, 2]⟩
theorem witness_Flows : (let s := qst sends id
    s.flowOf 4095 peer = some 0 ∧ s.flow? 4095 0 = some flow ∧ s.tqOn 4095 = true ∧ s.tqDurable 4095 = false ∧ seqInc (inb 3).seq = 1 ∧
      (s.arrive (inb 3) []).2 = .ack 1 ∧ (s.arrive (inb 0) []).2 = .ack 1 ∧ (s.arrive (inb 65537) []).2 = .silent ∧
      (s.arrive (inb 65536) []).2 ≠ .silent) := by decide +kernel
def group (k : Nat) : List Txn := (List.range k).map fun i => { txn .sent with kind := 5, member := 16 + i, count := i, timeNs := 0, seq := 0 }
theorem witness_Transactions :
    (let s := qst (qdev false (desc 5 16 4 0x5000 0 0 0 peer)) fun x => { x with group := group 1 }
     s.mayDispatch 4095 = true ∧ s.inGroup 4095 = true ∧ s.groupExpired (group 1) = none ∧ cnt32 (s.reg (Off.tqTail 4095)) (s.reg (Off.tqHead 4095)) ≤ 1) ∧
    (let s := qst (qdev false (desc 5 16 4 0x5000 0 0 0 peer)) fun x => { x with group := group 2 }
     s.mayDispatch 4095 = true ∧ s.inGroup 4095 = true ∧ s.groupExpired (group 2) = none ∧ s.groupHold 4095 (group 2) = none) ∧
    (let s := qst { qdev true (desc 5 16 4 0x5000 0 0 0 peer) with nvj := { Nvj.empty with atLimit := true } } fun x => { x with group := group 2 }
     s.mayDispatch 4095 = true ∧ s.inGroup 4095 = true ∧ s.groupHold 4095 (group 2) = some .journal) ∧
    [Stage.parked, .sent].all (fun g => (qst sends fun x => { x with opens := [txn g] }).openTxn 4095 7 == some (txn g)) = true ∧
    (let s := qst sends fun x => { x with held := some .flow }
     (s.tq 4095).held ≠ none ∧ s.mayDispatch 4095 = true ∧ s.inGroup 4095 = false ∧ meets s = (none, none, true, true)) ∧
    (let s := qst (qdev false (desc 1 0 4 0x5000 0 0 9 peer)) fun x => { x with held := some .flow }
     meets { s with time := { s.time with tb := 2 ^ 60 } } = (some .expired, none, true, true)) := by decide +kernel
theorem witness_Transactions_more :
    (let f := { flow with rxInc := 0 }
     let s := (qdev true (desc 1 0 4 0x5000 0 0 0 peer)).onTq 4095 fun x => { x with inc := 1, flows := [(0, f)] }
     s.flow? 4095 0 = some f ∧ s.tqDurable 4095 = true ∧ f.markTx ≠ s.txMark 4095 0 f ∧ (s.nvjWrite 4095 (.ackmark 0 (s.txMark 4095 0 f)) []).2.1 = true) ∧
    (let s := qst sends fun x => { x with waiting := [(0, natBytes 32 1, false)] }
     cnt32 (s.reg (Off.tqCqtail 4095)) (s.reg (Off.tqCqhead 4095)) < 2 ^ s.fld (Off.tqCq 4095) 0 5 ∧
      (after (.completionDeferredWrite 4095) s).agentRead 0x12000 1 = [1]) ∧
    (let s := (qst sends fun x => { x with waiting := [(0, natBytes 32 1, false)] }).setReg (Off.tqCqtail 4095) 16
     2 ^ s.fld (Off.tqCq 4095) 0 5 ≤ cnt32 (s.reg (Off.tqCqtail 4095)) (s.reg (Off.tqCqhead 4095))) := by decide +kernel

theorem witness_QueueRegistersAndEngines :
    reaches sends 0x100 (Off.tqTail 4095) 4 .tqTail [4095] = true ∧ sends.tqOwner 4095 = 0x100 ∧ sends.tqSlots 4095 = 16 ∧
    cnt32 16 (sends.reg (Off.tqRetire 4095)) ≤ 16 ∧ 16 < cnt32 17 (sends.reg (Off.tqRetire 4095)) ∧
    reaches sends 0x200 (Off.tqCfg 4095) 8 .tqCfg [4095] = true ∧ sends.tqOn 4095 = true ∧
    (let s := (sends.setFlag (Off.tqCfg 4095) 63 false).setReg (Off.tqRing 4095) 0x10010
     reaches s 0x200 (Off.tqCfg 4095) 8 .tqCfg [4095] = true ∧ s.tqOn 4095 = false ∧ s.tqDurable 4095 = false ∧ (s.tq 4095).opens = [] ∧
      s.fld (Off.tqCfg 4095) 42 4 = 0 ∧ s.fld (Off.tqRing 4095) 0 5 = 16 ∧ s.fld (Off.tqCq 4095) 0 5 = 4) ∧
    (let s := sends.setReg (Off.tqTail 4095) 0
     s.tqOn 4095 = true ∧ (s.tq 4095).recvs = [] ∧ (s.tq 4095).group = [] ∧ s.reg (Off.tqHead 4095) = s.reg (Off.tqTail 4095)) ∧
    sends.teState 3 = 1 ∧ sends.teState 17 ≠ 1 ∧ (sends.teng 3).tries = 0 ∧
    (let s := { sends with tengs := [(3, ⟨2, some 17⟩)] }; (s.teng 3).tries = 2 ∧ (s.teng (s.tePhys 15)).dest = some 17) ∧
    sends.nvj.degA = false ∧ sends.nvj.degB = false ∧
    (let s := sends.onNvj fun n => { n with live := [⟨32 * 16383, false, 4095, .ackmark 0 1, true, true⟩] }
     (s.nvj.live.any fun r => r.slot / 32 % 16384 == 16383) = true ∧ s.nvj.degA = false) := by decide +kernel

/-! ### Ports -/

/-- Port 127, up at 1 Gb/s, and a frame on it. -/
def pdev : State := (demo.setReg (Off.portCfg 127) (2 ^ 63 + 0x100)).setReg (Off.portStat 127) 3
def frame (len : Nat) : Frame := ⟨0x010CCD010001, 0x020000000001, len, true, false, none, false, 0x88B8, 3, none, none, none, .other, []⟩
/-- The rule of entry 255 of group 7 that takes every frame of port 127 to an action. -/
def ruled (act : Nat) : State :=
  (pdev.setReg (Off.clsRule 7 1020) (0x8000 + 65536)).setReg (Off.clsRule 7 1023) ((act + 1 * 65536) * 2 ^ 32)
theorem witness_FrameReception : demo.usable 127 = false ∧ pdev.usable 127 = true ∧ pdev.flag (Off.msecCfg 127) 63 = false ∧
    (frame 63).len < 64 ∧ 9216 < (frame 9217).len ∧ (frame 64).fcsOk = true ∧ (frame 64).red = none ∧ (frame 9216).sec = none ∧
    (let s := { pdev.setReg (Off.prpCfg 63) (65536 + 400) with ddts := [(63, [⟨0x020000000001, 9, 0⟩])] }
     s.redMode 127 = 1 ∧ ((s.ddtLive 63).any fun e => e.src == (frame 64).src && e.seq == 9) = true) := by decide +kernel
theorem witness_FrameReception_rules : pdev.classify 127 (frame 64) = none ∧
    [0, 1, 2, 3, 4, 5, 6].all (fun a => (ruled a).classify 127 (frame 64) == some (255, a, 1) && (ruled a).usable 127) = true := by decide +kernel

/-- A stream of 4000 numbers a second with a ring of 16, after number 3999. -/
def svd (present : Bool) : State :=
  let o := svOff 0 0
  { ((demo.setReg o (1 + 4 * 256 + 65536 + 4000 * 2 ^ 32)).setReg (o + 0x30) 3999).setReg (o + 0x38) 1 with
    streams := [(0, ⟨3999, 5, 0, 0⟩)],
    mem := if present then memWriteBytes (memWriteBytes [] ((demo.setReg o (1 + 4 * 256 + 65536)).svEntry 0 0).presence [255, 255]) (15 * 32 + 0x10) (natBytes 8 3999) else [] }
def sve : SvEntry := (svd false).svEntry 0 0
def lands (b : Bool) (smp : Nat) : Option Int := match (svd b).landX 0 0 sve smp with | .ok x => some x | .error k => some (-k)
theorem witness_SampleNumbers : sve.wrap = 4000 ∧ sve.m = 4 ∧ (svd false).flag (svOff 0 0 + 0x38) 0 = true ∧ demo.flag (svOff 0 0 + 0x38) 0 = false ∧
    lands false 0 = some 4000 ∧ lands false 1998 = some 5998 ∧ lands false 3992 = some 3992 ∧ lands false 3991 = some (-17) ∧ lands false 1999 = some (-17) ∧
    lands false 3998 = some 3998 ∧ lands true 3999 = some (-18) := by decide +kernel

/-! Port 127 sends. -/
def eg (c : EgClass) (body : TxBody) : EgFrame := ⟨c, 0, none, 70, none, body⟩
def queued (f : EgFrame) : State := pdev.onPort 127 fun x => { x with queue := [f] }
def pubDev (due cyc : Nat) : State :=
  { pdev with pubs := [(4095, ⟨1, 0, 0, [], 0, [(127, ⟨0, due, false, false⟩)]⟩)], time := { pdev.time with cycles := cyc } }
/-- Both ports of pair 63 up in HSR, and a tagged frame for others. -/
def hsrDev : State := ((pdev.setReg (Off.portCfg 126) (2 ^ 63 + 0x100)).setReg (Off.portStat 126) 3).setReg (Off.prpCfg 63) (2 * 65536 + 400)
def tagged : Frame := { frame 64 with red := some ⟨9, false⟩ }
theorem witness_FrameTransmission : demo.usable 127 = false ∧ pdev.nextFrame 127 = none ∧ (queued (eg .other .supervision)).usable 127 = true ∧
    (queued (eg .other .supervision)).nextFrame 127 = some (eg .other .supervision) ∧
    (let s := (queued (eg .other .supervision)).setFlag (Off.msecCfg 127) 63 true
     s.usable 127 = true ∧ s.nextFrame 127 = some (eg .other .supervision) ∧ s.bypasses 127 (bodyEther .supervision) = false ∧ (s.port 127).txAn = none) ∧
    tblGet? pdev.pubs 4095 = none ∧ (pubDev 9 8).time.cycles < 9 ∧ (pubDev 9 9).usable 127 = true ∧
    pdev.redMode 126 = 0 ∧ hsrDev.redMode 126 = 2 ∧ hsrDev.usable 126 = true ∧ pdev.yaf.ptp.role = 0 ∧ pdev.redMode 127 = 0 ∧
    (let s := { pdev with yaf := { pdev.yaf with ptp := ⟨1, 1, 0, 0, 128, 128, 2 ^ 127⟩ } }
     s.yaf.ptp.role ≠ 0 ∧ bitOf s.yaf.ptp.ports 127 = true ∧ s.usable 127 = true ∧ ((after (.ptpMessageSend 127 0) s).port 127).queue.length = 1) := by
  decide +kernel
theorem other_address (a b : BitVec 48) : ∃ x : BitVec 48, x ≠ a ∧ x ≠ b :=
  if h0 : (0 : BitVec 48) ≠ a ∧ (0 : BitVec 48) ≠ b then ⟨0, h0⟩
  else if h1 : (1 : BitVec 48) ≠ a ∧ (1 : BitVec 48) ≠ b then ⟨1, h1⟩
  else ⟨2, by
    constructor <;> intro h <;> subst h <;> revert h0 h1 <;> bv_omega⟩
/-- The addresses of this device's ports are free values: whatever they are, some frame is for others. -/
theorem witness_HsrForward : (frame 64).red = none ∧ hsrDev.usable 127 = true ∧ hsrDev.redMode 127 = 2 ∧
    hsrDev.seenHsr 127 tagged ⟨9, false⟩ = false ∧
    ({ hsrDev with ddts := [(64 + 127, [⟨0x020000000001, 9, 0⟩])] } : State).seenHsr 127 tagged ⟨9, false⟩ = true := by decide +kernel
theorem witness_HsrForward_addresses (a b : BitVec 48) : ∃ x y : BitVec 48, x ≠ a ∧ x ≠ b ∧ y ≠ a ∧ y ≠ b ∧
    ({ tagged with src := x, dst := y } : Frame).red = some ⟨9, false⟩ ∧ hsrDev.verified 127 { tagged with src := x, dst := y } = true := by
  obtain ⟨x, h⟩ := other_address a b
  exact ⟨x, x, h.1, h.2, h.1, h.2, rfl, (by decide +kernel : hsrDev.verified 127 tagged = true)⟩

theorem witness_PortEvents :
    (let s := { (svd false).setReg (svOff 0 0) (1 + 4 * 256 + 65536 + 4000 * 2 ^ 32) with streams := [(0, ⟨3999, 5, 0, 0⟩)] }
     (s.svEntry 0 0).stale = 0 ∧ s.flag (svOff 0 0 + 0x38) 0 = true) ∧
    [0, 8].all (fun fl => let s := { (svd false).setReg (svOff 0 0 + 0x18) (2 ^ 48) with time := { demo.time with cycles := 10005 } }
      let t := s.setReg (svOff 0 0) (s.reg (svOff 0 0) + fl)
      (t.svEntry 0 0).valid && t.flag (svOff 0 0 + 0x38) 0 && !t.flag (svOff 0 0 + 0x38) 1 && (t.svEntry 0 0).stale == 1 &&
        (t.svEntry 0 0).notify == (fl == 8) && decide ((t.stream 0 0).landed + 10000 ≤ t.time.cycles)) = true ∧
    (let s := { (demo.setReg (subOff 7 511) 1).setReg (subOff 7 511 + 0x10) 0x7000 with
        mem := [(0x7001, 1)], subs := [(512 * 7 + 511, ⟨5, 112, 1, 0⟩)], time := { demo.time with cycles := 1000005 } }
     let e := s.entryBytes (subOff 7 511) 8
     fieldLE e 0x10 8 = 0x7000 ∧ bitOf (fieldLE e 0 1) 0 = true ∧ bitOf (memGet s.mem 0x7001).toNat 0 = true ∧ bitOf (memGet s.mem 0x7001).toNat 1 = false ∧
      (s.sub 7 511).seen + (s.sub 7 511).tal * 1000000 ≤ s.time.cycles) := by decide +kernel
theorem witness_PortEvents_modules : (demo.cage 127).ident = none ∧
    (let r : LifeRec := ⟨1, 2, 0, 5, 5, [], 1, 1, 0, true⟩
     let s := { demo with cages := [(127, ⟨some (1, 2), false, false⟩)], svc := { demo.svc with lives := [r] } }
     (s.cage 127).ident = some (1, 2) ∧ s.svc.lives = [r]) ∧
    bitOf demo.yaf.mod.steer 7 = false ∧ demo.linkOfPort 127 = none ∧
    (let s := { pdev with yaf := { pdev.yaf with mod := { pdev.yaf.mod with steer := 128 } }, svc := { pdev.svc with map := [⟨9, 7, 3, false⟩] } }
     bitOf s.yaf.mod.steer 7 = true ∧ s.flag (Off.portStat 127) 5 = false ∧ s.flag (Off.portStat 127) 4 = false ∧
      s.flag (Off.portCfg 127) 63 = true ∧ s.laneTaken 7 = true) := by decide +kernel
theorem witness_PortControl :
    reaches demo 0x200 (Off.portCfg 127) 8 .portCfg [127] = true ∧ demo.flag (Off.portStat 127) 2 = false ∧ demo.flag (Off.portStat 127) 1 = false ∧
    reaches demo 0x200 (Off.msecCfg 127) 8 .msecCfg [127] = true ∧ demo.linkOfPort 127 = none ∧
    (demo.portCfgWrite 127 (setBit (demo.reg (Off.portCfg 127)) 63 false)).linkOfPort 127 = none ∧
    (let s := demo.setReg (Off.portStat 127) 4
     s.flag (Off.portStat 127) 2 = true ∧ s.flag (Off.portStat 127) 1 = false ∧
      (((s.onPort 127 fun x => { x with lock := false }).setFlag (Off.portStat 127) 2 false).portErr 127 1 0 false).linkOfPort 127 = none) ∧
    (demo.setReg (Off.portStat 127) 0x20).flag (Off.portStat 127) 5 = true ∧ State.reset.ready = false ∧ demo.ready = true ∧
    ({ demo with resetReqs := [.link 127] } : State).resetReqs.contains (.link 127) = true ∧ (demo.resetTaken (.port 127)).linkOfPort 127 = none := by
  decide +kernel

/-! ### Links -/

def stp (n : Nat) : Stamp := ⟨n, 0⟩
def pkt (typ dest : Nat) (bytes : List Byte) : Packet :=
  { demo.newPacket typ 0 dest 4095 9 (2 ^ 48 + 1) with payload := bytes, tlen := bytes.length, hops := 3, srcDev := 9 }
/-- Link 127, enabled at one lane, in a state of LNK_STAT; the device is 5 of domain 0, and member 9 lies behind the link. -/
def ldev (st : Nat) (f : Link → Link) : State :=
  (([(Off.lnkCfg 127, 2 ^ 63), (Off.lnkStat 127, 0x10 + st), (Off.rtSelf, 2 ^ 31 + 5), (Off.rtMember 9, 2 ^ 63 + 127), (Off.rtCtrl, 0x40)] : List (Nat × Nat)).foldl
    (fun s e => s.setReg e.1 e.2) demo).onLink 127 f
def up (f : Link → Link) : State := ldev 2 fun x => f { x with credits := [(0, 64)] }
def rep (n : Nat) : Replay := ⟨n, ⟨pkt 1 9 [1], 0⟩, 0⟩
theorem witness_LinkProtocol : (ldev 1 id).linkOn 127 = true ∧ (ldev 1 id).lanesLocked 127 = true ∧ (ldev 1 id).linkState 127 = 1 ∧
    (ldev 1 id).lanesNow 127 = 1 ∧ (ldev 1 id).fld (Off.lnkCfg 127) 40 1 = 0 ∧ ((after (.initReceived 127 1 0 true) (ldev 1 id)).linkUp 127) = true ∧
    demo.linkOn 127 = false ∧ demo.linkUp 127 = false ∧ (up id).linkUp 127 = true ∧
    (let s := up fun x => { x with replay := [rep 254, rep 255, rep 0] }
     (s.link 127).replay.findIdx? (fun r => r.seq == 255) = some 1 ∧ (s.link 127).replay[1]? = some (rep 255) ∧
      ((after (.lackReceived 127 255 false) s).link 127).replay = [rep 0] ∧
      (s.link 127).replay.findIdx? (fun r => r.seq == (254 + 255) % 256) = none ∧ (s.link 127).replay.any (fun r => r.seq == 254) = true) ∧
    (let s := up fun x => { x with replay := [rep 3], resends := 7 }; (s.link 127).resends = 7 ∧ ((after (.replayTimeout 127) s).linkUp 127) = false) ∧
    (let s := up fun x => { x with replay := [rep 3], resends := 6 }; (s.link 127).resends < 7 ∧ ((after (.replayTimeout 127) s).link 127).resends = 7) := by
  decide +kernel
theorem witness_LinkProtocol_sends :
    (let q : QPkt := ⟨pkt 1 9 [1], 0⟩
     let s := up fun x => { x with queue := [q] }
     s.linkUp 127 = true ∧ (s.link 127).replay.length < 255 ∧ (s.link 127).queue.all (fun q => (s.link 127).affords q) = true ∧
      oldest s.hcNow ((s.link 127).queue.filter fun q => (s.link 127).affords q) = some q) ∧
    ((up fun x => { x with lackDue := true }).link 127).lackDue = true ∧ ((up id).link 127).discard = false ∧
    ((up fun x => { x with discard := true }).link 127).discard = true ∧ 0 < (up id).lanesCfg 127 ∧
    (let u := (up id).setFlag (Off.lnkStat 127) 4 false; (u.link 127).base = 0 ∧ u.lanesNow 127 = 1 ∧ 2 ≤ u.linkState 127) ∧
    reaches (up id) 0x200 (Off.lnkCfg 127) 8 .lnkCfg [127] = true ∧ bits (2 ^ 63) 63 1 = 1 ∧ bits (2 ^ 63) 48 2 = 0 ∧
    ((up id).setReg (Off.lnkCfg 127) (2 ^ 63 + 2 ^ 48)).fld (Off.lnkCfg 127) 48 2 ≠ 0 := by decide +kernel

theorem witness_PacketReception : demo.linkUp 127 = false ∧ (up id).linkUp 127 = true ∧
    ((up id).linkAccept 127 (pkt 1 9 [])).route (pkt 1 9 []) = .out 127 ∧
    ((up id).linkAccept 127 (pkt 1 9 [])).route { pkt 1 9 [] with hops := 0 } = .hops ∧
    ((up id).linkAccept 127 (pkt 1 8 [])).route (pkt 1 8 []) = .none ∧
    [1, 2, 3].all (fun t => ((up id).linkAccept 127 (pkt t 5 [1, 2])).route (pkt t 5 [1, 2]) == .deliver) = true ∧
    (let s := (up id).setReg (Off.tqCfg 4095) (15 * 2 ^ 46)
     let p := pkt 1 5 [1, 2]
     let u := s.linkAccept 127 p
     u.context (u.tqEngine 4095) p = none ∧ (u.reasm.filter fun r => r.eng == 15).length < 1024 ∧
      (u.context (u.tqEngine 4095) p).isNone = true ∧ (after (.dataPacket 127 { p with tlen := 3 } []) s).reasm.length = 1) ∧
    (let r : Reasm := ⟨15, 9, 9, 4095, 1, 2, false, false, false, 0, 0, [(0, [1, 2])]⟩
     let s := { up id with reasm := List.replicate 1024 { r with seq := 0 } }
     1024 ≤ (s.reasm.filter fun x => x.eng == 15).length ∧ r.held = r.tlen ∧ (tblGet? r.segs (pkt 1 5 [1]).offset).isSome = true) := by decide +kernel

theorem witness_TimeTransferAndFormation : demo.linkUp 127 = false ∧ (up id).linkUp 127 = true ∧ ((up id).link 127).meas = [] ∧
    (let x : Tsync := ⟨255, stp 1, none, some (stp 2, stp 3)⟩
     ((up fun k => { k with tsync := [x] }).link 127).tsync.find? (fun m => m.ident == 255) = some x) ∧
    (let x : Tsync := ⟨0, stp 1, none, none⟩
     ((up fun k => { k with tsync := [x] }).link 127).tsync.find? (fun m => m.ident == 0) = some x) ∧
    (((up id).linkAccept 127 { (up id).newPacket 5 0 (up id).selfDev 0 0 0 with payload := natBytes 32 0 }).link 127).tsync.find?
      (fun m => m.ident == 9) = none ∧
    (((up id).linkAccept 127 ((up id).newPacket 4 0 (up id).selfDev 0 0 0)).link 127).nbr = none ∧ (up id).myDomain = 0 ∧ (up id).form = [] := by
  decide +kernel
/-- This device's identity is a free value: another identity there always is, and a device alone is the root of its part. -/
theorem witness_Formation_node : ∃ n : FormNode, n.domain = 0 ∧ n.uid ≠ myUid := ⟨⟨0, none, myUid + 1, 0, []⟩, rfl, by simp⟩
theorem alone (n : FormNode) (h : n.links = []) : formRoot ([n].filter fun m => (tblGet? (hopsFrom [n] n.uid) m.uid).isSome) = some n := by
  simp [hopsFrom, spread, neighbours, h, tblGet?, formRoot]
theorem witness_Formation_root : (demo.flood none demo.myNode).formNodes = [demo.myNode] ∧ demo.myNode.links = [] ∧
    formRoot ([demo.myNode].filter fun m => (tblGet? (hopsFrom [demo.myNode] myUid) m.uid).isSome) ≠ none := by
  refine ⟨rfl, rfl, ?_⟩
  rw [show myUid = demo.myNode.uid from rfl, alone demo.myNode rfl]
  simp

/-! ### Time, jobs, mailboxes -/

def tdev (l : List (Nat × Nat)) : State := l.foldl (fun s e => s.setReg e.1 e.2) demo
theorem witness_TimeDiscipline : demo.flag Off.ppsCfg 29 = false ∧ (tdev [(Off.ppsCfg, 2 ^ 29)]).ppsAccept = true ∧
    (let s := { tdev [(Off.ppsCfg, 2 ^ 29)] with time := { demo.time with cycles := 500000000 }, yaf := { demo.yaf with disc := { demo.yaf.disc with ppsAt := some 0 } } }
     s.flag Off.ppsCfg 29 = true ∧ s.ppsAccept = false) ∧ demo.flag Off.ppsCfg 31 = false ∧
    ((tdev [(Off.ppsCfg, 3 * 2 ^ 30)]).flag Off.ppsCfg 31 && (tdev [(Off.ppsCfg, 3 * 2 ^ 30)]).flag Off.ppsCfg 30) = true ∧
    (tdev [(Off.timeStat, 2)]).fld Off.timeStat 0 2 = 2 ∧ (tdev [(Off.timeCtrl, 1)]).sampleOf 5 = some 5 ∧ (tdev [(Off.timeCtrl, 0)]).sampleOf 5 = none ∧
    (3200 : Int).natAbs ≤ lockThreshold 1 ∧ demo.yaf.disc.within < 15 ∧ (12800 : Int).natAbs ≤ 4 * lockThreshold 1 ∧
    demo.yaf.disc.sampleAt + lossTimeout 1 ≤ demo.time.cycles ∧ demo.time.cycles < demo.yaf.disc.sampleAt + lossTimeout 2 ∧ demo.time.slew = 0 := by decide +kernel
theorem witness_TimeDiscipline_timers :
    (let s := { tdev [(Off.tmrCtrl 0 0, 2 ^ 63 + 2 ^ 62 + 10), (Off.tmrCmp 0 0, 7)] with time := { demo.time with tb := 7 * 2 ^ 48 } }
     0 < s.slots 0 ∧ s.flag (Off.tmrCtrl 0 0) 63 = true ∧ s.flag (Off.tmrCtrl 0 0) 62 = true ∧ s.reg (Off.tmrCmp 0 0) ≤ (s.stampIn 0).ns ∧
      (after (.timerFire 0 0) s).reg (Off.tmrCmp 0 0) = 17) ∧
    (tdev [(Off.tmrCtrl 15 2, 2 ^ 63), (Off.tmrCmp 15 2, 7)]).flag (Off.tmrCtrl 15 2) 62 = false ∧
    ((tdev [(Off.tmrCmp 15 2, 7)]).stampIn 15).ns < 7 ∧ 2 < demo.slots 15 ∧
    reaches demo 0x200 Off.timeAdj 8 .timeAdj [] = true ∧ reaches demo 0x201 Off.timeCtrl 4 .timeCtrl [] = true ∧
    ((after (.timeStep 0x200 5) demo).time.tb : Int) = 5 * 2 ^ 48 ∧ (after (.timeSlew 0x200 5) demo).time.slew = 5 * 2 ^ 48 := by decide +kernel

/-- Descriptors of the two pools (12 R338, R350). -/
def pdesc (op fl src sl dst dl st : Nat) : List Byte :=
  natBytes 1 op ++ natBytes 7 fl ++ natBytes 8 src ++ natBytes 8 sl ++ natBytes 8 dst ++ natBytes 8 dl ++ natBytes 8 st ++ natBytes 16 0
def cdesc (op mode key src dst n iv mac : Nat) : List Byte :=
  natBytes 1 op ++ natBytes 1 mode ++ natBytes 6 key ++ natBytes 8 src ++ natBytes 8 dst ++ natBytes 8 n ++ natBytes 8 0 ++ natBytes 8 iv ++ natBytes 8 mac ++
    natBytes 8 0
/-- Ring 35 of a pool, enabled, with one descriptor posted, and its engine 35 ACTIVE. -/
def jdev (p : Pool) (d : List Byte) : State :=
  let r : List (Nat × Nat) := [(jCfg p 35, 2 ^ 63 + 0x100 * 2 ^ 50), (jBase p 35, 0x10004), (jCq p 35, 0x12004), (jBufhi p 35, 0xFFFFFF), (jTail p 35, 1), (eBase p 35, 1)]
  (r.foldl (fun (s : State) e => s.setReg e.1 e.2) { demo with mem := memWriteBytes demo.mem 0x10000 d }).onJRing p 35 fun q => { q with posts := [(1, 0)] }
def endsAs (s : State) (p : Pool) (d : List Byte) : Option Nat := match s.jStart p 35 d with | .over st _ => some st | .run .. => none
def unp : List Byte := pdesc 2 0 0x5000 4 0x6000 0x100 0x20000
def cmp : List Byte := pdesc 1 0 0x5000 4 0x6000 0x100 0x20000
def run (p : Pool) (d : List Byte) : State := after (.jobDispatch p 35) (jdev p d)
def running (p : Pool) (d : List Byte) : Option Job := ((run p d).jEng p 35).job
theorem witness_JobEngines_dispatch : [Pool.prism, .cipher].all (fun p => demo.fld (eBase p 35) 0 2 != 1 && (demo.jPick p).isNone) = true ∧
    [(Pool.prism, unp), (.cipher, cdesc 3 4 0 0x5000 0 4 0 0x6000)].all (fun x => let s := jdev x.1 x.2
      s.fld (eBase x.1 35) 0 2 == 1 && (s.jEng x.1 35).job.isNone && s.jPick x.1 == some 35 && s.dmaRead (s.jSlotAddr x.1 35 0) 64 == some x.2 &&
        endsAs s x.1 x.2 == none && (running x.1 x.2).isSome) = true ∧
    endsAs (jdev .prism (pdesc 3 0 0x5000 4 0x6000 0x100 0x20000)) .prism (pdesc 3 0 0x5000 4 0x6000 0x100 0x20000) = some 1 ∧
    endsAs (jdev .prism (pdesc 2 0 0x5000 4 0x1000000 0x100 0x20000)) .prism (pdesc 2 0 0x5000 4 0x1000000 0x100 0x20000) = some 2 ∧
    ({ jdev .prism unp with poison := [0x10000] } : State).dmaRead 0x10000 64 = none ∧
    (demo.setReg (eBase .prism 35) 2).fld (eBase .prism 35) 0 2 = 2 ∧ ((run .prism unp).jEng .prism 35).tries < 3 := by decide +kernel
theorem witness_JobEngines_awake : demo.shutdown = false ∧ (demo.setReg (eBase .prism 35) 2).shutdown = false ∧
    [(Pool.prism, unp), (.prism, cmp), (.cipher, cdesc 3 4 0 0x5000 0 4 0 0x6000)].all (fun x => !(jdev x.1 x.2).shutdown && !(run x.1 x.2).shutdown) = true := by decide +kernel
theorem witness_JobEngines_prism : (demo.jEng .prism 35).job = none ∧ (demo.jEng .cipher 35).job = none ∧
    ((running .prism unp).any fun x => x.fin.isNone && descOp x.desc == 2) = true ∧
    ((running .prism cmp).any fun x => x.fin.isNone && descOp x.desc == 1 && decide (0 < x.srcLeft) && !x.final) = true ∧
    ((running .prism cmp).any fun x => { run .prism cmp with poison := [0x5000] }.dmaRead x.srcAt (min 32768 x.srcLeft) == none) = true ∧
    ((running .prism unp).any fun x => ((run .prism unp).prismSave x false x.str).isSome) = true ∧
    ((running .prism unp).any fun x => ((run .prism unp).prismSave { x with desc := pdesc 2 0 0x5000 4 0x6000 0x100 0x1000000 } false x.str).isNone) = true := by
  decide +kernel

/-- A key of 16 zero bytes for the owner, and a GCM decryption of 4 bytes under it. -/
def gcm : List Byte := cdesc 2 0xF1 0 0x5000 0x6000 4 0x7000 0x7100
def kdev : State := { (jdev .cipher gcm).setReg (Off.keyStat 0) (2 ^ 31 + 2 ^ 24 + 0x100) with pools := { (jdev .cipher gcm).pools with keys := [(0, natBytes 16 0)] } }
def krun : State := after (.jobDispatch .cipher 35) kdev
theorem witness_JobEngines_cipher : krun.shutdown = false ∧
    [1, 2, 3, 4, 5].all (fun op => let d := cdesc op (if op ≤ 2 then 0xF1 else 4) 0 0x5000 (if op ≤ 2 then 0x6000 else 0) 4 0x7000 0x7100
      !cipherBad d && descOp d == op) = true ∧
    ((krun.jEng .cipher 35).job.any fun x => x.fin.isNone && descOp x.desc == 2 && cMode x.desc == 1 && (krun.dmaRead (fieldLE x.desc 0x28 8) 12).isSome &&
      (krun.cipherInput x).isSome && x.aadLeft == 0 && x.inLeft == 4) = true ∧
    (krun.dmaWrite 0x6000 (List.replicate 4 0)).isSome = true ∧ (krun.dmaRead 0x7100 16).isSome = true := by decide +kernel

theorem witness_JobRingsAndKeys :
    [(Pool.prism, RegName.pjTail, RegName.pjCfg, pdesc 2 0 0 0 0 0 0), (.cipher, .cjTail, .cjCfg, [])].all (fun x => let s := jdev x.1 x.2.2.2
      reaches s 0x100 (jTail x.1 35) 4 x.2.1 [35] && s.jOwner x.1 35 == 0x100 && reaches s 0x3F (jTail x.1 35) 4 x.2.1 [35] && s.jSlots x.1 35 == 16 &&
        cnt32 16 (s.reg (jHead x.1 35)) == 16 && reaches s 0x200 (jCfg x.1 35) 8 x.2.2.1 [35] && s.jOn x.1 35 &&
        reaches demo 0x200 (jCfg x.1 35) 8 x.2.2.1 [35] && !demo.jOn x.1 35) = true ∧
    reaches demo 0x200 Off.keyCmd 8 .keyCmd [] = true ∧ (demo.setReg (Off.keyStat 1023) (2 ^ 30)).flag (Off.keyStat 1023) 30 = true ∧
    demo.flag (Off.keyStat 1023) 30 = false ∧ demo.keyLoadResult 1023 1 16 0x100 (demo.keyData 16) = 0 ∧
    (demo.setReg (Off.keyStat 1023) (2 ^ 30)).keyLoadResult 1023 1 16 0x100 (demo.keyData 16) = 1 := by decide +kernel

/-- Channel 4095, from 0x100 to a receiver, with doorbell 31. -/
def bound (to_ : Nat) (c : Chan → Chan) : State := (demo.setReg (Off.mbxBind 4095) (2 ^ 62 + 31 * 2 ^ 32 + to_ * 65536 + 0x100)).onChan 4095 c
theorem witness_DoorbellRing : reaches (bound 0x3F id) 0x100 (Off.mbxRing 4095) 4 .mbxRing [4095] = true ∧ (bound 0x3F id).bindValid 4095 = true ∧
    (bound 0x3F id).dbReceiver 0x3F = true ∧ (bound 0x200 id).dbReceiver ((bound 0x200 id).bindReceiver 4095) = true ∧ (bound 0x3F id).bindReceiver 4095 = 0x3F ∧
    ((after (.mbxRingWrite 0x100 4095 1) (bound 0x200 id)).flag (Off.dbPendCp 0) 31) = true ∧
    reaches demo 0 (Off.mbxRing 4095) 4 .mbxRing [4095] = true ∧ demo.bindValid 4095 = false := by decide +kernel

def words (len : Nat) : Tbl (BitVec 64) := (List.range 8).map fun i => (i, if i = 0 then BitVec.ofNat 64 (len * 2 ^ 44) else 0)
def msg (n : Nat) : Msg := ⟨BitVec.ofNat 64 (n * 2 ^ 28) :: List.replicate 7 0, false⟩
theorem witness_Mailboxes : reaches (bound 0x3F id) 0x100 (Off.mbxTx 4095 7) 8 .mbxTx [4095, 7] = true ∧
    reaches (bound 0x3F id) 0x100 (Off.mbxPost 4095) 4 .mbxPost [4095] = true ∧ ((bound 0x3F id).chan 4095).staging.length < 8 ∧
    [(56, 56), (57, 57)].all (fun x => let s := bound 0x3F fun c => { c with staging := words x.1 }
      decide (8 ≤ (s.chan 4095).staging.length) && bits ((s.chan 4095).words.headD 0).toNat 44 6 == x.2 && s.bindValid 4095) = true ∧
    ((bound 0x3F fun c => { c with store := (List.range 8).map msg }).chan 4095).store.length = 8 ∧ (demo.chan 4095).blocking = none ∧
    ((after (.blockingPost 0x100 4095 9) (bound 0x3F fun c => { c with staging := words 8, store := (List.range 8).map msg })).chan 4095).blocking ≠ none ∧
    reaches (bound 0x3F id) 0x3F (Off.mbxPop 4095) 4 .mbxPop [4095] = true ∧
    (let s := bound 0x3F fun c => { c with store := [msg 65535, msg 0] }
     (s.chan 4095).store = [msg 65535, msg 0] ∧ (msg 65535).seq = (0x1FFFF : BitVec 32).toNat % 65536 ∧ (s.chan 4095).blocking = none ∧
      ((after (.pop 0x3F 4095 65535) s).chan 4095).store = [msg 0]) := by decide +kernel
theorem witness_Mailboxes_bindings : reaches demo 0x200 (Off.mbxBind 4095) 8 .mbxBind [4095] = true ∧
    (demo.setReg (Off.mbxBind 4095) (2 ^ 63)).flag (Off.mbxBind 4095) 63 = true ∧ demo.flag (Off.mbxBind 4095) 63 = false ∧ (demo.chan 4095).store = [] ∧
    reaches demo 63 (Off.dbPendHf 63) 4 .dbPendHf [63] = true ∧ reaches demo 63 (Off.dbMaskHf 63) 4 .dbMaskHf [63] = true ∧
    reaches demo 0x201 (Off.dbPendCp 1) 4 .dbPendCp [1] = true ∧ reaches demo 0x201 (Off.dbMaskCp 1) 4 .dbMaskCp [1] = true ∧
    ({ demo with split := 0xFFFF } : State).dbReceiver 0x15F = true ∧ demo.dbReceiver 0x15F = false ∧
    reaches { demo with split := 0xFFFF } 0x15F (Off.dbPendLp 15 5) 4 .dbPendLp [15, 5] = true ∧
    reaches { demo with split := 0xFFFF } 0x200 (Off.dbMaskLp 15 5) 4 .dbMaskLp [15, 5] = true ∧ cmdExists ⟨0x15F, 0, 0, 0, 0, true⟩ = true ∧
    (demo.onLp 96 fun p => { p with run := .lost }).yafAlive = false ∧ demo.shutdown = false ∧
    (let s := { demo with reqs := [(0, { demo.req 0 with comps := [(0, natBytes 48 1)] })] }
     s.yafAlive = true ∧ (s.chan (complChannel 0 0)).store.length < 8 ∧ (s.req 0).comps = [(0, natBytes 48 1)]) := by decide +kernel

/-! ### Pairs, debug access, faults, tests, resets, the host -/

def stat (n : Nat) : State := (demo.onLp 0 fun p => { p with run := .running }).setFld (Off.cmpStat 0 0) 14 2 n
def good : RepairVerdict := ⟨true, true, true, false⟩
theorem witness_MirrorPairs : ({ demo with split := 1 } : State).isSplit 0 = true ∧ demo.isSplit 0 = false ∧ (demo.pair (pairNum 0 0)).cmpOff = false ∧
    (demo.lp (pairLp 0 0)).run = .running ∧ (demo.onLp 0 fun p => { p with run := .repairing }).lp (pairLp 0 0) = { lp0 with run := .repairing } ∧
    (stat 2).fld (Off.cmpStat 0 0) 14 2 < 3 ∧ (stat 3).fld (Off.cmpStat 0 0) 14 2 = 3 ∧
    [good, { good with leadOk := false }, { good with trailOk := false }].all (fun v => repairPath [] v != .none) = true ∧
    (demo.setReg (Off.cmpSpare 0) 0x2A).spareState 0 0 = 2 ∧ demo.spareState 0 2 = 0 ∧ demo.fld (Off.cmpCtrl 0) 8 8 ≠ 0 ∧
    (let s := demo.onPair 0 fun p => { p with leaky := List.replicate 16 0 }; s.fld (Off.cmpCtrl 0) 8 8 ≤ s.recentRetries 0 0) ∧
    demo.recentRetries 0 0 < demo.fld (Off.cmpCtrl 0) 8 8 ∧ (demo.lp 97).run ≠ .lost ∧ demo.cpSpareFree = true ∧
    ({ demo with svc := { demo.svc with map := [⟨8, 0, 0, false⟩] } } : State).cpSpareFree = false := by decide +kernel
theorem witness_DebugAccess : (demo.lp 0).run = .running ∧ (after (.tamlerHalt 0) demo).lp 0 = { lp0 with run := .debug, was := .running } ∧
    (demo.lp 1).run ≠ .running ∧ srKnown 0xFF = false ∧ checksAs (lp0) 0x4000 8 .wb = true ∧ demo.pairOf 97 = none ∧ demo.pairOf 0 = some (0, 0) ∧
    (let s := (after (.tamlerHalt 0) demo).setFlag (Off.cmpStat 0 0) 31 true; (s.lp 0).run = .debug ∧ s.flag (Off.cmpStat 0 0) 31 = true) := by decide +kernel
theorem witness_FaultBlock : sourceReserved 766 = false ∧ sourceReserved 767 = true ∧
    (let s := (demo.setReg (Off.errSrc 766) (2 ^ 31 + 255)).setReg (Off.errFirst 23) 1; s.flag (Off.errSrc 766) 31 = true ∧ s.flag (Off.errFirst 23) 0 = true) ∧
    State.reset.ready = false ∧ State.reset.flag (Off.errSrc 0) 31 = false ∧ reaches demo 0x200 (Off.errSrc 767) 4 .errSrc [767] = true ∧
    reaches demo 0x200 (Off.errFirst 23) 4 .errFirst [23] = true ∧ reaches demo 0x200 (Off.errReactHi 23) 8 .errReactHi [23] = true ∧
    reaches demo 0x200 (Off.errReactLo 0) 8 .errReactLo [0] = true ∧ (demo.setReg Off.fprCtrl (2 ^ 31)).flag Off.fprCtrl 31 = true ∧
    reaches demo 0x201 Off.errPin 4 .errPin [] = true ∧ demo.errPin.low = false ∧ (demo.assertErrN 9).errPin.low = true ∧
    ({ demo.assertErrN 9 with time := { demo.time with cycles := 20000 } } : State).errPin.since + 20000 ≤ 20000 ∧
    (after (.errPinRelease 0x200) (demo.assertErrN 9)).errPin.armed = true ∧ (demo.setReg Off.fprStat 1).flag Off.fprStat 0 = true ∧
    demo.flag Off.fprStat 3 = false ∧ 1080 ≤ thermVal ((demo.setReg (Off.therm 0) 1080).fld (Off.therm 0) 0 16) ∧
    tblGet? ({ demo with errHeld := [(4 * 97 + 2, (5, 6))] } : State).errHeld (4 * 97 + 2) = some (5, 6) := by decide +kernel
theorem witness_LifeTestAndLens : tblGet? ({ demo with svc := { demo.svc with marks := [(8 * 15 + placeHalf 0, 3)] } } : State).svc.marks (8 * 15 + placeHalf 0) = some 3 ∧
    demo.fuseTask = none ∧ reaches demo 0x200 Off.bistCtrl 4 .bistCtrl [] = true ∧ demo.chip.bist = none ∧ bistExists 0 0 = false ∧ bistExists 1 15 = true ∧
    demo.bistReady 1 15 = false ∧ ({ demo with chip := { demo.chip with offline := 0x8000 } } : State).bistReady 1 15 = true ∧
    (let s := { demo with chip := { demo.chip with offline := 0x8000, bist := some (1, 15, 0) } }
     s.bistCounts 1 15 0 = 0 ∧ s.bistCounts 1 15 1 ≠ 0 ∧ s.clusterSpares 15 1 = true ∧ s.clusterSpares 15 0x1000 = false) ∧
    demo.flag Off.lensCtrl 31 = false ∧
    (let s := demo.setReg Off.lensCtrl (2 ^ 31 + 2 ^ 30); s.flag Off.lensCtrl 31 = true ∧ s.reg Off.lensSnapAt ≤ s.now ∧ (s.setReg Off.lensSnapAt 9).now < 9) ∧
    demo.chip.freezeOn = false ∧ reaches demo 0x201 Off.lensCtrl 4 .lensCtrl [] = true ∧
    [(6, 0), (0x786, 11), (0x81F, 6), (0x82F, 4), (0x832, 7)].all (fun x => match regAt (0x34000000 + x.1 * 4096 + x.2 * 8) with
      | some (d, _) => [RegName.lensHubCnt, .lensClCnt, .lensScCnt, .lensDrCnt].contains d.name | none => false) = true := by decide +kernel
theorem witness_FuseTask : (let s := { demo with svc := { demo.svc with map := [⟨1, 2, 3, false⟩] } }; s.fuseTask.isSome) = true := by decide +kernel

def bootIn (a b : Bool) : BootInput := ⟨0, 0, false, 0, a, b, true, [], [], [], [], true, 0x1000000, true, true⟩
theorem witness_ResetsAndBoot : demo.shutdown = false ∧ ({ demo with resetReqs := [.cold 3] } : State).resetReqs.contains (.cold 3) = true ∧
    demo.resetReqs.contains (.cold 3) = false ∧
    ((List.range 24).all fun i => decide (thermVal (State.reset.fld (Off.therm i) 0 16) < 920)) = true ∧
    ((List.range 24).all fun i => decide (thermVal ((demo.setReg (Off.therm 23) 920).fld (Off.therm i) 0 16) < 920)) = false ∧
    State.reset.ready = false ∧ State.reset.phase ≠ 0xF ∧ (State.reset.setFld Off.bootStat 4 4 0xF).phase = 0xF ∧
    (let s := State.reset.setFld Off.bootStat 4 4 6; s.phase = 6 ∧ s.flag Off.dramInit 63 = false ∧ s.installed < 2 ^ 52) ∧
    ((State.reset.setFlag Off.dramInit 63 true).flag Off.dramInit 63) = true ∧ demo.ready = true ∧ demo.warmAsked 5 = none ∧
    ({ demo with resetReqs := [.warm 767] } : State).warmAsked 5 = some 767 ∧ ({ demo with resetReqs := [.warm 0x3FF] } : State).warmAsked 6 = some 0x3FF ∧
    demo.underTest 15 = false ∧ ({ demo with chip := { demo.chip with bist := some (2, 15, 0) } } : State).underTest 15 = true ∧
    demo.lpExists 97 = true ∧ demo.lpExists 95 = false := by decide +kernel
theorem witness_FailedBoot : (bootIn false false).imageA = false ∧ (bootIn false false).imageB = false ∧ State.reset.bootFail.phase = 0xF := by decide +kernel

def hdev : State := { demo with chip := { demo.chip with hdm := some (0x100000000, 0x1000000, 0) } }.setReg Off.hpStat (3 + 63 * 65536)
def msix : State := { hdev with fns := [(63, { HostFn.reset with enabled := true, masked := false, pend := [msixCount 63 - 1], table := [(msixCount 63 - 1, ⟨0, 0, false⟩)] })] }
theorem witness_HostPort : demo.flag Off.hpStat 0 = false ∧ demo.hostOk = false ∧ hdev.flag Off.hpStat 0 = true ∧ hdev.hostOk = true ∧ hdev.ready = true ∧
    hdev.chip.hdm = some (0x100000000, 0x1000000, 0) ∧ 0x100FFFFFF + 1 ≤ 0x100000000 + 0x1000000 ∧ (0x20000000 : Nat) % 0x10000000 = 0 ∧
    0 + 0 ≤ hdev.installed ∧ hdev.installed < 0x10000000 ∧
    (let l := lineOf (hostBase + 0x1000); hdev.addrKind l = .host ∧ hdev.holders l = [] ∧ tblGet? hdev.underL2 l = none) ∧
    0 < msixCount 63 ∧ ((msix.fn 63).pend.contains (msixCount 63 - 1)) = true ∧ msix.msixOpen 63 (msixCount 63 - 1) = true ∧
    barHas ⟨63, 0xFFFFF⟩ = true ∧ 63 ≤ hdev.fld Off.hpStat 16 6 := by decide +kernel
def bars : List Nat := (List.range 16).map fun i => i * 4096
theorem witness_HostPort_bars : (bars.any fun o => match hdev.barTo 0 o with | .reg off => (readReg hdev 0 0 off 8).isSome || (readReg hdev 0 0 off 4).isSome | _ => false) = true ∧
    (match hdev.barTo 0 0x1000000 with | .reg off => (readReg hdev 0 0 off 2).isNone | _ => true) = true := by decide +kernel

/-! ### Commands of Yafolo -/

/-- The device after HELLO of the requesters of the tests, and a command of each shape from PF0, from VF 63 and from a logical processor. -/
def ydev : State := { demo with reqs := [0, 0x3F, 0x100].map fun m => (m, { demo.req m with hello := true }) }
def hd (m : Nat) (args : List Nat) : CmdHdr := ⟨m, 0, 1, 0, 8 + argsEnd args, true⟩
def taken (m : Nat) (x : Nat × List Nat × By) : Bool := accepted (hd m x.2.1) x.1 x.2.1 x.2.2 ydev
def shapesA : List (Nat × List Nat × By) := [
  (0x0001, [2], .any), (0x0002, [], .any), (0x0003, [1, 1, 2, 1], .pf0), (0x0004, [8], .fn), (0x0005, [], .pf0),
  (0x0101, [1, 2, 8, 8, 8, 4], .pf0), (0x0102, [1], .fn), (0x0103, [2, 8, 4, 4], .fn), (0x0104, [2], .fn), (0x0105, [2], .any),
  (0x0106, [2], .any), (0x0108, [1, 1, 8, 4], .fn), (0x0107, [1, 1, 1, 8, 4], .fn), (0x0109, [1, 2, 8], .pf0),
  (0x0201, [2, 1, 1, 8, 8, 8, 8, 8], .fn), (0x0202, [2, 2, 1, 1, 1, 1, 2, 4, 8], .fn), (0x0203, [2], .fn), (0x0204, [2], .any),
  (0x0205, [2, 8], .any), (0x0206, [2], .any), (0x0207, [1, 1], .pf0), (0x0208, [1, 1, 1, 2, 8], .pf0), (0x0209, [4], .fn),
  (0x0301, [1, 1, 1, 1, 2, 2, 2, 1, 1, 1, 2, 8], .pf0), (0x0302, [1], .pf0), (0x0303, [1], .fn),
  (0x0306, [1, 1, 1, 1, 4, 8, 8, 8, 4, 4], .pf0), (0x0307, [1, 8], .fn), (0x0309, [1, 1, 1, 2], .pf0), (0x0304, [1, 1, 2, 8], .pf0),
  (0x0305, [8], .pf0), (0x0308, [1, 1, 2, 4, 4], .pf0), (0x0401, [1, 1, 1, 1], .pf0), (0x0402, [8], .pf0), (0x0403, [], .any)]
def shapesB : List (Nat × List Nat × By) := [
  (0x0404, [1, 1, 1, 1, 1, 1, 8, 8], .pf0), (0x0405, [1, 4], .pf0), (0x0406, [2, 1], .pf0), (0x0503, [1, 1], .any),
  (0x0501, [1, 1, 1, 1, 2, 1, 1, 2, 8, 8, 8, 8], .fn), (0x0502, [1, 1], .fn), (0x0504, [2, 1, 1, 1, 2, 8], .fn), (0x0505, [2], .fn),
  (0x0506, [2], .fn), (0x0507, [1, 1], .pf0), (0x0601, [2, 2, 2, 1, 1], .any), (0x0602, [2], .any), (0x0603, [2], .any),
  (0x0701, [2, 1], .pf0), (0x0702, [2], .fn), (0x0703, [2, 1], .pf0), (0x0704, [], .fn), (0x0705, [2], .pf0),
  (0x0706, [2, 1, 1, 1, 2], .pf0), (0x0801, [1], .pf0), (0x0802, [1], .pf0), (0x0804, [1], .pf0), (0x0803, [1, 1, 1], .pf0),
  (0x0805, [1, 1, 2, 2, 4, 8, 4], .pf0), (0x0901, [1], .pf0), (0x0902, [1, 1, 2, 2, 8, 8], .pf0), (0x0903, [1], .pf0),
  (0x0904, [1, 8, 8], .pf0), (0x0905, [1, 8], .pf0), (0x0906, [1], .pf0), (0x0A01, [1, 1], .pf0), (0x0A02, [], .pf0),
  (0x0F01, [1, 8, 4], .pf0), (0x0F02, [1], .pf0), (0x0F03, [], .fn)]
theorem witness_accepted : (shapesA ++ shapesB).all (taken 0) = true ∧
    (shapesA ++ shapesB).all (fun x => taken 0x3F x == (x.2.2 != .pf0) && taken 0x100 x == (x.2.2 == .any)) = true := by decide +kernel

theorem witness_YafoloChecks : cmdExists (hd 0 []) = true ∧ ydev.yafTakes (hd 0 []) = true ∧ demo.yafTakes (hd 0 []) = true ∧
    State.reset.yafTakes (hd 0 []) = false ∧ (demo.req 0).hello = false ∧ ydev.epoch 0 = 0 ∧ (ydev.req 0).hello = true ∧
    ydev.yafTakes { hd 0 [] with cp := 1 } = true ∧ ydev.cp1Serves = false ∧ (0x10 : BitVec 16).toNat ∉ opcodes ∧
    ({ ydev with cp1Serves := true } : State).yafTakes { hd 0 [] with cp := 1 } = true := by decide +kernel

/-- A partition of the first MiB with the first logical processor, and its owner VF 63. -/
def part : State := { ydev.setReg Off.hpStat (63 * 65536) with parts := [(63, ⟨63, 0, 0x100000, [0]⟩)], assigns := [⟨63, 6, 63, 1, 0, 0⟩, ⟨63, 5, 0, 0, 0, 0x100000⟩] }
def asRun (s : State) (r : Run) : State := s.onLp 0 fun p => { p with run := r }
theorem witness_YafoloPrograms : ydev.selfValid = false ∧ lockBits.all (fun e => ydev.flag e.1 e.2) = false ∧
    lockBits.all (fun e => (lockBits.foldl (fun (t : State) e => t.setFlag e.1 e.2 true) ydev).flag e.1 e.2) = true ∧
    ydev.fnExists 0 = true ∧ (lpMask 1 0).any (fun n => !ydev.lpExists n) = false ∧ 0xFFF000 + 4096 ≤ ydev.installed ∧
    tblGet? part.parts 63 = some ⟨63, 0, 0x100000, [0]⟩ ∧ tblGet? ydev.parts 63 = none ∧ (lpMask 1 0).find? (fun n => (ydev.partOf n).isSome) = none ∧
    part.mayPart 0x3F 63 = true ∧ part.mayPart 0x3E 63 = false ∧ [0].find? (fun n => ((asRun part .loaded).lp n).code == 2) = none ∧
    part.lpSlot 0x100 = some 0 ∧ ydev.lpSlot 0x15F = none ∧ part.mayLp 0x3F 0 = true ∧ ((asRun part .loaded).lp 0).code = 1 ∧ ((asRun part .empty).lp 0).code = 0 ∧
    (part.lp 0).code = 2 ∧ (asRun part .halted).isSplit 0 = false ∧ bitOf part.chip.offline 0 = false ∧ part.partOf 0 = some (63, ⟨63, 0, 0x100000, [0]⟩) ∧
    (part.bufRead 0x3F 0x5000 4).isSome = true := by decide +kernel
/-- A range operation of Yafolo on one line, with the free part of its walk named. -/
def rangeArmed (s : State) (op way : Nat) : State :=
  ((s.setReg (rmAddr (.cluster 0)) (lineOf 0x5000)).setReg (rmCount (.cluster 0)) 1).setReg (rmCtrl (.cluster 0))
    ((0 : BitVec 5).toNat * 2 ^ 32 + bit01 false * 2 ^ 28 + (0 : BitVec 12).toNat * 2 ^ 16 + (BitVec.ofNat 4 way).toNat * 256 + op)
def rangeWith (k : Nat) (s : State) (op way : Nat) : State :=
  let s0 := rangeArmed s op way
  let s2 := (s0.fillAll 0).fresh.2
  let r := s2.rangeLines (.cluster 0) ⟨op, s0.reg (rmAddr (.cluster 0)), s0.reg (rmCount (.cluster 0)), (BitVec.ofNat 4 way).toNat, 0, false, none⟩ k
  (({ r.1 with rm := tblSet r.1.rm (rmIndex (.cluster 0)) r.2 } : State).setReg (rmStat (.cluster 0))
    (rmStatWord (s0.reg (rmCount (.cluster 0)) - r.2.lines) r.2.skipped true 1)).rmFinish (.cluster 0)
theorem range_with (s : State) (op way : Nat) (h : (rangeArmed s op way).flag (rmStat (.cluster 0)) 4 = false)
    (hb : (op == 0 || op == 7 || (rangeArmed s op way).reg (rmCount (.cluster 0)) == 0 ||
      decide (2 ^ 52 < (rangeArmed s op way).reg (rmAddr (.cluster 0)) + 64 * (rangeArmed s op way).reg (rmCount (.cluster 0))) ||
      (op == 4 && (!(rangeArmed s op way).l2LockEn 0 (BitVec.ofNat 4 way).toNat || (rangeArmed s op way).addrKind
        ((rangeArmed s op way).reg (rmAddr (.cluster 0))) == .host || (rangeArmed s op way).addrKind ((rangeArmed s op way).reg
          (rmAddr (.cluster 0)) + 64 * (rangeArmed s op way).reg (rmCount (.cluster 0)) - 1) == .host))) = false)
    (hn : (rangeArmed s op way).reg (rmCount (.cluster 0)) = 1) :
    ∃ k : Nat, s.yafRange (.cluster 0) op way 0x5000 1 = rangeWith (k % 2) s op way := by
  refine ⟨((rangeArmed s op way).fillAll 0).fresh.1, ?_⟩
  have e : ∀ (k : Nat) (q : State), q = rangeArmed s op way → k % 2 = k % (q.reg (rmCount (.cluster 0)) + 1) := by
    intro k q hq
    rw [hq, hn]
  rw [e _ _ rfl]
  show State.rmFinish (if (rangeArmed s op way).flag (rmStat (.cluster 0)) 4 then _ else if (_ : Bool) then _ else _) _ = _
  rw [if_neg fun x => Bool.false_ne_true (h.symm.trans x)]
  exact (congrArg (fun q => State.rmFinish q (.cluster 0)) (if_neg fun x => Bool.false_ne_true (hb.symm.trans x))).trans rfl
def wayOn : State := (ydev.enableWay 0 0 15).getD demo
theorem range_done : [0, 1].all (fun k => (rangeWith k ydev 5 0).fld (rmStat (.cluster 0)) 0 4 == 2 &&
    (rangeWith k wayOn 4 15).fld (rmStat (.cluster 0)) 0 4 == 2) = true := by decide +kernel
theorem witness_YafoloPrograms_lock : (ydev.yafRange (.cluster 0) 5 0 0x5000 1).fld (rmStat (.cluster 0)) 0 4 = 2 ∧
    (wayOn.yafRange (.cluster 0) 4 15 0x5000 1).fld (rmStat (.cluster 0)) 0 4 = 2 := by
  have h := range_done
  simp only [List.all_cons, List.all_nil, Bool.and_eq_true, beq_iff_eq, Bool.and_true] at h
  obtain ⟨k, hk⟩ := range_with ydev 5 0 (by decide +kernel) (by decide +kernel) (by decide +kernel)
  obtain ⟨j, hj⟩ := range_with wayOn 4 15 (by decide +kernel) (by decide +kernel) (by decide +kernel)
  rw [hk, hj]
  have two : ∀ k : Nat, k % 2 = 0 ∨ k % 2 = 1 := fun k => by omega
  constructor
  · rcases two k with e | e <;> rw [e] <;> simp [h]
  · rcases two j with e | e <;> rw [e] <;> simp [h]
theorem witness_YafoloPrograms_ranges : ydev.mayRange 0 0x5000 2 = true ∧ ydev.freeEngine 0 15 = some (.cluster 15) ∧ ydev.freeEngine 1 0 = some (.hub 0) ∧
    ((List.range 4).foldl (fun (t : State) i => t.setFlag (Off.hrmStat i) 4 true) ydev).freeEngine 1 0 = none ∧ ydev.underTest 15 = false ∧
    (ydev.enableWay 0 0 15).isSome = true ∧ ydev.locked (Off.dur 0) = false ∧ (ydev.setFlag (Off.scLock 0) 0 true).locked (Off.dur 0) = true ∧
    ((List.range 8).filter (· != 7)).foldl (fun k m => k + ydev.durUnits m) 0 + 1024 ≤ 1024 := by decide +kernel

/-- A state whose requesters 0, 0x3F and 0x100 have said HELLO. -/
def ready (s : State) : State := { s with reqs := ydev.reqs }
/-- The queue of `sends`, disabled again. -/
def qOff : State := (ready sends).setFlag (Off.tqCfg 4095) 63 false
def enables (s : State) : Bool :=
  match (s.queueWrite 4095).queueEnable 4095 with
  | .done t => (t.tq 4095).inc == 1
  | _ => false
theorem witness_YafoloQueues : (shapesB ++ shapesA).all (fun x => accepted (hd 0 x.2.1) x.1 x.2.1 x.2.2 (ready sends)) = true ∧
    ydev.mayUse 0 1 4095 (ydev.tqOwner 4095) = true ∧ (ready sends).tqOn 4095 = true ∧ qOff.tqOn 4095 = false ∧
    ydev.inDram 0x10000 (64 * 2 ^ 31) = false ∧
    (ydev.inDram 0x10000 64 && ydev.inDram 0x11000 32 && ydev.inDram 0x12000 (0x2040 * 16) && ydev.inDram 0xFFFF 1 && ydev.inDram 0xFFFFFF 1) = true ∧
    enables qOff = true ∧ ydev.teState (ydev.tePhys 15) ≠ 3 ∧ ydev.teState 17 = 0 ∧ (ready sends).teState 3 = 1 ∧
    ydev.svc.report.length = 0 := by decide +kernel
theorem witness_YafoloPortsAndTime : ydev.portTest 127 = false ∧ ydev.flag (Off.portCfg 127) 63 = false ∧ ydev.linkOfPort 127 = none ∧
    (ydev.bufRead 0 0x5000 44).isSome = true ∧ ydev.flag (Off.portStat 127) 6 = false ∧
    ((ydev.setFlag (Off.portStat 127) 6 true).inReq 0 0x5000 256) = true ∧ ((ydev.linkSetUp 127 0 1 0xFFFF).linkAnswer 127 0 1).linkUp 127 = true ∧
    (ydev.bufRead 0 0xFFFFE0 32).isSome = true ∧ ydev.namesPub = false ∧
    (((ready sends).onTq 4095 id).setReg (Off.tqTarget 4095) (2 ^ 62)).namesPub = true ∧ ydev.locked Off.timeCtrl = false ∧
    (ydev.setFlag Off.timeCtrl 31 true).locked Off.timeCtrl = true ∧ ydev.fld Off.timeStat 0 2 = 0 ∧
    [1, 2, 3].all (fun k => (ydev.setFld Off.timeStat 0 2 k).fld Off.timeStat 0 2 == k) = true ∧
    ((List.range 128).any fun p => bitOf 0 p && !ydev.flag (Off.portStat p) 0) = false := by decide +kernel
theorem witness_YafoloEnginesAndChannels :
    [poolOf 0, poolOf 1].all (fun p => ydev.mayUse 0 2 35 (ydev.jOwner p 35) && !ydev.jOn p 35 && (ydev.setFlag (jCfg p 35) 63 true).jOn p 35 && ((ydev.setReg (jBase p 35) 4).setReg (jCq p 35) 12).ringSizes p 35) = true ∧
    ydev.mayUse 0x3F 2 35 (ydev.jOwner (poolOf 0) 35) = false ∧ ydev.keyLoadResult 1023 1 16 0 (List.replicate 16 0) = 0 ∧
    (ydev.setReg (Off.keyStat 1023) (2 ^ 30 + 1)).keyLoadResult 1023 1 16 0 (List.replicate 16 0) = 1 ∧
    ydev.keyLoadResult 1023 1 17 0 (List.replicate 17 0) = 2 ∧ ydev.flag (Off.keyStat 1023) 30 = false ∧
    (ydev.setFlag (Off.keyStat 1023) 30 true).flag (Off.keyStat 1023) 30 = true ∧ ydev.fld (eBase (poolOf 1) 35) 0 2 = 0 ∧
    (ydev.setReg (eBase (poolOf 0) 35) 1).fld (eBase (poolOf 0) 35) 0 2 = 1 ∧ ((ydev.setReg (eBase (poolOf 0) 35) 1).jEng (poolOf 0) 35).job = none ∧
    ydev.chanMine 0 640 = true ∧ ydev.mayChan 0 4095 0xFFE 0xFFE = true ∧ ydev.bindLocked 640 = false ∧ ydev.bindKept 640 0x100 0x101 = false ∧
    (ydev.setFlag (Off.mbxBind 640) 63 true).bindLocked 640 = true ∧
    (ydev.onChan 640 fun c => { c with store := [⟨[], false⟩] }).bindKept 640 0x100 0x101 = true := by decide +kernel
/-- Cluster 15 taken offline, and a publication 1 with port 127 enabled. -/
def outDev : State := { ydev with chip := { ydev.chip with offline := 0x8000 } }
def tripDev : State := (ydev.setReg (Off.portStat 127) 1).setReg Off.pubBase 1
theorem witness_YafoloSystem : sourceReserved 766 = false ∧ sourceReserved 767 = true ∧ ydev.locked Off.fprCtrl = false ∧
    (ydev.setFlag Off.fprCtrl 31 true).locked Off.fprCtrl = true ∧ ydev.maySource 0 767 = true ∧ ydev.lpSlot 0x100 = some 0 ∧ ydev.mayLp 0 0 = true ∧
    ydev.isSplit 0 = false ∧ (ydev.lp 0).code = 2 ∧ ydev.spareState 0 3 = 0 ∧ ((wearBlocks 0).any fun o => ydev.locked o) = false ∧
    ydev.underTest 15 = false ∧ ydev.runningIn 0 = some 0 ∧ ydev.runningIn 15 = none ∧ ydev.offline 15 = false ∧ outDev.offline 15 = true ∧
    ((outDev.cmpTestShow 15 []).bistEnd (1, 15, 0) 0).2 = .pass ∧ (outDev.cmpTestShow 15 []).bistCounts 1 15 0 = 0 ∧ bistExists 2 15 = true ∧
    ydev.chip.bist = none ∧ ydev.bistReady 2 15 = false ∧ outDev.bistReady 2 15 = true ∧
    ((outDev.bistCtrlWrite (2 ^ 31 + 15 * 65536 + 2 * 256)).bistEnd (2, 15, 0) 0).2 ≠ .failed ∧ tripDev.pubExists 0x50 = true ∧
    tripDev.yaf.trip = none ∧ tripDev.flag (Off.portStat 127) 0 = true ∧ tripDev.linkOfPort 127 = none ∧ tripDev.portMode 127 ≠ 4 ∧
    tripDev.inReq 0 0x5000 2048 = true ∧ (ydev.assigns.any fun a => decide (63 < a.vf)) = false ∧
    (part.assigns.any fun a => decide (0 < a.vf)) = true ∧ part.fld Off.hpStat 16 6 = 63 ∧ part.assignGood ⟨62, 1, 4095, 1, 0, 0⟩ = true ∧
    part.assignGood ⟨62, 5, 0, 0, 0, 0x1000⟩ = true ∧ part.heldCount 62 1 + 1 ≤ windowSlots 1 ∧
    (part.assigns.any fun b => b.vf != 62 && Assign.meets ⟨62, 1, 4095, 1, 0, 0⟩ b) = false ∧
    (part.assigns.any fun b => b.vf != 62 && Assign.meets ⟨62, 5, 0, 0, 0, 0x1000⟩ b) = true ∧
    (part.assigns.any fun a => a.vf == 63 && part.assignOn a) = true ∧
    ((asRun part .loaded).assigns.any fun a => a.vf == 63 && (asRun part .loaded).assignOn a) = false ∧ part.fld (Off.hpDlog 62) 0 2 = 0 ∧
    [1, 2, 3].all (fun k => (part.setFld (Off.hpDlog 62) 0 2 k).fld (Off.hpDlog 62) 0 2 == k) = true ∧ part.dirtyHost 63 = [] ∧
    ydev.chip.running = 0 ∧ bitOf ydev.chip.valid 1 = true ∧
    bitOf ({ ydev with chip := { ydev.chip with valid := 1 } } : State).chip.valid 1 = false := by decide +kernel
/-- A trip test of wire frames on port 127 with one frame left, the slot at 0x6000. -/
def tripRun (left : Nat) : Trip := ⟨0, 0, 1, 127, true, 0x50, 0x6000, left, [], 1⟩
def tripFrame : Frame := { frame 7 with bytes := [0, 0, 0] }
theorem witness_YafoloSystem_trip : pdev.slotFrame (tripRun 1) tripFrame = true ∧ tripFrame.sec = none ∧ pdev.usable (tripRun 1).port = true ∧
    ({ pdev with yaf := { pdev.yaf with trip := some (tripRun 0) } } : State).yaf.trip = some (tripRun 0) ∧ pdev.yaf.trip = none := by decide +kernel

/-! ### The queue of commands, the register window and the caches -/

theorem witness_EmptyQueueTicks : State.reset.pending = [] ∧ State.reset.yaf.trip = none ∧ State.reset.time.slew = 0 ∧
    State.reset.fld Off.timeFreq 0 32 = 0 ∧ 0 < slewUnit ∧
    [(slewUnit : Int), -(slewUnit : Int)].all (fun k => ({ State.reset with time := { State.reset.time with slew := k } } : State).time.slew == k) = true := by decide +kernel
theorem witness_MemoryFormKept : exec (.fifoDelivery 0 0) demo = .next demo ∧ Memory.wf demo.mem = true ∧ demo.mem ≠ [] :=
  ⟨rfl, by decide +kernel⟩
def sortOf (s : State) (off size : Nat) : Nat :=
  match s.regTo off size with
  | .bad => 0
  | .nothing => 1
  | .reg _ _ => 2
theorem witness_WindowAccess : inBlock 0xFFFFFFFFF = false ∧ sortOf demo (Off.cmpCtrl 0) 1 = 0 ∧ sortOf demo 0x1000 4 = 1 ∧
    demo.rangeKind 0x4000000000000 8 = some .unmapped ∧ demo.rangeKind regBase 8 = some .regs ∧ (demo.lp 0).sb = [] := by decide +kernel
/-- Where a write of a register of the given name goes, and whether master 0x200 may write it. -/
def opens (s : State) (off size : Nat) (nm : RegName) (ix : List Nat) : Bool := reaches s 0x200 off size nm ix
theorem witness_RegisterWrites : masterExists 0x200 = true ∧ demo.masterPresent 0x200 = true ∧ demo.shutdown = false ∧
    [Off.fprCtrl, Off.nvjCfg, Off.rtCtrl].all (fun r => !demo.flag r 31) = true ∧ 0 < demo.fld Off.rtCtrl 0 8 ∧
    opens demo (Off.fprCtrl) 4 .fprCtrl [] = true ∧ opens demo (Off.timeUtc) 4 .timeUtc [] = true ∧
    lockOf (Off.mbxBind 4095) = some (Off.mbxBind 4095, 8, 63) ∧ demo.flag (Off.mbxBind 4095) 63 = false ∧
    opens demo (Off.mbxBind 4095) 8 .mbxBind [4095] = true ∧ opens demo (Off.intcSwi 15 2) 4 .intcSwi [15, 2] = true := by decide +kernel
def slotOf (l : Nat) (dirty : Bool) : CacheSlot := { (demo.l2c 0).slot 0 with valid := true, line := some l, dirty := dirty }
/-- The device with one line in set 0 of a cache, an eviction waiting and a fill on its way. -/
def cached : State := (demo.onL2 15 fun c => { c with slots := tblSet c.slots 0 (slotOf 0x5000 true), ebuf := [0x6000], fills := [⟨0, 0x7000, 0⟩] }).onSc 31 fun c => { c with ebuf := [0x6000] }
theorem witness_CacheCommandsAndEvents : opens demo (Off.l2Locken 15) 4 .l2Locken [15] = true ∧
    opens demo (Off.scLocken 31) 4 .scLocken [31] = true ∧ opens demo (Off.dur 7) 8 .dur [7] = true ∧ demo.locked (Off.dur 7) = false ∧
    opens demo (rmCtrl (.cluster 15)) 8 .rmCtrl [15] = true ∧ opens demo (rmCtrl (.hub 3)) 8 .hrmCtrl [3] = true ∧
    (rmExists (.cluster 15) && rmExists (.hub 3) && unitExists (.l2 15) && unitExists (.slice 31)) = true ∧
    demo.flag (rmStat (.cluster 15)) 4 = false ∧ (demo.setFlag (rmStat (.cluster 15)) 4 true).flag (rmStat (.cluster 15)) 4 = true ∧
    (demo.l2c 0).fills = [] ∧ (cached.l2c 15).fills = [⟨0, 0x7000, 0⟩] ∧ (demo.cache (.slice 31)).ebuf = [] ∧ (cached.l2c 15).ebuf = [0x6000] ∧
    (cached.scs 31).ebuf = [0x6000] ∧ cached.logicalWay (.l2 15) 0 = some 0 ∧
    (((cached.cache (.l2 15)).slot 0).valid && ((cached.cache (.l2 15)).slot 0).dirty && ((cached.cache (.l2 15)).slot 0).line == some 0x5000) = true ∧
    (demo.cache (.l2 0)).retiring = none ∧ ((demo.onL2 0 fun c => { c with retiring := some (1, 1, 16) }).cache (.l2 0)).retiring = some (1, 1, 16) ∧
    ((demo.cache (.l2 0)).linesIn 1 = [] ∧ (demo.cache (.l2 0)).waiting = []) := by decide +kernel


end Sys2Proof.Tests
end

section
/-! SUPPORT. The register window and unmapped addresses (01 R22, R23, 00 R8, R9): what an access names, what a read, a write, a store and a
load come to there, and the statement about them. -/

namespace Sys2Proof.Machine

/-- An offset outside every block names a bus error (01 R22). -/
theorem State.regTo_outside_blocks (s : State) {off : Nat} (size : Nat) (h : inBlock off = false) : s.regTo off size = .bad := by
  simp [State.regTo, h]

/-- An access of another width than that of the register at its offset names a bus error (00 R9). -/
theorem State.regTo_other_width (s : State) {off size : Nat} {d : RegDesc} {ix : List Nat} (hr : regAt off = some (d, ix))
    (hw : d.width ≠ 8 * size) (hn : d.name.ofSlot = false) : s.regTo off size = .bad := by
  unfold State.regTo
  split
  · rfl
  · simp [hr, hn, hw]

theorem readReg_bad {s : State} {off size : Nat} (master priv : Nat) (h : s.regTo off size = .bad) :
    readReg s master priv off size = none := by
  simp [readReg, h]

theorem writeReg_bad {s : State} {off size : Nat} (master priv v : Nat) (h : s.regTo off size = .bad) :
    writeReg s master priv off size v = (s, false) := by
  simp [writeReg, h]

/-- An offset not assigned reads as zero (00 R8); the block of Lens may turn the reader away first. -/
theorem readReg_nothing {s : State} {off size : Nat} (master priv : Nat) (h : s.regTo off size = .nothing)
    (hl : off < 0x34000000 ∨ 0x35000000 ≤ off) : readReg s master priv off size = some (s, 0) := by
  have hb : ¬ (0x34000000 ≤ off ∧ off < 0x35000000 ∧ (!Writer.machine.admits master priv) = true) := by omega
  simp only [readReg, h, if_neg hb]

theorem writeReg_nothing {s : State} {off size : Nat} (master priv v : Nat) (h : s.regTo off size = .nothing) :
    writeReg s master priv off size v = (s, true) := by
  simp [writeReg, h]

theorem State.performStore_unmapped {s : State} {a : Nat} {bs : List Byte} (n : Nat) (t : MemType) (priv : Nat)
    (h : s.rangeKind a bs.length = some .unmapped) : s.performStore n t priv a bs = .busError s := by
  simp [State.performStore, h]

theorem State.performStore_regs_not_device {s : State} {a : Nat} {bs : List Byte} {t : MemType} (n priv : Nat)
    (h : s.rangeKind a bs.length = some .regs) (ht : t ≠ .device) : s.performStore n t priv a bs = .busError s := by
  simp [State.performStore, h, ht]

theorem State.drainAll_empty {s : State} {n : Nat} (h : (s.lp n).sb = []) : s.drainAll n = s := by
  rw [State.drainAll, h]
  rfl

theorem State.drainPast_empty {s : State} {n : Nat} (a size fuel : Nat) (h : (s.lp n).sb = []) : s.drainPast n a size fuel = s := by
  cases fuel <;> simp [State.drainPast, h]

/-- An empty store buffer holds no byte, so it answers no load. -/
theorem sbHolds_empty {size : Nat} (a : Nat) (h : 0 < size) : sbHolds [] a size = false := by
  rw [sbHolds, List.all_eq_false]
  exact ⟨0, List.mem_range.2 h, by simp [sbByte]⟩

/-- A DEVICE load of an unmapped address is a bus error. -/
theorem State.load_device_unmapped {s : State} {n a size : Nat} (hs : (s.lp n).sb = [])
    (h : s.rangeKind a size = some .unmapped) : s.load n a size .device = none := by
  simp only [State.load, State.drainAll_empty hs, h]

/-- A load of normal memory that its store buffer does not answer is a bus error where there is neither DRAM nor host memory. -/
theorem State.load_normal_no_memory {s : State} {n a size : Nat} {t : MemType} (hs : (s.lp n).sb = []) (hz : 0 < size)
    (ht : t ≠ .device) (h : s.rangeKind a size = some .unmapped ∨ s.rangeKind a size = some .regs) : s.load n a size t = none := by
  have hh : sbHolds (s.lp n).sb a size = false := by rw [hs]; exact sbHolds_empty a hz
  have hd := State.drainPast_empty a size (2 * (s.lp n).sb.length) hs
  cases t with
  | device => exact absurd rfl ht
  | wb | nc => rcases h with h | h <;> simp [State.load, hh, hd, h]

/-- A load of an unmapped address, or of the register window through a region that is not DEVICE, is a bus error (01 R22, R23). -/
theorem State.load_bus_error {s : State} {n a size : Nat} {t : MemType} (hs : (s.lp n).sb = []) (hz : 0 < size)
    (h : s.rangeKind a size = some .unmapped ∨ s.rangeKind a size = some .regs ∧ t ≠ .device) : s.load n a size t = none := by
  rcases h with hu | ⟨hr, ht⟩
  · by_cases ht : t = .device
    · subst ht
      exact State.load_device_unmapped hs hu
    · exact State.load_normal_no_memory hs hz ht (.inl hu)
  · exact State.load_normal_no_memory hs hz ht (.inr hr)

/-- Settles O29, from what an access names (`regTo`) and, for stores and loads, from the kind of the address. -/
theorem windowAccess : Obligations.WindowAccess := by
  intro s master priv off size v
  have bad (h : s.regTo off size = .bad) :
      readReg s master priv off size = none ∧ writeReg s master priv off size v = (s, false) :=
    ⟨readReg_bad master priv h, writeReg_bad master priv v h⟩
  refine ⟨fun h => bad (s.regTo_outside_blocks size h), bad, fun h => ⟨writeReg_nothing master priv v h, readReg_nothing master priv h⟩,
    fun d ix => s.regTo_other_width, fun n a bs t => State.performStore_unmapped n t priv,
    fun n a bs t => State.performStore_regs_not_device n priv, fun n a t => State.load_bus_error⟩

end Sys2Proof.Machine
end

section
/-! SUPPORT. Entry to a vector (03 R97-R99): the frame's bytes, the fields of PS that entry and its event write, what the stages of entry
leave of the logical processor and of memory, and the statement about them. -/

namespace Sys2Proof.Machine

/-! ### The frame -/

@[simp] theorem natBytes_length : ∀ n v : Nat, (natBytes n v).length = n
  | 0, _ => rfl
  | n + 1, v => congrArg (· + 1) (natBytes_length n (v / 256))

/-- The frame is 64 bytes (03 R98). -/
@[simp] theorem trapFrame_length (at_ : Stamp) (p : LP) (t : Trap) (framePc framePs : Nat) :
    (trapFrame at_ p t framePc framePs).length = 64 := by
  simp [trapFrame]

/-- The address of the frame: 64 bytes below the target level's stack pointer, modulo 2^64. -/
def LP.frameAddr (p : LP) (target : Nat) : Nat := (2 ^ 64 - 64 + p.tsp target) % 2 ^ 64

/-- As a machine word, the frame's address is the stack pointer less 64. -/
theorem ofNat_frame_addr (x : BitVec 64) : BitVec.ofNat 64 ((2 ^ 64 - 64 + x.toNat) % 2 ^ 64) = x - 64#64 := by
  apply BitVec.eq_of_toNat_eq
  simp [BitVec.toNat_sub]

/-! ### PS after entry -/

/-- A bit is a field one bit wide. -/
theorem bitOf_eq_bits (v i : Nat) : bitOf v i = (bits v i 1 == 1) := rfl

/-- The fields of PS that every entry writes (03 R99): prev_priv, priv, ie and rpt. -/
def psEnterCommon (v target : Nat) : Nat := setBits (setBits (setBits (setBits v 10 2 (bits v 4 2)) 4 2 target) 8 1 0) 18 1 0

/-- The field of PS that the event writes beside those: ipl for an interrupt, mce at MACHINE_CHECK, nmi_active at NMI. -/
def psEnterEvent (ipl : Option Nat) (vec v : Nat) : Nat :=
  let v2 := ipl.elim v (setBits v 12 4)
  let v3 := if vec = 1 then setBits v2 9 1 0 else v2
  if vec = 2 then setBits v3 19 1 1 else v3

theorem psEnterCommon_lt {v target : Nat} (h : v < 2 ^ 32) : psEnterCommon v target < 2 ^ 32 :=
  setBits_lt (setBits_lt (setBits_lt (setBits_lt h (by decide)) (by decide)) (by decide)) (by decide)

theorem ite_setBits_lt {c : Prop} [Decidable c] {v lo w x k : Nat} (hv : v < 2 ^ k) (h : lo + w ≤ k) :
    (if c then setBits v lo w x else v) < 2 ^ k := by
  split
  · exact setBits_lt hv h
  · exact hv

theorem bits_ite_setBits_other {c : Prop} [Decidable c] (v lo w x lo' w' : Nat) (h : lo' + w' ≤ lo ∨ lo + w ≤ lo') :
    bits (if c then setBits v lo w x else v) lo' w' = bits v lo' w' := by
  split
  · exact bits_setBits_other v lo w x lo' w' h
  · rfl

theorem psEnterEvent_lt {ipl : Option Nat} {vec v : Nat} (h : v < 2 ^ 32) : psEnterEvent ipl vec v < 2 ^ 32 := by
  have hi : ipl.elim v (setBits v 12 4) < 2 ^ 32 := by
    cases ipl with
    | none => exact h
    | some l => exact setBits_lt h (by decide)
  exact ite_setBits_lt (ite_setBits_lt hi (by decide)) (by decide)

/-- Entry writes the common fields, then the event's. -/
theorem psEnter_toNat (ps : BitVec 32) (target : Nat) (ipl : Option Nat) (vec : Nat) :
    (psEnter ps target ipl vec).toNat = psEnterEvent ipl vec (psEnterCommon ps.toNat target) := by
  have h : psEnter ps target ipl vec = BitVec.ofNat 32 (psEnterEvent ipl vec (psEnterCommon ps.toNat target)) := by
    cases ipl <;> rfl
  rw [h, BitVec.toNat_ofNat, Nat.mod_eq_of_lt (psEnterEvent_lt (psEnterCommon_lt ps.isLt))]

/-- The event leaves a field that meets none of ipl, mce and nmi_active. -/
theorem bits_psEnterEvent_other (ipl : Option Nat) (vec v : Nat) {lo w : Nat} (hi : lo + w ≤ 12 ∨ 16 ≤ lo) (hm : lo + w ≤ 9 ∨ 10 ≤ lo)
    (hn : lo + w ≤ 19 ∨ 20 ≤ lo) : bits (psEnterEvent ipl vec v) lo w = bits v lo w := by
  have h2 : bits (ipl.elim v (setBits v 12 4)) lo w = bits v lo w := by
    cases ipl with
    | none => rfl
    | some l => exact bits_setBits_other v 12 4 l lo w hi
  exact (bits_ite_setBits_other _ 19 1 1 lo w hn).trans ((bits_ite_setBits_other _ 9 1 0 lo w hm).trans h2)

theorem bits_psEnterEvent_ipl (ipl : Option Nat) (vec v : Nat) :
    bits (psEnterEvent ipl vec v) 12 4 = bits (ipl.elim v (setBits v 12 4)) 12 4 :=
  (bits_ite_setBits_other _ 19 1 1 12 4 (by decide)).trans (bits_ite_setBits_other _ 9 1 0 12 4 (by decide))

theorem bitOf_psEnterEvent_mce (ipl : Option Nat) (v : Nat) : bitOf (psEnterEvent ipl 1 v) 9 = false := by
  change bitOf (setBits _ 9 1 0) 9 = false
  rw [bitOf_setBits, if_pos (by decide)]
  rfl

theorem bitOf_psEnterEvent_nmi (ipl : Option Nat) (v : Nat) : bitOf (psEnterEvent ipl 2 v) 19 = true := by
  change bitOf (setBits _ 19 1 1) 19 = true
  rw [bitOf_setBits, if_pos (by decide)]
  rfl

/-- A field that entry's common part leaves: it meets none of prev_priv, priv, ie and rpt. -/
theorem bits_psEnterCommon_other (v target : Nat) {lo w : Nat} (hpp : lo + w ≤ 10 ∨ 12 ≤ lo) (hp : lo + w ≤ 4 ∨ 6 ≤ lo)
    (hie : lo + w ≤ 8 ∨ 9 ≤ lo) (hr : lo + w ≤ 18 ∨ 19 ≤ lo) : bits (psEnterCommon v target) lo w = bits v lo w := by
  rw [psEnterCommon, bits_setBits_other _ _ _ _ _ _ hr, bits_setBits_other _ _ _ _ _ _ hie, bits_setBits_other _ _ _ _ _ _ hp,
    bits_setBits_other _ _ _ _ _ _ hpp]

section
variable (ps : BitVec 32) (target : Nat) (ipl : Option Nat) (vec : Nat)

theorem psPriv_psEnter {target : Nat} (h : target ≤ 1) : psPriv (psEnter ps target ipl vec) = target := by
  rw [psPriv, psEnter_toNat, bits_psEnterEvent_other _ _ _ (by decide) (by decide) (by decide), psEnterCommon,
    bits_setBits_other _ _ _ _ _ _ (by decide), bits_setBits_other _ _ _ _ _ _ (by decide), bits_setBits_same]
  omega

theorem prevPriv_psEnter : bits (psEnter ps target ipl vec).toNat 10 2 = psPriv ps := by
  rw [psEnter_toNat, bits_psEnterEvent_other _ _ _ (by decide) (by decide) (by decide), psEnterCommon,
    bits_setBits_other _ _ _ _ _ _ (by decide), bits_setBits_other _ _ _ _ _ _ (by decide),
    bits_setBits_other _ _ _ _ _ _ (by decide), bits_setBits_same]
  exact Nat.mod_eq_of_lt (bits_lt _ 4 2)

theorem ie_psEnter : bitOf (psEnter ps target ipl vec).toNat 8 = false := by
  rw [bitOf_eq_bits, psEnter_toNat, bits_psEnterEvent_other _ _ _ (by decide) (by decide) (by decide), psEnterCommon,
    bits_setBits_other _ _ _ _ _ _ (by decide), bits_setBits_same]
  rfl

theorem rpt_psEnter : bitOf (psEnter ps target ipl vec).toNat 18 = false := by
  rw [bitOf_eq_bits, psEnter_toNat, bits_psEnterEvent_other _ _ _ (by decide) (by decide) (by decide), psEnterCommon,
    bits_setBits_same]
  rfl

theorem ipl_psEnter_interrupt (l : Nat) : bits (psEnter ps target (some l) vec).toNat 12 4 = l % 16 := by
  rw [psEnter_toNat, bits_psEnterEvent_ipl]
  exact bits_setBits_same _ 12 4 l

theorem ipl_psEnter_trap : bits (psEnter ps target none vec).toNat 12 4 = bits ps.toNat 12 4 := by
  rw [psEnter_toNat, bits_psEnterEvent_ipl, Option.elim_none,
    bits_psEnterCommon_other _ _ (by decide) (by decide) (by decide) (by decide)]

theorem mce_psEnter : bitOf (psEnter ps target ipl 1).toNat 9 = false := by
  rw [psEnter_toNat, bitOf_psEnterEvent_mce]

theorem nmi_psEnter : bitOf (psEnter ps target ipl 2).toNat 19 = true := by
  rw [psEnter_toNat, bitOf_psEnterEvent_nmi]

theorem psFlags_psEnter : psFlags (psEnter ps target ipl vec) = psFlags ps := by
  have flag (i : Nat) (h : i < 4) : bitOf (psEnter ps target ipl vec).toNat i = bitOf ps.toNat i := by
    rw [bitOf_eq_bits, psEnter_toNat, bits_psEnterEvent_other _ _ _ (by omega) (by omega) (by omega),
      bits_psEnterCommon_other _ _ (by omega) (by omega) (by omega) (by omega), bitOf_eq_bits]
  simp only [psFlags, flag _ (by decide : 3 < 4), flag _ (by decide : 2 < 4), flag _ (by decide : 1 < 4), flag _ (by decide : 0 < 4)]

end

/-! ### The stages of entry -/

/-- What entry does before the frame: the invalidation queue applied and counted, and the reservation dropped. -/
def State.enterBegin (s : State) (n : Nat) : State :=
  (s.onLp n fun p => { p.applyAllInv with rsv := none }).countLp n 14 (s.lp n).invq.length

/-- What entry leaves in the logical processor once the frame is in the store buffer (03 R97, steps 5 and 6). -/
def LP.entered (q : LP) (vec target a : Nat) (ipl : Option Nat) : LP :=
  { q with
    run := if q.run = .stepping then .debug else .running,
    tspK := if target = 1 then BitVec.ofNat 64 a else q.tspK,
    tspM := if target = 1 then q.tspM else BitVec.ofNat 64 a,
    ps := psEnter q.ps target ipl vec,
    pc := BitVec.ofNat 64 ((q.tvb.toNat + 64 * vec) % 2 ^ 52) }

/-- The pieces of a frame as entries of the store buffer. -/
def frameEntries (a priv : Nat) (mt : MemType) (bs : List Byte) : List SbEntry :=
  (cutStore a bs bs.length).map fun e => ⟨.store mt, e.1, e.2, priv, false⟩

theorem frameEntries_addr {a priv : Nat} {mt : MemType} {bs : List Byte} {e : SbEntry} (h : e ∈ frameEntries a priv mt bs) : a ≤ e.addr := by
  obtain ⟨c, hc, rfl⟩ := List.mem_map.1 h
  exact cutStore_addr _ _ _ c hc

variable (s : State) (n vec : Nat) (t : Trap) (target framePc framePs : Nat) (ipl : Option Nat) (mt : MemType)

/-- Entry is its beginning, the store of the frame, and the new control registers. -/
theorem State.enter_eq : s.enter n vec t target framePc framePs ipl mt =
    ((s.enterBegin n).store n ((s.lp n).frameAddr target) mt (trapFrame (s.stampIn (lpIsland n)) (s.lp n) t framePc framePs)).onLp n
      fun q => q.entered vec target ((s.lp n).frameAddr target) ipl := rfl

/-- A quiet step changes of its logical processor only the L1s and the Lens bit. -/
theorem Quiet.lp_eq {n : Nat} {s t : State} (h : Quiet n s t) :
    ∃ (c i : L1) (l : Bool), t.lp n = { s.lp n with l1d := c, l1i := i, lens := l } :=
  ⟨(t.lp n).l1d, (t.lp n).l1i, (t.lp n).lens, by rw [← h.own]⟩

/-- The beginning of entry changes of its logical processor the invalidation queue, the reservation, the L1s and the Lens bit. -/
theorem State.enterBegin_lp : ∃ (c i : L1) (l : Bool),
    (s.enterBegin n).lp n = { s.lp n with invq := [], rsv := none, l1d := c, l1i := i, lens := l } := by
  obtain ⟨c, i, l, h⟩ :=
    (State.countLp_quiet (s.onLp n fun p => { p.applyAllInv with rsv := none }) n 14 (s.lp n).invq.length).lp_eq
  refine ⟨c, i, l, h.trans ?_⟩
  rw [State.onLp_lp_same, LP.applyAllInv]

theorem State.enterBegin_mem : (s.enterBegin n).mem = s.mem := (State.countLp_quiet _ n 14 _).mem

/-- What the store of the frame changes: the store buffer and the workspace's copy (03 R73). -/
theorem State.store_lp {s : State} {n a : Nat} {mt : MemType} {bs : List Byte} (hb : bs ≠ [])
    (h : (s.lp n).sb.length + (bs.length + a % 8 + 7) / 8 ≤ 32) :
    ∃ m : Mem, (s.store n a mt bs).lp n = { s.lp n with sb := (s.lp n).sb ++ frameEntries a (s.lp n).level mt bs, wfile := m } := by
  obtain ⟨m, hm⟩ := LP.mirror_eq bs { s.lp n with sb := (s.lp n).sb ++ frameEntries a (s.lp n).level mt bs } a
  exact ⟨m, by rw [State.store_room hb h, State.onLp_lp_same]; exact hm⟩

theorem State.store_mem {s : State} {n a : Nat} {mt : MemType} {bs : List Byte} (hb : bs ≠ [])
    (h : (s.lp n).sb.length + (bs.length + a % 8 + 7) / 8 ≤ 32) : (s.store n a mt bs).mem = s.mem := by
  rw [State.store_room hb h]; rfl

/-- The new control registers leave what the logical processor reads. -/
theorem State.readByte_entered (s : State) (n vec target a x : Nat) (ipl : Option Nat) :
    (s.onLp n fun q => q.entered vec target a ipl).readByte n x = s.readByte n x := by
  simp only [State.readByte, State.onLp_lp_same, State.onLp_mem, LP.entered]

theorem trapFrame_ne_nil (at_ : Stamp) (p : LP) (t : Trap) (framePc framePs : Nat) : trapFrame at_ p t framePc framePs ≠ [] :=
  List.ne_nil_of_length_pos (by rw [trapFrame_length]; decide)

/-- With nine entries free the frame has room wherever it stands. -/
theorem frame_room {s : State} {n : Nat} (h : (s.lp n).sb.length + 9 ≤ 32) (a : Nat) (at_ : Stamp) (p : LP) (t : Trap) (framePc framePs : Nat) :
    ((s.enterBegin n).lp n).sb.length + ((trapFrame at_ p t framePc framePs).length + a % 8 + 7) / 8 ≤ 32 := by
  obtain ⟨c, i, l, hl⟩ := s.enterBegin_lp n
  rw [hl, trapFrame_length]
  change (s.lp n).sb.length + _ ≤ 32
  omega

section
variable {s n} (h : (s.lp n).sb.length + 9 ≤ 32)
include h

/-- The logical processor after entry. -/
theorem State.enter_lp : ∃ (c i : L1) (l : Bool) (m : Mem), (s.enter n vec t target framePc framePs ipl mt).lp n =
    LP.entered { s.lp n with
      invq := [], rsv := none, l1d := c, l1i := i, lens := l, wfile := m
      sb := (s.lp n).sb ++ frameEntries ((s.lp n).frameAddr target) (s.lp n).level mt
        (trapFrame (s.stampIn (lpIsland n)) (s.lp n) t framePc framePs) } vec target ((s.lp n).frameAddr target) ipl := by
  obtain ⟨c, i, l, hb⟩ := s.enterBegin_lp n
  obtain ⟨m, hs⟩ := State.store_lp (mt := mt) (trapFrame_ne_nil (s.stampIn (lpIsland n)) (s.lp n) t framePc framePs)
    (frame_room h ((s.lp n).frameAddr target) _ _ _ _ _)
  refine ⟨c, i, l, m, ?_⟩
  rw [State.enter_eq, State.onLp_lp_same, hs, hb]
  rfl

theorem State.enter_mem : (s.enter n vec t target framePc framePs ipl mt).mem = s.mem := by
  rw [State.enter_eq, State.onLp_mem, State.store_mem (trapFrame_ne_nil _ _ _ _ _) (frame_room h _ _ _ _ _ _), State.enterBegin_mem]

/-- The frame is read back at its address (03 R98). -/
theorem State.readByte_enter {k : Nat} (hk : k < 64) :
    some ((s.enter n vec t target framePc framePs ipl mt).readByte n ((s.lp n).frameAddr target + k)) =
      (trapFrame (s.stampIn (lpIsland n)) (s.lp n) t framePc framePs)[k]? := by
  have hl := trapFrame_length (s.stampIn (lpIsland n)) (s.lp n) t framePc framePs
  rw [State.enter_eq, State.readByte_entered,
    State.readByte_store (trapFrame_ne_nil _ _ _ _ _) (frame_room h _ _ _ _ _ _), if_pos (by omega), Nat.add_sub_cancel_left,
    List.getElem?_eq_getElem (by omega)]
  rfl

end

/-- Settles O8: the logical processor after entry (`State.enter_lp`) gives its fields, those of PS by the laws of `psEnter`, and the store
of the frame gives the bytes read back. -/
theorem vectorEntryState : Obligations.VectorEntryState := by
  intro s n vec framePc framePs t target ipl mt ht hsb u hu
  subst hu
  obtain ⟨c, i, l, m, hlp⟩ := State.enter_lp vec t target framePc framePs ipl mt hsb
  have hmem := State.enter_mem vec t target framePc framePs ipl mt hsb
  have hread {k : Nat} := State.readByte_enter vec t target framePc framePs ipl mt hsb (k := k)
  have hps : ((s.enter n vec t target framePc framePs ipl mt).lp n).ps = psEnter (s.lp n).ps target ipl vec := by rw [hlp]; rfl
  rw [hps]
  refine ⟨?pc, psPriv_psEnter _ _ _ ht, prevPriv_psEnter .., ie_psEnter .., rpt_psEnter .., ?ipl, ?noIpl, ?mce, ?nmi, psFlags_psEnter ..,
    ?kernel, ?machine, ?rsv, hmem, ?buffer, fun k hk => hread hk⟩
  case pc =>
    rw [hlp]
    exact (BitVec.toNat_ofNat _ _).trans (Nat.mod_eq_of_lt (Nat.lt_trans (Nat.mod_lt _ (by decide)) (by decide)))
  case ipl => rintro l rfl; exact ipl_psEnter_interrupt ..
  case noIpl => rintro rfl; exact ipl_psEnter_trap ..
  case mce => rintro rfl; exact mce_psEnter ..
  case nmi => rintro rfl; exact nmi_psEnter ..
  case kernel => rintro rfl; rw [hlp]; exact ⟨ofNat_frame_addr _, rfl⟩
  case machine => rintro rfl; rw [hlp]; exact ⟨ofNat_frame_addr _, rfl⟩
  case rsv => rw [hlp]; rfl
  case buffer => rw [hlp]; exact ⟨_, rfl, fun e he => frameEntries_addr he⟩

end Sys2Proof.Machine
end

section
/-! SUPPORT. The integer instructions of 04 R112 on values: what a word of two's complement keeps of an integer, and each row of the table,
case by case. -/

namespace Sys2Proof.Machine

/-! ### Words of two's complement -/

theorem two_pow_eq_double {w : Nat} (hw : 0 < w) : 2 ^ w = 2 * 2 ^ (w - 1) := by
  rw [← Nat.pow_succ', Nat.succ_eq_add_one, Nat.sub_add_cancel hw]

@[simp] theorem sgn_zero (w : Nat) : sgn w 0 = false := by simp [sgn, bitOf]

/-- A word is its value less 2^w where its sign bit is set. -/
theorem signed_of_lt {w x : Nat} (hw : 0 < w) (hx : x < 2 ^ w) : signed x w = if sgn w x then (x : Int) - (2 ^ w : Nat) else x := by
  have hs : x < 2 ^ (w - 1) ↔ ¬ sgn w x = true := by rw [sgn_iff hw hx, Nat.not_le]
  simp only [signed, Nat.mod_eq_of_lt hx, hs, ite_not]

/-- The value of a word is the balanced remainder modulo 2^w. -/
theorem signed_wrapInt {w : Nat} (hw : 0 < w) (i : Int) : signed (wrapInt i w) w = i.bmod (2 ^ w) := by
  have hp := two_pow_eq_double hw
  have hr : ((wrapInt i w : Nat) : Int) = i % (2 ^ w : Nat) :=
    Int.toNat_of_nonneg (Int.emod_nonneg i (by exact_mod_cast Nat.ne_of_gt (Nat.two_pow_pos w)))
  rw [signed, Nat.mod_eq_of_lt (wrapInt_lt i w), Int.bmod_def, ← hr]
  split <;> split <;> omega

/-- A word holds an integer exactly where it is in the signed range (04 R112's v). -/
theorem signed_wrapInt_ne_iff {w : Nat} (hw : 0 < w) (i : Int) :
    signed (wrapInt i w) w ≠ i ↔ ¬ (-(2 ^ (w - 1) : Int) ≤ i ∧ i < (2 ^ (w - 1) : Int)) := by
  have hp : ((2 ^ w : Nat) : Int) = 2 * 2 ^ (w - 1) := by exact_mod_cast two_pow_eq_double hw
  rw [signed_wrapInt hw, ne_eq, Int.bmod_eq_iff (Nat.two_pow_pos w), hp]
  simp only [Int.sub_self, Int.dvd_zero, and_true]
  omega

/-- A word is what its value wraps to. -/
theorem wrapInt_signed {w x : Nat} (hw : 0 < w) (hx : x < 2 ^ w) : wrapInt (signed x w) w = x := by
  have hm : (x : Int) % (2 ^ w : Nat) = x := by exact_mod_cast Nat.mod_eq_of_lt hx
  rw [signed_of_lt hw hx, wrapInt]
  split
  · rw [Int.sub_emod_right, hm, Int.toNat_natCast]
  · rw [hm, Int.toNat_natCast]

/-- Shifted right by its width, a word leaves its sign. -/
theorem signed_div_two_pow {w x : Nat} (hw : 0 < w) (hx : x < 2 ^ w) : signed x w / (2 ^ w : Nat) = if sgn w x then -1 else 0 := by
  rw [signed_of_lt hw hx]
  split
  · exact Int.ediv_eq_neg_one_of_neg_of_le (by omega) (by omega)
  · exact_mod_cast Nat.div_eq_of_lt hx

theorem wrapInt_neg_one (w : Nat) : wrapInt (-1) w = 2 ^ w - 1 := by
  have := Nat.two_pow_pos w
  have hm : (-1 : Int) % (2 ^ w : Nat) = (2 ^ w : Nat) - 1 := by
    rw [← Int.add_emod_right, Int.emod_eq_of_lt] <;> omega
  rw [wrapInt, hm]
  omega

theorem wrapInt_zero (w : Nat) : wrapInt 0 w = 0 := by simp [wrapInt]

theorem sgn_two_pow_sub_one {w : Nat} (hw : 0 < w) : sgn w (2 ^ w - 1) = true := by
  have hp := two_pow_eq_double hw
  have := Nat.two_pow_pos (w - 1)
  exact (sgn_iff hw (by omega)).2 (by omega)

/-! ### The shifts and the rotation (04 R112) -/

section
variable {w x k : Nat}

theorem shlFam_zero (hk : k = 0) (hx : x < 2 ^ w) : shlFam w x k = (x, ⟨sgn w x, x == 0, false, false⟩) := by
  simp [shlFam, hk, Nat.mod_eq_of_lt hx]

theorem shrFam_zero (hk : k = 0) : shrFam w x k = (x, ⟨sgn w x, x == 0, false, false⟩) := by
  simp [shrFam, hk]

theorem sarFam_zero (hw : 0 < w) (hk : k = 0) (hx : x < 2 ^ w) : sarFam w x k = (x, ⟨sgn w x, x == 0, false, false⟩) := by
  simp [sarFam, hk, wrapInt_signed hw hx]

theorem shlFam_within (h1 : 1 ≤ k) (hk : k ≤ w) {y : Nat} (hy : y = x * 2 ^ k % 2 ^ w) :
    shlFam w x k = (y, ⟨sgn w y, y == 0, false, bitOf x (w - k)⟩) := by
  simp [shlFam, hk, Nat.ne_of_gt h1, hy]

theorem shrFam_within (h1 : 1 ≤ k) (hk : k ≤ w) {y : Nat} (hy : y = x / 2 ^ k) :
    shrFam w x k = (y, ⟨sgn w y, y == 0, false, bitOf x (k - 1)⟩) := by
  simp [shrFam, hk, Nat.ne_of_gt h1, hy]

theorem sarFam_within (h1 : 1 ≤ k) (hk : k ≤ w) {y : Nat} (hy : y = wrapInt (signed x w / (2 ^ k : Nat)) w) :
    sarFam w x k = (y, ⟨sgn w y, y == 0, false, bitOf x (k - 1)⟩) := by
  simp [sarFam, hk, Nat.ne_of_gt h1, hy]

theorem shlFam_beyond (hk : w < k) : shlFam w x k = (0, ⟨false, true, false, false⟩) := by
  simp [shlFam, Nat.not_le.2 hk]

theorem shrFam_beyond (hk : w < k) : shrFam w x k = (0, ⟨false, true, false, false⟩) := by
  simp [shrFam, Nat.not_le.2 hk]

/-- SAR by more than the width shifts by the width and fills with the sign. -/
theorem sarFam_beyond (hw : 0 < w) (hk : w < k) (hx : x < 2 ^ w) :
    sarFam w x k = (if sgn w x then 2 ^ w - 1 else 0, ⟨sgn w x, !sgn w x, false, sgn w x⟩) := by
  have hk0 : k ≠ 0 := by omega
  have h1 : 2 ^ w - 1 ≠ 0 := by have := Nat.one_lt_two_pow (Nat.ne_of_gt hw); omega
  simp only [sarFam, Nat.not_le.2 hk, if_false, signed_div_two_pow hw hx]
  cases sgn w x with
  | true => simp [wrapInt_neg_one, sgn_two_pow_sub_one hw, h1, hk0]
  | false => simp [wrapInt_zero]

theorem rotFam_zero (hx : x < 2 ^ w) (hk : k % w = 0) : rotFam w x k = (x, ⟨sgn w x, x == 0, false, false⟩) := by
  simp [rotFam, hk, Nat.div_eq_of_lt hx, Nat.mod_eq_of_lt hx]

theorem rotFam_turn (hk : k % w ≠ 0) {y : Nat} (hy : y = (x * 2 ^ (k % w) + x / 2 ^ (w - k % w)) % 2 ^ w) :
    rotFam w x k = (y, ⟨sgn w y, y == 0, false, bitOf y 0⟩) := by
  simp [rotFam, hk, hy]

/-! ### The product and the quotient (04 R112) -/

/-- MUL gives the low word of the product, with v and c where the product is outside the signed range. -/
theorem mulFam_eq (hw : 0 < w) {p : Int} (hp : p = signed x w * signed k w) :
    ∃ v : Bool, (v = true ↔ ¬ (-(2 ^ (w - 1) : Int) ≤ p ∧ p < (2 ^ (w - 1) : Int))) ∧
      mulFam w x k = (wrapInt p w, ⟨sgn w (wrapInt p w), wrapInt p w == 0, v, v⟩) := by
  subst hp
  exact ⟨_, decide_eq_true_iff.trans (signed_wrapInt_ne_iff hw _), rfl⟩

/-- DIV gives the word of the quotient, with v where the quotient is outside the signed range. -/
theorem divFam_eq (hw : 0 < w) {q : Int} (hq : q = (signed x w).tdiv (signed k w)) :
    ∃ v : Bool, (v = true ↔ ¬ (-(2 ^ (w - 1) : Int) ≤ q ∧ q < (2 ^ (w - 1) : Int))) ∧
      divFam w x k = (wrapInt q w, ⟨sgn w (wrapInt q w), wrapInt q w == 0, v, false⟩) := by
  subst hq
  exact ⟨_, decide_eq_true_iff.trans (signed_wrapInt_ne_iff hw _), rfl⟩

end

end Sys2Proof.Machine
end

section
/-! SUPPORT. The integer instructions of 04 R112 in a processor, from their rows on values, and the statement about them. -/

namespace Sys2Proof.Machine

open Sys2Proof.Safety

theorem isize_bits_pos (sz : Sys2Proof.ISize) : 0 < 8 * isize sz := by cases sz <;> decide

/-! ### The shape of each instruction -/

section
variable (n : Nat) (sz : Size) (z : Sys2Proof.ISize) (d a b : Spec) (s : State)

theorem exec_and : exec (.and n sz d a b) s = execAnd n sz d a b s := rfl
theorem exec_or : exec (.or n sz d a b) s = execOr n sz d a b s := rfl
theorem exec_xor : exec (.xor n sz d a b) s = execXor n sz d a b s := rfl
theorem exec_shl : exec (.shl n z d a b) s = execShl n z d a b s := rfl
theorem exec_shr : exec (.shr n z d a b) s = execShr n z d a b s := rfl
theorem exec_sar : exec (.sar n z d a b) s = execSar n z d a b s := rfl
theorem exec_rot : exec (.rot n z d a b) s = execRot n z d a b s := rfl
theorem exec_mul : exec (.mul n z d a b) s = execMul n z d a b s := rfl
theorem exec_div : exec (.div n z d a b) s = execDiv n z d a b s := rfl
theorem exec_divu : exec (.divu n z d a b) s = execDivu n z d a b s := rfl
theorem exec_rem : exec (.rem n d a b) s = execRem n d a b s := rfl
theorem exec_remu : exec (.remu n d a b) s = execRemu n d a b s := rfl

end

section
variable {n size opBytes : Nat} {d a b : Spec} {s s1 : State} {r : Ready} {next x : Nat} {fl : Flags} (hn : n < 98)
  (h : operandsReady s n opBytes 3 [odst d size, osrc a size, osrc b size] = some (s1, r, next))
include hn h

/-- An instruction that never raises INT_OVERFLOW writes its result and its flags. -/
theorem forLp_arith3 {f : Flags → Nat → Nat → Nat × Flags} (hf : f (s1.flagsOf n) (r.val 1) (r.val 2) = (x, fl)) :
    forLp n s (fun s => arith3 n opBytes size false d a b s f) = .next (written s1 r n next x fl) := by
  rw [forLp_next hn, arith3_written h (by rw [Bool.and_false, Bool.false_and]), hf]

/-- An instruction that may raise INT_OVERFLOW: it writes, or it traps with nothing written. -/
theorem forLp_arith3_overflow {f : Flags → Nat → Nat → Nat × Flags} (hf : f (s1.flagsOf n) (r.val 1) (r.val 2) = (x, fl)) :
    (¬ (fl.v = true ∧ bitOf (s1.lp n).ps.toNat 16 = true) →
      forLp n s (fun s => arith3 n opBytes size true d a b s f) = .next (written s1 r n next x fl)) ∧
    (fl.v = true ∧ bitOf (s1.lp n).ps.toNat 16 = true →
      forLp n s (fun s => arith3 n opBytes size true d a b s f) = .next (trapped s n (mkTrap 0x0B 0 0 0))) := by
  constructor <;> intro hv <;> rw [forLp_next hn]
  · rw [arith3_written h (by simpa [hf] using hv), hf]
  · rw [arith3_overflow h (by simpa [hf] using hv)]

theorem forLp_arithDiv_zero (ovf : Bool) (f : Nat → Nat → Nat × Flags) (h0 : r.val 2 = 0) :
    forLp n s (fun s => arithDiv n opBytes size ovf d a b s f) = .next (trapped s n (mkTrap 0x0A 0 0 0)) := by
  rw [forLp_next hn, arithDiv_zero h h0]

theorem forLp_arithDiv (f : Nat → Nat → Nat × Flags) (h0 : r.val 2 ≠ 0) :
    forLp n s (fun s => arithDiv n opBytes size false d a b s f) =
      .next (written s1 r n next (f (r.val 1) (r.val 2)).1 (f (r.val 1) (r.val 2)).2) := by
  rw [forLp_next hn, arithDiv_written h h0 (by rw [Bool.and_false, Bool.false_and])]

theorem forLp_arithDiv_overflow {f : Nat → Nat → Nat × Flags} (h0 : r.val 2 ≠ 0) (hf : f (r.val 1) (r.val 2) = (x, fl)) :
    (¬ (fl.v = true ∧ bitOf (s1.lp n).ps.toNat 16 = true) →
      forLp n s (fun s => arithDiv n opBytes size true d a b s f) = .next (written s1 r n next x fl)) ∧
    (fl.v = true ∧ bitOf (s1.lp n).ps.toNat 16 = true →
      forLp n s (fun s => arithDiv n opBytes size true d a b s f) = .next (trapped s n (mkTrap 0x0B 0 0 0))) := by
  constructor <;> intro hv <;> rw [forLp_next hn]
  · rw [arithDiv_written h h0 (by simpa [hf] using hv), hf]
  · rw [arithDiv_overflow h h0 (by simpa [hf] using hv)]

end

/-! ### The instructions with their operands ready -/

section
variable {n : Nat} {d a b : Spec} {s s1 : State} {r : Ready} {next : Nat} (hn : n < 98)
include hn

section
variable {sz : Size} (h : operandsReady s n 1 3 [odst d (sizeBytes sz), osrc a (sizeBytes sz), osrc b (sizeBytes sz)] = some (s1, r, next))
include h

theorem exec_and_ready : exec (.and n sz d a b) s =
    .next (written s1 r n next (r.val 1 &&& r.val 2) (logicFlags (8 * sizeBytes sz) (r.val 1 &&& r.val 2))) :=
  (exec_and ..).trans (forLp_arith3 hn h rfl)

theorem exec_or_ready : exec (.or n sz d a b) s =
    .next (written s1 r n next (r.val 1 ||| r.val 2) (logicFlags (8 * sizeBytes sz) (r.val 1 ||| r.val 2))) :=
  (exec_or ..).trans (forLp_arith3 hn h rfl)

theorem exec_xor_ready : exec (.xor n sz d a b) s =
    .next (written s1 r n next (r.val 1 ^^^ r.val 2) (logicFlags (8 * sizeBytes sz) (r.val 1 ^^^ r.val 2))) :=
  (exec_xor ..).trans (forLp_arith3 hn h rfl)

end

section
variable {sz : Sys2Proof.ISize} {x : Nat} {f : Flags}
  (h : operandsReady s n 1 3 [odst d (isize sz), osrc a (isize sz), osrc b (isize sz)] = some (s1, r, next))
include h

theorem exec_shl_ready (hf : shlFam (8 * isize sz) (r.val 1) (r.val 2) = (x, f)) :
    exec (.shl n sz d a b) s = .next (written s1 r n next x f) :=
  (exec_shl ..).trans (forLp_arith3 hn h hf)

theorem exec_shr_ready (hf : shrFam (8 * isize sz) (r.val 1) (r.val 2) = (x, f)) :
    exec (.shr n sz d a b) s = .next (written s1 r n next x f) :=
  (exec_shr ..).trans (forLp_arith3 hn h hf)

theorem exec_sar_ready (hf : sarFam (8 * isize sz) (r.val 1) (r.val 2) = (x, f)) :
    exec (.sar n sz d a b) s = .next (written s1 r n next x f) :=
  (exec_sar ..).trans (forLp_arith3 hn h hf)

theorem exec_rot_ready (hf : rotFam (8 * isize sz) (r.val 1) (r.val 2) = (x, f)) :
    exec (.rot n sz d a b) s = .next (written s1 r n next x f) :=
  (exec_rot ..).trans (forLp_arith3 hn h hf)

/-- MUL writes its result, or raises INT_OVERFLOW with nothing written. -/
theorem exec_mul_ready (hf : mulFam (8 * isize sz) (r.val 1) (r.val 2) = (x, f)) :
    (¬ (f.v = true ∧ bitOf (s1.lp n).ps.toNat 16 = true) → exec (.mul n sz d a b) s = .next (written s1 r n next x f)) ∧
    (f.v = true ∧ bitOf (s1.lp n).ps.toNat 16 = true → exec (.mul n sz d a b) s = .next (trapped s n (mkTrap 0x0B 0 0 0))) := by
  rw [exec_mul, execMul]
  exact forLp_arith3_overflow hn h hf

/-- DIV by a divisor that is not zero writes its result, or raises INT_OVERFLOW with nothing written. -/
theorem exec_div_ready (h0 : r.val 2 ≠ 0) (hf : divFam (8 * isize sz) (r.val 1) (r.val 2) = (x, f)) :
    (¬ (f.v = true ∧ bitOf (s1.lp n).ps.toNat 16 = true) → exec (.div n sz d a b) s = .next (written s1 r n next x f)) ∧
    (f.v = true ∧ bitOf (s1.lp n).ps.toNat 16 = true → exec (.div n sz d a b) s = .next (trapped s n (mkTrap 0x0B 0 0 0))) := by
  rw [exec_div, execDiv]
  exact forLp_arithDiv_overflow hn h h0 hf

theorem exec_divu_ready (h0 : r.val 2 ≠ 0) : exec (.divu n sz d a b) s =
    .next (written s1 r n next (r.val 1 / r.val 2) ⟨sgn (8 * isize sz) (r.val 1 / r.val 2), r.val 1 / r.val 2 == 0, false, false⟩) :=
  (exec_divu ..).trans (forLp_arithDiv hn h (divuFam _) h0)

theorem exec_div_zero (h0 : r.val 2 = 0) : exec (.div n sz d a b) s = .next (trapped s n (mkTrap 0x0A 0 0 0)) :=
  (exec_div ..).trans (forLp_arithDiv_zero hn h _ _ h0)

theorem exec_divu_zero (h0 : r.val 2 = 0) : exec (.divu n sz d a b) s = .next (trapped s n (mkTrap 0x0A 0 0 0)) :=
  (exec_divu ..).trans (forLp_arithDiv_zero hn h _ _ h0)

end

section
variable (h : operandsReady s n 1 3 [odst d 8, osrc a 8, osrc b 8] = some (s1, r, next))
include h

theorem exec_rem_ready (h0 : r.val 2 ≠ 0) {x : Nat} (hx : x = wrapInt ((signed (r.val 1) 64).tmod (signed (r.val 2) 64)) 64) :
    exec (.rem n d a b) s = .next (written s1 r n next x (logicFlags 64 x)) := by
  subst hx
  exact (exec_rem ..).trans (forLp_arithDiv hn h (remFam 64) h0)

theorem exec_remu_ready (h0 : r.val 2 ≠ 0) :
    exec (.remu n d a b) s = .next (written s1 r n next (r.val 1 % r.val 2) (logicFlags 64 (r.val 1 % r.val 2))) :=
  (exec_remu ..).trans (forLp_arithDiv hn h (remuFam 64) h0)

theorem exec_rem_zero (h0 : r.val 2 = 0) : exec (.rem n d a b) s = .next (trapped s n (mkTrap 0x0A 0 0 0)) :=
  (exec_rem ..).trans (forLp_arithDiv_zero hn h _ _ h0)

theorem exec_remu_zero (h0 : r.val 2 = 0) : exec (.remu n d a b) s = .next (trapped s n (mkTrap 0x0A 0 0 0)) :=
  (exec_remu ..).trans (forLp_arithDiv_zero hn h _ _ h0)

end

end

/-- Settles O2: each instruction with its operands ready does its row of 04 R112, and the row's cases give the result and the flags. -/
theorem shiftsMultiplyDivide : Obligations.ShiftsMultiplyDivide := by
  refine ⟨fun n d a b s s1 r next hn => ⟨?logic, ?shifts⟩, fun n d a b s s1 r next hn => ⟨?div, ?rem⟩⟩
  case logic =>
    rintro sz h w rfl
    exact ⟨exec_and_ready hn h, exec_or_ready hn h, exec_xor_ready hn h⟩
  case shifts =>
    rintro sz h w x k rfl rfl rfl
    have hw := isize_bits_pos sz
    refine ⟨?zero, ?still, ?within, ?beyond, ?turn, ?mul⟩
    case zero =>
      rintro hk f rfl hx
      exact ⟨exec_shl_ready hn h (shlFam_zero hk hx), exec_shr_ready hn h (shrFam_zero hk), exec_sar_ready hn h (sarFam_zero hw hk hx)⟩
    case still => exact fun hk hx => exec_rot_ready hn h (rotFam_zero hx hk)
    case within =>
      rintro ⟨h1, hk⟩
      exact ⟨fun y hy => exec_shl_ready hn h (shlFam_within h1 hk hy), fun y hy => exec_shr_ready hn h (shrFam_within h1 hk hy),
        fun y hy => exec_sar_ready hn h (sarFam_within h1 hk hy)⟩
    case beyond =>
      exact fun hk => ⟨exec_shl_ready hn h (shlFam_beyond hk), exec_shr_ready hn h (shrFam_beyond hk),
        fun hx => exec_sar_ready hn h (sarFam_beyond hw hk hx)⟩
    case turn => exact fun hk y hy => exec_rot_ready hn h (rotFam_turn hk hy)
    case mul =>
      intro p hp
      obtain ⟨v, hv, hf⟩ := mulFam_eq hw hp
      exact ⟨v, hv, exec_mul_ready hn h hf⟩
  case div =>
    refine fun sz h => ⟨fun h0 => ⟨exec_div_zero hn h h0, exec_divu_zero hn h h0⟩, ?_⟩
    rintro h0 w rfl
    refine ⟨exec_divu_ready hn h h0, fun q hq => ?_⟩
    obtain ⟨v, hv, hf⟩ := divFam_eq (isize_bits_pos sz) hq
    exact ⟨v, hv, exec_div_ready hn h h0 hf⟩
  case rem =>
    exact fun h => ⟨fun h0 => ⟨exec_rem_zero hn h h0, exec_remu_zero hn h h0⟩,
      fun h0 => ⟨exec_remu_ready hn h h0, fun x hx => exec_rem_ready hn h h0 hx⟩⟩

end Sys2Proof.Machine
end

section
/-! SUPPORT. The condition numbers (04 R109). -/

namespace Sys2Proof.Machine

open Sys2Proof.Safety

/-- The table of 04 R109. -/
theorem condHolds_iff (f : Flags) :
    condHolds 0x0 f ∧ (condHolds 0x1 f ↔ f.z = true) ∧ (condHolds 0x2 f ↔ f.z = false) ∧ (condHolds 0x3 f ↔ f.c = true) ∧
      (condHolds 0x4 f ↔ f.c = false) ∧ (condHolds 0x5 f ↔ f.n = true) ∧ (condHolds 0x6 f ↔ f.n = false) ∧
      (condHolds 0x7 f ↔ f.v = true) ∧ (condHolds 0x8 f ↔ f.v = false) ∧ (condHolds 0x9 f ↔ f.c = false ∧ f.z = false) ∧
      (condHolds 0xA f ↔ f.c = true ∨ f.z = true) ∧ (condHolds 0xB f ↔ f.n = f.v) ∧ (condHolds 0xC f ↔ f.n ≠ f.v) ∧
      (condHolds 0xD f ↔ f.z = false ∧ f.n = f.v) ∧ (condHolds 0xE f ↔ f.z = true ∨ f.n ≠ f.v) ∧ ¬ condHolds 0xF f := by
  simp only [condHolds, Bool.not_eq_true', Bool.and_eq_true, Bool.or_eq_true, beq_iff_eq, bne_iff_ne, iff_self, and_self,
    Bool.false_eq_true, not_false_eq_true]

theorem exec_bcc (n : Nat) (k : BitVec 4) (t : Spec) (s : State) : exec (.bcc n k t) s = execBcc n k t s := rfl
theorem exec_scond (n : Nat) (d k : Spec) (s : State) : exec (.scond n d k) s = execScond n d k s := rfl

section
variable {n : Nat} {d a t : Spec} {s s1 : State} {r : Ready} {next : Nat} (hn : n < 98)
include hn

/-- Bcc with its operand ready goes to its target or to the next instruction. -/
theorem exec_bcc_ready {k : BitVec 4} (h : operandsReady s n 1 3 [oadr t] = some (s1, r, next)) :
    exec (.bcc n k t) s = .next (s1.commit n (if condHolds k.toNat (psFlags (s1.lp n).ps) then r.val 0 else next)) := by
  rw [exec_bcc, execBcc, forLp_next hn, execOn_ready h rfl]
  rfl

/-- SCOND with its operands ready writes its condition as 0 or 1. -/
theorem exec_scond_ready (h : operandsReady s n 1 3 [odst d 1, osrc a 1] = some (s1, r, next)) :
    exec (.scond n d a) s = .next (moved s1 r n next (bit01 (condHolds (r.val 1 % 16) (psFlags (s1.lp n).ps)))) := by
  rw [exec_scond, execScond, forLp_next hn, execOn_ready h rfl]
  rfl

end

/-- Settles O5: a condition holds where `condHolds` says so, by its table and the outcomes of Bcc and SCOND. -/
theorem conditionNumbers : Obligations.ConditionNumbers := by
  refine ⟨fun k f => condHolds k f = true, condHolds_iff, fun n d a t s s1 r next hn => ⟨fun k h => ⟨fun hc => ?_, fun hc => ?_⟩,
    fun h => ⟨fun hc => ?_, fun hc => ?_⟩⟩⟩
  · rw [exec_bcc_ready hn h, if_pos hc]
  · rw [exec_bcc_ready hn h, if_neg hc]
  · rw [exec_scond_ready hn h, bit01, if_pos hc]
  · rw [exec_scond_ready hn h, bit01, if_neg hc]

end Sys2Proof.Machine
end

section
/-! SUPPORT. What every command keeps, gathered from the lemma of each command: the queue, the canonical form of memory and the free values
already taken; and the statements about steps and the reset state. -/

namespace Sys2Proof.Machine

/-- Every command keeps what a command may not break, by the lemma of its meaning. -/
theorem exec_kept (c : Instr) (s : State) : KeptOut s (exec c s) :=
  have hk := Kept.refl s
  match c with
  | .registerWrite .. => execRegisterWrite_kept hk
  | .lockSet .. => execLockSet_kept hk
  | .fifoDelivery src dst => execFifoDelivery_kept (_src := src) (_dst := dst) hk
  | .retry .. => execRetry_kept hk
  | .repairSequence .. => execRepairSequence_kept hk
  | .proactiveRepair .. => execProactiveRepair_kept hk
  | .cpRepair .. => execCpRepair_kept hk
  | .tamlerHalt .. => execTamlerHalt_kept hk
  | .tamlerAccess .. => execTamlerAccess_kept hk
  | .tamlerSingleStep .. => execTamlerSingleStep_kept hk
  | .tamlerPerCoreAccess .. => execTamlerPerCoreAccess_kept hk
  | .tamlerExit .. => execTamlerExit_kept hk
  | .adc .. => execAdc_kept hk
  | .add .. => execAdd_kept hk
  | .sub .. => execSub_kept hk
  | .sbc .. => execSbc_kept hk
  | .cmp .. => execCmp_kept hk
  | .tst .. => execTst_kept hk
  | .and .. => execAnd_kept hk
  | .or .. => execOr_kept hk
  | .xor .. => execXor_kept hk
  | .shl .. => execShl_kept hk
  | .shr .. => execShr_kept hk
  | .sar .. => execSar_kept hk
  | .rot .. => execRot_kept hk
  | .mul .. => execMul_kept hk
  | .div .. => execDiv_kept hk
  | .divu .. => execDivu_kept hk
  | .rem .. => execRem_kept hk
  | .remu .. => execRemu_kept hk
  | .mov .. => execMov_kept hk
  | .mova .. => execMova_kept hk
  | .movz .. => execMovz_kept hk
  | .movs .. => execMovs_kept hk
  | .extu .. => execExtu_kept hk
  | .exts .. => execExts_kept hk
  | .ins .. => execIns_kept hk
  | .popc .. => execPopc_kept hk
  | .clz .. => execClz_kept hk
  | .ctz .. => execCtz_kept hk
  | .bswap .. => execBswap_kept hk
  | .mulx .. => execMulx_kept hk
  | .mulxu .. => execMulxu_kept hk
  | .sel .. => execSel_kept hk
  | .bcc .. => execBcc_kept hk
  | .call .. => execCall_kept hk
  | .ret .. => execRet_kept hk
  | .loop .. => execLoop_kept hk
  | .bbs .. => execBbs_kept hk
  | .bbc .. => execBbc_kept hk
  | .jtab .. => execJtab_kept hk
  | .scond .. => execScond_kept hk
  | .svc .. => execSvc_kept hk
  | .bkpt .. => execBkpt_kept hk
  | .eret .. => execEret_kept hk
  | .nop .. => execNop_kept hk
  | .wfi .. => execWfi_kept hk
  | .wfiWake .. => execWfiWake_kept hk
  | .cbcc .. => execCbcc_kept hk
  | .fadd .. => execFadd_kept hk
  | .fsub .. => execFsub_kept hk
  | .fmul .. => execFmul_kept hk
  | .fdiv .. => execFdiv_kept hk
  | .fsqrt .. => execFsqrt_kept hk
  | .fma .. => execFma_kept hk
  | .fcmp .. => execFcmp_kept hk
  | .fcmps .. => execFcmps_kept hk
  | .fmin .. => execFmin_kept hk
  | .fmax .. => execFmax_kept hk
  | .fclass .. => execFclass_kept hk
  | .cvtfi .. => execCvtfi_kept hk
  | .cvtfu .. => execCvtfu_kept hk
  | .cvtif .. => execCvtif_kept hk
  | .cvtuf .. => execCvtuf_kept hk
  | .cvtfp .. => execCvtfp_kept hk
  | .cvtpf .. => execCvtpf_kept hk
  | .frint .. => execFrint_kept hk
  | .fcvt .. => execFcvt_kept hk
  | .pdadd .. => execPdadd_kept hk
  | .pdsub .. => execPdsub_kept hk
  | .pdcmp .. => execPdcmp_kept hk
  | .pdchk .. => execPdchk_kept hk
  | .pdmov .. => execPdmov_kept hk
  | .pdmul .. => execPdmul_kept hk
  | .pddiv .. => execPddiv_kept hk
  | .pdrem .. => execPdrem_kept hk
  | .pdshl .. => execPdshl_kept hk
  | .pdshr .. => execPdshr_kept hk
  | .pdneg .. => execPdneg_kept hk
  | .pdabs .. => execPdabs_kept hk
  | .cvtpb .. => execCvtpb_kept hk
  | .cvtbp .. => execCvtbp_kept hk
  | .rpt .. => execRpt_kept hk
  | .smov .. => execSmov_kept hk
  | .smovr .. => execSmovr_kept hk
  | .scmp .. => execScmp_kept hk
  | .sscn .. => execSscn_kept hk
  | .sscnn .. => execSscnn_kept hk
  | .sfil .. => execSfil_kept hk
  | .sxlt .. => execSxlt_kept hk
  | .scrc .. => execScrc_kept hk
  | .ssum .. => execSsum_kept hk
  | .sspn .. => execSspn_kept hk
  | .sand .. => execSand_kept hk
  | .sor .. => execSor_kept hk
  | .sxor .. => execSxor_kept hk
  | .spopc .. => execSpopc_kept hk
  | .sxch .. => execSxch_kept hk
  | .swp .. => execSwp_kept hk
  | .cas .. => execCas_kept hk
  | .ldadd .. => execLdadd_kept hk
  | .ldor .. => execLdor_kept hk
  | .ldand .. => execLdand_kept hk
  | .ldres .. => execLdres_kept hk
  | .stcond .. => execStcond_kept hk
  | .fence .. => execFence_kept hk
  | .fenceL .. => execFenceL_kept hk
  | .fenceS .. => execFenceS_kept hk
  | .mfsr .. => execMfsr_kept hk
  | .mtsr .. => execMtsr_kept hk
  | .psWrite .. => execPsWrite_kept hk
  | .wpWrite .. => execWpWrite_kept hk
  | .regionTableWrite .. => execRegionTableWrite_kept hk
  | .rdtime .. => execRdtime_kept hk
  | .clineClean .. => execClineClean_kept hk
  | .clineInval .. => execClineInval_kept hk
  | .clineCleaninval .. => execClineCleaninval_kept hk
  | .clineZero .. => execClineZero_kept hk
  | .clineUnlock .. => execClineUnlock_kept hk
  | .pflk .. => execPflk_kept hk
  | .pref .. => execPref_kept hk
  | .isync .. => execIsync_kept hk
  | .lpstop .. => execLpstop_kept hk
  | .reservedOpcode .. => execReservedOpcode_kept hk
  | .vectorEntry .. => execVectorEntry_kept hk
  | .intcSwiRaise .. => execIntcSwiRaise_kept hk
  | .storeDrain .. => execStoreDrain_kept hk
  | .l1InvalidationApply .. => execL1InvalidationApply_kept hk
  | .cacheFill .. => execCacheFill_kept hk
  | .evictionDone .. => execEvictionDone_kept hk
  | .lockenWrite .. => execLockenWrite_kept hk
  | .rmClean .. => execRmClean_kept hk
  | .rmInval .. => execRmInval_kept hk
  | .rmCleaninval .. => execRmCleaninval_kept hk
  | .rmLockfill .. => execRmLockfill_kept hk
  | .rmUnlock .. => execRmUnlock_kept hk
  | .rmZero .. => execRmZero_kept hk
  | .rmDone .. => execRmDone_kept hk
  | .durWrite .. => execDurWrite_kept hk
  | .scrub .. => execScrub_kept hk
  | .eccCounterDecay .. => execEccCounterDecay_kept hk
  | .wayRetirement .. => execWayRetirement_kept hk
  | .queueDoorbell .. => execQueueDoorbell_kept hk
  | .send .. => execSend_kept hk
  | .receive .. => execReceive_kept hk
  | .exchange .. => execExchange_kept hk
  | .copy .. => execCopy_kept hk
  | .group .. => execGroup_kept hk
  | .timedSend .. => execTimedSend_kept hk
  | .timedSendRelease .. => execTimedSendRelease_kept hk
  | .holdRelease .. => execHoldRelease_kept hk
  | .deadlineExpiry .. => execDeadlineExpiry_kept hk
  | .retransmit .. => execRetransmit_kept hk
  | .ackTimeout .. => execAckTimeout_kept hk
  | .ackmarkWrite .. => execAckmarkWrite_kept hk
  | .completionDeferredWrite .. => execCompletionDeferredWrite_kept hk
  | .nvjScrub .. => execNvjScrub_kept hk
  | .engineRetry .. => execEngineRetry_kept hk
  | .engineHandover .. => execEngineHandover_kept hk
  | .tqEnableWrite .. => execTqEnableWrite_kept hk
  | .tqDisableWrite .. => execTqDisableWrite_kept hk
  | .frameReceive .. => execFrameReceive_kept hk
  | .hsrForward .. => execHsrForward_kept hk
  | .frameStart .. => execFrameStart_kept hk
  | .gooseRepetition .. => execGooseRepetition_kept hk
  | .svStale .. => execSvStale_kept hk
  | .gooseStale .. => execGooseStale_kept hk
  | .ddtEntryForget .. => execDdtEntryForget_kept hk
  | .portEnableWrite .. => execPortEnableWrite_kept hk
  | .portDisableWrite .. => execPortDisableWrite_kept hk
  | .msecCfgWrite .. => execMsecCfgWrite_kept hk
  | .blockLockLoss .. => execBlockLockLoss_kept hk
  | .expanderPoll .. => execExpanderPoll_kept hk
  | .moduleLifeUpdate .. => execModuleLifeUpdate_kept hk
  | .spareLaneMove .. => execSpareLaneMove_kept hk
  | .linkEnable .. => execLinkEnable_kept hk
  | .initReceived .. => execInitReceived_kept hk
  | .alignSend .. => execAlignSend_kept hk
  | .lackReceived .. => execLackReceived_kept hk
  | .creditReceived .. => execCreditReceived_kept hk
  | .replayTimeout .. => execReplayTimeout_kept hk
  | .packetSend .. => execPacketSend_kept hk
  | .packetForward .. => execPacketForward_kept hk
  | .dataPacket .. => execDataPacket_kept hk
  | .ackPacket .. => execAckPacket_kept hk
  | .refusePacket .. => execRefusePacket_kept hk
  | .formPacket .. => execFormPacket_kept hk
  | .timePacket .. => execTimePacket_kept hk
  | .reassemblyTimeout .. => execReassemblyTimeout_kept hk
  | .laneLoss .. => execLaneLoss_kept hk
  | .formation .. => execFormation_kept hk
  | .tsyncSend .. => execTsyncSend_kept hk
  | .tsyncRequestReceived .. => execTsyncRequestReceived_kept hk
  | .tsyncReplyReceived .. => execTsyncReplyReceived_kept hk
  | .referenceSwitch .. => execReferenceSwitch_kept hk
  | .referenceReturn .. => execReferenceReturn_kept hk
  | .timeCopyCorrection .. => execTimeCopyCorrection_kept hk
  | .ppsInEdge .. => execPpsInEdge_kept hk
  | .ppsOutPulse .. => execPpsOutPulse_kept hk
  | .disciplineSample .. => execDisciplineSample_kept hk
  | .sourceLossTimeout .. => execSourceLossTimeout_kept hk
  | .timeStep .. => execTimeStep_kept hk
  | .timeSlew .. => execTimeSlew_kept hk
  | .slewComplete .. => execSlewComplete_kept hk
  | .timeCtrlSrcWrite .. => execTimeCtrlSrcWrite_kept hk
  | .timerFire .. => execTimerFire_kept hk
  | .prismDoorbell .. => execPrismDoorbell_kept hk
  | .cipherDoorbell .. => execCipherDoorbell_kept hk
  | .jobDispatch .. => execJobDispatch_kept hk
  | .compress .. => execCompress_kept hk
  | .decompress .. => execDecompress_kept hk
  | .prismJobEnd .. => execPrismJobEnd_kept hk
  | .encrypt .. => execEncrypt_kept hk
  | .decrypt .. => execDecrypt_kept hk
  | .hash .. => execHash_kept hk
  | .hmacGen .. => execHmacGen_kept hk
  | .hmacVerify .. => execHmacVerify_kept hk
  | .cipherJobEnd .. => execCipherJobEnd_kept hk
  | .engineMismatch .. => execEngineMismatch_kept hk
  | .jobRingEnable .. => execJobRingEnable_kept hk
  | .jobRingDisable .. => execJobRingDisable_kept hk
  | .keyCmdLoad .. => execKeyCmdLoad_kept hk
  | .keyCmdClear .. => execKeyCmdClear_kept hk
  | .keyCmdLock .. => execKeyCmdLock_kept hk
  | .mbxTxWrite .. => execMbxTxWrite_kept hk
  | .post .. => execPost_kept hk
  | .blockingPost .. => execBlockingPost_kept hk
  | .postTimeout .. => execPostTimeout_kept hk
  | .mbxRingWrite .. => execMbxRingWrite_kept hk
  | .pop .. => execPop_kept hk
  | .bindWrite .. => execBindWrite_kept hk
  | .doorbellClear .. => execDoorbellClear_kept hk
  | .doorbellMaskWrite .. => execDoorbellMaskWrite_kept hk
  | .doorbellPacedDelivery .. => execDoorbellPacedDelivery_kept hk
  | .hello .. => execHello_kept hk
  | .badOpcode .. => execBadOpcode_kept hk
  | .getInfo .. => execGetInfo_kept hk
  | .setIdentity .. => execSetIdentity_kept hk
  | .eventMask .. => execEventMask_kept hk
  | .lockConfig .. => execLockConfig_kept hk
  | .partCreate .. => execPartCreate_kept hk
  | .partDestroy .. => execPartDestroy_kept hk
  | .progLoad .. => execProgLoad_kept hk
  | .lpStart .. => execLpStart_kept hk
  | .lpStop .. => execLpStop_kept hk
  | .lpStatus .. => execLpStatus_kept hk
  | .lockRange .. => execLockRange_kept hk
  | .unlockRange .. => execUnlockRange_kept hk
  | .setDurable .. => execSetDurable_kept hk
  | .queueRings .. => execQueueRings_kept hk
  | .queueParams .. => execQueueParams_kept hk
  | .queueEnable .. => execQueueEnable_kept hk
  | .queueDisable .. => execQueueDisable_kept hk
  | .queueRebind .. => execQueueRebind_kept hk
  | .queueStatus .. => execQueueStatus_kept hk
  | .teDisable .. => execTeDisable_kept hk
  | .domainSet .. => execDomainSet_kept hk
  | .resumeReport .. => execResumeReport_kept hk
  | .portUp .. => execPortUp_kept hk
  | .portDown .. => execPortDown_kept hk
  | .portStatus .. => execPortStatus_kept hk
  | .tableWrite .. => execTableWrite_kept hk
  | .pubTable .. => execPubTable_kept hk
  | .saLoad .. => execSaLoad_kept hk
  | .moduleInfo .. => execModuleInfo_kept hk
  | .moduleCfg .. => execModuleCfg_kept hk
  | .linkUp .. => execLinkUp_kept hk
  | .timeSource .. => execTimeSource_kept hk
  | .timeSet .. => execTimeSet_kept hk
  | .timeStatus .. => execTimeStatus_kept hk
  | .ptpConfig .. => execPtpConfig_kept hk
  | .ppsConfig .. => execPpsConfig_kept hk
  | .utcSet .. => execUtcSet_kept hk
  | .ringConfig .. => execRingConfig_kept hk
  | .ringEnable .. => execRingEnable_kept hk
  | .ringDisable .. => execRingDisable_kept hk
  | .keyLoad .. => execKeyLoad_kept hk
  | .keyClear .. => execKeyClear_kept hk
  | .keyLock .. => execKeyLock_kept hk
  | .engineDisable .. => execEngineDisable_kept hk
  | .chanBind .. => execChanBind_kept hk
  | .chanClose .. => execChanClose_kept hk
  | .chanStatus .. => execChanStatus_kept hk
  | .errReactSet .. => execErrReactSet_kept hk
  | .errStatus .. => execErrStatus_kept hk
  | .errClear .. => execErrClear_kept hk
  | .spareStatus .. => execSpareStatus_kept hk
  | .repairNow .. => execRepairNow_kept hk
  | .wearCfg .. => execWearCfg_kept hk
  | .clusterOffline .. => execClusterOffline_kept hk
  | .clusterOnline .. => execClusterOnline_kept hk
  | .bistRun .. => execBistRun_kept hk
  | .cmpTest .. => execCmpTest_kept hk
  | .tripTest _ _ _ _ _ period _ _ => execTripTest_kept (_period := period) hk
  | .tripTestFrameInject .. => execTripTestFrameInject_kept hk
  | .vfEnable .. => execVfEnable_kept hk
  | .vfAssign .. => execVfAssign_kept hk
  | .vfRelease .. => execVfRelease_kept hk
  | .dirtyLogStart .. => execDirtyLogStart_kept hk
  | .dirtyLogSwap .. => execDirtyLogSwap_kept hk
  | .dirtyLogStop .. => execDirtyLogStop_kept hk
  | .reset .. => execReset_kept hk
  | .powerDown .. => execPowerDown_kept hk
  | .fwStage .. => execFwStage_kept hk
  | .fwActivate .. => execFwActivate_kept hk
  | .fwStatus .. => execFwStatus_kept hk
  | .completionPostRetry .. => execCompletionPostRetry_kept hk
  | .cxlLinkTraining .. => execCxlLinkTraining_kept hk
  | .hostLinkDown .. => execHostLinkDown_kept hk
  | .hostLinkUp .. => execHostLinkUp_kept hk
  | .conventionalReset .. => execConventionalReset_kept hk
  | .functionLevelReset .. => execFunctionLevelReset_kept hk
  | .hdmCommit .. => execHdmCommit_kept hk
  | .barAccess .. => execBarAccess_kept hk
  | .cxlMemRead .. => execCxlMemRead_kept hk
  | .cxlMemWrite .. => execCxlMemWrite_kept hk
  | .hostSnoop .. => execHostSnoop_kept hk
  | .atsInvalidation _ page => execAtsInvalidation_kept (_page := page) hk
  | .msixUnmask .. => execMsixUnmask_kept hk
  | .sourceRaise .. => execSourceRaise_kept hk
  | .errSrcClear .. => execErrSrcClear_kept hk
  | .errFirstClear .. => execErrFirstClear_kept hk
  | .errReactWrite .. => execErrReactWrite_kept hk
  | .errPinForce .. => execErrPinForce_kept hk
  | .errPinRelease .. => execErrPinRelease_kept hk
  | .errNRelease .. => execErrNRelease_kept hk
  | .sagWarn .. => execSagWarn_kept hk
  | .sagWarnClear .. => execSagWarnClear_kept hk
  | .sagReset .. => execSagReset_kept hk
  | .railOutOfWindow .. => execRailOutOfWindow_kept hk
  | .thermSample .. => execThermSample_kept hk
  | .refclkFault .. => execRefclkFault_kept hk
  | .d2dLinkFault .. => execD2dLinkFault_kept hk
  | .fabricBufferError .. => execFabricBufferError_kept hk
  | .patrolScrub .. => execPatrolScrub_kept hk
  | .fuseProgram .. => execFuseProgram_kept hk
  | .ageMeasure .. => execAgeMeasure_kept hk
  | .lifeUpdate .. => execLifeUpdate_kept hk
  | .coldReset .. => execColdReset_kept hk
  | .coldBoot .. => execColdBoot_kept hk
  | .dramInitDone .. => execDramInitDone_kept hk
  | .warmReset .. => execWarmReset_kept hk
  | .clusterReset .. => execClusterReset_kept hk
  | .lpRestart .. => execLpRestart_kept hk
  | .portBlockReset .. => execPortBlockReset_kept hk
  | .bistGo .. => execBistGo_kept hk
  | .bistDone .. => execBistDone_kept hk
  | .lensSnapArm .. => execLensSnapArm_kept hk
  | .lensFreezeArm .. => execLensFreezeArm_kept hk
  | .lensSnapshot .. => execLensSnapshot_kept hk
  | .lensFreeze .. => execLensFreeze_kept hk
  | .lensWrap .. => execLensWrap_kept hk
  | .vddAonPowerUp .. => execVddAonPowerUp_kept hk
  | .powerLoss .. => execPowerLoss_kept hk
  | .blockLockAcquired .. => execBlockLockAcquired_kept hk
  | .lackSend .. => execLackSend_kept hk
  | .linkRxError .. => execLinkRxError_kept hk
  | .linkDisableWrite .. => execLinkDisableWrite_kept hk
  | .dramAlert .. => execDramAlert_kept hk
  | .errorInputPacedDelivery .. => execErrorInputPacedDelivery_kept hk
  | .prpSupervisionFrame .. => execPrpSupervisionFrame_kept hk
  | .ptpMessageSend .. => execPtpMessageSend_kept hk

/-- A step keeps the canonical form of memory: a command by `exec_kept`, the passing of time by `State.idle_kept`. -/
theorem step_keeps_memory_wf {s t : State} (hm : Memory.wf s.mem = true) (h : step s = .next t) : Memory.wf t.mem = true := by
  unfold step at h
  split at h
  · cases h
    exact (State.idle_kept (Kept.refl s)).mem hm
  · exact ((exec_kept _ _).of h).mem hm

/-- Settles O27, since each command and the passing of time keep the form. -/
theorem memoryFormKept : Obligations.MemoryFormKept := fun _ _ => step_keeps_memory_wf

/-- Settles O26: the queue and the counter of free values are among what every command keeps. -/
theorem queueLeftAlone : Obligations.QueueLeftAlone := fun c s _ h =>
  have k := (exec_kept c s).of h
  ⟨k.pending, k.free⟩

/-- Settles O22, by the definition of a step. -/
theorem stepRunsFront : Obligations.StepRunsFront := fun _ _ _ => rfl

/-- Settles O28: memory is empty right after reset. -/
theorem memoryFormAtReset : Obligations.MemoryFormAtReset := rfl

end Sys2Proof.Machine
end

section
/-! SUPPORT. When a command runs, one lemma for each shape that a command's meaning has, and the statement about all of them. -/

namespace Sys2Proof.Machine

/-- The outcome runs where the condition holds and is refused where it does not. -/
structure RunsIff (b : Bool) (o : Host.Outcome State Fault Refusal) : Prop where
  runs : b = true → ∃ t : State, o = .next t
  refused : b = false → o = .refused .noSuchUnit

theorem RunsIff.next (t : State) : RunsIff true (.next t) := ⟨fun _ => ⟨t, rfl⟩, fun h => (nomatch h)⟩

theorem RunsIff.noUnit : RunsIff false (.refused .noSuchUnit) := ⟨fun h => (nomatch h), fun _ => rfl⟩

/-- A condition that is asked before an outcome joins the outcome's own. -/
theorem RunsIff.guard {p : Prop} [Decidable p] {b : Bool} {o : Host.Outcome State Fault Refusal} (h : RunsIff b o) :
    RunsIff (decide p && b) (if p then o else .refused .noSuchUnit) := by
  by_cases hp : p
  · simpa only [hp, decide_true, Bool.true_and, if_true] using h
  · simpa only [hp, decide_false, Bool.false_and, if_false] using RunsIff.noUnit

theorem RunsIff.ite {p : Prop} [Decidable p] {t : State} : RunsIff (decide p) (if p then .next t else .refused .noSuchUnit) := by
  simpa only [Bool.and_true] using (RunsIff.next t).guard (p := p)

theorem RunsIff.iteBool {b : Bool} {t : State} : RunsIff b (if b then .next t else .refused .noSuchUnit) := by
  simpa only [Bool.decide_eq_true] using RunsIff.ite (p := b = true) (t := t)

/-- The condition written the other way round, as the reason to refuse. -/
theorem RunsIff.unless {p : Prop} [Decidable p] {b : Bool} {o : Host.Outcome State Fault Refusal} (hb : b = true ↔ ¬ p)
    (ho : ∃ t : State, o = .next t) : RunsIff b (if p then .refused .noSuchUnit else o) := by
  obtain ⟨t, rfl⟩ := ho
  by_cases hp : p
  · rw [if_pos hp, Bool.eq_false_iff.2 fun h => hb.1 h hp]
    exact .noUnit
  · rw [if_neg hp, hb.2 hp]
    exact .next t

theorem forLp_runsIff (n : Nat) (s : State) (f : State → State) : RunsIff (decide (n < 98)) (forLp n s f) := .ite

theorem regCmd_runsIff (there : Bool) (master off size v : Nat) (s : State) :
    RunsIff (masterExists master && there) (regCmd there master off size v s) := by
  rw [Bool.and_comm]
  exact .iteBool

/-- A register that is there for every command of its kind. -/
theorem regCmd_true_runsIff (master off size v : Nat) (s : State) : RunsIff (masterExists master) (regCmd true master off size v s) := by
  simpa only [Bool.and_true] using regCmd_runsIff true master off size v s

/-- A register named by two numbers. -/
theorem regCmd_two_runsIff (a b : Bool) (master off size v : Nat) (s : State) :
    RunsIff (masterExists master && a && b) (regCmd (a && b) master off size v s) := by
  rw [Bool.and_assoc]
  exact regCmd_runsIff ..

theorem yafRun_runsIff (h : CmdHdr) (opcode : Nat) (args : List Nat) (b : By) (s : State) (f : State → Ans) :
    RunsIff (cmdExists h) (yafRun h opcode args b s f) := .unless (by simp) ⟨_, rfl⟩

/-- Every receiver that exists has its two doorbell registers. -/
theorem dbOffsets_receiverId (r : Receiver) : ((receiverId r).bind dbOffsets).isSome = (receiverId r).isSome := by
  cases r with
  | slot c k =>
    by_cases h : c < 16 ∧ k < 6
    · have hm : masterLp (256 + 6 * c + k) = some (6 * c + k) := by
        rw [masterLp, if_pos (by omega), show 256 + 6 * c + k - 256 = 6 * c + k by omega]
      simp only [receiverId, h, and_self, if_true, Option.bind_some, Option.isSome_some, dbOffsets, hm,
        show ¬ (256 + 6 * c + k < 64) by omega, if_false]
      split <;> rfl
    · simp only [receiverId, h, if_false, Option.bind_none, Option.isSome_none]
  | cp i =>
    by_cases h : i < 2
    · have hm : masterLp (512 + i) = some (96 + i) := by
        rw [masterLp, if_neg (by omega), if_pos (by omega), show 512 + i - 512 = i by omega]
      simp only [receiverId, h, if_true, Option.bind_some, Option.isSome_some, dbOffsets, hm, show ¬ (512 + i < 64) by omega,
        show ¬ (96 + i < 96) by omega, if_false]
    · simp only [receiverId, h, if_false, Option.bind_none, Option.isSome_none]
  | host f =>
    by_cases h : f < 64
    · simp only [receiverId, h, if_true, Option.bind_some, Option.isSome_some, dbOffsets]
    · simp only [receiverId, h, if_false, Option.bind_none, Option.isSome_none]

section
variable (s : State)

theorem execLockSet_runsIff (master off : Nat) : RunsIff (masterExists master && (lockOf off).isSome) (execLockSet master off s) := by
  unfold execLockSet
  cases lockOf off with
  | none => simpa only [Option.isSome_none, Bool.and_false] using RunsIff.noUnit
  | some a => simpa only [Option.isSome_some] using regCmd_runsIff true ..

theorem execDoorbellClear_runsIff (master : Nat) (r : Receiver) (v : BitVec 32) :
    RunsIff (masterExists master && (receiverId r).isSome) (execDoorbellClear master r v s) := by
  unfold execDoorbellClear
  rw [← dbOffsets_receiverId]
  cases (receiverId r).bind dbOffsets with
  | none => simpa only [Option.isSome_none, Bool.and_false] using RunsIff.noUnit
  | some a => simpa only [Option.isSome_some] using regCmd_runsIff true ..

theorem execDoorbellMaskWrite_runsIff (master : Nat) (r : Receiver) (v : BitVec 32) :
    RunsIff (masterExists master && (receiverId r).isSome) (execDoorbellMaskWrite master r v s) := by
  unfold execDoorbellMaskWrite
  rw [← dbOffsets_receiverId]
  cases (receiverId r).bind dbOffsets with
  | none => simpa only [Option.isSome_none, Bool.and_false] using RunsIff.noUnit
  | some a => simpa only [Option.isSome_some] using regCmd_runsIff true ..

theorem execDoorbellPacedDelivery_runsIff (r : Receiver) (bit : Nat) :
    RunsIff ((receiverId r).isSome && decide (bit < 32)) (execDoorbellPacedDelivery r bit s) := by
  unfold execDoorbellPacedDelivery
  cases receiverId r with
  | none => exact .noUnit
  | some m =>
    refine .unless (by simp) ?_
    cases masterLp m with
    | none => exact ⟨_, rfl⟩
    | some n => exact ⟨_, rfl⟩

theorem execRetry_runsIff (c k : Nat) (ev : Detect) : RunsIff (decide (c < 16) && decide (k < 3)) (execRetry c k ev s) := by
  refine .unless (by simp) ?_
  dsimp only
  (repeat' split) <;> exact ⟨_, rfl⟩

theorem execRepairSequence_runsIff (c k : Nat) (v : RepairVerdict) :
    RunsIff (decide (c < 16) && decide (k < 3)) (execRepairSequence c k v s) := by
  refine .unless (by simp) ?_
  (repeat' split) <;> exact ⟨_, rfl⟩

theorem execProactiveRepair_runsIff (c k : Nat) (v : RepairVerdict) :
    RunsIff (decide (c < 16) && decide (k < 3)) (execProactiveRepair c k v s) := by
  refine .unless (by simp) ?_
  dsimp only
  (repeat' split) <;> exact ⟨_, rfl⟩

theorem execBadOpcode_runsIff (h : CmdHdr) (opcode flags : BitVec 16) :
    RunsIff (cmdExists h && !(flags == 1 && opcodes.contains opcode.toNat)) (execBadOpcode h opcode flags s) :=
  .unless (by simp [Decidable.imp_iff_not_or]) ⟨_, rfl⟩

theorem execCxlLinkTraining_runsIff (cxl : Bool) (speed : BitVec 2) (width : BitVec 3) :
    RunsIff (decide (speed ≠ 0) && decide (2 ≤ width.toNat) && decide (width.toNat ≤ 4)) (execCxlLinkTraining cxl speed width s) :=
  .unless (by simp only [Bool.and_eq_true, decide_eq_true_eq, not_or, Nat.not_lt, and_assoc, ne_eq]) ⟨_, rfl⟩

theorem execBarAccess_runsIff (bar : BarAddr) (size : Nat) (write : Option (BitVec 64)) :
    RunsIff (barHas bar) (execBarAccess bar size write s) := .unless (by simp) ⟨_, rfl⟩

theorem execColdReset_runsIff (cause : Nat) : RunsIff ([1, 2, 3, 7].contains cause) (execColdReset cause s) :=
  .unless (by simp only [List.contains_eq_mem, List.mem_cons, List.not_mem_nil, decide_eq_true_eq, or_false]; omega) ⟨_, rfl⟩

theorem execWarmReset_runsIff (cause : Nat) : RunsIff ([4, 5, 6].contains cause) (execWarmReset cause s) :=
  .unless (by simp only [List.contains_eq_mem, List.mem_cons, List.not_mem_nil, decide_eq_true_eq, or_false]; omega) ⟨_, rfl⟩

theorem execErrorInputPacedDelivery_runsIff (lp input : Nat) :
    RunsIff (decide (lp < 98) && decide (input < 3)) (execErrorInputPacedDelivery lp input s) := by
  rw [Bool.and_comm]
  exact (forLp_runsIff lp s _).guard

end

/-- Every command runs exactly where it is well-formed, by the shape of its meaning. -/
theorem exec_runsIff (c : Instr) (s : State) : RunsIff c.wellFormed (exec c s) := by
  cases c with
  | fifoDelivery | formation | referenceSwitch | referenceReturn | ppsInEdge | ppsOutPulse | disciplineSample | sourceLossTimeout |
    slewComplete | tripTestFrameInject | hostLinkDown | hostLinkUp | conventionalReset | hdmCommit | cxlMemRead | cxlMemWrite | hostSnoop
    | errNRelease | sagWarnClear | thermSample | fabricBufferError | fuseProgram | lifeUpdate | coldBoot | dramInitDone | bistDone |
    lensSnapshot | lensFreeze | vddAonPowerUp | powerLoss => exact .next _
  | tamlerHalt | tamlerAccess | tamlerSingleStep | tamlerPerCoreAccess | tamlerExit | adc | add | sub | sbc | cmp | tst | and | or | xor |
    shl | shr | sar | rot | mul | div | divu | rem | remu | mov | mova | movz | movs | extu | exts | ins | popc | clz | ctz | bswap | mulx
    | mulxu | sel | bcc | call | ret | loop | bbs | bbc | jtab | scond | svc | bkpt | eret | nop | wfi | wfiWake | cbcc | fadd | fsub |
    fmul | fdiv | fsqrt | fma | fcmp | fcmps | fmin | fmax | fclass | cvtfi | cvtfu | cvtif | cvtuf | cvtfp | cvtpf | frint | fcvt | pdadd
    | pdsub | pdcmp | pdchk | pdmov | pdmul | pddiv | pdrem | pdshl | pdshr | pdneg | pdabs | cvtpb | cvtbp | rpt | smov | smovr | scmp |
    sscn | sscnn | sfil | sxlt | scrc | ssum | sspn | sand | sor | sxor | spopc | sxch | swp | cas | ldadd | ldor | ldand | ldres | stcond
    | fence | fenceL | fenceS | mfsr | mtsr | psWrite | wpWrite | regionTableWrite | rdtime | clineClean | clineInval | clineCleaninval |
    clineZero | clineUnlock | pflk | pref | isync | lpstop | reservedOpcode | vectorEntry | storeDrain | l1InvalidationApply | lpRestart => exact .ite
  | cpRepair | cacheFill | send | receive | exchange | copy | group | timedSend | timedSendRelease | holdRelease | deadlineExpiry |
    retransmit | ackTimeout | ackmarkWrite | completionDeferredWrite | nvjScrub | engineRetry | engineHandover | frameReceive | hsrForward
    | frameStart | gooseRepetition | svStale | gooseStale | ddtEntryForget | blockLockLoss | expanderPoll | moduleLifeUpdate |
    spareLaneMove | initReceived | alignSend | lackReceived | creditReceived | replayTimeout | packetSend | packetForward | dataPacket |
    ackPacket | refusePacket | formPacket | timePacket | reassemblyTimeout | laneLoss | tsyncSend | tsyncRequestReceived |
    tsyncReplyReceived | timeCopyCorrection | timerFire | postTimeout | functionLevelReset | atsInvalidation | msixUnmask | sourceRaise |
    sagWarn | sagReset | railOutOfWindow | refclkFault | d2dLinkFault | patrolScrub | ageMeasure | clusterReset | portBlockReset |
    blockLockAcquired | lackSend | linkRxError | dramAlert | prpSupervisionFrame | ptpMessageSend
  | jobDispatch | compress | decompress | prismJobEnd | encrypt | decrypt | hash | hmacGen | hmacVerify | cipherJobEnd | engineMismatch => exact .ite
  | evictionDone | scrub | eccCounterDecay | wayRetirement => exact .iteBool
  | hello | getInfo | setIdentity | lockConfig | partCreate | partDestroy | progLoad | lpStart | lpStop | lpStatus | lockRange
    | unlockRange | setDurable | queueRings | queueParams | queueEnable | queueDisable | queueRebind | queueStatus | teDisable | domainSet
    | resumeReport | portUp | portDown | portStatus | tableWrite | pubTable | saLoad | moduleInfo | moduleCfg | linkUp | timeSource |
    timeSet | timeStatus | ptpConfig | ppsConfig | utcSet | ringConfig | ringEnable | ringDisable | keyLoad | keyClear | keyLock |
    engineDisable | chanBind | chanClose | chanStatus | errReactSet | errStatus | errClear | spareStatus | repairNow | wearCfg |
    clusterOffline | clusterOnline | bistRun | cmpTest | tripTest | vfEnable | vfAssign | vfRelease | dirtyLogStart | dirtyLogSwap |
    dirtyLogStop | reset | powerDown | fwStage | fwActivate | fwStatus => exact yafRun_runsIff ..
  | lockenWrite | durWrite | queueDoorbell | tqEnableWrite | tqDisableWrite | portEnableWrite | portDisableWrite | msecCfgWrite |
    linkEnable | prismDoorbell | cipherDoorbell | jobRingEnable | jobRingDisable | post | blockingPost | mbxRingWrite | pop | bindWrite |
    errSrcClear | errFirstClear | errReactWrite | linkDisableWrite | rmClean | rmInval | rmCleaninval | rmLockfill | rmUnlock | rmZero => exact regCmd_runsIff ..
  | registerWrite | intcSwiRaise | mbxTxWrite => exact regCmd_two_runsIff ..
  | timeStep | timeSlew | timeCtrlSrcWrite | keyCmdLoad | keyCmdClear | keyCmdLock | errPinForce | errPinRelease | bistGo | lensSnapArm |
    lensFreezeArm => exact regCmd_true_runsIff ..
  | rmDone | completionPostRetry | lensWrap => exact .iteBool
  | eventMask => unfold exec; exact yafRun_runsIff ..
  | lockSet => exact execLockSet_runsIff ..
  | doorbellClear => exact execDoorbellClear_runsIff ..
  | doorbellMaskWrite => exact execDoorbellMaskWrite_runsIff ..
  | doorbellPacedDelivery => exact execDoorbellPacedDelivery_runsIff ..
  | retry => exact execRetry_runsIff ..
  | repairSequence => exact execRepairSequence_runsIff ..
  | proactiveRepair => exact execProactiveRepair_runsIff ..
  | badOpcode => exact execBadOpcode_runsIff ..
  | cxlLinkTraining => exact execCxlLinkTraining_runsIff ..
  | barAccess => exact execBarAccess_runsIff ..
  | coldReset => exact execColdReset_runsIff ..
  | warmReset => exact execWarmReset_runsIff ..
  | errorInputPacedDelivery => exact execErrorInputPacedDelivery_runsIff ..

/-- Settles O25, by the shape of each command's meaning. -/
theorem wellFormedCommandsRun : Obligations.WellFormedCommandsRun := fun c s => ⟨(exec_runsIff c s).runs, (exec_runsIff c s).refused⟩

end Sys2Proof.Machine
end

section
/-! SUPPORT. The bits of a field written by its access code (00 R5, R7), the passing of a nanosecond (11 R314, R323), and the reset values. -/

namespace Sys2Proof.Machine

/-- The bits that `x` has and those that it does not have make up the number. -/
theorem land_add_xor (y : Nat) : ∀ x : Nat, (y &&& x) + (y ^^^ (y &&& x)) = y := by
  induction y using Nat.strongRecOn with
  | ind y ih =>
    intro x
    by_cases hy : y = 0
    · rw [hy, Nat.zero_and, Nat.xor_self]
    have h := ih (y / 2) (by omega) (x / 2)
    rw [← Nat.and_div_two, ← Nat.xor_div_two] at h
    have ha := Nat.and_mod_two_eq_one (a := y) (b := x)
    have hx := Nat.xor_mod_two_eq_one (a := y) (b := y &&& x)
    omega

/-- Taking away the bits that `x` has. -/
theorem bitOf_sub_and (y x i : Nat) : bitOf (y - (y &&& x)) i = (bitOf y i && !bitOf x i) := by
  rw [Nat.sub_eq_of_eq_add' (land_add_xor y x).symm, bitOf_eq_testBit, bitOf_eq_testBit, bitOf_eq_testBit, Nat.testBit_xor, Nat.testBit_and]
  cases y.testBit i <;> cases x.testBit i <;> rfl

/-- The bits of a field. -/
theorem bitOf_bits (v lo w i : Nat) : bitOf (bits v lo w) i = (decide (i < w) && bitOf v (lo + i)) := by
  rw [bitOf_eq_testBit, bitOf_eq_testBit, bits, Nat.testBit_mod_two_pow, Nat.testBit_div_two_pow, Nat.add_comm]

/-- The bit of a field that lies at a place of its number. -/
theorem bitOf_bits_at {v lo w i : Nat} (h1 : lo ≤ i) (h2 : i < lo + w) : bitOf (bits v lo w) (i - lo) = bitOf v i := by
  rw [bitOf_bits, decide_eq_true (by omega), Bool.true_and, Nat.add_sub_cancel' h1]

theorem bitOf_or (a b i : Nat) : bitOf (a ||| b) i = (bitOf a i || bitOf b i) := by
  simp only [bitOf_eq_testBit, Nat.testBit_or]

/-- A write leaves the bits outside the field. -/
theorem bitOf_fieldWrite_out {v r hi lo i : Nat} (keep : Bool) (a : Acc) (hl : lo ≤ hi) (h : i < lo ∨ hi < i) :
    bitOf (fieldWrite v keep r (hi, lo, a)) i = bitOf r i := by
  have out (x : Nat) : bitOf (setBits r lo (hi + 1 - lo) x) i = bitOf r i := by
    rw [bitOf_setBits, if_neg (by omega)]
  cases a with
  | ro | rc => rfl
  | rw | wo | w1c | w1s => exact out _
  | rwl => cases keep with
    | true => rfl
    | false => exact out _

/-- Settles O30, by the bits of a replaced field. -/
theorem accessCodes : Obligations.AccessCodes := by
  intro v r hi lo i keep a hl
  refine ⟨bitOf_fieldWrite_out keep a hl, fun h1 h2 => ?_⟩
  have inn (x : Nat) : bitOf (setBits r lo (hi + 1 - lo) x) i = bitOf x (i - lo) := by
    rw [bitOf_setBits, if_pos (by omega)]
  have old (x : Nat) : bitOf (bits x lo (hi + 1 - lo)) (i - lo) = bitOf x i := bitOf_bits_at h1 (by omega)
  have hw : bitOf (setBits r lo (hi + 1 - lo) (bits v lo (hi + 1 - lo))) i = bitOf v i := (inn _).trans (old v)
  refine ⟨?ro, ?rw, ?rwl, ?w1c, ?w1s⟩
  case ro => rintro (rfl | rfl) <;> rfl
  case rw => rintro (rfl | rfl) <;> exact hw
  case rwl =>
    rintro rfl
    cases keep with
    | true => rfl
    | false => exact hw
  case w1c =>
    rintro rfl
    exact (inn _).trans (by rw [bitOf_sub_and, old, old])
  case w1s =>
    rintro rfl
    exact (inn _).trans (by rw [bitOf_or, old, old])

/-- Settles O23: the queue is empty, so the step is `State.idle`; with no trip test that is the advance of the time alone. -/
theorem emptyQueueTicks : Obligations.EmptyQueueTicks := by
  intro s hp ht
  have hs : step s = .next s.tick := by
    have h : s.tick.yaf.trip = none := ht
    simp only [step, hp, State.idle, State.tripTimeout, h]
  refine ⟨s.tick, hs, rfl, ?zero, ?ahead, ?behind, hp, rfl, rfl, rfl, rfl, rfl, rfl, rfl, rfl⟩
  case zero =>
    intro h0 hf
    simp only [State.tick, h0, hf]
    constructor
    · simp [signed, slewUnit]; omega
    · decide
  case ahead =>
    intro h0 h1 hf
    simp only [State.tick, hf, if_pos (Int.le_of_lt h0), Int.min_eq_left h1]
    simp [signed]; omega
  case behind =>
    intro h0 h1 hf
    simp only [State.tick, hf, if_neg (Int.not_le.2 h0), Int.max_eq_left h1]
    have : (slewUnit : Int) ≤ 2 ^ 48 := by decide
    simp [signed]; omega

/-- A processor after reset. -/
theorem State.reset_lp (n : Nat) : (State.reset.lp n).ps = 0x200#32 ∧ (State.reset.lp n).run = .empty ∧ (State.reset.lp n).sb = [] :=
  ⟨rfl, rfl, rfl⟩

/-- Memory that nothing has written reads as zero. -/
theorem State.reset_readByte (n a : Nat) : State.reset.readByte n a = 0 := rfl

/-- A register that nothing has written reads as its reset value. -/
theorem State.reset_reg (o : Nat) : State.reset.reg o = regResetAt o := rfl

/-- Settles O24: no register is written at reset, so each reads as the value of its header line. -/
theorem resetValues : Obligations.ResetValues := by
  refine ⟨rfl, rfl, rfl, rfl, State.reset_lp, State.reset_readByte, ?_⟩
  simp only [State.reset_reg]
  exact ⟨rfl, rfl, rfl, rfl, rfl, rfl, rfl, rfl, rfl, rfl, rfl, rfl, rfl, rfl, rfl, rfl, rfl, rfl, rfl, rfl, rfl, rfl⟩

end Sys2Proof.Machine
end

section
/-! SUPPORT. Sums, differences and their flags, the moves, bit fields and counts (04 R111, R113, R114), and the statements about them. -/

namespace Sys2Proof.Machine

open Sys2Proof.Safety

theorem sizeBytes_bits_pos (sz : Size) : 0 < 8 * sizeBytes sz := by cases sz <;> decide

/-- The flags of a sum: n and z of the result, c of the carry out, v where the operands' signs agree and the result's differs. -/
structure SumFlags (w a b cin res : Nat) (f : Flags) : Prop where
  n : f.n = true ↔ 2 ^ (w - 1) ≤ res
  z : f.z = true ↔ res = 0
  c : f.c = true ↔ 2 ^ w ≤ a + b + cin
  v : f.v = true ↔ sgn w a = sgn w b ∧ sgn w res ≠ sgn w a

/-- The flags of a difference: c is the borrow, v stands where the operands' signs differ and the result's is not the first's. -/
structure DiffFlags (w a b bin res : Nat) (f : Flags) : Prop where
  n : f.n = true ↔ 2 ^ (w - 1) ≤ res
  z : f.z = true ↔ res = 0
  c : f.c = true ↔ a < b + bin
  v : f.v = true ↔ sgn w a ≠ sgn w b ∧ sgn w res ≠ sgn w a

theorem addFam_eq {w a b cin res : Nat} (hw : 0 < w) (hr : res = (a + b + cin) % 2 ^ w) :
    ∃ f : Flags, SumFlags w a b cin res f ∧ addFam w a b cin = (res, f) := by
  subst hr
  exact ⟨_, ⟨sgn_iff hw (Nat.mod_lt _ (Nat.two_pow_pos w)), beq_iff_eq, decide_eq_true_iff, by simp⟩, rfl⟩

theorem subFam_eq {w a b bin res : Nat} (hw : 0 < w) (hr : res = wrapInt ((a : Int) - b - bin) w) :
    ∃ f : Flags, DiffFlags w a b bin res f ∧ subFam w a b bin = (res, f) := by
  subst hr
  exact ⟨_, ⟨sgn_iff hw (wrapInt_lt _ w), beq_iff_eq, decide_eq_true_iff, by simp⟩, rfl⟩

/-- With no borrow in. -/
theorem subFam_zero {w a b res : Nat} (hw : 0 < w) (hr : res = wrapInt ((a : Int) - b) w) :
    ∃ f : Flags, DiffFlags w a b 0 res f ∧ subFam w a b 0 = (res, f) := subFam_eq hw (by rw [hr, Int.ofNat_zero, Int.sub_zero])

/-- Settles O1: each instruction gives the result and the flags of its sum or difference, and writes them or raises INT_OVERFLOW. -/
theorem addSubtract : Obligations.AddSubtract := by
  intro n d a b s s1 r next hn
  refine ⟨?add, ?sub, ?adc, ?sbc⟩
  case add =>
    rintro sz h w res rfl hr
    obtain ⟨f, k, hf⟩ := addFam_eq (cin := 0) (sizeBytes_bits_pos sz) hr
    exact ⟨f, k.n, k.z, k.c, k.v, forLp_arith3_overflow hn h hf⟩
  case sub =>
    rintro sz h w res rfl hr
    obtain ⟨f, k, hf⟩ := subFam_zero (sizeBytes_bits_pos sz) hr
    exact ⟨f, k.n, k.z, k.c, k.v, forLp_arith3_overflow hn h hf⟩
  case adc =>
    rintro sz h w res rfl hr
    obtain ⟨f, k, hf⟩ := addFam_eq (isize_bits_pos sz) hr
    exact ⟨f, k.n, k.z, k.c, k.v, forLp_arith3_overflow hn h hf⟩
  case sbc =>
    rintro sz h w res rfl hr
    obtain ⟨f, k, hf⟩ := subFam_eq (isize_bits_pos sz) hr
    exact ⟨f, k.n, k.z, k.c, k.v, forLp_arith3_overflow hn h hf⟩

section
variable {n opBytes maxLevel : Nat} {os : List Opd} {s s1 s2 : State} {r : Ready} {next nx : Nat}
  {f : State → Ready → Nat → Except Trap (State × Nat)} (hn : n < 98)
  (h : operandsReady s n opBytes maxLevel os = some (s1, r, next))
include hn h

/-- A command that is one instruction, with its operands ready and its operation done. -/
theorem forLp_execOn_ready (hf : f s1 r next = .ok (s2, nx)) :
    forLp n s (fun s => execOn n opBytes maxLevel os s f) = .next (s2.commit n nx) := by
  rw [forLp_next hn, execOn_ready h hf]

/-- A command that is one instruction, with its operands ready and its operation trapping. -/
theorem forLp_execOn_trap {t : Trap} (hf : f s1 r next = .error t) :
    forLp n s (fun s => execOn n opBytes maxLevel os s f) = .next (s.stop n t (t.resume.getD (s.lp n).pc.toNat)) := by
  rw [forLp_next hn, execOn_trap h hf]

end

/-- Settles O3, from the flags of a difference and the operation of the two instructions. -/
theorem compareTest : Obligations.CompareTest := by
  intro n a b s s1 r next hn
  refine ⟨?cmp, fun sz h => forLp_execOn_ready hn h rfl⟩
  rintro sz h w res rfl hr
  obtain ⟨f, k, hf⟩ := subFam_zero (sizeBytes_bits_pos sz) hr
  exact ⟨f, forLp_execOn_ready hn h (by simp only [hf]), k.n, k.z, k.c, k.v⟩

/-! ### Counting zeros -/

/-- CLZ: the bits above the count are clear, and the next one is set. -/
theorem clzNat_spec (v : Nat) : ∀ w : Nat, clzNat v w ≤ w ∧ (∀ i : Nat, w - clzNat v w ≤ i → i < w → bitOf v i = false) ∧
    (clzNat v w < w → bitOf v (w - 1 - clzNat v w) = true)
  | 0 => ⟨Nat.le_refl 0, fun _ _ h => absurd h (Nat.not_lt_zero _), fun h => absurd h (Nat.lt_irrefl 0)⟩
  | w + 1 => by
    obtain ⟨hle, hclear, hset⟩ := clzNat_spec v w
    rw [clzNat]
    split
    · rename_i hb
      exact ⟨by omega, fun i h1 h2 => by omega, fun _ => by simpa using hb⟩
    · rename_i hb
      refine ⟨by omega, fun i h1 h2 => ?_, fun hk => ?_⟩
      · rcases Nat.lt_succ_iff_lt_or_eq.1 h2 with hi | rfl
        · exact hclear i (by omega) hi
        · simpa using hb
      · rw [show w + 1 - 1 - (1 + clzNat v w) = w - 1 - clzNat v w by omega]
        exact hset (by omega)

theorem bitOf_succ (v i : Nat) : bitOf v (i + 1) = bitOf (v / 2) i := by
  simp only [bitOf_eq_testBit, Nat.testBit_succ]

/-- CTZ: the bits below the count are clear, and the next one is set. -/
theorem ctzNat_spec : ∀ w v : Nat, ctzNat v w ≤ w ∧ (∀ i : Nat, i < ctzNat v w → bitOf v i = false) ∧
    (ctzNat v w < w → bitOf v (ctzNat v w) = true)
  | 0, _ => ⟨Nat.le_refl 0, fun _ h => absurd h (Nat.not_lt_zero _), fun h => absurd h (Nat.lt_irrefl 0)⟩
  | w + 1, v => by
    obtain ⟨hle, hclear, hset⟩ := ctzNat_spec w (v / 2)
    rw [ctzNat]
    split
    · rename_i hb
      exact ⟨by omega, fun i h => absurd h (Nat.not_lt_zero _), fun _ => by simpa [bitOf] using hb⟩
    · rename_i hb
      refine ⟨by omega, fun i hi => ?_, fun hk => ?_⟩
      · cases i with
        | zero => simpa [bitOf] using hb
        | succ i => rw [bitOf_succ]; exact hclear i (by omega)
      · rw [Nat.add_comm, bitOf_succ]
        exact hset (by omega)

/-- Settles O4: the operation of each instruction is its function of the values, and the functions' laws give the rest. -/
theorem movesAndFields : Obligations.MovesAndFields := by
  intro n d a b s s1 r next hn
  refine ⟨fun sz h => forLp_execOn_ready hn h rfl, fun h => forLp_execOn_ready hn h rfl,
    fun sz h => ⟨forLp_execOn_ready hn h rfl, forLp_execOn_ready hn h rfl⟩, ?extract, ?insert, ?count,
    fun sz h => forLp_execOn_ready hn h rfl, ?wide, fun h => forLp_execOn_ready hn h rfl⟩
  case extract =>
    rintro h pos len x rfl rfl rfl
    exact ⟨forLp_execOn_ready hn h rfl, forLp_execOn_ready hn h rfl⟩
  case insert =>
    rintro h - pos len rfl rfl
    refine ⟨_, forLp_execOn_ready hn h rfl, fun i hi => ?_⟩
    exact bitOf_setBits ..
  case count =>
    intro h
    obtain ⟨hle, hclear, hset⟩ := clzNat_spec (r.val 1) 64
    obtain ⟨hle', hclear', hset'⟩ := ctzNat_spec 64 (r.val 1)
    exact ⟨forLp_execOn_ready hn h rfl, ⟨_, hle, forLp_execOn_ready hn h rfl, hclear, hset⟩,
      ⟨_, hle', forLp_execOn_ready hn h rfl, hclear', hset'⟩⟩
  case wide =>
    refine fun h => ⟨?_, forLp_execOn_ready hn h rfl⟩
    rintro x rfl
    exact forLp_execOn_ready hn h rfl

end Sys2Proof.Machine
end

section
/-! SUPPORT. Control transfers (04 R115, R116): the comparisons of CBcc by the flags of a difference, JTAB, and the statement about them. -/

namespace Sys2Proof.Machine

open Sys2Proof.Safety

/-- The conditions of CBcc, by the values compared (04 R115). -/
def cbCompares : CbCond → Nat → Nat → Prop
  | .eq, x, y => x = y
  | .ne, x, y => x ≠ y
  | .lt, x, y => signed x 64 < signed y 64
  | .ge, x, y => signed y 64 ≤ signed x 64
  | .lo, x, y => x < y

/-- A difference modulo 2^64 of words is zero where the words are equal. -/
theorem wrapInt_sub_eq_zero {x y : Nat} (hx : x < 2 ^ 64) (hy : y < 2 ^ 64) : wrapInt ((x : Int) - y) 64 = 0 ↔ x = y := by
  simp only [wrapInt]
  omega

/-- Signed order, from the signs of the words and of their difference. -/
theorem signed_lt_iff {x y : Nat} (hx : x < 2 ^ 64) (hy : y < 2 ^ 64) {f : Flags} (k : DiffFlags 64 x y 0 (wrapInt ((x : Int) - y) 64) f) :
    signed x 64 < signed y 64 ↔ f.n ≠ f.v := by
  have hsx := sgn_iff (by decide : 0 < 64) hx
  have hsy := sgn_iff (by decide : 0 < 64) hy
  have hsr := sgn_iff (by decide : 0 < 64) (wrapInt_lt ((x : Int) - y) 64)
  have hn : f.n = sgn 64 (wrapInt ((x : Int) - y) 64) := Bool.eq_iff_iff.2 (k.n.trans hsr.symm)
  have hv : f.v = (sgn 64 x != sgn 64 y && sgn 64 (wrapInt ((x : Int) - y) 64) != sgn 64 x) := Bool.eq_iff_iff.2 (k.v.trans (by simp))
  rw [hn, hv, signed_of_lt (by decide) hx, signed_of_lt (by decide) hy]
  generalize hr : wrapInt ((x : Int) - y) 64 = res at *
  simp only [wrapInt] at hr
  cases h1 : sgn 64 x <;> cases h2 : sgn 64 y <;> cases h3 : sgn 64 res <;> simp_all <;> omega

theorem cbHolds_iff (c : CbCond) {x y : Nat} (hx : x < 2 ^ 64) (hy : y < 2 ^ 64) :
    cbHolds c (subFam 64 x y 0).2 = true ↔ cbCompares c x y := by
  obtain ⟨f, k, hf⟩ := subFam_zero (a := x) (b := y) (by decide : 0 < 64) rfl
  obtain ⟨-, hz, hnz, hc, -, -, -, -, -, -, -, hge, hlt, -⟩ := condHolds_iff f
  rw [hf]
  cases c with
  | eq => exact hz.trans (k.z.trans (wrapInt_sub_eq_zero hx hy))
  | ne => exact hnz.trans (Bool.eq_false_iff.trans (not_congr (k.z.trans (wrapInt_sub_eq_zero hx hy))))
  | lt => exact hlt.trans (signed_lt_iff hx hy k).symm
  | ge => exact hge.trans (by rw [cbCompares, ← Int.not_lt, signed_lt_iff hx hy k, Classical.not_not])
  | lo => exact hc.trans k.c

section
variable {n : Nat} {a b t : Spec} {s s1 : State} {r : Ready} {next : Nat} (hn : n < 98)
  (h : operandsReady s n 1 3 [osrc a 8, osrc b 8, oadr t] = some (s1, r, next))
include hn h

/-- CBcc with its operands ready goes to its target where its comparison holds, and else to the next instruction. -/
theorem exec_cbcc_ready (hx : r.val 0 < 2 ^ 64) (hy : r.val 1 < 2 ^ 64) (c : CbCond) {nx : Nat}
    (ht : cbCompares c (r.val 0) (r.val 1) → nx = r.val 2) (hf : ¬ cbCompares c (r.val 0) (r.val 1) → nx = next) :
    exec (.cbcc n c a b t) s = .next (s1.commit n nx) := by
  have hnx : (if cbHolds c (subFam 64 (r.val 0) (r.val 1) 0).2 then r.val 2 else next) = nx := by
    split
    · rename_i hc
      exact (ht ((cbHolds_iff c hx hy).1 hc)).symm
    · rename_i hc
      exact (hf fun h => hc ((cbHolds_iff c hx hy).2 h)).symm
  exact forLp_execOn_ready hn h (by rw [hnx])

/-- JTAB goes to the address that its table holds, and gives up the reservation. -/
theorem exec_jtab_ready {q v : Nat} {mt : MemType} {s2 : State} (hq : q = (r.val 2 + 8 * min (r.val 0) (r.val 1)) % 2 ^ 64)
    (ha : q % 8 = 0) (hc : (s1.lp n).check q 8 .read (s1.lp n).level = .ok mt) (hl : s1.load n q 8 mt = some (s2, v)) :
    exec (.jtab n a b t) s = .next ((s2.dropRsv n).commit n v) := by
  have hm : (if r.val 0 < r.val 1 then r.val 0 else r.val 1) = min (r.val 0) (r.val 1) := by split <;> omega
  refine forLp_execOn_ready hn h ?_
  simp only [hm, ← hq, ha, LP.checkOp, hc, hl, ne_eq, not_true_eq_false, if_false]
  rfl

end

/-- Settles O6: each instruction commits the address that its operation gives. -/
theorem controlTransfers : Obligations.ControlTransfers := by
  intro n d a b t s s1 r next hn
  refine ⟨fun k h => exec_bcc_ready hn h, fun h => forLp_execOn_ready hn h rfl, fun h => forLp_execOn_ready hn h rfl, ?loop, ?two,
    ?scond, fun h => forLp_execOn_ready hn h rfl⟩
  case loop =>
    intro h hx
    have run {x nx : Nat} (hv : (2 ^ 64 - 1 + r.val 0) % 2 ^ 64 = x) (hnx : (if x ≠ 0 then r.val 1 else next) = nx) :
        exec (.loop n d t) s = .next ((r.put s1 n 0 x).commit n nx) := forLp_execOn_ready hn h (by simp only [hv, hnx])
    exact ⟨fun h1 => run (by omega) rfl, fun h0 => run (by omega) (if_pos (by decide)), fun h1 => run (by omega) (if_pos (by omega))⟩
  case two =>
    refine fun h => ⟨forLp_execOn_ready hn h rfl, forLp_execOn_ready hn h rfl, fun hx hy => ?_,
      fun q mt s2 v hq ha hc hl => exec_jtab_ready hn h hq ha hc hl⟩
    have cb := @exec_cbcc_ready n a b t s s1 r next hn h hx hy
    exact ⟨cb .eq (fun hc => if_pos hc) (fun hc => if_neg hc), cb .ne (fun hc => if_neg hc) (fun hc => if_pos (Classical.not_not.1 hc)),
      cb .lo (fun hc => if_pos hc) (fun hc => if_neg hc), cb .lt (fun hc => if_pos hc) (fun hc => if_neg hc),
      cb .ge (fun hc => if_neg (Int.not_lt.2 hc)) (fun hc => if_pos (Int.not_le.1 hc))⟩
  case scond =>
    exact fun h => exec_scond_ready hn h

end Sys2Proof.Machine
end

section
/-! SUPPORT. Traps taken on purpose, pending events, waits and stops (03 R94, R95, 04 R116, R129), and the statements about them. -/

namespace Sys2Proof.Machine

open Sys2Proof.Safety

/-- A trap other than the model's own "wait" stops an instruction by being taken. -/
theorem State.stop_trap (s : State) (n : Nat) {t : Trap} (framePc : Nat) (h : t.vec ≠ 0xFF) : s.stop n t framePc = s.trap n t framePc := by
  rw [State.stop, if_neg h]

/-- With no event pending nothing is taken. -/
theorem State.takeNext_none {s : State} {n : Nat} (framePc framePs : Nat) (h : s.nextEvent n = none) :
    s.takeNext n framePc framePs = s := by
  rw [State.takeNext, h]

/-- The pending bit of an interrupt's source is taken away with it. -/
def LP.clearSource (p : LP) (v : Nat) : LP :=
  { p with timer := p.timer && v != 0x18, swi := p.swi && v != 0x19, lens := p.lens && v != 0x1A, err := p.err && v != 0x1B }

/-- An interrupt other than SOFTWARE_INT is taken with its level; only its source's pending bit goes. -/
theorem State.takeNext_interrupt {s : State} {n v l : Nat} (framePc framePs : Nat) (h : s.nextEvent n = some (.interrupt v l))
    (hv : v ≠ 0x19) : s.takeNext n framePc framePs =
      ((s.onLp n fun p => p.clearSource v).takeEvent n (mkTrap v 0 0 0) framePc framePs (some l)).countLp n 5 1 := by
  simp only [State.takeNext, h, hv, false_and, if_false]
  rfl

/-- VECTOR_ENTRY on a processor that runs takes what is pending. -/
theorem exec_vectorEntry {n : Nat} {s : State} (hn : n < 98) (hr : s.canRun n = true) :
    exec (.vectorEntry n) s = .next (s.takeNext n (s.lp n).pc.toNat (s.lp n).ps.toNat) := by
  change execVectorEntry n s = _
  rw [execVectorEntry, forLp_next hn, if_pos hr]

/-- Settles O7: the two instructions stop with their trap, whose resume address is the next instruction, and VECTOR_ENTRY is `takeNext`. -/
theorem trapInstructions : Obligations.TrapInstructions := by
  intro n a s s1 r next hn
  refine ⟨fun h => ?svc, fun h => ?bkpt, fun hr he => ?none, fun v lvl hr he hv => ?interrupt⟩
  case svc => exact (forLp_execOn_trap hn h rfl).trans (congrArg _ (State.stop_trap s n _ (by simp)))
  case bkpt => exact (forLp_execOn_trap hn h rfl).trans (congrArg _ (State.stop_trap s n _ (by simp)))
  case none => rw [exec_vectorEntry hn hr, State.takeNext_none _ _ he]
  case interrupt =>
    refine ⟨s.onLp n fun p => p.clearSource v, ?_, rfl, rfl, ?_, ?_, ?_, ?_⟩
    · rw [exec_vectorEntry hn hr, State.takeNext_interrupt _ _ he hv]
    all_goals rw [State.onLp_lp_same]
    · rfl
    all_goals rintro rfl; exact Bool.and_false _

/-! ### Waits and stops -/

/-- WFI_WAKE ends a wait whose end is there, and takes what is pending. -/
theorem exec_wfiWake {n : Nat} {s : State} (hn : n < 98) (hr : (s.lp n).run = .waiting) (he : s.wfiEnds n = true) :
    exec (.wfiWake n) s = .next ((s.onLp n fun p => { p with run := .running }).takeNext n (s.lp n).pc.toNat (s.lp n).ps.toNat) := by
  change execWfiWake n s = _
  simp only [execWfiWake, forLp_next hn, hr, he, decide_true, Bool.and_self, if_true, State.onLp_lp_same]

theorem exec_wfiWake_not {n : Nat} {s : State} (hn : n < 98) (h : ¬ ((s.lp n).run = .waiting ∧ s.wfiEnds n = true)) :
    exec (.wfiWake n) s = .next s := by
  change execWfiWake n s = _
  rw [execWfiWake, forLp_next hn, if_neg (by simpa using h)]

/-- What LPSTOP leaves before its event: the store buffer drained, the processor halted, the reservation gone. -/
def State.lpstopped (s : State) (n : Nat) : State := (s.drainAll n).onLp n fun p => { p with run := .halted, haltVec := 0, rsv := none }

section
variable {n : Nat} {t : Spec} {s s1 : State} {r : Ready} {next : Nat} (hn : n < 98)
include hn

theorem exec_wfi_ready (h : operandsReady s n 1 1 [] = some (s1, r, next)) :
    exec (.wfi n) s = .next ((if s1.wfiEnds n then s1 else s1.onLp n fun p => { p with run := .waiting }).commit n next) :=
  forLp_execOn_ready hn h rfl

/-- PREF asks for a line of DRAM or host memory that may be read as NORMAL-WB. -/
theorem exec_pref_asks (h : operandsReady s n 2 3 [oadr t] = some (s1, r, next))
    (hc : (s1.lp n).check (r.val 0) 1 .read (s1.lp n).level = .ok .wb)
    (hk : s1.addrKind (r.val 0) = .dram ∨ s1.addrKind (r.val 0) = .host) :
    exec (.pref n t) s = .next ((s1.askFill n (lineOf (r.val 0)) 2).commit n next) :=
  forLp_execOn_ready hn h (by simp only [hc, hk, if_true])

/-- PREF of an address that may not be read so does nothing. -/
theorem exec_pref_nothing (h : operandsReady s n 2 3 [oadr t] = some (s1, r, next))
    (hc : ∀ u, (s1.lp n).check (r.val 0) 1 .read (s1.lp n).level = .ok u → u ≠ .wb) :
    exec (.pref n t) s = .next (s1.commit n next) := by
  refine forLp_execOn_ready hn h ?_
  cases hk : (s1.lp n).check (r.val 0) 1 .read (s1.lp n).level with
  | error e => simp only [hk]
  | ok u =>
    cases u with
    | wb => exact absurd rfl (hc _ hk)
    | nc | device => simp only [hk]

end

/-- Settles O10, each clause by the operation of its command. -/
theorem waitStopSync : Obligations.WaitStopSync := by
  intro n t s s1 r next hn
  refine ⟨fun h => ⟨fun he => ?ends, fun he => ?waits⟩, fun hr he => ?wakes, exec_wfiWake_not hn, fun h => ?stops, fun h => ?sync,
    fun h => ⟨exec_pref_asks hn h, exec_pref_nothing hn h⟩⟩
  case ends => rw [exec_wfi_ready hn h, if_pos he]
  case waits =>
    refine ⟨s1.onLp n fun p => { p with run := .waiting }, ?_, ?_, rfl, rfl⟩
    · rw [exec_wfi_ready hn h, he]
      rfl
    · rw [State.onLp_lp_same]
  case wakes =>
    refine ⟨s.onLp n fun p => { p with run := .running }, ?_, ?_, rfl, rfl, exec_wfiWake hn hr he⟩ <;> rw [State.onLp_lp_same]
  case stops =>
    refine ⟨s1.lpstopped n, ?_, ?_, forLp_execOn_ready hn h rfl⟩ <;> rw [State.lpstopped, State.onLp_lp_same]
  case sync =>
    refine ⟨s1.onLp n fun p => { p with l1i := L1.empty }, ?_, ?_, forLp_execOn_ready hn h rfl⟩ <;> rw [State.onLp_lp_same]

end Sys2Proof.Machine
end

section
/-! SUPPORT. What the end of a floating-point operation and the writing of a packed result come to, packed decimal (04 R118-R121, 05 R148),
and the statement about it. -/

namespace Sys2Proof.Machine

open Sys2Proof.Safety

theorem stop_mkTrap (s : State) (n : Nat) {vec : Nat} (detail opIdx fault : Nat) (h : vec ≠ 0xFF) :
    s.stop n (mkTrap vec detail opIdx fault) ((mkTrap vec detail opIdx fault).resume.getD (s.lp n).pc.toNat) =
      trapped s n (mkTrap vec detail opIdx fault) := State.stop_trap s n _ h

/-- The floating-point vectors. -/
theorem fpVector_range {e : Exc} {en v : Nat} (h : fpVector e en = some v) : 0x10 ≤ v ∧ v ≤ 0x14 := by
  unfold fpVector at h
  repeat' split at h
  all_goals simp only [Option.some.injEq, reduceCtorEq] at h
  all_goals omega

/-- FPCS of a processor with the flags of the exceptions set (05 R143). -/
def State.fpRaise (s : State) (n : Nat) (e : Exc) : State := s.onLp n fun p => { p with fpcs := p.fpcs ||| BitVec.ofNat 32 e.bits }

section
variable {n opBytes : Nat} {os : List Opd} {s s1 : State} {r : Ready} {next : Nat}
  {f : State → Ready → Nat → Except Trap (State × Nat)} (hn : n < 98) (h : operandsReady s n opBytes 3 os = some (s1, r, next))
include hn h

/-- An instruction whose operation traps, with nothing done. -/
theorem forLp_execOn_trapped {vec detail opIdx fault : Nat} (hf : f s1 r next = .error (mkTrap vec detail opIdx fault)) (hv : vec ≠ 0xFF) :
    forLp n s (fun s => execOn n opBytes 3 os s f) = .next (trapped s n (mkTrap vec detail opIdx fault)) := by
  rw [forLp_execOn_trap hn h hf, stop_mkTrap s n detail opIdx fault hv]

/-- A floating-point operation none of whose exceptions is enabled. -/
theorem forLp_fpFinish_none {e : Exc} {w : State → State} (hf : f s1 r next = fpFinish n e s1 next w)
    (hv : fpVector e (fpEnables (s1.lp n).fpcs) = none) :
    forLp n s (fun s => execOn n opBytes 3 os s f) = .next ((w (s1.fpRaise n e)).commit n next) := by
  refine forLp_execOn_ready hn h (hf.trans ?_)
  simp only [fpFinish, hv]
  rfl

/-- A floating-point operation with an exception enabled traps, and writes nothing. -/
theorem forLp_fpFinish_some {e : Exc} {w : State → State} (hf : f s1 r next = fpFinish n e s1 next w) {v : Nat}
    (hv : fpVector e (fpEnables (s1.lp n).fpcs) = some v) :
    forLp n s (fun s => execOn n opBytes 3 os s f) =
      .next (trapped s n (mkTrap v (e.bits + 32 * bits (s1.lp n).fpcs.toNat 16 3) 0 0)) := by
  have hr := fpVector_range hv
  refine forLp_execOn_trapped hn h (hf.trans ?_) (by omega)
  simp only [fpFinish, hv]

omit hn in
/-- A packed result is written with its flags, or raises DECIMAL_OVERFLOW with nothing written. -/
theorem execOn_pdWrite {l : Nat} {v : Int} (hf : f s1 r next = pdWrite n l s1 r next v) :
    (pdOver l v = false → execOn n opBytes 3 os s f = written s1 r n next (pdEncode l v) (pdFlags v)) ∧
    (pdOver l v = true → execOn n opBytes 3 os s f = trapped s n (mkTrap 0x0D 0 0 0)) := by
  constructor <;> intro ho
  · exact execOn_ready h (hf.trans (by rw [pdWrite, if_neg (by simp [ho])]))
  · rw [execOn_trap h (hf.trans (by rw [pdWrite, if_pos ho])), stop_mkTrap s n 0 0 0 (by decide)]

theorem forLp_pdWrite {l : Nat} {v : Int} (hf : f s1 r next = pdWrite n l s1 r next v) :
    (pdOver l v = false → forLp n s (fun s => execOn n opBytes 3 os s f) = .next (written s1 r n next (pdEncode l v) (pdFlags v))) ∧
    (pdOver l v = true → forLp n s (fun s => execOn n opBytes 3 os s f) = .next (trapped s n (mkTrap 0x0D 0 0 0))) := by
  rw [forLp_next hn]
  exact ⟨fun ho => congrArg _ ((execOn_pdWrite h hf).1 ho), fun ho => congrArg _ ((execOn_pdWrite h hf).2 ho)⟩

end

/-- PDSHR's quotient is the value divided by the power of ten, rounded half away from zero, with the value's sign. -/
theorem pdShrValue_spec (x : Int) (k : Nat) :
    2 * ((pdShrValue x k).natAbs * 10 ^ k) ≤ 2 * x.natAbs + 10 ^ k ∧
      2 * x.natAbs + 10 ^ k < 2 * ((pdShrValue x k).natAbs * 10 ^ k) + 2 * 10 ^ k ∧
      (0 < pdShrValue x k → 0 < x) ∧ (pdShrValue x k < 0 → x < 0) := by
  have hk : 0 < 10 ^ k := Nat.pow_pos (by decide)
  have hz : x = 0 → (2 * x.natAbs + 10 ^ k) / (2 * 10 ^ k) = 0 := fun h => by
    rw [h]
    exact Nat.div_eq_of_lt (by simp [hk])
  have hd := Nat.div_add_mod (2 * x.natAbs + 10 ^ k) (2 * 10 ^ k)
  have hm := Nat.mod_lt (2 * x.natAbs + 10 ^ k) (y := 2 * 10 ^ k) (by omega)
  rw [Nat.mul_assoc, Nat.mul_comm (10 ^ k)] at hd
  simp only [pdShrValue]
  generalize (2 * x.natAbs + 10 ^ k) / (2 * 10 ^ k) = m at *
  split
  · rw [Int.natAbs_neg, Int.natAbs_natCast]
    exact ⟨by omega, by omega, fun h => by omega, fun h => by omega⟩
  · rw [Int.natAbs_natCast]
    exact ⟨by omega, by omega, fun h => by omega, fun h => by omega⟩

/-- Settles O12: what each instruction does with its packed sources read, by the writing of a packed or a floating-point result. -/
theorem decimalArithmetic : Obligations.DecimalArithmetic := by
  refine ⟨fun n d a b s s1 r next hn done hd => ?decimal, ?convert⟩
  case decimal =>
    refine ⟨fun h x y hx hy => ?two, fun h hv => ?invalid, fun h x hx => ?one, fun h x hx => ?shift, ?mov, fun h x y hx hy => ?cmp, ?chk,
      fun sz h x hx => ?binary, fun sz h => (hd _ _ _).2 (forLp_pdWrite hn h rfl)⟩
    case two =>
      refine ⟨(hd _ _ _).2 (forLp_pdWrite hn h (by simp only [hx, hy, Bool.false_and, Bool.false_eq_true, if_false])),
        (hd _ _ _).2 (forLp_pdWrite hn h (by simp only [hx, hy, Bool.false_and, Bool.false_eq_true, if_false])),
        (hd _ _ _).2 (forLp_pdWrite hn h (by simp only [hx, hy, Bool.false_and, Bool.false_eq_true, if_false])), fun h0 => ?_, fun h0 => ?_⟩
      · have hb : (y == 0) = false := beq_false_of_ne h0
        exact ⟨(hd _ _ _).2 (forLp_pdWrite hn h (by simp only [hx, hy, hb, Bool.and_false, Bool.false_eq_true, if_false])),
          (hd _ _ _).2 (forLp_pdWrite hn h (by simp only [hx, hy, hb, Bool.and_false, Bool.false_eq_true, if_false]))⟩
      · have hb : (y == 0) = true := beq_iff_eq.2 h0
        exact ⟨forLp_execOn_trapped hn h (by simp only [hx, hy, hb, Bool.and_self, if_true]) (by decide),
          forLp_execOn_trapped hn h (by simp only [hx, hy, hb, Bool.and_self, if_true]) (by decide)⟩
    case invalid =>
      refine ⟨r.faultAddr s1 n 1, forLp_execOn_trapped hn h ?_ (by decide)⟩
      simp only [Ready.packed, hv, Bool.false_eq_true, if_false]
    case one =>
      exact ⟨(hd _ _ _).2 (forLp_pdWrite hn h (by simp only [hx])), (hd _ _ _).2 (forLp_pdWrite hn h (by simp only [hx]))⟩
    case shift =>
      exact ⟨(hd _ _ _).2 (forLp_pdWrite hn h (by simp only [hx])), pdShrValue x (r.val 2),
        (hd _ _ _).2 (forLp_pdWrite hn h (by simp only [hx])), pdShrValue_spec x (r.val 2)⟩
    case mov =>
      rintro k rfl h x hx
      have w := execOn_pdWrite h (l := s.peekK n 3 b / 16 + 1) (v := x) (f := fun s1 r next => match r.packed s1 n 1 (s.peekK n 3 b % 16 + 1) with
        | .error t => .error t
        | .ok x => pdWrite n (s.peekK n 3 b / 16 + 1) s1 r next x) (by simp only [hx])
      exact (hd _ _ _).2 ⟨fun ho => (forLp_next hn).trans (congrArg _ (w.1 ho)), fun ho => (forLp_next hn).trans (congrArg _ (w.2 ho))⟩
    case cmp => exact forLp_execOn_ready hn h (by simp only [hx, hy])
    case chk =>
      rintro k rfl h
      change execPdchk n a b s = _
      rw [execPdchk, forLp_next hn]
      exact congrArg _ (execOn_ready h rfl)
    case binary =>
      rintro w rfl
      refine ⟨fun h1 h2 => forLp_execOn_ready hn h ?_, fun h1 => forLp_execOn_trapped hn h ?_ (by decide)⟩
      · simp only [hx]
        rw [if_neg (by omega)]
      · simp only [hx]
        rw [if_pos (by omega)]
  case convert =>
    rintro n ff d a s s1 r next hn f rfl
    refine ⟨?_, fun h => ⟨?_, fun t ht => forLp_execOn_trap hn h (by simp only [ht])⟩⟩
    · rintro h x rfl hv
      change execCvtfp n ff d a s = _
      rw [execCvtfp]
      refine forLp_fpFinish_none hn h (w := fun t => r.put t n 0 (pdEncode 16 (cvtFp (s1.rmode n) ((fmtOf ff).source r 1)).1)) ?_ hv
      rfl
    · rintro v x hr rfl hv
      change execCvtpf n ff d a s = _
      rw [execCvtpf]
      refine forLp_fpFinish_none hn h (w := fun t => r.put t n 0 ((fmtOf ff).ofInt (s1.rmode n) v).1) ?_ hv
      simp only [hr]

end Sys2Proof.Machine
end

section
/-! SUPPORT. The unprefixed string instructions, the atomics and reservations, and the line instructions (04 R123, R124, R127, R128, 06 R170,
07 R184, R185, 11 R319), and the statements about them. -/

namespace Sys2Proof.Machine

open Sys2Proof.Safety

/-! ### Strings -/

/-- Every string instruction is the runner of one element. -/
theorem exec_strInstr {n : Nat} {op : StrOp} {i : Instr} (s : State) (h : strInstr n op = some i) :
    exec i s = forLp n s fun s => strOne n op s := by
  cases op <;> simp only [strInstr, Option.some.injEq, reduceCtorEq] at h <;> subst h <;> rfl

section
variable {n : Nat} {op : StrOp} {e : StrElem} {os : List Opd} {s s1 s2 s3 : State} {r : Ready} {next v : Nat}
  (hs : strShape op = some (e, os)) (h : operandsReady s n 1 3 os = some (s1, r, next))
  (ht : (match e.table with
    | none => Except.ok s1
    | some k => s1.loadTable n os.length (r.val (os.length - 1)) k) = .ok s2)
  (he : s2.element n e (if e.scans then noMatch else r.val 0) (r.val (os.length - 1) % 256) (s2.lp n).strTable = .ok (s3, v))
include hs h ht he

/-- The runner's state: the element's, the reservation dropped, with the result written as the element's class has it. -/
theorem strOne_ready : strOne n op s =
    (if e.scans then (r.put (s3.dropRsv n) n 0 v).setFlags n (scanFlags v)
      else if e.accumulates then r.put (s3.dropRsv n) n 0 v else s3.dropRsv n).commit n next := by
  rw [strOne, hs]
  refine execOn_ready (s1 := s1) (r := r) (next := next) h ?_
  cases hk : e.table with
  | none =>
    simp only [hk, Except.ok.injEq] at ht ⊢
    subst ht
    simp only [he]
    (repeat' split) <;> rfl
  | some k =>
    simp only [hk] at ht ⊢
    simp only [ht, he]
    (repeat' split) <;> rfl

end

/-- An element on the byte at SRCP reads it and steps SRCP alone. -/
theorem State.elemSrc_ok {s s1 : State} {n x : Nat} (f : Nat → Nat → Nat) (h : s.elemLoad n (s.lp n).srcp.toNat = .ok (s1, x)) :
    s.elemSrc n f = .ok (s1.onLp n fun p => { p with srcp := p.srcp + 1#64 }, f (s.lp n).srcp.toNat x) := by
  have hp : (fun p : LP => { p with srcp := p.srcp + BitVec.ofInt 64 1, dstp := p.dstp + BitVec.ofInt 64 0 }) =
      fun p => { p with srcp := p.srcp + 1#64 } := funext fun p => by simp
  simp only [State.elemSrc, h, State.stepPtrs, hp]

/-- Settles O13: the runner on its element, and each element by its definition. -/
theorem stringElements : Obligations.StringElements := by
  refine ⟨fun n op e os i s s1 s2 s3 r next v hn hi hs h ht he => ?runner, fun s s1 s2 n acc a x tbl => ⟨fun hl => ?loads, fun hst => ?fill⟩⟩
  case runner =>
    have hx := (exec_strInstr s hi).trans ((forLp_next hn).trans (congrArg _ (strOne_ready hs h ht he)))
    refine ⟨_, rfl, fun hc => ?_, fun hc ha => ?_, fun hc ha => ?_⟩
    · rw [hx, if_pos hc]
      rfl
    · rw [hx, if_neg (by simp [hc]), if_pos ha]
    · rw [hx, if_neg (by simp [hc]), if_neg (by simp [ha])]
  case loads =>
    refine ⟨fun hst => ?mov, ?popc, ?sum, ?crc, fun ha hx => ?hit, fun ha hx => ?miss⟩
    case mov =>
      simp only [State.element, hl, hst]
      rfl
    case popc => simp only [State.element, State.elemSrc_ok _ hl]
    case sum => simp only [State.element, State.elemSrc_ok _ hl, Nat.mul_comm 256]
    case crc => simp only [State.element, State.elemSrc_ok _ hl]
    case hit => simp [State.element, State.elemSrc_ok _ hl, scanNext, ha, hx]
    case miss => simp [State.element, State.elemSrc_ok _ hl, scanNext, ha, hx]
  case fill =>
    have hp : (fun p : LP => { p with srcp := p.srcp + BitVec.ofInt 64 0, dstp := p.dstp + BitVec.ofInt 64 1 }) =
        fun p => { p with dstp := p.dstp + 1#64 } := funext fun p => by simp
    simp only [State.element, hst, State.stepPtrs, hp]

/-! ### Atomics and reservations -/

/-- An atomic of a destination, a memory operand and a source, on a processor that runs (06 R169). -/
theorem forLp_atomic3 {n size : Nat} {d m a : Spec} {s s1 : State} {r : Ready} {next : Nat} (f : Nat → Nat → Nat) (hn : n < 98)
    (hr : s.canRun n = true) (h : operandsReady (s.fenceLoads n) n 1 3 [odst d size, oatom m size, osrc a size] = some (s1, r, next)) :
    forLp n s (fun s => atomic3 n size d m a s f) = .next (((r.put (r.put (if r.inMem 1 then s1.dropRsv n else s1) n 0 (r.val 1)) n 1
      (f (r.val 1) (r.val 2) % 2 ^ (8 * size))).fenceLoads n).commit n next) := by
  rw [forLp_next hn, atomic3, if_pos hr]
  exact congrArg _ (execOn_ready h rfl)

theorem State.places_cons_base {s : State} {n idx : Nat} {o : Opd} {os : List Opd} {b : BitVec 4} (h : o.spec = .base b) :
    s.places n idx (o :: os) = ((s.places n (idx + 1) os).1, .breg b.toNat :: (s.places n (idx + 1) os).2.1, (s.places n (idx + 1) os).2.2) := by
  simp only [State.places, State.place, h]

/-- The places of ready operands. -/
theorem operandsReady_places {n opBytes maxLevel : Nat} {os : List Opd} {s s1 : State} {r : Ready} {next : Nat}
    (h : operandsReady s n opBytes maxLevel os = some (s1, r, next)) :
    r.os = os ∧ r.ps = ((s.fetchFills n (instrLen opBytes os)).places n 1 os).2.1 := by
  unfold operandsReady at h
  split at h
  · split at h
    next hp =>
      split at h
      · cases h
      · simp only [Option.some.injEq, Prod.mk.injEq] at h
        obtain ⟨-, rfl, -⟩ := h
        exact ⟨rfl, by rw [hp]⟩
  · cases h

/-- A processor with its reservation on a line. -/
def State.setRsv (s : State) (n line : Nat) : State := s.onLp n fun p => { p with rsv := some line, rsvAge := 0 }

/-- The destination of LDRES drops the reservation where it is a memory operand. -/
def State.ldresDrop (s : State) (n : Nat) (r : Ready) : State :=
  match r.os[0]?, r.ps[0]? with
  | some o, some pl => if clearsRsv (s.lp n) o pl then s.dropRsv n else s
  | _, _ => s

/-- A processor's reservation after LDRES: the line of its memory operand. -/
def State.ldresRsv (s : State) (n : Nat) (r : Ready) : State :=
  (if r.inMem 1 then s.setRsv n (lineOf (r.addr 1)) else s).ldresDrop n r

theorem State.ldresRsv_mem (s : State) (n : Nat) (r : Ready) : (s.ldresRsv n r).mem = s.mem := by
  have hd : ∀ t : State, (t.ldresDrop n r).mem = t.mem := fun t => by
    unfold State.ldresDrop
    split
    · split <;> rfl
    · rfl
  rw [State.ldresRsv, hd]
  split <;> rfl

/-- Settles O15: the atomics and the reservations, each with its operands ready. -/
theorem atomicsAndReservations : Obligations.AtomicsAndReservations := by
  refine ⟨fun n d m a s s1 r next hn hr u hu => ?atomics, fun n d m a s s1 r next sz hn => ⟨fun h b hb hm => ?base, fun h => ?ldres, fun h => ?stcond⟩⟩
  case atomics =>
    subst hu
    refine ⟨fun sz h => ⟨forLp_atomic3 _ hn hr h, forLp_atomic3 _ hn hr h⟩, fun h => ⟨forLp_atomic3 Nat.lor hn hr h, forLp_atomic3 Nat.land hn hr h⟩,
      fun sz h => ?cas⟩
    change (_ → execCas n sz d m a s = _) ∧ (_ → execCas n sz d m a s = _)
    rw [execCas, forLp_next hn, if_pos hr]
    exact ⟨fun hv => congrArg _ (execOn_ready h (if_pos hv)), fun hv => congrArg _ (execOn_ready h (if_neg hv))⟩
  case base =>
    subst hb
    obtain ⟨hos, hps⟩ := operandsReady_places h
    refine ⟨s1.setRsv n (lineOf (r.addr 1)), ?_, rfl, forLp_execOn_ready hn h ?_⟩
    · rw [State.setRsv, State.onLp_lp_same]
    · rw [State.places_cons_base rfl] at hps
      simp only [hos, hps, hm, if_true, List.getElem?_cons_zero]
      rfl
  case ldres => exact ⟨s1.ldresRsv n r, s1.ldresRsv_mem n r, forLp_execOn_ready hn h rfl⟩
  case stcond =>
    refine ⟨fun hm hv => forLp_execOn_ready hn h ?_, fun hc => forLp_execOn_ready hn h ?_⟩
    · simp only [hm, hv, beq_self_eq_true, Bool.and_self, if_true]
    · have : (r.inMem 0 && (s1.lp n).rsv == some (lineOf (r.addr 0))) = false := by
        simpa [Bool.and_eq_false_iff, Decidable.imp_iff_not_or] using hc
      simp only [this, Bool.false_eq_true, if_false]

/-! ### Lines -/

/-- CLINE in every form is one operation on its line. -/
theorem exec_cline {n : Nat} {k t : Spec} {i : Instr} (s : State) (h : i = .clineClean n k t ∨ i = .clineInval n k t ∨ i = .clineCleaninval n k t ∨
    i = .clineZero n k t ∨ i = .clineUnlock n k t) : exec i s = forLp n s fun s => clineOn n k t s := by
  obtain rfl | rfl | rfl | rfl | rfl := h <;> rfl

/-- An access that the region table lets through is checked without a trap. -/
theorem LP.checkOp_ok {p : LP} {a size level : Nat} {k : Access} {mt : MemType} (idx : Nat) (h : p.check a size k level = .ok mt) :
    p.checkOp a size k level idx = .ok mt := by
  simp only [LP.checkOp, h]

/-- Settles O18: one entry in the store buffer, and the island's copy of the time. -/
theorem lineInstructions : Obligations.LineInstructions := by
  refine fun n d k t s s1 r next hn => ⟨?cline, ?pflk, fun h => ⟨_, rfl, forLp_execOn_ready hn h rfl⟩⟩
  case cline =>
    rintro h kv lvl line rfl rfl rfl i hi
    rw [exec_cline s hi]
    refine ⟨fun hk => forLp_execOn_ready hn h (if_pos ?_), fun h4 h0 hc => forLp_execOn_ready hn h ?_⟩
    · simpa [clineRefused] using hk
    · have : clineRefused (r.val 0 % 256) = false := by
        rw [clineRefused, h0, decide_eq_false (by omega)]
        rfl
      simp only [this, LP.checkOp_ok 2 hc, Bool.false_eq_true, if_false, ne_eq, not_true]
  case pflk =>
    rintro h kv rfl h0 hc
    refine forLp_execOn_ready hn h ?_
    simp only [h0, LP.checkOp_ok 2 hc, ne_eq, not_true, if_false]

end Sys2Proof.Machine
end

section
/-! SUPPORT. Reads and writes of the system registers (03 R70, R72, R73, R77, R89, R92), and the statement about them. -/

namespace Sys2Proof.Machine

open Sys2Proof.Safety

section
variable {n : Nat} {k a : Spec} {s s1 : State} {r : Ready} {next : Nat} (hn : n < 98)
  (h : operandsReady s n 1 3 [osrc k 1, osrc a 8] = some (s1, r, next))
include hn h

/-- A write of a system register that the level may make and that has an outcome. -/
theorem forLp_mtsr_ok {num : Nat} {u : State} (hm : r.val 0 % 256 = num) (hk : srKnown num = true)
    (hw : srWrites (s1.lp n).level num = true) (hu : s1.srWrite n num (r.val 1) = .ok u) :
    forLp n s (fun s => mtsrOn n k a s) = .next (u.commit n next) := by
  refine forLp_execOn_ready hn h ?_
  simp only [hm, hk, hw, hu, Bool.not_true, Bool.false_eq_true, if_false]

theorem forLp_mtsr_trap {num vec detail opIdx fault : Nat} (hm : r.val 0 % 256 = num) (hk : srKnown num = true)
    (hw : srWrites (s1.lp n).level num = true) (hu : s1.srWrite n num (r.val 1) = .error (mkTrap vec detail opIdx fault))
    (hv : vec ≠ 0xFF) : forLp n s (fun s => mtsrOn n k a s) = .next (trapped s n (mkTrap vec detail opIdx fault)) := by
  refine forLp_execOn_trapped hn h ?_ hv
  simp only [hm, hk, hw, hu, Bool.not_true, Bool.false_eq_true, if_false]

end

/-- A value changes only the bits of a mask exactly where no bit outside the mask differs. -/
theorem xor_land_eq_self_iff (x y m : Nat) : Nat.xor x y = Nat.land (Nat.xor x y) m ↔ ∀ i, bitOf m i = false → bitOf y i = bitOf x i := by
  simp only [bitOf_eq_testBit]
  constructor
  · intro h i hm
    have hi := congrArg (·.testBit i) h
    change (x ^^^ y).testBit i = ((x ^^^ y) &&& m).testBit i at hi
    rw [Nat.testBit_and, Nat.testBit_xor, hm, Bool.and_false] at hi
    cases hx : x.testBit i <;> cases hy : y.testBit i <;> simp_all
  · intro h
    apply Nat.eq_of_testBit_eq
    intro i
    change (x ^^^ y).testBit i = ((x ^^^ y) &&& m).testBit i
    rw [Nat.testBit_and, Nat.testBit_xor]
    cases hm : m.testBit i
    · rw [h i hm]; simp
    · simp

/-- A write of PS is within the level's fields exactly where the 32 bits of PS say so. -/
theorem psChange_iff (p : BitVec 32) (v m : Nat) : Nat.xor p.toNat (v % 2 ^ 32) = Nat.land (Nat.xor p.toNat (v % 2 ^ 32)) m ↔
    ∀ i, i < 32 → bitOf m i = false → bitOf (v % 2 ^ 32) i = bitOf p.toNat i := by
  rw [xor_land_eq_self_iff]
  refine ⟨fun h i _ => h i, fun h i hm => ?_⟩
  by_cases hi : i < 32
  · exact h i hi hm
  · have hp : p.toNat < 2 ^ i := Nat.lt_of_lt_of_le p.isLt (Nat.pow_le_pow_right (by decide) (by omega))
    have hv : v % 2 ^ 32 < 2 ^ i := Nat.lt_of_lt_of_le (Nat.mod_lt _ (by decide)) (Nat.pow_le_pow_right (by decide) (by omega))
    rw [bitOf_eq_testBit, bitOf_eq_testBit, Nat.testBit_lt_two_pow hp, Nat.testBit_lt_two_pow hv]

section
variable {s u : State} {n v : Nat}

/-- A write of PS that changes only what the level may change is stored. -/
theorem State.writePs_ok (h : ∀ i, i < 32 → bitOf (psWritable (s.lp n).level) i = false → bitOf (v % 2 ^ 32) i = bitOf (s.lp n).ps.toNat i)
    (hp : ¬ ((s.lp n).level = 0 ∧ bits v 4 2 = 3)) : s.writePs n v = .ok (s.onLp n fun q => { q with ps := BitVec.ofNat 32 v }) := by
  rw [State.writePs]
  exact (if_neg (Classical.not_not.2 ((psChange_iff _ _ _).2 h))).trans (if_neg hp)

theorem State.writePs_privilege {i : Nat} (hi : i < 32) (hw : bitOf (psWritable (s.lp n).level) i = false)
    (hb : bitOf (v % 2 ^ 32) i ≠ bitOf (s.lp n).ps.toNat i) : s.writePs n v = .error (mkTrap 0x05 0 0 0) := by
  rw [State.writePs]
  exact if_pos fun h => hb ((psChange_iff _ _ _).1 h i hi hw)

/-- A write of WP takes an address of a workspace that may be read and written as NORMAL-WB, and its bytes (03 R73). -/
theorem State.writeWp_ok {s2 : State} {bs : List Byte} (hc : (s.lp n).check (v / 256 * 256) 256 .atomic (s.lp n).level = .ok .wb)
    (ht : s.tableBytes n (v / 256 * 256) 256 .wb = some (s2, bs)) : s.writeWp n v =
      .ok (s2.onLp n fun q => { q with wp := BitVec.ofNat 64 (v / 256 * 256), wfile := memWriteBytes [] 0 bs, rsv := none }) := by
  simp only [State.writeWp, hc, ht, ne_eq, not_true, if_false]

/-- A logical processor with an entry of its region table replaced. -/
def LP.setRegion (p : LP) (i : Nat) (e : BitVec 64 × BitVec 64) : LP := { p with rt := tblSet p.rt i e }

theorem LP.setRegion_region (p : LP) (i j : Nat) (e : BitVec 64 × BitVec 64) :
    (p.setRegion i e).region j = if j = i then e else p.region j := by
  unfold LP.region
  split
  next h =>
    exact h ▸ tblGetD_tblSet_same _ _ _ _
  next h =>
    exact tblGetD_tblSet_other _ _ _ (Ne.symm h)

/-- At machine level a write of the region table reaches the entry that RTIDX selects, and that entry alone. -/
theorem State.writeRegion_ok (hi : Bool) (hl : (s.lp n).level = 0) : s.writeRegion n hi v =
    .ok (s.onLp n fun q => q.setRegion (bits (s.lp n).rtidx.toNat 0 6)
      (if hi then (((s.lp n).region (bits (s.lp n).rtidx.toNat 0 6)).1, BitVec.ofNat 64 (Nat.land v (rtMask hi)))
        else (BitVec.ofNat 64 (Nat.land v (rtMask hi)), ((s.lp n).region (bits (s.lp n).rtidx.toNat 0 6)).2))) := by
  rw [State.writeRegion]
  exact if_neg (by simp [hl])

end

/-- Settles O17: each register by its own write, with the checks of the number and of the level before it. -/
theorem systemRegisterAccess : Obligations.SystemRegisterAccess := by
  refine ⟨fun n d k a s s1 r next hn => ⟨?mfsr, ?mtsr⟩, fun n a s s1 r next hn => ⟨?ps, ?wp, ?rtlo, ?rthi⟩⟩
  case mfsr =>
    rintro h num rfl
    refine ⟨fun hk hr => forLp_execOn_ready hn h ?_, fun hk => forLp_execOn_trapped hn h ?_ (by decide),
      fun hk hr => forLp_execOn_trapped hn h ?_ (by decide)⟩
    · simp only [hk, hr, Bool.not_true, Bool.false_eq_true, if_false]
    · simp only [hk, Bool.not_false, if_true, illegal]
    · simp only [hk, hr, Bool.not_true, Bool.not_false, Bool.false_eq_true, if_false, if_true]
  case mtsr =>
    rintro h num rfl
    refine ⟨fun hk => forLp_execOn_trapped hn h ?_ (by decide), fun hk hw => forLp_execOn_trapped hn h ?_ (by decide),
      fun hw => ⟨fun he => ?_, fun he => ?_, fun he => ?_, fun he => ?_, fun he => ?_⟩⟩
    · simp only [hk, Bool.not_false, if_true, illegal]
    · simp only [hk, hw, Bool.not_true, Bool.not_false, Bool.false_eq_true, if_false, if_true]
    all_goals
      refine ⟨_, forLp_mtsr_ok hn h he rfl (he ▸ hw) rfl, ?_⟩
      simp [State.onLp_lp_same, Nat.div_mul_self_eq_mod_sub_self]
  case ps =>
    rintro h h0 v lvl rfl rfl
    have h0' : r.val 0 % 256 = 0 := by rw [h0]
    refine ⟨fun hd hp => ?_, fun i hi hw hb => forLp_mtsr_trap hn h h0' rfl rfl (State.writePs_privilege hi hw hb) (by decide)⟩
    have hu := State.writePs_ok hd fun hc => hp ⟨hc.1, by rw [← hc.2, bits, bits]; omega⟩
    refine ⟨_, forLp_mtsr_ok hn h h0' rfl rfl hu, ?_, rfl, ?_⟩ <;> rw [State.onLp_lp_same]
    exact BitVec.eq_of_toNat_eq (by simp)
  case wp =>
    rintro h h1 w s2 bs rfl
    have h1' : r.val 0 % 256 = 1 := by rw [h1]
    rw [← Nat.div_mul_self_eq_mod_sub_self]
    refine ⟨fun hc ht => ?_, fun mt hc hm => forLp_mtsr_trap hn h h1' rfl rfl ?_ (by decide)⟩
    · refine ⟨_, forLp_mtsr_ok hn h h1' rfl rfl (State.writeWp_ok hc ht), ?_⟩
      simp [State.onLp_lp_same]
    · change s1.writeWp n (r.val 1) = _
      simp only [State.writeWp, hc, ne_eq, hm, not_false_eq_true, if_true]
  case rtlo =>
    intro h h13 hl
    refine ⟨_, forLp_mtsr_ok hn h (num := 13) (by rw [h13]) rfl (by rw [hl]; rfl) (State.writeRegion_ok false hl), rfl, fun i _ => ?_⟩
    rw [State.onLp_lp_same, LP.setRegion_region]
    exact ite_congr rfl (fun hi => hi ▸ rfl) fun _ => rfl
  case rthi =>
    intro h h14 hl
    refine ⟨_, forLp_mtsr_ok hn h (num := 14) (by rw [h14]) rfl (by rw [hl]; rfl) (State.writeRegion_ok true hl), rfl, fun i _ => ?_⟩
    rw [State.onLp_lp_same, LP.setRegion_region]
    exact ite_congr rfl (fun hi => hi ▸ rfl) fun _ => rfl

end Sys2Proof.Machine
end

section
/-! SUPPORT. The write of a destination (03 R73, R75, R76), and the statement about it. -/

namespace Sys2Proof.Machine

open Sys2Proof.Safety

/-- The memory operand of an atomic is written at once, past the store buffer (06 R169). -/
theorem State.putOpd_atomic_mem {s : State} {n a v : Nat} {o : Opd} {mt : MemType} (hn : n < 96) (ha : o.atomic = true) (hs : 0 < o.size)
    (hc : (s.lp n).check a o.size .write (s.lp n).level = .ok mt) :
    memGet (s.putOpd n o (.mem a) v).mem a = BitVec.ofNat 8 v := by
  have hl : 0 < (natBytes o.size v).length := by rw [natBytes_length]; exact hs
  have hb : (natBytes o.size v)[0] = BitVec.ofNat 8 v := by
    obtain ⟨k, hk⟩ := Nat.exists_eq_succ_of_ne_zero (Nat.ne_of_gt hs)
    simp [hk, natBytes]
  rw [← hb, ← memGet_memWriteBytes_in _ a _ hl]
  simp only [State.putOpd, hc, ha, if_true, State.storeWb, hn]
  rfl

/-- The logical processor after reset with the first page in its region table, machine level reading and writing it. -/
def LP.firstPage : LP := { LP.reset with rt := [(0, 1#64, 0xC0#64)] }

theorem LP.firstPage_check : LP.firstPage.check 0 1 .write LP.firstPage.level = .ok .wb := by
  have h : (LP.firstPage.check 0 1 .write LP.firstPage.level).toOption = some .wb := by decide
  cases hc : LP.firstPage.check 0 1 .write LP.firstPage.level with
  | error e => rw [hc] at h; cases h
  | ok mt => rw [hc] at h; cases h; rfl

/-- Refutes O20: it is stated of the memory operand of an atomic too, and that one is written in memory at once (06 R169), where the statement
has memory unchanged. The byte 1 at address 0 is the example. -/
theorem not_destinationWritten : ¬ Obligations.DestinationWritten := by
  intro h
  generalize hs : State.reset.setLp 0 LP.firstPage = s
  have hlp : s.lp 0 = LP.firstPage := hs ▸ rfl
  have hm : s.mem = [] := hs ▸ rfl
  obtain ⟨⟨hmem, -⟩, -⟩ := h s ⟨[oatom (.abs 0 0) 1], [.mem 0], [0]⟩ 0 0 1 (oatom (.abs 0 0) 1) (.mem 0) rfl rfl (by decide)
    (by rw [hlp]; decide) _ rfl
  have hput := State.putOpd_atomic_mem (s := s) (n := 0) (a := 0) (v := 1) (o := oatom (.abs 0 0) 1) (by decide) rfl (by decide)
    (by rw [hlp]; exact LP.firstPage_check)
  rw [show s.putOpd 0 (oatom (.abs 0 0) 1) (.mem 0) 1 = Ready.put ⟨[oatom (.abs 0 0) 1], [.mem 0], [0]⟩ s 0 0 1 from rfl, hmem, hm] at hput
  exact absurd hput (by decide)

end Sys2Proof.Machine
end

section
/-! SUPPORT. What forming and reading the operands leaves as it was, the frames of the flags' write and of the commit
(03 R71, R73, R83, R85, R94, R107), and the statement about them. -/

namespace Sys2Proof.Machine

open Sys2Proof.Safety

/-! ### The parts of ready operands -/

theorem operandsReady_elim {n opBytes maxLevel : Nat} {os : List Opd} {s s1 : State} {r : Ready} {next : Nat}
    (h : operandsReady s n opBytes maxLevel os = some (s1, r, next)) :
    ∃ (u t : State) (late : Option Trap), (s.fetchFills n (instrLen opBytes os)).places n 1 os = (u, r.ps, late) ∧
      u.fetchOpds n late 1 os r.ps = .ok (t, r.vs) ∧ r.os = os ∧ next = ((s.lp n).pc.toNat + instrLen opBytes os) % 2 ^ 52 ∧
      s1 = if touchesMem (t.lp n) os r.ps then t.dropRsv n else t := by
  unfold operandsReady at h
  split at h
  · split at h
    next u ps late hp =>
      split at h
      · cases h
      next t vs hf =>
        simp only [Option.some.injEq, Prod.mk.injEq] at h
        obtain ⟨rfl, rfl, rfl⟩ := h
        exact ⟨u, t, late, hp, hf, rfl, rfl, rfl⟩
  · cases h

theorem State.fetchOpds_cons_ok {n idx : Nat} {late : Option Trap} {o : Opd} {os : List Opd} {p : Place} {ps : List Place} {s t : State}
    {vs : List Nat} (h : s.fetchOpds n late idx (o :: os) (p :: ps) = .ok (t, vs)) :
    ∃ (u : State) (v : Nat) (vs' : List Nat), s.fetchOpd n idx o p = .ok (u, v) ∧ u.fetchOpds n late (idx + 1) os ps = .ok (t, vs') ∧
      vs = v :: vs' := by
  rw [State.fetchOpds] at h
  split at h
  · cases h
  next u v hu =>
    split at h
    · cases h
    next t' vs' ht =>
      cases h
      exact ⟨u, v, vs', hu, ht, rfl⟩

theorem State.fetchOpds_end_ok {n idx : Nat} {late : Option Trap} {os : List Opd} {ps : List Place} {s t : State} {vs : List Nat}
    (he : os = [] ∨ ps = []) (h : s.fetchOpds n late idx os ps = .ok (t, vs)) : late = none ∧ t = s ∧ vs = [] := by
  cases late with
  | none =>
    have hs : s.fetchOpds n none idx os ps = .ok (s, []) := by
      obtain rfl | rfl := he
      · rfl
      · cases os <;> rfl
    rw [hs] at h
    cases h
    exact ⟨rfl, rfl, rfl⟩
  | some x =>
    have hs : s.fetchOpds n (some x) idx os ps = .error x := by
      obtain rfl | rfl := he
      · rfl
      · cases os <;> rfl
    rw [hs] at h
    cases h

/-- Operands that are read have all been placed. -/
theorem State.fetchOpds_late {n : Nat} {late : Option Trap} {os : List Opd} : ∀ {ps : List Place} {s t : State} {idx : Nat} {vs : List Nat},
    s.fetchOpds n late idx os ps = .ok (t, vs) → late = none := by
  induction os with
  | nil => exact fun h => (State.fetchOpds_end_ok (.inl rfl) h).1
  | cons o os ih =>
    intro ps s t idx vs h
    cases ps with
    | nil => exact (State.fetchOpds_end_ok (.inr rfl) h).1
    | cons p ps =>
      obtain ⟨u, v, vs', -, hf, -⟩ := State.fetchOpds_cons_ok h
      exact ih hf

theorem State.fetchOpds_length {n : Nat} {late : Option Trap} {os : List Opd} : ∀ {ps : List Place} {s t : State} {idx : Nat} {vs : List Nat},
    ps.length = os.length → s.fetchOpds n late idx os ps = .ok (t, vs) → vs.length = os.length := by
  induction os with
  | nil =>
    intro ps s t idx vs _ h
    rw [(State.fetchOpds_end_ok (.inl rfl) h).2.2]
    rfl
  | cons o os ih =>
    intro ps s t idx vs hl h
    cases ps with
    | nil => cases hl
    | cons p ps =>
      obtain ⟨u, v, vs', -, hf, rfl⟩ := State.fetchOpds_cons_ok h
      rw [List.length_cons, ih (Nat.succ.inj hl) hf, List.length_cons]

theorem State.places_length {n : Nat} : ∀ {os : List Opd} {s t : State} {idx : Nat} {ps : List Place},
    s.places n idx os = (t, ps, none) → ps.length = os.length
  | [], s, t, idx, ps, h => by
    cases h
    rfl
  | o :: os, s, t, idx, ps, h => by
    rw [State.places] at h
    split at h
    · cases h
    · simp only [Prod.mk.injEq] at h
      obtain ⟨rfl, rfl, hl⟩ := h
      rw [List.length_cons, State.places_length (Prod.ext rfl (Prod.ext rfl hl)), List.length_cons]

/-! ### What they leave -/

/-- What forming and reading operands may change: the L1s, the Lens bit, the reservation and, outside a set of them, the base registers. -/
structure OpdQuiet (n : Nat) (K : BitVec 4 → Prop) (s t : State) : Prop where
  mem : t.mem = s.mem
  regs : t.regs = s.regs
  others : ∀ m : Nat, m ≠ n → t.lp m = s.lp m
  own : ∃ (c i : L1) (l : Bool) (r : Option Nat) (b : Tbl (BitVec 64)),
    t.lp n = { s.lp n with l1d := c, l1i := i, lens := l, rsv := r, b := b }
  kept : ∀ b : BitVec 4, K b → (t.lp n).breg b.toNat = (s.lp n).breg b.toNat

section
variable {n : Nat} {K : BitVec 4 → Prop} {s t u : State}

theorem OpdQuiet.refl : OpdQuiet n K s s := ⟨rfl, rfl, fun _ _ => rfl, ⟨_, _, _, _, _, rfl⟩, fun _ _ => rfl⟩

theorem OpdQuiet.trans (h : OpdQuiet n K s t) (k : OpdQuiet n K t u) : OpdQuiet n K s u := by
  obtain ⟨c, i, l, r, b, h1⟩ := h.own
  obtain ⟨c', i', l', r', b', h2⟩ := k.own
  exact ⟨k.mem.trans h.mem, k.regs.trans h.regs, fun m hm => (k.others m hm).trans (h.others m hm),
    ⟨c', i', l', r', b', by rw [h2, h1]⟩, fun x hx => (k.kept x hx).trans (h.kept x hx)⟩

theorem Quiet.opdQuiet (h : Quiet n s t) : OpdQuiet n K s t := by
  obtain ⟨c, i, l, hl⟩ := h.lp_eq
  exact ⟨h.mem, h.regs, h.others, ⟨c, i, l, _, _, hl⟩, fun b _ => by rw [hl]; rfl⟩

theorem OpdQuiet.onLp {f : LP → LP} (hf : ∃ (r : Option Nat) (b : Tbl (BitVec 64)), f (s.lp n) = { s.lp n with rsv := r, b := b })
    (hk : ∀ b : BitVec 4, K b → (f (s.lp n)).breg b.toNat = (s.lp n).breg b.toNat) : OpdQuiet n K s (s.onLp n f) := by
  obtain ⟨r, b, hf⟩ := hf
  exact ⟨rfl, rfl, fun _ hm => State.onLp_lp_other s f (Ne.symm hm), ⟨_, _, _, r, b, by rw [State.onLp_lp_same, hf]⟩,
    fun x hx => by rw [State.onLp_lp_same, hk x hx]⟩

end

/-- No store waits and no region is of type DEVICE. -/
def CalmLp (p : LP) : Prop := p.sb = [] ∧ ∀ (a k : Nat) (acc : Access) (l : Nat), p.check a k acc l ≠ .ok .device

theorem OpdQuiet.calm {n : Nat} {K : BitVec 4 → Prop} {s t : State} (h : OpdQuiet n K s t) (hs : CalmLp (s.lp n)) : CalmLp (t.lp n) := by
  obtain ⟨c, i, l, r, b, hl⟩ := h.own
  rw [hl]
  exact hs

section
variable {n : Nat} {K : BitVec 4 → Prop} {s t : State} (hs : CalmLp (s.lp n))
include hs

theorem State.load_opdQuiet {a size v level idx : Nat} {acc : Access} {mt : MemType} (hc : (s.lp n).checkOp a size acc level idx = .ok mt)
    (h : s.load n a size mt = some (t, v)) : OpdQuiet n K s t := by
  refine (State.load_quiet hs.1 (fun hd => ?_) h).opdQuiet
  unfold LP.checkOp at hc
  split at hc
  next hx => cases hc; exact hs.2 _ _ _ _ (hd ▸ hx)
  · cases hc

theorem State.place_opdQuiet {idx : Nat} {o : Opd} {pl : Place} (hk : ∀ b, K b → o.spec ≠ .postInc b ∧ o.spec ≠ .preDec b)
    (h : s.place n idx o = .ok (t, pl)) : OpdQuiet n K s t := by
  have step : ∀ (b : BitVec 4) (f : LP → LP), (∃ v : LP → Nat, ∀ p, f p = p.setB b.toNat (v p)) → (∀ x, K x → x ≠ b) → OpdQuiet n K s (s.onLp n f) := by
    rintro b f ⟨v, hf⟩ hb
    refine OpdQuiet.onLp ⟨_, _, hf _⟩ fun x hx => ?_
    rw [hf, LP.breg, LP.setB, tblGetD_tblSet_other _ _ _ fun e => hb x hx (BitVec.eq_of_toNat_eq e.symm)]
    rfl
  unfold State.place at h
  dsimp only at h
  split at h
  case h_7 b hb => cases h; exact step b _ ⟨_, fun _ => rfl⟩ fun x hx e => (hk x hx).1 (e ▸ hb)
  case h_8 b hb => cases h; exact step b _ ⟨_, fun _ => rfl⟩ fun x hx e => (hk x hx).2 (e ▸ hb)
  case h_9 =>
    split at h
    · cases h
    · split at h
      · cases h
      next hc =>
        split at h
        · cases h
        next hl => cases h; exact State.load_opdQuiet hs hc hl
  all_goals cases h; exact .refl

theorem State.fetchOpd_opdQuiet {idx v : Nat} {o : Opd} {pl : Place} (h : s.fetchOpd n idx o pl = .ok (t, v)) : OpdQuiet n K s t := by
  have hd : s.drainAll n = s := by rw [State.drainAll, hs.1]; rfl
  unfold State.fetchOpd at h
  dsimp only at h
  split at h
  · cases h; exact .refl
  · cases h; exact .refl
  · split at h
    · cases h
    · cases h; exact .refl
  next a =>
    split at h
    · cases h; exact .refl
    · split at h
      · cases h
      · split at h
        · cases h
        next mt hc =>
          rw [hd] at h
          split at h
          · repeat' split at h
            all_goals cases h
            all_goals exact .refl
          · split at h
            · cases h
            · split at h
              · split at h
                · cases h
                next hl => cases h; exact State.load_opdQuiet hs hc hl
              · cases h; exact .refl

omit hs in
theorem State.places_opdQuiet : ∀ {os : List Opd} {s t : State} {idx : Nat} {ps : List Place} {late : Option Trap}, CalmLp (s.lp n) →
    (∀ b, K b → ∀ o ∈ os, o.spec ≠ .postInc b ∧ o.spec ≠ .preDec b) → s.places n idx os = (t, ps, late) → OpdQuiet n K s t
  | [], s, t, idx, ps, late, _, _, h => by
    cases h
    exact .refl
  | o :: os, s, t, idx, ps, late, hs, hk, h => by
    rw [State.places] at h
    split at h
    · cases h
      exact .refl
    next u pl hu =>
      have q := State.place_opdQuiet hs (K := K) (fun b hb => hk b hb o List.mem_cons_self) hu
      cases h
      exact q.trans (State.places_opdQuiet (q.calm hs) (fun b hb o ho => hk b hb o (List.mem_cons_of_mem _ ho)) rfl)

omit hs in
theorem State.fetchOpds_opdQuiet {late : Option Trap} {os : List Opd} : ∀ {ps : List Place} {s t : State} {idx : Nat} {vs : List Nat},
    CalmLp (s.lp n) → s.fetchOpds n late idx os ps = .ok (t, vs) → OpdQuiet n K s t := by
  induction os with
  | nil =>
    intro ps s t idx vs _ h
    rw [(State.fetchOpds_end_ok (.inl rfl) h).2.1]
    exact .refl
  | cons o os ih =>
    intro ps s t idx vs hs h
    cases ps with
    | nil =>
      rw [(State.fetchOpds_end_ok (.inr rfl) h).2.1]
      exact .refl
    | cons p ps =>
      obtain ⟨u, v, vs', hu, hf, -⟩ := State.fetchOpds_cons_ok h
      have q := State.fetchOpd_opdQuiet hs (K := K) hu
      exact q.trans (ih (q.calm hs) hf)

/-- Operands made ready leave everything but the L1s, the Lens bit, the reservation and the base registers that they step. -/
theorem operandsReady_opdQuiet {opBytes maxLevel : Nat} {os : List Opd} {r : Ready} {next : Nat}
    (hk : ∀ b, K b → ∀ o ∈ os, o.spec ≠ .postInc b ∧ o.spec ≠ .preDec b)
    (h : operandsReady s n opBytes maxLevel os = some (t, r, next)) : OpdQuiet n K s t := by
  obtain ⟨u, x, late, hp, hf, -, -, rfl⟩ := operandsReady_elim h
  have q0 : OpdQuiet n K s (s.fetchFills n (instrLen opBytes os)) := (s.fetchFills_quiet n _).opdQuiet
  have q1 := State.places_opdQuiet (q0.calm hs) hk hp
  have q2 := State.fetchOpds_opdQuiet (K := K) (q1.calm (q0.calm hs)) hf
  refine (q0.trans q1).trans (q2.trans ?_)
  split
  · exact OpdQuiet.onLp ⟨none, _, rfl⟩ fun _ _ => rfl
  · exact .refl

end

/-! ### The flags and the commit -/

theorem psSetFlags_toNat (ps : BitVec 32) (f : Flags) :
    (psSetFlags ps f).toNat = setBits ps.toNat 0 4 (8 * bit01 f.n + 4 * bit01 f.z + 2 * bit01 f.v + bit01 f.c) := by
  rw [psSetFlags, BitVec.toNat_ofNat, Nat.mod_eq_of_lt]
  have := ps.isLt
  simp only [setBits, bits]
  omega

theorem psFlags_psSetFlags (ps : BitVec 32) (f : Flags) : psFlags (psSetFlags ps f) = f := by
  obtain ⟨n, z, v, c⟩ := f
  simp only [psFlags, psSetFlags_toNat, bitOf_setBits]
  cases n <;> cases z <;> cases v <;> cases c <;> rfl

theorem bitOf_psSetFlags {ps : BitVec 32} {f : Flags} {i : Nat} (h : 4 ≤ i) : bitOf (psSetFlags ps f).toNat i = bitOf ps.toNat i := by
  rw [psSetFlags_toNat, bitOf_setBits, if_neg (by omega)]

/-- A logical processor's own part of the commit. -/
def LP.retire (p : LP) (next : Nat) : LP :=
  let age := if p.rsv.isSome then p.rsvAge + 1 else 0
  { p with pc := BitVec.ofNat 64 (next % 2 ^ 52), rsvAge := age, rsv := if 17 < age then none else p.rsv,
           run := if p.run = .stepping then .debug else p.run }

/-- The commit's logical processor and its count. -/
def State.retire (s : State) (n next : Nat) : State := (s.onLp n fun p => p.retire next).countLp n 1 1

/-- The commit, with or without the clearing of the boundary's retries. -/
theorem State.commit_cases (s : State) (n next : Nat) : s.commit n next = s.retire n next ∨ ∃ f : Pair → Pair, s.commit n next =
    ((((s.retire n next).setFld (Off.cmpStat (n / 6) (n % 6)) 14 2 0).countLp n 3 1).bumpReg (Off.cmpRetrycnt (n / 6) (n % 6))
      0xFFFFFFFF).onPair (3 * (n / 6) + n % 6) f := by
  unfold State.commit
  dsimp only
  split
  · exact .inr ⟨_, rfl⟩
  · exact .inl rfl

theorem State.retire_lp (s : State) (n next : Nat) : ∃ (c i : L1) (l : Bool),
    (s.retire n next).lp n = { (s.lp n).retire next with l1d := c, l1i := i, lens := l } := by
  obtain ⟨c, i, l, h⟩ := (State.countLp_quiet (s.onLp n fun p => p.retire next) n 1 1).lp_eq
  exact ⟨c, i, l, by rw [State.retire, h, State.onLp_lp_same]⟩

theorem State.retire_others (s : State) {n m : Nat} (next : Nat) (h : m ≠ n) : (s.retire n next).lp m = s.lp m :=
  ((State.countLp_quiet (s.onLp n fun p => p.retire next) n 1 1).others m h).trans (State.onLp_lp_other s _ (Ne.symm h))

theorem State.retire_mem (s : State) (n next : Nat) : (s.retire n next).mem = s.mem := (State.countLp_quiet _ n 1 1).mem

theorem State.retire_regs (s : State) (n next : Nat) : (s.retire n next).regs = s.regs := (State.countLp_quiet _ n 1 1).regs

theorem State.commit_lp (s : State) (n next : Nat) : ∃ (c i : L1) (l : Bool),
    (s.commit n next).lp n = { (s.lp n).retire next with l1d := c, l1i := i, lens := l } := by
  obtain h | ⟨f, h⟩ := s.commit_cases n next
  · rw [h]; exact s.retire_lp n next
  · obtain ⟨c, i, l, hr⟩ := s.retire_lp n next
    obtain ⟨c', i', l', hc⟩ := (State.countLp_quiet ((s.retire n next).setFld (Off.cmpStat (n / 6) (n % 6)) 14 2 0) n 3 1).lp_eq
    refine ⟨c', i', l', ?_⟩
    rw [h, State.onPair_lp]
    change _ = { (s.retire n next).lp n with l1d := c', l1i := i', lens := l' } at hc
    exact hc.trans (by rw [hr])

theorem State.commit_others (s : State) {n m : Nat} (next : Nat) (hm : m ≠ n) : (s.commit n next).lp m = s.lp m := by
  obtain h | ⟨f, h⟩ := s.commit_cases n next
  · rw [h, State.retire_others s next hm]
  · rw [h, State.onPair_lp]
    exact ((State.countLp_quiet _ n 3 1).others m hm).trans (State.retire_others s next hm)

theorem State.commit_mem (s : State) (n next : Nat) : (s.commit n next).mem = s.mem := by
  obtain h | ⟨f, h⟩ := s.commit_cases n next
  · rw [h, State.retire_mem]
  · rw [h, State.onPair_mem]
    exact (State.countLp_quiet _ n 3 1).mem.trans (State.retire_mem s n next)

theorem State.reg_of_regs {s t : State} (h : t.regs = s.regs) (off : Nat) : t.reg off = s.reg off := by
  rw [State.reg, State.reg, h]

theorem State.commit_reg (s : State) (n next : Nat) {off : Nat} (h1 : off ≠ Off.cmpStat (n / 6) (n % 6))
    (h2 : off ≠ Off.cmpRetrycnt (n / 6) (n % 6)) : (s.commit n next).reg off = s.reg off := by
  obtain h | ⟨f, h⟩ := s.commit_cases n next
  · rw [h, State.reg_of_regs (s.retire_regs n next)]
  · rw [h, State.onPair_reg, State.bumpReg, State.setReg_reg_other _ _ (Ne.symm h2), State.reg_of_regs (State.countLp_quiet _ n 3 1).regs,
      State.setFld, State.setReg_reg_other _ _ (Ne.symm h1), State.reg_of_regs (s.retire_regs n next)]

/-- Settles O21: operands by `operandsReady_opdQuiet`, places by their formula, and the frames of the flags and of the commit. -/
theorem operandsFlagsCommit : Obligations.OperandsFlagsCommit := by
  refine ⟨fun s s1 n opBytes lvl os r next h => ?operands, fun s n idx o p hp => ?places, fun s n f u hu => ?flags, fun s n next u hu => ?commit⟩
  case operands =>
    obtain ⟨u, t, late, hp, hf, hos, hnext, hs1⟩ := operandsReady_elim h
    have hps : r.ps.length = os.length := by
      cases State.fetchOpds_late hf
      exact State.places_length hp
    refine ⟨hos, hps, State.fetchOpds_length hps hf, hnext, fun hsb hdev => ?_⟩
    obtain ⟨hmem, hregs, hothers, ⟨c, i, l, rs, b, hown⟩, hkept⟩ :=
      operandsReady_opdQuiet (K := fun b => ∀ o ∈ os, o.spec ≠ .postInc b ∧ o.spec ≠ .preDec b) ⟨hsb, hdev⟩ (fun _ hb => hb) h
    refine ⟨hmem, hregs, hothers, ?_, ?_, ?_, ?_, ?_, ?_, ?_, ?_, ?_, ?_, ?_, ?_, ?_, ?_, hkept⟩ <;> rw [hown]
    exact hsb
  case places =>
    subst hp
    refine ⟨fun w h => ?_, fun b h => ?_, fun b h => ?_, fun b d h => ?_, fun b x sc d h => ?_, fun b h => ?inc, fun b h => ?dec,
      fun i d h => ?_⟩
    case inc =>
      refine ⟨_, by simp only [State.place, h]; rfl, ?_, fun k hk => ?_⟩
      · rw [State.onLp_lp_same, LP.breg, LP.setB, tblGetD_tblSet_same, BitVec.toNat_ofNat]
      · rw [State.onLp_lp_same, LP.breg, LP.setB, tblGetD_tblSet_other _ _ _ (Ne.symm hk)]
        rfl
    case dec =>
      refine ⟨_, _, rfl, by simp only [State.place, h]; rfl, ?_, fun k hk => ?_⟩
      · rw [State.onLp_lp_same, LP.breg, LP.setB, tblGetD_tblSet_same, BitVec.toNat_ofNat]
        exact Nat.mod_eq_of_lt (wrapInt_lt _ _)
      · rw [State.onLp_lp_same, LP.breg, LP.setB, tblGetD_tblSet_other _ _ _ (Ne.symm hk)]
        rfl
    all_goals simp only [State.place, h]
    all_goals rfl
  case flags =>
    subst hu
    have hlp : (s.setFlags n f).lp n = { s.lp n with ps := psSetFlags (s.lp n).ps f } := State.onLp_lp_same ..
    rw [hlp]
    exact ⟨psFlags_psSetFlags _ _, fun i hi => bitOf_psSetFlags hi, rfl, fun m hm => State.onLp_lp_other s _ (Ne.symm hm), rfl, rfl⟩
  case commit =>
    subst hu
    obtain ⟨c, i, l, hlp⟩ := s.commit_lp n next
    rw [hlp]
    refine ⟨?_, rfl, rfl, rfl, rfl, rfl, rfl, rfl, rfl, rfl, rfl, rfl, rfl, rfl, rfl, fun m hm => s.commit_others next hm, s.commit_mem n next,
      fun off h1 h2 => s.commit_reg n next h1 h2⟩
    exact (BitVec.toNat_ofNat _ _).trans (Nat.mod_eq_of_lt (Nat.lt_trans (Nat.mod_lt _ (by decide)) (by decide)))

end Sys2Proof.Machine
end

section
/-! SUPPORT. Writes of the register window that no further rule touches, the locks and the software interrupt (00 R5-R9, 01 R22, R25, 03 R102),
the sample numbers (09 R263), and the statements about them. -/

namespace Sys2Proof.Machine

open Sys2Proof.Safety

/-- Settles O37: `landX` by its branches. -/
theorem sampleNumbers : Obligations.SampleNumbers := by
  rintro s g n smp e xn x w d rfl rfl - rfl rfl
  refine ⟨fun hf => ?first, fun hf => ⟨fun hl => ?late, fun hn => ?ahead, fun hl hx hp => ?absent, fun hl hx hp hr => ?there⟩⟩
  case first =>
    change bitOf _ 0 = false at hf
    simp only [State.landX, hf, Bool.not_false, if_true]
  all_goals
    change bitOf _ 0 = true at hf
    simp only [State.landX, hf, Bool.not_true, Bool.false_eq_true, if_false]
  case late => rw [if_pos hl]
  case ahead =>
    have h2 : (0 : Int) < (2 ^ (e.m - 1) : Nat) := by exact_mod_cast Nat.two_pow_pos _
    rw [if_neg (by omega), if_neg (fun h => absurd h.1 (by omega))]
  case absent => rw [if_neg (by omega), if_neg fun hc => Bool.false_ne_true (hp.symm.trans hc.2.1)]
  case there => rw [if_neg (by omega), if_pos ⟨hx, hp, hr⟩]

/-! ### Writes of registers -/

/-- A write that reaches its register, by the register's own rule. The description is given with its name, so that the rule is found by
computation. -/
theorem regCmd_write {s w : State} {ok there : Bool} {master off size v : Nat} {nm : RegName} {ix : List Nat} (ht : there = true)
    (h : reaches s master off size nm ix = true)
    (hw : ∀ d : RegDesc, s.regTo off size = .reg { d with name := nm } ix →
      s.regWrite { d with name := nm } ix master off (v % 2 ^ (8 * size)) = (w, ok)) :
    regCmd there master off size v s = .next (w.answer (if ok then .done else .busError)) := by
  obtain ⟨d, hd, rfl, hr⟩ := regCmd_reaches (v := v) ht h
  rw [hr, hw d hd]

/-- The registers whose chapters have no rule beyond their fields'. -/
def plainRegs : List RegName := [.cmpCtrl, .intcLvl, .errLpen, .rmAddr, .rmCount, .hrmAddr, .hrmCount, .nvjCfg, .portTslat, .portRxring, .clsRule,
  .gseSub, .rtSelf, .rtMember, .rtDomain, .timeUtc, .keyData, .fprCtrl]

theorem State.regWrite_plain {s : State} {d : RegDesc} {ix : List Nat} {master off v : Nat} (h : d.name ∈ plainRegs) :
    s.regWrite d ix master off v = (s.setReg off (s.fieldsWrite d off v), true) := by
  simp only [plainRegs, List.mem_cons, List.not_mem_nil, or_false] at h
  obtain ⟨nm, base, dims, width, rst, kind, fields⟩ := d
  dsimp only at h
  rcases h with rfl | rfl | rfl | rfl | rfl | rfl | rfl | rfl | rfl | rfl | rfl | rfl | rfl | rfl | rfl | rfl | rfl | rfl <;> rfl

section
variable {s : State} {master off size v : Nat} (hm : masterExists master = true) (hp : s.masterPresent master = true) (hs : s.shutdown = false)
include hm hp hs

/-- A write by a master that is there is the write of the register window. -/
theorem regCmd_writeReg {there : Bool} (ht : there = true) : regCmd there master off size v s =
    .next ((writeReg s master (s.privOf master) off size (v % 2 ^ (8 * size))).1.answer
      (if (writeReg s master (s.privOf master) off size (v % 2 ^ (8 * size))).2 then .done else .busError)) := by
  simp only [regCmd, ht, hm, Bool.and_self, if_true, State.writeBy, hs, hp, Bool.not_true, Bool.or_self, Bool.false_eq_true, if_false]

theorem exec_registerWrite {value : BitVec 64} (hz : size ∈ [1, 2, 4, 8]) (ho : off < 0x1000000000) {t : State} {ok : Bool}
    (hw : writeReg s master (s.privOf master) off size (value.toNat % 2 ^ (8 * size)) = (t, ok)) :
    exec (.registerWrite master off size value) s = .next (t.answer (if ok then .done else .busError)) := by
  change execRegisterWrite master off size value s = _
  rw [execRegisterWrite, regCmd_writeReg hm hp hs (by rw [List.contains_iff_mem.2 hz, decide_eq_true ho]; rfl), hw]

end

theorem State.regTo_reg (s : State) {off size : Nat} {d : RegDesc} {ix : List Nat} (hb : inBlock off = true) (ho : ¬ off < 0x10000000)
    (hr : regAt off = some (d, ix)) (hn : d.name.ofSlot = false) (hw : d.width = 8 * size) : s.regTo off size = .reg d ix := by
  simp only [State.regTo, hb, ho, hr, hn, hw, decide_false, Bool.not_true, Bool.false_and, Bool.or_self, Bool.false_eq_true, if_false, if_true]

theorem fieldWrite_w1s (v r hi lo : Nat) (keep : Bool) :
    fieldWrite v keep r (hi, lo, .w1s) = setBits r lo (hi + 1 - lo) (bits r lo (hi + 1 - lo) ||| bits v lo (hi + 1 - lo)) := rfl

theorem fieldWrite_rwl_kept (v r hi lo : Nat) : fieldWrite v true r (hi, lo, .rwl) = r := rfl

/-- With the bit that sets a block's lock, a write of the lock's register whose other fields are RWL changes that bit alone (00 R7). -/
theorem fieldsWrite_lock {s : State} {d : RegDesc} {r v : Nat} (hl : lockBit r = some (r, 31)) (hv : bitOf v 31 = true)
    (hd : d.fields = [(31, 31, .w1s)] ∨ ∃ hi lo, d.fields = [(31, 31, .w1s), (hi, lo, .rwl)]) :
    s.fieldsWrite d r v = setBits (s.reg r) 31 1 (bits (s.reg r) 31 1 ||| bits v 31 1) := by
  have hk : s.fieldsWrite d r v = d.fields.foldl (fieldWrite v true) (s.reg r) := by
    simp only [State.fieldsWrite, hl, hv, beq_self_eq_true, Bool.and_self, Bool.or_true]
  obtain hd | ⟨hi, lo, hd⟩ := hd
  · rw [hk, hd, List.foldl_cons, List.foldl_nil, fieldWrite_w1s]
  · rw [hk, hd, List.foldl_cons, List.foldl_cons, List.foldl_nil, fieldWrite_rwl_kept, fieldWrite_w1s]

/-- The registers that hold a block's lock bit beside at most one RWL field, which LOCK_SET names. -/
theorem lockReg {r : Nat} (hr : r = Off.fprCtrl ∨ r = Off.nvjCfg ∨ r = Off.rtCtrl) : lockOf r = some (r, 4, 31) ∧ lockBit r = some (r, 31) ∧
    inBlock r = true ∧ ¬ r < 0x10000000 ∧ ∃ d : RegDesc, regAt r = some (d, []) ∧ d.width = 32 ∧
      (d.fields = [(31, 31, .w1s)] ∨ ∃ hi lo, d.fields = [(31, 31, .w1s), (hi, lo, .rwl)]) ∧
      (d.name ∈ plainRegs ∨ r = Off.rtCtrl ∧ d.name = .rtCtrl) ∧ d.name.ofSlot = false ∧
      ∀ s : State, s.writer d [] r = .cps ∨ s.writer d [] r = .any := by
  rcases hr with rfl | rfl | rfl <;> refine ⟨by decide, by decide, by decide, by decide, ?_⟩
  · exact ⟨_, rfl, rfl, .inl rfl, .inl (by decide), rfl, fun _ => .inl rfl⟩
  · exact ⟨_, rfl, rfl, .inr ⟨_, _, rfl⟩, .inl (by decide), rfl, fun _ => .inr rfl⟩
  · exact ⟨_, rfl, rfl, .inr ⟨_, _, rfl⟩, .inr ⟨rfl, rfl⟩, rfl, fun _ => .inl rfl⟩

/-- A write of such a register with its lock bit set sets that bit and nothing else. -/
theorem regWrite_lock {s : State} {r v master : Nat} {d : RegDesc} (hr : r = Off.fprCtrl ∨ r = Off.nvjCfg ∨ r = Off.rtCtrl)
    (hd : regAt r = some (d, [])) (hv : bitOf v 31 = true) (h0 : 0 < s.fld r 0 8 ∨ r ≠ Off.rtCtrl) :
    s.regWrite d [] master r v = (s.setFld r 31 1 (s.fld r 31 1 ||| bits v 31 1), true) := by
  obtain ⟨-, hl, -, -, d', hd', -, hf, hn, -, -⟩ := lockReg hr
  cases Option.some.inj (hd.symm.trans hd')
  have hw := fieldsWrite_lock (s := s) hl hv hf
  obtain hn | ⟨rfl, hn⟩ := hn
  · rw [State.regWrite_plain hn, hw]
    rfl
  · have hz : ¬ (s.setFld Off.rtCtrl 31 1 (s.fld Off.rtCtrl 31 1 ||| bits v 31 1)).fld Off.rtCtrl 0 8 = 0 := by
      rw [State.setFld_fld_apart _ _ _ (by decide) (by decide)]
      have := h0.resolve_right (Classical.not_not.2 rfl)
      omega
    obtain ⟨nm, base, dims, width, rst, kind, fields⟩ := d
    cases hn
    change (if (s.setReg Off.rtCtrl _).fld Off.rtCtrl 0 8 = 0 then _ else s.setReg Off.rtCtrl _, true) = _
    rw [hw]
    exact congrArg (·, true) (if_neg hz)

/-- Settles O31: by what the offset names, who may write there and the register's own rule. -/
theorem registerWrites : Obligations.RegisterWrites := by
  intro s master off size value d ix
  refine ⟨fun hm hp hs hz ho => ⟨fun h => ?bad, fun h => ?nothing, fun h ha hc => ?denied, fun h ha hd => ?plain⟩, ?lock, ?bind, ?swi, fun _ _ => rfl⟩
  case bad => exact exec_registerWrite hm hp hs hz ho (ok := false) (by simp only [writeReg, h])
  case nothing => exact exec_registerWrite hm hp hs hz ho (ok := true) (by simp only [writeReg, h])
  case denied =>
    refine exec_registerWrite hm hp hs hz ho (ok := false) ?_
    simp only [writeReg, h, ha, Bool.false_eq_true, if_false, State.accessRefused, hc]
  case plain =>
    refine exec_registerWrite hm hp hs hz ho (ok := true) ?_
    simp only [writeReg, h, ha, if_true]
    exact State.regWrite_plain hd
  case lock =>
    rintro r hr hm hs hf h0
    have hv : bitOf ((s.reg r ||| 2 ^ 31) % 2 ^ (8 * 4)) 31 = true := by
      rw [bitOf_eq_testBit, Nat.testBit_mod_two_pow, Nat.testBit_or, Nat.testBit_two_pow_self]
      simp
    obtain ⟨hl, -, hb, ho, d, hd, hwd, -, -, hsl, hwr⟩ := lockReg hr
    have hme : masterExists master = true ∧ s.masterPresent master = true ∧ isCp master = true := by
      obtain rfl | rfl := hm <;> exact ⟨rfl, rfl, rfl⟩
    obtain ⟨hm, hp, hc⟩ := hme
    have ha : (s.writer d [] r).admits master (s.privOf master) = true := by
      obtain h | h := hwr s <;> rw [h]
      · exact hc
      · rfl
    refine ⟨s.setFld r 31 1 (s.fld r 31 1 ||| bits ((s.reg r ||| 2 ^ 31) % 2 ^ (8 * 4)) 31 1), ?_, ?_, fun i hi => ?_, fun o ho =>
      State.setReg_reg_other s _ (Ne.symm ho), rfl⟩
    · change execLockSet _ _ _ = _
      simp only [execLockSet, hl]
      rw [regCmd_writeReg hm hp hs rfl]
      simp only [writeReg, s.regTo_reg (size := 4) hb ho hd hsl hwd, ha, if_true, regWrite_lock hr hd hv h0]
    · rw [State.setFld_flag _ _ _ _ (by decide), if_pos (by decide), bitOf_or, Bool.or_eq_true]
      exact .inr ((bitOf_bits_at (by decide) (by decide)).trans hv)
    · rw [State.setFld_flag _ _ _ _ (by decide), if_neg (by omega)]
  case bind =>
    intro ch hch hl hf hr
    change execLockSet _ _ _ = _
    simp only [execLockSet, hl]
    refine regCmd_write rfl hr (ok := true) fun d _ => ?_
    have hb : bitOf ((s.reg (Off.mbxBind ch) ||| 2 ^ 63) % 2 ^ (8 * 8)) 63 = true := by
      rw [bitOf_eq_testBit, Nat.testBit_mod_two_pow, Nat.testBit_or, Nat.testBit_two_pow_self]
      simp
    change bitOf _ 63 = false at hf
    change (s.mbxBindWrite ch _, true) = _
    simp only [State.mbxBindWrite, hf, hb, if_true, Bool.false_eq_true, if_false]
  case swi =>
    intro c k hc hk hr
    obtain ⟨⟨nm, base, dims, width, rst, kind, fields⟩, -, rfl, hx⟩ := regCmd_reaches (v := 1) (there := decide (c < 16) && decide (k < 6)) (by simp [hc, hk]) hr
    replace hx : ∃ x : Nat, exec (.intcSwiRaise master c k) s =
        .next (((s.setReg (Off.intcSwi c k) x).onLp (6 * c + k) fun p => { p with swi := true }).answer .done) := ⟨_, hx⟩
    obtain ⟨x, hx⟩ := hx
    refine ⟨_, hx, ?_, ?_, fun n hn => State.onLp_lp_other _ _ (Ne.symm hn), rfl, fun o ho => State.setReg_reg_other s _ (Ne.symm ho)⟩
    · rw [State.onLp_lp_same]
    · rw [State.onLp_lp_same]
      rfl

end Sys2Proof.Machine
end

section
/-! SUPPORT. A port enabled, disabled, protected, losing and gaining its lock, and reset (09 R242, R243, R246, R278, R280, R283, 16 R421), and
the statement about it. -/

namespace Sys2Proof.Machine

open Sys2Proof.Safety

/-! ### Fields of a value cut to a register's width -/

theorem bits_mod_two_pow {v lo w k : Nat} (h : lo + w ≤ k) : bits (v % 2 ^ k) lo w = bits v lo w := by
  apply Nat.eq_of_testBit_eq
  intro i
  simp only [bits, Nat.testBit_mod_two_pow, Nat.testBit_div_two_pow]
  by_cases hi : i < w
  · rw [decide_eq_true (show i + lo < k by omega), Bool.true_and]
  · simp [hi]

theorem bitOf_mod_two_pow {v i k : Nat} (h : i < k) : bitOf (v % 2 ^ k) i = bitOf v i := by
  rw [bitOf_eq_testBit, bitOf_eq_testBit, Nat.testBit_mod_two_pow, decide_eq_true h, Bool.true_and]

theorem State.setReg_flag (s : State) (o : Nat) {v i : Nat} (h : i < 64) : (s.setReg o v).flag o i = bitOf v i := by
  rw [State.flag, State.setReg_reg_same, bitOf_mod_two_pow h]

theorem State.setReg_fld (s : State) (o : Nat) {v lo w : Nat} (h : lo + w ≤ 64) : (s.setReg o v).fld o lo w = bits v lo w := by
  rw [State.fld, State.setReg_reg_same, bits_mod_two_pow h]

theorem State.setReg_flag_off (s : State) {o a : Nat} (v i : Nat) (h : o ≠ a) : (s.setReg o v).flag a i = s.flag a i := by
  rw [State.flag, s.setReg_reg_other v h, State.flag]

theorem State.setReg_fld_off (s : State) {o a : Nat} (v lo w : Nat) (h : o ≠ a) : (s.setReg o v).fld a lo w = s.fld a lo w := by
  rw [State.fld, s.setReg_reg_other v h, State.fld]

theorem forUnit_next {u lim : Nat} {s : State} {f : State → State} (h : u < lim) : forUnit u lim s f = .next (f s) := by
  rw [forUnit, if_pos h]

/-! ### The link of a port -/

theorem portCfg_ne_portStat (p q : Nat) : Off.portCfg p ≠ Off.portStat q := by
  unfold Off.portCfg Off.portStat
  omega

/-- A port whose link is down and must not come up is left as it is. -/
theorem State.linkEval_down {s : State} {p : Nat} (h1 : s.flag (Off.portStat p) 1 = false)
    (h : s.flag (Off.portCfg p) 63 = false ∨ s.flag (Off.portStat p) 2 = false) : s.linkEval p = s := by
  rw [State.linkEval]
  refine if_pos ?_
  rw [h1]
  obtain h | h := h <;> simp only [h, Bool.false_and, Bool.and_false]

/-- The value that PORT_CFG takes: mode and FEC are kept while the port is enabled (09 R242, R243). -/
def State.portCfgValue (s : State) (p v : Nat) : Nat :=
  bits v 63 1 * 2 ^ 63 + (if s.flag (Off.portCfg p) 63 then s.fld (Off.portCfg p) 8 3 else if 4 < bits v 8 3 then 0 else bits v 8 3) * 256 +
    (if s.flag (Off.portCfg p) 63 then s.fld (Off.portCfg p) 4 2 else if bits v 4 2 = 3 then 0 else bits v 4 2) * 16 + bits v 3 1 * 8

/-- PORT_CFG and the flags of PORT_STAT that follow it. -/
def State.portCfgSet (s : State) (p v : Nat) : State :=
  ((s.setReg (Off.portCfg p) (s.portCfgValue p v)).setFlag (Off.portStat p) 0 (bitOf v 63)).txDisableEval p

theorem State.portCfgWrite_eq (s : State) (p v : Nat) : s.portCfgWrite p v = (s.portCfgSet p v).linkEval p := rfl

section
variable (s : State) (p v : Nat)

theorem State.portCfgSet_portStat {i : Nat} (h0 : i ≠ 0) (h3 : i ≠ 3) :
    (s.portCfgSet p v).flag (Off.portStat p) i = s.flag (Off.portStat p) i := by
  rw [State.portCfgSet, State.txDisableEval, State.setFlag_flag _ _ _ _ (by decide), if_neg h3, State.setFlag_flag _ _ _ _ (by decide),
    if_neg h0, State.setReg_flag_off _ _ _ (portCfg_ne_portStat p p)]

theorem State.portCfgSet_enabled : (s.portCfgSet p v).flag (Off.portCfg p) 63 = bitOf v 63 := by
  rw [State.portCfgSet, State.txDisableEval, State.setFlag_flag_off _ _ _ _ (portCfg_ne_portStat p p).symm,
    State.setFlag_flag_off _ _ _ _ (portCfg_ne_portStat p p).symm, State.setReg_flag _ _ (by decide)]
  have hm : (if s.flag (Off.portCfg p) 63 then s.fld (Off.portCfg p) 8 3 else if 4 < bits v 8 3 then 0 else bits v 8 3) < 8 := by
    have h8 := bits_lt (s.reg (Off.portCfg p)) 8 3
    have hv := bits_lt v 8 3
    change s.fld (Off.portCfg p) 8 3 < 8 at h8
    (repeat' split) <;> omega
  have hf : (if s.flag (Off.portCfg p) 63 then s.fld (Off.portCfg p) 4 2 else if bits v 4 2 = 3 then 0 else bits v 4 2) < 4 := by
    have h4 := bits_lt (s.reg (Off.portCfg p)) 4 2
    have hv := bits_lt v 4 2
    change s.fld (Off.portCfg p) 4 2 < 4 at h4
    (repeat' split) <;> omega
  have h3 := bits_lt v 3 1
  rw [State.portCfgValue]
  generalize (if s.flag (Off.portCfg p) 63 then s.fld (Off.portCfg p) 8 3 else if 4 < bits v 8 3 then 0 else bits v 8 3) = mode at *
  generalize (if s.flag (Off.portCfg p) 63 then s.fld (Off.portCfg p) 4 2 else if bits v 4 2 = 3 then 0 else bits v 4 2) = fec at *
  generalize bits v 3 1 = b at *
  rw [bitOf, bitOf, bits, show (v / 2 ^ 63 % 2 ^ 1 * 2 ^ 63 + mode * 256 + fec * 16 + b * 8) / 2 ^ 63 % 2 = v / 2 ^ 63 % 2 by omega]

theorem State.portCfgWrite_down (h2 : s.flag (Off.portStat p) 2 = false) (h1 : s.flag (Off.portStat p) 1 = false) :
    s.portCfgWrite p v = s.portCfgSet p v :=
  State.linkEval_down ((s.portCfgSet_portStat p v (by decide) (by decide)).trans h1)
    (.inr ((s.portCfgSet_portStat p v (by decide) (by decide)).trans h2))

end

theorem bits_setBit_other {v i lo w : Nat} {b : Bool} (h : lo + w ≤ i ∨ i + 1 ≤ lo) : bits (setBit v i b) lo w = bits v lo w := by
  rw [setBit, bits_setBits_other _ _ _ _ _ _ h]

theorem bits_setBit_same (v i : Nat) : bits (setBit v i true) i 1 = 1 := by rw [setBit, bits_setBits_same]; rfl

/-- PORT_CFG takes 64 bits. -/
theorem State.portCfgSet_mod (s : State) (p v : Nat) : s.portCfgSet p (v % 2 ^ 64) = s.portCfgSet p v := by
  rw [State.portCfgSet, State.portCfgValue, bits_mod_two_pow (by decide), bits_mod_two_pow (by decide), bits_mod_two_pow (by decide),
    bits_mod_two_pow (by decide), bitOf_mod_two_pow (by decide)]
  rfl

/-- The write of PORT_CFG takes no part in a link that it does not leave off. -/
theorem State.portCfgPut_eq {s : State} {p v : Nat} (h : (s.portCfgWrite p v).linkOfPort p = none ∨
    (s.portCfgWrite p v).flag (Off.portCfg p) 63 = true) : s.portCfgPut p v = s.portCfgWrite p v := by
  rw [State.portCfgPut]
  split
  next l hl =>
    obtain h | h := h
    · rw [h] at hl; cases hl
    · exact if_pos h
  · rfl

section
variable {s : State} {p : Nat} (hp : p < 128)
include hp

/-- Lock lost and gained on a port that belongs to no Tradewind link. -/
theorem exec_blockLockLoss (hl : (s.lockLost p).linkOfPort p = none) : exec (.blockLockLoss p) s = .next (s.lockLost p) := by
  change execBlockLockLoss p s = _
  simp only [execBlockLockLoss, forUnit_next hp, hl]

theorem exec_blockLockAcquired {u : State} (h5 : s.flag (Off.portStat p) 5 = false)
    (hu : ((s.onPort p fun x => { x with lock := true }).setFlag (Off.portStat p) 2 true).linkEval p = u) (hl : u.linkOfPort p = none) :
    exec (.blockLockAcquired p) s = .next u := by
  change execBlockLockAcquired p s = _
  simp only [execBlockLockAcquired, forUnit_next hp, h5, hu, hl, Bool.false_eq_true, if_false]

theorem exec_portBlockReset : exec (.portBlockReset p) s = .next (if !s.ready then s
    else if s.resetReqs.contains (.link p) then (s.resetTaken (.link p)).linkDown p 1 else (s.resetTaken (.port p)).portBlockReset p) :=
  forUnit_next hp

end

/-- Settles O40: every write and event here ends in a port whose link stays as it is. -/
theorem portControl : Obligations.PortControl := by
  intro s m p v hp
  refine ⟨fun hr h2 h1 => ⟨?enable, ?disable⟩, fun hr => ?msec, fun h2 hl => ?lossNone, fun h2 h1 u hu hl => ?loss, fun h5 => ?held,
    fun h5 hc h1 u hu hl => ?lock, fun hr => ?notReady, fun hr hc => ?link, fun hr hc h2 hl => ?port⟩
  case enable =>
    refine ⟨_, _, _, rfl, rfl, rfl, regCmd_write (by simp [hp]) hr (ok := true) fun d _ => ?_⟩
    change (s.portCfgPut p (setBit v.toNat 63 true % 2 ^ 64), true) = _
    have hw : s.portCfgWrite p (setBit v.toNat 63 true % 2 ^ 64) = s.portCfgSet p (setBit v.toNat 63 true) := by
      rw [State.portCfgWrite_down _ _ _ h2 h1, State.portCfgSet_mod]
    rw [State.portCfgPut_eq (.inr _), hw]
    · rw [State.portCfgSet, State.portCfgValue, bits_setBit_same, bits_setBit_other (.inl (by decide)), bits_setBit_other (.inl (by decide)),
        bits_setBit_other (.inl (by decide)), bitOf_setBit, if_pos rfl, Nat.one_mul]
    · rw [hw, State.portCfgSet_enabled, bitOf_setBit, if_pos rfl]
  case disable =>
    rintro t rfl hl
    have hf : (s.portCfgWrite p (setBit (s.reg (Off.portCfg p)) 63 false)).flag (Off.portCfg p) 63 = false := by
      rw [State.portCfgWrite_down _ _ _ h2 h1, State.portCfgSet_enabled, bitOf_setBit, if_pos rfl]
    refine ⟨regCmd_write (by simp [hp]) hr (ok := true) fun d _ => ?_, hf, ?_⟩
    · change (s.portCfgPut p (setBit (s.reg (Off.portCfg p)) 63 false % 2 ^ 64), true) = _
      have hw : s.portCfgWrite p (setBit (s.reg (Off.portCfg p)) 63 false % 2 ^ 64) =
          s.portCfgWrite p (setBit (s.reg (Off.portCfg p)) 63 false) := by
        rw [State.portCfgWrite_eq, State.portCfgSet_mod, State.portCfgWrite_eq]
      rw [State.portCfgPut_eq (.inl (by rw [hw]; exact hl)), hw]
    · rw [State.usable, hf]
      simp
  case msec =>
    have hv : v.toNat % 2 ^ (8 * 8) = v.toNat := Nat.mod_eq_of_lt v.isLt
    refine ⟨_, rfl, fun hb => regCmd_write (by simp [hp]) hr (ok := true) fun d _ => ?_,
      fun hb => regCmd_write (by simp [hp]) hr (ok := true) fun d _ => ?_⟩
    all_goals
      change (s.msecCfgWrite p (v.toNat % 2 ^ (8 * 8)), true) = _
      rw [hv]
      simp only [State.msecCfgWrite, hb, if_true, Bool.false_eq_true, if_false]
  case lossNone =>
    have hk : s.lockLost p = s := by rw [State.lockLost, if_neg (by simp [h2])]
    rw [exec_blockLockLoss hp (by rw [hk, hl]), hk]
  case loss =>
    subst hu
    have hd : ((s.onPort p fun x => { x with lock := false }).setFlag (Off.portStat p) 2 false).flag (Off.portStat p) 1 = false := by
      rw [State.setFlag_flag _ _ _ _ (by decide), if_neg (by decide)]
      exact h1
    have hk : s.lockLost p = ((s.onPort p fun x => { x with lock := false }).setFlag (Off.portStat p) 2 false).portErr p 1 0 false := by
      rw [State.lockLost, if_pos h2]
      exact if_neg (by simp [hd])
    rw [exec_blockLockLoss hp (by rw [hk, hl]), hk]
  case held => exact (forUnit_next hp).trans (congrArg _ (if_pos h5))
  case lock =>
    subst hu
    refine exec_blockLockAcquired hp h5 (State.linkEval_down ?_ (.inl ?_)) hl
    · rw [State.setFlag_flag _ _ _ _ (by decide), if_neg (by decide)]
      exact h1
    · rw [State.setFlag_flag_off _ _ _ _ (portCfg_ne_portStat p p).symm]
      exact hc
  case notReady => simp only [exec_portBlockReset hp, hr, Bool.not_false, if_true]
  case link => simp only [exec_portBlockReset hp, hr, hc, Bool.not_true, Bool.false_eq_true, if_false, if_true]
  case port =>
    have hk : (s.resetTaken (.port p)).lockLost p = s.resetTaken (.port p) := by
      rw [State.lockLost]
      exact if_neg (by change ¬ s.flag (Off.portStat p) 2 = true; simp [h2])
    simp only [exec_portBlockReset hp, hr, hc, Bool.not_true, Bool.false_eq_true, if_false, State.portBlockReset, hk, hl]

end Sys2Proof.Machine
end

section
/-! SUPPORT. What time and the board do at a port (09 R252, R265, R268, R276, R279), and the statement about it. -/

namespace Sys2Proof.Machine

open Sys2Proof.Safety

/-- The duplicates of a pair that are still remembered. -/
def State.ddtForget (s : State) (pair : Nat) : State := { s with ddts := tblSet s.ddts pair (s.ddtLive pair) }

theorem exec_ddtEntryForget {s : State} {pair : Nat} (h : pair < 64) : exec (.ddtEntryForget pair) s = .next (s.ddtForget pair) := by
  change execDdtEntryForget pair s = _
  rw [execDdtEntryForget, forUnit_next h]
  rfl

/-- An hour in a module's record (09 R276). -/
def LifeRec.hour (r : LifeRec) (on : Bool) (tempBin biasUa now : Nat) : LifeRec :=
  { r with
    powered := r.powered + 1, laser := r.laser + bit01 on, hist := tblSet r.hist (min tempBin 7) (tblGetD r.hist (min tempBin 7) 0 + 1),
    biasFirst := if r.biasFirst = 0 then biasUa else r.biasFirst, biasNow := biasUa, seen := now }

/-- The hour of a module whose record is the only one, and worn already. -/
theorem exec_moduleLifeUpdate_worn {s : State} {p tempBin biasUa : Nat} {id : BitVec 32 × BitVec 32} {r : LifeRec} (hp : p < 128)
    (hi : (s.cage p).ident = some id) (hl : s.svc.lives = [r]) (hr : (r.part, r.serial) = id) (hw : r.worn = true) :
    exec (.moduleLifeUpdate p tempBin biasUa) s =
      .next (s.onLife id fun r => r.hour (!s.flag (Off.portStat p) 3) tempBin biasUa s.now) := by
  have hu : (s.onLife id fun r => r.hour (!s.flag (Off.portStat p) 3) tempBin biasUa s.now).svc.lives =
      [r.hour (!s.flag (Off.portStat p) 3) tempBin biasUa s.now] := by
    rw [State.onLife, hl, List.map_singleton, if_pos hr]
  have hf : (s.onLife id fun r => r.hour (!s.flag (Off.portStat p) 3) tempBin biasUa s.now).svc.lives.find?
      (fun r => decide ((r.part, r.serial) = id)) = some (r.hour (!s.flag (Off.portStat p) 3) tempBin biasUa s.now) := by
    rw [hu, List.find?_cons_of_pos]
    exact decide_eq_true hr
  change execModuleLifeUpdate p tempBin biasUa s = _
  rw [execModuleLifeUpdate, forUnit_next hp]
  refine congrArg _ ?_
  simp only [hi]
  change (match (s.onLife id fun r => r.hour (!s.flag (Off.portStat p) 3) tempBin biasUa s.now).svc.lives.find?
      (fun r => decide ((r.part, r.serial) = id)) with
    | none => s.onLife id fun r => r.hour (!s.flag (Off.portStat p) 3) tempBin biasUa s.now
    | some r1 => _) = _
  rw [hf]
  exact if_neg (by simp [LifeRec.hour, hw])

/-- A lane moved, or not, on a port that belongs to no Tradewind link. -/
theorem exec_spareLaneMove {s : State} {p : Nat} {ok : Bool} (hp : p < 128) (hl : (s.spareLane p ok).linkOfPort p = none) :
    exec (.spareLaneMove p ok) s = .next (s.spareLane p ok) := by
  change execSpareLaneMove p ok s = _
  simp only [execSpareLaneMove, forUnit_next hp, hl]

/-- Settles O39: each event by the conditions that it tests. -/
theorem portEvents : Obligations.PortEvents := by
  intro s p pair g n bus hp hpair hg hbus
  refine ⟨⟨s.ddtForget pair, exec_ddtEntryForget hpair, tblGetD_tblSet_same .., rfl, rfl⟩, ?sv, ?goose, forUnit_next hbus, fun cages => forUnit_next hbus,
    fun c hc => ?cage, fun hi t b => ?lifeNone, fun id t b r hi hl hr hw => ?life, fun hst hl ok => ?laneNone, fun hst h5 h4 hc ht ok u hu hl => ?lane⟩
  case sv =>
    intro e off he ho
    subst he ho
    change (_ → execSvStale g n s = _) ∧ (_ → _ → _ → _ → _ → _ → (_ → execSvStale g n s = _) ∧ (_ → execSvStale g n s = _))
    rw [execSvStale, forUnit_next hg]
    refine ⟨fun h => congrArg _ (if_neg fun hc => ?_), fun hn hv h0 h1 hst ht => ⟨fun hno => congrArg _ ?_, fun hno => congrArg _ ?_⟩⟩
    · simp only [Bool.and_eq_true, Bool.not_eq_true', decide_eq_true_eq, bne_iff_ne] at hc
      obtain ⟨⟨⟨⟨⟨-, hv⟩, h0⟩, h1⟩, hst⟩, ht⟩ := hc
      rcases h with h | h | h | h | h
      · exact absurd (h.symm.trans hv) Bool.false_ne_true
      · exact absurd (h.symm.trans h0) Bool.false_ne_true
      · exact absurd (h1.symm.trans h) Bool.false_ne_true
      · exact hst h
      · omega
    all_goals
      refine (if_pos ?_).trans ?_
      · simp only [hn, hv, h0, h1, bne_iff_ne.2 hst, ht, decide_true, Bool.and_self, Bool.not_false]
      · simp only [hno, Bool.false_eq_true, if_false, if_true]
  case goose =>
    intro e a fl he ha hfl
    change (_ → execGooseStale g n s = _) ∧ (_ → _ → _ → _ → _ → execGooseStale g n s = _)
    rw [execGooseStale, forUnit_next hg]
    dsimp only
    rw [← he, ← ha, ← hfl]
    refine ⟨fun h => congrArg _ (if_neg fun hc => ?_), fun hn he h0 h1 ht => congrArg _ (if_pos ?_)⟩
    · simp only [Bool.and_eq_true, Bool.not_eq_true', decide_eq_true_eq] at hc
      obtain ⟨⟨⟨⟨-, -⟩, h0⟩, h1⟩, ht⟩ := hc
      rcases h with h | h | h
      · exact absurd (h.symm.trans h0) Bool.false_ne_true
      · exact absurd (h1.symm.trans h) Bool.false_ne_true
      · omega
    · simp only [hn, he, h0, h1, ht, decide_true, Bool.and_self, Bool.not_false]
  case cage =>
    change execExpanderPoll bus [c] false s = _
    rw [execExpanderPoll, forUnit_next hbus]
    simp [hc]
  case lifeNone =>
    change execModuleLifeUpdate p t b s = _
    simp only [execModuleLifeUpdate, forUnit_next hp, hi]
  case life =>
    refine ⟨_, r.hour (!s.flag (Off.portStat p) 3) t b s.now, exec_moduleLifeUpdate_worn hp hi hl hr hw, ?_, rfl, rfl, rfl, rfl,
      tblGetD_tblSet_same .., rfl, rfl⟩
    rw [State.onLife, hl, List.map_singleton, if_pos hr]
  case laneNone =>
    have hk : s.spareLane p ok = s := by
      rw [State.spareLane, portGroup, hst]
      rfl
    rw [exec_spareLaneMove hp (by rw [hk, hl]), hk]
  case lane =>
    subst hu
    have hk : s.spareLane p ok = ((s.lockLost p).portCfgWrite p (setBit (s.reg (Off.portCfg p)) 63 false)).portErr p 2 0 false := by
      simp only [State.spareLane, portGroup, hst, h5, h4, hc, ht, Bool.not_true, Bool.or_self, Bool.true_or, Bool.false_eq_true, if_false,
        if_true]
    rw [exec_spareLaneMove hp (by rw [hk, hl]), hk]

end Sys2Proof.Machine
end

section
/-! SUPPORT. What a port sends (09 R249, R251, R253, R258, R271, R281, 13 R373), and the statement about it. -/

namespace Sys2Proof.Machine

open Sys2Proof.Safety

section
variable {p : Nat} {s : State} (hp : p < 128)
include hp

theorem exec_frameStart_none (h : s.usable p = false ∨ s.nextFrame p = none) : exec (.frameStart p) s = .next s := by
  change execFrameStart p s = _
  rw [execFrameStart, forUnit_next hp]
  obtain h | h := h
  · simp only [h, Bool.not_false, if_true]
  · simp only [h, ite_self]

/-- The next frame of a port, as MACsec lets it go. -/
theorem exec_frameStart_some {f : EgFrame} (hu : s.usable p = true) (hf : s.nextFrame p = some f) :
    exec (.frameStart p) s = .next (match s.macsecTx p f with
      | none => s
      | some (s1, sa) => s1.startFrame p f sa) := by
  change execFrameStart p s = _
  rw [execFrameStart, forUnit_next hp]
  simp only [hu, hf, Bool.not_true, Bool.false_eq_true, if_false] <;> rfl

end

/-- A supervision frame leaves the queue and is counted by frames and bytes. -/
theorem State.startFrame_supervision {s : State} {p : Nat} {f : EgFrame} (hc : f.cls = .other) (ht : f.txn = none)
    (hb : f.body = .supervision) : s.startFrame p f none =
      ((((s.onPort p fun x => { x with queue := x.queue.erase f }).emit (.frame p .supervision none f.red)).portCount p 24 1).portCount p 25
        f.len) := by
  simp only [State.startFrame, hb, hc, ht, State.txnSent, Bool.false_eq_true, if_false, reduceCtorEq]

theorem pairEven_double (pair : Nat) : pairEven (2 * pair) = 2 * pair := by
  unfold pairEven
  omega

theorem State.queueOther_queue (s : State) (p len : Nat) (red : Option Nat) (b : TxBody) :
    ((s.queueOther p len red b).port p).queue = (s.port p).queue ++ [⟨.other, s.time.cycles, none, len, red, b⟩] := by
  rw [State.queueOther, State.onPort_port_same]

theorem State.redSeq_none {s : State} {p : Nat} (h : s.redMode p = 0) : s.redSeq p = (none, s) := by rw [State.redSeq, if_pos h]

theorem State.redSeq_some {s : State} {p : Nat} (h : s.redMode p ≠ 0) : s.redSeq p =
    (some (s.port (pairEven p)).pseq, s.onPort (pairEven p) fun x => { x with pseq := ((s.port (pairEven p)).pseq + 1) % 65536 }) := by
  rw [State.redSeq, if_neg h]

/-- A frame of an HSR ring that goes on to the other port of the pair, remembered so that it goes on once. -/
def State.forwardHsr (s : State) (p o : Nat) (f : Frame) (t : RedTag) : State :=
  ({ s with ddts := tblSet s.ddts (64 + p) ((tblGetD s.ddts (64 + p) []) ++ [(⟨f.src, t.seq, s.time.cycles⟩ : Ddt)]) }).onPort o fun x =>
    { x with queue := x.queue ++ [(⟨.other, s.time.cycles, none, f.len, some t.seq.toNat, .forwarded f⟩ : EgFrame)] }

theorem State.forwardHsr_seen {s : State} {p : Nat} (o : Nat) {f : Frame} {t : RedTag} (h : s.seenHsr p f t = false) :
    (s.forwardHsr p o f t).seenHsr p f t = decide (0 < s.forgetNs (p / 2)) := by
  change (tblGetD (tblSet s.ddts (64 + p) _) (64 + p) []).any (fun e => e.src == f.src && e.seq == t.seq &&
    decide (s.time.cycles < e.at_ + s.forgetNs (p / 2))) = _
  rw [tblGetD_tblSet_same, List.any_append]
  change (s.seenHsr p f t || _) = _
  rw [h]
  simp

theorem exec_hsrForward {p : Nat} {s : State} {f : Frame} {t : RedTag} (hp : p < 128) (hf : f.red = some t) : exec (.hsrForward p f) s =
    .next (if s.redMode p = 2 && s.usable p && s.usable (if p % 2 = 0 then p + 1 else p - 1) && s.verified p f &&
        !(f.src == Config.portMac (pairEven p) || f.src == Config.portMac (pairEven p + 1)) &&
        !(f.dst == Config.portMac (pairEven p) || f.dst == Config.portMac (pairEven p + 1)) && !s.seenHsr p f t
      then s.forwardHsr p (if p % 2 = 0 then p + 1 else p - 1) f t else s) := by
  change execHsrForward p f s = _
  rw [execHsrForward, forUnit_next hp]
  simp only [hf]
  rfl

/-- A supervision frame is queued at each port of the pair that is in use, with one sequence number. -/
theorem exec_prpSupervisionFrame {s : State} {pair : Nat} (hp : pair < 64) (hr : s.redMode (2 * pair) ≠ 0) {t u : State} {n : Nat}
    (hn : n = (s.port (pairEven (2 * pair))).pseq) (ht : t = s.onPort (pairEven (2 * pair)) fun x => { x with pseq := (n + 1) % 65536 })
    (hu : u = if t.usable (2 * pair) then t.queueOther (2 * pair) 70 (some n) .supervision else t) :
    exec (.prpSupervisionFrame pair) s =
      .next (if u.usable (2 * pair + 1) then u.queueOther (2 * pair + 1) 70 (some n) .supervision else u) := by
  change execPrpSupervisionFrame pair s = _
  subst hu ht hn
  simp only [execPrpSupervisionFrame, forUnit_next hp, hr, if_false, State.redSeq_some hr, List.foldl_cons, List.foldl_nil]

/-- Settles O38: each kind of frame by the conditions on which it is sent. -/
theorem frameTransmission : Obligations.FrameTransmission := by
  intro p pub pair s hp hpub hpair
  refine ⟨fun h => exec_frameStart_none hp (.inl h), fun h => exec_frameStart_none hp (.inr h), fun f hu hf =>
    ⟨fun hm hb ht => ?held, fun hm => ?plain, fun hm hc ht hb => ?supervision⟩, fun h => ?noPub, fun b x hb hbp hx hu => ⟨fun ht => ?early, fun ht => ?due⟩,
    fun hr => ?noRed, fun hr hu => ?prp, fun msg => ⟨fun hc hr => ?ptp, fun hc => ?noPtp⟩, fun f => ⟨fun hc => ?noHsr, ?hsr⟩⟩
  case held =>
    rw [exec_frameStart_some hp hu hf]
    simp only [State.macsecTx, hm, hb, ht, Bool.not_true, Bool.or_self, Bool.false_eq_true, if_false]
  case plain =>
    rw [exec_frameStart_some hp hu hf]
    simp only [State.macsecTx, hm, Bool.not_false, Bool.true_or, if_true]
  case supervision =>
    refine ⟨_, rfl, ?_⟩
    rw [exec_frameStart_some hp hu hf]
    simp only [State.macsecTx, hm, Bool.not_false, Bool.true_or, if_true, State.startFrame_supervision hc ht hb]
  case noPub =>
    change execGooseRepetition pub s = _
    simp only [execGooseRepetition, forUnit_next hpub, State.repeatPub, h]
  case early =>
    change execGooseRepetition pub s = _
    have hd : ¬ x.due ≤ s.time.cycles := by omega
    simp [execGooseRepetition, forUnit_next hpub, State.repeatPub, hb, hbp, hx, hu, hd]
  case due =>
    change execGooseRepetition pub s = _
    simp [execGooseRepetition, forUnit_next hpub, State.repeatPub, hb, hbp, hx, hu, ht]
  case noRed =>
    change execPrpSupervisionFrame pair s = _
    simp only [execPrpSupervisionFrame, forUnit_next hpair, hr, if_true]
  case prp =>
    refine ⟨_, exec_prpSupervisionFrame hpair hr rfl rfl (if_pos hu).symm, ?_, ?_, ?_⟩
    · split <;> rfl
    · split <;> rfl
    · split
      · rw [State.queueOther, State.onPort_port_other _ _ (by omega), State.queueOther_queue, pairEven_double, State.onPort_port_same]
        rfl
      · rw [State.queueOther_queue, pairEven_double, State.onPort_port_same]
        rfl
  case ptp =>
    obtain ⟨h1, h2, h3⟩ := hc
    refine ⟨s.queueOther p (if s.yaf.ptp.transport = 1 then 114 else 72) none (.ptp msg ⟨0, 0⟩), ?_, rfl, rfl, s.queueOther_queue ..⟩
    change execPtpMessageSend p msg s = _
    simp only [execPtpMessageSend, forUnit_next hp, bne_iff_ne.2 h1, h2, h3, Bool.and_self, if_true, State.redSeq_none hr]
  case noPtp =>
    change execPtpMessageSend p msg s = _
    have hc' : (s.yaf.ptp.role != 0 && bitOf s.yaf.ptp.ports p && s.usable p) = false := by
      rcases hc with h | h | h <;> simp [h]
    simp only [execPtpMessageSend, forUnit_next hp, hc', Bool.false_eq_true, if_false]
  case noHsr =>
    cases hf : f.red with
    | none =>
      change execHsrForward p f s = _
      simp only [execHsrForward, forUnit_next hp, hf]
    | some t =>
      have h : s.redMode p ≠ 2 ∨ f.src = Config.portMac (pairEven p) := by simpa [hf] using hc
      rw [exec_hsrForward hp hf, if_neg]
      obtain h | h := h <;> simp [h]
  case hsr =>
    rintro t o rfl hf hm hu ho hv h1 h2 h3 h4
    rw [exec_hsrForward hp hf]
    simp only [hm, hu, ho, hv, beq_false_of_ne h1, beq_false_of_ne h2, beq_false_of_ne h3, beq_false_of_ne h4, decide_true, Bool.and_self,
      Bool.or_self, Bool.not_false, Bool.true_and]
    refine ⟨fun hs => by simp [hs], fun hs => ⟨s.forwardHsr p (if p % 2 = 0 then p + 1 else p - 1) f t, by simp [hs], rfl, rfl, ?_,
      State.forwardHsr_seen _ hs⟩⟩
    rw [State.forwardHsr, State.onPort_port_same]
    rfl

end Sys2Proof.Machine
end

section
/-! SUPPORT. Frames received (09 R241, R244, R252-R257, R264, R268, R281), the protocol of a Tradewind link (10 R285-R299, R308) and the packets
that it accepts (10 R288, R289, R298, R300, 08 R215), and the statements about them. -/

namespace Sys2Proof.Machine

open Sys2Proof.Safety

theorem setBit_lt {v i k : Nat} {b : Bool} (hv : v < 2 ^ k) (h : i < k) : setBit v i b < 2 ^ k := setBits_lt hv (by omega)

/-! ### Frames received -/

theorem exec_frameReceive {p : Nat} {f : Frame} {s : State} (hp : p < 128) : exec (.frameReceive p f) s = .next (s.frameRx p f) := by
  change execFrameReceive p f s = _
  rw [execFrameReceive, forUnit_next hp]

theorem State.redundancyRx_none {s : State} {p : Nat} {f : Frame} (h : f.red = none) : s.redundancyRx p f = (s, true) := by
  rw [State.redundancyRx, h]
  cases s.redMode p <;> rfl

/-- A copy in the lane's own order whose like is remembered is counted and discarded (09 R252). -/
theorem State.redundancyRx_duplicate {s : State} {p : Nat} {f : Frame} {t : RedTag} (hr : f.red = some t) (hm : s.redMode p = 1)
    (hl : t.lanB = (p % 2 == 1)) (hd : ((s.ddtLive (p / 2)).any fun e => e.src == f.src && e.seq == t.seq) = true) :
    s.redundancyRx p f = (s.portCount p 11 1, false) := by
  rw [State.redundancyRx, hr, hm]
  simp only [hl, ne_eq, not_true_eq_false, and_false, if_false, hd, if_true]

theorem State.macsecRx_plain {s : State} {p : Nat} {f : Frame} (hm : s.flag (Off.msecCfg p) 63 = false) (hf : f.sec = none) :
    s.macsecRx p f = (s, some (f, false)) := by
  simp only [State.macsecRx, hm, hf, Bool.not_false, if_true]

/-- A frame whole and of a length that is received is counted by frames and bytes; MAC control is discarded. -/
theorem State.frameRx_whole {s : State} {p : Nat} {f : Frame} (hu : s.usable p = true) (hf : f.fcsOk = true) (h1 : 64 ≤ f.len) (h2 : f.len ≤ 9216) :
    s.frameRx p f = if f.macControl then ((s.portCount p 0 1).portCount p 1 f.len).portCount p 7 1
      else match ((s.portCount p 0 1).portCount p 1 f.len).macsecRx p f with
        | (s2, none) => s2
        | (s2, some (f1, prot)) =>
          match s2.redundancyRx p f1 with
          | (s3, false) => s3
          | (s3, true) => s3.frameIn p f1 prot (s.rxStamp p f.len) := by
  have hl : ¬ (f.len < 64 ∨ 9216 < f.len) := by omega
  simp only [State.frameRx, hu, hf, hl, Bool.not_true, Bool.false_eq_true, if_false] <;> rfl

/-- Without MACsec and without a tag of the pair, a frame goes to the classifier. -/
theorem State.frameRx_classified {s u : State} {p : Nat} {f : Frame} (hs : s.usable p = true) (hf : f.fcsOk = true) (h1 : 64 ≤ f.len)
    (h2 : f.len ≤ 9216) (hu : u = (s.portCount p 0 1).portCount p 1 f.len) (hc : f.macControl = false)
    (hm : u.flag (Off.msecCfg p) 63 = false) (ht : f.sec = none) (hr : f.red = none) :
    s.frameRx p f = u.frameIn p f false (s.rxStamp p f.len) := by
  rw [State.frameRx_whole hs hf h1 h2, ← hu]
  simp only [hc, State.macsecRx_plain hm ht, State.redundancyRx_none hr, Bool.false_eq_true, if_false]

/-- What the classifier's action does with a frame (09 R255-R257). -/
def State.frameAct (s : State) (p r act idx : Nat) (f : Frame) (prot : Bool) (st : Stamp) : State :=
  match act with
  | 1 => s.svDecode p (idx % 256) f st
  | 2 => s.gooseDecode p r (idx % 512) f prot st
  | 3 => s.rsvDecode p (idx % 256) f st
  | 4 => s.rgooseDecode p r (idx % 512) f prot st
  | 6 => s.softRing p r f prot st
  | _ => s

theorem State.frameIn_some {s : State} {p r act idx : Nat} {f : Frame} {prot : Bool} {st : Stamp} (hv : f.svlan = false)
    (h : s.classify p f = some (r, act, idx)) : s.frameIn p f prot st = s.frameAct p r act idx f prot st := by
  simp only [State.frameIn, hv, Bool.false_eq_true, if_false]
  rw [h]
  rfl

/-- Settles O36: the checks in their order, then the classifier's verdict. -/
theorem frameReception : Obligations.FrameReception := by
  rintro p f s u st hp hu rfl
  rw [exec_frameReceive hp]
  refine ⟨fun h => ?down, fun h => ⟨fun hf => ?fcs, fun hf hl => ?length, fun hf h1 h2 => ⟨fun hc => ?control, fun hc hm ht =>
    ⟨fun t hr hmode hlan hdup => ?duplicate, fun hr hv => ⟨fun hn v hv' => ⟨fun hd => ?drop, fun hd => ?soft⟩, fun r act idx hn => ?rule⟩⟩⟩⟩⟩
  case down => simp only [State.frameRx, h, Bool.not_false, if_true]
  case fcs => simp only [State.frameRx, h, hf, Bool.not_true, Bool.not_false, Bool.false_eq_true, if_false, if_true]
  case length => simp only [State.frameRx, h, hf, hl, Bool.not_true, Bool.false_eq_true, if_false, if_true]
  case control => rw [State.frameRx_whole h hf h1 h2, if_pos hc, hu]
  case duplicate =>
    rw [State.frameRx_whole h hf h1 h2, ← hu]
    simp only [hc, State.macsecRx_plain hm ht, State.redundancyRx_duplicate hr hmode hlan hdup, Bool.false_eq_true, if_false]
  case drop =>
    rw [State.frameRx_classified h hf h1 h2 hu hc hm ht hr]
    subst hv'
    simp only [State.frameIn, hv, hn, portGroup, hd, Bool.false_eq_true, if_false]
  case soft =>
    rw [State.frameRx_classified h hf h1 h2 hu hc hm ht hr]
    subst hv'
    simp only [State.frameIn, hv, hn, portGroup, hd, Bool.false_eq_true, if_false, if_true]
  case rule =>
    rw [State.frameRx_classified h hf h1 h2 hu hc hm ht hr]
    rw [State.frameIn_some hv hn]
    refine ⟨?_, ?_, ?_, ?_, ?_, ?_⟩
    · rintro (rfl | rfl) <;> rfl
    all_goals rintro rfl; rfl

/-! ### Links -/

section
variable {l : Nat} {s : State} (hl : l < 128)
include hl

theorem exec_initReceived {w rate : Nat} {conf : Bool} (ho : s.linkOn l = true) (hk : s.lanesLocked l = true) (h1 : s.linkState l = 1) :
    exec (.initReceived l w rate conf) s = .next (if w ≠ s.lanesNow l ∨ rate ≠ s.fld (Off.lnkCfg l) 40 1 then s.linkErr l 4
      else
        let s1 := (s.onLink l fun x => { x with sentConf := true, gotConf := x.gotConf || conf }).linkWord l 0x69 (w + rate * 256 + 65536)
        if (s1.link l).gotConf then ((s1.onLink l fun x => { x with
          txSeq := 0, rxSeq := 0, resends := 0, credits := (List.range 8).map fun v => (v, fullCredits v) }).setLinkState l 2).linkErr l 9
        else s1) := by
  change execInitReceived l w rate conf s = _
  rw [execInitReceived, forUnit_next hl]
  simp only [ho, hk, h1, beq_self_eq_true, Bool.not_true, Bool.true_or, Bool.or_self, Bool.false_eq_true, if_false, if_true]

theorem exec_replayTimeout (hu : s.linkUp l = true) : exec (.replayTimeout l) s = .next (s.resend l) := by
  change execReplayTimeout l s = _
  rw [execReplayTimeout, forUnit_next hl, if_pos hu]

theorem exec_lackReceived (hu : s.linkUp l = true) (q : BitVec 8) (neg : Bool) : exec (.lackReceived l q neg) s =
    .next (if neg then
        if ((s.ackLink l ((q.toNat + 255) % 256)).link l).replay.any fun r => r.seq == q.toNat then
          (s.ackLink l ((q.toNat + 255) % 256)).resend l
        else s.ackLink l ((q.toNat + 255) % 256)
      else s.ackLink l q.toNat) := by
  change execLackReceived l q neg s = _
  rw [execLackReceived, forUnit_next hl]
  simp only [hu, Bool.not_true, Bool.false_eq_true, if_false]

end

theorem State.ackLink_none {s : State} {l seq : Nat} (h : ((s.link l).replay.findIdx? fun r => r.seq == seq) = none) : s.ackLink l seq = s := by
  simp only [State.ackLink, h]

theorem State.ackLink_some {s : State} {l seq i : Nat} {r : Replay} (h : ((s.link l).replay.findIdx? fun r => r.seq == seq) = some i)
    (hr : (s.link l).replay[i]? = some r) : s.ackLink l seq =
      (s.onLink l fun y => { y with replay := y.replay.drop (i + 1), resends := 0 }).setFld (Off.lnkStat l) 12 20
        (min (s.time.cycles - r.sent) (2 ^ 20 - 1)) := by
  simp only [State.ackLink, h, hr]

/-- A width that is not the link's is dropped with the whole write while the link is enabled (10 R285, R308). -/
theorem State.lnkCfgWrite_otherWidth {s : State} {l v : Nat} (ho : s.linkOn l = true) (h0 : bits v 48 2 = 0) (hw : s.fld (Off.lnkCfg l) 48 2 ≠ 0) :
    s.lnkCfgWrite l v = s := by
  have hb : bitOf (s.reg (Off.lnkCfg l)) 63 = true := ho
  have hl : l % widthLanes 0 = 0 := Nat.mod_one l
  have hn : bits (bits v 63 1 * 2 ^ 63 + 0 * 2 ^ 48 + bits v 40 1 * 2 ^ 40 + bits v 16 16 * 65536) 48 2 = 0 := by
    have h1 := bits_lt v 63 1
    have h2 := bits_lt v 40 1
    have h3 := bits_lt v 16 16
    generalize bits v 63 1 = a at *
    generalize bits v 40 1 = b at *
    generalize bits v 16 16 = c at *
    rw [bits]
    omega
  have hne : (bits (bits v 63 1 * 2 ^ 63 + 0 * 2 ^ 48 + bits v 40 1 * 2 ^ 40 + bits v 16 16 * 65536) 48 2 !=
      bits (s.reg (Off.lnkCfg l)) 48 2) = true := by
    rw [hn]
    exact bne_iff_ne.2 (Ne.symm hw)
  simp only [State.lnkCfgWrite, h0, Nat.reduceEqDiff, if_false, hl, if_true, hb, hne, Bool.true_or, Bool.and_self]

/-- Settles O41: each block and event of the protocol by its own rule. -/
theorem linkProtocol : Obligations.LinkProtocol := by
  intro s l m hl
  refine ⟨fun ho hk h1 w rate conf => ⟨fun hw => ?misfit, fun hw hr u hu => ⟨fun hc hg => ?wait, fun hc => ?up⟩⟩, fun ho w rate conf => ?initOff,
    fun lane => ?align, fun q neg hu => ?lackDown, fun q i r hu hi hr => ?lack, fun q hu hn ha => ?negative, fun vc n hu hv => ?credit,
    fun hu he => ?idle, fun hu he => ⟨fun h7 => ?eighth, fun r u hr h7 hu' => ?resend⟩, fun hu => ?sendDown, fun q hu hr ha ho p u hp hu' => ?send,
    fun hu hd => ?lackSend, fun hu hd => ?crc, fun hu hd => ?sequence, fun lane ho hc => ?lane, fun ho lane => ?laneOff,
    fun lane u hu hb hn h2 => ?narrow, fun hr => ⟨fun v => ?enable, ?disable, fun ho v h1 h0 hw => ?kept⟩⟩
  case misfit => rw [exec_initReceived hl ho hk h1, if_pos hw]
  case wait =>
    subst hu
    rw [exec_initReceived hl ho hk h1, if_neg (by simp [hw, hr])]
    refine congrArg _ (if_neg ?_)
    rw [State.linkWord, State.emit_link, State.onLink_link_same]
    simp [hc, hg]
  case up =>
    subst hu
    rw [exec_initReceived hl ho hk h1, if_neg (by simp [hw, hr])]
    refine congrArg _ (if_pos ?_)
    rw [State.linkWord, State.emit_link, State.onLink_link_same]
    simpa [or_comm] using hc
  case initOff =>
    change execInitReceived l w rate conf s = _
    simp only [execInitReceived, forUnit_next hl, ho, Bool.not_false, Bool.true_or, if_true]
  case align =>
    change execAlignSend l lane s = _
    rw [execAlignSend, forUnit_next hl]
    refine congrArg _ (ite_congr (propext ?_) (fun _ => rfl) (fun _ => rfl))
    simp
  case lackDown =>
    change execLackReceived l q neg s = _
    simp only [execLackReceived, forUnit_next hl, hu, Bool.not_false, if_true]
  case lack =>
    refine ⟨_, by rw [exec_lackReceived hl hu, if_neg (by decide), State.ackLink_some hi hr], ?_, ?_, rfl⟩
    · rw [State.setFld_link, State.onLink_link_same]
    · rw [State.setFld_link, State.onLink_link_same]
  case negative =>
    rw [exec_lackReceived hl hu, exec_replayTimeout hl hu, if_pos rfl, State.ackLink_none hn, if_pos ha]
  case credit =>
    refine ⟨s.onLink l fun x => { x with credits := tblSet x.credits vc (min (tblGetD x.credits vc 0 + n) (fullCredits vc)) }, ?_, rfl, rfl, ?_⟩
    · change execCreditReceived l vc n s = _
      simp only [execCreditReceived, forUnit_next hl, hu, hv, decide_true, Bool.and_self, if_true]
    · rw [State.onLink_link_same, tblGetD_tblSet_same]
  case idle => rw [exec_replayTimeout hl hu, State.resend, he]; rfl
  case eighth =>
    have hb : (s.link l).replay.isEmpty = false := by simpa using he
    rw [exec_replayTimeout hl hu]
    simp only [State.resend, hb, h7, Bool.false_eq_true, if_false, Nat.le_refl, if_true]
  case resend =>
    have h8 : ¬ 8 ≤ (s.link l).resends + 1 := by omega
    subst hu'
    rw [exec_replayTimeout hl hu]
    simp only [State.resend, hr, List.isEmpty_cons, h8, Bool.false_eq_true, if_false, List.foldl_cons, List.foldl_nil]
  case sendDown =>
    change execPacketSend l s = _
    simp only [execPacketSend, forUnit_next hl, hu, Bool.not_false, Bool.true_or, if_true]
  case send =>
    have hr' : ¬ 255 ≤ (s.link l).replay.length := by omega
    subst hp hu'
    change execPacketSend l s = _
    simp only [execPacketSend, forUnit_next hl, hu, hr', ha, ho, Bool.not_true, decide_false, Bool.or_self, Bool.false_eq_true, if_false, if_true]
  case lackSend =>
    refine ⟨(s.onLink l fun x => { x with lackDue := false }).linkWord l 0x4B (((s.link l).rxSeq + 255) % 256), ?_, ?_, rfl, rfl⟩
    · change execLackSend l s = _
      simp only [execLackSend, forUnit_next hl, hu, hd, Bool.and_self, if_true]
    · rw [State.linkWord, State.emit_link, State.onLink_link_same]
  case crc =>
    change execLinkRxError l .crc s = _
    simp only [execLinkRxError, forUnit_next hl, hu, hd, Bool.not_true, Bool.false_and, Bool.false_eq_true, if_false]
    rfl
  case sequence =>
    change execLinkRxError l .sequence s = _
    simp only [execLinkRxError, forUnit_next hl, hu, hd, Bool.not_true, beq_self_eq_true, Bool.and_self, Bool.false_eq_true, if_false, if_true]
  case lane =>
    change execLaneLoss l lane s = _
    simp only [execLaneLoss, forUnit_next hl, ho, hc, decide_true, Bool.and_self, if_true]
  case laneOff =>
    change execLaneLoss l lane s = _
    simp only [execLaneLoss, forUnit_next hl, ho, Bool.false_and, Bool.false_eq_true, if_false]
  case narrow =>
    subst hu
    have h : ¬ (lane < lane ∨ lane + 1 ≤ lane ∨ (s.setFlag (Off.lnkStat l) (4 + lane) false).linkState l < 2) := by omega
    simp only [State.laneLost, hb, hn, h, true_or, if_true, if_false]
  case enable =>
    refine regCmd_write (by simp [hl]) hr (ok := true) fun d _ => ?_
    exact congrArg (fun x => (s.lnkCfgWrite l x, true)) (Nat.mod_eq_of_lt (setBit_lt v.isLt (by decide)))
  case disable =>
    refine regCmd_write (by simp [hl]) hr (ok := true) fun d _ => ?_
    exact congrArg (fun x => (s.lnkCfgWrite l x, true)) (Nat.mod_eq_of_lt (setBit_lt (s.reg_lt _) (by decide)))
  case kept => exact State.lnkCfgWrite_otherWidth ho h0 hw

/-! ### Packets -/

/-- A packet that an up link accepts. -/
theorem State.packetIn_up {s u : State} {l : Nat} {p : Packet} (nv : Verifies) (h : s.linkUp l = true) (hu : u = s.linkAccept l p) :
    s.packetIn l p nv = if p.typ.toNat = 0 ∨ 5 < p.typ.toNat then u.linkErr l 8
      else match u.route p with
        | .deliver =>
          if p.typ.toNat = 1 then u.dataIn l p nv else if p.typ.toNat = 2 ∨ p.typ.toNat = 3 then u.controlIn p else u
        | _ => u.forward l p := by
  subst hu
  simp only [State.packetIn, h, Bool.not_true, Bool.false_eq_true, if_false] <;> rfl

theorem State.packetIn_down {s : State} {l : Nat} {p : Packet} (nv : Verifies) (h : s.linkUp l = false) : s.packetIn l p nv = s := by
  simp only [State.packetIn, h, Bool.not_false, if_true]

section
variable {l : Nat} {s : State} (p : Packet) (hl : l < 128)
include hl

theorem exec_packetForward : exec (.packetForward l p) s = .next (s.packetIn l p []) := by
  change execPacketForward l p s = _
  rw [execPacketForward, forUnit_next hl]

theorem exec_dataPacket (nv : Verifies) : exec (.dataPacket l p nv) s = .next (if p.typ.toNat = 1 then s.packetIn l p nv else s) := by
  change execDataPacket l p nv s = _
  rw [execDataPacket, forUnit_next hl]

theorem exec_ackPacket : exec (.ackPacket l p) s = .next (if p.typ.toNat = 2 then s.packetIn l p [] else s) := by
  change execAckPacket l p s = _
  rw [execAckPacket, forUnit_next hl]

theorem exec_refusePacket : exec (.refusePacket l p) s = .next (if p.typ.toNat = 3 then s.packetIn l p [] else s) := by
  change execRefusePacket l p s = _
  rw [execRefusePacket, forUnit_next hl]

end

/-- A fresh context with a packet's bytes, where they lie within its length. -/
theorem Reasm.put_fresh (r : Reasm) (p : Packet) (h : r.segs = []) :
    r.put p = { r with segs := if r.tlen < p.offset + p.payload.length then [] else [(p.offset, p.payload)] } := by
  simp only [Reasm.put, h, tblGet?, Option.isSome_none, Bool.false_eq_true, false_or]
  split
  next hl =>
    rw [← h]
  next hl =>
    rfl

/-- Settles O42: what an up link accepts, by the packet's type and the way that the route gives. -/
theorem packetReception : Obligations.PacketReception := by
  intro s l p nv hl
  rw [exec_packetForward p hl, exec_dataPacket p hl, exec_ackPacket p hl, exec_refusePacket p hl]
  refine ⟨fun hu => ?down, fun hu u hu' => ⟨fun ht => ?invalid, fun h1 h5 => ⟨fun o hr => ?out, fun hr => ?hops, fun hr => ?noRoute⟩, fun hr =>
    ⟨fun ht => ?ack, fun ht => ?refuse, fun ht hc => ⟨fun hf => ?full, fun hf r hr' => ⟨fun hh => ?part, fun hh h0 => ?whole⟩⟩⟩⟩,
    fun h => congrArg _ (if_neg h), fun h => congrArg _ (if_neg h), fun h => congrArg _ (if_neg h), fun e he => ?timeout, fun r hr => ?again⟩
  case down => simp only [State.packetIn_down _ hu, ite_self, and_self]
  case invalid => rw [State.packetIn_up _ hu hu', if_pos ht]
  case out =>
    rw [State.packetIn_up _ hu hu', if_neg (by omega)]
    simp only [hr, State.forward]
    rfl
  case hops =>
    rw [State.packetIn_up _ hu hu', if_neg (by omega)]
    simp only [hr, State.forward]
  case noRoute =>
    rw [State.packetIn_up _ hu hu', if_neg (by omega)]
    simp only [hr, State.forward]
  case ack =>
    rw [if_pos ht, State.packetIn_up _ hu hu', if_neg (by omega)]
    simp only [hr, ht, State.controlIn, true_or, Nat.reduceEqDiff, if_false, if_true]
  case refuse =>
    rw [if_pos ht, State.packetIn_up _ hu hu', if_neg (by omega)]
    simp only [hr, ht, State.controlIn, or_true, Nat.reduceEqDiff, if_false, if_true]
  case timeout =>
    change execReassemblyTimeout e s = _
    rw [execReassemblyTimeout, forUnit_next he]
  case again => rw [Reasm.put, if_pos (.inl hr)]
  all_goals
    rw [if_pos ht, State.packetIn_up _ hu hu', if_neg (by omega)]
    simp only [hr, ht, if_true, State.dataIn, hc]
  case full => rw [if_pos hf]
  case part =>
    rw [if_neg (by omega), Reasm.put_fresh _ _ rfl]
    subst hr'
    rw [State.assemble, if_neg fun h => hh h.1]
  case whole =>
    rw [if_neg (by omega), Reasm.put_fresh _ _ rfl]
    subst hr'
    rw [State.assemble, if_pos ⟨hh, h0⟩]

end Sys2Proof.Machine
end

section
/-! SUPPORT. The registers of a queue, the engines of Tradewind and the journal's rows (08 R204, R206, R214, R223, R225, R236, R239), and the
statement about them. -/

namespace Sys2Proof.Machine

open Sys2Proof.Safety

theorem cnt32_self (b : Nat) : cnt32 b b = 0 := by
  unfold cnt32
  omega

/-! ### The configuration of a queue -/

theorem tqCfg_ne_tqRing (q : Nat) : Off.tqCfg q ≠ Off.tqRing q := by
  unfold Off.tqCfg Off.tqRing
  omega

theorem tqCfg_ne_tqCq (q : Nat) : Off.tqCfg q ≠ Off.tqCq q := by
  unfold Off.tqCfg Off.tqCq
  omega

/-- A queue that starts: its incarnation and its new flows (08 R214). -/
def State.tqStart (s : State) (q : Nat) : State :=
  let inc := match tblGet? s.svc.incs q with | some i => nextInc i | none => 1
  (({ s with svc := { s.svc with incs := tblSet s.svc.incs q inc } }).setFlag (Off.tqCfg q) 63 true).onTq q fun t =>
    { t with inc, since := true, flows := [], held := none, group := [] }

theorem State.queueEnable_volatile {s : State} {q : Nat} (hf : s.tqOn q = false) (hd : s.tqDurable q = false) (ho : (s.tq q).opens = [])
    (hk : 4 ≤ s.fld (Off.tqRing q) 0 5) (hk' : s.fld (Off.tqRing q) 0 5 ≤ 16) (hc : 4 ≤ s.fld (Off.tqCq q) 0 5)
    (hc' : s.fld (Off.tqCq q) 0 5 ≤ 16) : s.queueEnable q = .done (s.tqStart q) := by
  have hz : ¬ (s.fld (Off.tqRing q) 0 5 < 4 ∨ 16 < s.fld (Off.tqRing q) 0 5 ∨ s.fld (Off.tqCq q) 0 5 < 4 ∨ 16 < s.fld (Off.tqCq q) 0 5) := by
    omega
  simp only [State.queueEnable, hf, hd, ho, hz, List.isEmpty_nil, Bool.not_true, Bool.or_self, Bool.false_and, Bool.false_eq_true, if_false]
  rfl

/-- The value of TQ_CFG before the queue is enabled: the write's, without its enable bit and its count. -/
def State.tqCfgStored (s : State) (q v : Nat) : State := s.setReg (Off.tqCfg q) (setBits (setBit v 63 false) 42 4 0)

theorem State.tqCfgWrite_enable {s : State} {q v : Nat} (hf : s.tqOn q = false) (hd : bitOf v 62 = false) (hv : bitOf v 63 = true)
    (ho : (s.tq q).opens = []) (hk : 4 ≤ s.fld (Off.tqRing q) 0 5) (hk' : s.fld (Off.tqRing q) 0 5 ≤ 16) (hc : 4 ≤ s.fld (Off.tqCq q) 0 5)
    (hc' : s.fld (Off.tqCq q) 0 5 ≤ 16) : s.tqCfgWrite q v = (s.tqCfgStored q v).tqStart q := by
  have hr : (s.tqCfgStored q v).fld (Off.tqRing q) 0 5 = s.fld (Off.tqRing q) 0 5 := State.setReg_fld_off _ _ _ _ (tqCfg_ne_tqRing q)
  have hq : (s.tqCfgStored q v).fld (Off.tqCq q) 0 5 = s.fld (Off.tqCq q) 0 5 := State.setReg_fld_off _ _ _ _ (tqCfg_ne_tqCq q)
  have hb (i : Nat) (h : i < 64) (h2 : i < 42 ∨ 46 ≤ i) :
      (s.tqCfgStored q v).flag (Off.tqCfg q) i = if i = 63 then false else bitOf v i := by
    rw [State.tqCfgStored, State.setReg_flag _ _ h, bitOf_setBits, if_neg (by omega), bitOf_setBit]
  have he := State.queueEnable_volatile (s := s.tqCfgStored q v) (q := q) (hb 63 (by decide) (by decide))
    ((hb 62 (by decide) (by decide)).trans hd) ho (by rw [hr]; exact hk) (by rw [hr]; exact hk') (by rw [hq]; exact hc) (by rw [hq]; exact hc')
  change (if s.tqOn q then (if bitOf v 63 then s else (s.queueDisable q).1)
    else if bitOf v 63 then (match (s.tqCfgStored q v).queueEnable q with | .done t => t | _ => s.tqCfgStored q v)
      else s.tqCfgStored q v) = _
  rw [if_neg (by simp [hf]), if_pos hv, he]

theorem State.tqStart_on (s : State) (q : Nat) : (s.tqStart q).tqOn q = true :=
  (State.setFlag_flag _ _ _ _ (by decide)).trans (if_pos rfl)

theorem State.tqStart_tq (s : State) (q : Nat) : (s.tqStart q).tq q = { s.tq q with
    inc := match tblGet? s.svc.incs q with | some i => nextInc i | none => 1
    since := true, flows := [], held := none, group := [] } := State.onTq_tq_same ..

/-- A write of TQ_CFG of a queue in service: enabled already, nothing; disabled, the queue leaves service. -/
theorem State.tqCfgWrite_on {s : State} {q v : Nat} (h : s.tqOn q = true) :
    s.tqCfgWrite q v = if bitOf v 63 then s else (s.queueDisable q).1 := by
  rw [State.tqCfgWrite, if_pos h]

theorem bitOf_setBit_mod (v : Nat) (b : Bool) {i k : Nat} (h : i < k) : bitOf (setBit v i b % 2 ^ k) i = b := by
  rw [bitOf_mod_two_pow h, bitOf_setBit, if_pos rfl]

/-! ### Engines and the journal -/

/-- What three tries of an engine come to (08 R236). -/
def State.teRetried (s : State) (i : Nat) (succeeds : Bool) : State :=
  if s.teState i ≠ 1 then s
  else if succeeds then { s with tengs := tblSet s.tengs i { s.teng i with tries := 0 } }
  else if (s.teng i).tries + 1 < 3 then { s with tengs := tblSet s.tengs i { s.teng i with tries := (s.teng i).tries + 1 } }
  else s.teFail i

theorem exec_engineRetry {s : State} {i : Nat} (h : i < 18) (b : Bool) : exec (.engineRetry i b) s = .next (s.teRetried i b) := by
  change execEngineRetry i b s = _
  rw [execEngineRetry, forUnit_next h]
  rfl

theorem exec_engineHandover {s : State} {e : Nat} (h : e < 16) : exec (.engineHandover e) s = .next (s.teHandover e) := by
  change execEngineHandover e s = _
  rw [execEngineHandover, forUnit_next h]

/-- A row of the journal read with both banks in use. -/
theorem exec_nvjScrub {s : State} {row : Nat} (hr : row < 16384) (ha : s.nvj.degA = false) (hb : s.nvj.degB = false) (a b : NvjFind) :
    exec (.nvjScrub row a b) s = .next (if a = .uncorrectable ∧ b = .uncorrectable then
        let s3 := { (s.nvjScrubBank a b).nvjScrubBank b a with nvj := { s.nvj with live := s.nvj.live.map fun r =>
          if r.slot / 32 % 16384 = row then { r with okA := false, okB := false } else r } }
        if s.nvj.live.any fun r => r.slot / 32 % 16384 == row then s3.raise 734 else s3
      else (s.nvjScrubBank a b).nvjScrubBank b a) := by
  change execNvjScrub row a b s = _
  rw [execNvjScrub, forUnit_next hr]
  simp only [ha, hb, Bool.false_eq_true, if_false]

/-- The rows of the journal that a scrub has lost in both banks. -/
def State.nvjRowLost (s : State) (row : Nat) : State :=
  { s with nvj := { s.nvj with live := s.nvj.live.map fun r => if r.slot / 32 % 16384 = row then { r with okA := false, okB := false } else r } }

/-- Settles O35: doorbell and configuration by their register's rule, the engine by its tries, the rows by what each bank reads. -/
theorem queueRegistersAndEngines : Obligations.QueueRegistersAndEngines := by
  intro s m q i logical hq hi hlog
  refine ⟨fun v hr => ⟨fun ho => ?other, fun ho ht => ?beyond, fun ho ht => ?tail⟩, fun hr => ⟨fun hon => ?again, fun hon => ?disable,
    fun hf hd ho h4 hk hk' hc hc' => ?enable⟩, fun hon hrc hg hht => ?count, fun hs b => ?inactive, fun hs => ?success, fun hs ht => ?try_,
    fun hs ht => ?third, fun hd => ?noHandover, fun d hd => ?handover, fun row hrow ha hb => ?scrub⟩
  case other =>
    refine regCmd_write (by simp [hq]) hr (ok := false) fun d _ => ?_
    exact if_pos ho
  case beyond =>
    refine regCmd_write (by simp [hq]) hr (ok := true) fun d _ => ?_
    rw [Nat.mod_eq_of_lt v.isLt]
    exact (if_neg (Classical.not_not.2 ho)).trans (if_pos ht)
  case tail =>
    refine regCmd_write (by simp [hq]) hr (ok := true) fun d _ => ?_
    rw [Nat.mod_eq_of_lt v.isLt]
    refine (if_neg (Classical.not_not.2 ho)).trans ((if_neg (by omega)).trans ?_)
    rw [Nat.mod_eq_of_lt v.isLt]
  case again =>
    refine regCmd_write (by simp [hq]) hr (ok := true) fun d _ => ?_
    change (s.tqCfgWrite q (setBit (s.reg (Off.tqCfg q)) 63 true % 2 ^ 64), true) = _
    rw [State.tqCfgWrite_on hon, bitOf_setBit_mod _ _ (by decide), if_pos rfl]
  case disable =>
    refine regCmd_write (by simp [hq]) hr (ok := true) fun d _ => ?_
    change (s.tqCfgWrite q (setBit (s.reg (Off.tqCfg q)) 63 false % 2 ^ 64), true) = _
    rw [State.tqCfgWrite_on hon, bitOf_setBit_mod _ _ (by decide), if_neg (by decide)]
  case enable =>
    have h62 : bitOf (setBit (s.reg (Off.tqCfg q)) 63 true % 2 ^ 64) 62 = false := by
      rw [bitOf_mod_two_pow (by decide), bitOf_setBit, if_neg (by decide)]
      exact hd
    refine ⟨(s.tqCfgStored q (setBit (s.reg (Off.tqCfg q)) 63 true % 2 ^ 64)).tqStart q,
      regCmd_write (by simp [hq]) hr (ok := true) fun d _ => ?_, State.tqStart_on _ _, ?_, ?_, ?_, rfl⟩
    · change (s.tqCfgWrite q (setBit (s.reg (Off.tqCfg q)) 63 true % 2 ^ 64), true) = _
      rw [State.tqCfgWrite_enable hf h62 (bitOf_setBit_mod _ _ (by decide)) ho hk hk' hc hc']
    all_goals rw [State.tqStart_tq]
    rfl
  case count =>
    simp only [State.queueDisable, hht, cnt32_self, hrc, State.descsFrom, List.length_nil, List.range_zero, List.map_nil]
  case inactive => rw [exec_engineRetry hi, State.teRetried, if_pos hs]
  case success => rw [exec_engineRetry hi, State.teRetried, if_neg (Classical.not_not.2 hs), if_pos rfl]
  case try_ => rw [exec_engineRetry hi, State.teRetried, if_neg (Classical.not_not.2 hs), if_neg (by decide), if_pos (by omega)]
  case third => rw [exec_engineRetry hi, State.teRetried, if_neg (Classical.not_not.2 hs), if_neg (by decide), if_neg (by omega)]
  case noHandover => simp only [exec_engineHandover hlog, State.teHandover, hd]
  case handover =>
    refine ⟨_, rfl, ?_⟩
    simp only [exec_engineHandover hlog, State.teHandover, hd]
  case scrub =>
    simp only [exec_nvjScrub hrow ha hb]
    refine ⟨rfl, rfl, rfl, fun h => ⟨s.nvjRowLost row, ?_, rfl, rfl, rfl⟩⟩
    exact congrArg _ (if_pos h)

end Sys2Proof.Machine
end

section
/-! SUPPORT. The time clock's reference, the copies, the pins, the discipline, the timers and the adjustments (11 R315, R317, R320, R322-R325,
R328, R330, R332), and the statement about them. -/

namespace Sys2Proof.Machine

open Sys2Proof.Safety

/-- A number of 48 bits read as a signed one. -/
theorem signed_toInt (a : BitVec 48) (k : Nat) : signed (k * 2 ^ 48 + a.toNat) 48 = a.toInt := by
  have ha := a.isLt
  have hm : (k * 2 ^ 48 + a.toNat) % 2 ^ 48 = a.toNat := by omega
  rw [signed, hm, BitVec.toInt_eq_toNat_cond]
  (repeat' split) <;> omega

/-- TIME_ADJ with its start bit: the amount kept, and the adjustment made (11 R323). -/
theorem State.timeAdjWrite_start (s : State) (step : Bool) (a : BitVec 48) :
    s.timeAdjWrite (2 ^ 63 + bit01 step * 2 ^ 62 + a.toNat) = (s.setReg Off.timeAdj (bit01 step * 2 ^ 62 + a.toNat)).adjust step a.toInt := by
  have ha := a.isLt
  have hb : bit01 step ≤ 1 ∧ step = (bit01 step == 1) := by cases step <;> exact ⟨by decide, rfl⟩
  obtain ⟨hb, hs⟩ := hb
  generalize bit01 step = b at *
  have h0 : bits (2 ^ 63 + b * 2 ^ 62 + a.toNat) 0 48 = a.toNat := by
    rw [bits]
    omega
  have h1 : bits (2 ^ 63 + b * 2 ^ 62 + a.toNat) 62 1 = b := by
    rw [bits]
    omega
  have h2 : bitOf (2 ^ 63 + b * 2 ^ 62 + a.toNat) 63 = true := by
    rw [bitOf, beq_iff_eq]
    omega
  have h3 : bitOf (2 ^ 63 + b * 2 ^ 62 + a.toNat) 62 = step := by
    rw [bitOf, hs, show (2 ^ 63 + b * 2 ^ 62 + a.toNat) / 2 ^ 62 % 2 = b by omega]
  have h4 : signed (2 ^ 63 + b * 2 ^ 62 + a.toNat) 48 = a.toInt := by
    rw [show 2 ^ 63 + b * 2 ^ 62 + a.toNat = (2 ^ 15 + b * 2 ^ 14) * 2 ^ 48 + a.toNat by omega, signed_toInt]
  rw [State.timeAdjWrite, h0, h1, h2, h3, h4]
  exact if_pos rfl

theorem State.timeAdjCmd (s : State) (step : Bool) (a : BitVec 48) :
    s.timeAdjWrite ((2 ^ 63 + bit01 step * 2 ^ 62 + a.toNat) % 2 ^ (8 * 8)) =
      (s.setReg Off.timeAdj (bit01 step * 2 ^ 62 + a.toNat)).adjust step a.toInt := by
  have ha := a.isLt
  have hb : bit01 step ≤ 1 := by cases step <;> decide
  rw [Nat.mod_eq_of_lt (by omega), State.timeAdjWrite_start]

theorem State.slewCmd (s : State) (a : BitVec 48) :
    s.timeAdjWrite ((2 ^ 63 + a.toNat) % 2 ^ (8 * 8)) = (s.setReg Off.timeAdj a.toNat).adjust false a.toInt := by
  have h := s.timeAdjCmd false a
  rwa [show bit01 false * 2 ^ 62 = 0 from Nat.zero_mul _, Nat.add_zero, Nat.zero_add] at h

/-- A timer that is on and due (03 R102, 11 R330). -/
theorem State.timerDue_due {s u : State} {c k : Nat} (hk : k < s.slots c) (h63 : s.flag (Off.tmrCtrl c k) 63 = true)
    (hu : u = (s.onLp (6 * c + k) fun p => { p with timer := true }).setFlag (Off.tmrCtrl c k) 61 true)
    (hc : s.reg (Off.tmrCmp c k) ≤ (s.stampIn c).ns) : s.timerDue c k =
      if s.flag (Off.tmrCtrl c k) 62 && s.fld (Off.tmrCtrl c k) 0 32 != 0 then
        u.setReg (Off.tmrCmp c k) (timerNext (s.reg (Off.tmrCmp c k)) (s.fld (Off.tmrCtrl c k) 0 32) (s.stampIn c).ns % 2 ^ 64)
      else u.setFlag (Off.tmrCtrl c k) 63 false := by
  subst hu
  simp only [State.timerDue, hk, h63, hc, decide_true, Bool.and_self, if_true]

theorem State.freePhase_range (s : State) (n : Nat) : -(n : Int) ≤ (s.freePhase n).1 ∧ (s.freePhase n).1 ≤ n := by
  have h := Nat.mod_lt (Config.freeValue s.freeCount).toNat (show 0 < 2 * n + 1 by omega)
  change -(n : Int) ≤ ((Config.freeValue s.freeCount).toNat % (2 * n + 1) : Nat) - (n : Int) ∧ _ - (n : Int) ≤ n
  omega

/-- The copy of an island set right: within its bound of the timebase, and never back within an epoch (11 R317). -/
def State.copyCorrected (s : State) (i : Nat) : State :=
  let (d, s1) := s.freePhase (2 ^ 48)
  let (old, ep) := s.copyOf i
  let now := s.fld Off.timeStat 4 4
  { s1 with time := { s1.time with copies := tblSet s1.time.copies i (if ep = now then max d (min old (2 ^ 48)) else d, now) } }

theorem exec_timeCopyCorrection {s : State} {i : Nat} (h : i < 0x1F) (hi : i ≠ 0x1B) :
    exec (.timeCopyCorrection i) s = .next (s.copyCorrected i) := by
  change execTimeCopyCorrection i s = _
  rw [execTimeCopyCorrection, forUnit_next h]
  exact congrArg _ (if_neg hi)

theorem State.copyCorrected_same (s : State) (i : Nat) : ((s.copyCorrected i).copyOf i).2 = s.fld Off.timeStat 4 4 ∧
    -(2 ^ 48 : Int) ≤ ((s.copyCorrected i).copyOf i).1 ∧ ((s.copyCorrected i).copyOf i).1 ≤ 2 ^ 48 := by
  have hc : (s.copyCorrected i).copyOf i = (if (s.copyOf i).2 = s.fld Off.timeStat 4 4 then
      max (s.freePhase (2 ^ 48)).1 (min (s.copyOf i).1 (2 ^ 48)) else (s.freePhase (2 ^ 48)).1, s.fld Off.timeStat 4 4) :=
    tblGetD_tblSet_same ..
  have hd := s.freePhase_range (2 ^ 48)
  rw [hc]
  refine ⟨rfl, ?_⟩
  dsimp only
  (repeat' split) <;> omega

/-- An accepted edge of the PPS input: the time of the edge, within its bound of the timebase (11 R328). -/
def State.ppsStamped (s : State) : State :=
  let (d, s1) := s.freePhase (2 ^ 48)
  let st := stampTb ((s1.time.tb : Int) + d).toNat
  let s2 := (s1.setReg Off.ppsinNs st.ns).setReg Off.ppsinFr (s1.fld Off.ppsinFr 24 8 * 2 ^ 24 + 65536 + st.frac)
  s2.onDisc fun x => { x with ppsAt := some s.time.cycles, ppsRej := 0 }

theorem exec_ppsInEdge_accepted {s : State} (h : s.flag Off.ppsCfg 29 = true) (ha : s.ppsAccept = true) :
    exec .ppsInEdge s = .next s.ppsStamped := by
  change execPpsInEdge s = _
  rw [execPpsInEdge]
  exact congrArg _ ((if_neg (by simp [h])).trans (if_pos ha))

theorem State.ppsStamped_ns (s : State) :
    s.ppsStamped.reg Off.ppsinNs = (stampTb ((s.time.tb : Int) + (s.freePhase (2 ^ 48)).1).toNat).ns % 2 ^ 64 :=
  (State.setReg_reg_other _ _ (by decide)).trans (State.setReg_reg_same ..)

theorem exec_timeCtrlSrcWrite {s : State} {m v : Nat} {src : BitVec 3}
    (hv : v = setBits (setBit (s.reg Off.timeCtrl) 31 false) 0 3 src.toNat % 2 ^ 32) (hr : reaches s m Off.timeCtrl 4 .timeCtrl [] = true) :
    exec (.timeCtrlSrcWrite m src) s = .next ((s.timeCtrlWrite (s.locked Off.timeCtrl || bitOf v 31) v).answer .done) := by
  change regCmd true m Off.timeCtrl 4 (setBits (setBit (s.reg Off.timeCtrl) 31 false) 0 3 src.toNat) s = _
  generalize setBits (setBit (s.reg Off.timeCtrl) 31 false) 0 3 src.toNat = w at *
  rw [hv]
  exact regCmd_write rfl hr (ok := true) fun d _ => rfl

/-- Settles O44: each event by its condition, the adjustments by `State.adjust`. -/
theorem timeDiscipline : Obligations.TimeDiscipline := by
  intro s
  refine ⟨?switch, ?return_, fun i hi hne => ?copy, fun h => ?ppsOff, fun h ha => ?ppsIn, fun h ha u hu => ?ppsReject, fun h => ?outOff, fun h h30 hl => ?outUnlocked,
    fun h hl => ?out, fun g off u hg hu => ?sample, fun g hg => ?noSample, fun src off h1 ht hw => ?within, fun src off h2 ht => ?locked, fun ht => ?early,
    fun ht => ?lost, fun hz => ?slewDone, fun hz => ?slewing, fun c k hc hk h63 u hu => ⟨fun ht => ?notDue, fun ht => ⟨fun h62 => ?single, fun h62 hp => ?periodic⟩⟩,
    fun m a hr => ⟨?step, ?slew⟩, fun a => ⟨rfl, rfl, ?slewFlag⟩, fun a ha => ?adjust, fun m src v hv hr => ?source⟩
  case switch => exact congrArg _ (ite_congr (propext (by simp)) (fun _ => rfl) (fun _ => rfl))
  case return_ => exact congrArg _ (ite_congr (propext (by simp)) (fun _ => rfl) (fun _ => rfl))
  case copy =>
    obtain ⟨h1, h2, h3⟩ := s.copyCorrected_same i
    exact ⟨_, exec_timeCopyCorrection hi hne, h1, h2, h3, rfl, fun j hj => tblGetD_tblSet_other _ _ _ (Ne.symm hj), rfl, rfl⟩
  case ppsOff => exact congrArg _ (if_pos (by simp [h]))
  case ppsIn =>
    obtain ⟨h1, h2⟩ := s.freePhase_range (2 ^ 48)
    exact ⟨s.ppsStamped, (s.freePhase (2 ^ 48)).1, _, exec_ppsInEdge_accepted h ha, h1, h2, rfl, s.ppsStamped_ns, rfl, rfl, rfl⟩
  case ppsReject =>
    subst hu
    exact congrArg _ ((if_neg (by simp [h])).trans (if_neg (by simp [ha])))
  case outOff => exact congrArg _ (if_neg (by simp [h]))
  case outUnlocked => exact congrArg _ (if_neg (by simp [h30, hl]))
  case out => exact congrArg _ (if_pos (by simpa [h] using hl))
  case sample =>
    subst hu
    change execDisciplineSample g s = _
    simp only [execDisciplineSample, hg]
  case noSample =>
    change execDisciplineSample g s = _
    simp only [execDisciplineSample, hg]
  case within =>
    have hn : ¬ 16 ≤ s.yaf.disc.within + 1 := by omega
    simp only [State.sampleState, h1, ht, hn, if_true, if_false]
  case locked =>
    have hn : ¬ 4 * lockThreshold src < off.natAbs := by omega
    simp only [State.sampleState, h2, hn, if_false]
  case early => exact congrArg _ (if_neg (by omega))
  case lost =>
    have hx : exec .sourceLossTimeout s = .next s.sourceLost := congrArg _ (if_pos ht)
    rw [hx]
    refine ⟨fun h => ?_, fun h => ?_, fun h => ?_⟩
    · simp only [State.sourceLost, h]
    · simp only [State.sourceLost, h]
    · obtain h | h := h <;> simp only [State.sourceLost, h]
  case slewDone =>
    refine ⟨s.setFlag Off.timeStat 3 false, ?_, (State.setFlag_flag _ _ _ _ (by decide)).trans (if_pos rfl), rfl, rfl⟩
    change execSlewComplete s = _
    rw [execSlewComplete, if_pos hz]
  case slewing => exact congrArg _ (if_neg hz)
  case notDue =>
    have hn : ¬ s.reg (Off.tmrCmp c k) ≤ (s.stampIn c).ns := by omega
    change execTimerFire c k s = _
    simp [execTimerFire, forUnit_next hc, State.timerDue, hn]
  case single =>
    change execTimerFire c k s = _
    rw [execTimerFire, forUnit_next hc, State.timerDue_due hk h63 hu ht, if_neg (by simp [h62])]
  case periodic =>
    change execTimerFire c k s = _
    rw [execTimerFire, forUnit_next hc, State.timerDue_due hk h63 hu ht, if_pos (by simp [h62, hp])]
  case step =>
    exact regCmd_write rfl hr (ok := true) fun d _ => congrArg (·, true) (s.timeAdjCmd true a)
  case slew =>
    exact regCmd_write rfl hr (ok := true) fun d _ => congrArg (·, true) (s.slewCmd a)
  case slewFlag =>
    refine (State.setFlag_flag _ _ _ _ (by decide)).trans ((if_pos rfl).trans ?_)
    by_cases h : a = 0 <;> simp [h]
  case adjust =>
    exact ⟨({ s with time := { s.time with tb := ((s.time.tb : Int) + a * 2 ^ 48).toNat, copies := s.stepCopies (a * 2 ^ 48) } } : State),
      Int.toNat_of_nonneg ha, rfl, rfl, by rw [State.adjust]; exact if_pos rfl⟩
  case source =>
    exact exec_timeCtrlSrcWrite hv hr

end Sys2Proof.Machine
end

section
/-! SUPPORT. Two-way time transfer and domain formation (10 R302 to R307), and the statement about them. -/

namespace Sys2Proof.Machine

open Sys2Proof.Safety

/-! ### The parts of a measurement -/

theorem State.onTsync_none {s : State} {l id : Nat} (f : Tsync → Tsync) (h : (s.link l).tsync.find? (fun m => m.ident == id) = none) :
    s.onTsync l id f = s := by
  simp only [State.onTsync, h]

theorem State.onTsync_both {s : State} {l id : Nat} {f : Tsync → Tsync} {x : Tsync} {t4 t2 t3 : Stamp}
    (h : (s.link l).tsync.find? (fun m => m.ident == id) = some x) (h4 : (f x).t4 = some t4) (h23 : (f x).t23 = some (t2, t3)) :
    s.onTsync l id f = s.measure l (f x) t4 t2 t3 := by
  simp only [State.onTsync, h, h4, h23]

theorem State.onTsync_part {s : State} {l id : Nat} {f : Tsync → Tsync} {x : Tsync}
    (h : (s.link l).tsync.find? (fun m => m.ident == id) = some x) (h23 : (f x).t23 = none) :
    s.onTsync l id f = s.onLink l fun k => { k with tsync := k.tsync.map fun y => if y.ident = id then f x else y } := by
  cases h4 : (f x).t4 <;> simp only [State.onTsync, h, h4, h23]

/-- The first measurement of a link: LNK_TT holds its own offset and delay (10 R302). -/
theorem State.measure_first {s : State} {l : Nat} {x : Tsync} {t2 t3 t4 : Stamp} {r b : Int} (h : (s.link l).meas = [])
    (hr : r = stampUnits t2 - stampUnits x.t1) (hb : b = stampUnits t4 - stampUnits t3) :
    (s.measure l x t4 t2 t3).reg (Off.lnkTt l) =
      wrapInt ((r - b) / 2 / 1024 - signed (s.fld (Off.lnkCfg l) 16 16) 16) 32 * 2 ^ 32 + wrapInt ((r + b) / 2 / 1024) 32 := by
  subst hr hb
  have h0 (v w : Int) : wrapInt v 32 * 2 ^ 32 + wrapInt w 32 < 2 ^ 64 := by
    have hv := wrapInt_lt v 32
    have hw := wrapInt_lt w 32
    omega
  simp only [State.measure, State.onLink_link_same, h, List.length_nil, Nat.zero_sub, List.drop_zero, List.nil_append, List.foldl_cons,
    List.foldl_nil, List.length_cons, Nat.one_mul, Nat.zero_add, Int.zero_add, State.setReg_reg_same]
  exact Nat.mod_eq_of_lt (h0 ..)

/-! ### Formation -/

/-- The better of two candidates for the root (10 R303 step 4). -/
def betterRoot (b : Option FormNode) (n : FormNode) : Option FormNode :=
  match b with
  | none => some n
  | some x => if n.prio < x.prio ∨ (n.prio = x.prio ∧ n.uid < x.uid) then some n else b

theorem formRoot_eq (part : List FormNode) : formRoot part = part.foldl betterRoot none := rfl

/-- The order of the candidates: priority, then identity. -/
def comesBefore (r n : FormNode) : Prop := r.prio < n.prio ∨ (r.prio = n.prio ∧ r.uid ≤ n.uid)

theorem comesBefore_trans {a b c : FormNode} (h : comesBefore a b) (h' : comesBefore b c) : comesBefore a c := by
  unfold comesBefore at *
  omega

/-- The fold's result is the first candidate or one of the list, and comes before all of them. -/
theorem foldl_betterRoot (part : List FormNode) (x : FormNode) : ∃ r : FormNode, part.foldl betterRoot (some x) = some r ∧
    (r = x ∨ r ∈ part) ∧ comesBefore r x ∧ ∀ n ∈ part, comesBefore r n := by
  induction part generalizing x with
  | nil => exact ⟨x, rfl, .inl rfl, .inr ⟨rfl, Nat.le_refl _⟩, fun n hn => absurd hn List.not_mem_nil⟩
  | cons a as ih =>
    by_cases h : a.prio < x.prio ∨ (a.prio = x.prio ∧ a.uid < x.uid)
    · obtain ⟨r, hr, hm, hx, hall⟩ := ih a
      have hax : comesBefore a x := by unfold comesBefore; omega
      refine ⟨r, by simpa only [List.foldl_cons, betterRoot, if_pos h] using hr, .inr ?_, comesBefore_trans hx hax, ?_⟩
      · exact List.mem_cons.2 hm
      · exact List.forall_mem_cons.2 ⟨hx, hall⟩
    · obtain ⟨r, hr, hm, hx, hall⟩ := ih x
      have hxa : comesBefore x a := by unfold comesBefore; omega
      refine ⟨r, by simpa only [List.foldl_cons, betterRoot, if_neg h] using hr, hm.imp_right (List.mem_cons_of_mem a), hx, ?_⟩
      exact List.forall_mem_cons.2 ⟨comesBefore_trans hx hxa, hall⟩

/-- The root of a part is one of it, and comes before all of it. -/
theorem formRoot_least {part : List FormNode} {r n : FormNode} (h : formRoot part = some r) (hn : n ∈ part) : r ∈ part ∧ comesBefore r n := by
  cases part with
  | nil => exact absurd hn List.not_mem_nil
  | cons a as =>
    obtain ⟨r', hr, hm, hx, hall⟩ := foldl_betterRoot as a
    rw [formRoot_eq, List.foldl_cons, betterRoot, hr] at h
    obtain rfl := Option.some.inj h
    exact ⟨List.mem_cons.2 hm, (List.forall_mem_cons.2 ⟨hx, hall⟩) n hn⟩

/-- A fold of writes at distinct registers leaves the value of the last write of each. -/
theorem State.foldl_setReg {f v : Nat → Nat} (hf : Function.Injective f) (ls : List Nat) (s : State) (m : Nat) :
    (ls.foldl (fun u i => u.setReg (f i) (v i)) s).reg (f m) = if m ∈ ls then v m % 2 ^ 64 else s.reg (f m) := by
  induction ls generalizing s with
  | nil => simp
  | cons a as ih =>
    rw [List.foldl_cons, ih]
    by_cases ha : m = a
    · subst ha
      rw [State.setReg_reg_same, if_pos List.mem_cons_self]
      exact ite_self _
    · rw [State.setReg_reg_other _ _ fun e => ha (hf e).symm]
      simp [ha]

/-- A fold of steps that each keep a register keeps it. -/
theorem State.foldl_reg {g : State → Nat → State} {a : Nat} (h : ∀ u i, (g u i).reg a = u.reg a) (ls : List Nat) (s : State) :
    (ls.foldl g s).reg a = s.reg a := by
  induction ls generalizing s with
  | nil => rfl
  | cons i is ih => rw [List.foldl_cons, ih, h]

theorem rtMember_injective : Function.Injective Off.rtMember := fun a b h => by
  unfold Off.rtMember at h
  omega

/-- What the table of members holds of a member that no node of the part holds: nothing. -/
theorem State.writeMembers_none {s : State} {ns part : List FormNode} (dist : Tbl Nat) {m : Nat} (hm : m < 1024) (h : memberNode part m = none) :
    (s.writeMembers ns part dist).reg (Off.rtMember m) = 0 := by
  rw [State.writeMembers, State.foldl_setReg rtMember_injective, if_pos (List.mem_range.2 hm), h]
  exact Nat.zero_mod _

theorem rtMember_ne_lnkStat {m : Nat} (hm : m < 1024) (l : Nat) : Off.lnkStat l ≠ Off.rtMember m := by
  unfold Off.lnkStat Off.rtMember
  omega

/-- The time parent is kept in the links' status, beside the members' table. -/
theorem State.setParent_rtMember (s : State) (dist : Tbl Nat) {m : Nat} (hm : m < 1024) :
    (s.setParent dist).reg (Off.rtMember m) = s.reg (Off.rtMember m) := by
  refine State.foldl_reg (fun u l => ?_) _ s
  split
  · rfl
  · exact State.setReg_reg_other _ _ (rtMember_ne_lnkStat hm l)

/-- Formation with a root: the member table and the time parent (10 R303 step 5). -/
theorem State.formNow_root {s : State} {ns part : List FormNode} {r : FormNode} (hns : ns = (s.flood none s.myNode).formNodes)
    (hpart : part = ns.filter fun n => (tblGet? (hopsFrom ns myUid) n.uid).isSome) (hr : formRoot part = some r) :
    s.formNow = ((((s.flood none s.myNode).dupMember part).writeMembers ns part (hopsFrom ns r.uid)).setParent (hopsFrom ns r.uid)) := by
  subst hns hpart
  simp only [State.formNow, hr]

/-- The TIME packet that answers a request: when the request came, and when the packet leaves (10 R302). -/
def State.timeReply (s : State) (l : Nat) : Packet :=
  { s.newPacket 5 0 (s.fld (Off.lnkStat l) 32 18) 0 0 0 with
    payload := s.tsBytes (0x10 + portGroup l) (s.linkRx l) ++ s.tsBytes (0x10 + portGroup l) (s.linkTx l) }

theorem exec_tsyncRequestReceived {s : State} {l : Nat} (hl : l < 128) (hu : s.linkUp l = true) (i : BitVec 8) :
    exec (.tsyncRequestReceived l i) s =
      .next ((s.linkWord l 0x66 (i.toNat + 256)).onLink l fun x => { x with queue := x.queue ++ [⟨s.timeReply l, s.hcNow⟩] }) := by
  change execTsyncRequestReceived l i s = _
  rw [execTsyncRequestReceived, forUnit_next hl]
  exact congrArg _ (if_pos hu)

/-- Settles O43: each event by the rule that it is. -/
theorem timeTransferAndFormation : Obligations.TimeTransferAndFormation := by
  intro s l hl
  refine ⟨fun hu => ⟨?sendDown, fun i => ⟨?requestDown, ?replyDown, fun t2 t3 => ?timeDown⟩, fun n => ?formDown⟩,
    fun hu => ⟨?send, fun i => ?request, fun i x hx => ⟨fun t2 t3 h23 => ?reply, fun h23 => ?replyFirst⟩, fun i t2 t3 pk u hpk huu hn => ?time,
      fun n u v huu hn hv => ⟨fun h => ?formKept, fun h1 h2 h3 => ?formNews⟩⟩,
    fun x t2 t3 t4 h => ⟨_, _, rfl, rfl, State.measure_first h rfl rfl⟩, ?formation, fun part r n h hn => formRoot_least h hn⟩
  case sendDown =>
    change execTsyncSend l s = _
    simp [execTsyncSend, forUnit_next hl, hu]
  case requestDown =>
    change execTsyncRequestReceived l i s = _
    simp [execTsyncRequestReceived, forUnit_next hl, hu]
  case replyDown =>
    change execTsyncReplyReceived l i s = _
    simp [execTsyncReplyReceived, forUnit_next hl, hu]
  case timeDown =>
    change execTimePacket l i t2 t3 s = _
    simp [execTimePacket, forUnit_next hl, hu]
  case formDown =>
    change execFormPacket l n s = _
    simp [execFormPacket, forUnit_next hl, hu]
  case send =>
    refine ⟨(s.onLink l fun x => { x with ident := ((s.link l).ident + 1) % 256, tsync :=
      (x.tsync.filter fun m => m.ident != ((s.link l).ident + 1) % 256) ++ [⟨((s.link l).ident + 1) % 256, s.linkTx l, none, none⟩] }).linkWord l 0x66
      (((s.link l).ident + 1) % 256), _, rfl, ?_, ?_, ?_, rfl, rfl, rfl⟩
    · change execTsyncSend l s = _
      rw [execTsyncSend, forUnit_next hl]
      exact congrArg _ (if_pos hu)
    · rw [State.linkWord, State.emit_link, State.onLink_link_same]
    · rw [State.linkWord, State.emit_link, State.onLink_link_same]
  case request =>
    exact ⟨_, ⟨s.timeReply l, s.hcNow⟩, exec_tsyncRequestReceived hl hu i, congrArg Link.queue (State.onLink_link_same ..), rfl, rfl, rfl⟩
  case reply =>
    change execTsyncReplyReceived l i s = _
    rw [execTsyncReplyReceived, forUnit_next hl, if_pos hu]
    exact congrArg _ (State.onTsync_both hx rfl h23)
  case replyFirst =>
    change execTsyncReplyReceived l i s = _
    rw [execTsyncReplyReceived, forUnit_next hl, if_pos hu]
    exact congrArg _ (State.onTsync_part hx h23)
  case time =>
    subst hpk huu
    change execTimePacket l i t2 t3 s = _
    rw [execTimePacket, forUnit_next hl, if_pos hu]
    exact congrArg _ (State.onTsync_none _ hn)
  case formKept =>
    subst huu hv
    change execFormPacket l n s = _
    rw [execFormPacket, forUnit_next hl]
    simp only [hu, hn, Option.isSome_none, Bool.not_true, Bool.false_eq_true, if_false]
    exact congrArg _ (if_pos h)
  case formNews =>
    subst huu hv
    change execFormPacket l n s = _
    rw [execFormPacket, forUnit_next hl]
    simp only [hu, hn, Option.isSome_none, Bool.not_true, Bool.false_eq_true, if_false]
    exact congrArg _ (if_neg fun h => h.elim (· h1) fun h => h.elim h2 h3)
  case formation =>
    refine ⟨s.formNow, rfl, fun ns part m hns hpart hm hn hr => ?_⟩
    obtain ⟨r, hr⟩ := Option.ne_none_iff_exists'.1 hr
    rw [State.formNow_root hns hpart hr, State.setParent_rtMember _ _ hm, State.writeMembers_none _ hm hn]

end Sys2Proof.Machine
end

section
/-! SUPPORT. The registers that act on the caches, the range engines, and what the caches do by themselves (07 R181 to R203), and the statement
about them. -/

namespace Sys2Proof.Machine

open Sys2Proof.Safety

/-! ### Way locking -/

theorem tblGet?_tblMap {α : Type} (f : Nat → α → α) (t : Tbl α) (k : Nat) : tblGet? (tblMap f t) k = (tblGet? t k).map (f k) := by
  induction t with
  | nil => rfl
  | cons e es ih =>
    obtain ⟨n, x⟩ := e
    change tblGet? ((n, f n x) :: tblMap f es) k = _
    by_cases h : n = k
    · subst h
      simp [tblGet?]
    · simpa [tblGet?, h] using ih

/-- A slot after LOCKEN took its new enables (07 R182). -/
def slotUnlocked (en k : Nat) (x : CacheSlot) : CacheSlot :=
  if bitOf en (k % 16) then x else if x.valid then { x with locked := false } else CacheSlot.empty

/-- A cache after LOCKEN took its new enables. -/
def Cache.unlockedBy (c : Cache) (en : Nat) : Cache := { c with slots := tblMap (slotUnlocked en) c.slots }

theorem slotUnlocked_empty (en k : Nat) : slotUnlocked en k CacheSlot.empty = CacheSlot.empty := by
  rw [slotUnlocked]
  (repeat' split) <;> rfl

theorem slot_unlockedBy (c : Cache) (en k : Nat) : (c.unlockedBy en).slot k = slotUnlocked en k (c.slot k) := by
  rw [Cache.slot, Cache.unlockedBy, tblGetD, tblGet?_tblMap, Cache.slot, tblGetD]
  cases tblGet? c.slots k with
  | none => exact (slotUnlocked_empty en k).symm
  | some x => rfl

/-- A slot keeps its line; the lock goes with the enable. -/
theorem slotUnlocked_kept (en k : Nat) (x : CacheSlot) : (slotUnlocked en k x).locked = (x.locked && bitOf en (k % 16)) ∧
    (slotUnlocked en k x).valid = x.valid ∧ (x.valid = true → (slotUnlocked en k x).line = x.line ∧ (slotUnlocked en k x).dirty = x.dirty) := by
  rw [slotUnlocked]
  cases hb : bitOf en (k % 16) with
  | true => simp
  | false => cases x.valid <;> simp [CacheSlot.empty]

theorem State.lockenWrite_l2 {s : State} {c v : Nat} (h : popCount (v % 65536) 16 ≤ 12) :
    s.lockenWrite (.l2 c) v = (s.setReg (Off.l2Locken c) (v % 65536)).onL2 c (·.unlockedBy (v % 65536)) := by
  rw [State.lockenWrite]
  exact if_neg (Nat.not_lt.2 h)

theorem State.lockenWrite_slice {s : State} {i v : Nat} (h : popCount (v % 65536) 16 ≤ 12) :
    s.lockenWrite (.slice i) v = (s.setReg (Off.scLocken i) (v % 65536)).onSc i (·.unlockedBy (v % 65536)) := by
  rw [State.lockenWrite]
  exact if_neg (Nat.not_lt.2 h)

theorem State.lockenWrite_dropped {s : State} {u : CacheUnit} {v : Nat} (h : 12 < popCount (v % 65536) 16) : s.lockenWrite u v = s := by
  rw [State.lockenWrite]
  exact if_pos h

section
variable {s : State} {m c : Nat} {v : BitVec 32}

theorem exec_lockenWrite_l2 (hc : c < 16) (hr : reaches s m (Off.l2Locken c) 4 .l2Locken [c] = true) :
    exec (.lockenWrite m (.l2 c) v) s = .next ((s.lockenWrite (.l2 c) v.toNat).answer .done) :=
  regCmd_write (decide_eq_true hc) hr (ok := true) fun _ _ => congrArg (fun n => (s.lockenWrite (.l2 c) n, true)) (Nat.mod_eq_of_lt v.isLt)

theorem exec_lockenWrite_slice (hc : c < 32) (hr : reaches s m (Off.scLocken c) 4 .scLocken [c] = true) :
    exec (.lockenWrite m (.slice c) v) s = .next ((s.lockenWrite (.slice c) v.toNat).answer .done) :=
  regCmd_write (decide_eq_true hc) hr (ok := true) fun _ _ => congrArg (fun n => (s.lockenWrite (.slice c) n, true)) (Nat.mod_eq_of_lt v.isLt)

end

/-! ### The durable regions -/

theorem bit01_le (b : Bool) : bit01 b ≤ 1 := by cases b <;> decide

theorem bit01_beq (b : Bool) : (bit01 b == 1) = b := by cases b <;> rfl

/-- Whether a durable region of a size fits beside the others (07 R200). -/
def State.durFits (s : State) (i v : Nat) : Bool :=
  bitOf v 0 && bits v 4 11 != 0 && decide (((List.range 8).filter (· != i)).foldl (fun k m => k + s.durUnits m) 0 + bits v 4 11 ≤ 1024)

theorem State.durWrite_eq (s : State) (i v : Nat) :
    s.durWrite i v = s.setReg (Off.dur i) (bits v 16 36 * 65536 + bits v 4 11 * 16 + bit01 (s.durFits i v)) := rfl

theorem State.durWrite_fields (s : State) (i v : Nat) : (s.durWrite i v).fld (Off.dur i) 16 36 = bits v 16 36 ∧
    (s.durWrite i v).fld (Off.dur i) 4 11 = bits v 4 11 ∧ (s.durWrite i v).flag (Off.dur i) 0 = s.durFits i v := by
  have ha := bits_lt v 16 36
  have hb := bits_lt v 4 11
  rw [State.durWrite_eq, State.setReg_fld _ _ (by decide), State.setReg_fld _ _ (by decide), State.setReg_flag _ _ (by decide)]
  generalize bits v 16 36 = a at *
  generalize bits v 4 11 = b at *
  have h1 := bit01_le (s.durFits i v)
  have h2 := bit01_beq (s.durFits i v)
  generalize bit01 (s.durFits i v) = k at *
  rw [bits, bits, bitOf]
  exact ⟨by omega, by omega, (congrArg (· == 1) (by omega)).trans h2⟩

theorem State.durFits_iff (s : State) (i v : Nat) : s.durFits i v = true ↔ bitOf v 0 = true ∧ bits v 4 11 ≠ 0 ∧
    ((List.range 8).filter (· != i)).foldl (fun k j => k + s.durUnits j) 0 + bits v 4 11 ≤ 1024 := by
  simp [State.durFits, and_assoc]

theorem exec_durWrite {s : State} {m i : Nat} {v : BitVec 64} (hi : i < 8) (hr : reaches s m (Off.dur i) 8 .dur [i] = true)
    (hl : s.locked (Off.dur i) = false) : exec (.durWrite m i v) s = .next ((s.durWrite i v.toNat).answer .done) := by
  refine regCmd_write (decide_eq_true hi) hr (ok := true) fun _ _ => congrArg (·, true) ?_
  rw [Nat.mod_eq_of_lt v.isLt]
  exact if_neg (by simp [hl])

/-! ### Range engines -/

/-- The value of RM_CTRL of an operation, without its start bit (07 R187). -/
def rmWord (a : RmArgs) (op : Nat) : Nat :=
  a.dbBit.toNat * 2 ^ 32 + bit01 a.dbEn * 2 ^ 28 + a.dbTarget.toNat * 2 ^ 16 + a.way.toNat * 256 + op

/-- A write of RM_CTRL with start is the start of its operation. -/
theorem State.rmCtrlWrite_start (s : State) (e : RangeEngine) (d : RegDesc) (a : RmArgs) {op : Nat} (h : op < 8) :
    s.rmCtrlWrite e d ((2 ^ 63 + a.dbBit.toNat * 2 ^ 32 + bit01 a.dbEn * 2 ^ 28 + a.dbTarget.toNat * 2 ^ 16 + a.way.toNat * 256 + op) % 2 ^ 64) =
      s.rmStart e op a := by
  obtain ⟨way, en, bit, target⟩ := a
  have h1 := bit01_le en
  have hw := way.isLt
  have hb := bit.isLt
  have ht := target.isLt
  dsimp only
  generalize hv : 2 ^ 63 + bit.toNat * 2 ^ 32 + bit01 en * 2 ^ 28 + target.toNat * 2 ^ 16 + way.toNat * 256 + op = v
  have hlt : v < 2 ^ 64 := by omega
  have b63 : bitOf v 63 = true := by rw [bitOf, beq_iff_eq]; omega
  have b28 : bitOf v 28 = en := by rw [bitOf, ← bit01_beq en]; exact congrArg (· == 1) (by omega)
  have f0 : bits v 0 3 = op := by rw [bits]; omega
  have f8 : bits v 8 4 = way.toNat := by rw [bits]; omega
  have f32 : bits v 32 5 = bit.toNat := by rw [bits]; omega
  have f16 : bits v 16 12 = target.toNat := by rw [bits]; omega
  rw [Nat.mod_eq_of_lt hlt, State.rmCtrlWrite, if_pos b63, b28, f0, f8, f32, f16, BitVec.ofNat_toNat, BitVec.ofNat_toNat, BitVec.ofNat_toNat,
    BitVec.setWidth_eq, BitVec.setWidth_eq, BitVec.setWidth_eq]

/-- A range command is the start of its operation. -/
theorem exec_rm {s : State} {m op : Nat} {e : RangeEngine} {a : RmArgs} (he : rmExists e = true) (h : op < 8)
    (hc : ∀ c : Nat, e = .cluster c → reaches s m (rmCtrl e) 8 .rmCtrl [c] = true)
    (hh : ∀ h : Nat, e = .hub h → reaches s m (rmCtrl e) 8 .hrmCtrl [h] = true) :
    rmCmd op m e a s = .next ((s.rmStart e op a).answer .done) := by
  cases e with
  | cluster c => exact regCmd_write he (hc c rfl) (ok := true) fun d _ => congrArg (·, true) (s.rmCtrlWrite_start _ _ a h)
  | hub k => exact regCmd_write he (hh k rfl) (ok := true) fun d _ => congrArg (·, true) (s.rmCtrlWrite_start _ _ a h)

/-- What starts a walk: the engine free, and none of the reasons that R188 lists. -/
structure RmRuns (u : State) (e : RangeEngine) (op : Nat) : Prop where
  free : u.flag (rmStat e) 4 = false
  count : u.reg (rmCount e) ≠ 0
  ops : op ≠ 0 ∧ op ≠ 7 ∧ op ≠ 4
  fits : u.reg (rmAddr e) + 64 * u.reg (rmCount e) ≤ 2 ^ 52
  dram : ∀ h : Nat, e = .hub h → u.reg (rmAddr e) + 64 * u.reg (rmCount e) ≤ u.installed

/-- Whether a start is a BAD_REQUEST (07 R188). -/
def State.rmBad (s : State) (e : RangeEngine) (op : Nat) (a : RmArgs) : Bool :=
  op == 0 || op == 7 || s.reg (rmCount e) == 0 || decide (2 ^ 52 < s.reg (rmAddr e) + 64 * s.reg (rmCount e)) ||
    (match e with
      | .cluster c => op == 4 && (!s.l2LockEn c a.way.toNat || s.addrKind (s.reg (rmAddr e)) == .host ||
          s.addrKind (s.reg (rmAddr e) + 64 * s.reg (rmCount e) - 1) == .host)
      | .hub _ => !s.rangeDram (s.reg (rmAddr e)) (s.reg (rmCount e)) || (op == 4 && !(List.range 32).all fun i => s.scLockEn i a.way.toNat))

/-- The walk of a range started: a free part of it done already (07 R189, R191). -/
def State.rmWalk (s : State) (e : RangeEngine) (op : Nat) (a : RmArgs) : State × RangeOp :=
  let s1 := match e with
    | .cluster c => s.fillAll c
    | .hub _ => clusters.foldl (fun t c => t.fillAll c) s
  s1.fresh.2.rangeLines e ⟨op, s.reg (rmAddr e), s.reg (rmCount e), a.way.toNat, 0, false,
    if a.dbEn then some (a.dbTarget.toNat, a.dbBit.toNat) else none⟩ (s1.fresh.1 % (s.reg (rmCount e) + 1))

theorem State.rmStart_eq (s : State) (e : RangeEngine) (op : Nat) (a : RmArgs) {u : State} (hu : u = s.setReg (rmCtrl e) (rmWord a op)) :
    s.rmStart e op a = if u.flag (rmStat e) 4 then u.setFlag (rmBlockStat e) 1 true
      else if u.rmBad e op a then (u.setReg (rmStat e) (rmStatWord 0 0 false 5)).raise (rmSource e)
      else { (u.rmWalk e op a).1 with rm := tblSet (u.rmWalk e op a).1.rm (rmIndex e) (u.rmWalk e op a).2 }.setReg (rmStat e)
        (rmStatWord (u.reg (rmCount e) - (u.rmWalk e op a).2.lines) (u.rmWalk e op a).2.skipped true 1) := by
  rw [hu]
  cases e <;> rfl

/-- What a line of a walk changes of its operation: what it met. -/
def SameWalk (o : RangeOp) (x : State × RangeOp) : Prop :=
  x.2.op = o.op ∧ x.2.line = o.line ∧ x.2.lines = o.lines ∧ x.2.doorbell = o.doorbell

theorem SameWalk.of (o : RangeOp) (s : State) (k : Nat) (p : Bool) : SameWalk o (s, { o with skipped := k, poison := p }) := ⟨rfl, rfl, rfl, rfl⟩

theorem State.rangeLine_same (s : State) (e : RangeEngine) (o : RangeOp) (line : Nat) : SameWalk o (s.rangeLine e o line) := by
  unfold State.rangeLine
  lift_lets -underBinder
  intro o1 s'
  clear_value s'
  split
  · split <;> exact .of o _ _ _
  · split <;> exact .of o _ _ _
  all_goals exact .of o _ _ _

/-- The walk of any number of lines keeps its operation, its end and its doorbell. -/
theorem State.rangeLines_same (e : RangeEngine) (k : Nat) (s : State) (o : RangeOp) : (s.rangeLines e o k).2.op = o.op ∧
    (s.rangeLines e o k).2.line + 64 * (s.rangeLines e o k).2.lines = o.line + 64 * o.lines ∧
    (s.rangeLines e o k).2.doorbell = o.doorbell := by
  induction k generalizing s o with
  | zero => exact ⟨rfl, rfl, rfl⟩
  | succ k ih =>
    rw [State.rangeLines]
    by_cases h : o.lines = 0
    · rw [if_pos h]
      exact ⟨rfl, rfl, rfl⟩
    · obtain ⟨h1, h2, h3, h4⟩ := s.rangeLine_same e o o.line
      rw [if_neg h]
      obtain ⟨i1, i2, i3⟩ := ih (s.rangeLine e o o.line).1
        { (s.rangeLine e o o.line).2 with line := (s.rangeLine e o o.line).2.line + 64, lines := (s.rangeLine e o o.line).2.lines - 1 }
      exact ⟨i1.trans h1, i2.trans (by dsimp only; omega), i3.trans h4⟩

theorem rmStatWord_fields {c : Nat} (hc : c < 16) (d k : Nat) (b : Bool) :
    bitOf (rmStatWord d k b c) 4 = b ∧ bits (rmStatWord d k b c) 0 4 = c := by
  have h1 := bit01_le b
  have h2 := bit01_beq b
  rw [rmStatWord, bitOf, bits]
  generalize bit01 b = x at *
  exact ⟨(congrArg (· == 1) (by omega)).trans h2, by omega⟩

/-- A start that runs: the engine is busy with the walk (07 R188, R189). -/
theorem State.rmStart_runs {s u : State} {e : RangeEngine} {op : Nat} {a : RmArgs} (hu : u = s.setReg (rmCtrl e) (rmWord a op))
    (h : RmRuns u e op) : s.rmStart e op a =
      { (u.rmWalk e op a).1 with rm := tblSet (u.rmWalk e op a).1.rm (rmIndex e) (u.rmWalk e op a).2 }.setReg (rmStat e)
        (rmStatWord (u.reg (rmCount e) - (u.rmWalk e op a).2.lines) (u.rmWalk e op a).2.skipped true 1) := by
  obtain ⟨hf, hn, ⟨h0, h7, h4⟩, hl, hd⟩ := h
  have hb : u.rmBad e op a = false := by
    cases e with
    | cluster c => simpa [State.rmBad, h0, h7, h4, hn] using hl
    | hub k => simpa [State.rmBad, h0, h7, h4, hn, State.rangeDram, hd k rfl] using hl
  rw [State.rmStart_eq s e op a hu, if_neg (by simp [hf]), if_neg (by simp [hb])]

/-- A start of an empty range: BAD_REQUEST. -/
theorem State.rmStart_empty {s u : State} {e : RangeEngine} {op : Nat} {a : RmArgs} (hu : u = s.setReg (rmCtrl e) (rmWord a op))
    (hf : u.flag (rmStat e) 4 = false) (hn : u.reg (rmCount e) = 0) : s.rmStart e op a = (u.setReg (rmStat e) 5).raise (rmSource e) := by
  rw [State.rmStart_eq s e op a hu, if_neg (by simp [hf]), if_pos (by simp [State.rmBad, hn])]
  rfl

theorem State.rmStart_busy {s u : State} {e : RangeEngine} {op : Nat} {a : RmArgs} (hu : u = s.setReg (rmCtrl e) (rmWord a op))
    (hf : u.flag (rmStat e) 4 = true) : s.rmStart e op a = u.setFlag (rmBlockStat e) 1 true := by
  rw [State.rmStart_eq s e op a hu, if_pos hf]

/-- The commands of a range engine, by their operation (07 R187). -/
theorem exec_rmCommand {s : State} {m op : Nat} {e : RangeEngine} {a : RmArgs} {i : Instr} (he : rmExists e = true)
    (hc : ∀ c : Nat, e = .cluster c → reaches s m (rmCtrl e) 8 .rmCtrl [c] = true)
    (hh : ∀ h : Nat, e = .hub h → reaches s m (rmCtrl e) 8 .hrmCtrl [h] = true)
    (hi : (op = 1 ∧ i = .rmClean m e a) ∨ (op = 2 ∧ i = .rmInval m e a) ∨ (op = 3 ∧ i = .rmCleaninval m e a) ∨
      (op = 4 ∧ i = .rmLockfill m e a) ∨ (op = 5 ∧ i = .rmUnlock m e a) ∨ (op = 6 ∧ i = .rmZero m e a)) :
    exec i s = .next ((s.rmStart e op a).answer .done) ∧ op ≠ 0 ∧ op ≠ 7 := by
  obtain ⟨rfl, rfl⟩ | ⟨rfl, rfl⟩ | ⟨rfl, rfl⟩ | ⟨rfl, rfl⟩ | ⟨rfl, rfl⟩ | ⟨rfl, rfl⟩ := hi
  all_goals exact ⟨exec_rm he (by decide) hc hh, by decide, by decide⟩

/-- A range operation without lines left and without poison ends (07 R189 to R191). -/
theorem State.rmFinish_done {s : State} {e : RangeEngine} {o : RangeOp} (h : tblGet? s.rm (rmIndex e) = some o) (hl : o.lines = 0)
    (hp : o.poison = false) {w : State} (hw : w = { s with rm := tblErase s.rm (rmIndex e) }.setReg (rmStat e)
      (rmStatWord (s.fld (rmStat e) 32 32) o.skipped false (if o.skipped = 0 then 2 else 3))) :
    s.rmFinish e = match o.doorbell with
      | some (t, b) => (if o.skipped = 0 then w else w.raise (rmSource e)).ring t b
      | none => if o.skipped = 0 then w else w.raise (rmSource e) := by
  subst hw
  by_cases hk : o.skipped = 0
  · cases hd : o.doorbell <;>
      simp only [State.rmFinish, h, hl, State.rangeLines, hp, hk, hd, Nat.add_zero, Bool.false_eq_true, if_false, ne_eq, not_true_eq_false, if_true]
  · cases hd : o.doorbell <;>
      simp only [State.rmFinish, h, hl, State.rangeLines, hp, hk, hd, Nat.add_zero, Bool.false_eq_true, if_false, ne_eq, not_false_eq_true,
        if_true, Nat.reduceEqDiff]

/-! ### The counters of the ways -/

theorem errcntOff_injective (u : CacheUnit) : Function.Injective (errcntOff u) := fun i j h => by
  cases u with
  | l2 c =>
    change Off.l2Errcnt c i = Off.l2Errcnt c j at h
    unfold Off.l2Errcnt at h
    omega
  | slice c =>
    change Off.scErrcnt c i = Off.scErrcnt c j at h
    unfold Off.scErrcnt at h
    omega

/-- One counter less 1. -/
def State.decayCounter (s : State) (u : CacheUnit) (w : Nat) : State := s.setFld (errcntOff u (w / 8)) (8 * (w % 8)) 8 (s.wayCnt u w - 1)

theorem State.decayCounters_eq (s : State) (u : CacheUnit) : s.decayCounters u = (List.range 18).foldl (·.decayCounter u ·) s := rfl

theorem State.wayCnt_lt (s : State) (u : CacheUnit) (w : Nat) : s.wayCnt u w < 256 := bits_lt ..

theorem State.decayCounter_wayCnt (s : State) (u : CacheUnit) (w k : Nat) :
    (s.decayCounter u w).wayCnt u k = if k = w then s.wayCnt u w - 1 else s.wayCnt u k := by
  have hw := s.wayCnt_lt u w
  by_cases h : k = w
  · subst h
    rw [if_pos rfl, State.wayCnt, State.decayCounter, State.setFld_fld_same _ _ _ (by omega), Nat.mod_eq_of_lt (by omega)]
  · rw [if_neg h, State.wayCnt, State.decayCounter]
    by_cases h8 : w / 8 = k / 8
    · rw [h8, State.setFld_fld_apart _ _ _ (by omega) (by omega)]
      rfl
    · rw [State.setFld_fld_off _ _ _ _ _ _ fun e => h8 (errcntOff_injective u e)]
      rfl

theorem State.foldl_decayCounter (u : CacheUnit) {ls : List Nat} (hn : ls.Nodup) (s : State) :
    (ls.foldl (·.decayCounter u ·) s).mem = s.mem ∧ ∀ w : Nat, (ls.foldl (·.decayCounter u ·) s).wayCnt u w =
      if w ∈ ls then s.wayCnt u w - 1 else s.wayCnt u w := by
  induction ls generalizing s with
  | nil => exact ⟨rfl, fun w => by simp⟩
  | cons a as ih =>
    obtain ⟨ha, hn⟩ := List.nodup_cons.1 hn
    obtain ⟨hm, hc⟩ := ih hn (s.decayCounter u a)
    refine ⟨hm, fun w => ?_⟩
    rw [List.foldl_cons, hc, State.decayCounter_wayCnt]
    by_cases h : w = a
    · subst h
      simp [ha]
    · simp [h]

/-! ### Scrub and retirement -/

theorem State.poisonLine_contains (s : State) (l : Nat) : (s.poisonLine l).poison.contains l = true := by
  change (if s.poison.contains l then s.poison else s.poison ++ [l]).contains l = true
  split
  next h =>
    exact h
  next h =>
    simp

theorem exec_forCache {u : CacheUnit} {s : State} {f : State → State} (h : unitExists u = true) : forCache u s f = .next (f s) := by
  rw [forCache, if_pos h]

theorem exec_eccCounterDecay {u : CacheUnit} {s : State} (h : unitExists u = true) : exec (.eccCounterDecay u) s = .next (s.decayCounters u) := by
  change execEccCounterDecay u s = _
  rw [execEccCounterDecay, exec_forCache h]

theorem exec_rmDone {e : RangeEngine} {s : State} (h : rmExists e = true) : exec (.rmDone e) s = .next (s.rmFinish e) := by
  change execRmDone e s = _
  rw [execRmDone, if_pos h]

/-- A retirement with nothing to move and none waiting (07 R198 steps 3 and 4). -/
theorem State.retireDone_empty {s : State} {u : CacheUnit} {j p q : Nat} (h : (s.cache u).retiring = some (j, p, q))
    (hl : (s.cache u).linesIn j = []) (hw : (s.cache u).waiting = []) :
    s.retireDone u = ((((s.setReg (waymapOff u) (waymapAfter (s.reg (waymapOff u)) j p q)).onCache u
      fun y => { y with retiring := none, waiting := [] }).setFlag (cstatOff u) 2 false).cacheEvent u 13 8 0 p).condemn
        (wayKind u).1 (wayKind u).2 p (cacheSource u 13) true := by
  have hw' (o v : Nat) : ((s.setReg o v).cache u).waiting = [] := by cases u <;> exact hw
  simp only [State.retireDone, h, hl, List.foldl_nil, hw', List.drop_nil]

/-- Settles O32: each register and each event by its own rule. -/
theorem cacheCommandsAndEvents : Obligations.CacheCommandsAndEvents := by
  refine ⟨fun s m => ⟨fun c v hc hr => ⟨fun h => ?l2Dropped, fun h => ?l2⟩, fun i v hi hr => ⟨fun h => ?scDropped, fun h => ?sc⟩, fun i v hi hr hl => ?dur,
      fun e a op i he hc hh hi => ⟨s.setReg (rmCtrl e) (rmWord a op), rfl, fun hf => ?busy, fun hf hn => ?empty, fun hf hn h4 hl hd => ?runs⟩⟩,
    fun s u c hu hc => ⟨fun h => ?noFill, fun f t h h0 => ?fill, fun h => ?noEvict, fun l t h => ?evictL2, fun i l t hi h => ?evictSc,
      fun e o he ho hl hp => ⟨_, rfl, fun hk hd => ?done, fun hk t b hd => ?rings, fun hk hd => ?skipped⟩, fun set way => ?clean,
      fun set way j hj => ⟨?data, ?tag, fun l hv hl hd => ⟨?poison, s.poisonLine_contains l⟩⟩, ?decay, fun h => ?notRetiring,
      fun j p q h hl hw => ?retire⟩⟩
  case l2Dropped => rw [exec_lockenWrite_l2 hc hr, State.lockenWrite_dropped h]
  case l2 =>
    refine ⟨_, exec_lockenWrite_l2 hc hr, ?_⟩
    rw [State.lockenWrite_l2 h]
    refine ⟨(State.setReg_reg_same ..).trans (Nat.mod_eq_of_lt (by omega)), rfl, fun d hd => State.onL2_l2c_other _ _ hd.symm, fun k => ?_⟩
    rw [State.onL2_l2c_same, slot_unlockedBy]
    exact slotUnlocked_kept ..
  case scDropped => rw [exec_lockenWrite_slice hi hr, State.lockenWrite_dropped h]
  case sc =>
    refine ⟨_, exec_lockenWrite_slice hi hr, ?_⟩
    rw [State.lockenWrite_slice h]
    refine ⟨(State.setReg_reg_same ..).trans (Nat.mod_eq_of_lt (by omega)), rfl, fun k => ?_⟩
    rw [State.onSc_scs_same, slot_unlockedBy]
    obtain ⟨h1, h2, _⟩ := slotUnlocked_kept (v.toNat % 65536) k (((s.setReg (Off.scLocken i) (v.toNat % 65536)).scs i).slot k)
    exact ⟨h1, h2⟩
  case dur =>
    obtain ⟨h1, h2, h3⟩ := s.durWrite_fields i v.toNat
    refine ⟨_, exec_durWrite hi hr hl, h1, h2, fun o ho => State.setReg_reg_other _ _ ho.symm, rfl, ?_⟩
    rw [h3]
    exact s.durFits_iff i v.toNat
  case busy =>
    obtain ⟨hx, _⟩ := exec_rmCommand he hc hh hi
    rw [hx, State.rmStart_busy rfl hf]
  case empty =>
    obtain ⟨hx, _⟩ := exec_rmCommand he hc hh hi
    rw [hx, State.rmStart_empty rfl hf hn]
  case runs =>
    obtain ⟨hx, h0, h7⟩ := exec_rmCommand he hc hh hi
    rw [State.rmStart_runs rfl ⟨hf, hn, ⟨h0, h7, h4⟩, hl, hd⟩] at hx
    obtain ⟨hop, hend, hdb⟩ := State.rangeLines_same e _ _ _
    refine ⟨_, _, hx, ?_, ?_, tblGet?_tblSet_same .., hop, hend, hdb⟩
    · rw [State.setReg_flag _ _ (by decide), (rmStatWord_fields (by decide) _ _ _).1]
    · rw [State.setReg_fld _ _ (by decide), (rmStatWord_fields (by decide) _ _ _).2]
  case noFill =>
    change execCacheFill c s = _
    simp only [execCacheFill, forUnit_next hc, State.fillNext, h]
  case fill =>
    change execCacheFill c s = _
    simp only [execCacheFill, forUnit_next hc, State.fillNext, h, State.doFill, h0]
  case noEvict =>
    change execEvictionDone u s = _
    simp only [execEvictionDone, exec_forCache hu, State.evictNext, h]
  case evictL2 =>
    have h' : (s.cache (.l2 c)).ebuf = l :: t := h
    change execEvictionDone (.l2 c) s = _
    simp only [execEvictionDone, exec_forCache (u := .l2 c) (decide_eq_true hc), State.evictNext, h']
  case evictSc =>
    have h' : (s.cache (.slice i)).ebuf = l :: t := h
    change execEvictionDone (.slice i) s = _
    simp only [execEvictionDone, exec_forCache (u := .slice i) (decide_eq_true hi), State.evictNext, h']
  case done => rw [exec_rmDone he, State.rmFinish_done ho hl hp rfl, hd, if_pos hk]
  case rings => rw [exec_rmDone he, State.rmFinish_done ho hl hp rfl, hd, if_pos hk]
  case skipped => rw [exec_rmDone he, State.rmFinish_done ho hl hp rfl, hd, if_neg hk]
  case clean =>
    change execScrub u set way .clean s = _
    rw [execScrub, exec_forCache hu, State.eccRead]
    cases s.logicalWay u way <;> rfl
  case data =>
    change execScrub u set way .correctableData s = _
    simp only [execScrub, exec_forCache hu, State.eccRead, hj, satAdd]
  case tag =>
    change execScrub u set way .correctableTag s = _
    simp only [execScrub, exec_forCache hu, State.eccRead, hj, satAdd]
  case poison =>
    change execScrub u set way .uncorrectableData s = _
    simp only [execScrub, exec_forCache hu, State.eccRead, hj, hv, hl, hd, if_true]
  case decay =>
    obtain ⟨hm, hw⟩ := State.foldl_decayCounter u List.nodup_range s
    exact ⟨s.decayCounters u, exec_eccCounterDecay hu, hm, fun w h => (hw w).trans (if_pos (List.mem_range.2 h))⟩
  case notRetiring =>
    change execWayRetirement u s = _
    simp only [execWayRetirement, exec_forCache hu, State.retireDone, h]
  case retire =>
    change execWayRetirement u s = _
    rw [execWayRetirement, exec_forCache hu, State.retireDone_empty h hl hw]

end Sys2Proof.Machine
end

section
/-! SUPPORT. Dispatch of the head descriptor of a queue (08 R206 to R229), and the statement about it. -/

namespace Sys2Proof.Machine

open Sys2Proof.Safety

/-- Each command of a kind is the dispatch of that kind. -/
theorem exec_dispatch {q kind : Nat} {nv : Verifies} {i : Instr} {s : State} (hq : q < 4096)
    (hi : (kind = 1 ∧ i = .send q nv) ∨ (kind = 2 ∧ i = .receive q ∧ nv = []) ∨ (kind = 3 ∧ i = .exchange q nv) ∨
      (kind = 4 ∧ i = .copy q nv) ∨ (kind = 6 ∧ i = .timedSend q nv)) : exec i s = .next (dispatchKind q kind nv s) := by
  obtain ⟨rfl, rfl⟩ | ⟨rfl, rfl, rfl⟩ | ⟨rfl, rfl⟩ | ⟨rfl, rfl⟩ | ⟨rfl, rfl⟩ := hi
  · exact forUnit_next (f := dispatchKind q 1 nv) hq
  · exact forUnit_next (f := dispatchKind q 2 []) hq
  · exact forUnit_next (f := dispatchKind q 3 nv) hq
  · exact forUnit_next (f := dispatchKind q 4 nv) hq
  · exact forUnit_next (f := dispatchKind q 6 nv) hq

theorem dispatchKind_of {q kind : Nat} {nv : Verifies} {s : State} (h : s.mayDispatch q = true) (hg : s.inGroup q = false)
    (hk : s.headKind q = kind) : dispatchKind q kind nv s = s.dispatchOne q nv := by
  rw [dispatchKind, if_pos (by simp [h, hg, hk])]

theorem dispatchKind_not {q kind : Nat} {nv : Verifies} {s : State} (h : s.mayDispatch q = false) : dispatchKind q kind nv s = s := by
  rw [dispatchKind, if_neg (by simp [h])]

/-! ### The head descriptor -/

section
variable {s : State} {q : Nat} {nv : Verifies} {t : Txn}

theorem State.dispatchOne_refused {e : TStat} (h : s.checkDesc q (s.reg (Off.tqHead q)) = (t, some e)) :
    s.dispatchOne q nv = ((s.setHeld q none).headUp q 1).failDesc q t e := by
  simp only [State.dispatchOne, h]

theorem State.dispatchOne_held {w : Hold} (h : s.checkDesc q (s.reg (Off.tqHead q)) = (t, none)) (hw : s.holdOf q t = some w) :
    s.dispatchOne q nv = s.setHeld q (some w) := by
  simp only [State.dispatchOne, h, hw]

theorem State.dispatchOne_runs (h : s.checkDesc q (s.reg (Off.tqHead q)) = (t, none)) (hw : s.holdOf q t = none) :
    s.dispatchOne q nv = (((s.setHeld q none).headUp q 1).countHub 0 0 1).runDesc q t nv := by
  simp only [State.dispatchOne, h, hw]

end

/-! ### What each kind does -/

section
variable {u : State} {q : Nat} {nv : Verifies} {t : Txn}

theorem State.runDesc_receive (h : t.kind = 2) : u.runDesc q t nv = u.postReceive q t := by simp only [State.runDesc, h]

theorem State.runDesc_copy (h : t.kind = 4) : u.runDesc q t nv = u.copyDesc q t nv := by simp only [State.runDesc, h]

theorem State.runDesc_send (h2 : t.kind ≠ 2) (h4 : t.kind ≠ 4) : u.runDesc q t nv = u.sendDesc q t nv := by
  rw [State.runDesc]
  split
  · exact absurd ‹_› h2
  · exact absurd ‹_› h4
  · rfl

theorem State.copyDesc_plain {v : State} {n : Nat} (hd : t.durable = false)
    (h : u.copyLines t.addr t.addr2 t.length 0 (t.length / 64 + 2) = (v, n)) :
    u.copyDesc q t nv = v.txnDone q t (if n = t.length then .ok else .busFault) n := by
  simp only [State.copyDesc, hd, h, Bool.false_eq_true, if_false, Bool.not_true]

theorem State.sendDesc_unread (h : u.withBuffer t = none) : u.sendDesc q t nv = u.txnDone q t .busFault 0 := by
  simp only [State.sendDesc, h]

variable {v : State} {t1 t2 : Txn} (hb : u.withBuffer t = some t1) (hn : u.takeNumber q t1 = some (v, t2))
include hb hn

/-- A transaction that is not durable goes out under its number (08 R211, R214). -/
theorem State.sendDesc_plain (hd : t.durable = false) : u.sendDesc q t nv =
    if t.kind = 6 then (v.txnOpen q t2).parkOrSend q t2 nv else (v.txnOpen q t2).emitTxn q t2 nv := by
  simp only [State.sendDesc, hb, hn, hd, Bool.false_eq_true, if_false, Bool.not_true]

/-- A durable one goes out after its COMMIT record, or ends with JOURNAL_FAULT (08 R220 step 5, R225). -/
theorem State.sendDesc_durable (hd : t.durable = true) {w : State} {ok : Bool} {nv1 : Verifies}
    (hw : v.nvjWrite q (.commit t2.count t2.seq t2.dcrc t2.bcrc t2.flow t2.kind) nv = (w, ok, nv1)) : u.sendDesc q t nv =
      if ok = false then (w.giveBack q t2).txnDone q t2 .journalFault 0
      else if t.kind = 6 then ((w.countHub 0 1 1).txnOpen q t2).parkOrSend q t2 nv1
      else ((w.countHub 0 1 1).txnOpen q t2).emitTxn q t2 nv1 := by
  cases ok <;> simp only [State.sendDesc, hb, hn, hd, hw, if_true, Bool.not_true, Bool.not_false, Bool.false_eq_true, Bool.true_eq_false, if_false]

end

theorem State.parkOrSend_parked {s : State} {q : Nat} {t : Txn} {nv : Verifies} (h : t.timeNs ≠ 0) (hr : s.released t = false) :
    s.parkOrSend q t nv = s.onTxn q t.count fun x => { x with stage := .parked } := by
  rw [State.parkOrSend, if_neg fun e => h e.1, if_neg (by simp [hr])]

/-- Settles O33: the checks and holds of `State.dispatchOne`, and the rule of each kind. -/
theorem dispatch : Obligations.Dispatch := by
  intro q nv s hq kind i hi
  rw [exec_dispatch hq hi]
  refine ⟨fun h => by rw [dispatchKind_not h], fun h hg hk t st hc => ⟨fun e he => ?_, fun w hst hw => ?_, fun hst hw hkind u hu => ?_⟩⟩
  all_goals rw [dispatchKind_of h hg hk]
  · subst he
    rw [State.dispatchOne_refused hc]
  · subst hst
    rw [State.dispatchOne_held hc hw]
  subst hst
  rw [State.dispatchOne_runs hc hw, ← hu]
  refine ⟨fun h2 => ?receive, fun h4 hd v n hv => ?copy, fun h2 h4 hb => ?unread, fun t1 t2 v h2 h4 hb hn => ⟨fun hd h6 => ?send, fun hd h6 ht hr => ?park,
    fun hd w ok nv1 hw => ⟨fun hok => ?fault, fun hok h6 => ?durable⟩⟩⟩
  case receive =>
    rw [State.runDesc_receive (hkind.trans h2)]
    rfl
  case copy => rw [State.runDesc_copy (hkind.trans h4), State.copyDesc_plain hd hv]
  all_goals rw [← hkind] at h2 h4
  all_goals rw [State.runDesc_send h2 h4]
  case unread => rw [State.sendDesc_unread hb]
  case send => rw [State.sendDesc_plain hb hn hd, hkind, if_neg h6]
  case park => rw [State.sendDesc_plain hb hn hd, hkind, if_pos h6, State.parkOrSend_parked ht hr]
  case fault => rw [State.sendDesc_durable hb hn hd hw, if_pos hok]
  case durable => rw [State.sendDesc_durable hb hn hd hw, if_neg (by simp [hok]), hkind, if_neg h6]

end Sys2Proof.Machine
end

section
/-! SUPPORT. What the report of a fault leaves alone: a raise, an event and a doorbell change registers, mailboxes, inputs of logical processors
and requests for resets (16 R418 to R424, 14 R394, 13 R372), and nothing of memory, caches, queues, journal, ports, links or time. -/

namespace Sys2Proof.Machine

/-- What a report leaves alone. -/
def State.untold (s : State) : (Mem × List Nat × Tbl (List Byte) × Tbl (List Byte)) × (Tbl Cache × Tbl Cache × Tbl TQueue × Nvj) ×
    (Tbl Port × Tbl Link × TimeSt × Pools) × Yaf × Chip :=
  ((s.mem, s.poison, s.underL2, s.underSc), (s.l2, s.sc, s.tqs, s.nvj), (s.ports, s.links, s.time, s.pools), s.yaf, s.chip)

/-- A state that differs by reports alone. -/
def Told (s t : State) : Prop := t.untold = s.untold

namespace Told

theorem refl (s : State) : Told s s := rfl

theorem trans {s t u : State} (h : Told s t) (k : Told t u) : Told s u := Eq.trans k h

section
variable {s t : State} (h : Told s t)
include h

theorem mem : t.mem = s.mem := congrArg (·.1.1) h
theorem l2 : t.l2 = s.l2 := congrArg (·.2.1.1) h
theorem tqs : t.tqs = s.tqs := congrArg (·.2.1.2.2.1) h
theorem ports : t.ports = s.ports := congrArg (·.2.2.1.1) h
theorem links : t.links = s.links := congrArg (·.2.2.1.2.1) h
theorem time : t.time = s.time := congrArg (·.2.2.1.2.2.1) h
theorem pools : t.pools = s.pools := congrArg (·.2.2.1.2.2.2) h
theorem yaf : t.yaf = s.yaf := congrArg (·.2.2.2.1) h
theorem chip : t.chip = s.chip := congrArg (·.2.2.2.2) h

end

theorem ite {s t u : State} {c : Prop} [Decidable c] (ht : Told s t) (hu : Told s u) : Told s (if c then t else u) := by
  split
  · exact ht
  · exact hu

theorem foldl {α : Type} {f : State → α → State} (hf : ∀ u a, Told u (f u a)) (ls : List α) (s : State) : Told s (ls.foldl f s) := by
  induction ls generalizing s with
  | nil => exact refl s
  | cons a as ih => exact (hf s a).trans (ih (f s a))

variable (s : State)

theorem count (o k : Nat) : Told s (s.count o k) := by
  unfold State.count
  exact .ite (refl s) rfl

theorem setReg (o v : Nat) : Told s (s.setReg o v) := rfl
theorem setFld (o lo w v : Nat) : Told s (s.setFld o lo w v) := rfl
theorem setFlag (o i : Nat) (b : Bool) : Told s (s.setFlag o i b) := rfl
theorem onLp (n : Nat) (f : LP → LP) : Told s (s.onLp n f) := rfl
theorem onReq (m : Nat) (f : Requester → Requester) : Told s (s.onReq m f) := rfl
theorem onChan (m : Nat) (f : Chan → Chan) : Told s (s.onChan m f) := rfl

/-! ### Doorbells and mailboxes -/

theorem msix (f v : Nat) : Told s (s.msix f v) := by
  unfold State.msix
  exact .ite (count (s.emit (.msix f v)) ..) (.ite (refl s) rfl)

theorem dbDeliver (n b : Nat) (force : Bool) : Told s (s.dbDeliver n b force) := by
  unfold State.dbDeliver
  exact .ite (refl s) (.ite (refl s) rfl)

theorem dbFollow (m b : Nat) (was : Bool) : Told s (s.dbFollow m b was) := by
  unfold State.dbFollow
  refine .ite (.ite (msix s m b) (refl s)) ?_
  split
  · exact dbDeliver ..
  · exact refl s

theorem ring (m b : Nat) : Told s (s.ring m b) := by
  unfold State.ring
  refine .ite (refl s) ?_
  split
  · exact (setFlag s _ _ _).trans (dbFollow ..)
  · exact refl s

theorem chanPut (ch : Nat) (ws : List (BitVec 64)) : Told s (s.chanPut ch ws) := by
  unfold State.chanPut
  exact .trans (.trans (.trans rfl (setReg (s.onChan ch _) _ _)) (count ..)) (ring ..)

theorem postHeld (m k : Nat) : Told s (s.postHeld m k) := by
  induction k generalizing s with
  | zero => exact refl s
  | succ k ih =>
    unfold State.postHeld
    dsimp only
    split
    · exact .ite (((chanPut s _ _).trans (onReq _ _ _)).trans (ih _)) (refl s)
    · refine .ite (refl s) ?_
      split
      · exact ((chanPut s _ _).trans (onReq _ _ _)).trans (ih _)
      · exact .ite (refl s) ((chanPut s _ _).trans (onReq _ _ _))

/-! ### Events and reactions -/

theorem eventTo (m : Nat) (e : EventRec) : Told s (s.eventTo m e) := by
  unfold State.eventTo
  exact .ite ((onReq s _ _).trans (postHeld ..)) (refl s)

theorem event (c o v w : Nat) (owners : List Nat) : Told s (s.event c o v w owners) := by
  unfold State.event
  exact .ite ((eventTo s _ _).trans (foldl (fun u m => eventTo u m _) _ _)) (refl s)

theorem errInput (n i c a : Nat) : Told s (s.errInput n i c a) := by
  unfold State.errInput
  exact .ite rfl rfl

theorem reactInt (n : Nat) : Told s (s.reactInt n) := by
  unfold State.reactInt
  have h : Told s ((s.errInt 96).errInt 97) := (errInput s ..).trans (errInput ..)
  exact .ite (h.trans (foldl (fun u k => .ite (errInput u ..) (refl u)) _ _)) h

theorem reactNmi (n : Nat) : Told s (s.reactNmi n) := by
  unfold State.reactNmi
  have h : Told s ((s.nmiAt 96).nmiAt 97) := (errInput s ..).trans (errInput ..)
  exact .ite (h.trans (foldl (fun u k => .ite (errInput u ..) (refl u)) _ _)) (h.trans (foldl (fun u k => .ite (errInput u ..) (refl u)) _ _))

theorem assertErrN (n : Nat) : Told s (s.assertErrN n) := rfl

theorem askReset (r : ResetReq) : Told s (s.askReset r) := by
  unfold State.askReset
  exact .ite rfl rfl

theorem actReaction (n r : Nat) (late : Bool) : Told s (s.actReaction n r late) := by
  unfold State.actReaction
  split
  · exact reactInt ..
  · exact reactNmi ..
  · refine .ite (reactInt ..) ?_
    split
    · exact (reactInt s n).trans (askReset ..)
    · exact reactInt ..
  · exact .ite (refl s) (askReset ..)
  · exact ((errInput s ..).trans (errInput ..)).trans (assertErrN ..)
  · exact (reactInt s n).trans (assertErrN ..)
  · exact refl s

theorem raise (n : Nat) : Told s (s.raise n) := by
  unfold State.raise
  refine .ite (refl s) ?_
  lift_lets -underBinder
  intro off v g cnt first s1 s2
  have h2 : Told s s2 := .trans (.ite rfl rfl : Told s s1) (.ite rfl rfl)
  clear_value s2
  refine .ite h2 (.ite ?_ ?_)
  · exact .ite (h2.trans (actReaction ..)) ((h2.trans (actReaction ..)).trans (event ..))
  · exact .ite (h2.trans rfl) (h2.trans rfl)

theorem logCause (o c e : Nat) : Told s (s.logCause o c e) := by
  unfold State.logCause
  exact .ite rfl rfl

theorem twErr (q c : Nat) : Told s (s.twErr q c) := by
  unfold State.twErr
  exact .ite ((logCause s ..).trans (raise ..)) (logCause ..)

end Told

end Sys2Proof.Machine
end

section
/-! SUPPORT. The numbers of flows, and what happens to transactions after their dispatch (08 R206 to R228), and the statement about them. -/

namespace Sys2Proof.Machine

open Sys2Proof.Safety

/-! ### Flows -/

section
variable {s : State} {q i : Nat} {f : Flow} (hf : s.flow? q i = some f)
include hf

theorem State.onFlow_eq (g : Flow → Flow) : s.onFlow q i g = s.onTq q fun t => { t with flows := tblSet t.flows i (g f) } := by
  simp only [State.onFlow, hf]

theorem State.onFlow_flow (g : Flow → Flow) : (s.onFlow q i g).flow? q i = some (g f) := by
  rw [s.onFlow_eq hf, State.flow?, State.onTq_tq_same]
  exact tblGet?_tblSet_same ..

variable {t : Txn} (ho : s.flowOf q t.target = some i)
include ho

/-- A transaction takes the next count of its flow, under the incarnation of its queue (08 R214). -/
theorem State.takeNumber_open : s.takeNumber q t =
    some (s.onFlow q i fun x => { x with next := f.next + 1 }, { t with seq := (s.tq q).inc * 2 ^ 48 + f.next % 2 ^ 48, flow := i }) := by
  simp only [State.takeNumber, State.flowOpen, ho, hf, Option.getD_some]

end

theorem newer_self (a : Nat) : newer a a = false := by
  have h : (a + 65536 - a % 65536) % 65536 = 0 := by omega
  simp [newer, h]

/-- An arrival in an open flow under the incarnation that the flow knows (08 R214, R216): one delivered before is acknowledged, one
beyond the window is an error of the flow. -/
theorem State.arrive_old {s : State} {q i : Nat} {f : Flow} {m : Inbound} (nv : Verifies) (hf : s.flow? q i = some f) (hm : m.destQ = q)
    (ho : s.flowOf q m.src = some i) (hon : s.tqOn q = true) (hd : m.durable = s.tqDurable q) (h0 : f.rxInc ≠ 0) (hi : f.rxInc = seqInc m.seq)
    (hn : seqCnt m.seq < f.low ∨ f.win.contains (seqCnt m.seq) = true) : s.arrive m nv = (s.onFlow q i fun _ => f, .ack (s.tq q).inc) := by
  subst hm
  simp only [State.arrive, State.flowOpen, hon, hd, ho, hf, h0, ← hi, newer_self, hn, Option.getD_some, Bool.not_true, bne_self_eq_false,
    Bool.false_eq_true, if_false, if_true]

theorem State.arrive_beyond {s : State} {q i : Nat} {f : Flow} {m : Inbound} (nv : Verifies) (hf : s.flow? q i = some f) (hm : m.destQ = q)
    (ho : s.flowOf q m.src = some i) (hon : s.tqOn q = true) (hd : m.durable = s.tqDurable q) (h0 : f.rxInc ≠ 0) (hi : f.rxInc = seqInc m.seq)
    (hl : f.low + 65536 ≤ seqCnt m.seq) (hw : f.win.contains (seqCnt m.seq) = false) : s.arrive m nv =
      (((s.onFlow q i fun _ => f).onFlow q i fun x => { x with errs := x.errs + 1 }).twErr q 5, .silent) := by
  have hn : ¬ (seqCnt m.seq < f.low ∨ f.win.contains (seqCnt m.seq) = true) := by
    rw [hw]
    simp only [Bool.false_eq_true, or_false]
    omega
  subst hm
  simp only [State.arrive, State.flowOpen, hon, hd, ho, hf, h0, ← hi, newer_self, hn, hl, Option.getD_some, Bool.not_true, bne_self_eq_false,
    Bool.false_eq_true, if_false, if_true]

/-- A change of a flow touches no other part of the queue. -/
theorem State.onFlow_tq (s : State) (q i : Nat) (g : Flow → Flow) : ((s.onFlow q i g).tq q).recvs = (s.tq q).recvs ∧
    ((s.onFlow q i g).tq q).waiting = (s.tq q).waiting ∧ (s.onFlow q i g).mem = s.mem := by
  rw [State.onFlow]
  split
  · rw [State.onTq_tq_same]
    exact ⟨rfl, rfl, rfl⟩
  · exact ⟨rfl, rfl, rfl⟩

/-! ### Groups -/

/-- A step of a group whose first member is known and none of whose deadlines has passed (08 R227). -/
theorem State.groupStep_members {s : State} {q n : Nat} {nv : List Verifies} {ms : List Txn} {m : Txn} (k : Nat) (hms : ms = (s.tq q).group)
    (hm : ms.head? = some m) (hn : n = m.member / 16 + 1) (he : s.groupExpired (s.tq q).group = none)
    (h : ms.length = n ∨ cnt32 (s.reg (Off.tqTail q)) (s.reg (Off.tqHead q)) ≤ ms.length) : s.groupStep q nv (k + 1) =
      if ms.length = n then (match s.groupHold q ms with
        | some w => s.setHeld q (some w)
        | none => s.groupRelease q ms nv)
      else s.setHeld q (some .group) := by
  cases ms with
  | nil => exact absurd hm (by simp)
  | cons y ys =>
    obtain rfl : y = m := Option.some.inj hm
    have h0 : (y :: ys).length ≠ 0 := by simp
    rw [← hms] at he
    rw [State.groupStep]
    by_cases hl : (y :: ys).length = n
    · rw [if_pos hl]
      cases hh : s.groupHold q (y :: ys) <;> simp only [he, ← hms, ← hn, hl, hh, and_true, if_pos (hl ▸ h0)]
    · rw [if_neg hl]
      simp only [he, ← hms, ← hn, hl, and_false, if_false, if_pos (h.resolve_left hl)]

/-! ### Holds, deadlines and timeouts -/

theorem State.resendReturned_none {s : State} {q : Nat} (nv : Verifies) (h : ∀ t : Txn, t ∈ (s.tq q).opens → t.stage ≠ .returned) :
    s.resendReturned q nv = s := by
  have hf : ((s.tq q).opens.filter fun t => t.stage == .returned) = [] :=
    List.filter_eq_nil_iff.2 fun t ht => by simpa using h t ht
  rw [State.resendReturned, hf, List.foldl_nil]

section
variable {s : State} {q slot : Nat} (hq : q < 4096)
include hq

theorem exec_group {nv : List Verifies} (h : s.mayDispatch q = true) (hg : s.inGroup q = true) :
    exec (.group q nv) s = .next (s.groupStep q nv 18) := by
  change execGroup q nv s = _
  rw [execGroup, forUnit_next hq, if_pos (by simp [h, hg])]

theorem exec_holdRelease (hr : ∀ t : Txn, t ∈ (s.tq q).opens → t.stage ≠ .returned) (hh : (s.tq q).held ≠ none) (h : s.mayDispatch q = true)
    (hg : s.inGroup q = false) : exec (.holdRelease q) s = .next (s.dispatchOne q []) := by
  have hs : (s.tq q).held.isSome = true := Option.isSome_iff_ne_none.2 hh
  change execHoldRelease q s = _
  simp only [execHoldRelease, forUnit_next hq, State.resendReturned_none [] hr, hs, h, hg, Bool.and_self, Bool.false_eq_true, if_false, if_true]

theorem exec_deadlineExpiry (hh : (s.tq q).held ≠ none) (h : s.mayDispatch q = true) (hg : s.inGroup q = false) {t : Txn}
    (hc : s.checkDesc q (s.reg (Off.tqHead q)) = (t, some .expired)) :
    exec (.deadlineExpiry q) s = .next (((s.setHeld q none).headUp q 1).txnDone q t .expired 0) := by
  have hs : (s.tq q).held.isSome = true := Option.isSome_iff_ne_none.2 hh
  change execDeadlineExpiry q s = _
  simp only [execDeadlineExpiry, forUnit_next hq, hs, h, hg, hc, Bool.and_self, Bool.false_eq_true, if_false, if_true]
  rfl

theorem exec_ackTimeout_open {t : Txn} (h : s.openTxn q slot = some t) : exec (.ackTimeout q slot) s =
    .next (if t.unacked && t.timeout != 0 then s.txnDone q t t.timeoutStatus (t.value 0) else s) := by
  change execAckTimeout q slot s = _
  simp only [execAckTimeout, forUnit_next hq, h]

end

theorem Txn.timeoutStatus_none {t : Txn} (h : t.refusals = []) : t.timeoutStatus = .timeout := by
  simp only [Txn.timeoutStatus, h]

theorem Txn.timeoutStatus_noBuffer {t : Txn} {rs : List Nat} (h : t.refusals = 5 :: rs) (hr : ∀ r : Nat, r ∈ rs → r = 5) :
    t.timeoutStatus = .noBuffer := by
  have ha : (rs.all fun x => x == 5) = true := List.all_eq_true.2 fun r hm => beq_iff_eq.2 (hr r hm)
  simp only [Txn.timeoutStatus, h, ha, if_true]

/-- The mark of a durable queue's flow that has moved: its ACKMARK is written (08 R223, R224). -/
theorem State.ackmark_moved {s u : State} {q i : Nat} {f : Flow} {nv : Verifies} (hf : s.flow? q i = some f) (hd : s.tqDurable q = true)
    (h0 : f.rxInc = 0) (hm : f.markTx ≠ s.txMark q i f) (hw : s.nvjWrite q (.ackmark i (s.txMark q i f)) [] = (u, true, nv)) :
    s.ackmark q i = u.onFlow q i fun x => { x with markTx := s.txMark q i f } := by
  simp only [State.ackmark, hf, hd, h0, hm, hw, Bool.not_true, Bool.false_eq_true, if_false, if_true, ne_eq, not_true_eq_false,
    not_false_eq_true, false_and]

/-! ### Completions that waited -/

theorem tqRegs_apart (q : Nat) : Off.tqRetire q ≠ Off.tqCqtail q ∧ Off.tqStat q ≠ Off.tqCqtail q := by
  unfold Off.tqRetire Off.tqCqtail Off.tqStat
  omega

/-- TQ_RETIRE moves beside the completion ring. -/
theorem State.tqRetireUp_ring (q k : Nat) (s : State) : (s.tqRetireUp q k).reg (Off.tqCqtail q) = s.reg (Off.tqCqtail q) ∧
    ((s.tqRetireUp q k).tq q).waiting = (s.tq q).waiting := by
  induction k generalizing s with
  | zero => exact ⟨rfl, rfl⟩
  | succ k ih =>
    rw [State.tqRetireUp]
    split
    · obtain ⟨h1, h2⟩ := ih ((s.setReg (Off.tqRetire q) ((s.reg (Off.tqRetire q) + 1) % 2 ^ 32)).onTq q fun t =>
        { t with done := t.done.filter (· != s.reg (Off.tqRetire q)) })
      refine ⟨h1.trans (State.setReg_reg_other _ _ (tqRegs_apart q).1), h2.trans ?_⟩
      rw [State.onTq_tq_same]
      rfl
    · exact ⟨rfl, rfl⟩

/-- The one completion that waits, written where the ring has room and no notification follows (08 R206, R207). -/
theorem State.tqWriteOne_one {s : State} {q count : Nat} {bs : List Byte} (hw : (s.tq q).waiting = [(count, bs, false)])
    (hr : cnt32 (s.reg (Off.tqCqtail q)) (s.reg (Off.tqCqhead q)) < 2 ^ s.fld (Off.tqCq q) 0 5) : ∃ t : State, s.tqWriteOne q = some t ∧
      t.reg (Off.tqCqtail q) = (s.reg (Off.tqCqtail q) + 1) % 2 ^ 32 ∧ (t.tq q).waiting = [] := by
  simp only [State.tqWriteOne, hw, hr, if_true, Bool.false_eq_true, if_false]
  refine ⟨_, rfl, ?_, ?_⟩
  · rw [(State.tqRetireUp_ring ..).1]
    exact (State.setReg_reg_same ..).trans (Nat.mod_eq_of_lt (by omega))
  · rw [(State.tqRetireUp_ring ..).2, State.onTq_tq_same]

/-- A full completion ring: what waits goes on waiting (08 R207). -/
theorem exec_completionDeferredWrite_full {s : State} {q : Nat} (hq : q < 4096) (hw : (s.tq q).waiting ≠ [])
    (hr : 2 ^ s.fld (Off.tqCq q) 0 5 ≤ cnt32 (s.reg (Off.tqCqtail q)) (s.reg (Off.tqCqhead q))) :
    exec (.completionDeferredWrite q) s = .next (s.setFlag (Off.tqStat q) 2 true) := by
  obtain ⟨⟨count, bs, ntf⟩, rest, hc⟩ := List.exists_cons_of_ne_nil hw
  change execCompletionDeferredWrite q s = _
  rw [execCompletionDeferredWrite, forUnit_next hq]
  simp only [hc, List.length_cons, State.tqFlush, State.tqWriteOne, Nat.not_lt.2 hr, if_false, List.isEmpty_cons, Bool.not_false]

/-- Settles O34: the numbers of a flow, and each event by the rule that it is. -/
theorem flowsAndTransactions : Obligations.FlowsAndTransactions := by
  refine ⟨fun s q i f t ho hf => ⟨?number, fun m nv hm hs hon hd h0 hi => ⟨fun hn => ?old, fun hl hw => ?beyond⟩⟩,
    fun q slot nv s hq => ⟨fun h hg he ms m n hms hm hn => ⟨fun hl hc => ?groupWaits, fun hl w hw => ?groupHeld, fun hl hw => ?groupReleased⟩,
      fun t ht hp => ?released, fun hr hh h hg t hc => ⟨fun w hw => ?stillHeld, fun hw => ?holdEnds⟩, fun hh h hg t hc => ?expired,
      fun t ht hst => ?retransmit, fun t ht hst h0 => ⟨fun hr => ?timeout, fun rs hr hall => ?noBuffer⟩, fun t ht h0 => ?noTimeout,
      fun hf => ?noFlow, fun f u nv1 hf hd h0 hm hw => ?mark, fun hw => ?noneWaits, fun hw hc => ?full, fun count bs hw hc => ?written⟩⟩
  case number =>
    obtain ⟨_, _, hmem⟩ := s.onFlow_tq q i fun x => { x with next := f.next + 1 }
    refine ⟨_, _, State.takeNumber_open hf ho, rfl, rfl, State.onFlow_flow hf _, hmem, ?_⟩
    rw [State.onFlow_eq hf]
    rfl
  case old =>
    obtain ⟨hrecv, hwait, hmem⟩ := s.onFlow_tq q i fun _ => f
    exact ⟨_, State.arrive_old nv hf hm (hs ▸ ho) hon hd h0 hi hn, hmem, hrecv, hwait⟩
  case beyond =>
    obtain ⟨hrecv, _, hmem⟩ := s.onFlow_tq q i fun _ => f
    obtain ⟨hrecv', _, hmem'⟩ := (s.onFlow q i fun _ => f).onFlow_tq q i fun x => { x with errs := x.errs + 1 }
    have ht := Told.twErr ((s.onFlow q i fun _ => f).onFlow q i fun x => { x with errs := x.errs + 1 }) q 5
    refine ⟨_, State.arrive_beyond nv hf hm (hs ▸ ho) hon hd h0 hi hl hw, ht.mem.trans (hmem'.trans hmem), ?_⟩
    rw [State.tq, ht.tqs]
    exact hrecv'.trans hrecv
  case groupWaits => rw [exec_group hq h hg, State.groupStep_members 17 hms hm hn he (.inr hc), if_neg hl]
  case groupHeld => rw [exec_group hq h hg, State.groupStep_members 17 hms hm hn he (.inl hl), if_pos hl, hw]
  case groupReleased => rw [exec_group hq h hg, State.groupStep_members 17 hms hm hn he (.inl hl), if_pos hl, hw]
  case released =>
    refine ⟨_, rfl, ?_⟩
    change execTimedSendRelease q slot s = _
    simp only [execTimedSendRelease, forUnit_next hq, ht, hp, if_true]
  case stillHeld => rw [exec_holdRelease hq hr hh h hg, State.dispatchOne_held hc hw]
  case holdEnds => rw [exec_holdRelease hq hr hh h hg, State.dispatchOne_runs hc hw]
  case expired => exact exec_deadlineExpiry hq hh h hg hc
  case retransmit =>
    refine ⟨_, rfl, ?_⟩
    change execRetransmit q slot s = _
    simp only [execRetransmit, forUnit_next hq, ht, Txn.unacked, hst, beq_self_eq_true, if_true]
  case timeout => rw [exec_ackTimeout_open hq ht, if_pos (by simp [Txn.unacked, hst, h0]), Txn.timeoutStatus_none hr]
  case noBuffer => rw [exec_ackTimeout_open hq ht, if_pos (by simp [Txn.unacked, hst, h0]), Txn.timeoutStatus_noBuffer hr hall]
  case noTimeout => rw [exec_ackTimeout_open hq ht, if_neg (by simp [h0])]
  case noFlow =>
    change execAckmarkWrite q slot s = _
    simp only [execAckmarkWrite, forUnit_next hq, State.ackmark, hf]
  case mark =>
    change execAckmarkWrite q slot s = _
    rw [execAckmarkWrite, forUnit_next hq, State.ackmark_moved hf hd h0 hm hw]
  case noneWaits =>
    change execCompletionDeferredWrite q s = _
    simp only [execCompletionDeferredWrite, forUnit_next hq, hw, List.length_nil, State.tqFlush, List.isEmpty_nil, Bool.not_true]
  case full => exact exec_completionDeferredWrite_full hq hw hc
  case written =>
    obtain ⟨t, ht, htail, hwait⟩ := State.tqWriteOne_one hw hc
    refine ⟨t.setFlag (Off.tqStat q) 2 false, ?_, (State.setReg_reg_other _ _ (tqRegs_apart q).2).trans htail, hwait, ?_⟩
    · change execCompletionDeferredWrite q s = _
      simp only [execCompletionDeferredWrite, forUnit_next hq, hw, List.length_singleton, State.tqFlush, ht, hwait, List.isEmpty_nil, Bool.not_true]
    · exact (State.setFlag_flag _ _ _ _ (by decide)).trans (if_pos rfl)

end Sys2Proof.Machine
end

section
/-! SUPPORT. The Prism and cipher engines (12 R335 to R357), and the statement about them. -/

namespace Sys2Proof.Machine

open Sys2Proof.Safety

theorem forEngine_next {e : Nat} {s : State} {f : State → State} (h : e < 36) (hs : s.shutdown = false) : forEngine e s f = .next (f s) := by
  rw [forEngine, forUnit_next h, if_neg (by simp [hs])]

@[simp] theorem State.onJEng_jEng_same (s : State) (p : Pool) (e : Nat) (f : JEngine → JEngine) : (s.onJEng p e f).jEng p e = f (s.jEng p e) :=
  tblGetD_tblSet_same ..

/-! ### Dispatch of jobs -/

/-- A free ACTIVE engine takes the job that a condemned one left, else the oldest posted (12 R335, R357). -/
theorem State.jNext_free {s : State} {p : Pool} {e : Nat} (h1 : s.fld (eBase p e) 0 2 = 1) (hj : (s.jEng p e).job = none) :
    (∀ x : Nat × Job, s.pools.left.find? (fun x => x.1 == poolIx p) = some x →
      s.jNext p e = (s.onPools fun t => { t with left := t.left.erase x }).jTake p e x.2) ∧
    (s.pools.left.find? (fun x => x.1 == poolIx p) = none → (s.jPick p = none → s.jNext p e = s) ∧
      ∀ j : Nat, s.jPick p = some j → s.jNext p e = s.jDispatch p e j) := by
  have hn : ¬ (s.fld (eBase p e) 0 2 ≠ 1 ∨ (s.jEng p e).job.isSome = true) := by simp [h1, hj]
  refine ⟨fun x hx => ?_, fun hl => ⟨fun hp => ?_, fun j hp => ?_⟩⟩
  · simp only [State.jNext, hn, if_false, hx]
  · simp only [State.jNext, hn, if_false, hl, hp]
  · simp only [State.jNext, hn, if_false, hl, hp]

theorem State.jNext_busy {s : State} {p : Pool} {e : Nat} (h : s.fld (eBase p e) 0 2 ≠ 1 ∨ (s.jEng p e).job.isSome = true) : s.jNext p e = s := by
  rw [State.jNext, if_pos h]

/-- The state in which the next descriptor of a ring is read (12 R335). -/
def State.jAdvanced (s : State) (p : Pool) (j : Nat) : State :=
  ((s.setReg (jHead p j) ((s.reg (jHead p j) + 1) % 2 ^ 32)).onJRing p j fun r => { r with
    posts := r.posts.filter fun x => decide (1 < cnt32 x.1 (s.reg (jHead p j)) ∧ cnt32 x.1 (s.reg (jHead p j)) ≤ s.jSlots p j) }).onPools
      (fun x => { x with served := tblSet x.served (poolIx p) j })

section
variable {s : State} {p : Pool} {e j : Nat}

theorem State.jDispatch_unread (h : (s.jAdvanced p j).dmaRead (s.jSlotAddr p j (s.reg (jHead p j))) 64 = none) :
    s.jDispatch p e j = (s.jAdvanced p j).jComplete p j [] (jRecord p j [] 3 0 false false false 0 0 0 e) := by
  unfold State.jAdvanced at *
  simp only [State.jDispatch, h]

theorem State.jDispatch_over {d : List Byte} {st detail : Nat}
    (h : (s.jAdvanced p j).dmaRead (s.jSlotAddr p j (s.reg (jHead p j))) 64 = some d) (hs : (s.jAdvanced p j).jStart p j d = .over st detail) :
    s.jDispatch p e j = (if st = 1 then (s.jAdvanced p j).jEvent p j 1 (s.reg (jHead p j)) else s.jAdvanced p j).jComplete p j d
      (jRecord p j d st detail false false false 0 0 0 e) := by
  unfold State.jAdvanced at *
  simp only [State.jDispatch, h, hs]

end

/-! ### Mismatches -/

/-- A mismatch that its budget allows: the segment runs again (12 R357). -/
theorem State.jMismatch_again {s : State} {p : Pool} {e : Nat} (h : (s.jEng p e).tries < 3) :
    (s.jMismatch p e).jEng p e = ⟨(s.jEng p e).job.map Job.rewind, (s.jEng p e).tries + 1⟩ ∧ (s.jMismatch p e).mem = s.mem ∧
      (s.jMismatch p e).fld (eBase p e) 32 32 = min (s.fld (eBase p e) 32 32 + 1) 0xFFFFFFFF := by
  have hm : s.jMismatch p e = ((s.setFld (eBase p e) 32 32 (satAdd (s.fld (eBase p e) 32 32) 1 0xFFFFFFFF)).onJEng p e fun x =>
      { job := x.job.map Job.rewind, tries := (s.jEng p e).tries + 1 }).countHub 1 (3 + 3 * poolIx p) 1 := by
    rw [State.jMismatch, if_neg (Nat.not_le.2 h)]
  have hc (u : State) (i k : Nat) : Told u (u.countHub 1 i k) ∧ (u.countHub 1 i k).regs = u.regs := by
    refine ⟨Told.count .., ?_⟩
    rw [State.countHub, State.count]
    (repeat' split) <;> rfl
  obtain ⟨ht, hr⟩ := hc ((s.setFld (eBase p e) 32 32 (satAdd (s.fld (eBase p e) 32 32) 1 0xFFFFFFFF)).onJEng p e fun x =>
      { job := x.job.map Job.rewind, tries := (s.jEng p e).tries + 1 }) (3 + 3 * poolIx p) 1
  rw [hm]
  refine ⟨?_, ht.mem, ?_⟩
  · rw [State.jEng, ht.pools]
    exact State.onJEng_jEng_same ..
  · rw [State.fld, State.reg_of_regs hr]
    refine (State.setFld_fld_same _ _ _ (by decide)).trans (Nat.mod_eq_of_lt ?_)
    rw [satAdd]
    omega

/-! ### Segments of a Prism job -/

section
variable {s : State} {e op : Nat}

theorem State.jobOf_none {p : Pool} (h : (s.jEng p e).job = none) : s.jobOf p e op = none := by simp only [State.jobOf, h]

theorem State.jobOf_some {p : Pool} {x : Job} (h : (s.jEng p e).job = some x) :
    s.jobOf p e op = if descOp x.desc = op ∧ x.fin.isNone then some x else none := by simp only [State.jobOf, h]

variable (he : e < 36) (hs : s.shutdown = false)
include he hs

theorem exec_compress_idle (h : s.jobOf .prism e 1 = none) : exec (.compress e) s = .next s := by
  change execCompress e s = _
  simp only [execCompress, forEngine_next he hs, h]

theorem exec_compress_runs {x : Job} (h : s.jobOf .prism e 1 = some x) (hh : x.str.header = true) :
    exec (.compress e) s = .next (s.compressN e [] 2 x) := by
  change execCompress e s = _
  simp only [execCompress, forEngine_next he hs, h, hh, if_true]

theorem exec_decompress_idle (h : s.jobOf .prism e 2 = none) : exec (.decompress e) s = .next s := by
  change execDecompress e s = _
  simp only [execDecompress, forEngine_next he hs, h]

theorem exec_prismJobEnd_some {x : Job} {f : JobEnd} (hj : (s.jEng .prism e).job = some x) (hf : x.fin = some f) :
    (f.status ≠ 0 → f.full = false → exec (.prismJobEnd e) s = .next (s.jobFinish .prism e x f)) ∧
    (f.status = 0 ∨ f.full = true →
      (∀ u : State, s.prismSave x f.full x.str = some u → exec (.prismJobEnd e) s = .next (u.jobFinish .prism e x f)) ∧
      (s.prismSave x f.full x.str = none → exec (.prismJobEnd e) s = .next (s.jobFinish .prism e x ⟨3, 0, false, false, false⟩))) := by
  change (_ → _ → execPrismJobEnd e s = _) ∧ (_ → (∀ u : State, _ → execPrismJobEnd e s = _) ∧ (_ → execPrismJobEnd e s = _))
  refine ⟨fun h0 hl => ?_, fun h => ⟨fun u hu => ?_, fun hu => ?_⟩⟩
  · have hn : ¬ (f.status = 0 ∨ f.full = true) := by simp [h0, hl]
    simp only [execPrismJobEnd, forEngine_next he hs, hj, hf, hn, if_false]
  · simp only [execPrismJobEnd, forEngine_next he hs, hj, hf, h, hu, if_true]
  · simp only [execPrismJobEnd, forEngine_next he hs, hj, hf, h, hu, if_true]

end

theorem State.compressN_noInput {s : State} {e n : Nat} {x : Job} (dict : List Byte) (h : x.srcLeft = 0) (hf : x.final = false) :
    s.compressN e dict (n + 1) x = (s.onJob .prism e fun y => { y with str := x.str }).jobEnd .prism e ⟨5, 0, true, true, false⟩ := by
  simp only [State.compressN, h, hf, Bool.not_false, and_self, if_true]

theorem State.compressN_unread {s : State} {e n : Nat} {x : Job} (dict : List Byte) (h : 0 < x.srcLeft)
    (hr : s.dmaRead x.srcAt (min 32768 x.srcLeft) = none) :
    s.compressN e dict (n + 1) x = (s.onJob .prism e fun y => { y with str := x.str }).jobEnd .prism e ⟨3, 0, false, false, false⟩ := by
  have h0 : x.srcLeft ≠ 0 := by omega
  simp only [State.compressN, h0, hr, false_and, if_false]

/-! ### Segments of a cipher job -/

theorem State.cipherRun_none {s : State} {e op : Nat} (f : Job → State) (h : (s.jEng .cipher e).job = none) : s.cipherRun e op f = s := by
  simp only [State.cipherRun, h]

theorem State.cipherRun_some {s : State} {e op : Nat} {x : Job} (f : Job → State) (h : (s.jEng .cipher e).job = some x) (hf : x.fin = none)
    (ho : descOp x.desc = op) : s.cipherRun e op f = f x := by
  simp only [State.cipherRun, h, hf, ho, Option.isNone_none, and_self, if_true]

section
variable {s : State} {e : Nat} (he : e < 36) (hs : s.shutdown = false)
include he hs

theorem exec_jobDispatch (p : Pool) : exec (.jobDispatch p e) s = .next (s.jNext p e) :=
  forEngine_next (f := fun s => s.jNext p e) he hs

theorem exec_engineMismatch (p : Pool) :
    exec (.engineMismatch p e) s = .next (if s.fld (eBase p e) 0 2 = 2 then s else s.jMismatch p e) :=
  forEngine_next (f := fun s => if s.fld (eBase p e) 0 2 = 2 then s else s.jMismatch p e) he hs

theorem exec_encrypt : exec (.encrypt e) s = .next (s.cipherRun e 1 fun x => s.crypt e x true) :=
  forEngine_next (f := fun s => s.cipherRun e 1 fun x => s.crypt e x true) he hs

theorem exec_decrypt : exec (.decrypt e) s = .next (s.cipherRun e 2 fun x => s.crypt e x false) :=
  forEngine_next (f := fun s => s.cipherRun e 2 fun x => s.crypt e x false) he hs

theorem exec_hash : exec (.hash e) s = .next (s.cipherRun e 3 fun x => s.digest e x) :=
  forEngine_next (f := fun s => s.cipherRun e 3 fun x => s.digest e x) he hs

theorem exec_hmacGen : exec (.hmacGen e) s = .next (s.cipherRun e 4 fun x => s.digest e x) :=
  forEngine_next (f := fun s => s.cipherRun e 4 fun x => s.digest e x) he hs

theorem exec_hmacVerify : exec (.hmacVerify e) s = .next (s.cipherRun e 5 fun x => s.digest e x) :=
  forEngine_next (f := fun s => s.cipherRun e 5 fun x => s.digest e x) he hs

end

/-- The last segment of an authenticated decryption (12 R351): the plaintext is written, the tag compared, and a wrong tag destroys the
plaintext. -/
theorem State.crypt_gcmEnd {s u : State} {e : Nat} {x : Job} {iv a d m : List Byte} {g : CState × List Nat} (h1 : cMode x.desc = 1)
    (hiv : s.dmaRead (fieldLE x.desc 0x28 8) 12 = some iv) (hin : s.cipherInput x = some (vals a, vals d)) (ha : x.aadLeft ≤ a.length)
    (hd : x.inLeft ≤ d.length) (hg : g = gcmSegment x false (vals iv) (vals a) (vals d))
    (hw : s.dmaWrite (fieldLE x.desc 0x10 8 + (x.ci.inn - x.base.2)) (bytesOf g.2) = some u)
    (hm : u.dmaRead (fieldLE x.desc 0x30 8) (gcmTag x (vals iv) g.1).length = some m) : s.crypt e x false =
      if m = bytesOf (gcmTag x (vals iv) g.1) then u.cipherDone e g.1 true
      else ((u.dmaWrite (fieldLE x.desc 0x10 8) (List.replicate (cLen x.desc) 0)).getD u).cipherDone e g.1 false := by
  have hl : ¬ ((vals a).length < x.aadLeft ∨ (vals d).length < x.inLeft) := by
    rw [vals, vals, List.length_map, List.length_map]
    omega
  have hm' : u.dmaRead (fieldLE x.desc 0x30 8) (bytesOf (gcmTag x (vals iv) g.1)).length = some m := by
    rw [bytesOf, List.length_map, hm]
  subst hg
  simp only [State.crypt, h1, hiv, hin, if_true, Nat.sub_zero, hw, hl, hm', if_false, ne_eq, not_true_eq_false, Bool.false_eq_true]

/-- Settles O45: the dispatch and the mismatches of both pools, and the segments and ends of the job on an engine. -/
theorem jobEngines : Obligations.JobEngines := by
  intro s e he hs
  refine ⟨fun p => ⟨fun h => ?busy, fun h1 hj => ⟨fun x hx => ?left, fun hl => ⟨fun hp => ?nothing, fun j h u hp hh hu => ⟨fun hr => ?unread,
      fun d hr st detail hst => ⟨fun hne => ?ends, fun hone => ?bad⟩⟩⟩⟩, fun h2 => ?condemned, fun h2 ht => ?fourth, fun h2 ht => ?again⟩,
    fun hj => ⟨?noCompress, ?noDecompress, ?noPrismEnd⟩,
    fun x hj => ⟨fun hf => ⟨?prismRuns, fun ho => ?decompress, fun ho hh => ?compress, fun ho hh h0 hl => ?noInput, fun ho hh h0 hr => ?noRead⟩,
      fun f hf => ⟨?compressOver, ?decompressOver, fun h0 hl => ?failed, fun h0 u hu => ?saved, fun h0 hu => ?notSaved⟩⟩,
    fun hj => ⟨?noEncrypt, ?noDecrypt, ?noHash, ?noGen, ?noVerify, ?noCipherEnd⟩,
    fun x hj => ⟨fun f hf => ?cipherEnd, fun hf => ⟨?cipherRuns, fun ho => ?encrypt, fun ho => ?decrypt, fun ho => ?hash, fun ho => ?gen,
      fun ho => ?verify, fun iv a d out m g u ho hmode hiv hin ha hd hg hout hw hm => ⟨fun h => ?tagRight, fun h v hv => ?tagWrong⟩⟩⟩⟩
  case busy => rw [exec_jobDispatch he hs, State.jNext_busy h]
  case left => rw [exec_jobDispatch he hs, (State.jNext_free h1 hj).1 x hx]
  case nothing => rw [exec_jobDispatch he hs, ((State.jNext_free h1 hj).2 hl).1 hp]
  case unread =>
    subst hh hu
    rw [exec_jobDispatch he hs, ((State.jNext_free h1 hj).2 hl).2 j hp, State.jDispatch_unread hr]
    rfl
  case ends =>
    subst hh hu
    rw [exec_jobDispatch he hs, ((State.jNext_free h1 hj).2 hl).2 j hp, State.jDispatch_over hr hst, if_neg hne]
    rfl
  case bad =>
    subst hh hu hone
    rw [exec_jobDispatch he hs, ((State.jNext_free h1 hj).2 hl).2 j hp, State.jDispatch_over hr hst, if_pos rfl]
    rfl
  case condemned => rw [exec_engineMismatch he hs, if_pos h2]
  case fourth => rw [exec_engineMismatch he hs, if_neg h2, State.jMismatch, if_pos ht]
  case again => exact ⟨s.jMismatch p e, by rw [exec_engineMismatch he hs, if_neg h2], State.jMismatch_again ht⟩
  case noCompress => exact exec_compress_idle he hs (State.jobOf_none hj)
  case noDecompress => exact exec_decompress_idle he hs (State.jobOf_none hj)
  case noPrismEnd =>
    change execPrismJobEnd e s = _
    simp only [execPrismJobEnd, forEngine_next he hs, hj]
  case prismRuns =>
    change execPrismJobEnd e s = _
    simp only [execPrismJobEnd, forEngine_next he hs, hj, hf]
  case decompress =>
    change execDecompress e s = _
    simp only [execDecompress, forEngine_next he hs, State.jobOf_some hj, ho, hf, Option.isNone_none, and_self, if_true]
  case compress => exact exec_compress_runs he hs ((State.jobOf_some hj).trans (if_pos ⟨ho, by simp [hf]⟩)) hh
  case noInput =>
    rw [exec_compress_runs he hs ((State.jobOf_some hj).trans (if_pos ⟨ho, by simp [hf]⟩)) hh, State.compressN_noInput _ h0 hl]
  case noRead =>
    rw [exec_compress_runs he hs ((State.jobOf_some hj).trans (if_pos ⟨ho, by simp [hf]⟩)) hh, State.compressN_unread _ h0 hr]
  case compressOver => exact exec_compress_idle he hs ((State.jobOf_some hj).trans (if_neg (by simp [hf])))
  case decompressOver => exact exec_decompress_idle he hs ((State.jobOf_some hj).trans (if_neg (by simp [hf])))
  case failed => exact (exec_prismJobEnd_some he hs hj hf).1 h0 hl
  case saved => exact ((exec_prismJobEnd_some he hs hj hf).2 h0).1 u hu
  case notSaved => exact ((exec_prismJobEnd_some he hs hj hf).2 h0).2 hu
  case noEncrypt => rw [exec_encrypt he hs, State.cipherRun_none _ hj]
  case noDecrypt => rw [exec_decrypt he hs, State.cipherRun_none _ hj]
  case noHash => rw [exec_hash he hs, State.cipherRun_none _ hj]
  case noGen => rw [exec_hmacGen he hs, State.cipherRun_none _ hj]
  case noVerify => rw [exec_hmacVerify he hs, State.cipherRun_none _ hj]
  case noCipherEnd =>
    change execCipherJobEnd e s = _
    simp only [execCipherJobEnd, forEngine_next he hs, hj]
  case cipherEnd =>
    change execCipherJobEnd e s = _
    simp only [execCipherJobEnd, forEngine_next he hs, hj, hf]
  case cipherRuns =>
    change execCipherJobEnd e s = _
    simp only [execCipherJobEnd, forEngine_next he hs, hj, hf]
  case encrypt => rw [exec_encrypt he hs, State.cipherRun_some _ hj hf ho]
  case decrypt => rw [exec_decrypt he hs, State.cipherRun_some _ hj hf ho]
  case hash => rw [exec_hash he hs, State.cipherRun_some _ hj hf ho]
  case gen => rw [exec_hmacGen he hs, State.cipherRun_some _ hj hf ho]
  case verify => rw [exec_hmacVerify he hs, State.cipherRun_some _ hj hf ho]
  case tagRight =>
    subst hout
    rw [exec_decrypt he hs, State.cipherRun_some _ hj hf ho, State.crypt_gcmEnd hmode hiv hin ha hd hg hw hm, if_pos h]
  case tagWrong =>
    subst hout
    rw [exec_decrypt he hs, State.cipherRun_some _ hj hf ho, State.crypt_gcmEnd hmode hiv hin ha hd hg hw hm, if_neg h, hv, Option.getD_some]

end Sys2Proof.Machine
end

section
/-! SUPPORT. Job rings and the key commands (12 R334, R355, R358, R360, R361), and the statement about them. -/

namespace Sys2Proof.Machine

open Sys2Proof.Safety

/-! ### Rings -/

/-- The doorbell command of a pool. -/
def doorbellOf (p : Pool) (m j : Nat) (v : BitVec 32) : Instr :=
  match p with | .prism => .prismDoorbell m j v | .cipher => .cipherDoorbell m j v

theorem exec_doorbellOf (p : Pool) (m j : Nat) (v : BitVec 32) (s : State) :
    (match p with | .prism => exec (.prismDoorbell m j v) s | .cipher => exec (.cipherDoorbell m j v) s) = exec (doorbellOf p m j v) s := by
  cases p <;> rfl

section
variable {s : State} {m j : Nat} {p : Pool} {nm : RegName} (hj : j < 36)
include hj

/-- A write of a tail by each of the doorbell commands. -/
theorem exec_doorbell {v : BitVec 32} (hn : p = .prism ∧ nm = .pjTail ∨ p = .cipher ∧ nm = .cjTail)
    (hr : reaches s m (jTail p j) 4 nm [j] = true) :
    exec (doorbellOf p m j v) s =
      .next ((s.jTailWrite p j m v.toNat).1.answer (if (s.jTailWrite p j m v.toNat).2 then .done else .busError)) := by
  have hv : v.toNat % 2 ^ (8 * 4) = v.toNat := Nat.mod_eq_of_lt v.isLt
  obtain ⟨rfl, rfl⟩ | ⟨rfl, rfl⟩ := hn
  · exact regCmd_write (decide_eq_true hj) hr fun _ _ => by rw [hv]; rfl
  · exact regCmd_write (decide_eq_true hj) hr fun _ _ => by rw [hv]; rfl

theorem exec_jobRingEnable (hn : p = .prism ∧ nm = .pjCfg ∨ p = .cipher ∧ nm = .cjCfg) (hr : reaches s m (jCfg p j) 8 nm [j] = true) :
    exec (.jobRingEnable m p j) s = .next ((s.jCfgWrite p j (setBit (s.reg (jCfg p j)) 63 true)).answer .done) := by
  have hv : setBit (s.reg (jCfg p j)) 63 true % 2 ^ (8 * 8) = setBit (s.reg (jCfg p j)) 63 true :=
    Nat.mod_eq_of_lt (setBit_lt (s.reg_lt _) (by decide))
  obtain ⟨rfl, rfl⟩ | ⟨rfl, rfl⟩ := hn
  · exact regCmd_write (decide_eq_true hj) hr (ok := true) fun _ _ => by rw [hv]; rfl
  · exact regCmd_write (decide_eq_true hj) hr (ok := true) fun _ _ => by rw [hv]; rfl

theorem exec_jobRingDisable (hn : p = .prism ∧ nm = .pjCfg ∨ p = .cipher ∧ nm = .cjCfg) (hr : reaches s m (jCfg p j) 8 nm [j] = true) :
    exec (.jobRingDisable m p j) s = .next ((s.jCfgWrite p j (setBit (s.reg (jCfg p j)) 63 false)).answer .done) := by
  have hv : setBit (s.reg (jCfg p j)) 63 false % 2 ^ (8 * 8) = setBit (s.reg (jCfg p j)) 63 false :=
    Nat.mod_eq_of_lt (setBit_lt (s.reg_lt _) (by decide))
  obtain ⟨rfl, rfl⟩ | ⟨rfl, rfl⟩ := hn
  · exact regCmd_write (decide_eq_true hj) hr (ok := true) fun _ _ => by rw [hv]; rfl
  · exact regCmd_write (decide_eq_true hj) hr (ok := true) fun _ _ => by rw [hv]; rfl

end

/-- A ring's configuration put on while the ring is off: owner and width are kept (12 R360). -/
theorem State.jCfgWrite_on {s : State} {p : Pool} {j v : Nat} (h : s.jOn p j = false) (hv : bitOf v 63 = true) :
    (s.jCfgWrite p j v).jOn p j = true ∧ (s.jCfgWrite p j v).jOwner p j = bits v 50 12 ∧
      (s.jCfgWrite p j v).jWidth p j = bits v 46 4 + 1 ∧ (s.jCfgWrite p j v).mem = s.mem := by
  have h63 : bits v 63 1 = 1 := by
    rw [bits]
    simpa [bitOf] using hv
  have ha := bits_lt v 46 16
  have hb := bits_lt v 24 18
  have h50 : bits v 50 12 = bits v 46 16 / 2 ^ 4 := by
    rw [bits, bits]
    omega
  have h46 : bits v 46 4 = bits v 46 16 % 2 ^ 4 := by
    rw [bits, bits]
    omega
  have hw : s.jCfgWrite p j v = s.setReg (jCfg p j) (bits v 63 1 * 2 ^ 63 + bits v 46 16 * 2 ^ 46 + bits v 24 18 * 2 ^ 24) := by
    rw [State.jCfgWrite, if_neg (by simp [h])]
  rw [hw, State.jOn, State.jOwner, State.jWidth, State.setReg_flag _ _ (by decide), State.setReg_fld _ _ (by decide),
    State.setReg_fld _ _ (by decide), h63, h50, h46]
  generalize bits v 46 16 = a at *
  generalize bits v 24 18 = b at *
  rw [bitOf, bits, bits, beq_iff_eq]
  exact ⟨by omega, by omega, by omega, rfl⟩

/-! ### Key commands -/

theorem keyRegs_apart (slot i : Nat) : Off.keyCmd ≠ Off.keyStat slot ∧ (i < 8 → Off.keyData i ≠ Off.keyStat slot ∧ Off.keyCmd ≠ Off.keyData i) := by
  unfold Off.keyCmd Off.keyStat Off.keyData
  omega

theorem keyData_injective : Function.Injective Off.keyData := fun a b h => by
  unfold Off.keyData at h
  omega

/-- A fold of steps keeps what each step keeps. -/
theorem State.foldl_kept {α β : Type} {P : State → β} {g : State → α → State} (h : ∀ u i, P (g u i) = P u) (ls : List α) (s : State) :
    P (ls.foldl g s) = P s := by
  induction ls generalizing s with
  | nil => rfl
  | cons i is ih => rw [List.foldl_cons, ih, h]

/-- A fold of steps of which none over its list changes a register keeps it. -/
theorem State.foldl_reg_mem {g : State → Nat → State} {a : Nat} {ls : List Nat} (h : ∀ u, ∀ i ∈ ls, (g u i).reg a = u.reg a) (s : State) :
    (ls.foldl g s).reg a = s.reg a := by
  induction ls generalizing s with
  | nil => rfl
  | cons i is ih =>
    obtain ⟨hi, his⟩ := And.intro (fun u => h u i List.mem_cons_self) (fun u k (hk : k ∈ is) => h u k (List.mem_cons_of_mem i hk))
    rw [List.foldl_cons, ih his, hi]

/-- KEY_DATA is wiped, and nothing else (12 R355). -/
theorem State.keyWipe_data (s : State) {i : Nat} (h : i < 8) : s.keyWipe.reg (Off.keyData i) = 0 := by
  exact (State.foldl_setReg keyData_injective _ s i).trans (if_pos (List.mem_range.2 h))

theorem State.keyWipe_keyStat (s : State) (slot : Nat) : s.keyWipe.reg (Off.keyStat slot) = s.reg (Off.keyStat slot) := by
  refine State.foldl_reg_mem (fun u i hi => ?_) s
  exact State.setReg_reg_other _ _ ((keyRegs_apart slot i).2 (List.mem_range.1 hi)).1

theorem State.keyWipe_others (s : State) : s.keyWipe.mem = s.mem ∧ s.keyWipe.pools = s.pools :=
  ⟨State.foldl_kept (P := State.mem) (g := fun u i => u.setReg (Off.keyData i) 0) (fun _ _ => rfl) _ _,
    State.foldl_kept (P := State.pools) (g := fun u i => u.setReg (Off.keyData i) 0) (fun _ _ => rfl) _ _⟩

/-- The end of a key command: its result in KEY_CMD, KEY_DATA zero. -/
def State.keyEnd (s : State) (v : Nat) : State := s.keyWipe.setReg Off.keyCmd v

section
variable (s : State) (v : Nat)

theorem State.keyEnd_mem : (s.keyEnd v).mem = s.mem := s.keyWipe_others.1

theorem State.keyEnd_pools : (s.keyEnd v).pools = s.pools := s.keyWipe_others.2

theorem State.keyEnd_data {i : Nat} (h : i < 8) : (s.keyEnd v).reg (Off.keyData i) = 0 :=
  (State.setReg_reg_other _ _ ((keyRegs_apart 0 i).2 h).2).trans (s.keyWipe_data h)

theorem State.keyEnd_keyStat (slot : Nat) : (s.keyEnd v).reg (Off.keyStat slot) = s.reg (Off.keyStat slot) :=
  (State.setReg_reg_other _ _ (keyRegs_apart slot 0).1).trans (s.keyWipe_keyStat slot)

theorem State.keyEnd_result {r : Nat} (hr : r < 8) (a b : Nat) (hb : b < 2 ^ 48) : (s.keyEnd (a * 2 ^ 60 + b + r * 2 ^ 48)).fld Off.keyCmd 48 3 = r := by
  rw [State.keyEnd, State.setReg_fld _ _ (by decide), bits]
  omega

end

/-- The fields of KEY_CMD. -/
structure KeyFields (v cmd slot typ len owner : Nat) (pu : Bool) : Prop where
  cmdField : bits v 60 3 = cmd
  slotField : bits v 0 10 = slot
  ownerField : bits v 16 12 = owner
  typField : bits v 36 3 = typ
  lenField : bits v 40 7 = len
  typLen : bits v 36 11 = len * 16 + typ
  reserved : bits v 39 1 = 0
  useField : bits v 33 1 = bit01 pu
  useBit : bitOf v 33 = pu
  go : bitOf v 63 = true

/-- The value that a key command writes. -/
theorem keyFields {cmd : Nat} (hc : cmd < 8) (slot : BitVec 10) (typ : BitVec 3) (len : BitVec 7) (owner : BitVec 12) (pu : Bool) :
    KeyFields (2 ^ 63 + cmd * 2 ^ 60 + len.toNat * 2 ^ 40 + typ.toNat * 2 ^ 36 + bit01 pu * 2 ^ 33 + owner.toNat * 65536 + slot.toNat)
      cmd slot.toNat typ.toNat len.toNat owner.toNat pu := by
  have h1 := slot.isLt
  have h2 := typ.isLt
  have h3 := len.isLt
  have h4 := owner.isLt
  have h5 := bit01_le pu
  have h6 := bit01_beq pu
  generalize hb : bit01 pu = b at *
  refine ⟨?_, ?_, ?_, ?_, ?_, ?_, ?_, ?_, ?useBit, ?go⟩
  case useBit => exact (congrArg (· == 1) (by omega)).trans h6
  case go => exact beq_iff_eq.2 (by omega)
  all_goals
    rw [bits]
    omega

section
variable {s u : State} {v slot typ len owner : Nat} {pu : Bool}

/-- KEY_CMD after the write of a command, before it runs. -/
def State.keyPosted (s : State) (cmd slot typ len owner : Nat) (pu : Bool) : State :=
  s.setReg Off.keyCmd (cmd * 2 ^ 60 + s.fld Off.keyCmd 48 3 * 2 ^ 48 + len * 2 ^ 40 + typ * 2 ^ 36 + bit01 pu * 2 ^ 33 + owner * 65536 + slot)

theorem State.keyCmdWrite_posted {cmd : Nat} (h : KeyFields v cmd slot typ len owner pu) :
    s.keyCmdWrite v = (s.keyPosted cmd slot typ len owner pu).keyCommand v := by
  obtain ⟨h1, h2, h3, h4, h5, h6, h7, h8, h9, h10⟩ := h
  rw [State.keyCmdWrite, if_pos h10, State.keyCmdWrite.bitOf39, h1, h2, h3, h6, h7, h8, State.keyPosted]
  have hv (x : Nat) : cmd * 2 ^ 60 + x * 2 ^ 48 + (len * 16 + typ) * 2 ^ 36 - 0 * 2 ^ 39 = cmd * 2 ^ 60 + x * 2 ^ 48 + len * 2 ^ 40 + typ * 2 ^ 36 := by
    omega
  rw [hv]

/-- What a command leaves in KEY_CMD, but for its result. -/
def keyKeep (cmd slot typ len owner : Nat) (pu : Bool) : Nat :=
  cmd * 2 ^ 60 + len * 2 ^ 40 + typ * 2 ^ 36 + bit01 pu * 2 ^ 33 + owner * 65536 + slot

theorem State.keyCommand_load (h : KeyFields v 1 slot typ len owner pu) : u.keyCommand v =
    (if u.keyLoadResult slot typ len owner (u.keyData len) = 0 then u.keyPut slot typ len owner pu (u.keyData len) else u).keyEnd
      (keyKeep 1 slot typ len owner pu + u.keyLoadResult slot typ len owner (u.keyData len) * 2 ^ 48) := by
  obtain ⟨h1, h2, h3, h4, h5, h6, h7, h8, h9, h10⟩ := h
  simp only [State.keyCommand, h1, h2, h3, h4, h5, h8, h9]
  rfl

theorem State.keyCommand_clear (h : KeyFields v 2 slot typ len owner pu) : u.keyCommand v =
    if u.flag (Off.keyStat slot) 30 then u.keyEnd (keyKeep 2 slot typ len owner pu + 1 * 2 ^ 48)
    else ((u.setReg (Off.keyStat slot) 0).onPools fun x => { x with keys := tblErase x.keys slot }).keyEnd
      (keyKeep 2 slot typ len owner pu + 0 * 2 ^ 48) := by
  obtain ⟨h1, h2, h3, h4, h5, h6, h7, h8, h9, h10⟩ := h
  simp only [State.keyCommand, h1, h2, h3, h4, h5, h8]
  rfl

theorem State.keyCommand_lock (h : KeyFields v 3 slot typ len owner pu) : u.keyCommand v =
    (u.setFlag (Off.keyStat slot) 30 true).keyEnd (keyKeep 3 slot typ len owner pu + 0 * 2 ^ 48) := by
  obtain ⟨h1, h2, h3, h4, h5, h6, h7, h8, h9, h10⟩ := h
  simp only [State.keyCommand, h1, h2, h3, h4, h5, h8]
  rfl

variable (s) (cmd : Nat)

/-- The write of KEY_CMD touches no slot and no key. -/
theorem State.keyPosted_keyStat (k : Nat) : (s.keyPosted cmd slot typ len owner pu).reg (Off.keyStat k) = s.reg (Off.keyStat k) :=
  State.setReg_reg_other _ _ (keyRegs_apart k 0).1

theorem State.keyPosted_keyData (n : Nat) : (s.keyPosted cmd slot typ len owner pu).keyData n = s.keyData n := by
  have h (i : Nat) (hi : i ∈ List.range 8) :
      natBytes 8 ((s.keyPosted cmd slot typ len owner pu).reg (Off.keyData i)) = natBytes 8 (s.reg (Off.keyData i)) := by
    rw [State.keyPosted, State.setReg_reg_other _ _ ((keyRegs_apart 0 i).2 (List.mem_range.1 hi)).2]
  rw [State.keyData, State.keyData, List.flatMap_def, List.flatMap_def, List.map_congr_left h]

theorem State.keyPosted_result (k ty ln ow : Nat) (key : List Byte) :
    (s.keyPosted cmd slot typ len owner pu).keyLoadResult k ty ln ow key = s.keyLoadResult k ty ln ow key := by
  rw [State.keyLoadResult, State.keyLoadResult, State.keyPosted_keyStat]

end

/-- The bits of KEY_CMD that a command without a key keeps. -/
theorem keyKeep_bare (cmd : Nat) (slot : BitVec 10) : keyKeep cmd slot.toNat 0 0 0 false = cmd * 2 ^ 60 + slot.toNat := by
  rw [keyKeep]
  simp [bit01]

/-- A write of KEY_CMD with go is its command. -/
theorem regCmd_keyCmd {s : State} {m v cmd slot typ len owner : Nat} {pu : Bool} (hr : reaches s m Off.keyCmd 8 .keyCmd [] = true) (hv : v < 2 ^ 64)
    (h : KeyFields v cmd slot typ len owner pu) :
    regCmd true m Off.keyCmd 8 v s = .next (((s.keyPosted cmd slot typ len owner pu).keyCommand v).answer .done) := by
  refine regCmd_write rfl hr (ok := true) fun _ _ => congrArg (·, true) ?_
  rw [Nat.mod_eq_of_lt hv, State.keyCmdWrite_posted h]

theorem keyFields_bare {cmd : Nat} (hc : cmd < 8) (slot : BitVec 10) : KeyFields (2 ^ 63 + cmd * 2 ^ 60 + slot.toNat) cmd slot.toNat 0 0 0 false := by
  have e : 2 ^ 63 + cmd * 2 ^ 60 + slot.toNat =
      2 ^ 63 + cmd * 2 ^ 60 + 0 * 2 ^ 40 + 0 * 2 ^ 36 + 0 * 2 ^ 33 + 0 * 65536 + slot.toNat := by omega
  rw [e]
  exact keyFields hc slot 0 0 0 false

/-- CLEAR: a locked slot stays, and the result is LOCKED; else the slot and its key are gone (12 R355). -/
theorem State.keyClear_effect (s : State) (slot : BitVec 10) {t : State}
    (ht : t = (s.keyPosted 2 slot.toNat 0 0 0 false).keyCommand (2 ^ 63 + 2 * 2 ^ 60 + slot.toNat)) :
    t.mem = s.mem ∧ (∀ i : Nat, i < 8 → t.reg (Off.keyData i) = 0) ∧
    (s.flag (Off.keyStat slot.toNat) 30 = true → t.reg (Off.keyStat slot.toNat) = s.reg (Off.keyStat slot.toNat) ∧
      t.pools.keys = s.pools.keys ∧ t.fld Off.keyCmd 48 3 = 1) ∧
    (s.flag (Off.keyStat slot.toNat) 30 = false → t.reg (Off.keyStat slot.toNat) = 0 ∧
      t.pools.keys = tblErase s.pools.keys slot.toNat ∧ t.fld Off.keyCmd 48 3 = 0) := by
  have h1 := slot.isLt
  have hp := s.keyPosted_keyStat (slot := slot.toNat) (typ := 0) (len := 0) (owner := 0) (pu := false) 2 slot.toNat
  have hf : (s.keyPosted 2 slot.toNat 0 0 0 false).flag (Off.keyStat slot.toNat) 30 = s.flag (Off.keyStat slot.toNat) 30 := congrArg (bitOf · 30) hp
  rw [State.keyCommand_clear (keyFields_bare (by decide) slot), hf, keyKeep_bare] at ht
  cases hl : s.flag (Off.keyStat slot.toNat) 30 with
  | true =>
    rw [hl, if_pos rfl] at ht
    subst ht
    refine ⟨State.keyEnd_mem .., fun i hi => State.keyEnd_data _ _ hi, fun _ => ⟨(State.keyEnd_keyStat ..).trans hp, ?_,
      State.keyEnd_result _ (by decide) _ _ (by omega)⟩, fun h => Bool.noConfusion h⟩
    rw [State.keyEnd_pools]
    rfl
  | false =>
    rw [hl, if_neg Bool.false_ne_true] at ht
    subst ht
    refine ⟨State.keyEnd_mem .., fun i hi => State.keyEnd_data _ _ hi, fun h => Bool.noConfusion h, fun _ => ⟨(State.keyEnd_keyStat ..).trans ?_, ?_,
      State.keyEnd_result _ (by decide) _ _ (by omega)⟩⟩
    · exact (State.setReg_reg_same ..).trans (Nat.zero_mod _)
    · rw [State.keyEnd_pools]
      rfl

/-- LOCK (12 R355). -/
theorem State.keyLock_effect (s : State) (slot : BitVec 10) {t : State}
    (ht : t = (s.keyPosted 3 slot.toNat 0 0 0 false).keyCommand (2 ^ 63 + 3 * 2 ^ 60 + slot.toNat)) :
    t.mem = s.mem ∧ t.flag (Off.keyStat slot.toNat) 30 = true ∧ (∀ i : Nat, i < 8 → t.reg (Off.keyData i) = 0) ∧ t.pools.keys = s.pools.keys := by
  rw [State.keyCommand_lock (keyFields_bare (by decide) slot)] at ht
  subst ht
  refine ⟨State.keyEnd_mem .., ?_, fun i hi => State.keyEnd_data _ _ hi, ?_⟩
  · rw [State.flag, State.keyEnd_keyStat]
    exact (State.setFlag_flag _ _ _ _ (by decide)).trans (if_pos rfl)
  · rw [State.keyEnd_pools]
    rfl

section
variable {s : State} {m : Nat} (hr : reaches s m Off.keyCmd 8 .keyCmd [] = true) (slot : BitVec 10)
include hr

theorem exec_keyCmdClear : exec (.keyCmdClear m slot) s =
    .next (((s.keyPosted 2 slot.toNat 0 0 0 false).keyCommand (2 ^ 63 + 2 * 2 ^ 60 + slot.toNat)).answer .done) := by
  have h1 := slot.isLt
  exact regCmd_keyCmd hr (by omega) (keyFields_bare (by decide) slot)

theorem exec_keyCmdLock : exec (.keyCmdLock m slot) s =
    .next (((s.keyPosted 3 slot.toNat 0 0 0 false).keyCommand (2 ^ 63 + 3 * 2 ^ 60 + slot.toNat)).answer .done) := by
  have h1 := slot.isLt
  exact regCmd_keyCmd hr (by omega) (keyFields_bare (by decide) slot)

variable (typ : BitVec 3) (len : BitVec 7) (owner : BitVec 12) (pu : Bool)

theorem exec_keyCmdLoad {u : State} (hu : u = s.keyPosted 1 slot.toNat typ.toNat len.toNat owner.toNat pu) {r : Nat}
    (hres : r = s.keyLoadResult slot.toNat typ.toNat len.toNat owner.toNat (s.keyData len.toNat)) :
    exec (.keyCmdLoad m slot typ len owner pu) s = .next (((if r = 0 then
      u.keyPut slot.toNat typ.toNat len.toNat owner.toNat pu (u.keyData len.toNat) else u).keyEnd
        (keyKeep 1 slot.toNat typ.toNat len.toNat owner.toNat pu + r * 2 ^ 48)).answer .done) := by
  have h1 := slot.isLt
  have h2 := typ.isLt
  have h3 := len.isLt
  have h4 := owner.isLt
  have h5 := bit01_le pu
  have hf := keyFields (cmd := 1) (by decide) slot typ len owner pu
  rw [Nat.one_mul] at hf
  refine (regCmd_keyCmd hr (by omega) hf).trans ?_
  rw [State.keyCommand_load hf, State.keyPosted_keyData, State.keyPosted_result, ← hres, hu, State.keyPosted_keyData]

end

/-- Settles O46: the write of each register by its own rule, and each key command by its cases. -/
theorem jobRingsAndKeys : Obligations.JobRingsAndKeys := by
  intro s m j hj
  refine ⟨fun p nm v hn hr r hx => ⟨fun ho => ?bad, fun ho hc => ?beyond, fun ho hc => ?posts⟩,
    fun p nm hn hr => ⟨fun h => ⟨?stays, ?disable⟩, fun h => ?enable⟩,
    fun hr slot => ⟨fun typ len owner pu r u hu hres => ?load, ?clear, ?lock⟩⟩
  case bad =>
    rw [hx.trans (exec_doorbellOf p m j v s), exec_doorbell hj hn hr, State.jTailWrite, if_pos ho]
    rfl
  case beyond =>
    rw [hx.trans (exec_doorbellOf p m j v s), exec_doorbell hj hn hr, State.jTailWrite, if_neg (Classical.not_not.2 ho), if_pos hc]
    rfl
  case posts =>
    rw [hx.trans (exec_doorbellOf p m j v s), exec_doorbell hj hn hr, State.jTailWrite, if_neg (Classical.not_not.2 ho), if_neg (Nat.not_lt.2 hc), Nat.mod_eq_of_lt v.isLt]
    rfl
  case stays => rw [exec_jobRingEnable hj hn hr, State.jCfgWrite, if_pos h, if_pos (by rw [bitOf_setBit, if_pos rfl])]
  case disable => rw [exec_jobRingDisable hj hn hr, State.jCfgWrite, if_pos h, if_neg (by rw [bitOf_setBit, if_pos rfl]; decide)]
  case enable =>
    have h63 : bitOf (setBit (s.reg (jCfg p j)) 63 true) 63 = true := by rw [bitOf_setBit, if_pos rfl]
    obtain ⟨hon, how, hwd, hmem⟩ := State.jCfgWrite_on h h63
    rw [bits_setBit_other (by decide)] at how hwd
    exact ⟨_, exec_jobRingEnable hj hn hr, hon, how, hwd, hmem⟩
  case load =>
    rw [exec_keyCmdLoad hr slot typ len owner pu (u := u) ?_ hres, State.keyEnd, keyKeep, Nat.one_mul]
    rw [hu, State.keyPosted, Nat.one_mul]
  case clear =>
    have h := s.keyClear_effect slot rfl
    exact ⟨_, exec_keyCmdClear hr slot, h⟩
  case lock =>
    have h := s.keyLock_effect slot rfl
    exact ⟨_, exec_keyCmdLock hr slot, h⟩

end Sys2Proof.Machine
end

section
/-! SUPPORT. The mailboxes and doorbells (13 R363 to R377, 14 R384), and the statement about them. -/

namespace Sys2Proof.Machine

open Sys2Proof.Safety

/-! ### Posting -/

theorem State.countHub_regs (s : State) (p i k : Nat) : (s.countHub p i k).regs = s.regs := by
  rw [State.countHub, State.count]
  (repeat' split) <;> rfl

theorem State.countHub_chans (s : State) (p i k : Nat) : (s.countHub p i k).chans = s.chans := by
  rw [State.countHub, State.count]
  (repeat' split) <;> rfl

section
variable {s : State} {ch : Nat} {block : Bool}

theorem State.mbxPost_incomplete (h : (s.chan ch).staging.length < 8) :
    s.mbxPost ch block = (s.onChan ch fun c => { c with staging := [] }).postCode ch 3 := by
  rw [State.mbxPost]
  exact if_pos h

variable (h : 8 ≤ (s.chan ch).staging.length)
include h

theorem State.mbxPost_long (hl : 56 < bits ((s.chan ch).words.headD 0).toNat 44 6) :
    s.mbxPost ch block = (s.onChan ch fun c => { c with staging := [] }).postCode ch 4 := by
  rw [State.mbxPost]
  exact (if_neg (Nat.not_lt.2 h)).trans (if_pos hl)

variable (hl : bits ((s.chan ch).words.headD 0).toNat 44 6 ≤ 56)
include hl

theorem State.mbxPost_closed (hv : s.bindValid ch = false) :
    s.mbxPost ch block = (s.onChan ch fun c => { c with staging := [] }).postCode ch 5 := by
  rw [State.mbxPost]
  exact (if_neg (Nat.not_lt.2 h)).trans ((if_neg (Nat.not_lt.2 hl)).trans (if_pos (by simp [hv])))

variable (hv : s.bindValid ch = true)
include hv

theorem State.mbxPost_accepted (hs : (s.chan ch).store.length < 8) :
    s.mbxPost ch block = (s.onChan ch fun c => { c with staging := [] }).chanPut ch (s.chan ch).words := by
  rw [State.mbxPost]
  exact (if_neg (Nat.not_lt.2 h)).trans ((if_neg (Nat.not_lt.2 hl)).trans ((if_neg (by simp [hv])).trans (if_pos hs)))

/-- A full store: FULL, or a blocking post that waits (13 R367, R368). -/
theorem State.mbxPost_full (hs : 8 ≤ (s.chan ch).store.length) : s.mbxPost ch block =
    if block then ((s.onChan ch fun c => { c with staging := [] }).onChan ch fun c => { c with blocking := some (s.chan ch).words }).countHub 2 1 1
    else ((s.onChan ch fun c => { c with staging := [] }).postCode ch 1).countHub 2 1 1 := by
  rw [State.mbxPost]
  exact (if_neg (Nat.not_lt.2 h)).trans ((if_neg (Nat.not_lt.2 hl)).trans ((if_neg (by simp [hv])).trans (if_neg (Nat.not_lt.2 hs))))

end

section
variable {s : State} {m ch : Nat} (hc : ch < 4096)
include hc

theorem exec_mbxTxWrite {i : Nat} {v : BitVec 64} (hi : i < 8) (hr : reaches s m (Off.mbxTx ch i) 8 .mbxTx [ch, i] = true) :
    exec (.mbxTxWrite m ch i v) s = .next ((s.mbxTx ch i v.toNat).answer .done) := by
  refine regCmd_write (by rw [decide_eq_true hc, decide_eq_true hi]; rfl) hr (ok := true) fun _ _ => congrArg (·, true) ?_
  exact congrArg (s.mbxTx ch i) (Nat.mod_eq_of_lt v.isLt)

theorem exec_post (hr : reaches s m (Off.mbxPost ch) 4 .mbxPost [ch] = true) :
    exec (.post m ch) s = .next ((s.mbxPost ch false).answer .done) :=
  regCmd_write (decide_eq_true hc) hr (ok := true) fun _ _ => congrArg (·, true) (congrArg (s.mbxPost ch) rfl)

theorem exec_blockingPost (hr : reaches s m (Off.mbxPost ch) 4 .mbxPost [ch] = true) (w : BitVec 20) :
    exec (.blockingPost m ch w) s = .next ((s.mbxPost ch true).answer .done) := by
  refine regCmd_write (decide_eq_true hc) hr (ok := true) fun _ _ => congrArg (·, true) (congrArg (s.mbxPost ch) ?_)
  have hw := w.isLt
  rw [bitOf, beq_iff_eq]
  omega

theorem exec_pop (hr : reaches s m (Off.mbxPop ch) 4 .mbxPop [ch] = true) (v : BitVec 32) :
    exec (.pop m ch v) s = .next ((s.mbxPopWith m ch v.toNat).answer .done) := by
  refine regCmd_write (decide_eq_true hc) hr (ok := true) fun _ _ => congrArg (·, true) ?_
  exact congrArg (s.mbxPopWith m ch) (Nat.mod_eq_of_lt v.isLt)

theorem exec_bindWrite (hr : reaches s m (Off.mbxBind ch) 8 .mbxBind [ch] = true) (v : BitVec 64) :
    exec (.bindWrite m ch v) s = .next ((s.mbxBindWrite ch v.toNat).answer .done) := by
  refine regCmd_write (decide_eq_true hc) hr (ok := true) fun _ _ => congrArg (·, true) ?_
  exact congrArg (s.mbxBindWrite ch) (Nat.mod_eq_of_lt v.isLt)

end

theorem State.mbxTx_chan (s : State) (ch i v : Nat) : (s.mbxTx ch i v).chan ch =
    { s.chan ch with staging := tblSet (s.chan ch).staging i (BitVec.ofNat 64 (if i = 0 then v / 2 ^ 44 * 2 ^ 44 else v)) } :=
  State.onChan_chan_same ..

/-- The end of a blocking post's timeout (13 R367). -/
theorem State.mbxAbandon_timeout {s : State} {ch : Nat} (h : (s.chan ch).blocking ≠ none) : ((s.mbxAbandon ch 2).chan ch).blocking = none ∧
    (s.mbxAbandon ch 2).fld (Off.mbxPostStat ch) 0 4 = 2 ∧ ((s.mbxAbandon ch 2).chan ch).store = (s.chan ch).store ∧
    (s.mbxAbandon ch 2).mem = s.mem := by
  have ha : s.mbxAbandon ch 2 = ((s.onChan ch fun c => { c with blocking := none }).postCode ch 2).countHub 2 2 1 := by
    rw [State.mbxAbandon]
    exact if_pos (Option.isSome_iff_ne_none.2 h)
  have hc : ((s.mbxAbandon ch 2).chan ch) = { s.chan ch with blocking := none } := by
    rw [ha, State.chan, State.countHub_chans]
    exact tblGetD_tblSet_same s.chans ch ({ s.chan ch with blocking := none } : Chan) Chan.empty
  refine ⟨by rw [hc], ?_, by rw [hc], by rw [ha]; exact (Told.count ..).mem⟩
  rw [ha, State.fld, State.reg_of_regs (State.countHub_regs ..)]
  refine (State.setReg_fld _ _ (by decide)).trans ?_
  rw [bits]
  omega

/-! ### Receiving and binding -/

theorem State.mbxPopWith_empty {s : State} {m ch v : Nat} (h : (s.chan ch).store = []) : s.mbxPopWith m ch v = s.mbxErrLog ch 2 m := by
  simp only [State.mbxPopWith, h]

theorem State.mbxPopWith_other {s : State} {m ch v : Nat} {x : Msg} {rest : List Msg} (h : (s.chan ch).store = x :: rest)
    (hv : x.seq ≠ v % 65536) : s.mbxPopWith m ch v = s.mbxErrLog ch 2 m := by
  simp only [State.mbxPopWith, h, hv, if_false]

theorem State.mbxPopWith_head {s : State} {m ch v : Nat} {x : Msg} {rest : List Msg} (h : (s.chan ch).store = x :: rest)
    (hv : x.seq = v % 65536) :
    ((s.chan ch).blocking = none → s.mbxPopWith m ch v = s.onChan ch fun c => { c with store := rest }) ∧
    (∀ ws : List (BitVec 64), (s.chan ch).blocking = some ws → s.mbxPopWith m ch v =
      ((s.onChan ch fun c => { c with store := rest }).onChan ch fun c => { c with blocking := none }).chanPut ch ws) := by
  refine ⟨fun hb => ?_, fun ws hb => ?_⟩
  · simp only [State.mbxPopWith, h, hv, hb, if_true]
  · simp only [State.mbxPopWith, h, hv, hb, if_true]

theorem mbxRegs_apart (ch : Nat) : Off.mbxPostStat ch ≠ Off.mbxBind ch := by
  unfold Off.mbxPostStat Off.mbxBind
  omega

theorem State.mbxAbandon_bind (s : State) (ch code : Nat) : (s.mbxAbandon ch code).reg (Off.mbxBind ch) = s.reg (Off.mbxBind ch) ∧
    (s.mbxAbandon ch code).mem = s.mem := by
  rw [State.mbxAbandon]
  split
  · rw [State.reg_of_regs (State.countHub_regs ..)]
    exact ⟨State.setReg_reg_other _ _ (mbxRegs_apart ch), (Told.count ..).mem⟩
  · exact ⟨rfl, rfl⟩

/-- The binding that a write leaves of a channel that is not locked (13 R363): valid and the doorbell as written, sender and receiver
only where the store is empty. -/
def State.bindTaken (s : State) (ch v : Nat) : Nat :=
  let keep := !(s.chan ch).store.isEmpty
  bits v 62 1 * 2 ^ 62 + bits v 32 5 * 2 ^ 32 + (if keep then bits (s.reg (Off.mbxBind ch)) 16 12 else bits v 16 12) * 65536 +
    (if keep then bits (s.reg (Off.mbxBind ch)) 0 12 else bits v 0 12)

theorem State.mbxBindWrite_open {s : State} {ch v : Nat} (h : s.flag (Off.mbxBind ch) 63 = false) (hv : bitOf v 63 = false) :
    (s.mbxBindWrite ch v).reg (Off.mbxBind ch) = s.bindTaken ch v % 2 ^ 64 ∧ (s.mbxBindWrite ch v).mem = s.mem := by
  have hw : s.mbxBindWrite ch v = if !(s.setReg (Off.mbxBind ch) (s.bindTaken ch v)).bindValid ch then
      (s.setReg (Off.mbxBind ch) (s.bindTaken ch v)).mbxAbandon ch 5 else s.setReg (Off.mbxBind ch) (s.bindTaken ch v) := by
    rw [State.mbxBindWrite]
    exact (if_neg (fun e => Bool.false_ne_true (h.symm.trans e))).trans (if_neg (by simp [hv]))
  rw [hw]
  split
  · obtain ⟨h1, h2⟩ := (s.setReg (Off.mbxBind ch) (s.bindTaken ch v)).mbxAbandon_bind ch 5
    exact ⟨h1.trans (State.setReg_reg_same ..), h2⟩
  · exact ⟨State.setReg_reg_same .., rfl⟩

/-- The fields of the binding taken. -/
theorem State.bindTaken_fields (s : State) (ch v : Nat) : bitOf (s.bindTaken ch v) 62 = bitOf v 62 ∧ bits (s.bindTaken ch v) 32 5 = bits v 32 5 ∧
    bits (s.bindTaken ch v) 16 12 = (if (s.chan ch).store = [] then bits v 16 12 else bits (s.reg (Off.mbxBind ch)) 16 12) ∧
    bits (s.bindTaken ch v) 0 12 = (if (s.chan ch).store = [] then bits v 0 12 else bits (s.reg (Off.mbxBind ch)) 0 12) := by
  have hk (a b : Nat) : (if !(s.chan ch).store.isEmpty then a else b) = if (s.chan ch).store = [] then b else a := by
    cases (s.chan ch).store <;> simp
  have hr := bits_lt v 16 12
  have hs := bits_lt v 0 12
  have hr' := bits_lt (s.reg (Off.mbxBind ch)) 16 12
  have hs' := bits_lt (s.reg (Off.mbxBind ch)) 0 12
  have hrcv : (if (s.chan ch).store = [] then bits v 16 12 else bits (s.reg (Off.mbxBind ch)) 16 12) < 4096 := by (repeat' split) <;> omega
  have hsnd : (if (s.chan ch).store = [] then bits v 0 12 else bits (s.reg (Off.mbxBind ch)) 0 12) < 4096 := by (repeat' split) <;> omega
  have h5 := bits_lt v 32 5
  have h1 := bits_lt v 62 1
  have hb : bitOf v 62 = (bits v 62 1 == 1) := rfl
  unfold State.bindTaken
  simp only [hk]
  rw [hb]
  generalize (if (s.chan ch).store = [] then bits v 16 12 else bits (s.reg (Off.mbxBind ch)) 16 12) = rcv at *
  generalize (if (s.chan ch).store = [] then bits v 0 12 else bits (s.reg (Off.mbxBind ch)) 0 12) = snd at *
  generalize bits v 32 5 = d at *
  generalize bits v 62 1 = x at *
  rw [bitOf, bits, bits, bits]
  exact ⟨congrArg (· == 1) (by omega), by omega, by omega, by omega⟩

/-! ### Doorbells -/

theorem masterLp_slot {n : Nat} (h : n < 96) : masterLp (0x100 + n) = some n := by
  rw [masterLp, if_pos (by omega), Nat.add_sub_cancel_left]

theorem masterLp_cp {i : Nat} (h : i < 2) : masterLp (0x200 + i) = some (96 + i) := by
  rw [masterLp, if_neg (by omega), if_pos (by omega), Nat.add_sub_cancel_left]

theorem dbOffsets_host {f : Nat} (h : f < 64) : dbOffsets f = some (Off.dbPendHf f, Off.dbMaskHf f) := by
  rw [dbOffsets, if_pos h]

theorem dbOffsets_slot {c k : Nat} (hc : c < 16) (hk : k < 6) : dbOffsets (0x100 + 6 * c + k) = some (Off.dbPendLp c k, Off.dbMaskLp c k) := by
  have hn : 6 * c + k < 96 := by omega
  have hd : (6 * c + k) / 6 = c := by omega
  have hm : (6 * c + k) % 6 = k := by omega
  rw [dbOffsets, if_neg (by omega), Nat.add_assoc, masterLp_slot hn]
  simp only [hn, if_true, hd, hm]

theorem dbOffsets_cp {i : Nat} (h : i < 2) : dbOffsets (0x200 + i) = some (Off.dbPendCp i, Off.dbMaskCp i) := by
  have hn : ¬ 96 + i < 96 := by omega
  rw [dbOffsets, if_neg (by omega), masterLp_cp h]
  simp only [hn, if_false, Nat.add_sub_cancel_left]

theorem receiverId_slot {c k : Nat} (hc : c < 16) (hk : k < 6) : receiverId (.slot c k) = some (0x100 + 6 * c + k) := by
  rw [receiverId, if_pos ⟨hc, hk⟩]

theorem receiverId_cp {i : Nat} (h : i < 2) : receiverId (.cp i) = some (0x200 + i) := by rw [receiverId, if_pos h]

theorem receiverId_host {f : Nat} (h : f < 64) : receiverId (.host f) = some f := by rw [receiverId, if_pos h]

section
variable {s : State} {m : Nat} {r : Receiver} {id p k : Nat} {nm : RegName} {ix : List Nat} {v : BitVec 32}
  (hid : receiverId r = some id) (ho : dbOffsets id = some (p, k))
include hid ho

theorem exec_doorbellClear (hr : reaches s m p 4 nm ix = true)
    (hw : ∀ (d : RegDesc) (n : Nat), s.regWrite { d with name := nm } ix m p n = (s.dbClear id n, true)) :
    exec (.doorbellClear m r v) s = .next ((s.dbClear id v.toNat).answer .done) := by
  have hx : exec (.doorbellClear m r v) s = regCmd true m p 4 v.toNat s := by
    change execDoorbellClear m r v s = _
    simp only [execDoorbellClear, hid, Option.bind_some, ho]
  rw [hx]
  refine regCmd_write rfl hr (ok := true) fun d _ => ?_
  rw [hw, Nat.mod_eq_of_lt v.isLt]

theorem exec_doorbellMaskWrite (hr : reaches s m k 4 nm ix = true)
    (hw : ∀ (d : RegDesc) (n : Nat), s.regWrite { d with name := nm } ix m k n = (s.dbMaskSet id n, true)) :
    exec (.doorbellMaskWrite m r v) s = .next ((s.dbMaskSet id v.toNat).answer .done) := by
  have hx : exec (.doorbellMaskWrite m r v) s = regCmd true m k 4 v.toNat s := by
    change execDoorbellMaskWrite m r v s = _
    simp only [execDoorbellMaskWrite, hid, Option.bind_some, ho]
  rw [hx]
  refine regCmd_write rfl hr (ok := true) fun d _ => ?_
  rw [hw, Nat.mod_eq_of_lt v.isLt]

end

/-- The delivery of an input changes no register. -/
theorem State.dbDeliver_regs (s : State) (n b : Nat) (f : Bool) : (s.dbDeliver n b f).regs = s.regs := by
  unfold State.dbDeliver
  dsimp only
  (repeat' split) <;> rfl

theorem State.dbFollow_cp (s : State) {i : Nat} (h : i < 2) (b : Nat) (was : Bool) : (s.dbFollow (0x200 + i) b was).regs = s.regs := by
  have hx : s.dbFollow (0x200 + i) b was = s.dbDeliver (96 + i) b false := by
    rw [State.dbFollow, if_neg (by omega), masterLp_cp h]
  rw [hx, State.dbDeliver_regs]

/-- A fold that clears chosen bits of a register. -/
theorem State.foldl_clearFlag {o : Nat} {g : Nat → Bool} {ls : List Nat} (h : ∀ i ∈ ls, i < 64) (s : State) (b : Nat) :
    (ls.foldl (fun t i => if g i then t.setFlag o i false else t) s).flag o b = (s.flag o b && !(ls.contains b && g b)) := by
  induction ls generalizing s with
  | nil => simp
  | cons a as ih =>
    obtain ⟨ha, has⟩ := List.forall_mem_cons.1 h
    rw [List.foldl_cons, ih has]
    cases hg : g a with
    | true =>
      rw [if_pos rfl, State.setFlag_flag _ _ _ _ ha]
      by_cases hb : b = a
      · subst hb
        simp [hg]
      · simp [hb]
    | false =>
      rw [if_neg Bool.false_ne_true]
      by_cases hb : b = a
      · subst hb
        simp [hg]
      · simp [hb]

/-- A W1C write of a control processor's DB_PEND: a bit that a waiting message holds stays (13 R372). -/
theorem State.dbClear_cp (s : State) {i b : Nat} (v : Nat) (hi : i < 2) (hb : b < 32) : (s.dbClear (0x200 + i) v).flag (Off.dbPendCp i) b =
    (s.flag (Off.dbPendCp i) b && (!bitOf v b || s.msgWaits (0x200 + i) b)) := by
  have hx : s.dbClear (0x200 + i) v = ((List.range 32).foldl (fun t b => if bitOf v b && !s.msgWaits (0x200 + i) b then
      t.setFlag (Off.dbPendCp i) b false else t) s).dbFollowAll (0x200 + i) fun b => !bitOf v b && s.dbLevel (0x200 + i) b := by
    simp only [State.dbClear, dbOffsets_cp hi]
  have hf (u : State) (g : Nat → Bool) : (u.dbFollowAll (0x200 + i) g).regs = u.regs :=
    State.foldl_kept (P := State.regs) (g := fun t b => t.dbFollow (0x200 + i) b (g b)) (fun t b => t.dbFollow_cp hi b (g b)) _ _
  rw [hx, State.flag, State.reg_of_regs (hf ..)]
  refine (State.foldl_clearFlag (fun k hk => Nat.lt_trans (List.mem_range.1 hk) (by decide)) s b).trans ?_
  have hc : (List.range 32).contains b = true := List.contains_iff_mem.2 (List.mem_range.2 hb)
  rw [hc]
  cases s.flag (Off.dbPendCp i) b <;> cases bitOf v b <;> cases s.msgWaits (0x200 + i) b <;> rfl

/-- A delivery past the pacing window: the input takes its level (13 R373). -/
theorem State.dbDeliver_input (s : State) (n b : Nat) : bitOf (tblGetD (s.dbDeliver n b true).dbIn n 0) b = s.dbLevel (lpMaster n) b := by
  rw [State.dbDeliver]
  by_cases h : s.dbLevel (lpMaster n) b = bitOf (tblGetD s.dbIn n 0) b
  · rw [h]
    simp
  · simp [h, bitOf_setBit]

section
variable {s : State} {c k b : Nat} (hc : c < 16) (hk : k < 6)
include hc hk

theorem State.dbLevel_slot : s.dbLevel (lpMaster (6 * c + k)) b = (s.flag (Off.dbPendLp c k) b && !s.flag (Off.dbMaskLp c k) b) := by
  rw [lpMaster, if_pos (by omega), ← Nat.add_assoc, State.dbLevel, dbOffsets_slot hc hk]

theorem exec_doorbellPacedDelivery (hb : b < 32) : exec (.doorbellPacedDelivery (.slot c k) b) s =
    .next (if s.dbReceiver (0x100 + 6 * c + k) then s.dbDeliver (6 * c + k) b true else s) := by
  have hn : masterLp (0x100 + 6 * c + k) = some (6 * c + k) := by rw [Nat.add_assoc, masterLp_slot (by omega)]
  change execDoorbellPacedDelivery (.slot c k) b s = _
  simp only [execDoorbellPacedDelivery, receiverId_slot hc hk, Nat.not_le.2 hb, if_false, hn]

end

/-! ### Completions that Yafolo holds -/

theorem exec_completionPostRetry {s : State} {m cp : Nat} (hx : cmdExists ⟨m, cp, 0, 0, 0, true⟩ = true) :
    exec (.completionPostRetry m cp) s = .next (if s.yafAlive && !s.shutdown then s.postHeld m 300 else s) := by
  change execCompletionPostRetry m cp s = _
  rw [execCompletionPostRetry, if_pos hx]

/-- The completion that a requester waits for alone, posted where its channel has room (14 R384). -/
theorem State.postHeld_one {s u : State} {m cp : Nat} {p : List Byte} (k : Nat) (hr : (s.chan (complChannel m cp)).store.length < 8)
    (hc : (s.req m).comps = [(cp, p)]) (hu : u = (s.chanPut (complChannel m cp) (yafWords 2 p)).onReq m (fun r => { r with comps := [] })) :
    s.postHeld m (k + 1) = u.postHeld m k := by
  subst hu
  have hroom : s.chanRoom (complChannel m cp) = true := decide_eq_true hr
  rw [State.postHeld]
  simp only [hc, hroom, if_true]

/-- Settles O48: the outcome of each write by its conditions, and the events by theirs. -/
theorem mailboxes : Obligations.Mailboxes := by
  intro s m ch hch
  refine ⟨fun i v hi hr => ?tx, fun hr u hu => ⟨fun h => ⟨?incomplete, fun w => ?incompleteB⟩, fun h => ⟨fun hl => ?long, fun hl =>
      ⟨fun hv => ?closed, fun hv => ⟨fun hs => ⟨?accepted, fun w => ?acceptedB⟩, fun hs => ⟨?full, fun w => ?fullB⟩⟩⟩⟩⟩,
    fun h => ?noTimeout, fun h => ?timeout, fun hr v => ⟨fun h => ?popEmpty, fun x rest h => ⟨fun hv => ?popOther, fun hv hb => ?popHead,
      fun ws hv hb => ?popWaits⟩⟩, fun hr v => ⟨fun h => ?locked, fun h hv => ?locks, fun h hv => ?binds⟩,
    fun f v hf hr => exec_doorbellClear (receiverId_host hf) (dbOffsets_host hf) hr fun _ _ => rfl,
    fun f v hf hr => exec_doorbellMaskWrite (receiverId_host hf) (dbOffsets_host hf) hr fun _ _ => rfl,
    fun i v hi => ⟨fun hr => exec_doorbellClear (receiverId_cp hi) (dbOffsets_cp hi) hr fun _ _ => rfl,
      fun hr => exec_doorbellMaskWrite (receiverId_cp hi) (dbOffsets_cp hi) hr fun _ _ => rfl⟩,
    fun c k v hc hk => ⟨fun hr => exec_doorbellClear (receiverId_slot hc hk) (dbOffsets_slot hc hk) hr fun _ _ => rfl,
      fun hr => exec_doorbellMaskWrite (receiverId_slot hc hk) (dbOffsets_slot hc hk) hr fun _ _ => rfl⟩,
    fun i v b hi hb => s.dbClear_cp v hi hb,
    fun c k b hc hk hb => ⟨fun h => ?delivered, fun h => ?notDelivered, (s.dbDeliver_input _ b).trans (State.dbLevel_slot hc hk)⟩,
    fun cp hx => ⟨fun h => ?yafOff, fun ha hs hr p hp u hu => ?retry⟩⟩
  case tx =>
    refine ⟨_, exec_mbxTxWrite hch hi hr, ?_, ?_, rfl, rfl⟩
    · exact (congrArg (fun c : Chan => tblGetD c.staging i 0) (s.mbxTx_chan ch i v.toNat)).trans (tblGetD_tblSet_same ..)
    · exact (congrArg Chan.store (s.mbxTx_chan ch i v.toNat)).trans rfl
  case incomplete => rw [exec_post hch hr, State.mbxPost_incomplete h, hu]
  case incompleteB => rw [exec_blockingPost hch hr, State.mbxPost_incomplete h, hu]
  case long => rw [exec_post hch hr, State.mbxPost_long h hl, hu]
  case closed => rw [exec_post hch hr, State.mbxPost_closed h hl hv, hu]
  case accepted => rw [exec_post hch hr, State.mbxPost_accepted h hl hv hs, hu]
  case acceptedB => rw [exec_blockingPost hch hr, State.mbxPost_accepted h hl hv hs, hu]
  case full => rw [exec_post hch hr, State.mbxPost_full h hl hv hs, hu, if_neg Bool.false_ne_true]
  case fullB => rw [exec_blockingPost hch hr, State.mbxPost_full h hl hv hs, hu, if_pos rfl]
  case noTimeout =>
    change execPostTimeout ch s = _
    rw [execPostTimeout, forUnit_next hch, State.mbxAbandon, if_neg (by simp [h])]
  case timeout => exact ⟨s.mbxAbandon ch 2, forUnit_next (f := fun s => s.mbxAbandon ch 2) hch, State.mbxAbandon_timeout h⟩
  case popEmpty => rw [exec_pop hch hr, State.mbxPopWith_empty h]
  case popOther => rw [exec_pop hch hr, State.mbxPopWith_other h hv]
  case popHead => rw [exec_pop hch hr, (State.mbxPopWith_head h hv).1 hb]
  case popWaits => rw [exec_pop hch hr, (State.mbxPopWith_head h hv).2 ws hb]
  case locked =>
    rw [exec_bindWrite hch hr, State.mbxBindWrite]
    exact congrArg (fun t : State => Host.Outcome.next (t.answer .done)) (if_pos h)
  case locks =>
    rw [exec_bindWrite hch hr, State.mbxBindWrite]
    exact congrArg (fun t : State => Host.Outcome.next (t.answer .done)) ((if_neg fun e => Bool.false_ne_true (h.symm.trans e)).trans (if_pos hv))
  case binds =>
    obtain ⟨hreg, hmem⟩ := State.mbxBindWrite_open h hv
    obtain ⟨h1, h2, h3, h4⟩ := s.bindTaken_fields ch v.toNat
    have hf {lo w : Nat} (hw : lo + w ≤ 64) : (s.mbxBindWrite ch v.toNat).fld (Off.mbxBind ch) lo w = bits (s.bindTaken ch v.toNat) lo w := by
      rw [State.fld, hreg, bits_mod_two_pow hw]
    have hv : (s.mbxBindWrite ch v.toNat).flag (Off.mbxBind ch) 62 = bitOf (s.bindTaken ch v.toNat) 62 := by
      rw [State.flag, hreg, bitOf_mod_two_pow (by decide)]
    exact ⟨_, exec_bindWrite hch hr v, hv.trans h1, (hf (by decide)).trans h2, hmem,
      fun he => ⟨(hf (by decide)).trans (h4.trans (if_pos he)), (hf (by decide)).trans (h3.trans (if_pos he))⟩,
      fun he => ⟨(hf (by decide)).trans (h4.trans (if_neg he)), (hf (by decide)).trans (h3.trans (if_neg he))⟩⟩
  case delivered => rw [exec_doorbellPacedDelivery hc hk hb, if_pos h]
  case notDelivered => rw [exec_doorbellPacedDelivery hc hk hb, if_neg (by simp [h])]
  case yafOff => rw [exec_completionPostRetry hx, if_neg (by obtain h | h := h <;> simp [h])]
  case retry => rw [exec_completionPostRetry hx, if_pos (by simp [ha, hs]), State.postHeld_one 299 hr hp hu]

end Sys2Proof.Machine
end

section
/-! SUPPORT. Mirror pairs: detections, retries, re-pairing and sparing (02 R45 to R59), and the statement about them. -/

namespace Sys2Proof.Machine

open Sys2Proof.Safety

/-! ### Events of a pair -/

theorem cmpRegs_apart (c k : Nat) : Off.cmpTimeNs c k ≠ Off.cmpStat c k ∧ Off.cmpTimeFr c k ≠ Off.cmpStat c k := by
  unfold Off.cmpTimeNs Off.cmpTimeFr Off.cmpStat
  omega

/-- An event of a pair is recorded as the last one; the retry depth and the flag of a re-pairing stay (02 R69). -/
theorem State.cmpEvent_stat (s : State) (c k cause lane : Nat) :
    (s.cmpEvent c k cause lane).fld (Off.cmpStat c k) 20 4 = cause % 16 ∧
    (s.cmpEvent c k cause lane).fld (Off.cmpStat c k) 14 2 = s.fld (Off.cmpStat c k) 14 2 := by
  obtain ⟨hns, hfr⟩ := cmpRegs_apart c k
  rw [State.cmpEvent]
  dsimp only
  split
  · exact ⟨State.setFld_fld_same _ _ _ (by decide), State.setFld_fld_apart _ _ _ (by decide) (by decide)⟩
  · simp only [State.setReg_fld_off _ _ _ _ hfr, State.setReg_fld_off _ _ _ _ hns]
    constructor
    · rw [State.setFlag_fld_apart _ _ _ (by decide) (by decide), State.setFld_fld_apart _ _ _ (by decide) (by decide),
        State.setFld_fld_apart _ _ _ (by decide) (by decide)]
      exact State.setFld_fld_same _ _ _ (by decide)
    · rw [State.setFlag_fld_apart _ _ _ (by decide) (by decide), State.setFld_fld_apart _ _ _ (by decide) (by decide),
        State.setFld_fld_apart _ _ _ (by decide) (by decide), State.setFld_fld_apart _ _ _ (by decide) (by decide)]

theorem State.cmpEvent_others (s : State) (c k cause lane : Nat) : (s.cmpEvent c k cause lane).lps = s.lps ∧
    (s.cmpEvent c k cause lane).mem = s.mem ∧ (s.cmpEvent c k cause lane).pairs = s.pairs := by
  rw [State.cmpEvent]
  dsimp only
  (repeat' split) <;> exact ⟨rfl, rfl, rfl⟩

theorem State.pairHold_lp (s : State) (c k : Nat) : (s.pairHold c k).lp (pairLp c k) =
    { s.lp (pairLp c k) with run := .repairing, was := (s.lp (pairLp c k)).run } := by
  change (s.onLp (pairLp c k) fun p => { p with run := .repairing, was := p.run }).lp (pairLp c k) = _
  rw [State.onLp_lp_same]

section
variable (s : State) (c k cause lane : Nat)

/-- A detection within the budget: one retry more (02 R45, R47). -/
theorem State.pairFault_retry (h : s.fld (Off.cmpStat c k) 14 2 < 3) : s.pairFault c k cause lane =
    ((s.cmpEvent c k cause lane).onPair (pairNum c k) fun q => { q with attempts := q.attempts ++ [cause] }).setFld (Off.cmpStat c k) 14 2
      (s.fld (Off.cmpStat c k) 14 2 + 1) := by
  rw [State.pairFault]
  exact if_pos h

/-- The pair held by RETRY_EXHAUSTED (02 R48). -/
def State.pairExhausted : State :=
  (((s.cmpEvent c k cause lane).onPair (pairNum c k) fun q => { q with attempts := q.attempts ++ [cause] }).cmpEvent c k 5 noLane).pairHold c k

theorem State.pairFault_exhausted (h : s.fld (Off.cmpStat c k) 14 2 = 3) :
    s.pairFault c k cause lane = (s.pairExhausted c k cause lane).raise (16 * c + k) := by
  rw [State.pairFault]
  exact if_neg (by rw [h]; decide)

theorem State.pairExhausted_lp : ((s.pairExhausted c k cause lane).lp (pairLp c k)).run = .repairing ∧
    ((s.pairExhausted c k cause lane).lp (pairLp c k)).was = (s.lp (pairLp c k)).run := by
  obtain ⟨h1, _, _⟩ := s.cmpEvent_others c k cause lane
  obtain ⟨h2, _, _⟩ := ((s.cmpEvent c k cause lane).onPair (pairNum c k) fun q => { q with attempts := q.attempts ++ [cause] }).cmpEvent_others c k 5 noLane
  have hl : (((s.cmpEvent c k cause lane).onPair (pairNum c k) fun q => { q with attempts := q.attempts ++ [cause] }).cmpEvent c k 5 noLane).lp
      (pairLp c k) = s.lp (pairLp c k) := by
    rw [State.lp, h2]
    exact congrArg (tblGetD · (pairLp c k) _) h1
  rw [State.pairExhausted, State.pairHold_lp, hl]
  exact ⟨rfl, rfl⟩

theorem State.pairExhausted_stat : (s.pairExhausted c k cause lane).flag (Off.cmpStat c k) 30 = true ∧
    (s.pairExhausted c k cause lane).fld (Off.cmpStat c k) 20 4 = 5 ∧ (s.pairExhausted c k cause lane).mem = s.mem := by
  obtain ⟨_, h1, _⟩ := s.cmpEvent_others c k cause lane
  obtain ⟨_, h2, _⟩ := ((s.cmpEvent c k cause lane).onPair (pairNum c k) fun q => { q with attempts := q.attempts ++ [cause] }).cmpEvent_others c k 5 noLane
  refine ⟨(State.setFlag_flag _ _ _ _ (by decide)).trans (if_pos rfl), ?_, h2.trans h1⟩
  refine (State.setFlag_fld_apart _ _ _ (by decide) (by decide)).trans ?_
  exact (State.cmpEvent_stat _ c k 5 noLane).1

end

/-! ### Re-pairing -/

theorem repairPath_slice {l : List Nat} (v : RepairVerdict) (h : 3 ∈ l ∨ 4 ∈ l) : repairPath l v = .slice := by
  rw [repairPath, if_pos]
  rw [List.any_eq_true]
  obtain h | h := h
  · exact ⟨3, h, rfl⟩
  · exact ⟨4, h, rfl⟩

theorem repairPath_cores {l : List Nat} (v : RepairVerdict) (h3 : 3 ∉ l) (h4 : 4 ∉ l) : repairPath l v =
    if v.leadOk && v.trailOk then .slice else if v.trailOk then .lead else if v.leadOk then .trail else .none := by
  rw [repairPath, if_neg]
  rw [List.any_eq_true]
  rintro ⟨a, ha, hb⟩
  obtain h | h : a = 3 ∨ a = 4 := by simpa using hb
  · exact h3 (h ▸ ha)
  · exact h4 (h ▸ ha)

section
variable {s : State} {c k : Nat} {v : RepairVerdict} {p : RepairPath}

theorem State.pairRepair_further (h : v.further = true) : s.pairRepair c k v = s.pairLost c k := by
  rw [State.pairRepair]
  exact if_pos h

/-- A re-pairing with a path: onto its spare, or the unit that it would have left condemned and the pair lost (02 R54, R55). -/
theorem State.pairRepair_path (h : v.further = false) (hp : p = repairPath (s.pair (pairNum c k)).attempts v) (hn : p ≠ .none) :
    (s.spareState c p.spare = 0 → v.spareOk = true → s.pairRepair c k v = s.pairSteer c k p) ∧
    (s.spareState c p.spare ≠ 0 → s.pairRepair c k v =
      (s.condemn (s.pathUnit c k p).1 c (s.pathUnit c k p).2 (16 * c + k) false).pairLost c k) := by
  cases p with
  | none => exact absurd rfl hn
  | slice | lead | trail =>
    refine ⟨fun h0 hs => ?_, fun h0 => ?_⟩
    · simp only [State.pairRepair, h, ← hp, h0, hs, Bool.false_eq_true, if_false, and_self, if_true]
    · simp only [State.pairRepair, h, ← hp, h0, Bool.false_eq_true, if_false, false_and]

variable (hc : c < 16) (hk : k < 3)
include hc hk

theorem exec_repairSequence : exec (.repairSequence c k v) s =
    if (s.lp (pairLp c k)).run = .repairing then .next (s.pairRepair c k v) else .next s := by
  change execRepairSequence c k v s = _
  rw [execRepairSequence, if_neg (by omega)]

theorem exec_proactiveRepair : exec (.proactiveRepair c k v) s =
    if s.isSplit c ∨ (s.lp (pairLp c k)).run = .lost ∨ (s.lp (pairLp c k)).run = .repairing ∨ s.fld (Off.cmpCtrl c) 8 8 = 0 ∨
      s.recentRetries c k < s.fld (Off.cmpCtrl c) 8 8 then .next s else .next ((s.pairHold c k).pairRepair c k v) := by
  change execProactiveRepair c k v s = _
  rw [execProactiveRepair, if_neg (by omega)]

theorem exec_retry_split (h : s.isSplit c = true) (ev : Detect) : exec (.retry c k ev) s = .next s := by
  change execRetry c k ev s = _
  rw [execRetry, if_neg (by omega)]
  exact if_pos (.inl h)

variable (h : s.isSplit c = false) (ho : (s.pair (pairNum c k)).cmpOff = false)
include h ho

theorem exec_retry_repairing (hr : (s.lp (pairLp c k)).run = .repairing) (ev : Detect) : exec (.retry c k ev) s = .next (s.pairLost c k) := by
  change execRetry c k ev s = _
  rw [execRetry, if_neg (by omega)]
  exact (if_neg (by simp [h, hr, ho])).trans (if_pos hr)

theorem exec_retry_running (hr : (s.lp (pairLp c k)).run = .running) (ev : Detect) : exec (.retry c k ev) s = .next (s.pairDetect c k ev) := by
  change execRetry c k ev s = _
  rw [execRetry, if_neg (by omega)]
  exact (if_neg (by simp [h, hr, ho])).trans (if_neg (by simp [hr]))

end

/-! ### SKEW and the control processors -/

/-- A SKEW retry leaves the attempts of the boundary alone (02 R50). -/
theorem State.pairSkew_pair (s : State) (c k lane : Nat) :
    (s.pairSkew c k lane).pair (pairNum c k) = { s.pair (pairNum c k) with skewHold := true } := by
  obtain ⟨_, _, hp⟩ := s.cmpEvent_others c k 2 lane
  have hl (u : State) : (u.countLp (pairLp c k) 4 1).pairs = u.pairs := by
    obtain ⟨l, w, rfl, h | h⟩ := u.countLp_eq (pairLp c k) 4 1
    · rw [h]
    · rw [h]
      rfl
  have h : ((s.cmpEvent c k 2 lane).countLp (pairLp c k) 4 1).pair (pairNum c k) = s.pair (pairNum c k) := by
    rw [State.pair, hl, hp, State.pair]
  rw [← h]
  exact tblGetD_tblSet_same ..

section
variable {s : State} {i : Nat} {ok : Bool} (hi : i < 2)
include hi

theorem exec_cpRepair_lost (h : (s.lp (96 + i)).run = .lost) : exec (.cpRepair i ok) s = .next s := by
  change execCpRepair i ok s = _
  rw [execCpRepair, forUnit_next hi]
  exact congrArg _ (if_pos h)

variable (h : (s.lp (96 + i)).run ≠ .lost)
include h

/-- A control processor onto the spare pair, or lost (02 R59). -/
theorem exec_cpRepair_spare (hs : s.cpSpareFree = true) (ho : ok = true) : exec (.cpRepair i ok) s =
    .next ((((s.raise (746 + i)).condemn 8 0 (2 * i) (746 + i) true).condemn 8 0 (2 * i + 1) (746 + i) true).onLp (96 + i)
      fun p => { p with l1d := L1.empty, l1i := L1.empty, invq := [] }) := by
  change execCpRepair i ok s = _
  rw [execCpRepair, forUnit_next hi]
  simp only [h, hs, ho, if_false, Bool.and_self, if_true]

theorem exec_cpRepair_noSpare (hs : s.cpSpareFree = false ∨ ok = false) : exec (.cpRepair i ok) s =
    .next (((((s.raise (746 + i)).condemn 8 0 (2 * i) (746 + i) false).condemn 8 0 (2 * i + 1) (746 + i) false).cpLost i).event 1
      (lpMaster (96 + i)) 5 0 []) := by
  have hf : (s.cpSpareFree && ok) = false := by
    obtain h | h := hs <;> simp [h]
  change execCpRepair i ok s = _
  rw [execCpRepair, forUnit_next hi]
  simp only [h, hf, if_false, Bool.false_eq_true]

end

/-- Settles O49: the detections by their kind, the budget by the depth, the re-pairing by its path. -/
theorem mirrorPairs : Obligations.MirrorPairs := by
  intro s c k hc hk
  refine ⟨fun h ev => exec_retry_split hc hk h ev, fun h ho => ⟨fun hr ev => exec_retry_repairing hc hk h ho hr ev, fun hr =>
      ⟨fun lane d hd => ⟨?skew, ?skewHold, ?skewTries⟩, fun lane d hd => ?late, fun lane => ⟨?mismatch, ?comparator⟩, ?delay⟩⟩,
    fun cause lane h => ⟨_, rfl, ?depth, ?cause, ?lps, ?mem⟩, fun cause lane h => ?exhausted, fun h v => ?notHeld,
    fun h v p hp => ⟨fun hf => ?further, fun hf hn h0 hs => ?steer, fun hf hn h0 => ?noSpare⟩,
    fun l v => ⟨fun h => repairPath_slice v h, fun h3 h4 => ?path⟩, fun v => ⟨fun h => ?quiet, fun h hr h0 hl => ?proactive⟩,
    fun i ok hi => ⟨fun h => exec_cpRepair_lost hi h, fun src u h hsrc => ⟨fun hs ho hu => ?cpSpare, fun hs hu => ?cpLost⟩⟩⟩
  case skew => rw [exec_retry_running hc hk h ho hr]; exact congrArg _ (if_pos hd)
  case skewHold => rw [State.pairSkew_pair]
  case skewTries => rw [State.pairSkew_pair]
  case late => rw [exec_retry_running hc hk h ho hr]; exact congrArg _ (if_neg (Nat.not_le.2 hd))
  case mismatch => rw [exec_retry_running hc hk h ho hr]; rfl
  case comparator => rw [exec_retry_running hc hk h ho hr]; rfl
  case delay => rw [exec_retry_running hc hk h ho hr]; rfl
  case depth =>
    rw [s.pairFault_retry c k cause lane h, State.setFld_fld_same _ _ _ (by decide)]
    exact Nat.mod_eq_of_lt (by omega)
  case cause =>
    rw [s.pairFault_retry c k cause lane h, State.setFld_fld_apart _ _ _ (by decide) (by decide)]
    exact (s.cmpEvent_stat c k cause lane).1
  case lps =>
    rw [s.pairFault_retry c k cause lane h]
    exact (s.cmpEvent_others c k cause lane).1
  case mem =>
    rw [s.pairFault_retry c k cause lane h]
    exact (s.cmpEvent_others c k cause lane).2.1
  case exhausted =>
    obtain ⟨h1, h2⟩ := s.pairExhausted_lp c k cause lane
    obtain ⟨h3, h4, h5⟩ := s.pairExhausted_stat c k cause lane
    exact ⟨_, h1, h2, h3, h4, h5, s.pairFault_exhausted c k cause lane h⟩
  case notHeld => rw [exec_repairSequence hc hk, if_neg h]
  case further => rw [exec_repairSequence hc hk, if_pos h, State.pairRepair_further hf]
  case steer => rw [exec_repairSequence hc hk, if_pos h, (State.pairRepair_path hf hp hn).1 h0 hs]
  case noSpare => rw [exec_repairSequence hc hk, if_pos h, (State.pairRepair_path hf hp hn).2 h0]
  case path =>
    rw [repairPath_cores v h3 h4]
    refine ⟨fun h1 h2 => ?_, fun h1 h2 => ?_, fun h1 h2 => ?_, fun h1 h2 => ?_⟩
    all_goals
      rw [h1, h2]
      rfl
  case quiet =>
    rw [exec_proactiveRepair hc hk, if_pos]
    obtain h | h := h
    · exact .inr (.inr (.inr (.inl h)))
    · exact .inr (.inr (.inr (.inr h)))
  case proactive => rw [exec_proactiveRepair hc hk, if_neg (by simp [h, hr, h0, hl])]
  case cpSpare =>
    subst hsrc hu
    exact exec_cpRepair_spare hi h hs ho
  case cpLost =>
    subst hsrc hu
    exact exec_cpRepair_noSpare hi h hs

end Sys2Proof.Machine
end

section
/-! SUPPORT. Tamler: halt, access, single step and exit (02 R63, R64), and the statement about it. -/

namespace Sys2Proof.Machine

open Sys2Proof.Safety

section
variable {s : State} {n : Nat} (hn : n < 98)
include hn

theorem exec_tamlerHalt : exec (.tamlerHalt n) s = .next (if (s.lp n).run = .running ∨ (s.lp n).run = .waiting then
    s.onLp n fun p => { p with run := .debug, was := (s.lp n).run } else s) := by
  change execTamlerHalt n s = _
  rw [execTamlerHalt, forLp_next hn]

theorem exec_tamlerSingleStep : exec (.tamlerSingleStep n) s =
    .next (if (s.lp n).run = .debug then s.onLp n fun p => { p with run := .stepping } else s) := by
  change execTamlerSingleStep n s = _
  rw [execTamlerSingleStep, forLp_next hn]

/-- Access to a logical processor that Tamler has not halted is a bus error. -/
theorem exec_tamlerAccess_running (h : (s.lp n).run ≠ .debug) (it : TamlerItem) (w : Option (BitVec 64)) :
    exec (.tamlerAccess n it w) s = .next (s.answer .busError) := by
  change execTamlerAccess n it w s = _
  rw [execTamlerAccess, forLp_next hn, if_pos h]

variable (h : (s.lp n).run = .debug)
include h

/-- A read of Tamler. -/
theorem exec_tamlerAccess_read {it : TamlerItem} {v : Nat} (hv : s.tamlerRead n it = some v) :
    exec (.tamlerAccess n it none) s = .next (s.answer (.value (BitVec.ofNat 64 v))) := by
  change execTamlerAccess n it none s = _
  simp only [execTamlerAccess, forLp_next hn, h, hv, ne_eq, not_true_eq_false, if_false]

/-- A write of Tamler. -/
theorem exec_tamlerAccess_write {it : TamlerItem} {v : BitVec 64} {t : State} (hv : s.tamlerWrite n it v.toNat = some t) :
    exec (.tamlerAccess n it (some v)) s = .next (t.answer .done) := by
  change execTamlerAccess n it (some v) s = _
  simp only [execTamlerAccess, forLp_next hn, h, hv, ne_eq, not_true_eq_false, if_false]

/-- Access to a system register that does not exist is a bus error. -/
theorem exec_tamlerAccess_unknown {k : BitVec 8} (hk : srKnown k.toNat = false) (w : Option (BitVec 64)) :
    exec (.tamlerAccess n (.sysReg k) w) s = .next (s.answer .busError) := by
  change execTamlerAccess n (.sysReg k) w s = _
  cases w <;>
    simp only [execTamlerAccess, forLp_next hn, h, State.tamlerRead, State.tamlerWrite, hk, ne_eq, not_true_eq_false, if_false, Bool.false_eq_true]

end

/-- The logical processor goes on where it was (02 R63). -/
def State.tamlerReleased (s : State) (n : Nat) : State := s.onLp n fun p => { p with run := p.was }

/-- The copies of a pair made alike: their L1 caches emptied, comparison on again (02 R63). -/
def State.copiesAlike (s : State) (n j : Nat) : State :=
  (s.onLp n fun p => { p with l1d := L1.empty, l1i := L1.empty, invq := [] }).onPair j fun q => { q with cmpOff := false }

theorem State.copiesAlike_lp (s : State) (n j : Nat) :
    (s.copiesAlike n j).lp n = { s.lp n with l1d := L1.empty, l1i := L1.empty, invq := [] } := by
  change (s.onLp n fun p => { p with l1d := L1.empty, l1i := L1.empty, invq := [] }).lp n = _
  rw [State.onLp_lp_same]

theorem State.copiesAlike_pair (s : State) (n j : Nat) : ((s.copiesAlike n j).pair j).cmpOff = false := by
  rw [State.copiesAlike, State.onPair_pair_same]

section
variable {s : State} {n : Nat} (hn : n < 98)
include hn

theorem exec_tamlerExit_free (h : (s.lp n).run ≠ .debug) (h' : (s.lp n).run ≠ .stepping) : exec (.tamlerExit n) s = .next s := by
  change execTamlerExit n s = _
  rw [execTamlerExit, forLp_next hn]
  exact congrArg _ (if_pos ⟨h, h'⟩)

theorem exec_tamlerExit_held (h : (s.lp n).run = .debug ∨ (s.lp n).run = .stepping) :
    (∀ c k : Nat, s.pairOf n = some (c, k) → s.flag (Off.cmpStat c k) 31 = true →
      exec (.tamlerExit n) s = .next ((s.tamlerReleased n).copiesAlike n (pairNum c k))) ∧
    ((∀ c k : Nat, s.pairOf n = some (c, k) → s.flag (Off.cmpStat c k) 31 = false) → exec (.tamlerExit n) s = .next (s.tamlerReleased n)) := by
  have hr : ¬ ((s.lp n).run ≠ .debug ∧ (s.lp n).run ≠ .stepping) := by
    obtain h | h := h <;> simp [h]
  change (∀ c k : Nat, _ → _ → execTamlerExit n s = _) ∧ (_ → execTamlerExit n s = _)
  refine ⟨fun c k hp hb => ?_, fun hb => ?_⟩
  · simp only [execTamlerExit, forLp_next hn, hr, hp, hb, if_false, if_true]
    rfl
  · cases hp : s.pairOf n with
    | none =>
      simp only [execTamlerExit, forLp_next hn, hr, hp, if_false]
      rfl
    | some x =>
      obtain ⟨c, k⟩ := x
      simp only [execTamlerExit, forLp_next hn, hr, hp, hb c k hp, if_false, Bool.false_eq_true]
      rfl

/-- An access to one core of a pair (02 R63, R64). -/
theorem exec_tamlerPerCoreAccess {c k : Nat} (hp : s.pairOf n = some (c, k)) : exec (.tamlerPerCoreAccess n) s =
    .next ((((s.cmpEvent c k 7 noLane).setFlag (Off.cmpStat c k) 31 true).onPair (pairNum c k) fun q => { q with cmpOff := true }).raise
      (16 * c + k)) := by
  change execTamlerPerCoreAccess n s = _
  simp only [execTamlerPerCoreAccess, forLp_next hn, hp]

theorem exec_tamlerPerCoreAccess_none (hp : s.pairOf n = none) : exec (.tamlerPerCoreAccess n) s = .next s := by
  change execTamlerPerCoreAccess n s = _
  simp only [execTamlerPerCoreAccess, forLp_next hn, hp]

end

/-- Settles O50: each command by whether Tamler has halted the logical processor. -/
theorem debugAccess : Obligations.DebugAccess := by
  intro s n hn
  refine ⟨fun h => ?halt, fun h1 h2 => ?noHalt, fun h it w => exec_tamlerAccess_running hn h it w,
    fun h => ⟨fun r => ?readBase, fun r v => ?writeBase, ?readPc, fun v => ?writePc, fun k w hk => exec_tamlerAccess_unknown hn h hk w,
      fun a t ht => ?readMem, fun a t v ht => ?writeMem⟩,
    fun h => ?step, fun h => ?noStep, fun hp => exec_tamlerPerCoreAccess_none hn hp, fun c k hp => ?perCore,
    fun h h' => exec_tamlerExit_free hn h h', fun h => ?exit⟩
  case halt =>
    refine ⟨_, (exec_tamlerHalt hn).trans (congrArg _ (if_pos h)), ?_, ?_, ?_, rfl, rfl, fun i hi => State.onLp_lp_other _ _ hi.symm⟩
    all_goals rw [State.onLp_lp_same]
  case noHalt => rw [exec_tamlerHalt hn, if_neg (not_or.2 ⟨h1, h2⟩)]
  case readBase =>
    refine (exec_tamlerAccess_read hn h (it := .baseReg r) rfl).trans ?_
    rw [BitVec.ofNat_toNat, BitVec.setWidth_eq]
  case writeBase =>
    refine ⟨_, exec_tamlerAccess_write hn h (it := .baseReg r) rfl, ?_, rfl, rfl⟩
    rw [State.answer_lp, State.onLp_lp_same, BitVec.ofNat_toNat, BitVec.setWidth_eq]
    exact tblGetD_tblSet_same ..
  case readPc =>
    refine (exec_tamlerAccess_read hn h (it := .pc) rfl).trans ?_
    rw [BitVec.ofNat_toNat, BitVec.setWidth_eq]
  case writePc =>
    refine ⟨_, exec_tamlerAccess_write hn h (it := .pc) rfl, ?_, rfl⟩
    rw [State.answer_lp, State.onLp_lp_same, BitVec.toNat_ofNat]
    omega
  case readMem => exact exec_tamlerAccess_read hn h (it := .memory a) (by simp only [State.tamlerRead, ht])
  case writeMem => exact exec_tamlerAccess_write hn h (it := .memory a) (by simp only [State.tamlerWrite, ht])
  case step =>
    refine ⟨_, (exec_tamlerSingleStep hn).trans (congrArg _ (if_pos h)), ?_, rfl⟩
    rw [State.onLp_lp_same]
  case noStep => rw [exec_tamlerSingleStep hn, if_neg h]
  case perCore =>
    refine ⟨_, ?_, ?_, ?_, exec_tamlerPerCoreAccess hn hp⟩
    · exact (State.setFlag_flag _ _ _ _ (by decide)).trans (if_pos rfl)
    · rw [State.onPair_pair_same]
    · exact (s.cmpEvent_others c k 7 noLane).2.1
  case exit =>
    obtain ⟨hb, hf⟩ := exec_tamlerExit_held hn h
    have hl : (s.tamlerReleased n).lp n = { s.lp n with run := (s.lp n).was } := State.onLp_lp_same ..
    by_cases hp : ∃ c k : Nat, s.pairOf n = some (c, k) ∧ s.flag (Off.cmpStat c k) 31 = true
    · obtain ⟨c, k, hp, h31⟩ := hp
      refine ⟨_, hb c k hp h31, ?_, rfl, rfl, fun c' k' hp' _ => ?_⟩
      · rw [State.copiesAlike_lp, hl]
      · obtain ⟨rfl, rfl⟩ := Prod.mk.inj (Option.some.inj (hp.symm.trans hp'))
        rw [State.copiesAlike_lp]
        exact ⟨rfl, rfl, State.copiesAlike_pair ..⟩
    · have hno (c k : Nat) (h1 : s.pairOf n = some (c, k)) : s.flag (Off.cmpStat c k) 31 = false :=
        Bool.eq_false_iff.2 fun h2 => hp ⟨c, k, h1, h2⟩
      refine ⟨_, hf hno, by rw [hl], rfl, rfl, fun c k h1 h2 => absurd (hno c k h1) (by simp [h2])⟩

end Sys2Proof.Machine
end

section
/-! SUPPORT. Event sources and their reactions, ERR_N, and the supply and temperature monitors (16 R418 to R437), and the statement about
them. -/

namespace Sys2Proof.Machine

open Sys2Proof.Safety

/-! ### Event sources -/

theorem errRegs_apart {n g : Nat} (hn : n < 768) (hg : g < 24) : Off.errFirst g ≠ Off.errSrc n ∧ Off.errFirstNs g ≠ Off.errSrc n ∧
    Off.errFirstFr g ≠ Off.errSrc n ∧ Off.rstStat ≠ Off.errSrc n ∧ Off.errFirstNs g ≠ Off.errFirst g ∧ Off.errFirstFr g ≠ Off.errFirst g ∧
    Off.errFirstFr g ≠ Off.errFirstNs g := by
  unfold Off.errFirst Off.errFirstNs Off.errFirstFr Off.errSrc Off.rstStat
  omega

theorem State.raise_reserved (s : State) {n : Nat} (h : sourceReserved n = true) : s.raise n = s := by
  rw [State.raise, if_pos h]

/-- The count of a source, one more, up to 255 (16 R418). -/
def State.raiseCount (s : State) (n : Nat) : Nat := satAdd (s.fld (Off.errSrc n) 0 8) 1 255

theorem State.raiseCount_le (s : State) (n : Nat) : s.raiseCount n ≤ 255 := Nat.min_le_right ..

/-- The raise of a source that is pending, in a group whose first source is known: overflow at both (16 R418). -/
theorem State.raise_again {s : State} {n : Nat} (hr : sourceReserved n = false) (h31 : s.flag (Off.errSrc n) 31 = true)
    (h0 : s.flag (Off.errFirst (n / 32)) 0 = true) : s.raise n =
      (s.setReg (Off.errSrc n) (2 ^ 31 + 2 ^ 30 + s.fld (Off.errSrc n) 27 3 * 2 ^ 27 + s.raiseCount n)).setReg (Off.errFirst (n / 32))
        (setBit (s.reg (Off.errFirst (n / 32))) 1 true) := by
  have h31' : bitOf (s.reg (Off.errSrc n)) 31 = true := h31
  have h0' : bitOf (s.reg (Off.errFirst (n / 32))) 0 = true := h0
  rw [State.raise, if_neg (by simp [hr])]
  dsimp only
  rw [if_pos h31', if_pos h31', if_pos h0']
  rfl

/-- The pending bit of a source with its reaction (16 R418). -/
def State.raisePending (s : State) (n : Nat) : State := s.setReg (Off.errSrc n) (2 ^ 31 + s.react n * 2 ^ 27 + s.raiseCount n)

/-- The record of the first source of a group, or its overflow (16 R418). -/
def State.raiseFirst (s t : State) (n : Nat) : State :=
  if s.flag (Off.errFirst (n / 32)) 0 then t.setReg (Off.errFirst (n / 32)) (setBit (s.reg (Off.errFirst (n / 32))) 1 true)
  else ((t.setReg (Off.errFirst (n / 32)) (n * 65536 + 1)).setReg (Off.errFirstNs (n / 32)) (s.stampIn 0x1C).ns).setReg (Off.errFirstFr (n / 32))
    (s.stampIn 0x1C).frac

/-- A raise before READY: its reaction is held (16 R419). -/
theorem State.raise_held {s : State} {n : Nat} (hr : sourceReserved n = false) (hy : s.ready = false) (h31 : s.flag (Off.errSrc n) 31 = false) :
    s.raise n = if s.react n = 4 ∧ s.fld Off.bootStat 4 4 ≠ 6 then
      ({ s.raiseFirst (s.raisePending n) n with heldReacts := (s.raiseFirst (s.raisePending n) n).heldReacts ++ [n] } : State).setFlag Off.rstStat 18 true
    else { s.raiseFirst (s.raisePending n) n with heldReacts := (s.raiseFirst (s.raisePending n) n).heldReacts ++ [n] } := by
  have h31' : ¬ bitOf (s.reg (Off.errSrc n)) 31 = true := by
    rw [show bitOf (s.reg (Off.errSrc n)) 31 = false from h31]
    decide
  rw [State.raise, if_neg (by simp [hr])]
  dsimp only
  rw [if_neg h31', if_neg h31', if_neg (by simp [hy])]
  rfl

theorem State.raiseFirst_others (s t : State) {n : Nat} (hn : n < 768) : (s.raiseFirst t n).reg (Off.errSrc n) = t.reg (Off.errSrc n) ∧
    (s.raiseFirst t n).heldReacts = t.heldReacts ∧ (s.raiseFirst t n).mem = t.mem := by
  obtain ⟨h1, h2, h3, _⟩ := errRegs_apart hn (show n / 32 < 24 by omega)
  rw [State.raiseFirst]
  split
  · exact ⟨State.setReg_reg_other _ _ h1, rfl, rfl⟩
  · refine ⟨?_, rfl, rfl⟩
    rw [State.setReg_reg_other _ _ h3, State.setReg_reg_other _ _ h2, State.setReg_reg_other _ _ h1]

theorem State.react_lt (s : State) (n : Nat) : s.react n < 8 := by
  rw [State.react]
  (repeat' split) <;> exact bits_lt ..

theorem State.raisePending_src (s : State) (n : Nat) : bitOf ((s.raisePending n).reg (Off.errSrc n)) 31 = true ∧
    bits ((s.raisePending n).reg (Off.errSrc n)) 27 3 = s.react n := by
  have hr := s.react_lt n
  have hc := s.raiseCount_le n
  rw [State.raisePending, State.setReg_reg_same, Nat.mod_eq_of_lt (by omega), bitOf, bits, beq_iff_eq]
  omega

theorem State.raise_held_effect {s : State} {n : Nat} (hn : n < 768) (hr : sourceReserved n = false) (hy : s.ready = false)
    (h31 : s.flag (Off.errSrc n) 31 = false) : (s.raise n).flag (Off.errSrc n) 31 = true ∧ (s.raise n).fld (Off.errSrc n) 27 3 = s.react n ∧
      (s.raise n).heldReacts = s.heldReacts ++ [n] ∧ (s.raise n).mem = s.mem := by
  obtain ⟨_, _, _, h4, _⟩ := errRegs_apart hn (show n / 32 < 24 by omega)
  obtain ⟨hreg, hheld, hmem⟩ := s.raiseFirst_others (s.raisePending n) hn
  obtain ⟨hp, hf⟩ := s.raisePending_src n
  rw [State.raise_held hr hy h31]
  split
  · refine ⟨?_, ?_, congrArg (· ++ [n]) hheld, hmem⟩
    · exact (State.setFlag_flag_off _ _ _ _ h4).trans ((congrArg (bitOf · 31) hreg).trans hp)
    · exact (congrArg (bits · 27 3) (State.setReg_reg_other _ _ h4)).trans ((congrArg (bits · 27 3) hreg).trans hf)
  · exact ⟨(congrArg (bitOf · 31) hreg).trans hp, (congrArg (bits · 27 3) hreg).trans hf, congrArg (· ++ [n]) hheld, hmem⟩

theorem State.raise_again_effect {s : State} {n : Nat} (hn : n < 768) (hr : sourceReserved n = false) (h31 : s.flag (Off.errSrc n) 31 = true)
    (h0 : s.flag (Off.errFirst (n / 32)) 0 = true) :
    (s.raise n).flag (Off.errSrc n) 31 = true ∧ (s.raise n).flag (Off.errSrc n) 30 = true ∧
      (s.raise n).fld (Off.errSrc n) 0 8 = min (s.fld (Off.errSrc n) 0 8 + 1) 255 ∧
      (s.raise n).flag (Off.errFirst (n / 32)) 1 = true ∧ (s.raise n).mem = s.mem ∧ (s.raise n).lps = s.lps := by
  obtain ⟨h1, _⟩ := errRegs_apart hn (show n / 32 < 24 by omega)
  have hf := bits_lt (s.reg (Off.errSrc n)) 27 3
  have hc := s.raiseCount_le n
  have hreg : (s.raise n).reg (Off.errSrc n) = 2 ^ 31 + 2 ^ 30 + s.fld (Off.errSrc n) 27 3 * 2 ^ 27 + s.raiseCount n := by
    rw [State.raise_again hr h31 h0, State.setReg_reg_other _ _ h1, State.setReg_reg_same]
    change bits (s.reg (Off.errSrc n)) 27 3 < 8 at hf
    refine Nat.mod_eq_of_lt ?_
    rw [State.fld]
    omega
  change s.fld (Off.errSrc n) 27 3 < 2 ^ 3 at hf
  have hfirst : (s.raise n).flag (Off.errFirst (n / 32)) 1 = true := by
    rw [State.raise_again hr h31 h0, State.setReg_flag _ _ (by decide), bitOf_setBit, if_pos rfl]
  refine ⟨?_, ?_, ?_, hfirst, ?_, ?_⟩
  · rw [State.flag, hreg, bitOf, beq_iff_eq]
    omega
  · rw [State.flag, hreg, bitOf, beq_iff_eq]
    omega
  · rw [State.fld, hreg, bits]
    change _ = s.raiseCount n
    omega
  · rw [State.raise_again hr h31 h0]
    rfl
  · rw [State.raise_again hr h31 h0]
    rfl

/-! ### The fault block's registers -/

/-- A word of digits of four bits, each below 8. -/
theorem bits_foldl_digits {f : Nat → Nat} (hf : ∀ j, f j < 8) (n : Nat) :
    (List.range n).foldl (fun k j => k + f j * 2 ^ (4 * j)) 0 < 2 ^ (4 * n) ∧
    ∀ j < n, bits ((List.range n).foldl (fun k j => k + f j * 2 ^ (4 * j)) 0) (4 * j) 3 = f j := by
  induction n with
  | zero => exact ⟨Nat.two_pow_pos _, fun j hj => absurd hj (Nat.not_lt_zero j)⟩
  | succ n ih =>
    obtain ⟨hlt, hd⟩ := ih
    rw [List.range_succ, List.foldl_append, List.foldl_cons, List.foldl_nil]
    generalize (List.range n).foldl (fun k j => k + f j * 2 ^ (4 * j)) 0 = x at *
    have hp : 2 ^ (4 * (n + 1)) = 2 ^ (4 * n) * 16 := by rw [Nat.mul_add, Nat.pow_add]
    refine ⟨?_, fun j hj => ?_⟩
    · have h7 := Nat.mul_le_mul_right (2 ^ (4 * n)) (Nat.le_of_lt_succ (hf n))
      rw [hp]
      omega
    · obtain rfl | hj : j = n ∨ j < n := by omega
      · rw [bits, Nat.add_mul_div_right _ _ (Nat.two_pow_pos _), Nat.div_eq_of_lt hlt, Nat.zero_add]
        exact Nat.mod_eq_of_lt (hf j)
      · rw [← hd j hj, ← bits_mod_two_pow (k := 4 * n) (by omega), Nat.add_mul_mod_self_right, bits_mod_two_pow (by omega)]

theorem reactStored_lt {n old v : Nat} (ho : old < 8) (hv : v < 8) : reactStored n old v < 8 := by
  rw [reactStored]
  (repeat' split) <;> omega

/-- The reactions stored by a write of ERR_REACT (16 R422). -/
theorem bits_reactWordStored (base old v : Nat) {j : Nat} (hj : j < 16) :
    bits (reactWordStored base old v) (4 * j) 3 = reactStored (base + j) (bits old (4 * j) 3) (bits v (4 * j) 3) :=
  (bits_foldl_digits (fun j => reactStored_lt (n := base + j) (bits_lt old (4 * j) 3) (bits_lt v (4 * j) 3)) 16).2 j hj


theorem State.errSrcW1c_effect (s : State) (n : Nat) : (s.errSrcW1c n).flag (Off.errSrc n) 31 = false ∧
    (s.errSrcW1c n).fld (Off.errSrc n) 27 3 = s.fld (Off.errSrc n) 27 3 ∧ (s.errSrcW1c n).mem = s.mem ∧
    ∀ off, off ≠ Off.errSrc n → (s.errSrcW1c n).reg off = s.reg off := by
  rw [State.errSrcW1c]
  split
  next h =>
    have hf : s.fld (Off.errSrc n) 27 3 < 8 := bits_lt (s.reg (Off.errSrc n)) 27 3
    have hreg : (s.setReg (Off.errSrc n) (s.fld (Off.errSrc n) 27 3 * 2 ^ 27)).reg (Off.errSrc n) = s.fld (Off.errSrc n) 27 3 * 2 ^ 27 := by
      rw [State.setReg_reg_same]
      exact Nat.mod_eq_of_lt (by omega)
    refine ⟨?_, ?_, rfl, fun off ho => State.setReg_reg_other _ _ (Ne.symm ho)⟩
    · rw [State.flag, hreg, bitOf, beq_eq_false_iff_ne]
      omega
    · rw [State.fld, hreg, bits]
      omega
  next h =>
    exact ⟨Bool.eq_false_iff.2 h, rfl, rfl, fun _ _ => rfl⟩

theorem exec_errSrcClear {s : State} {m n : Nat} (hn : n < 768) (hr : reaches s m (Off.errSrc n) 4 .errSrc [n] = true) :
    exec (.errSrcClear m n) s = .next ((s.errSrcW1c n).answer .done) :=
  regCmd_write (by simp [hn]) hr (ok := true) fun _ _ => rfl

theorem exec_errFirstClear {s : State} {m g : Nat} (hg : g < 24) (hr : reaches s m (Off.errFirst g) 4 .errFirst [g] = true) :
    exec (.errFirstClear m g) s = .next ((s.errFirstW1c g).answer .done) :=
  regCmd_write (by simp [hg]) hr (ok := true) fun _ _ => rfl

theorem State.errFirstW1c_effect {s : State} {g : Nat} (hg : g < 24) (h0 : s.flag (Off.errFirst g) 0 = true) :
    (s.errFirstW1c g).reg (Off.errFirst g) = 0 ∧ (s.errFirstW1c g).reg (Off.errFirstNs g) = 0 ∧ (s.errFirstW1c g).reg (Off.errFirstFr g) = 0 ∧
      (s.errFirstW1c g).mem = s.mem := by
  obtain ⟨_, _, _, _, h5, h6, h7⟩ := errRegs_apart (n := 0) (by decide) hg
  rw [State.errFirstW1c, if_pos h0]
  refine ⟨?_, ?_, ?_, rfl⟩
  · rw [State.setReg_reg_other _ _ h6, State.setReg_reg_other _ _ h5, State.setReg_reg_same, Nat.zero_mod]
  · rw [State.setReg_reg_other _ _ h7, State.setReg_reg_same, Nat.zero_mod]
  · rw [State.setReg_reg_same, Nat.zero_mod]

theorem exec_errReactWrite {s : State} {m g : Nat} {hi : Bool} {v : BitVec 64} (hg : g < 24)
    (hr : reaches s m (if hi then Off.errReactHi g else Off.errReactLo g) 8 (if hi then .errReactHi else .errReactLo) [g] = true) :
    exec (.errReactWrite m g hi v) s = .next ((s.errReactSet g hi v.toNat).answer .done) := by
  have hv : v.toNat % 2 ^ (8 * 8) = v.toNat := Nat.mod_eq_of_lt v.isLt
  refine regCmd_write (by simp [hg]) hr (ok := true) fun d _ => ?_
  rw [hv]
  cases hi <;> rfl

theorem State.errReactSet_stored {s : State} {g : Nat} {hi : Bool} (v : Nat) (h : s.flag Off.fprCtrl 31 = false) {j : Nat} (hj : j < 16) :
    (s.errReactSet g hi v).fld (if hi then Off.errReactHi g else Off.errReactLo g) (4 * j) 3 =
      reactStored (32 * g + (if hi then 16 else 0) + j) (s.fld (if hi then Off.errReactHi g else Off.errReactLo g) (4 * j) 3)
        (bits v (4 * j) 3) := by
  rw [State.errReactSet, if_neg (by simp [h])]
  dsimp only
  rw [State.setReg_fld _ _ (by omega), bits_reactWordStored _ _ _ hj]
  rfl

theorem exec_errPinForce {s : State} {m : Nat} (hr : reaches s m Off.errPin 4 .errPin [] = true) :
    exec (.errPinForce m) s = .next ((s.assertErrN 0x3FF).answer .done) :=
  regCmd_write rfl hr (ok := true) fun _ _ => rfl

theorem exec_errPinRelease {s : State} {m : Nat} (hr : reaches s m Off.errPin 4 .errPin [] = true) :
    exec (.errPinRelease m) s = .next (s.errPinArm.answer .done) :=
  regCmd_write rfl hr (ok := true) fun _ _ => rfl

/-- A release is armed while ERR_N is low for less than 20 µs, and made at once after it (16 R427). -/
theorem State.errPinArm_cases (s : State) :
    (s.errPin.low = false ∨ s.shutdown = true → s.errPinArm = s) ∧
    (s.errPin.low = true → s.shutdown = false →
      (s.errPin.since + 20000 ≤ s.time.cycles → s.errPinArm = s.errNRelease) ∧
      (s.time.cycles < s.errPin.since + 20000 → s.errPinArm = { s with errPin := { s.errPin with armed := true } })) := by
  refine ⟨?_, fun hl hs => ⟨fun h => ?_, fun h => ?_⟩⟩
  · rintro (h | h) <;> rw [State.errPinArm, if_pos (by simp [h])]
  · rw [State.errPinArm, if_neg (by simp [hl, hs]), errNMin, if_pos h]
  · rw [State.errPinArm, if_neg (by simp [hl, hs]), errNMin, if_neg (Nat.not_le_of_lt h)]

/-! ### Supply and temperature -/

theorem exec_sagWarn {s : State} {rail : Nat} (h : rail < 7) (hs : s.shutdown = false) : exec (.sagWarn rail) s = .next s.sagWarn := by
  change execSagWarn rail s = _
  rw [execSagWarn, forUnit_next h, if_neg (by simp [hs])]

theorem exec_sagReset {s : State} {rail : Nat} (h : rail < 7) (hs : s.shutdown = false) : exec (.sagReset rail) s =
    .next (if s.ready then ((s.history 1).raise 737).askReset (.warm 737) else (s.history 1).raise 737) := by
  change execSagReset rail s = _
  rw [execSagReset, forUnit_next h, if_neg (by simp [hs])]

/-- One reading of the first site: the warning and the shutdown that it brings (16 R434, R435). -/
theorem exec_thermSample {s : State} {r : Int} (hs : s.shutdown = false) : exec (.thermSample [r]) s =
    .next (if s.thermTwice 0 [r] then ((s.thermRead 0 r).thermWarn [r]).thermShutdown r else (s.thermRead 0 r).thermWarn [r]) := by
  change execThermSample [r] s = _
  rw [execThermSample]
  dsimp only
  rw [if_neg (by simp [hs])]
  rfl

theorem State.thermTwice_one (s : State) (r : Int) :
    s.thermTwice 0 [r] = (decide (1080 ≤ r) && decide (1080 ≤ thermVal (s.fld (Off.therm 0) 0 16))) := by
  simp [State.thermTwice]

theorem State.thermRead_flag (s : State) (r : Int) (i : Nat) : (s.thermRead 0 r).flag Off.fprStat i = s.flag Off.fprStat i :=
  State.setReg_flag_off _ _ _ (by decide)

theorem State.thermWarn_one {u : State} {r : Int} (h : u.flag Off.fprStat 3 = false) :
    u.thermWarn [r] = if 960 ≤ r then (u.setFlag Off.fprStat 3 true).raise 738 else u := by
  rw [State.thermWarn, if_neg (by simp [h])]
  simp

theorem State.lp_takeInput (s : State) (n i c a : Nat) : (s.onLp n fun p => p.takeInput i c a).lp n = (s.lp n).takeInput i c a :=
  State.onLp_lp_same ..

theorem State.errDeliver_some {s : State} {n i c a : Nat} (h : tblGet? s.errHeld (4 * n + i) = some (c, a)) : s.errDeliver n i =
    { s.onLp n fun p => p.takeInput i c a with
      errHeld := tblErase s.errHeld (4 * n + i), errAt := tblSet s.errAt (4 * n + i) (s.time.cycles + 1) } := by
  simp only [State.errDeliver, h]

theorem exec_errorInputPacedDelivery {s : State} {n i : Nat} (hn : n < 98) (hi : i < 3) :
    exec (.errorInputPacedDelivery n i) s = .next (s.errDeliver n i) := by
  change execErrorInputPacedDelivery n i s = _
  rw [execErrorInputPacedDelivery, if_pos hi, forLp_next hn]

/-- Settles O51: the status of a source and of its group after a raise, the writes of the fault block's registers, and the monitors of
the supply and the temperature, each command by its own rule. -/
theorem faultBlock : Obligations.FaultBlock := by
  unfold Obligations.FaultBlock
  intro s
  refine ⟨fun n hn => forUnit_next (f := fun s => s.raise n) hn, fun n h => s.raise_reserved h,
    fun n hn hr h31 h0 => State.raise_again_effect hn hr h31 h0, fun n hn hr hy h31 => State.raise_held_effect hn hr hy h31,
    fun m n hn hr => ⟨_, exec_errSrcClear hn hr, s.errSrcW1c_effect n⟩,
    fun m g hg hr h0 => ⟨_, exec_errFirstClear hg hr, State.errFirstW1c_effect hg h0⟩, ?errReact, ?errPin, ?errNRelease, ?errNIdle, ?sag, ?sagClear,
    fun rail h => forUnit_next (f := fun s => s.raise 740) h, fun ck h => forUnit_next (f := fun s => s.raise 741) h,
    fun d h => forUnit_next (f := fun s => s.raise (742 + d)) h, rfl, ?therm, ?paced⟩
  case errReact =>
    rintro m g hi v off nm hg rfl rfl hr
    refine ⟨fun hl => ?_, fun hl => ⟨_, exec_errReactWrite hg hr, fun j hj => State.errReactSet_stored v.toNat hl hj⟩⟩
    rw [exec_errReactWrite hg hr, State.errReactSet, if_pos hl]
  case errPin =>
    intro m hr
    obtain ⟨hidle, hlow⟩ := s.errPinArm_cases
    rw [exec_errPinForce hr, exec_errPinRelease hr]
    refine ⟨rfl, fun h => by rw [hidle h], fun hl hs => ⟨fun h => by rw [(hlow hl hs).1 h], fun h => ?_⟩⟩
    rw [(hlow hl hs).2 h]
    exact ⟨_, rfl, rfl, hl, rfl⟩
  case errNRelease =>
    intro hl ha hs
    refine ⟨s.errNRelease, ?_, rfl, (State.setFlag_flag _ _ _ _ (by decide)).trans (if_pos rfl), rfl⟩
    change execErrNRelease s = _
    rw [execErrNRelease, if_pos (by simp [hl, ha, hs])]
  case errNIdle =>
    intro ha
    change execErrNRelease s = _
    rw [execErrNRelease, if_neg (by simp [ha])]
  case sag =>
    intro rail h hs
    rw [exec_sagWarn h hs, exec_sagReset h hs, State.sagWarn]
    exact ⟨fun h0 => by rw [if_pos h0], fun h0 => by rw [if_neg (by simp [h0])], fun hy => by rw [if_pos hy], fun hy => by rw [if_neg (by simp [hy])]⟩
  case sagClear =>
    intro h0 hs
    refine ⟨{ s.setFlag Off.fprStat 0 false with twStopped := s.chip.down }, ?_,
      (State.setFlag_flag _ _ _ _ (by decide)).trans (if_pos rfl), rfl, rfl⟩
    change execSagWarnClear s = _
    rw [execSagWarnClear, if_neg (by simp [h0, hs])]
  case therm =>
    rintro r hs h3 u rfl
    rw [exec_thermSample hs, s.thermTwice_one, State.thermWarn_one ((s.thermRead_flag r 3).trans h3)]
    refine ⟨fun h => ?_, fun h h' => ?_, fun h h' => ?_⟩
    · rw [if_neg (by simp; omega), if_neg (by omega)]
    · rw [if_neg (by simp; omega), if_pos h]
    · rw [if_pos (by simp [h, h']), if_pos (by omega)]
  case paced =>
    intro n i c a hn hi
    rw [exec_errorInputPacedDelivery hn hi]
    refine ⟨fun h => ?_, fun h => ?_⟩
    · simp only [State.errDeliver, h]
    · rw [State.errDeliver_some h]
      exact ⟨_, rfl, State.lp_takeInput s n i c a, tblGet?_tblErase_same _ _, rfl, rfl⟩

end Sys2Proof.Machine
end

section
/-! SUPPORT. DRAM errors, fuses, wear, self-test and Lens (17 R439 to R450, 19 R472 to R484), and the statement about them. -/

namespace Sys2Proof.Machine

open Sys2Proof.Safety

/-! ### DRAM errors and fuses -/

theorem State.deviceFails_marked {s : State} {ch p d e : Nat} (h : tblGet? s.svc.marks (8 * ch + placeHalf p) = some e) :
    s.deviceFails ch p d = if e = d then s else (s.dramEvent ch 6 p d 2).spareGone 11 (616 + 4 * ch + 2) := by
  simp only [State.deviceFails, h]

theorem exec_fuseProgram_idle {s : State} (ok : Bool) (h : s.fuseTask = none) : exec (.fuseProgram ok) s = .next s := by
  change execFuseProgram ok s = _
  simp only [execFuseProgram, h]

/-- A fuse cut short: the intended bits that were set, and its record stays (17 R445). -/
def State.fuseCut (s : State) (slot : Nat) (v : BitVec 32) : State :=
  ({ s with svc := { s.svc with fuseProg := some (slot, v) } } : State).setReg (Off.spmapFuse slot)
    ((BitVec.ofNat 32 (s.reg (Off.spmapFuse slot)) ||| Config.fuseCutShort slot v) &&& v).toNat

theorem exec_fuseProgram_whole {s : State} {slot : Nat} {v : BitVec 32} (h : s.fuseTask = some (slot, v)) :
    exec (.fuseProgram true) s = .next (s.fuseWrite slot v) := by
  change execFuseProgram true s = _
  simp only [execFuseProgram, h, if_true]

theorem exec_fuseProgram_cut {s : State} {slot : Nat} {v : BitVec 32} (h : s.fuseTask = some (slot, v)) :
    exec (.fuseProgram false) s = .next (s.fuseCut slot v) := by
  change execFuseProgram false s = _
  simp only [execFuseProgram, h, Bool.false_eq_true, if_false, State.fuseCut]

theorem State.fuseCut_others (s : State) (slot : Nat) (v : BitVec 32) : (s.fuseCut slot v).svc.fuseProg = some (slot, v) ∧
    (s.fuseCut slot v).svc.map = s.svc.map ∧ (s.fuseCut slot v).mem = s.mem :=
  ⟨rfl, rfl, rfl⟩

theorem State.fuseCut_reg (s : State) (slot : Nat) (v : BitVec 32) : (s.fuseCut slot v).reg (Off.spmapFuse slot) =
    ((BitVec.ofNat 32 (s.reg (Off.spmapFuse slot)) ||| Config.fuseCutShort slot v) &&& v).toNat := by
  rw [State.fuseCut]
  generalize (BitVec.ofNat 32 (s.reg (Off.spmapFuse slot)) ||| Config.fuseCutShort slot v) &&& v = x
  rw [State.setReg_reg_same, Nat.mod_eq_of_lt (Nat.lt_trans x.isLt (by decide))]

/-- The life record with `f` more than its whole units, at an hour or between hours (17 R450). -/
def State.lifeLater (s : State) (hour : Bool) (f : Nat) : State :=
  { s.setReg Off.life (min (s.fld Off.life 32 32 + f / 2 ^ 64) (2 ^ 32 - 1) * 2 ^ 32 + min (s.fld Off.life 0 32 + bit01 hour) (2 ^ 32 - 1)) with
    chip := { s.chip with lifeFrac := f % 2 ^ 64 } }

theorem exec_lifeUpdate (s : State) (hour : Bool) :
    exec (.lifeUpdate hour) s = .next (s.lifeLater hour (s.chip.lifeFrac + lifeGain s.hottest)) := by
  change execLifeUpdate hour s = _
  rw [execLifeUpdate, State.lifeLater]

theorem State.lifeLater_effect (s : State) (hour : Bool) (f : Nat) :
    (s.lifeLater hour f).fld Off.life 0 32 = min (s.fld Off.life 0 32 + bit01 hour) (2 ^ 32 - 1) ∧
    (s.lifeLater hour f).fld Off.life 32 32 = min (s.fld Off.life 32 32 + f / 2 ^ 64) (2 ^ 32 - 1) ∧
    (s.lifeLater hour f).chip.lifeFrac = f % 2 ^ 64 ∧ (s.lifeLater hour f).mem = s.mem := by
  refine ⟨(State.setReg_fld _ _ (by decide)).trans ?_, (State.setReg_fld _ _ (by decide)).trans ?_, rfl, rfl⟩
  · rw [bits]
    omega
  · rw [bits]
    omega

/-! ### Self-test -/

/-- The value that BIST_GO writes holds its fields (19 R472). -/
theorem bistGo_fields (sc un : BitVec 8) (k : Bool) :
    bits ((2 ^ 31 + un.toNat * 65536 + sc.toNat * 256 + bit01 k) % 2 ^ (8 * 4)) 8 8 = sc.toNat ∧
    bits ((2 ^ 31 + un.toNat * 65536 + sc.toNat * 256 + bit01 k) % 2 ^ (8 * 4)) 16 8 = un.toNat ∧
    bits ((2 ^ 31 + un.toNat * 65536 + sc.toNat * 256 + bit01 k) % 2 ^ (8 * 4)) 0 1 = bit01 k ∧
    bitOf ((2 ^ 31 + un.toNat * 65536 + sc.toNat * 256 + bit01 k) % 2 ^ (8 * 4)) 31 = true := by
  have hs := sc.isLt
  have hu := un.isLt
  have hk := bit01_le k
  simp only [bits, bitOf, beq_iff_eq]
  omega

/-- The scope, the unit and the kind, as BIST_GO leaves them in BIST_CTRL. -/
def State.bistAsked (s : State) (sc un k : Nat) : State :=
  s.setReg Off.bistCtrl (bits (s.reg Off.bistCtrl) 31 1 * 2 ^ 31 + un * 65536 + sc * 256 + k)

/-- A run of self-test that begins (19 R472). -/
def State.bistBegun (s : State) (sc un k : Nat) : State :=
  ({ (s.bistAsked sc un k).setFlag Off.bistCtrl 31 true with chip := { s.chip with bist := some (sc, un, k) } } : State).setFlag Off.bistStat 30 true

theorem State.bistCtrlWrite_eq (s : State) (v : Nat) : s.bistCtrlWrite v =
    if bitOf v 31 && s.chip.bist.isNone && bistExists (bits v 8 8) (bits v 16 8) && s.bistReady (bits v 8 8) (bits v 16 8) then
      s.bistBegun (bits v 8 8) (bits v 16 8) (bits v 0 1)
    else s.bistAsked (bits v 8 8) (bits v 16 8) (bits v 0 1) := rfl

theorem exec_bistGo {s : State} {m : Nat} {sc un : BitVec 8} {k : Bool} (hr : reaches s m Off.bistCtrl 4 .bistCtrl [] = true) :
    exec (.bistGo m sc un k) s = .next ((if s.chip.bist.isNone && bistExists sc.toNat un.toNat && s.bistReady sc.toNat un.toNat then
      s.bistBegun sc.toNat un.toNat (bit01 k) else s.bistAsked sc.toNat un.toNat (bit01 k)).answer .done) := by
  obtain ⟨hs, hu, hk, hgo⟩ := bistGo_fields sc un k
  refine regCmd_write rfl hr (ok := true) fun _ _ => congrArg (·, true) ((s.bistCtrlWrite_eq _).trans ?_)
  rw [hs, hu, hk, hgo, Bool.true_and]

theorem State.bistBegun_effect (s : State) (sc un k : Nat) : (s.bistBegun sc un k).chip.bist = some (sc, un, k) ∧
    (s.bistBegun sc un k).flag Off.bistCtrl 31 = true ∧ (s.bistBegun sc un k).flag Off.bistStat 30 = true ∧
    (s.bistBegun sc un k).mem = s.mem :=
  ⟨rfl, (State.setFlag_flag_off _ _ _ _ (by decide)).trans ((State.setFlag_flag _ _ _ _ (by decide)).trans (if_pos rfl)),
    (State.setFlag_flag _ _ _ _ (by decide)).trans (if_pos rfl), rfl⟩

theorem exec_bistDone_idle {s : State} (f : BitVec 31) (h : s.chip.bist = none) : exec (.bistDone f) s = .next s := by
  change execBistDone f s = _
  simp only [execBistDone, h]

/-- A run that ended, its lines wiped and its result shown, before its verdict is acted on (19 R473). -/
def State.bistShown (s : State) (sc un k : Nat) (f : BitVec 31) : State :=
  (({ s with chip := { s.chip with bist := none } } : State).bistWipe sc un).bistShow (sc, un, k) (s.bistCounts sc un f)

/-- The end of a run, by its verdict (19 R473, R476, R478). -/
theorem exec_bistDone {s : State} {sc un k : Nat} (f : BitVec 31) (h : s.chip.bist = some (sc, un, k)) : exec (.bistDone f) s =
    .next (match s.bistVerdict (sc, un, k) (s.bistCounts sc un f) with
      | .pass => (s.bistShown sc un k f).engineBack sc un
      | .spared => if sc ≤ 2 then (s.bistShown sc un k f).clusterCondemn un (s.bistCounts sc un f)
        else (s.bistShown sc un k f).engineCondemn sc un
      | .failed => s.bistShown sc un k f) := by
  change execBistDone f s = _
  simp only [execBistDone, h] <;> rfl

/-! ### Lens -/

theorem State.lensFreezeDue_waits {s : State} (h : s.chip.freezeOn = false ∨ s.now < s.reg Off.lensFreezeAt) : s.lensFreezeDue = s := by
  rw [State.lensFreezeDue, if_neg]
  rcases h with h | h <;> simp [h]

/-- A change of the freeze state armed for later, and no snapshot asked for (19 R485). -/
def State.lensFreezeArmed (s : State) (fz : Bool) : State :=
  { s.setFlag Off.lensCtrl 30 fz with chip := { s.chip with freezeOn := true } }

theorem bit01_freeze (fz : Bool) : bitOf (bit01 fz * 2 ^ 30 % 2 ^ (8 * 4)) 28 = false ∧ bitOf (bit01 fz * 2 ^ 30 % 2 ^ (8 * 4)) 30 = fz ∧
    bitOf (bit01 fz * 2 ^ 30 % 2 ^ (8 * 4)) 31 = false := by
  cases fz <;> decide

theorem State.lensFreezeArmed_waits {s : State} {fz : Bool} (h : s.now < s.reg Off.lensFreezeAt) :
    (s.lensFreezeArmed fz).lensFreezeDue = s.lensFreezeArmed fz :=
  State.lensFreezeDue_waits (.inr (Nat.lt_of_lt_of_eq h (State.setReg_reg_other _ _ (by decide)).symm))

theorem exec_lensFreezeArm {s : State} {m : Nat} {fz : Bool} (hr : reaches s m Off.lensCtrl 4 .lensCtrl [] = true)
    (h : s.now < s.reg Off.lensFreezeAt) : exec (.lensFreezeArm m fz) s = .next ((s.lensFreezeArmed fz).answer .done) := by
  obtain ⟨h28, h30, h31⟩ := bit01_freeze fz
  refine regCmd_write rfl hr (ok := true) fun _ _ => congrArg (·, true) ?_
  rw [State.lensCtrlWrite, h28, h30, h31]
  exact State.lensFreezeArmed_waits h

theorem exec_lensSnapArm {s : State} {m : Nat} (hr : reaches s m Off.lensCtrl 4 .lensCtrl [] = true) :
    exec (.lensSnapArm m) s = .next ((s.lensCtrlWrite (2 ^ 31 + s.fld Off.lensCtrl 30 1 * 2 ^ 30)).answer .done) := by
  have hv : (2 ^ 31 + s.fld Off.lensCtrl 30 1 * 2 ^ 30) % 2 ^ (8 * 4) = 2 ^ 31 + s.fld Off.lensCtrl 30 1 * 2 ^ 30 := by
    have h : s.fld Off.lensCtrl 30 1 < 2 := bits_lt (s.reg Off.lensCtrl) 30 1
    omega
  refine regCmd_write rfl hr (ok := true) fun _ _ => ?_
  rw [hv]
  rfl

/-- A counter of the hub, of the L2, of the system cache or of the DRAM gains as it counts (19 R482). -/
theorem exec_lensWrap {s : State} {page i g : Nat} {d : RegDesc} {ix : List Nat} (h : regAt (0x34000000 + page * 4096 + i * 8) = some (d, ix))
    (hn : d.name ∈ [RegName.lensHubCnt, .lensClCnt, .lensScCnt, .lensDrCnt]) :
    exec (.lensWrap page i g) s = .next (s.count (0x34000000 + page * 4096 + i * 8) g) := by
  have hc : lensCounter (0x34000000 + page * 4096 + i * 8) = true := by
    simp only [lensCounter, h]
    simp only [List.mem_cons, List.not_mem_nil, or_false] at hn
    rcases hn with hn | hn | hn | hn <;> rw [hn] <;> rfl
  change execLensWrap page i g s = _
  rw [execLensWrap, if_pos hc]
  simp only [State.lensGain, h]
  simp only [List.mem_cons, List.not_mem_nil, or_false] at hn
  rcases hn with hn | hn | hn | hn <;> rw [hn]

/-- Settles O52: each of these commands by its own rule; a run of self-test by its verdict, a change of the freeze state by its time. -/
theorem lifeTestAndLens : Obligations.LifeTestAndLens := by
  unfold Obligations.LifeTestAndLens
  intro s
  refine ⟨?scrub, ?alert, ?marked, fun ok h => exec_fuseProgram_idle ok h, ?fuse, ?age, ?life,
    ?bistGo, fun h f => exec_bistDone_idle f h, ?bistDone, ?snapOff, ?snap, ?freezeWaits, ?freeze, ?arm, ?wrap⟩
  case scrub =>
    rintro ch a u h rfl
    have hscrub (dev : Option Nat) (b : Nat) (unc : Bool) : exec (.patrolScrub ch a dev b unc) s = execPatrolScrub ch a dev b unc s := rfl
    simp only [hscrub, execPatrolScrub, forUnit_next h, Bool.false_eq_true, if_true, if_false, Option.getD_some, implies_true, and_self]
  case alert =>
    intro ch h
    exact ⟨forUnit_next (f := fun s => s.dramEvent ch 9 0 0 3) h, forUnit_next (f := fun s => s.dramEvent ch 8 0 0 3) h⟩
  case marked =>
    intro ch p d e h
    rw [State.deviceFails_marked h]
    exact ⟨fun he => if_pos he, fun he => if_neg he⟩
  case fuse =>
    intro slot v h
    obtain ⟨hprog, hmap, hmem⟩ := s.fuseCut_others slot v
    exact ⟨exec_fuseProgram_whole h, s.fuseCut slot v, exec_fuseProgram_cut h, hprog, hmap, hmem, s.fuseCut_reg slot v⟩
  case age =>
    intro c deg h
    refine ⟨s.setReg (Off.age c) (min deg 0xFFFF), forUnit_next (f := fun s => s.setReg (Off.age c) (min deg 0xFFFF)) h, ?_, rfl, rfl⟩
    rw [State.setReg_reg_same]
    omega
  case life =>
    intro hour
    exact ⟨s.lifeLater hour (s.chip.lifeFrac + lifeGain s.hottest), _, rfl, exec_lifeUpdate s hour, s.lifeLater_effect hour _⟩
  case bistGo =>
    rintro m sc un k u hr rfl
    rw [exec_bistGo hr]
    refine ⟨fun h => ?_, fun hb he hy => ?_⟩
    · rw [if_neg]
      · rfl
      · rcases h with h | h | h <;> simp [h]
    · rw [if_pos (by simp [hb, he, hy])]
      exact ⟨_, rfl, s.bistBegun_effect _ _ _⟩
  case bistDone =>
    rintro sc un k f v u h rfl rfl
    rw [exec_bistDone f h]
    refine ⟨fun hv => ?_, fun hv hs => ?_, fun hv hs hc => ?_, fun hv hs hc => ?_⟩
    · rw [State.bistVerdict, if_pos hv]
      rfl
    · rw [State.bistVerdict, if_neg hv, if_neg (by exact Nat.not_le_of_lt hs), if_neg (Nat.not_le_of_lt hs)]
      rfl
    · rw [State.bistVerdict, if_neg hv, if_pos (by exact hs), if_pos (by exact hc), if_pos hs]
      rfl
    · rw [State.bistVerdict, if_neg hv, if_pos (by exact hs), if_neg (by simp [hc])]
      rfl
  case snapOff =>
    intro h
    change execLensSnapshot s = _
    rw [execLensSnapshot, if_neg (by simp [h])]
  case snap =>
    intro h
    have he : exec .lensSnapshot s = execLensSnapshot s := rfl
    rw [he, execLensSnapshot]
    exact ⟨fun ht => by rw [if_neg (by simp [ht])], fun ht => by rw [if_pos (by simp [h, ht])]⟩
  case freezeWaits =>
    intro h
    exact congrArg Host.Outcome.next (State.lensFreezeDue_waits h)
  case freeze =>
    intro h ht
    have hd : s.lensFreezeDue = s.lensFreezeAct := by
      rw [State.lensFreezeDue, if_pos (by simp [h, ht])]
    refine ⟨s.lensFreezeAct, congrArg Host.Outcome.next hd, ?_, rfl, rfl⟩
    exact (State.setFlag_flag _ _ _ _ (by decide)).trans (if_pos rfl)
  case arm =>
    intro m hr
    refine ⟨exec_lensSnapArm hr, fun fz h => ⟨_, exec_lensFreezeArm hr h, ?_, ?_, rfl, rfl⟩⟩
    · exact (State.setFlag_flag _ _ _ _ (by decide)).trans (if_pos rfl)
    · exact (State.setFlag_flag _ _ _ _ (by decide)).trans (if_neg (by decide))
  case wrap =>
    rintro page i g off d ix rfl h hn
    exact exec_lensWrap h hn

end Sys2Proof.Machine
end

section
/-! SUPPORT. Resets, boot and power (18 R456 to R471), and the statement about them. -/

namespace Sys2Proof.Machine

open Sys2Proof.Safety

/-! ### The cold reset -/

/-- Every sensor reads below 115 °C, where a shutdown may end (16 R435). -/
def State.cooled (s : State) : Bool := (List.range 24).all fun i => decide (thermVal (s.fld (Off.therm i) 0 16) < 920)

theorem exec_coldReset_shutdown {s : State} {c : Nat} (hs : s.shutdown = true) (hc : c = 1 ∨ c = 2 ∨ c = 3 ∨ c = 7) :
    exec (.coldReset c) s = .next (if s.cooled then (s.coldClear false).rstCold 7 else s.askReset (.cold 7)) := by
  change execColdReset c s = _
  rw [execColdReset, if_neg (by omega), if_pos hs, State.coldReset, if_pos hs]
  rfl

theorem exec_coldReset {s : State} {c : Nat} (hs : s.shutdown = false) (hc : c = 1 ∨ c = 2 ∨ c = 3 ∨ c = 7) :
    exec (.coldReset c) s = .next (if c = 7 ∨ (c = 3 ∧ !s.resetReqs.contains (.cold 3)) then s else s.coldReset c) := by
  change execColdReset c s = _
  rw [execColdReset, if_neg (by omega), if_neg (by simp [hs])]

/-- Before READY, and not after a failed boot, a cold reset records no end of an epoch in the journal (18 R456). -/
theorem State.coldReset_beforeReady {s : State} (hs : s.shutdown = false) (hy : s.ready = false) (hp : s.phase ≠ 0xF) (c : Nat) :
    s.coldReset c = (s.coldClear false).rstCold c := by
  rw [State.coldReset, if_neg (by simp [hs])]
  dsimp only
  rw [if_neg (by simp [hy, hp])]

theorem State.rstCold_fields (s : State) (c : Nat) : (s.rstCold c).fld Off.rstStat 0 4 = c % 16 ∧
    (s.rstCold c).fld Off.rstStat 8 10 = 0x3FF ∧ (s.rstCold c).fld Off.rstStat 32 16 = 0 := by
  rw [State.rstCold]
  refine ⟨?_, ?_, State.setFld_fld_same _ _ _ (by decide)⟩
  · rw [State.setFld_fld_apart _ _ _ (by decide) (by decide), State.setFld_fld_apart _ _ _ (by decide) (by decide)]
    exact State.setFld_fld_same _ _ _ (by decide)
  · rw [State.setFld_fld_apart _ _ _ (by decide) (by decide)]
    exact State.setFld_fld_same _ _ _ (by decide)

theorem memGet_filter_off (m : Mem) (P : Nat × Byte → Bool) {a : Nat} (h : ∀ b, P (a, b) = false) : memGet (m.filter P) a = 0#8 := by
  induction m with
  | nil => rfl
  | cons e t ih =>
    obtain ⟨k, v⟩ := e
    rw [List.filter_cons]
    split
    next hp =>
      rw [memGet, if_neg, ih]
      rintro rfl
      rw [h v] at hp
      exact Bool.false_ne_true hp
    next hp =>
      exact ih

/-! ### The cold boot and the other resets -/

theorem State.bootFail_phase (s : State) : s.bootFail.fld Off.bootStat 4 4 = 0xF := by
  rw [State.bootFail]
  exact (State.setReg_fld_off _ _ _ _ (by decide)).trans (State.setFld_fld_same _ _ _ (by decide))

/-- Neither boot image is good (18 R462). -/
theorem State.bootImage_none {b : BootInput} (s : State) (ha : b.imageA = false) (hb : b.imageB = false) : s.bootImage b = none := by
  rw [State.bootImage]
  simp [ha, hb]

theorem State.coldBoot_noImage {b : BootInput} (s : State) (ha : b.imageA = false) (hb : b.imageB = false) :
    s.coldBoot b = ((((s.bindChannels.bootStraps b).railsSet).mapMerge b.nvjCopyOk b.fuseReadOk).phaseSet 1).bootFail := by
  simp only [State.coldBoot, State.bootImage_none _ ha hb]

theorem exec_coldBoot_idle {s : State} (b : BootInput) (h : s.ready = true ∨ s.shutdown = true ∨ s.phase = 0xF) :
    exec (.coldBoot b) s = .next s := by
  change execColdBoot b s = _
  rw [execColdBoot, if_pos (by rcases h with h | h | h <;> simp [h])]

theorem exec_coldBoot {s : State} (b : BootInput) (hy : s.ready = false) (hs : s.shutdown = false) (hp : s.phase ≠ 0xF) :
    exec (.coldBoot b) s = .next (s.coldBoot b) := by
  change execColdBoot b s = _
  rw [execColdBoot, if_neg (by simp [hy, hs, hp])]

theorem exec_dramInitDone (s : State) : exec .dramInitDone s =
    .next (if s.phase = 6 ∧ !s.flag Off.dramInit 63 then s.setReg Off.dramInit (2 ^ 63 + s.installed / 64 * 64) else s) := rfl

theorem exec_warmReset_four (s : State) : exec (.warmReset 4) s =
    .next (if s.shutdown then s else if !s.ready then s.setFlag Off.rstStat 18 true else s.warmReset 4 0x3FF) := by
  change execWarmReset 4 s = _
  rw [execWarmReset, if_neg (by decide)]
  dsimp only
  rw [if_pos rfl]

/-- A warm reset that was asked for, after READY (18 R467). -/
theorem exec_warmReset_asked {s : State} {c : Nat} (hs : s.shutdown = false) (hy : s.ready = true) (hc : c = 5 ∨ c = 6) :
    exec (.warmReset c) s = .next ((s.warmAsked c).elim s (s.warmReset c)) := by
  change execWarmReset c s = _
  rw [execWarmReset, if_neg (by omega)]
  dsimp only
  rw [if_neg (by omega)]
  cases s.warmAsked c with
  | none => rfl
  | some n => simp [hs, hy]

theorem exec_clusterReset {s : State} {c : Nat} (h : c < 16) : exec (.clusterReset c) s =
    .next (if !s.ready || s.underTest c then s else (s.resetTaken (.cluster c)).clusterReset c) := by
  change execClusterReset c s = _
  rw [execClusterReset, forUnit_next h]

theorem exec_lpRestart {s : State} {n : Nat} (h : n < 98) :
    exec (.lpRestart n) s = .next (if s.lpExists n && !s.shutdown then s.lpRestart n else s) := by
  change execLpRestart n s = _
  rw [execLpRestart, forLp_next h]

theorem LP.restart_eq (p : LP) (alone : Bool) : (p.restart alone).sb = p.sb ∧ (p.restart alone).pc = LP.reset.pc ∧
    (p.restart alone).ps = LP.reset.ps ∧ (p.restart alone).rsv = none ∧ (p.restart true).l1d = p.l1d ∧
    (p.restart false).l1d = LP.reset.l1d ∧ (p.restart alone).run = runReset p := by
  cases alone <;> exact ⟨rfl, rfl, rfl, rfl, rfl, rfl, rfl⟩

/-- Settles O53: each reset by the state it comes in, boot and power by their own rules. -/
theorem resetsAndBoot : Obligations.ResetsAndBoot := by
  unfold Obligations.ResetsAndBoot
  intro s
  refine ⟨?cold, ?shutdown, fun hs hy hp c => State.coldReset_beforeReady hs hy hp c, fun c => State.rstCold_fields _ c,
    fun aon => ⟨rfl, rfl, rfl, rfl, rfl, rfl⟩, ⟨rfl, rfl⟩, rfl, rfl, ?power, ?boot, ?dram, ?dramIdle, ?warmOff, ?warmEarly, ?warm, ?cluster, ?lp,
    ?restart⟩
  case cold =>
    intro hs
    refine ⟨?_, ?_, fun h => ?_, fun h => ?_, ?_⟩ <;> rw [exec_coldReset hs (by decide)]
    · rw [if_neg (by simp)]
    · rw [if_neg (by simp)]
    · rw [if_neg (by rw [h]; simp)]
    · rw [if_pos (by rw [h]; simp)]
    · rw [if_pos (by simp)]
  case shutdown =>
    intro hs c hc
    rw [exec_coldReset_shutdown hs hc]
    refine ⟨fun h => ?_, fun h => ?_⟩ <;> rw [show s.cooled = _ from h]
    · rfl
    · rfl
  case power =>
    exact ⟨_, rfl, fun a ha => memGet_filter_off _ _ fun b => decide_eq_false (Nat.not_le_of_lt ha)⟩
  case boot =>
    intro b
    refine ⟨fun h => exec_coldBoot_idle b h, fun hy hs hp => ⟨exec_coldBoot b hy hs hp, fun ha hb u hu => ⟨?_, u.bootFail_phase⟩⟩⟩
    rw [exec_coldBoot b hy hs hp, State.coldBoot_noImage s ha hb, hu]
  case dram =>
    intro hp hf hi
    rw [exec_dramInitDone, if_pos ⟨hp, by simp [hf]⟩]
    refine ⟨_, rfl, ?_, rfl⟩
    rw [State.setReg_flag _ _ (by decide), bitOf, beq_iff_eq]
    omega
  case dramIdle =>
    intro h
    rw [exec_dramInitDone, if_neg]
    rintro ⟨hp, hf⟩
    rcases h with h | h
    · exact h hp
    · simp [h] at hf
  case warmOff =>
    intro hs
    rw [exec_warmReset_four, if_pos hs]
  case warmEarly =>
    intro hs hy
    rw [exec_warmReset_four, if_neg (by simp [hs]), if_pos (by simp [hy])]
  case warm =>
    intro hs hy
    refine ⟨?_, fun c hc => ⟨fun h => ?_, fun n h => ?_⟩⟩
    · rw [exec_warmReset_four, if_neg (by simp [hs]), if_neg (by simp [hy])]
    · rw [exec_warmReset_asked hs hy hc, h, Option.elim_none]
    · rw [exec_warmReset_asked hs hy hc, h, Option.elim_some]
  case cluster =>
    intro c hc
    rw [exec_clusterReset hc]
    exact ⟨fun h => by rw [if_pos (by rcases h with h | h <;> simp [h])], fun hy ht => by rw [if_neg (by simp [hy, ht])]⟩
  case lp =>
    intro n hn
    rw [exec_lpRestart hn]
    exact ⟨fun h => by rw [if_neg (by rcases h with h | h <;> simp [h])], fun he hs => by rw [if_pos (by simp [he, hs])]⟩
  case restart =>
    intro p alone
    obtain ⟨hsb, hpc, hps, hrsv, hin, hout, hrun⟩ := p.restart_eq alone
    refine ⟨hsb, hpc, hps, hrsv, hin, hout, fun h => ?_, fun h => ?_⟩ <;> rw [hrun, runReset, h]

end Sys2Proof.Machine
end

section
/-! SUPPORT. The host port: its link, its resets, its memory and its registers (15 R395 to R416), and the statement about them. -/

namespace Sys2Proof.Machine

open Sys2Proof.Safety

/-! ### The link -/

/-- The mode, the rate and the width that a training shows (15 R395). -/
def State.hpTrained (s : State) (cxl : Bool) (sp w : Nat) : State :=
  ((s.setFlag Off.hpStat 1 cxl).setFld Off.hpStat 8 2 sp).setFld Off.hpStat 4 3 w

theorem State.hpTrained_shown (s : State) (cxl : Bool) {sp w : Nat} (hs : sp < 4) (hw : w < 8) :
    (s.hpTrained cxl sp w).flag Off.hpStat 1 = cxl ∧ (s.hpTrained cxl sp w).fld Off.hpStat 8 2 = sp ∧
    (s.hpTrained cxl sp w).fld Off.hpStat 4 3 = w := by
  rw [State.hpTrained]
  refine ⟨?_, ?_, ?_⟩
  · rw [State.setFld_flag _ _ _ _ (by decide), if_neg (by decide), State.setFld_flag _ _ _ _ (by decide), if_neg (by decide),
      State.setFlag_flag _ _ _ _ (by decide), if_pos rfl]
  · rw [State.setFld_fld_apart _ _ _ (by decide) (by decide), State.setFld_fld_same _ _ _ (by decide)]
    exact Nat.mod_eq_of_lt hs
  · rw [State.setFld_fld_same _ _ _ (by decide)]
    exact Nat.mod_eq_of_lt hw

theorem exec_cxlLinkTraining (s : State) (cxl : Bool) {sp : BitVec 2} {w : BitVec 3} (hs : sp ≠ 0) (hw : 2 ≤ w.toNat) (hw' : w.toNat ≤ 4) :
    exec (.cxlLinkTraining cxl sp w) s = .next (if cxl then (s.hpTrained cxl sp.toNat w.toNat).hostRises
      else ((s.hpTrained cxl sp.toNat w.toNat).hpEvent 3 0 764).hostRises) := by
  change execCxlLinkTraining cxl sp w s = _
  rw [execCxlLinkTraining, if_neg (by simp only [hs, false_or]; omega)]
  cases cxl <;> rfl

theorem exec_hostLinkDown (s : State) : exec .hostLinkDown s =
    .next (if !s.flag Off.hpStat 0 then s else (((s.setFlag Off.hpStat 0 false).hpEvent 1 0 764).hostInvalidate).logsBreak) := rfl

theorem exec_hostLinkUp (s : State) : exec .hostLinkUp s =
    .next (if s.flag Off.hpStat 0 then s.msixFlushAll else ((s.setFlag Off.hpStat 0 true).hpEvent 1 0 764).msixFlushAll) := rfl

/-! ### The resets of the host port -/

theorem hpDlog_injective : Function.Injective Off.hpDlog := by
  intro i j h
  unfold Off.hpDlog at h
  omega

/-- The dirty logs cleared with their registers. -/
def State.dlogsClear (s : State) : State := (List.range 63).foldl (fun (t : State) i => t.setReg (Off.hpDlog i) 0) s

theorem State.dlogsClear_reg (s : State) {i : Nat} (h : i < 63) : s.dlogsClear.reg (Off.hpDlog i) = 0 := by
  exact (State.foldl_setReg (v := fun _ => 0) hpDlog_injective _ s i).trans ((if_pos (List.mem_range.2 h)).trans (Nat.zero_mod _))

/-- The functions reset and the link's status cleared, before the dirty logs (15 R414). -/
def State.fnsReset (s : State) : State :=
  (((s.hpEvent 2 0 764).hostInvalidate).fns.map (·.1)).foldl (fun (t : State) f => t.fnReset f) ((s.hpEvent 2 0 764).hostInvalidate)

/-- The end of a conventional reset: the logs and the HDM decoder gone, the request taken. -/
def State.hostCleared (s : State) : State :=
  ({ s.dlogsClear with dlogs := [], chip := { s.dlogsClear.chip with hdm := none, hdmErr := false } } : State).resetTaken .hostPort

theorem exec_conventionalReset (s : State) : exec .conventionalReset s = .next (s.fnsReset.setReg Off.hpStat 0).hostCleared := rfl

theorem State.hostCleared_regs (s : State) : s.hostCleared.regs = s.dlogsClear.regs := by
  rw [State.hostCleared]
  generalize s.dlogsClear = t
  rfl

theorem State.hostCleared_effect (s : State) : s.hostCleared.chip.hdm = none ∧ s.hostCleared.chip.hdmErr = false ∧ s.hostCleared.dlogs = [] ∧
    s.hostCleared.resetReqs.contains .hostPort = false ∧ ∀ i : Nat, i < 63 → s.hostCleared.fld (Off.hpDlog i) 0 2 = 0 := by
  refine ⟨rfl, rfl, rfl, ?_, fun i hi => ?_⟩
  · rw [State.hostCleared, State.resetTaken]
    simp
  · rw [State.fld, State.reg_of_regs s.hostCleared_regs, s.dlogsClear_reg hi]
    exact Nat.zero_mod _

/-- A function-level reset of a virtual function: its function, its posting and its log (15 R416). -/
def State.functionReset (s : State) (f : Nat) : State :=
  { ((s.fnReset f).senderReset f).setFld (Off.hpDlog (f - 1)) 0 2 0 with dlogs := tblErase ((s.fnReset f).senderReset f).dlogs f }

theorem exec_functionLevelReset {s : State} {f : Nat} (h0 : 0 < f) (hf : f < 64) :
    exec (.functionLevelReset f) s = .next (s.functionReset f) := by
  change execFunctionLevelReset f s = _
  rw [execFunctionLevelReset, forUnit_next hf]
  dsimp only
  rw [if_neg (by omega), State.functionReset]

theorem State.functionReset_effect (s : State) (f : Nat) : ((s.functionReset f).fn f).table = HostFn.reset.table ∧
    ((s.functionReset f).fn f).pend = (s.fn f).pend ∧ (s.functionReset f).epoch f = (s.epoch f + 1) % 16 ∧
    (s.functionReset f).fld (Off.hpDlog (f - 1)) 0 2 = 0 ∧ (s.functionReset f).mem = s.mem := by
  have hfn : (s.functionReset f).fn f = { HostFn.reset with pend := (s.fn f).pend } := tblGetD_tblSet_same _ _ _ _
  exact ⟨by rw [hfn], by rw [hfn], tblGetD_tblSet_same _ _ _ _, State.setFld_fld_same _ _ _ (by decide), rfl⟩

/-! ### Device memory for the host -/

/-- What HDM_COMMIT does with settings that fit (15 R401). -/
def State.hdmSet (s : State) (base size skip : Nat) : State :=
  { s.setFlag Off.hpStat 10 true with chip := { s.chip with hdm := some (base, size, skip), hdmErr := false } }

def State.hdmFail (s : State) : State := { s.setFlag Off.hpStat 10 false with chip := { s.chip with hdm := none, hdmErr := true } }

theorem exec_hdmCommit {s : State} (h : s.hostOk = true) (base size skip ways : Nat) : exec (.hdmCommit base size skip ways) s =
    .next (if size % 0x10000000 = 0 ∧ skip % 0x10000000 = 0 ∧ size ≤ 2 ^ 40 ∧ skip + size ≤ s.installed ∧ ways = 1 then
      s.hdmSet base size skip else s.hdmFail) := by
  change execHdmCommit base size skip ways s = _
  rw [execHdmCommit, if_neg (by simp [h]), hdmUnit, State.hdmSet, State.hdmFail]

theorem exec_host_idle {s : State} (h : s.hostOk = false) (a n k w : Nat) (bs : List (BitVec 8)) : exec (.hdmCommit a n k w) s = .next s ∧
    exec (.cxlMemRead a n) s = .next s ∧ exec (.cxlMemWrite a bs) s = .next s ∧ exec (.hostSnoop a true) s = .next s := by
  have hi : (!s.hostOk) = true := by simp [h]
  refine ⟨congrArg Host.Outcome.next (if_pos hi), congrArg Host.Outcome.next (if_pos ?_), congrArg Host.Outcome.next (if_pos ?_),
    congrArg Host.Outcome.next (if_pos ?_)⟩ <;> rw [hi, Bool.true_or]

theorem State.hdmDpa_within {s : State} {a n base size skip : Nat} (h : s.chip.hdm = some (base, size, skip)) (hb : base ≤ a)
    (he : a + n ≤ base + size) : s.hdmDpa a n = some (a - base + skip) := by
  simp only [State.hdmDpa, h, hb, he, and_self, if_true]

theorem exec_cxlMemRead {s : State} {a n d : Nat} (h : s.hostOk = true) (hy : s.ready = true) (hd : s.hdmDpa a n = some d) :
    exec (.cxlMemRead a n) s =
      .next ((s.countHub 2 4 1).answer (.bytes ((s.countHub 2 4 1).agentRead d n) ((s.countHub 2 4 1).poisoned d n))) := by
  change execCxlMemRead a n s = _
  simp only [execCxlMemRead, h, hy, hd, Bool.not_true, Bool.or_self, Bool.false_eq_true, if_false]

theorem exec_cxlMemWrite {s : State} {a d : Nat} {bs : List (BitVec 8)} (h : s.hostOk = true) (hy : s.ready = true)
    (hd : s.hdmDpa a bs.length = some d) : exec (.cxlMemWrite a bs) s = .next (((s.countHub 2 5 1).agentWrite d bs).answer .done) := by
  change execCxlMemWrite a bs s = _
  simp only [execCxlMemWrite, h, hy, hd, Bool.not_true, Bool.or_self, Bool.false_eq_true, if_false]

/-- A snoop of a clean line that no cluster holds, its copies kept (15 R403). -/
theorem exec_hostSnoop {s : State} {a : Nat} (h : s.hostOk = true) (hk : s.addrKind (lineOf (hostBase + a)) = .host)
    (hh : s.holders (lineOf (hostBase + a)) = []) (hu : tblGet? s.underL2 (lineOf (hostBase + a)) = none) :
    exec (.hostSnoop a false) s = .next (((s.l2WriteBack (lineOf (hostBase + a))).l2Clean (lineOf (hostBase + a))).answer .done) := by
  change execHostSnoop a false s = _
  rw [execHostSnoop]
  dsimp only
  rw [if_neg (by simp [h, hk]), hh, hu]
  rfl

/-! ### MSI-X -/

/-- Vector `v` of function `f`, unmasked (15 R398). -/
def State.msixOpened (s : State) (f v : Nat) : State :=
  { s with fns := tblSet s.fns f { s.fn f with table := tblSet (s.fn f).table v { s.msixEntry f v with masked := false } } }

theorem exec_msixUnmask {s : State} {f v : Nat} (hf : f < 64) (hv : v < msixCount f) :
    exec (.msixUnmask f v) s = .next ((s.msixOpened f v).msixFlush f v) := by
  change execMsixUnmask f v s = _
  rw [execMsixUnmask, forUnit_next hf, if_pos hv, State.msixPut, State.msixOpened]

theorem State.msixOpened_fn (s : State) (f v : Nat) : (s.msixOpened f v).fn f =
    { s.fn f with table := tblSet (s.fn f).table v { s.msixEntry f v with masked := false } } := tblGetD_tblSet_same _ _ _ _

theorem State.countHub_fns_out (s : State) (p i k : Nat) : (s.countHub p i k).fns = s.fns ∧ (s.countHub p i k).out = s.out := by
  rw [State.countHub, State.count]
  dsimp only
  (repeat' split) <;> exact ⟨rfl, rfl⟩

/-- The message of a pending vector that is open goes out, and the vector is pending no longer (15 R398). -/
theorem State.msixFlush_open {u : State} {f v : Nat} (hp : (u.fn f).pend.contains v = true) (ho : u.msixOpen f v = true) :
    ((u.msixFlush f v).fn f).pend.contains v = false ∧ (u.msixFlush f v).out = u.out ++ [.msix f v] := by
  rw [State.msixFlush, if_pos (by rw [hp, ho]; rfl)]
  generalize ht : State.emit _ _ = t
  obtain ⟨hfns, hout⟩ := t.countHub_fns_out 2 7 1
  have hfn : (t.countHub 2 7 1).fn f = { u.fn f with pend := (u.fn f).pend.filter (· != v) } := by
    rw [State.fn, hfns, ← ht]
    exact tblGetD_tblSet_same _ _ _ _
  refine ⟨?_, hout.trans (ht ▸ rfl)⟩
  rw [hfn]
  simp

/-! ### Register pages -/

theorem exec_barAccess_off {s : State} {b : BarAddr} (size : Nat) (w : Option (BitVec 64)) (hb : barHas b = true) (h : s.flag Off.hpStat 0 = false) :
    exec (.barAccess b size w) s = .next s := by
  change execBarAccess b size w s = _
  simp only [execBarAccess, hb, h, Bool.not_true, Bool.not_false, Bool.true_or, Bool.false_eq_true, if_false, if_true]

/-- Before READY a BAR read gives zero and a write is dropped (15 R409). -/
theorem exec_barAccess_early {s : State} {b : BarAddr} (size : Nat) (hb : barHas b = true) (h : s.flag Off.hpStat 0 = true)
    (hf : b.fn ≤ s.fld Off.hpStat 16 6) (hy : s.ready = false) : exec (.barAccess b size none) s = .next (s.answer (.value 0)) ∧
      ∀ x : BitVec 64, exec (.barAccess b size (some x)) s = .next (s.answer .done) := by
  have he (w : Option (BitVec 64)) : exec (.barAccess b size w) s = execBarAccess b size w s := rfl
  have hd : decide (s.fld Off.hpStat 16 6 < b.fn) = false := decide_eq_false (Nat.not_lt_of_le hf)
  simp only [he, execBarAccess, hb, h, hd, hy, Bool.not_true, Bool.not_false, Bool.or_self, Bool.false_eq_true, if_false, if_true, implies_true,
    and_self]

section
variable {s : State} {b : BarAddr} {size off : Nat} (hb : barHas b = true) (h : s.flag Off.hpStat 0 = true)
  (hf : b.fn ≤ s.fld Off.hpStat 16 6) (hy : s.ready = true) (ht : s.barTo b.fn b.offset = .reg off)
include hb h hf hy ht

theorem exec_barAccess_read {u : State} {v : Nat} (hr : readReg s b.fn 0 off size = some (u, v)) :
    exec (.barAccess b size none) s = .next (u.answer (.value (BitVec.ofNat 64 v))) := by
  have hd : decide (s.fld Off.hpStat 16 6 < b.fn) = false := decide_eq_false (Nat.not_lt_of_le hf)
  change execBarAccess b size none s = _
  simp only [execBarAccess, hb, h, hd, hy, ht, hr, Bool.not_true, Bool.or_self, Bool.false_eq_true, if_false]

theorem exec_barAccess_refused (hr : readReg s b.fn 0 off size = none) : exec (.barAccess b size none) s =
    .next (((s.accessRefused off size b.fn).hpEvent 8 b.fn 766).answer .completerAbort) := by
  have hd : decide (s.fld Off.hpStat 16 6 < b.fn) = false := decide_eq_false (Nat.not_lt_of_le hf)
  change execBarAccess b size none s = _
  simp only [execBarAccess, hb, h, hd, hy, ht, hr, Bool.not_true, Bool.or_self, Bool.false_eq_true, if_false, State.barRefused]

theorem exec_barAccess_write {u : State} {x : BitVec 64} (hw : writeReg s b.fn 0 off size (x.toNat % 2 ^ (8 * size)) = (u, true)) :
    exec (.barAccess b size (some x)) s = .next (u.answer .done) := by
  have hd : decide (s.fld Off.hpStat 16 6 < b.fn) = false := decide_eq_false (Nat.not_lt_of_le hf)
  change execBarAccess b size (some x) s = _
  simp only [execBarAccess, hb, h, hd, hy, ht, hw, Bool.not_true, Bool.or_self, Bool.false_eq_true, if_false]

end

/-- Settles O54: each access and each change of the link by its own rule. -/
theorem hostPort : Obligations.HostPort := by
  unfold Obligations.HostPort
  intro s
  refine ⟨?training, ?down, ?up, ⟨_, exec_conventionalReset s, State.hostCleared_effect _⟩,
    fun f h0 hf => ⟨_, exec_functionLevelReset h0 hf, s.functionReset_effect f⟩, fun h a n k w bs => exec_host_idle h a n k w bs, ?hdm, ?mem, ?snoop,
    ?ats, ?msix, ?bar⟩
  case training =>
    rintro sp w cxl u hs hw hw' rfl
    exact ⟨s.hpTrained_shown cxl sp.isLt w.isLt, exec_cxlLinkTraining s cxl hs hw hw'⟩
  case down =>
    intro h
    rw [exec_hostLinkDown, exec_hostLinkUp, h]
    exact ⟨rfl, rfl⟩
  case up =>
    intro h
    rw [exec_hostLinkDown, exec_hostLinkUp, h]
    exact ⟨rfl, rfl⟩
  case hdm =>
    intro h base size skip ways
    rw [exec_hdmCommit h]
    refine ⟨fun h1 h2 h3 h4 h5 => ⟨s.hdmSet base size skip, by rw [if_pos ⟨h1, h2, h3, h4, h5⟩], rfl, ?_, rfl⟩, fun hbad => ⟨s.hdmFail, ?_, rfl, rfl⟩⟩
    · exact (State.setFlag_flag _ _ _ _ (by decide)).trans (if_pos rfl)
    · rw [if_neg]
      rintro ⟨h1, h2, h3, h4, h5⟩
      rcases hbad with h | h | h | h | h
      · exact h h1
      · exact h h2
      · exact Nat.not_lt_of_le h3 h
      · exact Nat.not_lt_of_le h4 h
      · exact h h5
  case mem =>
    rintro h hy a n base size skip u v hd hb he rfl rfl
    refine ⟨exec_cxlMemRead h hy (State.hdmDpa_within hd hb he), ?_⟩
    rintro bs rfl
    exact exec_cxlMemWrite h hy (State.hdmDpa_within hd hb he)
  case snoop =>
    rintro h a l u rfl hk hh hu rfl
    exact exec_hostSnoop h hk hh hu
  case ats =>
    intro f pg hf
    have he : exec (.atsInvalidation f pg) s = .next (if s.flag Off.hpStat 0 then s.answer .done else s) := by
      change execAtsInvalidation f pg s = _
      rw [execAtsInvalidation, forUnit_next hf]
    rw [he]
    exact ⟨fun h => by rw [if_pos h], fun h => by rw [if_neg (by simp [h])]⟩
  case msix =>
    intro f v hf hv
    refine ⟨s.msixOpened f v, ?_, ?_, rfl, rfl, exec_msixUnmask hf hv, fun hp ho => State.msixFlush_open hp ho⟩
    · rw [s.msixOpened_fn]
    · rw [s.msixOpened_fn]
  case bar =>
    intro b size w hb
    refine ⟨fun h => exec_barAccess_off size w hb h, fun h hf => ⟨fun hy => exec_barAccess_early size hb h hf hy, fun hy off ht => ?_⟩⟩
    exact ⟨fun u v hr => exec_barAccess_read hb h hf hy ht hr, fun hr => exec_barAccess_refused hb h hf hy ht hr,
      fun u x hw => exec_barAccess_write hb h hf hy ht hw⟩

end Sys2Proof.Machine
end

section
/-! SUPPORT. What stands before a command of Yafolo, and how a command is answered (14 R378 to R393), and the statement about it. -/

namespace Sys2Proof.Machine

open Sys2Proof.Safety

/-! ### A command's answer -/

section
variable {h : CmdHdr} {opcode : Nat} {args : List Nat} {b : By} {s u t : State} {f : State → Ans}

/-- An accepted command that is done completes with OK (14 R382). -/
theorem yafRun_done {res : List Byte} (ha : accepted h opcode args b s = true) (hu : u = s.takeCmd h.master h.cp) (hf : f u = Ans.ok t res) :
    yafRun h opcode args b s f = .next (yafDone h opcode t res) := by
  rw [yafRun_accepted ha, ← hu, hf]
  rfl

/-- An accepted command that is turned away completes with its code (14 R393). -/
theorem yafRun_un {c : Code} (ha : accepted h opcode args b s = true) (hu : u = s.takeCmd h.master h.cp) (hf : f u = Ans.un t c) :
    yafRun h opcode args b s f = .next (yafNot h opcode t c none) := by
  rw [yafRun_accepted ha, ← hu, hf]
  rfl

theorem yafRun_no {c : Code} {d : Nat} (ha : accepted h opcode args b s = true) (hu : u = s.takeCmd h.master h.cp) (hf : f u = Ans.no t c d) :
    yafRun h opcode args b s f = .next (yafNot h opcode t c (some d)) := by
  rw [yafRun_accepted ha, ← hu, hf]
  rfl

/-- A command that has only started is answered later (14 R383). -/
theorem yafRun_wait (ha : accepted h opcode args b s = true) (hu : u = s.takeCmd h.master h.cp) (hf : f u = Ans.wait t) :
    yafRun h opcode args b s f = .next t := by
  rw [yafRun_accepted ha, ← hu, hf]
  rfl

/-! ### The checks before a command -/

theorem yafRun_notTaken (he : cmdExists h = true) (ht : s.yafTakes h = false) : yafRun h opcode args b s f = .next s := by
  simp only [yafRun, he, ht, Bool.not_true, Bool.not_false, Bool.false_eq_true, if_false, if_true]

/-- A command that a check turns away is popped and answered, and does nothing else. -/
theorem yafRun_checked {c : Code} {d : Option Nat} (he : cmdExists h = true) (ht : s.yafTakes h = true) (hu : u = s.takeCmd h.master h.cp)
    (hc : s.yafCheck h (opcode == 1) args b = some (c, d)) : yafRun h opcode args b s f = .next (yafNot h opcode u c d) := by
  simp only [yafRun, he, ht, hc, Bool.not_true, Bool.false_eq_true, if_false, ← hu, yafNot]

theorem State.yafCheck_cp1 {hello : Bool} (h1 : h.cp = 1) (hs : s.cp1Serves = false) :
    s.yafCheck h hello args b = some (.badState, some 0xC1) := by
  rw [State.yafCheck, if_pos ⟨h1, by simp [hs]⟩]

variable (hcp : h.cp = 0 ∨ s.cp1Serves = true)
include hcp

theorem cp_serves : ¬ (h.cp = 1 ∧ (!s.cp1Serves) = true) := by
  rintro ⟨h1, hs⟩
  rcases hcp with h0 | h0
  · exact absurd (h0.symm.trans h1) (by decide)
  · simp [h0] at hs

theorem State.yafCheck_epoch {hello : Bool} (he : h.epoch.toNat ≠ s.epoch h.master) :
    s.yafCheck h hello args b = some (.staleEpoch, none) := by
  rw [State.yafCheck, if_neg (cp_serves hcp), if_pos he]

theorem State.yafCheck_hello (he : h.epoch.toNat = s.epoch h.master) (hh : (s.req h.master).hello = false) :
    s.yafCheck h false args b = some (.badState, some 0x48) := by
  rw [State.yafCheck, if_neg (cp_serves hcp), if_neg (Classical.not_not.2 he), if_pos (by simp [hh])]

variable (he : h.epoch.toNat = s.epoch h.master) (hh : (s.req h.master).hello = true)
include he hh

theorem State.yafCheck_tag {hello : Bool} (ht : h.tag = 0) : s.yafCheck h hello args b = some (.badArg, some 0xFE) := by
  rw [State.yafCheck, if_neg (cp_serves hcp), if_neg (Classical.not_not.2 he), if_neg (by simp [hh]), if_pos ht]

theorem State.yafCheck_length {hello : Bool} (ht : h.tag ≠ 0) (hl : h.length < 8 + argsEnd args ∨ (!h.padZero) = true) :
    s.yafCheck h hello args b = some (.badLength, none) := by
  rw [State.yafCheck, if_neg (cp_serves hcp), if_neg (Classical.not_not.2 he), if_neg (by simp [hh]), if_neg ht, if_pos hl]

theorem State.yafCheck_class {hello : Bool} (ht : h.tag ≠ 0) (hl : 8 + argsEnd args ≤ h.length) (hz : h.padZero = true)
    (hb : b.admits h.master = false) : s.yafCheck h hello args b = some (.notPermitted, none) := by
  have hok : ¬ (h.length < 8 + argsEnd args ∨ (!h.padZero) = true) := by
    rw [hz]
    simpa using hl
  rw [State.yafCheck, if_neg (cp_serves hcp), if_neg (Classical.not_not.2 he), if_neg (by simp [hh]), if_neg ht, if_neg hok, if_pos (by simp [hb])]

end

/-! ### Results and the objects of a command -/

theorem foldl_append_prefix {α β : Type} (g : List β → α → List β) (ls : List α) (bs : List β) :
    bs <+: ls.foldl (fun bs a => bs ++ g bs a) bs := by
  induction ls generalizing bs with
  | nil => exact List.prefix_refl bs
  | cons a as ih => exact (List.prefix_append bs (g bs a)).trans (ih _)

/-- Further fields leave the bytes of the first ones as they are (14 R381). -/
theorem packFields_take (xs ys : List (Nat × Nat)) : (packFields (xs ++ ys)).take (packFields xs).length = packFields xs := by
  refine List.prefix_iff_eq_take.1 ?_ |>.symm
  have h := foldl_append_prefix (fun (bs : List Byte) (f : Nat × Nat) => List.replicate (roundUp bs.length f.1 - bs.length) 0 ++ natBytes f.1 f.2)
    ys (packFields xs)
  simpa only [packFields, List.foldl_append, List.append_assoc] using h

theorem packFields_cons_take {k : Nat} (hk : 0 < k) (a : Nat) (ys : List (Nat × Nat)) : (packFields ((k, a) :: ys)).take k = natBytes k a := by
  have hp : packFields [(k, a)] = natBytes k a := by
    simp [packFields, roundUp, Nat.div_eq_of_lt (Nat.sub_lt hk Nat.one_pos)]
  have h := packFields_take [(k, a)] ys
  rwa [hp, natBytes_length] at h

theorem packFields_two_take (a b : Nat) (ys : List (Nat × Nat)) :
    (packFields ((2, a) :: (2, b) :: ys)).take 4 = natBytes 2 a ++ natBytes 2 b := by
  have hp : packFields [(2, a), (2, b)] = natBytes 2 a ++ natBytes 2 b := by
    simp [packFields, roundUp]
  have h := packFields_take [(2, a), (2, b)] ys
  rwa [hp, List.length_append, natBytes_length, natBytes_length] at h

theorem State.onSlot_of {s : State} {m mid n : Nat} (f : Nat → Ans) (hs : s.lpSlot mid = some n) (hm : s.mayLp m n = true) :
    s.onSlot m mid f = f n := by
  simp only [State.onSlot, hs, hm, Bool.not_true, Bool.false_eq_true, if_false]

/-! ### Opcodes not assigned -/

theorem exec_badOpcode {h : CmdHdr} {op fl : BitVec 16} {s : State} (he : cmdExists h = true) (ho : fl ≠ 1 ∨ op.toNat ∉ opcodes) :
    exec (.badOpcode h op fl) s = .next (if s.yafTakes h then
      (if h.cp = 1 ∧ (!s.cp1Serves) = true then yafNot h op.toNat (s.takeCmd h.master h.cp) .badState (some 0xC1)
        else yafNot h op.toNat (s.takeCmd h.master h.cp) .badOpcode none)
      else s) := by
  have hok : ¬ (!cmdExists h || (fl == 1 && opcodes.contains op.toNat)) = true := by
    rcases ho with ho | ho
    · rw [he, show (fl == 1) = false from beq_eq_false_iff_ne.2 ho, Bool.false_and]
      decide
    · simp [he, ho]
  change execBadOpcode h op fl s = _
  rw [execBadOpcode, if_neg hok]
  cases s.yafTakes h with
  | false => rfl
  | true =>
    by_cases hc : h.cp = 1 ∧ (!s.cp1Serves) = true
    · rw [if_pos hc, if_pos hc]
      rfl
    · rw [if_neg hc, if_neg hc]
      rfl

/-- Settles O55: the checks in their order, each turning the command away with its own code. -/
theorem yafoloChecks : Obligations.YafoloChecks := by
  unfold Obligations.YafoloChecks
  intro h s u he hu
  refine ⟨fun ht => ⟨yafRun_notTaken he ht, fun op fl hf => ?_⟩, fun ht hcp => ⟨?_, ?_, fun op fl ho => ?_⟩, fun ht h1 hs => ?_⟩
  · rw [exec_badOpcode he (.inl hf), if_neg (by simp [ht])]
  · exact fun hp => yafRun_checked he ht hu (State.yafCheck_epoch hcp hp)
  · refine fun hp => ⟨fun hh => yafRun_checked he ht hu (State.yafCheck_hello hcp hp hh), fun hh => ⟨fun h0 => ?_, fun h0 hl => ?_,
      fun h0 hl hz hm c => ?_⟩⟩
    · exact yafRun_checked he ht hu (State.yafCheck_tag hcp hp hh h0)
    · exact yafRun_checked he ht hu (State.yafCheck_length hcp hp hh h0 (.inl hl))
    · exact yafRun_checked he ht hu (State.yafCheck_class hcp hp hh h0 hl hz (by simp [By.admits, hm]))
  · rw [exec_badOpcode he ho, if_pos ht, if_neg (cp_serves hcp), hu]
  · exact yafRun_checked he ht hu (State.yafCheck_cp1 h1 hs)

end Sys2Proof.Machine
end

section
/-! SUPPORT. The device, partition and program commands of Yafolo (14 R386 to R394), and the statement about them. -/

namespace Sys2Proof.Machine

open Sys2Proof.Safety

theorem yafHello_met {u : State} {m version : Nat} (hv : 0x0100 ≤ version) : ∃ ys, yafHello m version u =
    Ans.ok (u.onReq m fun r => { r with hello := true }) (packFields ((2, 0x0100) :: (2, m) :: ys)) :=
  ⟨_, if_neg (Nat.not_lt_of_le hv)⟩

/-! ### Partitions and programs -/

theorem yafPartCreate_legal {u : State} {part owner base size : Nat} {lps : List Nat} (hp : part < 64) (ho : u.fnExists owner = true)
    (hl : lps.any (fun n => !u.lpExists n) = false) (hb : base % 4096 = 0) (hz : size % 4096 = 0) (hi : base + size ≤ u.installed) :
    yafPartCreate part owner base size lps u = if (tblGet? u.parts part).isSome then Ans.un u .badState
      else ((lps.find? fun n => (u.partOf n).isSome).elim
        (Ans.ok { u with parts := tblSet u.parts part ⟨owner, base, size, lps⟩ } []) fun n => Ans.lpState u n) := by
  rw [yafPartCreate, if_neg (by omega), if_neg (by simp [ho, hl]), if_neg (by omega)]
  cases lps.find? fun n => (u.partOf n).isSome with
  | none => rfl
  | some n => rfl

theorem yafPartDestroy_there {u : State} {m part : Nat} {p : Part} (hp : part < 64) (ht : tblGet? u.parts part = some p) :
    yafPartDestroy m part u = if !u.mayPart m part then Ans.un u .notOwner
      else ((p.lps.find? fun n => (u.lp n).code == 2).elim
        (Ans.ok { p.lps.foldl State.lpUnload u with parts := tblErase (p.lps.foldl State.lpUnload u).parts part } []) fun n => Ans.lpState u n) := by
  rw [yafPartDestroy, if_neg (by omega)]
  simp only [ht]
  cases p.lps.find? fun n => (u.lp n).code == 2 with
  | none => rfl
  | some n => rfl

section
variable {u : State} {m mid image len crc n : Nat} (hs : u.lpSlot mid = some n) (hm : u.mayLp m n = true)
include hs hm

theorem yafProgLoad_running (h0 : (u.lp n).code ≠ 0) (h1 : (u.lp n).code ≠ 1) :
    yafProgLoad m mid image len crc u = Ans.no u .badState (u.lp n).code := by
  rw [yafProgLoad, State.onSlot_of _ hs hm, if_pos ⟨h0, h1⟩, Ans.lpState]

variable {i : Nat} {p : Part} {bs : List Byte} (hc : (u.lp n).code = 0 ∨ (u.lp n).code = 1)
  (hb : u.bufRead m image len = some bs) (hp : u.partOf n = some (i, p))
include hc hb hp

theorem yafProgLoad_faulty {d : Nat} (hf : u.imageFault p bs crc = some d) : yafProgLoad m mid image len crc u = Ans.no u .imageInvalid d := by
  rw [yafProgLoad, State.onSlot_of _ hs hm, if_neg (by omega)]
  simp only [hb, hp, hf]

/-- A good image is copied, and its start state is given to the logical processor (14 R391). -/
theorem yafProgLoad_good (hf : u.imageFault p bs crc = none) {r k : Nat} {t v : State} (hr : r = fieldLE bs 6 1) (hk : k = fieldLE bs 7 1)
    (hg : u.segsRead m image (imageSegs bs r k) = true) (ht : u.copySegs m image (imageSegs bs r k) = some t)
    (hv : v = t.onLp n (fun q => q.start (imageOf bs r) (t.imageWs (imageOf bs r)) .loaded)) : yafProgLoad m mid image len crc u =
      Ans.ok { v with yaf := { v.yaf with images := tblSet v.yaf.images n (imageOf bs r) } } (packFields [(8, (imageOf bs r).pc), (1, r), (1, k)]) := by
  subst hr hk hv
  rw [yafProgLoad, State.onSlot_of _ hs hm, if_neg (by omega)]
  simp only [hb, hp, hf, hg, ht, Option.getD_some, Bool.not_true, Bool.false_eq_true, if_false]

end

theorem yafLpStatus_pair {u : State} {m mid n : Nat} (hs : u.lpSlot mid = some n) (hm : u.mayLp m n = true) (hsp : u.isSplit (n / 6) = false) :
    ∃ ys, yafLpStatus m mid u = Ans.ok u (packFields ((1, (u.lp n).code) :: ys)) :=
  ⟨_, (State.onSlot_of _ hs hm).trans (if_neg (Bool.eq_false_iff.1 hsp))⟩

/-! ### Range commands -/

theorem State.rangeCheck_engine {u : State} {m scope cluster addr lines : Nat} (f : RangeEngine → Ans) (hs : scope ≤ 1)
    (hc : scope = 0 → cluster < 16) (hm : u.mayRange m addr lines = true) (ha : addr < 2 ^ 52)
    (ht : scope = 0 → u.underTest cluster = false) :
    u.rangeCheck m scope cluster addr lines f = (u.freeEngine scope cluster).elim (Ans.un u .busy) f := by
  have hc' : ¬ (scope = 0 ∧ 16 ≤ cluster) := fun h => Nat.not_le_of_lt (hc h.1) h.2
  have ht' : ¬ (scope = 0 ∧ u.underTest cluster = true) := fun h => Bool.false_ne_true ((ht h.1).symm.trans h.2)
  rw [State.rangeCheck, if_neg (by omega), if_neg hc', if_neg (by simp [hm]), if_neg (Nat.not_le_of_lt ha), if_neg ht']
  cases u.freeEngine scope cluster with
  | none => rfl
  | some e => rfl

theorem rangeAns_done {t : State} {e : RangeEngine} (moved skips : Bool) (h : t.fld (rmStat e) 0 4 = 2 ∨ t.fld (rmStat e) 0 4 = 3) :
    rangeAns t e moved skips = Ans.ok t (packFields ((4, t.fld (rmStat e) 32 32) :: if skips then [(4, t.fld (rmStat e) 16 16)] else [])) := by
  rw [rangeAns]
  exact if_pos h

/-- Settles O56: each command's own checks, and what it does where they pass. -/
theorem yafoloPrograms : Obligations.YafoloPrograms := by
  unfold Obligations.YafoloPrograms
  intro h s u hu
  refine ⟨?hello, fun ha => ⟨_, yafRun_done ha hu rfl, packFields_two_take _ _ _⟩, ?identity,
    ?mask, ?lock, ?create, ?destroy, ?load, ?lps, ?range, ?durable⟩
  case hello =>
    intro v ha
    refine ⟨fun hv => yafRun_un ha hu (if_pos hv), fun hv => ?_⟩
    obtain ⟨ys, hys⟩ := yafHello_met (u := u) (m := h.master) hv
    exact ⟨_, yafRun_done ha hu hys, packFields_two_take _ _ ys⟩
  case identity =>
    intro d p m v ha
    refine ⟨fun hb => yafRun_un ha hu ?_, fun hv hm hs t ht => yafRun_done ha hu ?_⟩
    · rw [yafSetIdentity, if_pos hb]
    · rw [yafSetIdentity, if_neg (by omega), if_neg (by simp [hs]), ht]
  case mask =>
    intro mk ha
    exact yafRun_done (f := fun s => Ans.ok (s.onReq h.master fun r => { r with mask := mk.toNat }) []) ha hu rfl
  case lock =>
    intro ha
    refine ⟨fun hl => yafRun_un ha hu ?_, fun hl => yafRun_done ha hu ?_⟩
    · rw [yafLockConfig]
      exact if_pos hl
    · rw [yafLockConfig]
      exact if_neg (Bool.eq_false_iff.1 hl)
  case create =>
    intro pt ow b z l0 l1 ha hp ho hl hb hz hi
    refine ⟨fun ht => yafRun_un ha hu ?_, fun ht hf => yafRun_done ha hu ?_⟩
    · rw [yafPartCreate_legal hp ho hl hb hz hi, if_pos (Option.isSome_iff_ne_none.2 ht)]
    · rw [yafPartCreate_legal hp ho hl hb hz hi, if_neg (by simp [ht]), hf, Option.elim_none]
  case destroy =>
    intro pt p ha hp ht
    refine ⟨fun hm => yafRun_un ha hu ?_, fun hm hf t hte => yafRun_done ha hu ?_⟩
    · rw [yafPartDestroy_there hp ht, if_pos (by simp [hm])]
    · rw [yafPartDestroy_there hp ht, if_neg (by simp [hm]), hf, Option.elim_none, hte]
  case load =>
    intro mid im len crc i n bs p ha hs hm
    refine ⟨fun h0 h1 => yafRun_no ha hu (yafProgLoad_running hs hm h0 h1), fun hc hb hp => ⟨fun d hf => yafRun_no ha hu ?_, ?_⟩⟩
    · exact yafProgLoad_faulty hs hm hc hb hp hf
    · exact fun hf r k t v hr hk hg ht hv => yafRun_done ha hu (yafProgLoad_good hs hm hc hb hp hf hr hk hg ht hv)
  case lps =>
    intro mid n hs hm
    refine ⟨fun im ha hc ho hi => yafRun_done ha hu ?_, fun ha hc => yafRun_no ha hu ?_, fun ha h0 h5 => yafRun_done ha hu ?_,
      fun ha hsp => ?_⟩
    · rw [yafLpStart, State.onSlot_of _ hs hm, if_neg (by simp [hc, ho])]
      simp only [hi]
    · rw [yafLpStart, State.onSlot_of _ hs hm, if_pos (.inl hc), Ans.lpState]
    · rw [yafLpStop, State.onSlot_of _ hs hm, if_neg (by omega)]
    · obtain ⟨ys, hys⟩ := yafLpStatus_pair hs hm hsp
      exact ⟨_, yafRun_done ha hu hys, packFields_cons_take Nat.one_pos _ ys⟩
  case range =>
    intro sc cl way a k hsc hcl hm ha52 ht
    refine ⟨fun hf ha => yafRun_un ha hu ?_, fun e hf => ⟨fun t ha hte hd => yafRun_done ha hu ?_, fun v t ha hw hv hte hd => yafRun_done ha hu ?_⟩⟩
    · rw [yafUnlockRange, State.rangeCheck_engine _ hsc hcl hm ha52 ht, hf, Option.elim_none]
    · rw [yafUnlockRange, State.rangeCheck_engine _ hsc hcl hm ha52 ht, hf, Option.elim_some, ← hte, rangeAns_done _ _ hd]
      rfl
    · rw [yafLockRange, if_neg (by omega), State.rangeCheck_engine _ hsc hcl hm ha52 ht, hf, Option.elim_some]
      simp only [hv]
      rw [← hte, rangeAns_done _ _ hd]
      rfl
  case durable =>
    intro i z b ha hi hz
    have hfit : ¬ (8 ≤ i.toNat ∨ (z.toNat ≠ 0 ∧ (b.toNat % 65536 ≠ 0 ∨ 2 ^ 52 < b.toNat + 65536 * z.toNat))) := by
      rcases hz with rfl | ⟨hz, hz'⟩
      · simpa using hi
      · omega
    refine ⟨fun hl => yafRun_un ha hu ?_, fun hl hsum => yafRun_done ha hu ?_⟩
    · rw [yafSetDurable, if_neg hfit, if_pos hl]
    · rw [yafSetDurable, if_neg hfit, if_neg (by simp [hl]), if_neg (Nat.not_lt_of_le hsum)]

end Sys2Proof.Machine
end

section
/-! SUPPORT. The Tradewind and routing commands of Yafolo (14 R390, 08 R221, R222, 10 R310), and the statement about them. -/

namespace Sys2Proof.Machine

open Sys2Proof.Safety

section
variable {u : State} {m q : Nat} (hq : q < 4096) (hm : u.mayUse m 1 q (u.tqOwner q) = true)
include hq hm

theorem State.onQueue_of (f : Ans) : u.onQueue m q f = f := by
  rw [State.onQueue, if_neg (Nat.not_le_of_lt hq), if_neg (by simp [hm])]

/-- Rings that are aligned, by where they lie and whether the queue is enabled (08 R221). -/
theorem yafQueueRings_aligned {r : QRings} (hk : r.k ≤ 31) (hf : r.flows ≤ 15) (hr : r.ring % 4096 = 0) (hc : r.cq % 4096 = 0)
    (ha : r.area % 4096 = 0) : yafQueueRings m q r u =
      if !(u.inDram r.ring (64 * 2 ^ r.k) && u.inDram r.cq (32 * 2 ^ r.k) && u.inDram r.area (0x2040 * (r.flows + 1)) &&
        u.inDram r.lo 1 && u.inDram r.hi 1) then Ans.no u .badArg 0x22
      else if u.tqOn q then Ans.un u .badState
      else Ans.ok { u with yaf := { u.yaf with rings := tblSet u.yaf.rings q r } } [] := by
  rw [yafQueueRings, State.onQueue_of hq hm, if_neg (by omega)]

theorem yafQueueEnable_of : yafQueueEnable m q u = if u.tqOn q then Ans.un u .badState
    else match (u.queueWrite q).queueEnable q with
      | .done t => Ans.ok t (packFields [(2, (t.tq q).inc)])
      | .badState => Ans.un u .badState
      | .badSize => Ans.un u .badArg
      | .notDurable => Ans.no u .badArg 0x21
      | .noResource => Ans.un u .noResource :=
  State.onQueue_of hq hm _

theorem yafQueueDisable_of : yafQueueDisable m q u = if !u.tqOn q then Ans.un u .badState
    else Ans.ok (u.queueDisable q).1 (packFields [(4, (u.queueDisable q).2)]) :=
  State.onQueue_of hq hm _

end

/-- The default target that a queue takes, and what a later enable writes (08 R222). -/
def State.retargeted (u : State) (q target : Nat) : State :=
  { u with yaf := { u.yaf with params := tblMap (fun k p => if k = q then { p with target := target } else p) u.yaf.params } }

theorem yafQueueRebind_of {u : State} {m q : Nat} (hq : q < 4096) (hm : u.mayUse m 1 q (u.tqOwner q) = true) (target : Nat) :
    yafQueueRebind m q target u = if target / 2 ^ 62 = 0 then Ans.un u .badArg
      else Ans.ok ((u.retargeted q target).setReg (Off.tqTarget q) target) [] :=
  State.onQueue_of hq hm _

theorem yafTeDisable_there {u : State} {e d : Nat} (he : e < 16) (hd : d < 18) (hb : u.teState (u.tePhys e) ≠ 3) :
    yafTeDisable e d u = if u.teState d ≠ 0 then Ans.no u .badState (u.teState d) else Ans.ok (u.teMove e d) [] := by
  rw [yafTeDisable, if_neg (by omega), if_neg hb]

/-- A domain's word, in RT_DOMAIN and in the service area (10 R310). -/
def State.domainPut (u : State) (d x : Nat) : State :=
  ({ u with svc := { u.svc with domains := tblSet u.svc.domains d x } } : State).setReg (Off.rtDomain d) x

theorem State.domainPut_effect (u : State) (d : Nat) {x : Nat} (hx : x < 2 ^ 64) : (u.domainPut d x).reg (Off.rtDomain d) = x ∧
    tblGet? (u.domainPut d x).svc.domains d = some x ∧ (u.domainPut d x).mem = u.mem := by
  refine ⟨?_, tblGet?_tblSet_same _ _ _, rfl⟩
  rw [State.domainPut, State.setReg_reg_same, Nat.mod_eq_of_lt hx]

/-- Settles O57: each command on a queue by the queue's state, the others by their arguments. -/
theorem yafoloQueues : Obligations.YafoloQueues := by
  unfold Obligations.YafoloQueues
  intro h s u q hu
  refine ⟨fun hq hm => ⟨?rings, ?params, ?enable, ?disable, ?rebind, fun ha => yafRun_done ha hu (State.onQueue_of hq hm _)⟩, fun hq ha => ?absent,
    ?te, ?domain, ?report⟩
  case rings =>
    intro k f ring cq area lo hi ha hk hf hr hc harea ok hok
    have hrings := yafQueueRings_aligned hq hm (r := ⟨k.toNat, f.toNat, ring.toNat, cq.toNat, area.toNat, lo.toNat, hi.toNat⟩) hk hf hr hc harea
    rw [← hok] at hrings
    refine ⟨fun h0 => yafRun_no ha hu (hrings.trans (if_pos (by simp [h0]))), fun h0 hon => yafRun_un ha hu ?_, fun h0 hoff => yafRun_done ha hu ?_⟩
    · rw [hrings, if_neg (by simp [h0]), if_pos hon]
    · rw [hrings, if_neg (by simp [h0]), if_neg (by simp [hoff])]
  case params =>
    intro ow e du b en tg tm df ha h1 h2 h3 h4 h5 h6 h7 hoff
    refine yafRun_done ha hu ?_
    rw [yafQueueParams, State.onQueue_of hq hm, if_neg (by omega), if_neg (by simp [hoff])]
  case enable =>
    intro ha
    refine ⟨fun hon => yafRun_un ha hu ?_, fun t hoff ht => yafRun_done ha hu ?_⟩
    · rw [yafQueueEnable_of hq hm, if_pos hon]
    · rw [yafQueueEnable_of hq hm, if_neg (by simp [hoff]), ht]
  case disable =>
    intro ha
    refine ⟨fun hoff => yafRun_un ha hu ?_, fun hon => yafRun_done ha hu ?_⟩
    · rw [yafQueueDisable_of hq hm, if_pos (by simp [hoff])]
    · rw [yafQueueDisable_of hq hm, if_neg (by simp [hon])]
  case rebind =>
    intro tg ha
    refine ⟨fun hlt => yafRun_un ha hu ?_, fun hge => ⟨u.retargeted q.toNat tg.toNat, rfl, rfl, yafRun_done ha hu ?_⟩⟩
    · rw [yafQueueRebind_of hq hm, if_pos (Nat.div_eq_of_lt hlt)]
    · rw [yafQueueRebind_of hq hm, if_neg (by omega)]
  case absent => exact yafRun_un ha hu (if_pos hq)
  case te =>
    intro e d ha he hd hb
    refine ⟨fun hs => yafRun_no ha hu ?_, fun hs => yafRun_done ha hu ?_⟩
    · rw [yafTeDisable_there he hd hb, if_pos hs]
    · rw [yafTeDisable_there he hd hb, if_neg (Classical.not_not.2 hs)]
  case domain =>
    intro d v l g k x ha hv hl hg hk hx
    obtain ⟨hreg, hdom, hmem⟩ := u.domainPut_effect d.toNat (x := x) (by omega)
    refine ⟨_, hreg, hdom, hmem, yafRun_done ha hu ?_⟩
    rw [yafDomainSet, if_neg (by omega), State.domainPut, hx]
  case report =>
    intro i ha
    refine ⟨fun hi => yafRun_un ha hu (if_pos hi), fun hi => ⟨_, yafRun_done ha hu (if_neg (Nat.not_le_of_lt hi)), ?_⟩⟩
    exact packFields_cons_take (by decide) _ _

end Sys2Proof.Machine
end

section
/-! SUPPORT. The port and time commands of Yafolo (14 R390, 09 R242 to R280, 10 R284, 11 R323 to R332), and the statement about them. -/

namespace Sys2Proof.Machine

open Sys2Proof.Safety

/-! ### Ports, modules and links -/

theorem State.onPortCmd_of {u : State} {m p : Nat} (hp : p < 128) (hm : m = 0) (ht : u.portTest p = false) (f : Ans) :
    u.onPortCmd m p f = f := by
  rw [State.onPortCmd, if_neg (Nat.not_le_of_lt hp), if_neg (Classical.not_not.2 hm), if_neg (by simp [ht])]

/-- What a range of a requester holds, its first bytes do. -/
theorem State.inReq_le {u : State} {m a n k : Nat} (h : u.inReq m a n = true) (hk : k ≤ n) : u.inReq m a k = true := by
  rw [State.inReq, List.any_eq_true] at h ⊢
  obtain ⟨w, hw, hin⟩ := h
  refine ⟨w, hw, ?_⟩
  simp only [holds, Bool.and_eq_true, decide_eq_true_eq] at hin ⊢
  omega

/-- The bytes of a module's record, which are free values (log 85). -/
def State.moduleBytes (u : State) : List Byte := (u.fresh.2.freshBytes (u.fresh.1 % 257)).1

def State.moduleTaken (u : State) : State := (u.fresh.2.freshBytes (u.fresh.1 % 257)).2

theorem State.moduleBytes_length (u : State) : u.moduleBytes.length ≤ 256 := by
  rw [State.moduleBytes, State.freshBytes, List.length_map, List.length_range]
  omega

section
variable {u : State} {m p : Nat} (hp : p < 128) (hm : m = 0) (ht : u.portTest p = false)
include hp hm ht

/-- A port brought up alone, without a pair's flag (09 R242). -/
theorem yafPortUp_single {flags forget : Nat} {x : PortSet} (hmode : x.mode ≤ 4) (hfec : x.fec ≤ 2) (hfl : flags ≤ 1) (hlog : x.rxlog = 0)
    (hbig : x.rxbig = 0) (hbit : x.rxbit ≤ 31) (htg : x.rxtarget ≤ 4095) (hring : x.rxring % 4096 = 0)
    (hoff : u.flag (Off.portCfg p) 63 = false) (hlink : u.linkOfPort p = none) :
    yafPortUp m p flags forget x u = Ans.ok (u.portSetUp x p) [] := by
  have hpair : bits flags 1 2 = 0 := by
    rw [bits]
    omega
  rw [yafPortUp, hpair]
  simp only [bne_self_eq_false, Bool.and_false, Bool.false_eq_true, if_false, State.onPortCmd_of hp hm ht, List.any_cons, List.any_nil, ht, hoff,
    hlink, Option.isSome_none, Bool.or_self, List.foldl_cons, List.foldl_nil]
  exact if_neg (by omega)

theorem yafSaLoad_receive {sc an cfg window key : Nat} {f : List Byte → Sa} {bs : List Byte} (hsc : sc ≤ 7) (han : an ≤ 3)
    (hb : u.bufRead m key 44 = some bs) : yafSaLoad m p 1 sc an cfg window key f u =
      Ans.ok (((u.msecCfgWrite p (cfg * 2 ^ 32 + window)).onPort p fun x => { x with sas := tblSet x.sas (saKey sc an) (f bs), txAn := x.txAn
        }).agentWrite key (List.replicate 44 0)) [] := by
  have hargs : ¬ (1 < 1 ∨ 3 < an ∨ (if 1 = 0 then 0 < sc else 7 < sc)) := by
    rw [if_neg (by decide)]
    omega
  rw [yafSaLoad, State.onPortCmd_of hp hm ht, if_neg hargs]
  simp only [hb]
  rfl

theorem yafModuleInfo_present {buf : Nat} (hf : u.flag (Off.portStat p) 6 = true) (hb : u.inReq m buf 256 = true) :
    yafModuleInfo m p buf u = Ans.ok (u.moduleTaken.agentWrite buf u.moduleBytes) (packFields [(4, u.moduleBytes.length)]) := by
  have hin : u.inReq m buf u.moduleBytes.length = true := State.inReq_le hb u.moduleBytes_length
  rw [yafModuleInfo, State.onPortCmd_of hp hm ht, if_neg (by simp [hf])]
  exact if_neg (show ¬ (!u.inReq m buf u.moduleBytes.length) = true by simp [hin])

/-- A link of one lane whose far end answers (10 R284). -/
theorem yafLinkUp_lane {rate asym : Nat} (hr : rate ≤ 1) {t : State} (hte : t = (u.linkSetUp p 0 rate asym).linkAnswer p 0 rate)
    (hup : t.linkUp p = true) : yafLinkUp m p 0 rate asym true u = Ans.ok t (packFields [(1, t.linkState p)]) := by
  have hlane : widthLanes 0 = 1 := rfl
  rw [yafLinkUp, State.onPortCmd_of hp hm ht, hlane, if_neg (by rw [Nat.mod_one]; omega)]
  simp only [List.range_one, List.any_cons, List.any_nil, Nat.add_zero, ht, Bool.or_self, Bool.false_eq_true, if_false, if_true, ← hte, hup]

end

theorem yafTableWrite_rule {u : State} {m g i entry : Nat} {bs : List Byte} (hg : g < 8) (hi : i < 256) (hb : u.bufRead m entry 32 = some bs) :
    yafTableWrite m 1 g i entry u = Ans.ok
      ((List.range 4).foldl (fun (t : State) j => t.setReg (Off.clsRule g (4 * i) + 8 * j) (fieldLE bs (8 * j) 8)) u) [] := by
  rw [yafTableWrite]
  simp only [tableAt]
  rw [if_neg (by decide), if_neg (by omega)]
  simp only [Nat.reduceMul, hb]
  rfl

theorem packFields_three_take (a b c : Nat) (ys : List (Nat × Nat)) :
    (packFields ((1, a) :: (1, b) :: (1, c) :: ys)).take 3 = natBytes 1 a ++ natBytes 1 b ++ natBytes 1 c := by
  have hp : packFields [(1, a), (1, b), (1, c)] = natBytes 1 a ++ natBytes 1 b ++ natBytes 1 c := by
    simp [packFields, roundUp]
  have h := packFields_take [(1, a), (1, b), (1, c)] ys
  rwa [hp, List.length_append, List.length_append, natBytes_length, natBytes_length, natBytes_length] at h

/-- Settles O58: each command by its own checks and settings. -/
theorem yafoloPortsAndTime : Obligations.YafoloPortsAndTime := by
  unfold Obligations.YafoloPortsAndTime
  intro h s u hu
  refine ⟨fun p hp hm ht => ⟨?up, ?down, ?status, ?sa, ?module, ?link⟩, ?table, ?pub, ?wear, ?source, ?set, ?timeStatus, ?ptp, ?pps, ?utc⟩
  case up =>
    intro md fc fl fg tx rx rl rb rt tg rr x ha h1 h2 h3 h4 h5 h6 h7 h8 hx hoff hlink
    refine yafRun_done ha hu ?_
    subst h4 h5 hx
    exact yafPortUp_single hp hm ht h1 h2 h3 rfl rfl h6 h7 h8 hoff hlink
  case down => exact fun ha => yafRun_done ha hu (State.onPortCmd_of hp hm ht _)
  case status => exact fun ha => yafRun_done ha hu (State.onPortCmd_of hp hm ht _)
  case sa =>
    intro sc an ssci sci key pn cf wn bs v ha hsc han hb hv
    subst hv
    exact yafRun_done ha hu (yafSaLoad_receive hp hm ht hsc han hb)
  case module =>
    intro b ha
    refine ⟨fun hf => yafRun_un ha hu ?_, fun hf hb => ⟨u.moduleBytes, u.moduleTaken, u.moduleBytes_length, rfl, rfl, yafRun_done ha hu ?_⟩⟩
    · rw [yafModuleInfo, State.onPortCmd_of hp hm ht, if_pos (by simp [hf])]
    · exact yafModuleInfo_present hp hm ht hf hb
  case link =>
    intro w r a t ha hw hr hte hup
    subst hw
    exact yafRun_done ha hu (yafLinkUp_lane hp hm ht hr hte hup)
  case table => exact fun g i e bs ha hg hi hb => yafRun_done ha hu (yafTableWrite_rule hg hi hb)
  case pub =>
    intro b ha hb hlt
    refine ⟨fun hn => yafRun_un ha hu ?_, fun hn => yafRun_done ha hu ?_⟩
    · rw [yafPubTable, if_neg (by omega), if_pos hn]
    · rw [yafPubTable, if_neg (by omega), if_neg (by simp [hn])]
  case wear =>
    intro w st lk pt ft ha
    exact ⟨fun hw => yafRun_un ha hu (if_pos hw), fun h50 h100 => yafRun_done ha hu (if_neg (by omega))⟩
  case source =>
    intro src tr al su ha h1 h2 h3
    refine ⟨fun hl => yafRun_un ha hu ?_, fun hl => yafRun_done ha hu ?_⟩
    · rw [yafTimeSource, if_neg (by omega), if_pos hl]
    · rw [yafTimeSource, if_neg (by omega), if_neg (by simp [hl])]
  case set =>
    intro t ha
    exact ⟨fun hst => yafRun_no ha hu (if_pos hst), fun hst v hv => yafRun_done ha hu (hv ▸ if_neg (by omega))⟩
  case timeStatus =>
    intro ha
    exact ⟨_, yafRun_done ha hu rfl, packFields_three_take _ _ _ _⟩
  case ptp =>
    intro pf rl dm tp p1 p2 a b c ha h1 h2 h3 hc hp
    refine yafRun_done ha hu ?_
    rw [← hc, yafPtpConfig, if_neg ?_, if_neg (Bool.eq_false_iff.1 hp)]
    subst hc
    simp only
    omega
  case pps =>
    intro fl w ha hf
    exact yafRun_done ha hu (if_neg (Nat.not_lt_of_le hf))
  case utc =>
    intro o lp ha
    exact ⟨fun hl => yafRun_un ha hu (if_pos hl), fun hl => yafRun_done ha hu (if_neg (Nat.not_lt_of_le hl))⟩

end Sys2Proof.Machine
end

section
/-! SUPPORT. The job-ring, engine, key and channel commands of Yafolo (14 R390, 12 R355 to R360, 13 R363), and the statement about them. -/

namespace Sys2Proof.Machine

open Sys2Proof.Safety

/-! ### Job rings and engines -/

theorem State.onRing_there {u : State} {m pool j : Nat} (f : Pool → Ans) (hp : pool ≤ 1) (hj : j < 36) :
    u.onRing m pool j f = if !u.mayUse m (2 + pool) j (u.jOwner (poolOf pool) j) then Ans.un u .notOwner else f (poolOf pool) := by
  rw [State.onRing, if_neg (Nat.not_lt_of_le hp), if_neg (Nat.not_le_of_lt hj)]

theorem State.onRing_of {u : State} {m pool j : Nat} (f : Pool → Ans) (hp : pool ≤ 1) (hj : j < 36)
    (hm : u.mayUse m (2 + pool) j (u.jOwner (poolOf pool) j) = true) : u.onRing m pool j f = f (poolOf pool) := by
  rw [State.onRing_there f hp hj, if_neg (by simp [hm])]

theorem yafEngineDisable_there {h : CmdHdr} {u : State} {pool e : Nat} (hp : pool ≤ 1) (he : e < 36) :
    yafEngineDisable h pool e u = if u.fld (eBase (poolOf pool) e) 0 2 ≠ 1 then Ans.no u .badState (u.fld (eBase (poolOf pool) e) 0 2)
      else if (u.jEng (poolOf pool) e).job.isSome then Ans.wait { u.jDisableEngine (poolOf pool) e with yaf :=
        { (u.jDisableEngine (poolOf pool) e).yaf with
          stops := (u.jDisableEngine (poolOf pool) e).yaf.stops ++ [⟨h.master, h.cp, h.tag.toNat, pool, e⟩] } }
      else Ans.ok (u.jDisableEngine (poolOf pool) e) [] := by
  rw [yafEngineDisable, if_neg (Nat.not_lt_of_le hp), if_neg (Nat.not_le_of_lt he)]

/-! ### Keys -/

theorem State.onKey_of {u : State} {m slot : Nat} (hs : slot < 1024) (hm : m = 0 ∨ u.vfHas m 7 slot = true) (f : Ans) : u.onKey m slot f = f := by
  have hown : ¬ (m ≠ 0 ∧ (!u.vfHas m 7 slot) = true) := by
    rintro ⟨h0, hv⟩
    rcases hm with h | h
    · exact h0 h
    · simp [h] at hv
  rw [State.onKey, if_neg (Nat.not_le_of_lt hs), if_neg hown]

section
variable {u : State} {m slot typ len portUse owner key : Nat} {bs : List Byte} (hs : slot < 1024) (hm : m = 0 ∨ u.vfHas m 7 slot = true)
  (hp : portUse ≤ 1) (ho : owner ≤ 4095) (hb : u.bufRead m key len = some bs)
include hs hm hp ho hb

theorem yafKeyLoad_ok (hr : u.keyLoadResult slot typ len owner bs = 0) : yafKeyLoad m slot typ len portUse owner key u =
    Ans.ok ((u.keyGive 1 slot typ len owner portUse bs).agentWrite key (List.replicate len 0)) [] := by
  rw [yafKeyLoad, State.onKey_of hs hm, if_neg (by omega)]
  simp only [hb, hr]

theorem yafKeyLoad_locked (hr : u.keyLoadResult slot typ len owner bs = 1) :
    yafKeyLoad m slot typ len portUse owner key u = Ans.un u .locked := by
  rw [yafKeyLoad, State.onKey_of hs hm, if_neg (by omega)]
  simp only [hb, hr]

theorem yafKeyLoad_bad {r : Nat} (hr : u.keyLoadResult slot typ len owner bs = r) (h2 : 2 ≤ r) :
    yafKeyLoad m slot typ len portUse owner key u = Ans.no u .badArg r := by
  obtain ⟨n, rfl⟩ := Nat.exists_eq_add_of_le' h2
  rw [yafKeyLoad, State.onKey_of hs hm, if_neg (by omega)]
  simp only [hb, hr]

end

/-! ### Channels -/

theorem yafChanBind_legal {u : State} {m ch sender receiver bit lock : Nat} (h640 : 640 ≤ ch) (h4096 : ch < 4096) (hc : u.chanMine m ch = true)
    (hm : u.mayChan m ch sender receiver = true) (hs : sender < 0xFFF) (hr : receiver < 0xFFF) (hb : bit ≤ 31) (hl : lock ≤ 1)
    (hd : receiver < 0x100 ∨ 0x160 ≤ receiver ∨ bit < 30) : yafChanBind m ch sender receiver bit lock u =
      if u.bindLocked ch then Ans.un u .locked
      else if u.bindKept ch sender receiver then Ans.un u .badState
      else Ans.ok (if lock = 1 then (u.mbxBindWrite ch (2 ^ 62 + bit * 2 ^ 32 + receiver * 65536 + sender)).setFlag (Off.mbxBind ch) 63 true
        else u.mbxBindWrite ch (2 ^ 62 + bit * 2 ^ 32 + receiver * 65536 + sender)) [] := by
  rw [yafChanBind, if_neg (by omega), if_neg (by simp [hc, hm]), if_neg (by omega)]

theorem State.onChanCmd_of {u : State} {m ch : Nat} (h : ch < 4096) (hc : u.chanMine m ch = true) (f : Ans) : u.onChanCmd m ch f = f := by
  rw [State.onChanCmd, if_neg (Nat.not_le_of_lt h), if_neg (by simp [hc])]

theorem packFields_status_take (a b : Nat) (ys : List (Nat × Nat)) :
    (packFields ((8, a) :: (1, b) :: ys)).take 9 = natBytes 8 a ++ natBytes 1 b := by
  have hp : packFields [(8, a), (1, b)] = natBytes 8 a ++ natBytes 1 b := by
    simp [packFields, roundUp]
  have h := packFields_take [(8, a), (1, b)] ys
  rwa [hp, List.length_append, natBytes_length, natBytes_length] at h

/-- Settles O59: each command by the state of its ring, key, engine or channel. -/
theorem yafoloEnginesAndChannels : Obligations.YafoloEnginesAndChannels := by
  unfold Obligations.YafoloEnginesAndChannels
  intro h s u hu
  refine ⟨?rings, fun sl hsl hown => ⟨?load, ?clear, fun ha => yafRun_done ha hu (State.onKey_of hsl hown _)⟩, ?engine, ?bind, ?chan⟩
  case rings =>
    rintro pl j p hpl rfl hj
    refine ⟨fun hm ha => yafRun_un ha hu ?_, fun hm => ⟨?_, fun ha hz => ⟨fun hon => yafRun_un ha hu ?_, fun hoff => yafRun_done ha hu ?_⟩,
      fun ha => ⟨fun hoff => yafRun_un ha hu ?_, fun hon => yafRun_done ha hu ?_⟩⟩⟩
    · rw [yafRingDisable, State.onRing_there _ hpl hj, if_pos (by simp [hm])]
    · intro k w ow b en tg ra cq lo hi t ha h1 h2 h3 h4 h5 h6 h7 h8 hd hoff ht
      refine yafRun_done ha hu ?_
      rw [yafRingConfig, State.onRing_of _ hpl hj hm]
      simp only [hd, hoff, Bool.not_true, Bool.false_eq_true, if_false, ← ht]
      exact if_neg (by omega)
    · rw [yafRingEnable, State.onRing_of _ hpl hj hm, if_neg (by simp [hz]), if_pos hon]
    · rw [yafRingEnable, State.onRing_of _ hpl hj hm, if_neg (by simp [hz]), if_neg (by simp [hoff])]
    · rw [yafRingDisable, State.onRing_of _ hpl hj hm, if_pos (by simp [hoff])]
    · rw [yafRingDisable, State.onRing_of _ hpl hj hm, if_neg (by simp [hon])]
  case load =>
    rintro ty ln pu ow ky bs r ha hp ho hb hr
    refine ⟨fun h0 => yafRun_done ha hu ?_, fun h1 => yafRun_un ha hu ?_, fun h2 => yafRun_no ha hu ?_⟩
    · exact yafKeyLoad_ok hsl hown hp ho hb (hr ▸ h0)
    · exact yafKeyLoad_locked hsl hown hp ho hb (hr ▸ h1)
    · exact yafKeyLoad_bad hsl hown hp ho hb hr.symm h2
  case clear =>
    intro ha
    refine ⟨fun hl => yafRun_un ha hu ?_, fun hl => yafRun_done ha hu ?_⟩
    · rw [yafKeyClear, State.onKey_of hsl hown, if_pos hl]
    · rw [yafKeyClear, State.onKey_of hsl hown, if_neg (by simp [hl])]
  case engine =>
    rintro pl e p t ha hpl rfl he rfl
    refine ⟨fun hs => yafRun_no ha hu ?_, fun hs => ⟨fun hj => yafRun_done ha hu ?_, fun hj => yafRun_wait ha hu ?_⟩⟩
    · rw [yafEngineDisable_there hpl he, if_pos hs]
    · rw [yafEngineDisable_there hpl he, if_neg (Classical.not_not.2 hs), if_neg (by simp [hj])]
    · rw [yafEngineDisable_there hpl he, if_neg (Classical.not_not.2 hs), if_pos (Option.isSome_iff_ne_none.2 hj)]
  case bind =>
    intro c sn rv b l ha h640 h4096 hc hm hs hr hb hl hd
    refine ⟨fun hk => yafRun_un ha hu ?_, fun hk hb' => yafRun_un ha hu ?_, fun hk hb' t ht => yafRun_done ha hu ?_⟩
    · rw [yafChanBind_legal h640 h4096 hc hm hs hr hb hl hd, if_pos hk]
    · rw [yafChanBind_legal h640 h4096 hc hm hs hr hb hl hd, if_neg (by simp [hk]), if_pos hb']
    · rw [yafChanBind_legal h640 h4096 hc hm hs hr hb hl hd, if_neg (by simp [hk]), if_neg (by simp [hb']), ht]
  case chan =>
    intro c hc hm
    refine ⟨fun ha => ⟨fun hl => yafRun_un ha hu ?_, fun hl => yafRun_done ha hu ?_⟩,
      fun ha => ⟨_, yafRun_done ha hu (State.onChanCmd_of hc hm _), packFields_status_take _ _ _⟩⟩
    · rw [yafChanClose, State.onChanCmd_of hc hm, if_pos hl]
    · rw [yafChanClose, State.onChanCmd_of hc hm, if_neg (by simp [hl])]

end Sys2Proof.Machine
end

section
/-! SUPPORT. The fault, sparing, test, virtual-function, power and firmware commands of Yafolo (14 R390, 02 R55, 15 R408 to R412, 16 R422,
19 R472 to R478), and the statement about them. -/

namespace Sys2Proof.Machine

open Sys2Proof.Safety

/-! ### Faults and sparing -/

section
variable {u : State} {m mid n : Nat} {v : RepairVerdict} {p : RepairPath} (hs : u.lpSlot mid = some n) (hm : u.mayLp m n = true)
  (hsp : u.isSplit (n / 6) = false) (hc : (u.lp n).code = 1 ∨ (u.lp n).code = 2)
  (hp : p = repairPath (u.pair (pairNum (n / 6) (n % 6))).attempts v)
include hs hm hsp hc hp

/-- REPAIR_NOW on a pair that may be repaired, by whether its path needs a spare that is not free (02 R54, R55). -/
theorem yafRepairNow_legal : yafRepairNow m mid v u =
    if p ≠ .none ∧ (!v.further) = true ∧ u.spareState (n / 6) p.spare ≠ 0 then Ans.un u .noSpare
    else Ans.ok ((u.pairHold (n / 6) (n % 6)).pairRepair (n / 6) (n % 6) v)
      (packFields [(4, ((u.pairHold (n / 6) (n % 6)).pairRepair (n / 6) (n % 6) v).reg (Off.cmpMap (n / 6) (n % 6)))]) := by
  have hno : ¬ (u.isSplit (n / 6) = true ∨ ((u.lp n).code ≠ 1 ∧ (u.lp n).code ≠ 2)) := by
    rintro (h | h)
    · exact Bool.false_ne_true (hsp.symm.trans h)
    · omega
  subst hp
  rw [yafRepairNow, State.onSlot_of _ hs hm]
  exact if_neg hno

end

theorem filter_bitOf_zero (ls : List Nat) : (ls.filter fun c => bitOf 0 c) = [] := by
  rw [List.filter_eq_nil_iff]
  intro c _
  simp [bitOf]

/-- WEAR_CFG of no cluster sets the slices and the journal alone (02 R58). -/
theorem yafWearCfg_none {u : State} {proactive l2 sc warn : Nat} (h2 : l2 ≠ 0) (hs : sc ≠ 0) (hl : ((wearBlocks 0).any fun o => u.locked o) = false) :
    yafWearCfg 0 proactive l2 sc warn u =
      Ans.ok (((List.range 32).foldl (fun (t : State) i => t.setReg (Off.scErrcfg i) sc) u).setFld Off.nvjCfg 0 16 warn) [] := by
  rw [yafWearCfg, if_neg (by omega), if_neg (Bool.eq_false_iff.1 hl), filter_bitOf_zero]
  rfl

/-! ### Tests of a cluster -/

theorem State.onCluster_of {u : State} {c : Nat} (hc : c < 16) (ht : u.underTest c = false) (f : Ans) : u.onCluster c f = f := by
  rw [State.onCluster, if_neg (Nat.not_le_of_lt hc), if_neg (by simp [ht])]

theorem setAt_zero (lo n : Nat) : setAt 0 lo n = [] := by
  rw [setAt, List.filter_eq_nil_iff]
  intro j _
  simp [bitOf]

section
variable {u : State} {c : Nat} (hc : c < 16) (ht : u.underTest c = false)
include hc ht

theorem yafClusterOffline_busy {n : Nat} (hr : u.runningIn c = some n) : yafClusterOffline c u = Ans.no u .badState (u.lp n).code := by
  rw [yafClusterOffline, State.onCluster_of hc ht]
  simp only [hr, Ans.lpState]

/-- A cluster that goes offline: its fills arrive, its lines go back, its locks go, and it is reset (19 R475). -/
theorem yafClusterOffline_idle {a b t : State} (hr : u.runningIn c = none) (ha : a = u.fillAll c)
    (hb : b = (a.l2Lines c).eraseDups.foldl (fun (t : State) l => t.lineCleanInval c l) a)
    (hte : t = (b.lockenWrite (.l2 c) 0).clusterReset c) :
    yafClusterOffline c u = Ans.ok { t with chip := { t.chip with offline := setBit t.chip.offline c true } } [] := by
  subst ha hb hte
  rw [yafClusterOffline, State.onCluster_of hc ht]
  simp only [hr]

theorem yafClusterOnline_already (ho : u.offline c = false) (f : BitVec 4) (l : Nat) (b : BitVec 31) :
    yafClusterOnline c f l b u = Ans.ok u [] := by
  rw [yafClusterOnline, State.onCluster_of hc ht, if_pos (by simp [ho])]

/-- Both tests passed (19 R477): the cluster goes online. -/
theorem yafClusterOnline_passed {t v : State} (ho : u.offline c = true) (hte : t = u.cmpTestShow c []) (hv : t.bistEnd (1, c, 0) 0 = (v, .pass))
    (hcnt : t.bistCounts 1 c 0 = 0) (l : Nat) : yafClusterOnline c 0 l 0 u = Ans.ok (v.goOnline c) [] := by
  subst hte
  have hset : (setAt (0 : BitVec 4).toNat 0 4).map (fun j => (j, l)) = [] := by
    rw [show (0 : BitVec 4).toNat = 0 from rfl, setAt_zero, List.map_nil]
  have hzero : (u.cmpTestShow c []).bistCounts 1 c (BitVec.ofNat 31 ((0 : BitVec 4).toNat * 256)) = 0 := hcnt
  rw [yafClusterOnline, State.onCluster_of hc ht, if_neg (by simp [ho]), hset]
  dsimp only
  rw [hzero, if_neg (by simp), if_pos rfl, hv]

theorem yafCmpTest_online (ho : u.offline c = false) (f : BitVec 4) (ls : List Nat) : yafCmpTest c f ls u = Ans.un u .notOffline := by
  rw [yafCmpTest, State.onCluster_of hc ht, if_pos (by simp [ho])]

theorem yafCmpTest_passed {t : State} (ho : u.offline c = true) (hte : t = u.cmpTestRun c []) :
    yafCmpTest c 0 [] u = Ans.ok t (packFields [(1, t.fld (Off.cmpTest c) 4 4)]) := by
  subst hte
  have hset : (setAt (0 : BitVec 4).toNat 0 4).map (fun j => (j, ([] : List Nat).getD j 0)) = [] := by
    rw [show (0 : BitVec 4).toNat = 0 from rfl, setAt_zero, List.map_nil]
  rw [yafCmpTest, State.onCluster_of hc ht, if_neg (by simp [ho]), hset]

end

section
variable {u : State} {scope unit kind : Nat} (f : BitVec 31) (h1 : 1 ≤ scope) (h5 : scope ≤ 5) (hk : kind ≤ 1) (he : bistExists scope unit = true)
  (hb : u.chip.bist = none)
include h1 h5 hk he hb

theorem yafBistRun_online (hr : u.bistReady scope unit = false) (h2 : scope ≤ 2) : yafBistRun scope unit kind f u = Ans.un u .notOffline := by
  rw [yafBistRun, if_neg (by omega), if_neg (by simp [he]), if_neg (by simp [hb]), if_pos (by simp [hr]), if_pos h2]

theorem yafBistRun_passed {t : State × BistEnd} (hr : u.bistReady scope unit = true)
    (ht : t = (u.bistCtrlWrite (2 ^ 31 + unit * 65536 + scope * 256 + kind)).bistEnd (scope, unit, kind) f) (hp : t.2 ≠ .failed) :
    yafBistRun scope unit kind f u = Ans.ok t.1 (packFields [(8, t.1.reg Off.bistSig), (1, t.1.fld Off.bistStat 29 1)]) := by
  rw [yafBistRun, if_neg (by omega), if_neg (by simp [he]), if_neg (by simp [hb]), if_neg (by simp [hr]), ← ht]
  exact if_neg hp

end

/-- A trip test that starts on the wire of a port (14 R390). -/
def State.tripStarted (u : State) (h : CmdHdr) (port pub count frames timeout : Nat) : State :=
  { u with yaf := { u.yaf with
    trip := some ⟨h.master, h.cp, h.tag.toNat, port, true, pub, frames, count, [], u.time.cycles + timeout * 1000⟩ } }

theorem yafTripTest_starts {h : CmdHdr} {u : State} {port pub count frames timeout : Nat} (hp : port < 128) (hpub : u.pubExists pub = true)
    (ht : u.yaf.trip = none) (hup : u.flag (Off.portStat port) 0 = true) (hl : u.linkOfPort port = none) (hm : u.portMode port ≠ 4)
    (hf : u.inReq h.master frames (2048 * count) = true) :
    yafTripTest h port 1 pub count frames timeout u = Ans.wait (u.tripStarted h port pub count frames timeout) := by
  have hport : ¬ ((!u.flag (Off.portStat port) 0) = true ∨ (u.linkOfPort port).isSome = true ∨ u.portMode port = 4) := by
    simp [hup, hl, hm]
  rw [yafTripTest, if_neg (Nat.not_le_of_lt hp), if_neg (by simp [hpub]), if_neg (by decide), if_neg (by simp [ht]), if_neg hport,
    if_neg (by simp [hf])]
  rfl

/-! ### Virtual functions -/

theorem yafVfEnable_legal {u : State} {n : Nat} (h : n ≤ 63) : yafVfEnable n u =
    if u.assigns.any fun a => decide (n < a.vf) then Ans.un u .badState else Ans.ok (u.setFld Off.hpStat 16 6 n) [] := by
  rw [yafVfEnable, if_neg (Nat.not_lt_of_le h)]

theorem yafVfAssign_legal {u : State} {a : Assign} (h0 : 0 < a.vf) (hv : a.vf ≤ u.fld Off.hpStat 16 6) (h1 : 1 ≤ a.kind) (h7 : a.kind ≤ 7)
    (hg : u.assignGood a = true) (hn : u.assigns.contains a = false)
    (hw : a.kind = 5 ∨ u.heldCount a.vf a.kind + a.count ≤ windowSlots a.kind) : yafVfAssign a u =
      if u.assigns.any fun b => b.vf != a.vf && a.meets b then Ans.un u .badState else Ans.ok { u with assigns := u.assigns ++ [a] } [] := by
  rw [yafVfAssign, if_neg (by omega), if_neg (by omega), if_neg (by simp [hg]), if_neg (Bool.eq_false_iff.1 hn), if_neg (by omega)]

/-- The old bitmap of a log, in host memory (15 R411). -/
def State.bitmapOut (u : State) (vf : Nat) : State := u.bitmapWrite (tblGetD u.dlogs vf ⟨0, 0, []⟩)

section
variable {u : State} {vf : Nat} (h0 : 0 < vf) (hv : vf ≤ u.fld Off.hpStat 16 6)
include h0 hv

theorem yafVfRelease_legal : yafVfRelease vf u = if u.assigns.any fun a => a.vf == vf && u.assignOn a then Ans.un u .badState
    else Ans.ok { u with assigns := u.assigns.filter fun a => a.vf != vf } [] := by
  rw [yafVfRelease, if_neg (by omega)]

theorem State.onDlog_of (f : Nat → Ans) : u.onDlog vf f = f (u.fld (Off.hpDlog (vf - 1)) 0 2) := by
  rw [State.onDlog, if_neg (by omega)]

/-- A log that is on gets its new bitmap, with the pages of the lines held dirty (15 R411). -/
theorem yafDirtyLogSwap_on (bitmap : Nat) (hst : u.fld (Off.hpDlog (vf - 1)) 0 2 = 1) : yafDirtyLogSwap vf bitmap u =
    Ans.ok (({ (u.bitmapOut vf).fresh.2 with
      dlogs := tblSet (u.bitmapOut vf).fresh.2.dlogs vf
        ⟨bitmap, (u.bitmapOut vf).fresh.1, pagesOf ((u.bitmapOut vf).fresh.2.dirtyHost vf)⟩ } : State).setReg (Off.hpDlog (vf - 1))
        (u.fld (Off.hpDlog (vf - 1)) 24 40 * 2 ^ 24 + 1)) (packFields [(1, u.fld (Off.hpDlog (vf - 1)) 2 1)]) := by
  rw [yafDirtyLogSwap, State.onDlog_of h0 hv, hst, if_neg (by decide)]
  rfl

end

/-- Settles O60: each command by its own checks, and what it does where they pass. -/
theorem yafoloSystem : Obligations.YafoloSystem := by
  unfold Obligations.YafoloSystem
  intro h s u hu
  refine ⟨?react, fun n hn => ⟨?status, ?clear⟩, ?spare, ?repair, ?wear, fun c hc ht => ⟨?offline, ?online, ?onlineRun, ?cmp, ?cmpRun⟩, ?bist, ?trip,
    ?injectNone, ?inject, ?vfEnable, ?vfAssign, fun vf st h0 hv hst => ⟨?release, ?start, ?swap, ?stop⟩, ?reset, ?power, ?stage, ?activate,
    fun ha => yafRun_done ha hu rfl⟩
  case react =>
    intro n r ha
    refine ⟨fun hb => yafRun_un ha hu (if_pos hb), fun hn hr h1 h2 h3 => ⟨fun hl => yafRun_un ha hu ?_, fun hl => yafRun_done ha hu ?_⟩⟩
    · rw [yafErrReactSet, if_neg (by simp only [hr, Bool.false_eq_true, false_or]; omega), if_pos hl]
    · rw [yafErrReactSet, if_neg (by simp only [hr, Bool.false_eq_true, false_or]; omega), if_neg (by simp [hl])]
  case status =>
    intro ha hm
    refine yafRun_done ha hu ?_
    rw [yafErrStatus, if_neg (Nat.not_le_of_lt hn), if_neg (by simp [hm])]
  case clear =>
    intro ha
    have hno : ¬ 768 ≤ n.toNat := Nat.not_le_of_lt hn
    exact ⟨yafRun_done ha hu (if_neg (not_or.2 ⟨hno, by decide⟩)), yafRun_done ha hu (if_neg (not_or.2 ⟨hno, by decide⟩))⟩
  case spare => exact fun ha => ⟨_, yafRun_done ha hu rfl, packFields_cons_take (by decide) _ _⟩
  case repair =>
    intro mid v n p t ha hs hm hsp hc hp ht
    refine ⟨fun hpn hf hsa => yafRun_un ha hu ?_, fun hok => yafRun_done ha hu ?_⟩
    · rw [yafRepairNow_legal hs hm hsp hc hp, if_pos ⟨hpn, by simp [hf], hsa⟩]
    · rw [yafRepairNow_legal hs hm hsp hc hp, if_neg, ht]
      rintro ⟨hpn, hf, hsa⟩
      rcases hok with hok | hok | hok
      · simp [hok] at hf
      · exact hpn hok
      · exact hsa hok
  case wear =>
    intro pr l2 sc wn t ha h2 hs hl ht
    subst ht
    exact yafRun_done ha hu (yafWearCfg_none (fun h => h2 (BitVec.eq_of_toNat_eq h)) (fun h => hs (BitVec.eq_of_toNat_eq h)) hl)
  case offline =>
    intro ha
    exact ⟨fun n hr => yafRun_no ha hu (yafClusterOffline_busy hc ht hr),
      fun a b t hr hae hbe hte => yafRun_done ha hu (yafClusterOffline_idle hc ht hr hae hbe hte)⟩
  case online => exact fun ha ho f l b => yafRun_done ha hu (yafClusterOnline_already hc ht ho f l b)
  case onlineRun => exact fun t v ha ho hte hv l hcnt => yafRun_done ha hu (yafClusterOnline_passed hc ht ho hte hv hcnt l)
  case cmp => exact fun ha ho => yafRun_un ha hu (yafCmpTest_online hc ht ho 0 [])
  case cmpRun => exact fun t ha ho hte => yafRun_done ha hu (yafCmpTest_passed hc ht ho hte)
  case bist =>
    intro sc un k f t ha h1 h5 hk he hb
    exact ⟨fun hr h2 => yafRun_un ha hu (yafBistRun_online f h1 h5 hk he hb hr h2),
      fun hr ht hp => yafRun_done ha hu (yafBistRun_passed f h1 h5 hk he hb hr ht hp)⟩
  case trip =>
    intro p pb n pe fr tm ha hp hpub ht hup hl hm hf
    exact ⟨u.tripStarted h p.toNat pb.toNat n.toNat fr.toNat tm.toNat, yafRun_wait ha hu (yafTripTest_starts hp hpub ht hup hl hm hf),
      rfl, rfl, rfl, rfl⟩
  case injectNone =>
    intro f ht
    change execTripTestFrameInject f s = _
    simp only [execTripTestFrameInject, ht]
  case inject =>
    intro f t ht
    have he : exec (.tripTestFrameInject f) s = execTripTestFrameInject f s := rfl
    simp only [he, execTripTestFrameInject, ht]
    exact ⟨fun hz => congrArg Host.Outcome.next (if_neg fun hc => hc.1 hz),
      fun hn hf hup hfr => congrArg Host.Outcome.next (if_pos ⟨hn, by simp [hf], hup, hfr⟩)⟩
  case vfEnable =>
    intro n ha
    refine ⟨fun hn => yafRun_un ha hu (if_pos hn), fun hn => ⟨fun hb => yafRun_un ha hu ?_, fun hb => yafRun_done ha hu ?_⟩⟩
    · rw [yafVfEnable_legal hn, if_pos hb]
    · rw [yafVfEnable_legal hn, if_neg (Bool.eq_false_iff.1 hb)]
  case vfAssign =>
    rintro vf k fi n b z a ha rfl h0 hv h1 h7 hg hn hw
    refine ⟨fun hb => yafRun_un ha hu ?_, fun hb => yafRun_done ha hu ?_⟩
    · rw [yafVfAssign_legal h0 hv h1 h7 hg hn hw, if_pos hb]
    · rw [yafVfAssign_legal h0 hv h1 h7 hg hn hw, if_neg (Bool.eq_false_iff.1 hb)]
  case release =>
    intro ha
    refine ⟨fun hb => yafRun_un ha hu ?_, fun hb => yafRun_done ha hu ?_⟩
    · rw [yafVfRelease_legal h0 hv, if_pos hb]
    · rw [yafVfRelease_legal h0 hv, if_neg (Bool.eq_false_iff.1 hb)]
  case start =>
    rintro b p t ha rfl
    refine ⟨fun hs => yafRun_no ha hu ?_, fun hs => yafRun_done ha hu ?_⟩
    · rw [yafDirtyLogStart, State.onDlog_of h0 hv, ← hst, if_pos hs]
    · rw [yafDirtyLogStart, State.onDlog_of h0 hv, ← hst, if_neg (by omega)]
  case swap =>
    intro b ha
    refine ⟨fun hs => yafRun_no ha hu ?_, fun hs =>
      ⟨u.bitmapOut vf.toNat, _, (u.bitmapOut vf.toNat).fresh.1, rfl, rfl, yafRun_done ha hu (yafDirtyLogSwap_on h0 hv b.toNat (hst.symm.trans hs))⟩⟩
    rw [yafDirtyLogSwap, State.onDlog_of h0 hv, ← hst, if_pos hs]
  case stop =>
    intro ha
    refine ⟨fun hs => yafRun_no ha hu ?_, fun hs hd d t hde hte => yafRun_done ha hu ?_⟩
    · rw [yafDirtyLogStop, State.onDlog_of h0 hv, ← hst, if_pos hs]
    · subst hde hte
      rw [yafDirtyLogStop, State.onDlog_of h0 hv, ← hst, if_neg (by omega), hd]
      simp [pagesOf]
  case reset =>
    intro c ha
    refine ⟨yafRun_done ha hu rfl, yafRun_done ha hu rfl, yafRun_un ha hu rfl, fun hc ht hr => yafRun_done ha hu ?_⟩
    exact (State.onCluster_of hc ht _).trans (by simp only [hr])
  case power =>
    rintro t ha rfl
    exact yafRun_done ha hu rfl
  case stage =>
    intro sl im ln vr bs ha h1 hn hb
    refine ⟨fun rb => yafRun_no ha hu ?_, yafRun_no ha hu ?_, yafRun_done ha hu ?_⟩ <;>
      rw [yafFwStage, if_neg (Nat.not_lt_of_le h1), if_neg hn, hb] <;> rfl
  case activate =>
    intro sl ha h1
    refine ⟨fun hb => yafRun_un ha hu ?_, fun hb => yafRun_done ha hu ?_⟩
    · rw [yafFwActivate, if_neg (Nat.not_lt_of_le h1), if_pos (by simp [hb])]
    · rw [yafFwActivate, if_neg (Nat.not_lt_of_le h1), if_neg (by simp [hb])]

end Sys2Proof.Machine
end

section
/-! SUPPORT. The table of logical processors with one entry moved to where a write of it would leave it. A floating-point operation that
signals nothing writes its processor's entry back unchanged (05 R143), which moves the entry of a table that is out of order. -/

namespace Sys2Proof.Machine

open Sys2Proof.Safety

/-- A table with the first of its entries at a number moved to where a write would leave it. -/
def canon {α : Type} (t : Tbl α) (n : Nat) : Tbl α := (tblGet? t n).elim t (tblSet t n)

theorem tblSet_comm {α : Type} (t : Tbl α) {n m : Nat} (h : n ≠ m) (x y : α) :
    tblSet (tblSet t n x) m y = tblSet (tblSet t m y) n x := by
  induction t with
  | nil => grind [tblSet]
  | cons e t ih => grind [tblSet]

theorem tblGet?_canon {α : Type} (t : Tbl α) (n m : Nat) : tblGet? (canon t n) m = tblGet? t m := by
  rw [canon]
  cases h : tblGet? t n with
  | none => rfl
  | some v =>
    by_cases hm : n = m
    · subst hm
      exact (tblGet?_tblSet_same _ _ _).trans h.symm
    · exact tblGet?_tblSet_other _ _ hm

@[simp] theorem tblGetD_canon {α : Type} (t : Tbl α) (n m : Nat) (d : α) : tblGetD (canon t n) m d = tblGetD t m d := by
  rw [tblGetD, tblGet?_canon, tblGetD]

@[simp] theorem tblSet_canon {α : Type} (t : Tbl α) (n m : Nat) (x : α) : tblSet (canon t n) m x = canon (tblSet t m x) n := by
  by_cases hm : n = m
  · subst hm
    rw [canon, canon, tblGet?_tblSet_same, Option.elim_some, tblSet_tblSet_same]
    cases tblGet? t n with
    | none => rfl
    | some v => exact tblSet_tblSet_same _ _ _ _
  · rw [canon, canon, tblGet?_tblSet_other _ _ (Ne.symm hm)]
    cases tblGet? t n with
    | none => rfl
    | some v => exact tblSet_comm _ hm _ _

theorem tblMap_tblSet {α : Type} (f : Nat → α → α) (t : Tbl α) (n : Nat) (x : α) :
    tblMap f (tblSet t n x) = tblSet (tblMap f t) n (f n x) := by
  induction t with
  | nil => rfl
  | cons e t ih =>
    obtain ⟨k, v⟩ := e
    simp only [tblSet, tblMap, List.map_cons] at ih ⊢
    (repeat' split) <;> simp_all

@[simp] theorem tblMap_canon {α : Type} (f : Nat → α → α) (t : Tbl α) (n : Nat) : tblMap f (canon t n) = canon (tblMap f t) n := by
  rw [canon, canon, tblGet?_tblMap]
  cases tblGet? t n with
  | none => rfl
  | some v => exact tblMap_tblSet f t n v

/-- The state whose table of logical processors has the entry of one where a write would leave it. -/
def State.touch (s : State) (k : Nat) : State := { s with lps := canon s.lps k }

@[simp] theorem State.touch_pending (s : State) (k : Nat) : (s.touch k).pending = s.pending := (rfl)
@[simp] theorem State.touch_freeCount (s : State) (k : Nat) : (s.touch k).freeCount = s.freeCount := (rfl)
@[simp] theorem State.touch_resp (s : State) (k : Nat) : (s.touch k).resp = s.resp := (rfl)
@[simp] theorem State.touch_regs (s : State) (k : Nat) : (s.touch k).regs = s.regs := (rfl)
@[simp] theorem State.touch_mem (s : State) (k : Nat) : (s.touch k).mem = s.mem := (rfl)
@[simp] theorem State.touch_installed (s : State) (k : Nat) : (s.touch k).installed = s.installed := (rfl)
@[simp] theorem State.touch_underL2 (s : State) (k : Nat) : (s.touch k).underL2 = s.underL2 := (rfl)
@[simp] theorem State.touch_underSc (s : State) (k : Nat) : (s.touch k).underSc = s.underSc := (rfl)
@[simp] theorem State.touch_poison (s : State) (k : Nat) : (s.touch k).poison = s.poison := (rfl)
@[simp] theorem State.touch_lps (s : State) (k : Nat) : (s.touch k).lps = canon s.lps k := (rfl)
@[simp] theorem State.touch_pairs (s : State) (k : Nat) : (s.touch k).pairs = s.pairs := (rfl)
@[simp] theorem State.touch_l2 (s : State) (k : Nat) : (s.touch k).l2 = s.l2 := (rfl)
@[simp] theorem State.touch_sc (s : State) (k : Nat) : (s.touch k).sc = s.sc := (rfl)
@[simp] theorem State.touch_rm (s : State) (k : Nat) : (s.touch k).rm = s.rm := (rfl)
@[simp] theorem State.touch_lens (s : State) (k : Nat) : (s.touch k).lens = s.lens := (rfl)
@[simp] theorem State.touch_time (s : State) (k : Nat) : (s.touch k).time = s.time := (rfl)
@[simp] theorem State.touch_split (s : State) (k : Nat) : (s.touch k).split = s.split := (rfl)
@[simp] theorem State.touch_ready (s : State) (k : Nat) : (s.touch k).ready = s.ready := (rfl)
@[simp] theorem State.touch_chans (s : State) (k : Nat) : (s.touch k).chans = s.chans := (rfl)
@[simp] theorem State.touch_epochs (s : State) (k : Nat) : (s.touch k).epochs = s.epochs := (rfl)
@[simp] theorem State.touch_dbIn (s : State) (k : Nat) : (s.touch k).dbIn = s.dbIn := (rfl)
@[simp] theorem State.touch_dbAt (s : State) (k : Nat) : (s.touch k).dbAt = s.dbAt := (rfl)
@[simp] theorem State.touch_fns (s : State) (k : Nat) : (s.touch k).fns = s.fns := (rfl)
@[simp] theorem State.touch_reqs (s : State) (k : Nat) : (s.touch k).reqs = s.reqs := (rfl)
@[simp] theorem State.touch_cp1Serves (s : State) (k : Nat) : (s.touch k).cp1Serves = s.cp1Serves := (rfl)
@[simp] theorem State.touch_parts (s : State) (k : Nat) : (s.touch k).parts = s.parts := (rfl)
@[simp] theorem State.touch_assigns (s : State) (k : Nat) : (s.touch k).assigns = s.assigns := (rfl)
@[simp] theorem State.touch_dlogs (s : State) (k : Nat) : (s.touch k).dlogs = s.dlogs := (rfl)
@[simp] theorem State.touch_resetReqs (s : State) (k : Nat) : (s.touch k).resetReqs = s.resetReqs := (rfl)
@[simp] theorem State.touch_heldReacts (s : State) (k : Nat) : (s.touch k).heldReacts = s.heldReacts := (rfl)
@[simp] theorem State.touch_errPin (s : State) (k : Nat) : (s.touch k).errPin = s.errPin := (rfl)
@[simp] theorem State.touch_errAt (s : State) (k : Nat) : (s.touch k).errAt = s.errAt := (rfl)
@[simp] theorem State.touch_errHeld (s : State) (k : Nat) : (s.touch k).errHeld = s.errHeld := (rfl)
@[simp] theorem State.touch_shutdown (s : State) (k : Nat) : (s.touch k).shutdown = s.shutdown := (rfl)
@[simp] theorem State.touch_thermSeen (s : State) (k : Nat) : (s.touch k).thermSeen = s.thermSeen := (rfl)
@[simp] theorem State.touch_tqs (s : State) (k : Nat) : (s.touch k).tqs = s.tqs := (rfl)
@[simp] theorem State.touch_nvj (s : State) (k : Nat) : (s.touch k).nvj = s.nvj := (rfl)
@[simp] theorem State.touch_svc (s : State) (k : Nat) : (s.touch k).svc = s.svc := (rfl)
@[simp] theorem State.touch_twStopped (s : State) (k : Nat) : (s.touch k).twStopped = s.twStopped := (rfl)
@[simp] theorem State.touch_tengs (s : State) (k : Nat) : (s.touch k).tengs = s.tengs := (rfl)
@[simp] theorem State.touch_reasm (s : State) (k : Nat) : (s.touch k).reasm = s.reasm := (rfl)
@[simp] theorem State.touch_ports (s : State) (k : Nat) : (s.touch k).ports = s.ports := (rfl)
@[simp] theorem State.touch_ddts (s : State) (k : Nat) : (s.touch k).ddts = s.ddts := (rfl)
@[simp] theorem State.touch_streams (s : State) (k : Nat) : (s.touch k).streams = s.streams := (rfl)
@[simp] theorem State.touch_subs (s : State) (k : Nat) : (s.touch k).subs = s.subs := (rfl)
@[simp] theorem State.touch_pubs (s : State) (k : Nat) : (s.touch k).pubs = s.pubs := (rfl)
@[simp] theorem State.touch_cages (s : State) (k : Nat) : (s.touch k).cages = s.cages := (rfl)
@[simp] theorem State.touch_links (s : State) (k : Nat) : (s.touch k).links = s.links := (rfl)
@[simp] theorem State.touch_form (s : State) (k : Nat) : (s.touch k).form = s.form := (rfl)
@[simp] theorem State.touch_pools (s : State) (k : Nat) : (s.touch k).pools = s.pools := (rfl)
@[simp] theorem State.touch_yaf (s : State) (k : Nat) : (s.touch k).yaf = s.yaf := (rfl)
@[simp] theorem State.touch_chip (s : State) (k : Nat) : (s.touch k).chip = s.chip := (rfl)
@[simp] theorem State.touch_out (s : State) (k : Nat) : (s.touch k).out = s.out := (rfl)

/-- A state written out with a moved entry is the moved state. -/
@[simp] theorem State.mk_canon {pending freeCount resp regs mem installed underL2 underSc poison lps pairs l2 sc rm lens time split ready chans
    epochs dbIn dbAt fns reqs cp1Serves parts assigns dlogs resetReqs heldReacts errPin errAt errHeld shutdown thermSeen tqs nvj svc twStopped
    tengs reasm ports ddts streams subs pubs cages links form pools yaf chip out} (k : Nat) :
    State.mk pending freeCount resp regs mem installed underL2 underSc poison (canon lps k) pairs l2 sc rm lens time split ready chans epochs
    dbIn dbAt fns reqs cp1Serves parts assigns dlogs resetReqs heldReacts errPin errAt errHeld shutdown thermSeen tqs nvj svc twStopped tengs
    reasm ports ddts streams subs pubs cages links form pools yaf chip out =
      (State.mk pending freeCount resp regs mem installed underL2 underSc poison lps pairs l2 sc rm lens time split ready chans epochs dbIn dbAt
    fns reqs cp1Serves parts assigns dlogs resetReqs heldReacts errPin errAt errHeld shutdown thermSeen tqs nvj svc twStopped tengs reasm ports
    ddts streams subs pubs cages links form pools yaf chip out).touch k := rfl

@[simp] theorem State.touch_ite (c : Prop) [Decidable c] (a b : State) (k : Nat) :
    (if c then a.touch k else b.touch k) = (if c then a else b).touch k := by
  split <;> rfl

/-- A fold of steps that keep to it does. -/
@[simp] theorem State.foldl_touch {α : Type} {g : State → α → State} {k : Nat} (hg : ∀ t a, g (t.touch k) a = (g t a).touch k) (ls : List α)
    (s : State) : ls.foldl g (s.touch k) = (ls.foldl g s).touch k := by
  induction ls generalizing s with
  | nil => rfl
  | cons a as ih => rw [List.foldl_cons, List.foldl_cons, hg, ih]

/-- A branch whose condition does not see the move keeps to it where its arms do. -/
theorem State.ite_touch {c c' : Prop} [Decidable c] [Decidable c'] {a b a' b' : State} {k : Nat} (hc : c' ↔ c) (ha : a' = a.touch k)
    (hb : b' = b.touch k) : (if c' then a' else b') = (if c then a else b).touch k := by
  by_cases h : c
  · rw [if_pos h, if_pos (hc.mpr h), ha]
  · rw [if_neg h, if_neg (mt hc.mp h), hb]

/-- The move, of what performing a store-buffer entry comes to. -/
def Performed.touch (k : Nat) : Performed → Performed
  | .done s => .done (s.touch k)
  | .busError s => .busError (s.touch k)
  | .held s => .held (s.touch k)

/-- The move, of what enabling a queue comes to. -/
def TqEnable.touch (k : Nat) : TqEnable → TqEnable
  | .done s => .done (s.touch k)
  | .badState => .badState
  | .badSize => .badSize
  | .notDurable => .notDurable
  | .noResource => .noResource

end Sys2Proof.Machine
end

section
/-! SUPPORT. Whatever performing a store-buffer entry runs does not see where the entry of a logical processor stands in the table, and keeps
the move: one rule for each function, in the order in which they call one another, up to a step of the drain engine (06 R158). -/

namespace Sys2Proof.Machine

open Sys2Proof.Safety

/-! ### The state, and the caches -/

@[simp] theorem State.lp_touch (s : State) (n k : Nat) : (s.touch k).lp n = s.lp n := by simp [State.lp]

@[simp] theorem State.chan_touch (s : State) (ch k : Nat) : (s.touch k).chan ch = s.chan ch := rfl

@[simp] theorem State.setLp_touch (s : State) (n : Nat) (p : LP) (k : Nat) : (s.touch k).setLp n p = (s.setLp n p).touch k := by simp [State.setLp]

@[simp] theorem State.onLp_touch (s : State) (n : Nat) (f : LP → LP) (k : Nat) : (s.touch k).onLp n f = (s.onLp n f).touch k := by simp [State.onLp]

@[simp] theorem State.fresh_touch (s : State) (k : Nat) : (s.touch k).fresh = ((s.fresh).1, (s.fresh).2.touch k) := by rfl

@[simp] theorem State.addrKind_touch (s : State) (a k : Nat) : (s.touch k).addrKind a = s.addrKind a := rfl

@[simp] theorem State.rangeKind_touch (s : State) (a n k : Nat) : (s.touch k).rangeKind a n = s.rangeKind a n := rfl

@[simp] theorem State.lineBytes_touch (s : State) (line k : Nat) : (s.touch k).lineBytes line = s.lineBytes line := rfl

@[simp] theorem State.reg_touch (s : State) (off k : Nat) : (s.touch k).reg off = s.reg off := rfl

@[simp] theorem State.flag_touch (s : State) (off i k : Nat) : (s.touch k).flag off i = s.flag off i := rfl

@[simp] theorem State.count_touch (s : State) (off n k : Nat) : (s.touch k).count off n = (s.count off n).touch k := by simp [State.count]

@[simp] theorem State.countLp_touch (s : State) (n i k0 k : Nat) : (s.touch k).countLp n i k0 = (s.countLp n i k0).touch k
    := by simp [State.countLp]

@[simp] theorem State.countFull_touch (s : State) (ns : List Nat) (k : Nat) : (s.touch k).countFull ns = (s.countFull ns).touch k
    := by simp [State.countFull]

@[simp] theorem State.l1Siblings_touch (s : State) (n line k : Nat) : (s.touch k).l1Siblings n line = (s.l1Siblings n line).touch k
    := by simp [State.l1Siblings]

@[simp] theorem State.l2c_touch (s : State) (c k : Nat) : (s.touch k).l2c c = s.l2c c := rfl

@[simp] theorem State.onL2_touch (s : State) (c : Nat) (f : Cache → Cache) (k : Nat) : (s.touch k).onL2 c f = (s.onL2 c f).touch k := by rfl

@[simp] theorem State.l2Dirty_touch (s : State) (c line k : Nat) : (s.touch k).l2Dirty c line = (s.l2Dirty c line).touch k := by
  unfold State.l2Dirty
  (repeat' split) <;> simp_all

@[simp] theorem State.noteL2_touch (s : State) (line k : Nat) : (s.touch k).noteL2 line = (s.noteL2 line).touch k := by simp [State.noteL2]

@[simp] theorem State.filterLines_touch (s : State) (set k : Nat) : (s.touch k).filterLines set = s.filterLines set := rfl

@[simp] theorem State.clearRsv_touch (s : State) (line : Nat) (p : Nat → Bool) (k : Nat) :
    (s.touch k).clearRsv line p = (s.clearRsv line p).touch k := by simp [State.clearRsv]

@[simp] theorem State.countCl_touch (s : State) (c i k0 k : Nat) : (s.touch k).countCl c i k0 = (s.countCl c i k0).touch k
    := by simp [State.countCl]

@[simp] theorem State.l1Invalidate_touch (s : State) (c line k : Nat) : (s.touch k).l1Invalidate c line = (s.l1Invalidate c line).touch k
    := by simp [State.l1Invalidate]

@[simp] theorem State.l2Drop_touch (s : State) (c line k : Nat) : (s.touch k).l2Drop c line = (s.l2Drop c line).touch k := by
  unfold State.l2Drop
  dsimp only
  (repeat' split) <;> simp_all

@[simp] theorem State.l2Clean_touch (s : State) (line k : Nat) : (s.touch k).l2Clean line = (s.l2Clean line).touch k := by rfl

@[simp] theorem State.scs_touch (s : State) (i k : Nat) : (s.touch k).scs i = s.scs i := rfl

@[simp] theorem State.countSc_touch (s : State) (c i k0 k : Nat) : (s.touch k).countSc c i k0 = (s.countSc c i k0).touch k
    := by simp [State.countSc]

@[simp] theorem State.onSc_touch (s : State) (i : Nat) (f : Cache → Cache) (k : Nat) : (s.touch k).onSc i f = (s.onSc i f).touch k := by rfl

@[simp] theorem State.scFill_touch (s : State) (line k : Nat) : (s.touch k).scFill line = (s.scFill line).touch k := by
  unfold State.scFill
  rw [State.addrKind_touch]
  refine State.ite_touch Iff.rfl rfl ?_
  dsimp only
  rw [State.scs_touch]
  cases (s.scs (sliceOf line)).wayOf (scSet line) line with
  | some w =>
    dsimp only
    rw [State.onSc_touch, State.countSc_touch, State.countSc_touch]
  | none =>
    dsimp only
    generalize (s.scs (sliceOf line)).slot _ = old
    rcases old with ⟨l, valid | valid, dirty | dirty, lk⟩
    · simp
    · simp
    · simp
    · by_cases hf : 32 ≤ (s.scs (sliceOf line)).ebuf.length <;> cases (s.scs (sliceOf line)).ebuf.head? <;> simp [hf]

@[simp] theorem State.noteSc_touch (s : State) (line k : Nat) : (s.touch k).noteSc line = (s.noteSc line).touch k := by simp [State.noteSc]

@[simp] theorem State.scDirty_touch (s : State) (line k : Nat) : (s.touch k).scDirty line = (s.scDirty line).touch k := by
  unfold State.scDirty
  dsimp only
  (repeat' split) <;> simp_all

@[simp] theorem State.l2WriteBack_touch (s : State) (line k : Nat) : (s.touch k).l2WriteBack line = (s.l2WriteBack line).touch k
    := by simp [State.l2WriteBack]

@[simp] theorem State.filterRoom_touch (s : State) (line k : Nat) : (s.touch k).filterRoom line = (s.filterRoom line).touch k := by
  refine State.ite_touch Iff.rfl rfl (State.ite_touch Iff.rfl rfl ?_)
  rw [State.fresh_touch, State.filterLines_touch]
  dsimp only
  cases (s.filterLines (l2Set line))[s.fresh.1 % (s.filterLines (l2Set line)).length]? with
  | none => rfl
  | some v => simp

@[simp] theorem State.holders_touch (s : State) (line k : Nat) : (s.touch k).holders line = s.holders line := rfl

@[simp] theorem State.snoops_touch (s : State) (line : Nat) (cs : List Nat) (k : Nat) :
    (s.touch k).snoops line cs = (s.snoops line cs).touch k := by simp [State.snoops]

@[simp] theorem State.reservedIn_touch (s : State) (c line k : Nat) : (s.touch k).reservedIn c line = s.reservedIn c line
    := by simp [State.reservedIn]

@[simp] theorem State.countHub_touch (s : State) (p i k0 k : Nat) : (s.touch k).countHub p i k0 = (s.countHub p i k0).touch k
    := by simp [State.countHub]

@[simp] theorem State.l2Alloc_touch (s : State) (c line k : Nat) : (s.touch k).l2Alloc c line = (s.l2Alloc c line).touch k := by
  have hr (t : State) : (t.touch k).reservedIn = t.reservedIn := by
    funext c l
    exact State.reservedIn_touch t c l k
  unfold State.l2Alloc
  rw [State.l2c_touch, State.addrKind_touch, State.holders_touch]
  dsimp only
  rw [State.touch_underL2, State.ite_touch (a := s) (b := (((s.l2WriteBack line).l2Clean line).snoops line 
     (if (tblGet? s.underL2 line).isSome = true then s.holders line else [])).scFill line) Iff.rfl rfl (by
      rw [State.l2WriteBack_touch, State.l2Clean_touch, State.snoops_touch, State.scFill_touch])]
  generalize (if (s.l2c c).ebuf.contains line = true then s
            else
              (((s.l2WriteBack line).l2Clean line).snoops line
                    (if (tblGet? s.underL2 line).isSome = true then s.holders line else [])).scFill
                line) = t
  rw [hr, State.l2c_touch]
  generalize (t.l2c c).slot _ = old
  rcases old with ⟨l | l, valid | valid, dirty | dirty, lk⟩
  · simp
  · simp
  · simp
  · by_cases hf : 16 ≤ (t.l2c c).ebuf.length <;> cases he : (t.l2c c).ebuf.head? <;> simp [hf, he]
  · simp
  · simp
  · simp
  · by_cases hf : 16 ≤ (((t.l1Invalidate c l).clearRsv l fun n => n / 6 == c).l2c c).ebuf.length <;>
      cases he : (((t.l1Invalidate c l).clearRsv l fun n => n / 6 == c).l2c c).ebuf.head? <;> simp [hf, he]

@[simp] theorem State.l2Fill_touch (s : State) (c line k : Nat) : (s.touch k).l2Fill c line = (s.l2Fill c line).touch k := by
  unfold State.l2Fill
  dsimp only
  (repeat' split) <;> simp_all

@[simp] theorem State.ownBy_touch (s : State) (c line k : Nat) : (s.touch k).ownBy c line = (s.ownBy c line).touch k := by simp [State.ownBy]

@[simp] theorem State.l2Own_touch (s : State) (c line k : Nat) : (s.touch k).l2Own c line = (s.l2Own c line).touch k := by simp [State.l2Own]

@[simp] theorem State.lineWrite_touch (s : State) (a : Nat) (bs : List Byte) (k : Nat) :
    (s.touch k).lineWrite a bs = (s.lineWrite a bs).touch k := by simp [State.lineWrite]

@[simp] theorem State.storeWb_touch (s : State) (n a : Nat) (bs : List Byte) (k : Nat) :
    (s.touch k).storeWb n a bs = (s.storeWb n a bs).touch k := by simp [State.storeWb]

@[simp] theorem State.hostOk_touch (s : State) (k : Nat) : (s.touch k).hostOk = s.hostOk := rfl

@[simp] theorem State.lpFn_touch (s : State) (n k : Nat) : (s.touch k).lpFn n = s.lpFn n := rfl

/-! ### Registers, events and doorbells -/

@[simp] theorem State.fld_touch (s : State) (off lo w k : Nat) : (s.touch k).fld off lo w = s.fld off lo w := rfl

@[simp] theorem State.setReg_touch (s : State) (off v k : Nat) : (s.touch k).setReg off v = (s.setReg off v).touch k := by rfl

@[simp] theorem State.react_touch (s : State) (n k : Nat) : (s.touch k).react n = s.react n := rfl

@[simp] theorem State.copyOf_touch (s : State) (island k : Nat) : (s.touch k).copyOf island = s.copyOf island := rfl

@[simp] theorem State.tbIn_touch (s : State) (island k : Nat) : (s.touch k).tbIn island = s.tbIn island := rfl

@[simp] theorem State.stampIn_touch (s : State) (island k : Nat) : (s.touch k).stampIn island = s.stampIn island := rfl

@[simp] theorem State.errInput_touch (s : State) (n input cause addr k : Nat) :
    (s.touch k).errInput n input cause addr = (s.errInput n input cause addr).touch k := by simp [State.errInput]

@[simp] theorem State.errInt_touch (s : State) (n k : Nat) : (s.touch k).errInt n = (s.errInt n).touch k := by simp [State.errInt]

@[simp] theorem State.isSplit_touch (s : State) (c k : Nat) : (s.touch k).isSplit c = s.isSplit c := rfl

@[simp] theorem State.slots_touch (s : State) (c k : Nat) : (s.touch k).slots c = s.slots c := rfl

@[simp] theorem State.reactInt_touch (s : State) (n k : Nat) : (s.touch k).reactInt n = (s.reactInt n).touch k := by simp [State.reactInt]

@[simp] theorem State.nmiAt_touch (s : State) (n k : Nat) : (s.touch k).nmiAt n = (s.nmiAt n).touch k := by simp [State.nmiAt]

@[simp] theorem State.lpExists_touch (s : State) (n k : Nat) : (s.touch k).lpExists n = s.lpExists n := rfl

@[simp] theorem State.reactNmi_touch (s : State) (n k : Nat) : (s.touch k).reactNmi n = (s.reactNmi n).touch k := by simp [State.reactNmi]

@[simp] theorem blockResetOf_touch (s : State) (n k : Nat) : blockResetOf (s.touch k) n = blockResetOf s n := rfl

@[simp] theorem State.askReset_touch (s : State) (r : ResetReq) (k : Nat) : (s.touch k).askReset r = (s.askReset r).touch k
    := by simp [State.askReset]

@[simp] theorem State.assertErrN_touch (s : State) (src k : Nat) : (s.touch k).assertErrN src = (s.assertErrN src).touch k := by rfl

@[simp] theorem State.actReaction_touch (s : State) (n r : Nat) (late : Bool) (k : Nat) :
    (s.touch k).actReaction n r late = (s.actReaction n r late).touch k := by
  unfold State.actReaction
  (repeat' split) <;> simp_all

@[simp] theorem State.quality_touch (s : State) (island k : Nat) : (s.touch k).quality island = s.quality island := rfl

@[simp] theorem State.tsBytes_touch (s : State) (island : Nat) (t : Stamp) (k : Nat) : (s.touch k).tsBytes island t = s.tsBytes island t := rfl

@[simp] theorem State.ts80_touch (s : State) (island k : Nat) : (s.touch k).ts80 island = s.ts80 island := rfl

@[simp] theorem State.servingCp_touch (s : State) (k : Nat) : (s.touch k).servingCp = s.servingCp := rfl

@[simp] theorem State.yafAlive_touch (s : State) (k : Nat) : (s.touch k).yafAlive = s.yafAlive := by simp [State.yafAlive]

@[simp] theorem State.req_touch (s : State) (m k : Nat) : (s.touch k).req m = s.req m := rfl

@[simp] theorem State.onReq_touch (s : State) (m : Nat) (f : Requester → Requester) (k : Nat) :
    (s.touch k).onReq m f = (s.onReq m f).touch k := by rfl

@[simp] theorem State.chanRoom_touch (s : State) (ch k : Nat) : (s.touch k).chanRoom ch = s.chanRoom ch := rfl

@[simp] theorem State.bindSender_touch (s : State) (ch k : Nat) : (s.touch k).bindSender ch = s.bindSender ch := rfl

@[simp] theorem State.epoch_touch (s : State) (m k : Nat) : (s.touch k).epoch m = s.epoch m := rfl

@[simp] theorem State.onChan_touch (s : State) (ch : Nat) (f : Chan → Chan) (k : Nat) : (s.touch k).onChan ch f = (s.onChan ch f).touch k := by rfl

@[simp] theorem State.dbReceiver_touch (s : State) (m k : Nat) : (s.touch k).dbReceiver m = s.dbReceiver m := by simp [State.dbReceiver]

@[simp] theorem State.dbLevel_touch (s : State) (m b k : Nat) : (s.touch k).dbLevel m b = s.dbLevel m b := rfl

@[simp] theorem State.fn_touch (s : State) (f k : Nat) : (s.touch k).fn f = s.fn f := rfl

@[simp] theorem State.msixOpen_touch (s : State) (f v k : Nat) : (s.touch k).msixOpen f v = s.msixOpen f v := rfl

@[simp] theorem State.emit_touch (s : State) (o : Out) (k : Nat) : (s.touch k).emit o = (s.emit o).touch k := by rfl

@[simp] theorem State.msix_touch (s : State) (f v k : Nat) : (s.touch k).msix f v = (s.msix f v).touch k := by simp [State.msix]

@[simp] theorem State.dbDeliver_touch (s : State) (n b : Nat) (force : Bool) (k : Nat) :
    (s.touch k).dbDeliver n b force = (s.dbDeliver n b force).touch k := by simp [State.dbDeliver]

@[simp] theorem State.dbFollow_touch (s : State) (m b : Nat) (was : Bool) (k : Nat) :
    (s.touch k).dbFollow m b was = (s.dbFollow m b was).touch k := by
  unfold State.dbFollow
  (repeat' split) <;> simp_all

@[simp] theorem State.setFlag_touch (s : State) (off i : Nat) (b : Bool) (k : Nat) :
    (s.touch k).setFlag off i b = (s.setFlag off i b).touch k := by rfl

@[simp] theorem State.ring_touch (s : State) (m b k : Nat) : (s.touch k).ring m b = (s.ring m b).touch k := by
  unfold State.ring
  (repeat' split) <;> simp_all

@[simp] theorem State.bindReceiver_touch (s : State) (ch k : Nat) : (s.touch k).bindReceiver ch = s.bindReceiver ch := rfl

@[simp] theorem State.bindBit_touch (s : State) (ch k : Nat) : (s.touch k).bindBit ch = s.bindBit ch := rfl

@[simp] theorem State.chanPut_touch (s : State) (ch : Nat) (words : List (BitVec 64)) (k : Nat) :
    (s.touch k).chanPut ch words = (s.chanPut ch words).touch k := by simp [State.chanPut]

@[simp] theorem State.postHeld_touch (s : State) (m fuel k : Nat) : (s.touch k).postHeld m fuel = (s.postHeld m fuel).touch k := by
  induction fuel generalizing s with
  | zero => rfl
  | succ fuel ih =>
    unfold State.postHeld
    rw [State.req_touch, State.servingCp_touch, show (s.touch k).chanRoom = s.chanRoom from rfl]
    dsimp only
    rcases (s.req m).comps with _ | ⟨⟨cp, p⟩, rest⟩
    · refine State.ite_touch Iff.rfl rfl ?_
      rcases (s.req m).events with _ | ⟨e, rest⟩
      · refine State.ite_touch Iff.rfl rfl ?_
        rw [State.ts80_touch, State.chanPut_touch, State.onReq_touch]
      · dsimp only
        rw [State.chanPut_touch, State.onReq_touch, ih]
    · refine State.ite_touch Iff.rfl ?_ rfl
      rw [State.chanPut_touch, State.onReq_touch, ih]

@[simp] theorem State.eventTo_touch (s : State) (m : Nat) (e : EventRec) (k : Nat) : (s.touch k).eventTo m e = (s.eventTo m e).touch k
    := by simp [State.eventTo]

@[simp] theorem State.event_touch (s : State) (code object value value2 : Nat) (owners : List Nat) (k : Nat) :
    (s.touch k).event code object value value2 owners = (s.event code object value value2 owners).touch k := by simp [State.event]

@[simp] theorem State.lpOwners_touch (s : State) (n k : Nat) : (s.touch k).lpOwners n = s.lpOwners n := rfl

@[simp] theorem State.sourceOwners_touch (s : State) (n k : Nat) : (s.touch k).sourceOwners n = s.sourceOwners n := rfl

@[simp] theorem State.raise_touch (s : State) (n k : Nat) : (s.touch k).raise n = (s.raise n).touch k := by
  unfold State.raise
  dsimp only
  (repeat' split) <;> simp_all

@[simp] theorem State.logCause_touch (s : State) (off cause extra k : Nat) :
    (s.touch k).logCause off cause extra = (s.logCause off cause extra).touch k := by
  unfold State.logCause
  (repeat' split) <;> simp_all

@[simp] theorem State.hostWriteLog_touch (s : State) (n a k : Nat) :
    (s.touch k).hostWriteLog n a = ((s.hostWriteLog n a).1.touch k, (s.hostWriteLog n a).2) := by
  unfold State.hostWriteLog
  dsimp only
  (repeat' split) <;> simp_all

/-! ### The access to a register -/

@[simp] theorem State.underTest_touch (s : State) (c k : Nat) : (s.touch k).underTest c = s.underTest c := rfl

@[simp] theorem State.regTo_touch (s : State) (off size k : Nat) : (s.touch k).regTo off size = s.regTo off size := rfl

@[simp] theorem State.tqOwner_touch (s : State) (q k : Nat) : (s.touch k).tqOwner q = s.tqOwner q := rfl

@[simp] theorem State.jOwner_touch (s : State) (p : Pool) (j k : Nat) : (s.touch k).jOwner p j = s.jOwner p j := rfl

@[simp] theorem State.writer_touch (s : State) (d : RegDesc) (ix : List Nat) (off k : Nat) : (s.touch k).writer d ix off = s.writer d ix off := rfl

@[simp] theorem State.locked_touch (s : State) (off k : Nat) : (s.touch k).locked off = s.locked off := rfl

@[simp] theorem State.fieldsWrite_touch (s : State) (d : RegDesc) (off v k : Nat) : (s.touch k).fieldsWrite d off v = s.fieldsWrite d off v := rfl

@[simp] theorem State.tqOn_touch (s : State) (q k : Nat) : (s.touch k).tqOn q = s.tqOn q := rfl

@[simp] theorem State.setFld_touch (s : State) (off lo w v k : Nat) : (s.touch k).setFld off lo w v = (s.setFld off lo w v).touch k := by rfl

/-! ### Line maintenance -/

@[simp] theorem State.cmpStatW1c_touch (s : State) (c k0 k : Nat) : (s.touch k).cmpStatW1c c k0 = (s.cmpStatW1c c k0).touch k := by
  rw [State.cmpStatW1c, State.setFlag_touch, State.setFld_touch, State.setFld_touch, State.setReg_touch, State.setReg_touch]
  rfl

@[simp] theorem State.timerDue_touch (s : State) (c k0 k : Nat) : (s.touch k).timerDue c k0 = (s.timerDue c k0).touch k := by
  refine State.ite_touch Iff.rfl (State.ite_touch Iff.rfl ?_ ?_) rfl
  · rw [State.stampIn_touch, State.reg_touch, State.fld_touch, State.onLp_touch, State.setFlag_touch, State.setReg_touch]
  · rw [State.onLp_touch, State.setFlag_touch, State.setFlag_touch]

@[simp] theorem State.lockenWrite_touch (s : State) (u : CacheUnit) (v k : Nat) : (s.touch k).lockenWrite u v = (s.lockenWrite u v).touch k := by
  unfold State.lockenWrite
  (repeat' split) <;> simp_all

@[simp] theorem State.l2LockEn_touch (s : State) (c w k : Nat) : (s.touch k).l2LockEn c w = s.l2LockEn c w := rfl

@[simp] theorem State.rangeDram_touch (s : State) (line n k : Nat) : (s.touch k).rangeDram line n = s.rangeDram line n := rfl

@[simp] theorem State.scLockEn_touch (s : State) (i w k : Nat) : (s.touch k).scLockEn i w = s.scLockEn i w := rfl

@[simp] theorem State.doFill_touch (s : State) (c : Nat) (f : PendFill) (k : Nat) : (s.touch k).doFill c f = (s.doFill c f).touch k := by
  unfold State.doFill
  (repeat' split) <;> simp_all

@[simp] theorem State.fillAll_touch (s : State) (c k : Nat) : (s.touch k).fillAll c = (s.fillAll c).touch k := by simp [State.fillAll]

@[simp] theorem State.placeL2_touch (s : State) (c w line k : Nat) : (s.touch k).placeL2 c w line = (s.placeL2 c w line).map (·.touch k) := by
  unfold State.placeL2
  rw [show (s.touch k).l2LockEn = s.l2LockEn from rfl, State.addrKind_touch, State.l2c_touch]
  dsimp only
  by_cases h : (!s.l2LockEn c w || decide (s.addrKind line = .host)) = true
  · rw [if_pos h, if_pos h, Option.map_none]
  rw [if_neg h, if_neg h]
  cases (s.l2c c).wayOf (l2Set line) line with
  | some v =>
    dsimp only
    by_cases h1 : ((s.l2c c).slot (l2Set line * 16 + v)).locked = true
    · rw [if_pos h1, if_pos h1, Option.map_some]
    rw [if_neg h1, if_neg h1]
    by_cases h2 : v = w
    · rw [if_pos h2, if_pos h2, Option.map_some, State.onL2_touch]
    rw [if_neg h2, if_neg h2]
    rcases (s.l2c c).slot (l2Set line * 16 + w) with ⟨_ | l, _ | _, dirty, _ | _⟩ <;> simp
  | none =>
    dsimp only
    generalize (s.l2c c).slot (l2Set line * 16 + w) = t
    by_cases h1 : (t.locked && (t.valid || t.line != some line) && t.line.isSome) = true
    · rw [if_pos h1, if_pos h1, Option.map_none]
    rw [if_neg h1, if_neg h1]
    by_cases h2 : (s.l2c c).ebuf.contains line = true
    · rw [if_pos h2, if_pos h2]
      rcases t with ⟨_ | l, _ | _, dirty, lk⟩ <;> simp
    · rw [if_neg h2, if_neg h2]
      rcases t with ⟨_ | l, _ | _, dirty, lk⟩ <;> simp

@[simp] theorem State.placeSc_touch (s : State) (w line k : Nat) : (s.touch k).placeSc w line = (s.placeSc w line).map (·.touch k) := by
  unfold State.placeSc
  dsimp only
  (repeat' split) <;> simp_all

@[simp] theorem State.l2IsDirty_touch (s : State) (c line k : Nat) : (s.touch k).l2IsDirty c line = s.l2IsDirty c line := rfl

@[simp] theorem State.lineClean_touch (s : State) (c line k : Nat) : (s.touch k).lineClean c line = (s.lineClean c line).touch k
    := by simp [State.lineClean]

@[simp] theorem State.l2Empty_touch (s : State) (c line k : Nat) : (s.touch k).l2Empty c line = (s.l2Empty c line).touch k := by
  unfold State.l2Empty
  dsimp only
  (repeat' split) <;> simp_all

@[simp] theorem State.l2Discard_touch (s : State) (line k : Nat) : (s.touch k).l2Discard line = (s.l2Discard line).touch k := by
  unfold State.l2Discard
  (repeat' split) <;> simp_all

@[simp] theorem State.lineInval_touch (s : State) (c line k : Nat) : (s.touch k).lineInval c line = (s.lineInval c line).touch k
    := by simp [State.lineInval]

@[simp] theorem State.lineCleanInval_touch (s : State) (c line k : Nat) :
    (s.touch k).lineCleanInval c line = (s.lineCleanInval c line).touch k := by simp [State.lineCleanInval]

@[simp] theorem State.lineUnlock_touch (s : State) (c line k : Nat) : (s.touch k).lineUnlock c line = (s.lineUnlock c line).touch k := by
  unfold State.lineUnlock
  (repeat' split) <;> simp_all

@[simp] theorem State.lineZero_touch (s : State) (c line k : Nat) : (s.touch k).lineZero c line = (s.lineZero c line).touch k
    := by simp [State.lineZero]

@[simp] theorem State.scWriteBack_touch (s : State) (line k : Nat) : (s.touch k).scWriteBack line = (s.scWriteBack line).touch k := by rfl

@[simp] theorem State.devClean_touch (s : State) (line k : Nat) : (s.touch k).devClean line = (s.devClean line).touch k := by simp [State.devClean]

@[simp] theorem State.allDiscard_touch (s : State) (line k : Nat) : (s.touch k).allDiscard line = (s.allDiscard line).touch k := by
  unfold State.allDiscard
  (repeat' split) <;> simp_all

@[simp] theorem State.scEmpty_touch (s : State) (line k : Nat) : (s.touch k).scEmpty line = (s.scEmpty line).touch k := by
  unfold State.scEmpty
  dsimp only
  (repeat' split) <;> simp_all

@[simp] theorem State.dropAll_touch (s : State) (line k : Nat) : (s.touch k).dropAll line = (s.dropAll line).touch k := by simp [State.dropAll]

@[simp] theorem State.devInval_touch (s : State) (line k : Nat) : (s.touch k).devInval line = (s.devInval line).touch k := by simp [State.devInval]

@[simp] theorem State.devCleanInval_touch (s : State) (line k : Nat) : (s.touch k).devCleanInval line = (s.devCleanInval line).touch k
    := by simp [State.devCleanInval]

@[simp] theorem State.devUnlock_touch (s : State) (line k : Nat) : (s.touch k).devUnlock line = (s.devUnlock line).touch k := by
  unfold State.devUnlock
  dsimp only
  (repeat' split) <;> simp_all

@[simp] theorem State.devZero_touch (s : State) (line k : Nat) : (s.touch k).devZero line = (s.devZero line).touch k := by simp [State.devZero]

@[simp] theorem State.rangeLine_touch (s : State) (e : RangeEngine) (o : RangeOp) (line k : Nat) :
    (s.touch k).rangeLine e o line = ((s.rangeLine e o line).1.touch k, (s.rangeLine e o line).2) := by
  unfold State.rangeLine
  dsimp only
  (repeat' split) <;> simp_all

@[simp] theorem State.rangeLines_touch (s : State) (e : RangeEngine) (o : RangeOp) (fuel k : Nat) :
    (s.touch k).rangeLines e o fuel = ((s.rangeLines e o fuel).1.touch k, (s.rangeLines e o fuel).2) := by
  induction fuel generalizing s o with
  | zero => rfl
  | succ fuel ih =>
    unfold State.rangeLines
    by_cases h : o.lines = 0
    · rw [if_pos h, if_pos h]
    · rw [if_neg h, if_neg h]
      simp [ih]

@[simp] theorem State.rmStart_touch (s : State) (e : RangeEngine) (op : Nat) (a : RmArgs) (k : Nat) :
    (s.touch k).rmStart e op a = (s.rmStart e op a).touch k := by
  unfold State.rmStart
  (repeat' split) <;> simp_all

@[simp] theorem State.rmCtrlWrite_touch (s : State) (e : RangeEngine) (d : RegDesc) (v k : Nat) :
    (s.touch k).rmCtrlWrite e d v = (s.rmCtrlWrite e d v).touch k := by simp [State.rmCtrlWrite]

@[simp] theorem State.durUnits_touch (s : State) (i k : Nat) : (s.touch k).durUnits i = s.durUnits i := rfl

@[simp] theorem State.durWrite_touch (s : State) (i v k : Nat) : (s.touch k).durWrite i v = (s.durWrite i v).touch k := by rfl

/-! ### Queues, the journal and completions -/

@[simp] theorem State.poisoned_touch (s : State) (a n k : Nat) : (s.touch k).poisoned a n = s.poisoned a n := rfl

@[simp] theorem State.agentRead_touch (s : State) (a n k : Nat) : (s.touch k).agentRead a n = s.agentRead a n := rfl

@[simp] theorem State.dmaRead_touch (s : State) (a n k : Nat) : (s.touch k).dmaRead a n = s.dmaRead a n := rfl

@[simp] theorem State.tqSlots_touch (s : State) (q k : Nat) : (s.touch k).tqSlots q = s.tqSlots q := rfl

@[simp] theorem State.tqSlotAddr_touch (s : State) (q count k : Nat) : (s.touch k).tqSlotAddr q count = s.tqSlotAddr q count := rfl

@[simp] theorem State.tqDurable_touch (s : State) (q k : Nat) : (s.touch k).tqDurable q = s.tqDurable q := rfl

@[simp] theorem State.parseDesc_touch (s : State) (q count : Nat) (b : List Byte) (k : Nat) :
    (s.touch k).parseDesc q count b = s.parseDesc q count b := rfl

@[simp] theorem State.blankDesc_touch (s : State) (q count k : Nat) : (s.touch k).blankDesc q count = s.blankDesc q count := rfl

@[simp] theorem State.descsFrom_touch (s : State) (q count n k : Nat) : (s.touch k).descsFrom q count n = s.descsFrom q count n := rfl

@[simp] theorem State.tq_touch (s : State) (q k : Nat) : (s.touch k).tq q = s.tq q := rfl

@[simp] theorem State.flow?_touch (s : State) (q i k : Nat) : (s.touch k).flow? q i = s.flow? q i := rfl

@[simp] theorem State.onTq_touch (s : State) (q : Nat) (f : TQueue → TQueue) (k : Nat) : (s.touch k).onTq q f = (s.onTq q f).touch k := by rfl

@[simp] theorem State.onFlow_touch (s : State) (q i : Nat) (f : Flow → Flow) (k : Nat) : (s.touch k).onFlow q i f = (s.onFlow q i f).touch k := by
  unfold State.onFlow
  (repeat' split) <;> simp_all

@[simp] theorem State.giveBack_touch (s : State) (q : Nat) (t : Txn) (k : Nat) : (s.touch k).giveBack q t = (s.giveBack q t).touch k
    := by simp [State.giveBack]

@[simp] theorem State.setHeld_touch (s : State) (q : Nat) (h : Option Hold) (k : Nat) : (s.touch k).setHeld q h = (s.setHeld q h).touch k := by rfl

@[simp] theorem State.onNvj_touch (s : State) (f : Nvj → Nvj) (k : Nat) : (s.touch k).onNvj f = (s.onNvj f).touch k := by simp [State.onNvj]

@[simp] theorem State.nvjEnd_touch (s : State) (p : JRec → Bool) (k : Nat) : (s.touch k).nvjEnd p = (s.nvjEnd p).touch k := by simp [State.nvjEnd]

@[simp] theorem State.nvjEndTxn_touch (s : State) (q count k : Nat) : (s.touch k).nvjEndTxn q count = (s.nvjEndTxn q count).touch k
    := by simp [State.nvjEndTxn]

@[simp] theorem State.agentWrite_touch (s : State) (a : Nat) (bs : List Byte) (k : Nat) :
    (s.touch k).agentWrite a bs = (s.agentWrite a bs).touch k := by simp [State.agentWrite]

@[simp] theorem State.dmaWrite_touch (s : State) (a : Nat) (bs : List Byte) (k : Nat) :
    (s.touch k).dmaWrite a bs = (s.dmaWrite a bs).map (·.touch k) := by simp [State.dmaWrite]

@[simp] theorem State.tqRetireUp_touch (s : State) (q fuel k : Nat) : (s.touch k).tqRetireUp q fuel = (s.tqRetireUp q fuel).touch k := by
  induction fuel generalizing s with
  | zero => rfl
  | succ fuel ih =>
    unfold State.tqRetireUp
    simp [ih]

@[simp] theorem State.twNotify_touch (s : State) (owner target bit k : Nat) :
    (s.touch k).twNotify owner target bit = (s.twNotify owner target bit).touch k := by simp [State.twNotify]

@[simp] theorem State.tqWriteOne_touch (s : State) (q k : Nat) : (s.touch k).tqWriteOne q = (s.tqWriteOne q).map (·.touch k) := by
  unfold State.tqWriteOne
  rw [show (s.touch k).reg = s.reg from rfl, show (s.touch k).fld = s.fld from rfl, State.tq_touch, State.tqOwner_touch]
  rcases (s.tq q).waiting with _ | ⟨⟨count, bs, ntf⟩, rest⟩
  · rfl
  dsimp only
  rw [State.dmaWrite_touch]
  by_cases h : cnt32 (s.reg (Off.tqCqtail q)) (s.reg (Off.tqCqhead q)) < 2 ^ s.fld (Off.tqCq q) 0 5
  · rw [if_pos h, if_pos h, Option.map_some]
    congr 1
    cases s.dmaWrite (s.fld (Off.tqCq q) 12 40 * 4096 + s.reg (Off.tqCqtail q) % 2 ^ s.fld (Off.tqCq q) 0 5 * 32) bs <;> cases ntf <;> simp
  · rw [if_neg h, if_neg h, Option.map_none]

@[simp] theorem State.tqFlush_touch (s : State) (q fuel k : Nat) : (s.touch k).tqFlush q fuel = (s.tqFlush q fuel).touch k := by
  induction fuel generalizing s with
  | zero => simp [State.tqFlush]
  | succ fuel ih =>
    unfold State.tqFlush
    cases h : s.tqWriteOne q <;> simp [h, ih]

@[simp] theorem State.flowsClose_touch (s : State) (q k : Nat) : (s.touch k).flowsClose q = (s.flowsClose q).touch k := by
  unfold State.flowsClose
  (repeat' split) <;> simp_all

@[simp] theorem State.txnEnd_touch (s : State) (q : Nat) (t : Txn) (st : TStat) (value : Nat) (stamp : List Byte) (exch : Bool) (k : Nat) :
    (s.touch k).txnEnd q t st value stamp exch = (s.txnEnd q t st value stamp exch).touch k := by simp [State.txnEnd]

@[simp] theorem State.txnDone_touch (s : State) (q : Nat) (t : Txn) (st : TStat) (value k : Nat) :
    (s.touch k).txnDone q t st value = (s.txnDone q t st value).touch k := by simp [State.txnDone]

@[simp] theorem State.queueDisable_touch (s : State) (q k : Nat) :
    (s.touch k).queueDisable q = ((s.queueDisable q).1.touch k, (s.queueDisable q).2) := by
  unfold State.queueDisable
  dsimp only
  rw [State.reg_touch, State.reg_touch, State.descsFrom_touch, State.tq_touch, State.foldl_touch (fun t a => State.giveBack_touch ..),
    State.setFlag_touch, State.setReg_touch, State.setHeld_touch, State.onTq_touch, State.foldl_touch (fun t a => State.txnDone_touch ..),
      State.tqDurable_touch, State.onNvj_touch,
    State.flowsClose_touch]

@[simp] theorem State.lineDurable_touch (s : State) (line k : Nat) : (s.touch k).lineDurable line = s.lineDurable line := rfl

@[simp] theorem State.rangeDurable_touch (s : State) (a n k : Nat) : (s.touch k).rangeDurable a n = s.rangeDurable a n := rfl

@[simp] theorem State.tqBlocks_touch (s : State) (q k : Nat) : (s.touch k).tqBlocks q = s.tqBlocks q := rfl

@[simp] theorem State.nvjHead_touch (s : State) (h k : Nat) : (s.touch k).nvjHead h = (s.nvjHead h).touch k := by simp [State.nvjHead]

@[simp] theorem State.nvjCarry_touch (s : State) (fuel k : Nat) : (s.touch k).nvjCarry fuel = (s.nvjCarry fuel).touch k := by
  induction fuel generalizing s with
  | zero => rfl
  | succ fuel ih =>
    unfold State.nvjCarry
    simp [ih]

@[simp] theorem State.nvjTake_touch (s : State) (k : Nat) : (s.touch k).nvjTake = (s.nvjTake).touch k := by simp [State.nvjTake]

@[simp] theorem State.spareTaken_touch (s : State) (lo w k : Nat) : (s.touch k).spareTaken lo w = (s.spareTaken lo w).touch k := by rfl

@[simp] theorem State.spareUsed_touch (s : State) (kind source k : Nat) :
    (s.touch k).spareUsed kind source = (s.spareUsed kind source).touch k := by simp [State.spareUsed]

@[simp] theorem State.spareGone_touch (s : State) (kind source k : Nat) :
    (s.touch k).spareGone kind source = (s.spareGone kind source).touch k := by simp [State.spareGone]

@[simp] theorem State.nvjSpare_touch (s : State) (bankB : Bool) (k : Nat) : (s.touch k).nvjSpare bankB = (s.nvjSpare bankB).touch k
    := by simp [State.nvjSpare]

@[simp] theorem State.nvjTry_touch (s : State) (again : Bool) (nv : Verifies) (fuel k : Nat) :
    (s.touch k).nvjTry again nv fuel = ((s.nvjTry again nv fuel).1.touch k, (s.nvjTry again nv fuel).2) := by
  induction fuel generalizing s again nv with
  | zero => rfl
  | succ fuel ih =>
    unfold State.nvjTry
    simp only [State.touch_nvj, State.nvjTake_touch, State.nvjSpare_touch, ih]
    (repeat' split) <;> rfl

@[simp] theorem State.nvjWrite_touch (s : State) (q : Nat) (b : JBody) (nv : Verifies) (k : Nat) :
    (s.touch k).nvjWrite q b nv = ((s.nvjWrite q b nv).1.touch k, (s.nvjWrite q b nv).2) := by
  unfold State.nvjWrite
  rw [State.nvjTry_touch]
  rcases s.nvjTry false nv 4 with ⟨s1, _ | slot, nv1⟩ <;> simp

@[simp] theorem State.nvjWriteAll_touch (s : State) (q : Nat) (nv : Verifies) (bodies : List JBody) (k : Nat) :
    (s.touch k).nvjWriteAll q nv bodies = ((s.nvjWriteAll q nv bodies).1.touch k, (s.nvjWriteAll q nv bodies).2) := by
  induction bodies generalizing s nv with
  | nil => rfl
  | cons b t ih =>
    unfold State.nvjWriteAll
    rw [State.nvjWrite_touch]
    rcases s.nvjWrite q b nv with ⟨s1, _ | _, nv1⟩ <;> simp [ih]

@[simp] theorem State.queueEnable_touch (s : State) (q k : Nat) : (s.touch k).queueEnable q = (s.queueEnable q).touch k := by
  unfold State.queueEnable
  simp
  (repeat' split) <;> simp [TqEnable.touch]

@[simp] theorem State.tqCfgWrite_touch (s : State) (q v k : Nat) : (s.touch k).tqCfgWrite q v = (s.tqCfgWrite q v).touch k := by
  unfold State.tqCfgWrite
  refine State.ite_touch Iff.rfl (State.ite_touch Iff.rfl rfl ?_) (State.ite_touch Iff.rfl ?_ rfl)
  · rw [State.queueDisable_touch]
  · rw [State.setReg_touch, State.queueEnable_touch]
    cases (s.setReg (Off.tqCfg q) (setBits (setBit v 63 false) 42 4 0)).queueEnable q <;> rfl

@[simp] theorem State.twErr_touch (s : State) (q cause k : Nat) : (s.touch k).twErr q cause = (s.twErr q cause).touch k := by simp [State.twErr]

@[simp] theorem State.tqTailWrite_touch (s : State) (master q v k : Nat) :
    (s.touch k).tqTailWrite master q v = ((s.tqTailWrite master q v).1.touch k, (s.tqTailWrite master q v).2) := by
  unfold State.tqTailWrite
  simp
  (repeat' split) <;> simp

/-! ### Ports -/

@[simp] theorem State.txDisableEval_touch (s : State) (p k : Nat) : (s.touch k).txDisableEval p = (s.txDisableEval p).touch k := by rfl

@[simp] theorem State.portMode_touch (s : State) (p k : Nat) : (s.touch k).portMode p = s.portMode p := rfl

@[simp] theorem State.redMode_touch (s : State) (p k : Nat) : (s.touch k).redMode p = s.redMode p := rfl

@[simp] theorem State.port_touch (s : State) (p k : Nat) : (s.touch k).port p = s.port p := rfl

@[simp] theorem State.onPort_touch (s : State) (p : Nat) (f : Port → Port) (k : Nat) : (s.touch k).onPort p f = (s.onPort p f).touch k := by rfl

@[simp] theorem State.redSeq_touch (s : State) (p k : Nat) : (s.touch k).redSeq p = ((s.redSeq p).1, (s.redSeq p).2.touch k) := by
  unfold State.redSeq
  (repeat' split) <;> simp_all

@[simp] theorem State.pubEntry_touch (s : State) (i k : Nat) : (s.touch k).pubEntry i = s.pubEntry i := rfl

@[simp] theorem State.pubSpdu_touch (s : State) (i k : Nat) : (s.touch k).pubSpdu i = (s.pubSpdu i).touch k := by
  unfold State.pubSpdu
  (repeat' split) <;> simp_all

@[simp] theorem State.gooseLen_touch (s : State) (p : Nat) (e slots : List Byte) (stNum k0 tal k : Nat) :
    (s.touch k).gooseLen p e slots stNum k0 tal = s.gooseLen p e slots stNum k0 tal := rfl

@[simp] theorem State.gooseQueue_touch (s : State) (p i k0 : Nat) (cls : EgClass) (due : Nat) (txn : Option (Nat × Nat)) (red : Option Nat)
      (atMax : Bool) (k : Nat) :
    (s.touch k).gooseQueue p i k0 cls due txn red atMax = (s.gooseQueue p i k0 cls due txn red atMax).touch k := by
  unfold State.gooseQueue
  (repeat' split) <;> simp_all

@[simp] theorem State.queueRep_touch (s : State) (p i k0 : Nat) (x : PubPort) (red : Option Nat) (k : Nat) :
    (s.touch k).queueRep p i k0 x red = (s.queueRep p i k0 x red).touch k := by
  unfold State.queueRep
  dsimp only
  (repeat' split) <;> simp_all

@[simp] theorem State.pubsResume_touch (s : State) (p k : Nat) : (s.touch k).pubsResume p = (s.pubsResume p).touch k := by
  unfold State.pubsResume
  refine State.foldl_touch (fun t a => ?_) _ _
  split
  · rfl
  · simp

@[simp] theorem State.pubsStop_touch (s : State) (p k : Nat) : (s.touch k).pubsStop p = (s.pubsStop p).touch k := by rfl

@[simp] theorem State.openTxn_touch (s : State) (q count k : Nat) : (s.touch k).openTxn q count = s.openTxn q count := rfl

@[simp] theorem State.usable_touch (s : State) (p k : Nat) : (s.touch k).usable p = s.usable p := rfl

@[simp] theorem State.portCount_touch (s : State) (p i n k : Nat) : (s.touch k).portCount p i n = (s.portCount p i n).touch k := by rfl

@[simp] theorem State.onTxn_touch (s : State) (q count : Nat) (f : Txn → Txn) (k : Nat) :
    (s.touch k).onTxn q count f = (s.onTxn q count f).touch k := by rfl

@[simp] theorem State.handBack_touch (s : State) (p : Nat) (f : EgFrame) (k : Nat) : (s.touch k).handBack p f = (s.handBack p f).touch k := by
  unfold State.handBack
  cases f.txn with
  | none => rfl
  | some e =>
    obtain ⟨q, c⟩ := e
    cases h : s.openTxn q c <;> simp [h]

@[simp] theorem State.portDrop_touch (s : State) (p k : Nat) : (s.touch k).portDrop p = (s.portDrop p).touch k := by simp [State.portDrop]

@[simp] theorem State.portErr_touch (s : State) (p cause index : Nat) (log : Bool) (k : Nat) :
    (s.touch k).portErr p cause index log = (s.portErr p cause index log).touch k := by simp [State.portErr]

@[simp] theorem State.linkEval_touch (s : State) (p k : Nat) : (s.touch k).linkEval p = (s.linkEval p).touch k := by
  unfold State.linkEval
  rw [show (s.touch k).flag = s.flag from rfl, show (s.touch k).portMode = s.portMode from rfl]
  dsimp only
  refine State.ite_touch Iff.rfl rfl ?_
  split
  · rw [State.setFlag_touch, State.pubsResume_touch, State.portErr_touch, State.reg_touch, State.event_touch]
  · rw [State.setFlag_touch, State.portDrop_touch, State.portErr_touch, State.reg_touch, State.event_touch]

@[simp] theorem State.portCfgWrite_touch (s : State) (p v k : Nat) : (s.touch k).portCfgWrite p v = (s.portCfgWrite p v).touch k := by
  unfold State.portCfgWrite
  dsimp only
  (repeat' split) <;> simp_all

/-! ### Links, routing and packets -/

@[simp] theorem State.linkOn_touch (s : State) (l k : Nat) : (s.touch k).linkOn l = s.linkOn l := rfl

@[simp] theorem State.lanesCfg_touch (s : State) (l k : Nat) : (s.touch k).lanesCfg l = s.lanesCfg l := rfl

@[simp] theorem State.linkOfPort_touch (s : State) (p k : Nat) : (s.touch k).linkOfPort p = s.linkOfPort p := rfl

@[simp] theorem State.linkState_touch (s : State) (l k : Nat) : (s.touch k).linkState l = s.linkState l := rfl

@[simp] theorem State.link_touch (s : State) (l k : Nat) : (s.touch k).link l = s.link l := rfl

@[simp] theorem State.onLink_touch (s : State) (l : Nat) (f : Link → Link) (k : Nat) : (s.touch k).onLink l f = (s.onLink l f).touch k := by rfl

@[simp] theorem State.setLinkState_touch (s : State) (l st k : Nat) : (s.touch k).setLinkState l st = (s.setLinkState l st).touch k
    := by simp [State.setLinkState]

@[simp] theorem State.linkErr_touch (s : State) (l cause k : Nat) : (s.touch k).linkErr l cause = (s.linkErr l cause).touch k
    := by simp [State.linkErr]

@[simp] theorem State.linkCount_touch (s : State) (l i n k : Nat) : (s.touch k).linkCount l i n = (s.linkCount l i n).touch k := by rfl

@[simp] theorem State.selfValid_touch (s : State) (k : Nat) : (s.touch k).selfValid = s.selfValid := rfl

@[simp] theorem State.selfDev_touch (s : State) (k : Nat) : (s.touch k).selfDev = s.selfDev := rfl

@[simp] theorem State.routeEntry_touch (s : State) (dev k : Nat) : (s.touch k).routeEntry dev = s.routeEntry dev := rfl

@[simp] theorem State.linkUp_touch (s : State) (l k : Nat) : (s.touch k).linkUp l = s.linkUp l := rfl

@[simp] theorem State.candidates_touch (s : State) (e k : Nat) : (s.touch k).candidates e = s.candidates e := rfl

@[simp] theorem State.route_touch (s : State) (p : Packet) (k : Nat) : (s.touch k).route p = s.route p := rfl

@[simp] theorem State.channelOf_touch (s : State) (p : Packet) (cls k : Nat) : (s.touch k).channelOf p cls = s.channelOf p cls := rfl

@[simp] theorem State.linkPush_touch (s : State) (l : Nat) (p : Packet) (stamp : Int) (k : Nat) :
    (s.touch k).linkPush l p stamp = (s.linkPush l p stamp).touch k := by rfl

@[simp] theorem State.hcNow_touch (s : State) (k : Nat) : (s.touch k).hcNow = s.hcNow := rfl

@[simp] theorem State.sentTxn_touch (s : State) (q target seq k : Nat) : (s.touch k).sentTxn q target seq = s.sentTxn q target seq := rfl

@[simp] theorem State.incChanged_touch (s : State) (q flow inc k : Nat) : (s.touch k).incChanged q flow inc = s.incChanged q flow inc := rfl

@[simp] theorem State.peerReset_touch (s : State) (q flow inc k : Nat) : (s.touch k).peerReset q flow inc = (s.peerReset q flow inc).touch k
    := by simp [State.peerReset]

@[simp] theorem State.ackIn_touch (s : State) (q target seq inc k : Nat) :
    (s.touch k).ackIn q target seq inc = (s.ackIn q target seq inc).touch k := by
  unfold State.ackIn
  dsimp only
  (repeat' split) <;> simp_all

@[simp] theorem State.refuseIn_touch (s : State) (q target seq reason inc k : Nat) :
    (s.touch k).refuseIn q target seq reason inc = (s.refuseIn q target seq reason inc).touch k := by
  unfold State.refuseIn
  (repeat' split) <;> simp_all

@[simp] theorem State.sendControl_touch (s : State) (p : Packet) (l k : Nat) : (s.touch k).sendControl p l = (s.sendControl p l).touch k := by
  unfold State.sendControl
  (repeat' split) <;> simp_all

@[simp] theorem State.newPacket_touch (s : State) (typ cls destDev destQ srcQ seq k : Nat) :
    (s.touch k).newPacket typ cls destDev destQ srcQ seq = s.newPacket typ cls destDev destQ srcQ seq := rfl

@[simp] theorem State.noRoute_touch (s : State) (p : Packet) (l k : Nat) : (s.touch k).noRoute p l = (s.noRoute p l).touch k
    := by simp [State.noRoute]

@[simp] theorem State.reroute_touch (s : State) (l : Nat) (q : QPkt) (k : Nat) : (s.touch k).reroute l q = (s.reroute l q).touch k := by
  unfold State.reroute
  dsimp only
  (repeat' split) <;> simp_all

@[simp] theorem State.linkVacate_touch (s : State) (l k : Nat) : (s.touch k).linkVacate l = (s.linkVacate l).touch k := by simp [State.linkVacate]

@[simp] theorem State.meanRate_touch (s : State) (k : Nat) : (s.touch k).meanRate = s.meanRate := rfl

@[simp] theorem State.timeState_touch (s : State) (st k : Nat) : (s.touch k).timeState st = (s.timeState st).touch k := by simp [State.timeState]

@[simp] theorem State.enterHoldover_touch (s : State) (k : Nat) : (s.touch k).enterHoldover = (s.enterHoldover).touch k
    := by simp [State.enterHoldover]

@[simp] theorem State.sourceLost_touch (s : State) (k : Nat) : (s.touch k).sourceLost = (s.sourceLost).touch k := by
  unfold State.sourceLost
  (repeat' split) <;> simp_all

@[simp] theorem State.parentLost_touch (s : State) (l k : Nat) : (s.touch k).parentLost l = (s.parentLost l).touch k := by simp [State.parentLost]

@[simp] theorem State.lanesNow_touch (s : State) (l k : Nat) : (s.touch k).lanesNow l = s.lanesNow l := rfl

@[simp] theorem State.lanesLocked_touch (s : State) (l k : Nat) : (s.touch k).lanesLocked l = s.lanesLocked l := rfl

@[simp] theorem State.linkWord_touch (s : State) (l kind value k : Nat) :
    (s.touch k).linkWord l kind value = (s.linkWord l kind value).touch k := by rfl

@[simp] theorem State.linkTrain_touch (s : State) (l k : Nat) : (s.touch k).linkTrain l = (s.linkTrain l).touch k := by
  unfold State.linkTrain
  dsimp only
  (repeat' split) <;> simp_all

@[simp] theorem State.linkDown_touch (s : State) (l cause k : Nat) : (s.touch k).linkDown l cause = (s.linkDown l cause).touch k := by
  unfold State.linkDown
  rw [State.linkState_touch, State.linkOn_touch, State.fld_touch]
  dsimp only
  by_cases h : decide (2 ≤ s.linkState l) = true
  · rw [if_pos h, if_pos h, State.setFld_touch, State.onLink_touch, State.setLinkState_touch,
    State.linkVacate_touch, State.linkCount_touch, State.linkErr_touch, State.parentLost_touch, State.linkTrain_touch, State.touch_ite,
      State.touch_ite]
  · rw [if_neg h, if_neg h, State.setFld_touch, State.onLink_touch, State.setLinkState_touch,
    State.linkVacate_touch, State.parentLost_touch, State.linkTrain_touch, State.touch_ite, State.touch_ite]

@[simp] theorem State.portCfgPut_touch (s : State) (p v k : Nat) : (s.touch k).portCfgPut p v = (s.portCfgPut p v).touch k := by
  unfold State.portCfgPut
  dsimp only
  (repeat' split) <;> simp_all

/-! ### Ports and time -/

@[simp] theorem State.prpCfgWrite_touch (s : State) (k0 v k : Nat) : (s.touch k).prpCfgWrite k0 v = (s.prpCfgWrite k0 v).touch k := by rfl

@[simp] theorem State.msecCfgWrite_touch (s : State) (p v k : Nat) : (s.touch k).msecCfgWrite p v = (s.msecCfgWrite p v).touch k
    := by simp [State.msecCfgWrite]

@[simp] theorem State.lnkCfgWrite_touch (s : State) (l v k : Nat) : (s.touch k).lnkCfgWrite l v = (s.lnkCfgWrite l v).touch k := by
  refine State.ite_touch Iff.rfl rfl (State.ite_touch Iff.rfl (State.ite_touch Iff.rfl ?_ rfl) (State.ite_touch Iff.rfl ?_ rfl))
  · dsimp only
    rw [← State.linkTrain_touch, ← State.setLinkState_touch]
    rfl
  · rw [← State.linkDown_touch]
    rfl

@[simp] theorem State.onDisc_touch (s : State) (f : Disc → Disc) (k : Nat) : (s.touch k).onDisc f = (s.onDisc f).touch k := by rfl

@[simp] theorem State.timeCtrlWrite_touch (s : State) (keep : Bool) (v k : Nat) :
    (s.touch k).timeCtrlWrite keep v = (s.timeCtrlWrite keep v).touch k := by
  unfold State.timeCtrlWrite
  simp
  (repeat' split) <;> simp

@[simp] theorem State.setRate_touch (s : State) (r : Int) (k : Nat) : (s.touch k).setRate r = (s.setRate r).touch k := by simp [State.setRate]

@[simp] theorem State.stepCopies_touch (s : State) (amount : Int) (k : Nat) : (s.touch k).stepCopies amount = s.stepCopies amount := rfl

@[simp] theorem State.adjust_touch (s : State) (step : Bool) (amount : Int) (k : Nat) :
    (s.touch k).adjust step amount = (s.adjust step amount).touch k := by simp [State.adjust]

@[simp] theorem State.timeAdjWrite_touch (s : State) (v k : Nat) : (s.touch k).timeAdjWrite v = (s.timeAdjWrite v).touch k
    := by simp [State.timeAdjWrite]

@[simp] theorem State.ppsCfgWrite_touch (s : State) (v k : Nat) : (s.touch k).ppsCfgWrite v = (s.ppsCfgWrite v).touch k
    := by simp [State.ppsCfgWrite]

/-! ### Job engines and keys -/

@[simp] theorem State.jOn_touch (s : State) (p : Pool) (j k : Nat) : (s.touch k).jOn p j = s.jOn p j := rfl

@[simp] theorem State.readable_touch (s : State) (a n k : Nat) : (s.touch k).readable a n = s.readable a n := rfl

@[simp] theorem State.jSlots_touch (s : State) (p : Pool) (j k : Nat) : (s.touch k).jSlots p j = s.jSlots p j := rfl

@[simp] theorem State.jSlotAddr_touch (s : State) (p : Pool) (j count k : Nat) : (s.touch k).jSlotAddr p j count = s.jSlotAddr p j count := rfl

@[simp] theorem State.jRing_touch (s : State) (p : Pool) (j k : Nat) : (s.touch k).jRing p j = s.jRing p j := rfl

@[simp] theorem State.dmaThrough_touch (s : State) (a : Nat) (bs : List Byte) (k : Nat) :
    (s.touch k).dmaThrough a bs = (s.dmaThrough a bs).map (·.touch k) := by
  unfold State.dmaThrough
  cases h : s.dmaWrite a bs <;> simp [h]

@[simp] theorem State.onPools_touch (s : State) (f : Pools → Pools) (k : Nat) : (s.touch k).onPools f = (s.onPools f).touch k := by rfl

@[simp] theorem State.onJRing_touch (s : State) (p : Pool) (j : Nat) (f : JRing → JRing) (k : Nat) :
    (s.touch k).onJRing p j f = (s.onJRing p j f).touch k := by rfl

@[simp] theorem State.jWriteOne_touch (s : State) (p : Pool) (j k : Nat) : (s.touch k).jWriteOne p j = (s.jWriteOne p j).map (·.touch k) := by
  unfold State.jWriteOne
  (repeat' split) <;> simp_all

@[simp] theorem State.jFlushN_touch (s : State) (p : Pool) (j fuel k : Nat) : (s.touch k).jFlushN p j fuel = (s.jFlushN p j fuel).touch k := by
  induction fuel generalizing s with
  | zero => simp [State.jFlushN]
  | succ fuel ih =>
    unfold State.jFlushN
    cases h : s.jWriteOne p j <;> simp [h, ih]

@[simp] theorem State.jFlush_touch (s : State) (p : Pool) (j k : Nat) : (s.touch k).jFlush p j = (s.jFlush p j).touch k := by simp [State.jFlush]

@[simp] theorem State.jComplete_touch (s : State) (p : Pool) (j : Nat) (d record : List Byte) (k : Nat) :
    (s.touch k).jComplete p j d record = (s.jComplete p j d record).touch k := by simp [State.jComplete]

@[simp] theorem State.jCancelN_touch (s : State) (p : Pool) (j fuel k : Nat) : (s.touch k).jCancelN p j fuel = (s.jCancelN p j fuel).touch k := by
  induction fuel generalizing s with
  | zero => rfl
  | succ fuel ih =>
    unfold State.jCancelN
    simp [ih]

@[simp] theorem State.jEng_touch (s : State) (p : Pool) (e k : Nat) : (s.touch k).jEng p e = s.jEng p e := rfl

@[simp] theorem State.onJEng_touch (s : State) (p : Pool) (e : Nat) (f : JEngine → JEngine) (k : Nat) :
    (s.touch k).onJEng p e f = (s.onJEng p e f).touch k := by rfl

@[simp] theorem State.jDisable_touch (s : State) (p : Pool) (j k : Nat) : (s.touch k).jDisable p j = (s.jDisable p j).touch k := by
  unfold State.jDisable
  dsimp only
  rw [State.reg_touch, State.reg_touch, State.setFlag_touch, State.jCancelN_touch, State.foldl_touch (fun t e => State.onJEng_touch ..),
      State.onJRing_touch,
    State.onPools_touch]

@[simp] theorem State.jCfgWrite_touch (s : State) (p : Pool) (j v k : Nat) : (s.touch k).jCfgWrite p j v = (s.jCfgWrite p j v).touch k
    := by simp [State.jCfgWrite]

@[simp] theorem State.jEvent_touch (s : State) (p : Pool) (i cause slot k : Nat) :
    (s.touch k).jEvent p i cause slot = (s.jEvent p i cause slot).touch k := by simp [State.jEvent]

@[simp] theorem State.jTailWrite_touch (s : State) (p : Pool) (j master v k : Nat) :
    (s.touch k).jTailWrite p j master v = ((s.jTailWrite p j master v).1.touch k, (s.jTailWrite p j master v).2) := by
  unfold State.jTailWrite
  simp
  (repeat' split) <;> simp

@[simp] theorem State.jCqheadWrite_touch (s : State) (p : Pool) (j v k : Nat) :
    (s.touch k).jCqheadWrite p j v = (s.jCqheadWrite p j v).touch k := by simp [State.jCqheadWrite]

@[simp] theorem State.keyWipe_touch (s : State) (k : Nat) : (s.touch k).keyWipe = (s.keyWipe).touch k := by rfl

@[simp] theorem State.keyData_touch (s : State) (len k : Nat) : (s.touch k).keyData len = s.keyData len := rfl

@[simp] theorem State.keyLoadResult_touch (s : State) (slot typ len owner : Nat) (key : List Byte) (k : Nat) :
    (s.touch k).keyLoadResult slot typ len owner key = s.keyLoadResult slot typ len owner key := rfl

@[simp] theorem State.keyPut_touch (s : State) (slot typ len owner : Nat) (pu : Bool) (key : List Byte) (k : Nat) :
    (s.touch k).keyPut slot typ len owner pu key = (s.keyPut slot typ len owner pu key).touch k := by rfl

@[simp] theorem State.keyCommand_touch (s : State) (v k : Nat) : (s.touch k).keyCommand v = (s.keyCommand v).touch k := by
  unfold State.keyCommand
  rw [show (s.touch k).keyData = s.keyData from rfl, show (s.touch k).flag = s.flag from rfl, show (s.touch k).keyLoadResult = s.keyLoadResult
      from rfl]
  dsimp only
  split
  · split
    · rw [State.keyPut_touch, State.keyWipe_touch, State.setReg_touch]
    · rw [State.keyWipe_touch, State.setReg_touch]
  · refine State.ite_touch Iff.rfl ?_ ?_
    · rw [State.keyWipe_touch, State.setReg_touch]
    · rw [State.setReg_touch, State.onPools_touch, State.keyWipe_touch, State.setReg_touch]
  · rw [State.setFlag_touch, State.keyWipe_touch, State.setReg_touch]
  · rfl

@[simp] theorem State.keyCmdWrite_touch (s : State) (v k : Nat) : (s.touch k).keyCmdWrite v = (s.keyCmdWrite v).touch k := by
  refine State.ite_touch Iff.rfl ?_ rfl
  rw [State.fld_touch, State.setReg_touch, State.keyCommand_touch]

/-! ### Mailboxes, event sources, self-test and Lens -/

@[simp] theorem State.mbxTx_touch (s : State) (ch i v k : Nat) : (s.touch k).mbxTx ch i v = (s.mbxTx ch i v).touch k := by rfl

@[simp] theorem State.postCode_touch (s : State) (ch code k : Nat) : (s.touch k).postCode ch code = (s.postCode ch code).touch k := by rfl

@[simp] theorem State.bindValid_touch (s : State) (ch k : Nat) : (s.touch k).bindValid ch = s.bindValid ch := rfl

@[simp] theorem State.mbxPost_touch (s : State) (ch : Nat) (block : Bool) (k : Nat) :
    (s.touch k).mbxPost ch block = (s.mbxPost ch block).touch k := by simp [State.mbxPost]

@[simp] theorem State.mbxRingSet_touch (s : State) (ch v k : Nat) : (s.touch k).mbxRingSet ch v = (s.mbxRingSet ch v).touch k
    := by simp [State.mbxRingSet]

@[simp] theorem State.mbxErrLog_touch (s : State) (ch cause master k : Nat) :
    (s.touch k).mbxErrLog ch cause master = (s.mbxErrLog ch cause master).touch k := by simp [State.mbxErrLog]

@[simp] theorem State.mbxPopWith_touch (s : State) (master ch v k : Nat) :
    (s.touch k).mbxPopWith master ch v = (s.mbxPopWith master ch v).touch k := by
  unfold State.mbxPopWith
  (repeat' split) <;> simp_all

@[simp] theorem State.mbxAbandon_touch (s : State) (ch code k : Nat) : (s.touch k).mbxAbandon ch code = (s.mbxAbandon ch code).touch k
    := by simp [State.mbxAbandon]

@[simp] theorem State.mbxBindWrite_touch (s : State) (ch v k : Nat) : (s.touch k).mbxBindWrite ch v = (s.mbxBindWrite ch v).touch k
    := by simp [State.mbxBindWrite]

@[simp] theorem State.errNRelease_touch (s : State) (k : Nat) : (s.touch k).errNRelease = (s.errNRelease).touch k := by rfl

@[simp] theorem State.errPinArm_touch (s : State) (k : Nat) : (s.touch k).errPinArm = (s.errPinArm).touch k := by simp [State.errPinArm]

@[simp] theorem State.errPinWrite_touch (s : State) (v k : Nat) : (s.touch k).errPinWrite v = (s.errPinWrite v).touch k
    := by simp [State.errPinWrite]

@[simp] theorem State.errSrcW1c_touch (s : State) (n k : Nat) : (s.touch k).errSrcW1c n = (s.errSrcW1c n).touch k := by
  unfold State.errSrcW1c
  dsimp only
  (repeat' split) <;> simp_all

@[simp] theorem State.errStatusW1c_touch (s : State) (g v k : Nat) : (s.touch k).errStatusW1c g v = (s.errStatusW1c g v).touch k
    := by simp [State.errStatusW1c]

@[simp] theorem State.errFirstW1c_touch (s : State) (g k : Nat) : (s.touch k).errFirstW1c g = (s.errFirstW1c g).touch k := by
  unfold State.errFirstW1c
  (repeat' split) <;> simp_all

@[simp] theorem State.errReactSet_touch (s : State) (g : Nat) (hi : Bool) (v k : Nat) :
    (s.touch k).errReactSet g hi v = (s.errReactSet g hi v).touch k := by
  unfold State.errReactSet
  (repeat' split) <;> simp_all

@[simp] theorem State.offline_touch (s : State) (c k : Nat) : (s.touch k).offline c = s.offline c := rfl

@[simp] theorem State.bistReady_touch (s : State) (scope unit k : Nat) : (s.touch k).bistReady scope unit = s.bistReady scope unit := rfl

@[simp] theorem State.bistCtrlWrite_touch (s : State) (v k : Nat) : (s.touch k).bistCtrlWrite v = (s.bistCtrlWrite v).touch k := 
  State.ite_touch Iff.rfl rfl rfl

@[simp] theorem State.now_touch (s : State) (k : Nat) : (s.touch k).now = s.now := rfl

@[simp] theorem State.lensFreezeAct_touch (s : State) (k : Nat) : (s.touch k).lensFreezeAct = (s.lensFreezeAct).touch k := by rfl

@[simp] theorem State.lensFreezeDue_touch (s : State) (k : Nat) : (s.touch k).lensFreezeDue = (s.lensFreezeDue).touch k
    := State.ite_touch Iff.rfl rfl rfl

@[simp] theorem State.lensSnapInt_touch (s : State) (k : Nat) : (s.touch k).lensSnapInt = (s.lensSnapInt).touch k := by simp [State.lensSnapInt]

@[simp] theorem State.lensSnap_touch (s : State) (at_ : Stamp) (k : Nat) : (s.touch k).lensSnap at_ = (s.lensSnap at_).touch k := by
  have h (t : Tbl Nat) : ({ s.touch k with lens := t } : State) = ({ s with lens := t } : State).touch k := rfl
  unfold State.lensSnap
  dsimp only
  rw [State.touch_lens, h, State.setReg_touch, State.setReg_touch, State.setFlag_touch, State.setFlag_touch, State.lensSnapInt_touch]

@[simp] theorem State.nowFrac_touch (s : State) (k : Nat) : (s.touch k).nowFrac = s.nowFrac := rfl

@[simp] theorem State.stamp_touch (s : State) (k : Nat) : (s.touch k).stamp = s.stamp := rfl

@[simp] theorem State.lensCtrlWrite_touch (s : State) (v k : Nat) : (s.touch k).lensCtrlWrite v = (s.lensCtrlWrite v).touch k := by
  unfold State.lensCtrlWrite
  simp
  rfl

@[simp] theorem State.msgWaits_touch (s : State) (m b k : Nat) : (s.touch k).msgWaits m b = s.msgWaits m b := rfl

@[simp] theorem State.dbFollowAll_touch (s : State) (m : Nat) (was : Nat → Bool) (k : Nat) :
    (s.touch k).dbFollowAll m was = (s.dbFollowAll m was).touch k := by simp [State.dbFollowAll]

@[simp] theorem State.dbClear_touch (s : State) (m v k : Nat) : (s.touch k).dbClear m v = (s.dbClear m v).touch k := by
  unfold State.dbClear
  (repeat' split) <;> simp_all

@[simp] theorem State.dbMaskSet_touch (s : State) (m v k : Nat) : (s.touch k).dbMaskSet m v = (s.dbMaskSet m v).touch k := by
  unfold State.dbMaskSet
  cases dbOffsets m with
  | none => rfl
  | some e =>
    obtain ⟨p, j⟩ := e
    have hl : (s.touch k).dbLevel m = s.dbLevel m := funext fun b => State.dbLevel_touch s m b k
    simp [hl]

/-! ### Register writes and the store buffer -/

@[simp] theorem State.regWrite_touch (s : State) (d : RegDesc) (ix : List Nat) (master off v k : Nat) :
    (s.touch k).regWrite d ix master off v = ((s.regWrite d ix master off v).1.touch k, (s.regWrite d ix master off v).2) := by
  unfold State.regWrite
  rw [State.fieldsWrite_touch, State.setReg_touch]
  split
  case h_12 => exact Prod.ext (State.ite_touch Iff.rfl rfl rfl) rfl
  case h_67 =>
    dsimp only
    (repeat' split) <;> rfl
  all_goals simp
  all_goals exact State.ite_touch Iff.rfl rfl rfl

@[simp] theorem State.accessRefused_touch (s : State) (off size master k : Nat) :
    (s.touch k).accessRefused off size master = (s.accessRefused off size master).touch k := by
  unfold State.accessRefused
  (repeat' split) <;> simp_all

@[simp] theorem writeReg_touch (s : State) (master priv off size v k : Nat) :
    writeReg (s.touch k) master priv off size v = ((writeReg s master priv off size v).1.touch k, (writeReg s master priv off size v).2) := by
  unfold writeReg
  (repeat' split) <;> simp_all

@[simp] theorem State.performStore_touch (s : State) (n : Nat) (t : MemType) (priv a : Nat) (bs : List Byte) (k : Nat) :
    (s.touch k).performStore n t priv a bs = (s.performStore n t priv a bs).touch k := by
  unfold State.performStore
  rw [State.rangeKind_touch, State.hostOk_touch]
  cases s.rangeKind a bs.length with
  | none => rfl
  | some r =>
    cases r with
    | dram => cases t <;> simp [Performed.touch]
    | host =>
      dsimp only
      rw [State.hostWriteLog_touch]
      by_cases h : s.hostOk = true
      · rw [if_pos h, if_pos h]
        rcases s.hostWriteLog n a with ⟨s1, _ | _⟩
        · rfl
        · cases t <;> simp [Performed.touch]
      · rw [if_neg h, if_neg h]
        rfl
    | regs =>
      dsimp only
      rw [writeReg_touch]
      by_cases h : t = .device
      · rw [if_pos h, if_pos h]
        rcases writeReg s (lpMaster n) priv (regOff a) bs.length (leNat bs) with ⟨s1, _ | _⟩ <;> rfl
      · rw [if_neg h, if_neg h]
        rfl
    | _ => rfl

@[simp] theorem State.lineOp_touch (s : State) (c op : Nat) (device : Bool) (line k : Nat) :
    (s.touch k).lineOp c op device line = (s.lineOp c op device line).touch k := by
  unfold State.lineOp
  (repeat' split) <;> simp_all

@[simp] theorem State.clineAt_touch (s : State) (n op : Nat) (device : Bool) (line k : Nat) :
    (s.touch k).clineAt n op device line = (s.clineAt n op device line).touch k := by simp [State.clineAt]

@[simp] theorem State.maintRefused_touch (s : State) (n k : Nat) : (s.touch k).maintRefused n = (s.maintRefused n).touch k
    := by simp [State.maintRefused]

@[simp] theorem State.pflkAt_touch (s : State) (n way : Nat) (sc : Bool) (line k : Nat) :
    (s.touch k).pflkAt n way sc line = (s.pflkAt n way sc line).touch k := by
  unfold State.pflkAt
  cases sc
  · by_cases hn : n < 96
    · cases h : s.placeL2 (n / 6) way line <;> simp [h, hn]
    · simp [hn]
  · cases h : s.placeSc way line <;> simp [h]

@[simp] theorem State.performEntry_touch (s : State) (n : Nat) (e : SbEntry) (k : Nat) :
    (s.touch k).performEntry n e = (s.performEntry n e).touch k := by
  unfold State.performEntry
  cases e.kind <;> simp [Performed.touch]

@[simp] theorem State.drainOne_touch (s : State) (n k : Nat) : (s.touch k).drainOne n = ((s.drainOne n).1.touch k, (s.drainOne n).2) := by
  unfold State.drainOne
  rw [State.lp_touch]
  dsimp only
  cases (s.lp n).postWait with
  | some ch =>
    dsimp only
    rw [State.chan_touch]
    split
    · rfl
    · rw [State.onLp_touch]
  | none =>
    dsimp only
    rcases sendable (s.lp n).sb with _ | ⟨i0, is⟩
    · rfl
    dsimp only
    rw [State.fresh_touch]
    have hf : (if (i0 :: is).length ≤ 1 then (0, s.touch k) else (s.fresh.1, s.fresh.2.touch k)) =
        ((if (i0 :: is).length ≤ 1 then (0, s) else s.fresh).1, (if (i0 :: is).length ≤ 1 then (0, s) else s.fresh).2.touch k) := by
      (repeat' split) <;> rfl
    rw [hf]
    generalize (if (i0 :: is).length ≤ 1 then (0, s) else s.fresh) = e0
    cases (s.lp n).sb[((i0 :: is)[e0.1 % (i0 :: is).length]?).getD i0]? with
    | none => rfl
    | some e =>
      dsimp only
      rw [State.performEntry_touch]
      rcases e0.2.performEntry n e with t | t | t
      · dsimp only [Performed.touch]
        cases postChannel e with
        | none => simp
        | some ch =>
          dsimp only
          rw [State.chan_touch]
          (repeat' split) <;> simp
      · rfl
      · simp [Performed.touch]

end Sys2Proof.Machine
end

section
/-! SUPPORT. What a floating-point operation and a comparison come to by the exceptions that they signal (04 R117, 05 R142, R143, R146), and
the statement about them. -/

namespace Sys2Proof.Machine

open Sys2Proof.Safety

/-! ### A destination's write after a rewrite of the processor's entry -/

theorem canon_tblSet {α : Type} (t : Tbl α) (n : Nat) (x : α) : canon (tblSet t n x) n = tblSet t n x := by
  rw [canon, tblGet?_tblSet_same, Option.elim_some, tblSet_tblSet_same]

theorem State.touch_onLp_same (s : State) (n : Nat) (f : LP → LP) : (s.touch n).onLp n f = s.onLp n f := by
  rw [State.onLp_touch]
  exact congrArg (fun t => { s.onLp n f with lps := t }) (canon_tblSet _ _ _)

/-- A change of a listed processor that leaves its entry as it was moves the entry alone. -/
theorem State.onLp_eq_touch {s : State} {n : Nat} {f : LP → LP} (h : (tblGet? s.lps n).isSome) (hf : f (s.lp n) = s.lp n) :
    s.onLp n f = s.touch n := by
  obtain ⟨p, hp⟩ := Option.isSome_iff_exists.1 h
  have hl : s.lp n = p := by rw [State.lp, tblGetD, hp, Option.getD_some]
  rw [State.onLp, hf, State.setLp, State.touch, canon, hp, hl, Option.elim_some]

@[simp] theorem State.push_touch (s : State) (n : Nat) (e : SbEntry) (k : Nat) : (s.touch k).push n e = (s.push n e).touch k := by
  rw [State.push, State.push, State.lp_touch, State.drainOne_touch, State.touch_ite, State.onLp_touch]

@[simp] theorem State.store_touch (s : State) (n a : Nat) (t : MemType) (bs : List Byte) (k : Nat) :
    (s.touch k).store n a t bs = (s.store n a t bs).touch k := by
  rw [State.store, State.foldl_touch (fun u e => by rw [State.lp_touch, State.push_touch]), State.onLp_touch, State.store]

theorem State.putOpd_touch (s : State) (n : Nat) (o : Opd) (pl : Place) (v k : Nat) :
    (s.touch k).putOpd n o pl v = (s.putOpd n o pl v).touch k := by
  cases pl with
  | const _ => rfl
  | breg b => exact State.onLp_touch s n (fun p => p.setB b (v % 2 ^ (8 * o.size))) k
  | wslot off => rw [State.putOpd, State.wwrite, State.lp_touch, State.store_touch, State.putOpd, State.wwrite]
  | mem a =>
    unfold State.putOpd
    rw [State.lp_touch]
    dsimp only
    cases (s.lp n).check a o.size .write (s.lp n).level with
    | error _ => rfl
    | ok mt => exact State.ite_touch Iff.rfl (State.storeWb_touch ..) (State.store_touch ..)

theorem Ready.put_touch (r : Ready) (s : State) (n i v k : Nat) : r.put (s.touch k) n i v = (r.put s n i v).touch k := by
  unfold Ready.put
  cases r.os[i]? with
  | none => rfl
  | some o =>
    cases r.ps[i]? with
    | none => rfl
    | some pl => exact State.putOpd_touch ..

theorem State.commit_touch_same (s : State) (n next : Nat) : (s.touch n).commit n next = s.commit n next := by
  rw [State.commit, State.touch_onLp_same]
  rfl

theorem moved_touch_same (s : State) (r : Ready) (n next x : Nat) : moved (s.touch n) r n next x = moved s r n next x := by
  rw [moved, Ready.put_touch, State.commit_touch_same, moved]

/-! ### A processor that reads its operands is listed -/

theorem isSome_of_canRun {s t : State} {n : Nat} (hq : Quiet n s t) (hr : s.canRun n = true) : (tblGet? t.lps n).isSome := by
  obtain ⟨c, i, l, hl⟩ := hq.lp_eq
  cases h : tblGet? t.lps n with
  | some p => rfl
  | none =>
    have hrun : (s.lp n).run = .empty := by
      have := congrArg LP.run hl
      rw [State.lp, tblGetD, h] at this
      exact this.symm
    simp [State.canRun, hrun] at hr

theorem isSome_onLp (s : State) (n : Nat) (f : LP → LP) : (tblGet? (s.onLp n f).lps n).isSome := by
  rw [State.onLp, State.setLp, tblGet?_tblSet_same]
  rfl

/-- An address formed without a pointer leaves the processor listed. -/
theorem State.place_isSome {s t : State} {n idx : Nat} {o : Opd} {pl : Place} (hd : ∀ b d, o.spec ≠ .deref b d)
    (hs : (tblGet? s.lps n).isSome) (h : s.place n idx o = .ok (t, pl)) : (tblGet? t.lps n).isSome := by
  unfold State.place at h
  dsimp only at h
  split at h
  case h_7 => cases h; exact isSome_onLp ..
  case h_8 => cases h; exact isSome_onLp ..
  case h_9 b d hb => exact absurd hb (hd b d)
  all_goals cases h; exact hs

/-- A source or a destination that is no memory operand of an atomic. -/
def PlainOpd (o : Opd) : Prop := o.atomic = false ∧ (o.role = .src ∨ o.role = .dst)

theorem clearsRsv_deref {p : LP} {o : Opd} {pl : Place} {b : BitVec 4} {d : BitVec 32} (h : o.spec = .deref b d) : clearsRsv p o pl = true := by
  unfold clearsRsv
  rw [h]

/-- A plain operand whose access clears no reservation is read without an effect. -/
theorem State.fetchOpd_plain {s t : State} {n idx v : Nat} {o : Opd} {pl : Place} {p : LP} (ho : PlainOpd o) (hc : clearsRsv p o pl = false)
    (h : s.fetchOpd n idx o pl = .ok (t, v)) : t = s := by
  obtain ⟨hat, hrole⟩ := ho
  unfold State.fetchOpd at h
  dsimp only at h
  split at h
  · cases h; rfl
  · cases h; rfl
  · split at h <;> cases h
    rfl
  next a =>
    have hdst : o.role = .dst := by
      refine hrole.resolve_left fun hsrc => ?_
      unfold clearsRsv at hc
      split at hc
      · cases hc
      next hm =>
        simp [hsrc, hat] at hc
      next hn => exact hn _ rfl
    rw [hdst, hat] at h
    simp only [reduceCtorEq, if_false, Bool.false_eq_true, decide_false, Bool.false_and, ne_eq, not_true_eq_false] at h
    split at h
    · cases h
    · split at h <;> cases h
      rfl

theorem State.fetchOpds_plain {n : Nat} {late : Option Trap} {p : LP} {os : List Opd} (ho : ∀ o ∈ os, PlainOpd o) :
    ∀ {ps : List Place} {s t : State} {idx : Nat} {vs : List Nat}, touchesMem p os ps = false →
      s.fetchOpds n late idx os ps = .ok (t, vs) → t = s := by
  induction os with
  | nil => exact fun _ h => (State.fetchOpds_end_ok (.inl rfl) h).2.1
  | cons o os ih =>
    intro ps s t idx vs hm h
    cases ps with
    | nil => exact (State.fetchOpds_end_ok (.inr rfl) h).2.1
    | cons pl ps =>
      obtain ⟨u, v, vs', hu, hf, -⟩ := State.fetchOpds_cons_ok h
      obtain ⟨h1, h2⟩ := Bool.or_eq_false_iff.1 hm
      rw [ih (fun o h => ho o (List.mem_cons_of_mem _ h)) h2 hf, State.fetchOpd_plain (ho o List.mem_cons_self) h1 hu]

theorem State.places_isSome {n : Nat} {p : LP} : ∀ {os : List Opd} {s t : State} {idx : Nat} {ps : List Place}, touchesMem p os ps = false →
    (tblGet? s.lps n).isSome → s.places n idx os = (t, ps, none) → (tblGet? t.lps n).isSome
  | [], s, t, idx, ps, _, hs, h => by
    cases h
    exact hs
  | o :: os, s, t, idx, ps, hm, hs, h => by
    rw [State.places] at h
    split at h
    · cases h
    next u pl hu =>
      simp only [Prod.mk.injEq] at h
      obtain ⟨rfl, rfl, hl⟩ := h
      obtain ⟨h1, h2⟩ := Bool.or_eq_false_iff.1 hm
      refine State.places_isSome h2 (State.place_isSome (fun b d hb => ?_) hs hu) (Prod.ext rfl (Prod.ext rfl hl))
      rw [clearsRsv_deref hb] at h1
      cases h1

theorem operandsReady_canRun {n opBytes maxLevel : Nat} {os : List Opd} {s s1 : State} {r : Ready} {next : Nat}
    (h : operandsReady s n opBytes maxLevel os = some (s1, r, next)) : s.canRun n = true := by
  unfold operandsReady at h
  split at h
  next hb =>
    simp only [mayBegin, Bool.and_eq_true] at hb
    exact hb.1.1.1.1.1
  · cases h

/-- A processor whose plain operands are ready is listed. -/
theorem operandsReady_isSome {n opBytes maxLevel : Nat} {os : List Opd} {s s1 : State} {r : Ready} {next : Nat} (ho : ∀ o ∈ os, PlainOpd o)
    (h : operandsReady s n opBytes maxLevel os = some (s1, r, next)) : (tblGet? s1.lps n).isSome := by
  have hr := operandsReady_canRun h
  obtain ⟨u, t, late, hp, hf, -, -, rfl⟩ := operandsReady_elim h
  split
  · exact isSome_onLp ..
  next hm =>
    rw [Bool.not_eq_true] at hm
    rw [State.fetchOpds_plain ho hm hf]
    exact State.places_isSome hm (isSome_of_canRun (s.fetchFills_quiet n _) hr) (State.fetchOpds_late hf ▸ hp)

/-! ### The operations -/

section
variable {n opBytes : Nat} {os : List Opd} {s s1 : State} {r : Ready} {next : Nat}
  {f : State → Ready → Nat → Except Trap (State × Nat)} (hn : n < 98) (h : operandsReady s n opBytes 3 os = some (s1, r, next))
include hn h

/-- A floating-point operation that writes its first operand. -/
theorem forLp_fpPut {x : Nat × Exc} (hf : f s1 r next = fpFinish n x.2 s1 next fun t => r.put t n 0 x.1) :
    (fpVector x.2 (fpEnables (s1.lp n).fpcs) = none → forLp n s (fun s => execOn n opBytes 3 os s f) =
      .next (moved (s1.onLp n fun p => { p with fpcs := p.fpcs ||| BitVec.ofNat 32 x.2.bits }) r n next x.1)) ∧
    (∀ v, fpVector x.2 (fpEnables (s1.lp n).fpcs) = some v → forLp n s (fun s => execOn n opBytes 3 os s f) =
      .next (trapped s n (mkTrap v (x.2.bits + 32 * bits (s1.lp n).fpcs.toNat 16 3) 0 0))) :=
  ⟨forLp_fpFinish_none hn h hf, fun _ => forLp_fpFinish_some hn h hf⟩

end

theorem plain_dst (d : Spec) (k : Nat) : PlainOpd (odst d k) := ⟨rfl, .inr rfl⟩

theorem plain_src (a : Spec) (k : Nat) : PlainOpd (osrc a k) := ⟨rfl, .inl rfl⟩

theorem bitOf_fpEnables (fpcs : BitVec 32) : bitOf (fpEnables fpcs) 4 = bitOf fpcs.toNat 12 := by
  rw [fpEnables, bitOf_bits]
  rfl

/-- FPCS does not change where nothing is signalled. -/
theorem State.fpRaise_none {s : State} {n : Nat} (h : (tblGet? s.lps n).isSome) : s.fpRaise n Exc.none = s.touch n := by
  refine State.onLp_eq_touch h ?_
  have hz : (s.lp n).fpcs ||| BitVec.ofNat 32 Exc.none.bits = (s.lp n).fpcs := BitVec.or_zero
  rw [hz]

/-- What the statement says of an operation that signals `x.2` and writes `x.1`. -/
def FpDone (n : Nat) (s s1 : State) (r : Ready) (next : Nat) (x : Nat × Exc) (i : Instr) : Prop :=
  (fpVector x.2 (fpEnables (s1.lp n).fpcs) = none →
    exec i s = .next (moved (s1.onLp n fun p => { p with fpcs := p.fpcs ||| BitVec.ofNat 32 x.2.bits }) r n next x.1)) ∧
  (∀ v, fpVector x.2 (fpEnables (s1.lp n).fpcs) = some v →
    exec i s = .next (trapped s n (mkTrap v (x.2.bits + 32 * bits (s1.lp n).fpcs.toNat 16 3) 0 0)))

section
variable {n : Nat} {ff : FFmt} {d a b : Spec} {s s1 : State} {r : Ready} {next : Nat} {i : Instr} (hn : n < 98)
include hn

theorem fpDone_fp3 {g : Fmt → RMode → Bool → FVal → FVal → Nat × Exc} (hi : exec i s = forLp n s fun s => fp3 n ff d a b s g)
    (h : operandsReady s n 1 3 [odst d (fmtOf ff).bytes, osrc a (fmtOf ff).bytes, osrc b (fmtOf ff).bytes] = some (s1, r, next)) :
    FpDone n s s1 r next (g (fmtOf ff) (s1.rmode n) (s1.ufEn n) ((fmtOf ff).source r 1) ((fmtOf ff).source r 2)) i := by
  rw [FpDone, hi]
  unfold fp3
  exact forLp_fpPut hn h rfl

theorem fpDone_fp2 {k l : Nat} {f : Fmt} {g : RMode → Bool → FVal → Nat × Exc} (hi : exec i s = forLp n s fun s => fp2 n k l f d a s g)
    (h : operandsReady s n k 3 [odst d l, osrc a f.bytes] = some (s1, r, next)) :
    FpDone n s s1 r next (g (s1.rmode n) (s1.ufEn n) (f.source r 1)) i := by
  rw [FpDone, hi]
  exact forLp_fpPut hn h rfl

theorem fpDone_fpFromInt {f : Fmt} {g : Nat → Int} (hi : exec i s = forLp n s fun s => fpFromInt n f d a s g)
    (h : operandsReady s n 2 3 [odst d f.bytes, osrc a 8] = some (s1, r, next)) :
    FpDone n s s1 r next (f.ofInt (s1.rmode n) (g (r.val 1))) i := by
  rw [FpDone, hi]
  exact forLp_fpPut hn h rfl

theorem fpDone_fma
    (h : operandsReady s n 1 3 [ormw d (fmtOf ff).bytes, osrc a (fmtOf ff).bytes, osrc b (fmtOf ff).bytes] = some (s1, r, next)) :
    FpDone n s s1 r next ((fmtOf ff).fma (s1.rmode n) (s1.ufEn n) ((fmtOf ff).source r 0) ((fmtOf ff).source r 1) ((fmtOf ff).source r 2))
      (.fma n ff d a b) := by
  rw [FpDone, show exec (.fma n ff d a b) s = execFma n ff d a b s from rfl, execFma]
  exact forLp_fpPut hn h rfl

end

/-- Whether a comparison signals invalid (05 R146). -/
def cmpInvalid (quiet : Bool) (x y : FVal) : Bool := if quiet then x.isSnan || y.isSnan else x.isNan || y.isNan

section
variable {n : Nat} {ff : FFmt} {quiet : Bool} {a b : Spec} {s s1 : State} {r : Ready} {next : Nat} {i : Instr} (hn : n < 98)
  (hi : exec i s = forLp n s fun s => execOn n 1 3 [osrc a (fmtOf ff).bytes, osrc b (fmtOf ff).bytes] s fun s r next =>
    fpFinish n ⟨cmpInvalid quiet ((fmtOf ff).source r 0) ((fmtOf ff).source r 1), false, false, false, false⟩ s next
      fun t => t.setFlags n (fcmpFlags ((fmtOf ff).source r 0) ((fmtOf ff).source r 1)))
  (h : operandsReady s n 1 3 [osrc a (fmtOf ff).bytes, osrc b (fmtOf ff).bytes] = some (s1, r, next))
include hn hi h

theorem fpCompare_quiet (hc : cmpInvalid quiet ((fmtOf ff).source r 0) ((fmtOf ff).source r 1) = false) :
    exec i s = .next ((s1.setFlags n (fcmpFlags ((fmtOf ff).source r 0) ((fmtOf ff).source r 1))).commit n next) := by
  have hs : (tblGet? s1.lps n).isSome := by
    refine operandsReady_isSome ?_ h
    rintro o (_ | ⟨_, _ | ⟨_, ⟨⟩⟩⟩)
    · exact plain_src a _
    · exact plain_src b _
  rw [hi, forLp_fpFinish_none (e := ⟨false, false, false, false, false⟩) hn h
    (congrArg (fun c => fpFinish n ⟨c, false, false, false, false⟩ s1 next _) hc) rfl]
  refine congrArg (fun t => Host.Outcome.next (State.commit t n next)) ?_
  exact (congrArg (fun t => State.setFlags t n _) (State.fpRaise_none hs)).trans (State.touch_onLp_same ..)

theorem fpCompare_trap (hc : cmpInvalid quiet ((fmtOf ff).source r 0) ((fmtOf ff).source r 1) = true)
    (he : bitOf (s1.lp n).fpcs.toNat 12 = true) :
    exec i s = .next (trapped s n (mkTrap 0x10 (16 + 32 * bits (s1.lp n).fpcs.toNat 16 3) 0 0)) := by
  rw [hi]
  refine forLp_fpFinish_some (e := ⟨true, false, false, false, false⟩) hn h
    (congrArg (fun c => fpFinish n ⟨c, false, false, false, false⟩ s1 next _) hc) ?_
  rw [fpVector, bitOf_fpEnables, he]
  rfl

theorem fpCompare_flagged (hc : cmpInvalid quiet ((fmtOf ff).source r 0) ((fmtOf ff).source r 1) = true)
    (he : bitOf (s1.lp n).fpcs.toNat 12 = false) :
    exec i s = .next (((s1.onLp n fun p => { p with fpcs := p.fpcs ||| 16#32 }).setFlags n
      (fcmpFlags ((fmtOf ff).source r 0) ((fmtOf ff).source r 1))).commit n next) := by
  have hv : fpVector ⟨true, false, false, false, false⟩ (fpEnables (s1.lp n).fpcs) = none := by simp [fpVector, bitOf_fpEnables, he]
  rw [hi, forLp_fpFinish_none (e := ⟨true, false, false, false, false⟩) hn h
    (congrArg (fun c => fpFinish n ⟨c, false, false, false, false⟩ s1 next _) hc) hv]
  rfl

end

/-- Settles O11: each operation ends by the one rule for the exceptions that its format's operation signals. -/
theorem floatingPoint : Obligations.FloatingPoint := by
  refine ⟨?operations, ?comparisons⟩
  case operations =>
    rintro n ff d a b s s1 r next hn f rm uf rfl rfl rfl done hd
    have hd' : ∀ {x : Nat × Exc} {i : Instr}, FpDone n s s1 r next x i → done x.2 x.1 i := fun h => (hd _ _ _).2 h
    refine ⟨?_, ?_, fun h => hd' (fpDone_fp2 hn rfl h),
      fun h => hd' (fpDone_fp2 (g := fun rm _ v => (fmtOf ff).frint rm v) hn rfl h),
      fun h => ⟨hd' (fpDone_fp2 (g := fun rm _ v => cvtFi rm v) hn rfl h), hd' (fpDone_fp2 (g := fun rm _ v => cvtFu rm v) hn rfl h)⟩,
      fun h => ⟨hd' (fpDone_fpFromInt (g := fun v => signed v 64) hn rfl h), hd' (fpDone_fpFromInt (g := fun v => (v : Int)) hn rfl h)⟩, ?_⟩
    · rintro h x y rfl rfl
      exact ⟨hd' (fpDone_fp3 hn rfl h), hd' (fpDone_fp3 hn rfl h), hd' (fpDone_fp3 hn rfl h), hd' (fpDone_fp3 hn rfl h),
        hd' (fpDone_fp3 (g := fun f _ _ x y => f.minmax false x y) hn rfl h),
        hd' (fpDone_fp3 (g := fun f _ _ x y => f.minmax true x y) hn rfl h)⟩
    · rintro h x rfl
      exact hd' (fpDone_fma hn h)
    · rintro p src dst hp h x rfl
      obtain ⟨rfl, rfl⟩ := Prod.mk.inj hp
      exact hd' (fpDone_fp2 hn rfl h)
  case comparisons =>
    rintro n ff d a b s s1 r next hn f rfl
    refine ⟨?_, fun h => ?_⟩
    · rintro h x y rfl rfl
      refine ⟨fun hx hy => fpCompare_quiet hn rfl h ?_, fun hs he => fpCompare_trap hn rfl h ?_ he, fun hs he => fpCompare_flagged hn rfl h ?_ he,
        fun hx hy => fpCompare_quiet hn rfl h ?_, fun hs he => fpCompare_trap hn rfl h ?_ he⟩
      · rw [cmpInvalid, if_pos rfl, hx, hy, Bool.or_self]
      · rwa [cmpInvalid, if_pos rfl, Bool.or_eq_true]
      · rwa [cmpInvalid, if_pos rfl, Bool.or_eq_true]
      · rw [cmpInvalid, if_neg Bool.false_ne_true, hx, hy, Bool.or_self]
      · rwa [cmpInvalid, if_neg Bool.false_ne_true, Bool.or_eq_true]
    · have hp := (fpDone_fp2 (i := .fclass n ff d a) hn rfl h).1 rfl
      refine hp.trans (congrArg _ ?_)
      refine (congrArg (fun t => moved t r n next _) (State.fpRaise_none (operandsReady_isSome ?_ h))).trans (moved_touch_same ..)
      rintro o (_ | ⟨_, _ | ⟨_, ⟨⟩⟩⟩)
      · exact plain_dst d 2
      · exact plain_src a _

end Sys2Proof.Machine
end
